-- ==== Sys2Proof/Word.lean ====
section
/-! DEFINITION. The widths of the NM-960's values: setup registers and their fields (R434), bytes, the 4,096 bytes of one
LBA (R62, Table 0.5). -/

namespace Sys2Proof

/-- A 32-bit setup register (15_setup_space.md, R431). -/
abbrev Word := BitVec 32

/-- One byte of a descriptor, a record or a memory. -/
abbrev Byte := BitVec 8

/-- The 4,096 data bytes of one logical block (Table 3.3: one LBA format, 4,096 B); bits 8i+7..8i are byte i. -/
abbrev Block := BitVec 32768

end Sys2Proof
end

