-- ==== Sys2Proof/Syntax.lean ====
section
/-! DEFINITION. The commands: one constructor of `Instr` for each row of spec/opcode_table.json, with the operands that the
rule of the row gives it. Where an outcome rests on the medium, a sensor, a random test or the check of a published standard
(a decode, a program status, an ECDSA signature, a self-test), the verdict is an operand (log entry 7). -/

namespace Sys2Proof

/-- Who sent a control-ring descriptor (R89, R91, R383, R447): a device OS ring, a vendor admin command, Beldy. -/
inductive Src where
  | ring (ix : Nat)
  | admin (cid : Nat)
  | beldy
  deriving DecidableEq, Repr

/-- Who makes a setup-space access (R432, R433). -/
inductive Who where
  | core (n : Nat)
  | beldy
  | jtag
  deriving DecidableEq, Repr

/-- The head of an I/O command: its SQ, command identifier, namespace and ORD bit (R71, R74). -/
structure IoHdr where
  sq : Nat
  cid : Nat
  nsid : Nat
  ord : Bool
  deriving DecidableEq, Repr

/-- A vendor admin command in the layout of Table 3.7; `rsv`: a reserved field of it is nonzero. -/
structure Vend where
  cid : Nat
  nsid : Nat
  prp2 : Nat
  opcode : Nat
  flags : Nat
  rspec : Nat
  rsv : Bool
  body : List Byte
  deriving DecidableEq, Repr

/-- One row of a characteristic table (Table 2.3): `cls` lists (slot index 24c + s, class code) for the codes that are
not Idle; `rsv`: a reserved byte of the row is nonzero. -/
structure CtRow where
  row : Nat
  wCount : Nat
  cls : List (Nat × Nat)
  rsv : Bool
  deriving DecidableEq, Repr

/-- The checks of an image that a published standard decides (Table 12.7, check 3). -/
structure Crypt where
  keyOk : Bool := true
  sigOk : Bool := true
  digestOk : Bool := true
  deriving DecidableEq, Repr

/-- A carrier's membership record (Table 8.9), `ours`: its CRC, MAGIC and UNIT_ID are this unit's. -/
structure MembRec where
  ours : Bool
  port : Nat
  position : Nat
  gen : Nat
  deriving DecidableEq, Repr

/-- What a target answers at identification (R167): its channel position and number, the eight bytes of READ ID, whether it reports
ONFI 5.1 and NV-LPDDR4, and whether the CRC of its parameter page is correct. -/
structure TargetSeen where
  chpos : Nat
  target : Nat
  id : List Byte
  onfiOk : Bool := true
  crcOk : Bool := true
  deriving DecidableEq, Repr

/-- What a port shows at a start (Table 8.11 steps 1-4): presence, the fault sample, the identity read, the targets that answer, the
channel positions whose training fails. -/
structure PortSeen where
  present : Bool
  faultLow : Bool
  serial : Nat
  memb : Option MembRec
  targets : List TargetSeen
  untrained : List Nat := []
  deriving DecidableEq, Repr

/-- What steps 2 to 7 of Table 12.3 find: the verdicts of the self-tests, checks and identifications. -/
structure StartEnv where
  qualTime : Nat
  calOk : Bool
  trngOk : Bool
  failWords : List (Nat × Nat) := []
  injectFail : List Nat := []
  loader : Crypt
  unwrapOk : Bool
  ledger2 : Crypt
  ledger3 : Crypt
  os4 : Crypt
  os5 : Crypt
  settingsOk : Bool
  bandTableOk : Bool
  profilesOk : List Bool := []
  lanesOk : List Bool
  ports : List PortSeen
  badRoots : List Nat := []
  validPast : Bool := false
  replayMs : Nat := 0
  deriving DecidableEq, Repr

/-- Which memory an SRAM instance serves, as far as Table 11.8 tells them apart. -/
inductive SramUse where
  | ledger (pair core : Nat)
  | segmentCache
  | cores
  | block
  deriving DecidableEq, Repr

/-- A word of protected memory as a read finds it (R340, R341): its instance, its address, the 80 bits. -/
structure WordSeen where
  inst : Nat
  addr : Nat
  use : SramUse := .block
  code : BitVec 80
  deriving DecidableEq, Repr

/-- An edge of FSYNC_IN: nanoseconds since the command before, and which edge it is (Table 2.8, TCK_FRAME.EDGE). -/
structure FsyncSeen where
  dt : Nat
  rising : Bool
  deriving DecidableEq, Repr

/-- A BAR doorbell write: the value written, and the queue's entry in the shadow buffer (R66). -/
structure Doorbell where
  value : Nat
  entry : Nat
  deriving DecidableEq, Repr

/-- What Get Features names: the feature identifier and CDW11 (R64). -/
structure FeatureAsk where
  fid : Nat
  dw11 : Nat
  deriving DecidableEq, Repr

/-- A program unit of a band on a channel (R181). -/
structure UnitAt where
  unit : Nat
  ch : Nat
  deriving DecidableEq, Repr

/-- What a reading of die temperatures brings: targets by 32 × channel + target (R193), carriers by port (R243). -/
structure TempsSeen where
  targets : List (Nat × Int)
  carriers : List (Nat × Int)
  deriving DecidableEq, Repr

/-- A Mover descriptor, with its source words as the copy finds them (R341, R352). -/
structure MovDesc where
  bytes : List Byte
  words : List WordSeen
  deriving DecidableEq, Repr

/-- Why a ledger core flags a fault itself (R334): an uncorrectable word in its data SRAM or fetch path, or n traps in one tick. -/
inductive LedgerCause where
  | word
  | traps (n : Nat)
  deriving DecidableEq, Repr

/-- The raw result of a codeword read (R190, R192, R195): the one bits among its 36,864 raw bits, and whether hard decode passes. -/
structure Raw where
  ones : Nat
  pass : Bool
  deriving DecidableEq, Repr

/-- What the cipher lane meets when it decrypts a codeword (R308, R312): `tampered`: the codeword was altered so that its
tag fails; `mismatch`: lanes on which the two pipelines disagreed, in order (at most two are used). -/
structure LaneSeen where
  tampered : Bool := false
  mismatch : List Nat := []
  katFail : List Nat := []
  deriving DecidableEq, Repr

/-- The header of a received TFP frame (Table 9.1) and what the filter of R268 finds: right port address and UDP port,
a whole message, the GCM tag or handshake signature verdict. -/
structure Tfp where
  addrOk : Bool
  version : Nat
  src : Nat
  dst : Nat
  group : Nat
  session : Nat
  epoch : Nat
  seq : Nat
  msgId : Nat
  ref : Nat
  whole : Bool
  tagOk : Bool
  deriving DecidableEq, Repr

/-- A change of roster (R276): positions removed, or a unit admitted at a position. -/
structure Change where
  removed : List Nat
  added : Option (Nat × Nat)
  deriving DecidableEq, Repr

/-- A roster entry (Table 9.8). -/
structure RosterEntry where
  unitId : Nat
  position : Nat
  addrA : Nat
  addrB : Nat
  deriving DecidableEq, Repr

/-- The checks of a handshake message (R269, R270, Table 9.4) that rest on signatures and certificates. -/
structure HsChecks where
  certOk : Bool
  sigOk : Bool
  idOk : Bool
  secvers : List Nat
  deriving DecidableEq, Repr

/-- The payload of CONFIRM (Table 9.15). -/
structure ConfirmBody where
  secvers : List Nat
  rosterHash : Nat
  sliceSegs : Nat
  deriving DecidableEq, Repr

/-- An intent (Table 9.2): write ID, stripe, first LBA offset, count, data index and the delta of each LBA. -/
structure IntentBody where
  seqNo : Nat
  stripe : Nat
  offset : Nat
  count : Nat
  index : Nat
  delta : List Block
  deriving DecidableEq, Repr

/-- SPDM requests of Table 10.8. -/
inductive SpdmReq where
  | getVersion
  | getCapabilities
  | negotiateAlgorithms
  | getDigests
  | getCertificate (slot offset len : Nat)
  | challenge (slot : Nat)
  | getMeasurements (index : Nat) (signed : Bool)
  | unsupported (code : Nat)
  deriving DecidableEq, Repr

/-- Who asked for a firmware commit (R377): the host's Firmware Commit, a store to CST_UPD_CTL, or a host command that a controller
reset has dropped since (R81). -/
inductive CommitSrc where
  | host (cid : Nat)
  | os
  | dropped
  deriving DecidableEq, Repr

/-- What the checks of a device self-test that read no flash find (Table 3.5): the first failing segment, and the words corrected in
segments 1 and 6 (Table 14.5). -/
structure SelfTestSeen where
  failSeg : Option Nat
  corrected : Nat
  deriving DecidableEq, Repr

/-- The outcome of steps 4 and 5 of Table 8.11: the targets that answer, the channel positions whose training fails, the factory marks
(channel, target set, plane block), and whether the erases passed. -/
structure QualifySeen where
  targets : List TargetSeen
  untrained : List Nat := []
  factory : List (Nat × Nat × Nat)
  erasesOk : Bool
  deriving DecidableEq, Repr

/-- The commands, in the order of spec/opcode_table.json. -/
inductive Instr where
  | tickEdge
  | planningCutOff (late : List Nat) (mismatch : List Nat) (table : Option (List CtRow))
  | tckHoldLimit
  | alarmFired (n : Nat)
  | fsyncEdge (edge : FsyncSeen)
  | fsyncEdgeMissed
  | ppsEdgeJudged (dt high : Nat)
  | ppsWindowMissed (dt : Nat)
  | timeSecArm (v : Word)
  | alarmArm (n : Nat) (hi : Word)
  | frameWrite (v : Word)
  | latchingLoRead (off : Nat)
  | registerWrite (who : Who) (off : Nat) (v : Word)
  | setupAccessFault (addr width : Nat) (isStore : Bool)
  | seal (v : Word)
  | startReady
  | sysResetWarm (v : Word)
  | sysResetColdRestart (v : Word)
  | profileWrite (v : Word)
  | ringEnable (v : Word)
  | ringDisable (v : Word)
  | ringDrainEnd (ix : Nat)
  | gpioEdge (g : Nat) (rising : Bool)
  | coldReset
  | startUp (bootSel compat : Nat)
  | warmReset
  | xtalQualified (env : StartEnv)
  | xtalQualTimeout
  | xtalLost
  | pllUnlock (p : Nat)
  | pllRelocked (p : Nat)
  | aclkFreqWrite (v : Word)
  | gateOn (v : Word)
  | gateOff (v : Word)
  | gateDrainEnd (g : Nat)
  | thmSample (readings : List Int)
  | thermalShutdownPowerOff
  | startTempHoldRelease
  | pfailFall
  | pfailMramCutoff
  | pfailCleared
  | pciePerst
  | hotReset
  | linkDown
  | functionLevelReset
  | controllerReset
  | controllerResetDone
  | ccEnSet
  | ccShutdown (shn : Nat)
  | shutdownDone
  | ideIntegrityFail
  | ideEnable (v : Word)
  | ideDisable (v : Word)
  | ideKeyLoad (v : Word)
  | sqTailDoorbell (sq : Nat) (tail : Doorbell)
  | cqHeadDoorbell (cq : Nat) (head : Doorbell)
  | shadowDoorbellSweep (sqTails cqHeads : List (Nat × Nat))
  | hifCqStall (cq : Nat)
  | lookaheadRelease (sq : Nat)
  | orderedCommandStart (id : Nat)
  | flush (h : IoHdr)
  | write (h : IoHdr) (slba nlb dtype dspec : Nat) (data : List Block)
  | read (h : IoHdr) (slba nlb : Nat)
  | writeZeroes (h : IoHdr) (slba nlb : Nat)
  | datasetManagement (h : IoHdr) (deallocate : Bool) (ranges : List (Nat × Nat))
  | createIoSq (cid qid depth cq : Nat) (contiguous : Bool)
  | deleteIoSq (cid qid : Nat)
  | createIoCq (cid qid depth vector : Nat) (contiguous : Bool)
  | deleteIoCq (cid qid : Nat)
  | getLogPage (cid lid offset len : Nat) (rae : Bool)
  | identify (cid cns nsid : Nat)
  | abort (cid sqid target : Nat)
  | setFeatures (cid fid value : Nat)
  | getFeatures (cid : Nat) (ask : FeatureAsk)
  | asynchronousEventRequest (cid : Nat)
  | namespaceCreate (cid nsze ncap : Nat)
  | namespaceDelete (cid nsid : Nat)
  | namespaceAttach (cid nsid : Nat) (controllers : List Nat)
  | namespaceDetach (cid nsid : Nat) (controllers : List Nat)
  | firmwareImageDownload (cid offset : Nat) (piece : List Byte)
  | commitStore (src : CommitSrc) (slot : Nat)
  | commitStorePending (src : CommitSrc) (slot : Nat)
  | commitMarkPending (src : CommitSrc) (slot : Nat)
  | commitActivate (src : CommitSrc) (slot : Nat)
  | commitEnd (chk : Crypt) (verified : Bool)
  | activationDone
  | selfTestShort (cid nsid : Nat)
  | selfTestExtended (cid nsid : Nat)
  | selfTestAbort (cid : Nat)
  | selfTestEnd (seen : SelfTestSeen)
  | directiveSend (cid nsid dtype doper dspec : Nat)
  | directiveReceive (cid nsid dtype doper : Nat)
  | doorbellBufferConfig (cid : Nat)
  | formatNvm (cid nsid ses lbaf : Nat)
  | securitySend (cid proto : Nat) (req : SpdmReq)
  | securityReceive (cid proto : Nat)
  | spdmReceiveTimeout (cid : Nat)
  | sanitizeCryptoErase (cid : Nat)
  | sanitizeBlockErase (cid : Nat)
  | sanitizeEnd
  | getVersion
  | getCapabilities
  | negotiateAlgorithms
  | getDigests
  | getCertificate (slot offset len : Nat)
  | challenge (slot : Nat)
  | getMeasurements (index : Nat) (signed : Bool)
  | spdmUnsupportedRequest (code : Nat)
  | streamManage (v : Vend)
  | memberManage (v : Vend)
  | fleetManage (v : Vend)
  | lanternControl (v : Vend)
  | writeAccepted (id : Nat)
  | stagingComplete (id : Nat)
  | fleetWriteStart (id : Nat)
  | programStatus (ch target : Nat) (pass : Bool)
  | eraseStatus (ch target : Nat) (pass : Bool)
  | suspendStatus (ch target : Nat)
  | readTransfer (rid ones : Nat) (pass : Bool) (lane : LaneSeen) (words : List WordSeen)
  | softDecodeDone (rid : Nat) (pass : Bool) (lane : LaneSeen)
  | readCompletion (id : Nat)
  | flcOpOvertime (ch target : Nat)
  | memberTimeout (port : Nat)
  | readDeadline (rid : Nat) (tampered : Bool) (lanes : List Nat × List Nat)
  | padWaitExpired (band : Nat) (unit : UnitAt)
  | extentRunGivenUp (gsn : Nat)
  | dieTempRead (temps : TempsSeen)
  | channelTrainingDone (ch : Nat) (pass : Bool)
  | mapRecordForm (id : Nat)
  | mapRecordDurable
  | writeCompletion (id : Nat)
  | checkpointStart
  | checkpointEnd
  | mapCkptLate
  | memberPresenceDebounced (port : Nat)
  | memberFaultSample (port : Nat) (faultLow : Bool)
  | memberIdentityRead (port serial : Nat) (memb : Option MembRec)
  | memberQualifyDone (port : Nat) (seen : QualifySeen)
  | memberRemoved (port : Nat)
  | memberFault (port : Nat)
  | powerSequenceEnd (port : Nat)
  | memberQuery (src : Src) (tag port : Nat)
  | memberAdmit (src : Src) (tag port : Nat)
  | readmitBlank (src : Src) (tag port : Nat)
  | fail (src : Src) (tag port : Nat)
  | powerOn (src : Src) (tag port : Nat)
  | powerOff (src : Src) (tag port : Nat)
  | rebuild (src : Src) (tag port position : Nat)
  | rawRead (src : Src) (tag port chpos target mode block page plane cw destLo destHi : Nat)
  | formatUnit (src : Src) (tag geometry sparePort : Nat) (seen : List (Nat × QualifySeen))
  | open_ (src : Src) (tag stream nsid : Nat)
  | reserve (src : Src) (tag stream rate minRate burst : Nat)
  | release (src : Src) (tag stream : Nat)
  | close (src : Src) (tag stream : Nat)
  | setMarkers (src : Src) (tag stream mode base entries prodAddr consAddr : Nat)
  | mark (src : Src) (tag stream frame : Nat)
  | streamQuery (src : Src) (tag stream : Nat)
  | queryCeiling (src : Src) (tag : Nat)
  | releasingEnd (stream : Nat)
  | arpNdpFrame (port : Nat) (own : Bool)
  | hello (f : Tfp) (c : HsChecks)
  | helloReply (f : Tfp) (c : HsChecks)
  | confirm (f : Tfp) (b : ConfirmBody)
  | heartbeat (f : Tfp) (credit : Nat) (activating : Bool) (sliceSegs : Nat)
  | suspect (f : Tfp) (positions : List Nat)
  | epochPropose (f : Tfp) (epoch : Nat) (c : Change)
  | epochAccept (f : Tfp) (epoch : Nat)
  | epochCommit (f : Tfp) (epoch : Nat) (roster : List RosterEntry)
  | epochQuery (f : Tfp)
  | intent (f : Tfp) (b : IntentBody)
  | intentAck (f : Tfp) (seqNo credit : Nat)
  | busy (f : Tfp) (seqNo : Nat)
  | mirror (f : Tfp) (keeperIndex writer : Nat) (b : IntentBody)
  | mirrorAck (f : Tfp) (writer seqNo : Nat)
  | done (f : Tfp) (seqNo : Nat)
  | retire (f : Tfp) (writer seqNo : Nat)
  | resolve (f : Tfp) (seqNo : Nat)
  | resolveReply (f : Tfp) (writer seqNo : Nat) (programmed : Bool)
  | readReq (f : Tfp) (stripe offset count element : Nat)
  | readData (f : Tfp) (stripe offset element : Nat) (data : Option (List Block))
  | activate (f : Tfp) (actTime digest : Nat)
  | activateAck (f : Tfp)
  | activateCommit (f : Tfp)
  | activateCancel (f : Tfp)
  | fnsKey (f : Tfp) (key : Nat)
  | fnsKeyAck (f : Tfp)
  | heartbeatSend
  | retransmit (msgId : Nat)
  | windowExpired (msgId : Nat)
  | peerSuspect (position : Nat)
  | handshakeTimeout (position : Nat)
  | handshakeRetry (position : Nat)
  | sessionRekey (position : Nat)
  | oldSessionExpiry (position : Nat)
  | epochProposeRetry
  | intentResend (seqNo : Nat)
  | activationDeadline
  | resyncReadStart (stripe element : Nat)
  | fleetQuery (src : Src) (tag : Nat)
  | enroll (src : Src) (tag certAddr : Nat) (sigOk idOk : Bool)
  | form (src : Src) (tag group n m rosterAddr : Nat)
  | bind (src : Src) (tag nsid keepStream : Nat)
  | proxyCreate (src : Src) (tag position : Nat)
  | proxyDelete (src : Src) (tag nsid : Nat)
  | replace (src : Src) (tag position rosterAddr : Nat)
  | declare (src : Src) (tag position : Nat)
  | declareTimeout
  | resync (src : Src) (tag : Nat)
  | fleetActivate (src : Src) (tag actTime digest : Nat)
  | cancelActivate (src : Src) (tag : Nat)
  | portEnable (p : Nat)
  | portDisable (p : Nat)
  | portDrainEnd (p : Nat)
  | fltPortDown (p : Nat)
  | genSecret
  | writeDaymark
  | setOwner
  | secverAdvance (v : Word)
  | laneEnable (l : Nat)
  | laneDisable (l : Nat)
  | laneDrainEnd (l : Nat)
  | laneTestEnd (l : Nat) (pass : Bool)
  | secTrngFail
  | tapChallengeRead
  | tapResponse (level : Nat) (keyOk sigOk : Bool)
  | challengeExpiry
  | ledgerFault (pair core : Nat) (cause : LedgerCause)
  | ledgerRestartEnd (pair : Nat)
  | ledgerRestartTimeout (pair : Nat)
  | ledgerRepair (v : Word)
  | osWatchdogWrite (v : Word)
  | cpxOsWatchdog
  | memSubwordStore (addr width : Nat)
  | transfer (ch : Nat) (desc : MovDesc)
  | moverDescriptorEnd (ch : Nat)
  | bootConfirm (v : Word)
  | cstBootFailed
  | cstProgramDone (bank word : Nat) (verified : Bool)
  | cstEraseDone (bank sector : Nat) (ok : Bool)
  | cstEraseResume (bank : Nat)
  | discover (peer seqNo : Nat)
  | begin_ (peer seqNo slot : Nat) (manifest : List Byte)
  | data (peer seqNo offset : Nat) (piece : List Byte)
  | end_ (peer seqNo : Nat) (chk : Crypt)
  | lanternRead (peer seqNo offset len : Nat)
  | restart (peer seqNo : Nat)
  | regRead (peer seqNo off : Nat)
  | regWrite (peer seqNo off : Nat) (v : Word)
  | ring (peer seqNo : Nat) (desc : List Byte)
  | beaconTransferIdle
  | lanternQuery (src : Src) (tag : Nat)
  | freeze (src : Src) (tag : Nat)
  | thaw (src : Src) (tag : Nat)
  | lanternMark (src : Src) (tag : Nat) (detail : List Byte)
  | lanternControlRead (src : Src) (tag startSeq count dest : Nat)
  | clear (src : Src) (tag : Nat)
  | lntDropped
  | earlyWarningHourly
  | earlyWarningMinute
  | tempHistorySecond
  | fleetPortLinkUp (p : Nat)
  | linkUp (width speed : Nat) (flit : Bool)
  | senseComplete (rid : Nat)
  | spdmResponseReady
  deriving DecidableEq, Repr

end Sys2Proof
end

