-- ==== Sys2Proof/Machine/Codes.lean ====
section
/-! DEFINITION. The NM status and event codes (R455, R456 and the code table of each block, Table 14.2). -/

namespace Sys2Proof.Machine

abbrev Ev.SYS_MALFORMED : Nat := 0x0001
abbrev Ev.SYS_OPCODE_UNKNOWN : Nat := 0x0002
abbrev Ev.SYS_RESERVED_ENCODING : Nat := 0x0003
abbrev Ev.SYS_SEALED_WRITE : Nat := 0x0004
abbrev Ev.SYS_ACCESS_FAULT : Nat := 0x0005
abbrev Ev.SYS_SEALED : Nat := 0x0006
abbrev Ev.SYS_SEAL_REFUSED : Nat := 0x0007
abbrev Ev.SYS_RING_INDEX_INVALID : Nat := 0x0008
abbrev Ev.SYS_RING_BUSY : Nat := 0x0009
abbrev Ev.SYS_PROFILE_LOCKED : Nat := 0x000A
abbrev Ev.SYS_RESET_REQUESTED : Nat := 0x000B
abbrev Ev.SYS_WRITE_IGNORED : Nat := 0x000C
abbrev Ev.HIF_MGMT_DISABLED : Nat := 0x0101
abbrev Ev.HIF_OPCODE_MISMATCH : Nat := 0x0102
abbrev Ev.HIF_IDE_INTEGRITY : Nat := 0x0103
abbrev Ev.HIF_IDE_NO_KEY : Nat := 0x0104
abbrev Ev.HIF_LINK_DOWN : Nat := 0x0105
abbrev Ev.HIF_CQ_STALL : Nat := 0x0106
abbrev Ev.HIF_CTRL_RESET : Nat := 0x0107
abbrev Ev.HIF_SHUTDOWN_DONE : Nat := 0x0108
abbrev Ev.HIF_SELFTEST_ABORTED : Nat := 0x0109
abbrev Ev.TCK_OVERRUN : Nat := 0x0201
abbrev Ev.TCK_HOLD_LIMIT : Nat := 0x0202
abbrev Ev.TCK_CT_INVALID : Nat := 0x0203
abbrev Ev.TCK_CT_SWAPPED : Nat := 0x0204
abbrev Ev.TCK_PPS_LOCKED : Nat := 0x0205
abbrev Ev.TCK_PPS_STEPPED : Nat := 0x0206
abbrev Ev.TCK_PPS_MISSED : Nat := 0x0207
abbrev Ev.TCK_PPS_REJECTED : Nat := 0x0208
abbrev Ev.TCK_PPS_ACQUIRING : Nat := 0x0209
abbrev Ev.TCK_FSYNC_LOCKED : Nat := 0x020A
abbrev Ev.TCK_FSYNC_RANGE : Nat := 0x020B
abbrev Ev.TCK_FSYNC_HOLDOVER : Nat := 0x020C
abbrev Ev.TCK_ALARM_FIRED : Nat := 0x020D
abbrev Ev.STM_STREAM_NOT_OPEN : Nat := 0x0301
abbrev Ev.STM_STREAM_NOT_BOUND : Nat := 0x0302
abbrev Ev.STM_STREAM_ID_INVALID : Nat := 0x0303
abbrev Ev.STM_STATE_CONFLICT : Nat := 0x0304
abbrev Ev.STM_CEILING_EXCEEDED : Nat := 0x0305
abbrev Ev.STM_STAGING_EXCEEDED : Nat := 0x0306
abbrev Ev.STM_BANDS_EXCEEDED : Nat := 0x0307
abbrev Ev.STM_FLEET_CEILING_EXCEEDED : Nat := 0x0308
abbrev Ev.STM_FRAME_NOT_LOCKED : Nat := 0x0309
abbrev Ev.STM_PARAM_RANGE : Nat := 0x030A
abbrev Ev.STM_RESERVATION_SCALED : Nat := 0x030B
abbrev Ev.STM_RESERVATION_RESTORED : Nat := 0x030C
abbrev Ev.STM_ADMISSION_LOST : Nat := 0x030D
abbrev Ev.STM_FOG_ENTER : Nat := 0x030E
abbrev Ev.STM_FOG_EXIT : Nat := 0x030F
abbrev Ev.STM_PENDING_DONE : Nat := 0x0310
abbrev Ev.STM_PENDING_REPLACED : Nat := 0x0311
abbrev Ev.STM_MARKER_DROPPED : Nat := 0x0312
abbrev Ev.MAP_SEGMENT_LOST : Nat := 0x0401
abbrev Ev.MAP_NS_NO_SPACE : Nat := 0x0402
abbrev Ev.MAP_POOL_LOW : Nat := 0x0403
abbrev Ev.MAP_POOL_EXHAUSTED : Nat := 0x0404
abbrev Ev.MAP_LOG_FULL : Nat := 0x0405
abbrev Ev.MAP_CKPT_LATE : Nat := 0x0406
abbrev Ev.MAP_SEGMENT_MARKED_LOST : Nat := 0x0407
abbrev Ev.MAP_REPLAY_DONE : Nat := 0x0408
abbrev Ev.MAP_REPLAY_TORN : Nat := 0x0409
abbrev Ev.MAP_ROOT_INVALID : Nat := 0x040A
abbrev Ev.FLC_PROGRAM_NOT_ERASED : Nat := 0x0501
abbrev Ev.FLC_ERASE_SUSPENDED_TARGET : Nat := 0x0502
abbrev Ev.FLC_PROGRAM_SUSPENDED_TARGET : Nat := 0x0503
abbrev Ev.FLC_BLOCK_RETIRED : Nat := 0x0504
abbrev Ev.FLC_ERASE_OPEN_BLOCK : Nat := 0x0505
abbrev Ev.FLC_ADDRESS_RANGE : Nat := 0x0506
abbrev Ev.FLC_PROGRAM_FAIL : Nat := 0x0507
abbrev Ev.FLC_ERASE_FAIL : Nat := 0x0508
abbrev Ev.FLC_UNCORRECTABLE : Nat := 0x0509
abbrev Ev.FLC_READ_ERASED : Nat := 0x050A
abbrev Ev.FLC_RETRY_RECOVERED : Nat := 0x050B
abbrev Ev.FLC_SOFT_RECOVERED : Nat := 0x050C
abbrev Ev.FLC_OP_OVERTIME : Nat := 0x050D
abbrev Ev.FLC_PROBE_TORN : Nat := 0x050E
abbrev Ev.FLC_PROFILE_INVALID : Nat := 0x050F
abbrev Ev.FLC_PROFILE_MISMATCH : Nat := 0x0510
abbrev Ev.FLC_TARGET_UNKNOWN : Nat := 0x0511
abbrev Ev.FLC_TRAIN_FAIL : Nat := 0x0512
abbrev Ev.BND_FREE_LOW : Nat := 0x0601
abbrev Ev.BND_FREE_MIN : Nat := 0x0602
abbrev Ev.BND_FREE_RESTORED : Nat := 0x0603
abbrev Ev.BND_EARLY_CLOSE : Nat := 0x0604
abbrev Ev.BND_BAND_FAILED : Nat := 0x0605
abbrev Ev.BND_BAND_RETIRED : Nat := 0x0606
abbrev Ev.BND_SPARES_LOW : Nat := 0x0607
abbrev Ev.BND_CAPACITY_LOW : Nat := 0x0608
abbrev Ev.BND_SET_OVERLOAD : Nat := 0x0609
abbrev Ev.BND_COPY_REISSUED : Nat := 0x060A
abbrev Ev.BND_SYS_SPACE_LOW : Nat := 0x060B
abbrev Ev.BND_WEAR_WARN : Nat := 0x060C
abbrev Ev.BND_WEAR_LIMIT : Nat := 0x060D
abbrev Ev.BND_CARRIER_SHORT : Nat := 0x060E
abbrev Ev.BND_ENTRY_INVALID : Nat := 0x060F
abbrev Ev.MBR_MEMBER_FAILED : Nat := 0x0701
abbrev Ev.MBR_MEMBER_TIMEOUT : Nat := 0x0702
abbrev Ev.MBR_MEMBER_REMOVED : Nat := 0x0703
abbrev Ev.MBR_MEMBER_INSERTED : Nat := 0x0704
abbrev Ev.MBR_MEMBER_FAULT : Nat := 0x0705
abbrev Ev.MBR_MEMBER_FENCED : Nat := 0x0706
abbrev Ev.MBR_MEMBER_ADMITTED : Nat := 0x0707
abbrev Ev.MBR_QUALIFY_FAIL : Nat := 0x0708
abbrev Ev.MBR_NO_SPARE : Nat := 0x0709
abbrev Ev.MBR_REBUILD_START : Nat := 0x070A
abbrev Ev.MBR_REBUILD_COMPLETE : Nat := 0x070B
abbrev Ev.MBR_ROW_LOST : Nat := 0x070C
abbrev Ev.MBR_READ_DEADLINE : Nat := 0x070D
abbrev Ev.MBR_STALE_DROPPED : Nat := 0x070E
abbrev Ev.MBR_PARITY_HELD : Nat := 0x070F
abbrev Ev.MBR_SLOT_FULL : Nat := 0x0710
abbrev Ev.MBR_STATE_CONFLICT : Nat := 0x0711
abbrev Ev.MBR_PARAM_RANGE : Nat := 0x0712
abbrev Ev.MBR_PENDING_DONE : Nat := 0x0713
abbrev Ev.MBR_PENDING_REPLACED : Nat := 0x0714
abbrev Ev.MBR_UNAVAILABLE : Nat := 0x0715
abbrev Ev.MBR_REBUILD_NO_BLOCK : Nat := 0x0716
abbrev Ev.MBR_FORMAT_REFUSED : Nat := 0x0717
abbrev Ev.FLT_SESSION_OPEN : Nat := 0x0801
abbrev Ev.FLT_HANDSHAKE_FAIL : Nat := 0x0802
abbrev Ev.FLT_CERT_INVALID : Nat := 0x0803
abbrev Ev.FLT_NOT_ENROLLED : Nat := 0x0804
abbrev Ev.FLT_PEER_SUSPECT : Nat := 0x0805
abbrev Ev.FLT_EPOCH_COMMITTED : Nat := 0x0806
abbrev Ev.FLT_ISOLATED : Nat := 0x0807
abbrev Ev.FLT_FENCED : Nat := 0x0808
abbrev Ev.FLT_STRIPE_STALE : Nat := 0x0809
abbrev Ev.FLT_RESYNC_DONE : Nat := 0x080A
abbrev Ev.FLT_RANGE_LOST : Nat := 0x080B
abbrev Ev.FLT_UNRECOVERABLE : Nat := 0x080C
abbrev Ev.FLT_PROXY_READ_ONLY : Nat := 0x080D
abbrev Ev.FLT_REBUILD_START : Nat := 0x080E
abbrev Ev.FLT_REBUILD_COMPLETE : Nat := 0x080F
abbrev Ev.FLT_BIND_REFUSED : Nat := 0x0810
abbrev Ev.FLT_ACTIVATION_ARMED : Nat := 0x0811
abbrev Ev.FLT_ACTIVATION_CANCELLED : Nat := 0x0812
abbrev Ev.FLT_PORT_DOWN : Nat := 0x0813
abbrev Ev.FLT_PARAM_RANGE : Nat := 0x0814
abbrev Ev.FLT_STATE_CONFLICT : Nat := 0x0815
abbrev Ev.FLT_PENDING_DONE : Nat := 0x0816
abbrev Ev.FLT_PENDING_REPLACED : Nat := 0x0817
abbrev Ev.FLT_WINDOW_EXPIRED : Nat := 0x0818
abbrev Ev.FLT_KEEPER_BUSY : Nat := 0x0819
abbrev Ev.FLT_TIME_NOT_SET : Nat := 0x081A
abbrev Ev.SEC_DATA_NOT_AUTHENTIC : Nat := 0x0901
abbrev Ev.SEC_TAG_RECOVERED : Nat := 0x0902
abbrev Ev.SEC_LANE_MISMATCH : Nat := 0x0903
abbrev Ev.SEC_LANE_RETIRED : Nat := 0x0904
abbrev Ev.SEC_LANES_LOW : Nat := 0x0905
abbrev Ev.SEC_ALL_LANES_FAULT : Nat := 0x0906
abbrev Ev.SEC_TRNG_FAIL : Nat := 0x0907
abbrev Ev.SEC_KEY_UNWRAP_FAIL : Nat := 0x0908
abbrev Ev.SEC_OTP_INVALID : Nat := 0x0909
abbrev Ev.SEC_PROV_REFUSED : Nat := 0x090A
abbrev Ev.SEC_UNLOCKED : Nat := 0x090B
abbrev Ev.SEC_UNLOCK_FAIL : Nat := 0x090C
abbrev Ev.SEC_UNLOCK_LOCKOUT : Nat := 0x090D
abbrev Ev.SEC_SANITIZE_REFUSED : Nat := 0x090E
abbrev Ev.SEC_SANITIZE_DONE : Nat := 0x090F
abbrev Ev.SEC_SECVER_ADVANCED : Nat := 0x0910
abbrev Ev.SEC_SECVER_REFUSED : Nat := 0x0911
abbrev Ev.SEC_PENDING_DONE : Nat := 0x0912
abbrev Ev.SEC_PENDING_REPLACED : Nat := 0x0913
abbrev Ev.SEC_WSEQ_EXHAUSTED : Nat := 0x0914
abbrev Ev.CPX_LEDGER_FAULT : Nat := 0x0A01
abbrev Ev.CPX_TAKEOVER : Nat := 0x0A02
abbrev Ev.CPX_MISMATCH : Nat := 0x0A03
abbrev Ev.CPX_LEDGER_RESTART : Nat := 0x0A04
abbrev Ev.CPX_DOUBLE_FAULT : Nat := 0x0A05
abbrev Ev.CPX_LEDGER_REFUSAL : Nat := 0x0A06
abbrev Ev.CPX_OS_WATCHDOG : Nat := 0x0A07
abbrev Ev.MEM_CORRECTED : Nat := 0x0B01
abbrev Ev.MEM_CE_THRESHOLD : Nat := 0x0B02
abbrev Ev.MEM_UNCORRECTABLE : Nat := 0x0B03
abbrev Ev.MEM_ADDRESS_ERROR : Nat := 0x0B04
abbrev Ev.MEM_REMAPPED : Nat := 0x0B05
abbrev Ev.MEM_REMAP_FULL : Nat := 0x0B06
abbrev Ev.MEM_SELFTEST_FAIL : Nat := 0x0B07
abbrev Ev.MEM_MRAM_DIE_LOST : Nat := 0x0B08
abbrev Ev.MEM_SUBWORD_STORE : Nat := 0x0B09
abbrev Ev.MOV_MISALIGNED : Nat := 0x0C01
abbrev Ev.MOV_BUS_ERROR : Nat := 0x0C02
abbrev Ev.CST_DOUBLE_PROGRAM : Nat := 0x0D01
abbrev Ev.CST_READ_IN_SUSPENDED : Nat := 0x0D02
abbrev Ev.CST_PROGRAM_FAIL : Nat := 0x0D03
abbrev Ev.CST_ERASE_FAIL : Nat := 0x0D04
abbrev Ev.CST_ERASE_TARGET : Nat := 0x0D05
abbrev Ev.CST_IMAGE_FORMAT : Nat := 0x0D06
abbrev Ev.CST_IMAGE_DEVICE : Nat := 0x0D07
abbrev Ev.CST_IMAGE_SIGNATURE : Nat := 0x0D08
abbrev Ev.CST_IMAGE_ROLLBACK : Nat := 0x0D09
abbrev Ev.CST_IMAGE_MOORING : Nat := 0x0D0A
abbrev Ev.CST_IMAGE_SETTINGS : Nat := 0x0D0B
abbrev Ev.CST_IMAGE_COMMITTED : Nat := 0x0D0C
abbrev Ev.CST_SETTINGS_INVALID : Nat := 0x0D0D
abbrev Ev.CST_MIGRATED : Nat := 0x0D0E
abbrev Ev.CST_MODE_CHANGED : Nat := 0x0D0F
abbrev Ev.CST_BEACON_ENTERED : Nat := 0x0D10
abbrev Ev.CST_BOOT_FAILED : Nat := 0x0D11
abbrev Ev.CST_FALLBACK : Nat := 0x0D12
abbrev Ev.CST_ACTIVATION_START : Nat := 0x0D13
abbrev Ev.CST_ACTIVATION_DONE : Nat := 0x0D14
abbrev Ev.CST_BUSY : Nat := 0x0D15
abbrev Ev.CST_CAL_INVALID : Nat := 0x0D16
abbrev Ev.CLK_PARENT_BUSY : Nat := 0x0E01
abbrev Ev.CLK_GATE_OWNED : Nat := 0x0E02
abbrev Ev.CLK_PLL_UNLOCK : Nat := 0x0E03
abbrev Ev.CLK_PLL_RELOCKED : Nat := 0x0E04
abbrev Ev.CLK_XTAL_LOST : Nat := 0x0E05
abbrev Ev.CLK_PENDING_DONE : Nat := 0x0E06
abbrev Ev.CLK_PENDING_REPLACED : Nat := 0x0E07
abbrev Ev.THM_BAND_CHANGED : Nat := 0x0F01
abbrev Ev.THM_THROTTLE_START : Nat := 0x0F02
abbrev Ev.THM_THROTTLE_STEP : Nat := 0x0F03
abbrev Ev.THM_THROTTLE_END : Nat := 0x0F04
abbrev Ev.THM_SHUTDOWN : Nat := 0x0F05
abbrev Ev.THM_SENSOR_FAIL : Nat := 0x0F06
abbrev Ev.THM_PFAIL : Nat := 0x0F07
abbrev Ev.THM_PFAIL_CLEARED : Nat := 0x0F08
abbrev Ev.THM_RETRAIN_FAIL : Nat := 0x0F09
abbrev Ev.LNT_START : Nat := 0x1001
abbrev Ev.LNT_FROZEN : Nat := 0x1002
abbrev Ev.LNT_THAWED : Nat := 0x1003
abbrev Ev.LNT_DROPPED : Nat := 0x1004
abbrev Ev.LNT_CLEARED : Nat := 0x1005
abbrev Ev.LNT_MARK : Nat := 0x1006
abbrev Ev.LNT_STATE_CONFLICT : Nat := 0x1007
abbrev Ev.LNT_PARAM_RANGE : Nat := 0x1008
abbrev Ev.LNT_FREEZE_REQUEST : Nat := 0x1009
abbrev Ev.LNT_WARN_SLOW_START : Nat := 0x1010
abbrev Ev.LNT_WARN_BOOT_RETRY : Nat := 0x1011
abbrev Ev.LNT_WARN_MEM_SPARES : Nat := 0x1012
abbrev Ev.LNT_WARN_SELFTEST_CE : Nat := 0x1013
abbrev Ev.LNT_WARN_SELFTEST_MEDIA : Nat := 0x1014
abbrev Ev.LNT_WARN_SLOW_MEMBER : Nat := 0x1015
abbrev Ev.LNT_WARN_RETRY_RATE : Nat := 0x1016
abbrev Ev.LNT_WARN_REBUILD_SLOW : Nat := 0x1017

/-- Codes that their tables do not mark for the Lantern: counted only (Tables 15.12, 6.15, 8.22, 9.14, 11.19, 13.13). -/
def notLogged : List Nat := [Ev.SYS_WRITE_IGNORED, Ev.FLC_RETRY_RECOVERED, Ev.FLC_SOFT_RECOVERED, Ev.MBR_READ_DEADLINE,
  Ev.MBR_STALE_DROPPED, Ev.FLT_SESSION_OPEN, Ev.FLT_RESYNC_DONE, Ev.FLT_WINDOW_EXPIRED, Ev.FLT_KEEPER_BUSY, Ev.MEM_CORRECTED,
  Ev.THM_THROTTLE_STEP]

end Sys2Proof.Machine
end

