-- ==== Sys2Proof/Config.lean ====
section
/-! DEFINITION. The free values: what the manual leaves open for a value, as constants with no body. Nothing in Lean can
evaluate one, so every statement about them holds whatever they are (log entry 9). -/

namespace Sys2Proof

/-- 32 bits drawn from the TRNG (R302, R325 SEC_TRNG_DATA): free, one value for each draw. -/
opaque Config.trngWord : Nat → Word

/-- The data a Read leaves in the host buffer when it ends with an error (R79: undefined). -/
opaque Config.undefinedBlock : Nat → Block

/-- How a program unit that a power loss cut off reads to the probe of R178 (R186: undefined), modulo 3: its lowest page erased, neither
erased nor decodable, or decodable. By the count of free values drawn. -/
opaque Config.tornUnit : Nat → Nat

/-- The bytes of a log page or Identify structure whose layout is the NVMe specification's (R63, R92): byte i of the
structure named by the first argument. -/
opaque Config.nvmeByte : Nat → Nat → Byte

/-- The counter-mode keystream of an LBA's image (R281): by the draw that made the fleet namespace key, the data position and
the slice LBA. -/
opaque Config.keystream : Nat → Nat → Nat → Block

/-- A digest of published algorithms (SHA-384 of ROM, loader, firmware; R315): byte i of the digest named by the first
argument. -/
opaque Config.digestByte : Nat → Nat → Byte

/-- SHA-384, as a number: no rule of the manual gives its values. -/
opaque Config.sha384 : List Byte → Nat

/-- What decides M of its group for a replacement that no FORM has told it (R289: the descriptor does not carry it), by group. -/
opaque Config.groupParity : Nat → Nat

/-- The content of a page of the system bands that no rule lays out (the group directory, the checkpoint index, the SMART fields): by the
count of free values drawn. -/
opaque Config.systemBlock : Nat → Block

/-- The boot block that the loader writes at address 0, in the layout of the OS image's own SDK (R365): by the count of free values drawn. -/
opaque Config.bootBlock : Nat → Block

/-- FORMAT of a root block, the map format version (Table 5.6 gives no value). -/
opaque Config.mapFormat : Nat

/-- The set of the segment cache that the hash of R143 gives for an NSID and an NSSEG, modulo 32,768 (R143 names no hash). -/
opaque Config.cacheSet : Nat → Nat → Nat

/-- Which of the 64 parity slots a band's parity slot is, modulo 64 (R240 names no order), by band. -/
opaque Config.paritySlot : Nat → Nat

/-- Which of the 65,536 keeper journal entries a write's entry is, modulo 65,536 (R285 names no order), by writer, sequence number and keeper. -/
opaque Config.journalSlot : Nat → Nat → Nat → Nat

/-- Where in the keeper buffer a Δ lies, in 4 KiB units (BUF, Table 11.13), by writer, sequence number and keeper. -/
opaque Config.keeperPlace : Nat → Nat → Nat → Nat

/-- A byte of an MRAM region that the model holds as blocks' state and not byte by byte, as the MRAM window gives it: by the count
of free values drawn and the address. -/
opaque Config.mramByte : Nat → Nat → Byte

/-- The keystream with which AES-256-GCM encrypts the DATA of a codeword (R303): by key (named by its draw), WSEQ and PLACE of the
IV. The values are the published standard's. -/
opaque Config.gcmStream : Nat → Nat → Nat → Block

/-- The GCM tag of a codeword (R303): by key, WSEQ and PLACE of the IV, LBA_TAG and ciphertext. The values are the published
standard's. -/
opaque Config.gcmTag : Nat → Nat → Nat → BitVec 64 → Block → BitVec 128

/-- The bits of a codeword that a raw read gets wrong (Table 6.9 bounds their rate, nothing gives their places): by the count of free
values drawn. -/
opaque Config.rawNoise : Nat → BitVec 36864

/-- A codeword as the array gives it where the model does not know what was last programmed there: by the count of free values
drawn. -/
opaque Config.rawCodeword : Nat → BitVec 36864

/-- Byte i of the calibration row where no rule gives it (Table 12.4, bytes 18-23 and 32-255): factory data. -/
opaque Config.calibrationByte : Nat → Byte

/-- Word i of an OTP code word whose content no rule gives: one not programmed (false), or a SECVER_STEP word that is (R296, R323). -/
opaque Config.otpWord : Bool → Nat → Nat → Word

/-- What a register reads whose value the manual leaves to the implementation, or that measures a time the model does not have
(log entry 26): by the count of free values drawn and the offset. -/
opaque Config.openRegister : Nat → Nat → Word

end Sys2Proof
end

