-- ==== Sys2Proof/Machine/State.lean ====
section
/-! DEFINITION. The state of the NM-960, block by block (Table 1.1, R15), as plain data, the queue of waiting commands, and
the state after reset. A map from numbers to values is a list of pairs with rising keys (`AMap`). Default field values are
the values at reset: those the manual gives, and those of log entry 6 where it gives none. -/

namespace Sys2Proof.Machine

/-- A finite map from numbers, keys rising. -/
abbrev AMap (α : Type) := List (Nat × α)

/-- The block has no stuck state: every outcome the manual gives is a status, a record or a mode, so nothing faults. -/
inductive Fault where
  deriving DecidableEq, Repr

/-- Refusals. -/
inductive Refusal where
  /-- Raised by an arm of `exec` whose command has no meaning in this model yet: safe, the machine stops there. -/
  | notModelled (mnemonic : String)
  deriving DecidableEq, Repr

/-- Modes (Table 12.1). -/
inductive Mode where
  | dark | beacon | loader | commissioning | service | degraded | quiesce | halt
  deriving DecidableEq, Repr

/-! ### SYS -/

/-- Ring states (Table 15.8). -/
inductive RingSt where
  | off | on | draining | error
  deriving DecidableEq, Repr

/-- A descriptor a block has taken (Table 15.9); `begun`: its operation has been carried out as far as the completion. -/
structure Desc where
  src : Src
  opcode : Nat
  tag : Nat
  body : List Byte
  begun : Bool := false
  deriving DecidableEq, Repr

/-- A completion record formed and not yet written (Table 15.10). `result`: data for a vendor command's buffer bytes
96 onward. -/
structure CplRec where
  tag : Nat
  status : Nat
  body : List Byte
  result : List Byte := []
  deriving DecidableEq, Repr

/-- One control ring (R447-R453). Addresses are 40 bits on the internal bus. -/
structure Ring where
  st : RingSt := .off
  cplLog2 : Nat := 0
  descLog2 : Nat := 0
  base : Nat := 0
  prod : Nat := 0
  cons : Nat := 0
  cpl : Nat := 0
  ccons : Nat := 0
  taken : Nat := 0
  cplCnt : Nat := 0
  consIx : Nat := 0
  open_ : Nat := 0
  formed : List CplRec := []
  deriving DecidableEq, Repr

/-- SYS (15_setup_space.md). -/
structure Sys where
  isSealed : Bool := false
  sealFail : Nat := 0
  lastReset : Nat := 0
  bootSel : Nat := 0
  compat : Nat := 0
  legacy : Bool := false
  rings : AMap Ring := []
  hifRings : List Desc := []
  hifFormed : List (Nat × CplRec) := []
  taken : List Desc := []
  irq : List Nat := []
  sealedWriteSec : AMap Nat := []
  gpioIn : Nat := 0
  deriving DecidableEq, Repr

/-! ### CLK and THM -/

/-- Gate states (Table 13.8). -/
inductive GateSt where
  | off | on | draining | pending
  deriving DecidableEq, Repr

/-- CLK (13_clocks_thermal_power.md). `gates`: gates not On. -/
structure Clk where
  xtalOk : Bool := false
  xtalLost : Bool := false
  qualLate : Bool := false
  qualCount : Nat := 0
  unlocked : List Nat := []
  gates : AMap GateSt := []
  coresStalled : Bool := false
  deriving DecidableEq, Repr

/-- One temperature sensor: last eight samples (newest first, units of 0.125 degrees), highest reading, runs of
out-of-median and over-limit samples. -/
structure Sensor where
  last : List Int := []
  high : Int := 0
  odd : Nat := 0
  overRun : Nat := 0
  deriving DecidableEq, Repr

/-- THM. `driveBand`: the band whose channel drive and ODT are in force (R396). -/
structure Thm where
  sensors : List Sensor := List.replicate 16 {}
  excluded : List Nat := []
  band : Nat := 1
  driveBand : Nat := 1
  hotSensor : Nat := 0
  hot : Int := 0
  step : Nat := 0
  tripped : Bool := false
  powerOff : Bool := false
  holdStart : Bool := false
  pfail : Bool := false
  mramCut : Bool := false
  trainFails : AMap Nat := []
  throttle10us : Nat := 0
  deriving DecidableEq, Repr

/-! ### TCK -/

/-- PPS and FSYNC states (Table 2.10). -/
inductive LockSt where
  | off | acquiring | locked | holdover
  deriving DecidableEq, Repr

/-- Slot classes (Table 2.4). -/
inductive Cls where
  | idle | w | b | d | c | u | m
  deriving DecidableEq, Repr

/-- What a waiting slot operation does: transfer a page of a program unit, or erase the block of a band on a channel. -/
inductive OpKind where
  | prog (page : Nat)
  | erase (band : Nat)
  deriving DecidableEq, Repr

/-- A waiting operation of one class (R43): channel, stream that owns it, codeword slots left. -/
structure Op where
  cls : Cls
  ch : Nat
  stream : Nat
  kind : OpKind
  left : Nat
  deriving DecidableEq, Repr

/-- A characteristic table (R42) with the slots per channel it was built for and the streams whose W slots it holds. -/
structure CtTable where
  rows : List CtRow := [{ row := 0, wCount := 0, cls := [], rsv := false }]
  slots : Nat := 6
  streams : List Nat := []
  deriving DecidableEq, Repr

/-- One filled slot of the plan of a tick: the slot's class code and the operation that fills it. -/
structure PlanItem where
  slot : Nat
  code : Cls
  op : Op
  deriving DecidableEq, Repr

/-- Who armed an alarm (R56). -/
inductive AlarmOwner where
  | os | cst | flt
  deriving DecidableEq, Repr

/-- TCK (02_tick_and_time.md). Times are ns. `seen`: the registers as step 2 of the tick began (R437). `readPlan`, `readSlots`: slots that
the next plan, and the tick that runs, give to codeword reads, by 8 × channel + class code. `frameN`: the N with which `frameL` was found.
-/
structure Tck where
  running : Bool := false
  tick : Nat := 0
  fleet : Nat := 0
  frac : Nat := 0
  now : Nat := 0
  tickStart : Nat := 0
  edgeDue : Bool := false
  seen : AMap Word := []
  timeSet : Bool := false
  armed : Option Nat := none
  alarms : AMap (Nat × AlarmOwner) := []
  period : Nat := 1
  source : Nat := 0
  holding : Bool := false
  holdRun : Nat := 0
  gap : Nat := 0
  swapTick : Nat := 0
  tables : CtTable × CtTable := ({}, {})
  bufB : Bool := false
  swapPending : Bool := false
  tableWanted : Bool := false
  planned : Bool := false
  plan : List PlanItem := []
  readPlan : AMap Nat := []
  readSlots : AMap Nat := []
  senses : List Nat := []
  queue : List Op := []
  late : List Nat := []
  pps : LockSt := .off
  ppsLastFleet : Nat := 0
  ppsGood : Nat := 0
  ppsRun : Nat := 0
  ppsMissRun : Nat := 0
  ppsErrPpb : Int := 0
  fsync : LockSt := .off
  fsyncEver : Bool := false
  fsyncLast : Option Nat := none
  periods : List Nat := []
  frameStart : Nat := 0
  frameT : Nat := 0
  frameL : Nat := 0
  frameN : Nat := 1
  frameTick : Nat := 0
  predict : Nat := 0
  fsyncMissRun : Nat := 0
  deriving DecidableEq, Repr

/-! ### HIF -/

/-- Kinds of I/O command (Table 3.2). -/
inductive IoKind where
  | flush | write | read | writeZeroes | dsm
  deriving DecidableEq, Repr

/-- A fetched I/O command; `active`: its namespace was active when it was fetched (R472). -/
structure IoCmd where
  sq : Nat
  cid : Nat
  nsid : Nat
  ord : Bool
  kind : IoKind
  slba : Nat := 0
  nlb : Nat := 0
  dtype : Nat := 0
  dspec : Nat := 0
  data : List Block := []
  ranges : List (Nat × Nat) := []
  active : Bool := false
  deriving DecidableEq, Repr

/-- A command slot (R67): the command and how far it has come. `handed`: its place in the order of hand-over to STM or MAP (R69). `idxWait`:
it found the in-flight index full (R145). `acct`: the staging account it draws on, a stream or the best-effort pool (4096). `piece`: LBAs
placed (a Write) or whose record is formed (an unmap); `lsn`: the records below it hold all of the command. -/
structure Slot where
  cmd : IoCmd
  started : Bool := false
  handed : Nat := 0
  idxWait : Bool := false
  stream : Nat := 0
  reserved : Bool := false
  waited : Bool := false
  accept : Nat := 0
  acct : Nat := 4096
  staged : Bool := false
  placed : Bool := false
  fleetReady : Bool := true
  formed : Bool := false
  piece : Nat := 0
  lsn : Nat := 0
  status : Nat := 0
  nvme : Nat × Nat := (0, 0)
  silent : Bool := false
  got : AMap Block := []
  deriving DecidableEq, Repr

/-- A range entry of the in-flight index (R145), keyed by command and range: LBAs of the range, from its first, whose record has been
appended, and whose record has been applied. -/
structure IdxEntry where
  accept : Nat
  nsid : Nat
  slba : Nat
  nlb : Nat
  zero : Bool
  entered : Bool := false
  formedN : Nat := 0
  appliedN : Nat := 0
  data : List Block := []
  deriving DecidableEq, Repr

/-- A completion queue entry (R94). `writes`: while it is held back, its command holds one of the slots of writes (R67). -/
structure Cqe where
  sq : Nat
  cid : Nat
  sct : Nat
  sc : Nat
  dw0 : Nat
  writes : Bool := false
  deriving DecidableEq, Repr

/-- A submission queue (R65, R66, R68): entries from `head` to `tail` are placed and not fetched. -/
structure Sq where
  depth : Nat
  cq : Nat
  head : Nat := 0
  tail : Nat := 0
  eventIdx : Nat := 0
  look : Option IoCmd := none
  deriving DecidableEq, Repr

/-- A completion queue (R70): free entries and CQEs held back; a stall already counted. -/
structure Cq where
  depth : Nat
  vector : Nat
  head : Nat := 0
  tail : Nat := 0
  free : Nat
  held : List Cqe := []
  stalled : Bool := false
  eventIdx : Nat := 0
  deriving DecidableEq, Repr

/-- A namespace's place (R129, R472, R279, R288). `fleet`: n, m and ring position of the slice of a fleet namespace, whose
segments are then numbered in host order, the keeper's after the data's (R280). -/
structure Ns where
  groups : List Nat
  segs : Nat
  attached : Bool := false
  key : Nat := 0
  proxyOf : Option Nat := none
  fleet : Option (Nat × Nat × Nat) := none
  deriving DecidableEq, Repr

/-- A namespace command that waits for ring space with its records (R153). -/
inductive NsReq where
  | create (cid nsze : Nat)
  | delete (cid nsid : Nat)
  deriving DecidableEq, Repr

/-- The device self-test running (R86): the first segment whose flash reads have failed, and how many codewords they have read and
recovered. -/
structure SelfTest where
  extended : Bool
  nsid : Nat
  failed : Option Nat := none
  read : Nat := 0
  recovered : Nat := 0
  deriving DecidableEq, Repr

/-- HIF (03_host_interface.md). `rr`: the I/O SQ that the round robin visits and the commands fetched in the visit (R67); `formatQuiet`: the
requester of `format` was dropped (R81); `ideKeys`: key words and IV words by set + 2 for transmit (R95); `msix`: unmasked entries of the
MSI-X table (address, data); `pba`: vectors pending; `d3hot`: the function's power state (Table 3.1); `shutGen`: ROOT_GEN of the shutdown's
checkpoint, once begun (R82). -/
structure Hif where
  ccEn : Bool := false
  rdy : Bool := false
  cfs : Bool := false
  pp : Bool := false
  shn : Nat := 0
  shst : Nat := 0
  shutGen : Nat := 0
  resetting : Bool := false
  carried : Nat := 0
  ready : Bool := false
  retry : Bool := true
  linkUp : Bool := false
  linkWidth : Nat := 0
  linkSpeed : Nat := 0
  linkFlit : Bool := false
  sqs : AMap Sq := []
  cqs : AMap Cq := []
  slots : AMap Slot := []
  nextCmd : Nat := 1
  nextHand : Nat := 1
  nextAccept : Nat := 1
  rr : Nat × Nat := (0, 0)
  shadow : Bool := false
  index : AMap IdxEntry := []
  features : AMap Nat := []
  aers : List Nat := []
  events : List (Nat × Nat) := []
  masked : List (Nat × Nat) := []
  adminHeld : List NsReq := []
  selfTest : Option SelfTest := none
  selfResults : List (Nat × Nat × Nat) := []
  idePhase : Nat := 0
  ideRx : List Nat := []
  ideTx : List Nat := []
  ideStaged : AMap Word := []
  ideKeys : AMap (AMap Word) := []
  msix : AMap (Nat × Nat) := []
  pba : List Nat := []
  d3hot : Bool := false
  sanitizeLog : Nat := 0
  format : Option (Nat × Nat × Nat) := none
  formatQuiet : Bool := false
  changed : List Nat := []
  errors : List Cqe := []
  cmdCnt : Nat := 0
  deriving DecidableEq, Repr

/-! ### STM -/

/-- Stream states (Table 4.8). -/
inductive StreamSt where
  | closed | open_ | admitted | releasing
  deriving DecidableEq, Repr

/-- A latched request of a stream (R104). -/
inductive StreamReq where
  | open_ (nsid : Nat)
  | reserve (rate minRate burst : Nat)
  deriving DecidableEq, Repr

/-- A stream context (Table 4.1) and its statistics (Table 4.9). `wOn`: a table that holds its W slots has run (R113). -/
structure Stream where
  st : StreamSt := .closed
  toClosed : Bool := false
  reserved : Bool := false
  latch : Option StreamReq := none
  nsid : Nat := 0
  rate : Nat := 0
  minRate : Nat := 0
  burst : Nat := 0
  effRate : Nat := 0
  stage : Nat := 0
  bands : Nat := 0
  wOn : Bool := false
  fleet : Bool := false
  mkMode : Nat := 0
  mkBase : Nat := 0
  mkEntries : Nat := 0
  mkProd : Nat := 0
  mkCons : Nat := 0
  mkIx : Nat := 0
  mkFrame : Option (Nat × Nat × Bool) := none
  mkNew : Option (Nat × Nat × Nat × Nat × Nat) := none
  mkDropped : Bool := false
  scaled : Bool := false
  bytes : Nat := 0
  commands : Nat := 0
  wGranted : Nat := 0
  wUnused : Nat := 0
  bBacklog : Nat := 0
  ties : Nat := 0
  waits : Nat := 0
  peak : Nat := 0
  heldTicks : Nat := 0
  scaleEvents : Nat := 0
  markers : Nat := 0
  markersDropped : Nat := 0
  deriving DecidableEq, Repr

/-- STM (04_capture_streams.md). Staging is counted in bytes; f is `fNum / fDen`. -/
structure Stm where
  streams : AMap Stream := [(0, { st := .open_ })]
  staged : AMap Nat := []
  fNum : Nat := 1
  fDen : Nat := 1
  waitTable : List (Src × Nat × Nat) := []
  softq : List Nat := []
  fog : Bool := false
  deriving DecidableEq, Repr

/-! ### MAP -/

/-- A codeword location (Table 5.2). -/
structure Loc where
  band : Nat
  row : Nat
  slot : Nat
  cw : Nat
  deriving DecidableEq, Repr

/-- The type and content of a segment entry (Table 5.1). -/
inductive SegKind where
  | unmapped
  | extent (fill band row slot : Nat)
  | granular (pool : Nat)
  | lost
  deriving DecidableEq, Repr

/-- A segment entry; `gen`: low 32 bits of the LSN that last changed it. -/
structure Seg where
  kind : SegKind
  nsid : Nat
  nsseg : Nat
  gen : Nat := 0
  deriving DecidableEq, Repr

/-- A run entry's operation (Table 5.5). -/
inductive RunOp where
  | extentSet (gsn first num : Nat) (loc : Loc)
  | granularSet (gsn first num : Nat) (loc : Loc)
  | convert (gsn pool fill : Nat) (loc : Loc)
  | unmap (gsn first num : Nat)
  | lost (gsn : Nat)
  | nsGroup (group nsid index num : Nat)
  | nsFree (group : Nat)
  deriving DecidableEq, Repr

/-- Record types (Table 5.3). -/
inductive RecTy where
  | pad | write | unmap | copy | lost | namespace_
  deriving DecidableEq, Repr

/-- A delta log record. `place`: its byte offset in the ring; `len`: its bytes; `cmd`: the command or copy it belongs to (0 = none);
`marks`: the index entries it brings on, each with the LBAs of its range that records then cover; `last`: it is the last record of a
copy. -/
structure MapRec where
  lsn : Nat
  ty : RecTy
  place : Nat
  len : Nat
  accept : Nat
  cmd : Nat
  ops : List RunOp
  marks : List (Nat × Nat) := []
  last : Bool := true
  deriving DecidableEq, Repr

/-- What a codeword of a system band holds (R225): a page of the segment table, part of a granular table, a page of the stamp tables, of
the rebuild map, the persistent SMART fields, a page of the group directory, of the checkpoint index, of an image slot. -/
inductive SysItem where
  | seg (page : Nat)
  | pool (table part : Nat)
  | stamps (page : Nat)
  | rebuild (page : Nat)
  | smart
  | dir (page : Nat)
  | index (page : Nat)
  | image (slot page : Nat)
  deriving DecidableEq, Repr

/-- A codeword that waits to be written into a system band: its content once it is fixed, and where a copy was read (R226). -/
structure SysCw where
  item : SysItem
  data : Option Block := none
  from_ : Option Loc := none
  deriving DecidableEq, Repr

/-- A checkpoint and its root block (Table 5.6): ROOT_GEN is `gen`, REPLAY_OFFSET `replayAt`. `index`: the newest copy of every page
(R153); `stage`: how far its writing has come: 0 waiting for the records below REPLAY_LSN, 1 segment pages, 2 granular tables, 3 directory and
the pages that go with it, 4 index, 5 written. -/
structure Ckpt where
  index : List (SysItem × Loc) := []
  stamps : AMap (AMap (Nat × Nat)) := []
  stage : Nat := 0
  segs : AMap Seg := []
  pool : AMap (AMap Loc) := []
  dir : AMap Ns := []
  replayLsn : Nat := 0
  replayAt : Nat := 0
  gen : Nat := 0
  clean : Bool := false
  smart : AMap Nat := []
  rebuildMap : List Nat := []
  deriving DecidableEq, Repr

/-- A run of 1,024 page slots reserved for a segment (R138, R139): `start`: its first page slot of the band; `next`: LBAs
staged in order; `since`: tick of the last staging; `tail`: (command, LBA) of the codewords that do not fill a page yet; `apps`: the
appends whose records are not formed, in run order, as (command, first LBA of the segment, LBAs); `live`: not given up. -/
structure Run where
  stream : Nat
  band : Nat
  start : Nat
  next : Nat := 0
  since : Nat := 0
  tail : List (Nat × Nat) := []
  apps : List (Nat × Nat × Nat) := []
  live : Bool := true
  deriving DecidableEq, Repr

/-- MAP (05_segment_map.md). `ckpt`, `older`: what the root blocks name, the one last written first; `inB`: that is block B; `freeLsn`:
ring space below this LSN is free (R153), though not yet written over; `cache`: entries of the segment cache by set, most recently used
first, as NSID × 2^24 + NSSEG; `badRoots`, `validPast`: what the start finds of the root blocks (0 A, 1 B) and past the first invalid
record. -/
structure Map where
  segs : AMap Seg := []
  pool : AMap (AMap Loc) := []
  dir : AMap Ns := []
  segLimit : Nat := 0
  lsn : Nat := 0
  log : List MapRec := []
  durable : Nat := 0
  freeLsn : Nat := 0
  ckpt : Ckpt := {}
  older : Option Ckpt := none
  inB : Bool := false
  running : Option Ckpt := none
  ckptLate : Bool := false
  badRoots : List Nat := []
  validPast : Bool := false
  replayMs : Nat := 0
  cache : AMap (List Nat) := []
  replayed : Bool := false
  cleanMark : Bool := false
  startedClean : Bool := false
  runs : AMap Run := []
  poolExhausted : Bool := false
  logFull : Bool := false
  lostWait : List Nat := []
  poolLow : Bool := false
  deriving DecidableEq, Repr

/-! ### FLC -/

/-- A die profile (Table 6.3); times in ns, FILL_RATE in 0.125 MB/s; the defaults are Table 6.4 and log entry 6. `opcodes`: bytes 84-99;
`timing`: bytes 112-151; `reservedZero`: every reserved byte is zero. -/
structure Profile where
  id : Nat := 0
  format : Nat := 1
  matchId : List Byte := List.replicate 8 0
  levels : Nat := 3
  planes : Nat := 4
  tpb : Nat := 2
  luns : Nat := 4
  ppb : Nat := 1152
  blocks : Nat := 7296
  maxRate : Nat := 3600
  fillRate : Nat := 625
  trTyp : Nat := 46000
  trMax : Nat := 90000
  tprogTyp : Nat := 2000000
  tprogMax : Nat := 2400000
  tbersTyp : Nat := 6000000
  tbersMax : Nat := 12000000
  tsusMax : Nat := 30000
  pslcTrMax : Nat := 40000
  pslcTprogMax : Nat := 400000
  susMinRun : Nat := 500000
  susMaxHold : Nat := 1000000
  ersSusMax : Nat := 32
  pgmSusMax : Nat := 4
  retryMax : Nat := 2
  softDelta : Nat := 6
  balanceGain : Int := 400
  balanceTol : Nat := 655
  peLimit : Nat := 3000
  pslcPeLimit : Nat := 30000
  opcodes : List Byte := List.replicate 16 0
  tempFa : Byte := 0
  offsetFa : Byte := 0
  pslcFa : Byte := 0
  levelMask : List Nat := [17, 42, 68, 0]
  timing : List Nat := List.replicate 10 0
  retry : List (List Int) := []
  curve : List (List Int) := []
  xtemp : List (List Int) := []
  reservedZero : Bool := true
  deriving DecidableEq, Repr

/-- Block states (Table 6.7). -/
inductive BlkSt where
  | unknown | erasing | erased | open_ | full | retired
  deriving DecidableEq, Repr

/-- A block: state, write pointer (row), first row of the unit that failed or was cut off (readable below it), whether the probe found
that unit cut off (R178), REFINE. -/
structure Blk where
  st : BlkSt := .unknown
  ptr : Nat := 0
  readTo : Nat := 0
  torn : Bool := false
  refine : Int := 0
  deriving DecidableEq, Repr

/-- An array operation of a target (R179, R187). -/
inductive ArrayOp where
  | prog (band unit : Nat)
  | erase (band : Nat)
  | sense (rid : Nat)
  deriving DecidableEq, Repr

/-- A target at work: its operation, since when it runs, its busy time before that, suspended since, suspends so far, suspend
ordered, the operation nested in the suspension and since when that runs, whether a program has begun in the suspension, overtime
raised for the operation and for the nested one. -/
structure TOp where
  op : ArrayOp
  since : Nat := 0
  busy : Nat := 0
  nestedSince : Nat := 0
  nestedOver : Bool := false
  ordered : Bool := false
  suspended : Option Nat := none
  count : Nat := 0
  nested : Option ArrayOp := none
  progIn : Bool := false
  overtime : Bool := false
  deriving DecidableEq, Repr

/-- A physical codeword that a diagnostic names (Table 8.14): channel, target, target set, plane block, row in the block, plane,
page in the plane block. -/
structure RawPlace where
  ch : Nat
  target : Nat
  set : Nat
  block : Nat
  row : Nat
  plane : Nat
  page : Nat
  deriving DecidableEq, Repr

/-- What a read serves: an LBA of a command, a copy, a rebuild, a fleet write or request, a self-test, the reconstruction of another
read (from a position of its row), RAW_READ (mode, destination), the parity of a group of a band found Open (R212), or the reclaim of a
system band (R226). -/
inductive RdFor where
  | host (id ix : Nat)
  | copy (id ix : Nat)
  | rebuild (page cw : Nat)
  | fleetOld (id ix : Nat)
  | fleetReq (id ix : Nat)
  | selfTest (segment : Nat)
  | survivor (rid pos : Nat)
  | raw (src : Src) (tag mode dest : Nat) (place : RawPlace)
  | readBack (page cw : Nat)
  | sys (page cw : Nat)
  deriving DecidableEq, Repr

/-- Where a read stands (R182, R190): waiting for its sense, sensing, sensed, in the soft queue with its strobes read, being
reconstructed, or waiting for room in the soft queue (R121). -/
inductive RdPhase where
  | waiting | sensing | ready | softq | recon | fog
  deriving DecidableEq, Repr

/-- Bytes 0-4,127 of a codeword (Table 6.5): DATA as it lies on flash, LBA_TAG, WSEQ, GCM_TAG. -/
structure Payload where
  data : Block := 0
  lbaTag : BitVec 64 := 0
  wseq : BitVec 64 := 0
  tag : BitVec 128 := 0
  deriving DecidableEq, Repr

/-- A codeword read (R190). `sense`: the read whose sense read its page (R182); `issued`: when that sense was issued; `strobe`: strobe
reads begun, 0-2; `known`: what a reconstruction has of its row, by position; `lost`: positions whose read failed for it; `fogged`:
those of them that met a full soft queue (R249); `decoding`: when a soft decoder took it. -/
structure Rd where
  use : RdFor
  cls : Cls
  page : Nat
  cw : Nat
  nsid : Nat := 0
  lba : Nat := 0
  phase : RdPhase := .waiting
  attempt : Nat := 0
  shift : Int := 0
  gen : Nat := 0
  sense : Nat := 0
  issued : Nat := 0
  strobe : Nat := 0
  decoding : Nat := 0
  late : Bool := false
  tagFailed : Bool := false
  known : AMap Payload := []
  lost : List Nat := []
  fogged : List Nat := []
  deriving DecidableEq, Repr

/-- A codeword on flash (Table 6.5): data sealed under a key with its IV and AAD, a pad codeword, one given by its bytes (parity, or
recovered under Table 8.3). `key` 0 is K_sys, otherwise the TRNG draw that made the key. `Cw.payload`
gives the bytes of each. -/
inductive Cw where
  | data (key nsid lba wseq place : Nat) (content : Block)
  | pad
  | bytes (x : Payload)
  deriving DecidableEq, Repr

/-- FLC (06_flash_channels.md). `profile`: the profile whose geometry the unit's format fixed (R166); `valid`: profiles that pass R168;
`targetProfile`: the profile that each fitted target matches (R167). `decoders`: soft decoders at work and the read in each; `softTime`: the
longest soft decode, in ns; `dqUse`: status and feature transfers that a channel has carried in this tick (R162); `offsets`: read offsets
set in each target (R194); `blank`: ports admitted since the start, whose blocks are Unknown until they are erased (R206). -/
structure Flc where
  profiles : List (Option Profile) := [some {}]
  profile : Profile := {}
  valid : List Nat := []
  fitted : AMap Nat := []
  targetProfile : AMap Nat := []
  trained : AMap (List Nat) := []
  trainSet : AMap Nat := []
  probed : Bool := false
  blocks : AMap Blk := []
  targets : AMap TOp := []
  reads : AMap Rd := []
  nextRead : Nat := 1
  decoders : AMap Nat := []
  softTime : Nat := 0
  dqUse : AMap Nat := []
  offsets : AMap (List Int) := []
  dieTemps : AMap Int := []
  blank : List Nat := []
  stamps : AMap (AMap (Nat × Nat)) := []
  deriving DecidableEq, Repr

/-! ### BND -/

/-- Band states (Table 7.2). -/
inductive BandSt where
  | free | erased | open_ | closed | awaiting | retired
  deriving DecidableEq, Repr

/-- A band state entry (Table 7.1). `kind`: 0 shared, 1 dedicated, 3 system. `endRow`: END_ROW, 0 where Table 7.1 gives 0. -/
structure Band where
  st : BandSt := .free
  early : Bool := false
  failed : Bool := false
  erasedAll : Bool := false
  active : List Nat := []
  kind : Nat := 0
  stream : Nat := 0
  endRow : Nat := 0
  eraseCnt : Nat := 0
  failA : Option (Nat × Nat) := none
  failB : Option (Nat × Nat) := none
  openTime : Nat := 0
  deriving DecidableEq, Repr

/-- What a page holds and for whom. -/
inductive PageSrc where
  | write
  | sys
  | copy (id : Nat)
  | pad
  | parityP
  | parityQ
  deriving DecidableEq, Repr

/-- Where a page stands. `cut`: power was lost while its unit was being programmed (R186). -/
inductive PageSt where
  | queued | transferred | passed | held | gone | cut
  deriving DecidableEq, Repr

/-- A page placed in a band. `was`: the commands whose data a page issued again held here (R218). `lbas`: the command (or copy) and the LBA of each data codeword, the rest being pad codewords; `items`: what the codewords of a system band's page hold; `gone`: it can no longer be programmed there (R239). -/
structure Page where
  band : Nat
  row : Nat
  slot : Nat
  pos : Nat
  ch : Nat
  src : PageSrc
  cls : Cls
  stream : Nat
  nsid : Nat := 0
  lbas : List (Nat × Nat) := []
  was : List Nat := []
  items : List SysCw := []
  cws : List Cw := []
  st : PageSt := .queued
  rebuilt : Bool := false
  deriving DecidableEq, Repr

/-- The cursor of an Open band: next page slot for data after the runs, the unused slots of given-up runs, groups whose parity is queued,
the row at which an early close ends, whether a program unit has been issued, best effort withheld (R217), the dedicated band that it
succeeds (R210), units begun by channel, and the tick of the last staging or transfer by 64 × unit + channel (R181). -/
structure OpenBand where
  next : Nat := 0
  holes : List Nat := []
  parityDone : List Nat := []
  closeAt : Option Nat := none
  issued : Bool := false
  beOk : Bool := true
  after : Option Nat := none
  started : AMap Nat := []
  waitFrom : AMap Nat := []
  deriving DecidableEq, Repr

/-- A reclaim copy of LBAs of one segment (R142, R216). -/
structure Copy where
  victim : Nat
  gsn : Nat
  lbas : List (Nat × Loc)
  whole : Bool
  got : AMap Block := []
  nsid : Nat := 0
  base : Nat := 0
  placed : Bool := false
  formed : Bool := false
  deriving DecidableEq, Repr

/-- BND (07_bands_and_reclaim.md). `freshDone`, `freshCnt`: DONE and ERASE_CNT of the Free user bands that `bands` does not list. `orphans`:
pages to be issued again that no Open band has taken yet (R213, R27). `hostBytes`: bytes of host data by the second in which they were
written, for the last 10 s (R220); `copied`: bytes copied by reclaim by the moment, for the last second. `recentV`: VALID and capacity of
the last victims when chosen. System bands (R225, R226): `sysTodo`: codewords to be written, `sysWait`: pages placed whose rows do not meet
R238 yet, `sysAt`: the newest copy of each item, `sysVictim`: the band being copied, `sysArming`: the one being armed, `sysLow`:
BND_SYS_SPACE_LOW holds. -/
structure Bnd where
  nsets : Nat := 0
  vb : Nat := 0
  sysBands : Nat := 32
  bands : AMap Band := []
  opens : AMap OpenBand := []
  pages : AMap Page := []
  factory : List (Nat × Nat × Nat) := []
  grown : List (Nat × Nat × Nat × Nat × Nat) := []
  victims : List Nat := []
  copies : AMap Copy := []
  orphans : List Page := []
  freshDone : Bool := false
  freshCnt : Nat := 0
  arming : Option Nat := none
  erasing : AMap (List Nat) := []
  withheld : Bool := false
  low : Bool := false
  warned : List Nat := []
  recentV : List (Nat × Nat) := []
  hostBytes : AMap Nat := []
  copied : AMap Nat := []
  ready : Bool := false
  sysTodo : List SysCw := []
  sysWait : List Nat := []
  sysAt : List (SysItem × Loc) := []
  sysVictim : Option Nat := none
  sysArming : Option Nat := none
  sysLow : Bool := false
  deriving DecidableEq, Repr

/-! ### MBR -/

/-- Member states (Table 8.6). -/
inductive PortSt where
  | absent | present | active | failed | rebuilding | spare | fenced
  deriving DecidableEq, Repr

/-- A port's power sequence in progress. -/
inductive PowerSeq where
  | none | up | down
  deriving DecidableEq, Repr

/-- What an admission in progress is for: an ADMIT or READMIT_BLANK to complete, or none (R257, R261). -/
inductive Admission where
  | none
  | auto
  | request (src : Src) (tag : Nat)
  deriving DecidableEq, Repr

/-- A port (Tables 8.6, 8.9, 8.17). `training`: the training of its channels has begun since power rose (R459). -/
structure Port where
  st : PortSt := .absent
  gen : Nat := 0
  position : Option Nat := none
  cause : Nat := 0
  serial : Nat := 0
  memb : Option MembRec := none
  inserted : Bool := false
  powered : Bool := false
  fault : Bool := false
  unavailable : Bool := false
  seq : PowerSeq := .none
  pending : Option Bool := none
  training : Bool := false
  admission : Admission := .none
  answers : List TargetSeen := []
  temp : Int := 0
  timeouts : Nat := 0
  deadlines : Nat := 0
  staleDrops : Nat := 0
  reconstructed : Nat := 0
  declared : Nat := 0
  deriving DecidableEq, Repr

/-- The rebuild in progress (R251-R253). -/
structure Rebuild where
  position : Nat
  port : Nat
  marked : List Nat
  done : Nat := 0
  band : Option Nat := none
  row : Nat := 0
  startNow : Nat := 0
  deriving DecidableEq, Repr

/-- MBR (08_member_parity.md). `slots`: parity slots by band, each the held (row, channel, codeword) entries. -/
structure Mbr where
  formatted : Bool := false
  geometry : Nat := 0
  sparePort : Nat := 15
  ports : List Port := List.replicate 9 {}
  posOf : AMap Nat := []
  slots : AMap (List (Nat × Nat × Nat)) := []
  rebuild : Option Rebuild := none
  order : List Nat := []
  deriving DecidableEq, Repr

/-! ### FLT -/

/-- FSTATE (Table 9.11). -/
inductive FState where
  | none | enrolled | forming | member | rebuilding | isolated | fenced
  deriving DecidableEq, Repr

/-- A peer (R270-R275): `heard` is fleet time, `heardNow` the unit's own time; `newSession`: the session of a handshake in
progress. -/
structure Peer where
  session : Nat := 0
  oldSession : Nat := 0
  seqHigh : Nat := 0
  seqSeen : List Nat := []
  oldHigh : Nat := 0
  oldSeen : List Nat := []
  newSession : Nat := 0
  sent : Nat := 0
  credit : Nat := 0
  heard : Nat := 0
  heardNow : Nat := 0
  suspected : Bool := false
  activating : Bool := false
  actHeard : Nat := 0
  rosterHash : Nat := 0
  sliceSegs : Nat := 0
  confirmed : Bool := false
  expired : Nat := 0
  expiredTotal : Nat := 0
  hsOpen : Bool := false
  hsFails : Nat := 0
  deriving DecidableEq, Repr

/-- Journal roles and states (Table 11.13). -/
inductive JRole where
  | own | keeper | relief
  deriving DecidableEq, Repr

inductive JState where
  | intended | done | programmed
  deriving DecidableEq, Repr

/-- A keeper journal entry (Table 11.13) with, beside it, what the entry waits for. -/
structure Journal where
  role : JRole
  st : JState
  writer : Nat
  seqNo : Nat
  stripe : Nat
  offset : Nat
  count : Nat
  index : Nat
  keeperJ : Nat
  epoch : Nat
  delta : Option (List Block) := none
  acked : Bool := false
  mirrored : Bool := false
  cmd : Nat := 0
  deriving DecidableEq, Repr

/-- A proposal of a new epoch (R276). -/
structure Proposal where
  epoch : Nat
  change : Change
  accepts : List Nat
  own : Bool
  deriving DecidableEq, Repr

/-- Fleet port states (Table 9.13). -/
inductive FPortSt where
  | off | up | draining
  deriving DecidableEq, Repr

structure FPort where
  st : FPortSt := .off
  starting : Bool := false
  lost : Bool := false
  pending : Option Bool := none
  deriving DecidableEq, Repr

/-- A message that awaits an answer (R273): its number, the peer's position, its type (Table 9.2), the write ID's sequence part or
the gather it serves, the writer's unit or the element asked. -/
structure Msg where
  id : Nat
  peer : Nat
  kind : Nat
  seqNo : Nat := 0
  part : Nat := 0
  deriving DecidableEq, Repr

/-- A READ_REQ being answered (R282): who asked, the reference, stripe, first offset, LBAs, element, what has been read; `bad`:
some of it cannot be had. -/
structure Serve where
  dest : Nat
  ref : Nat
  stripe : Nat
  offset : Nat
  count : Nat
  element : Nat
  got : AMap Block := []
  bad : Bool := false
  deriving DecidableEq, Repr

/-- What elements are fetched for: LBA `ix` of a Read (R288, R289), or an element of the own slice that a resync or a rebuild
writes, by the key of its `Resync`. -/
inductive GatherFor where
  | proxy (id ix : Nat)
  | element (key : Nat)
  deriving DecidableEq, Repr

/-- Elements being fetched to compute one (R282, R287, R288): stripe, first offset, LBAs, the element wanted, and what has come. -/
structure Gather where
  use : GatherFor
  stripe : Nat
  offset : Nat
  count : Nat
  want : Nat
  asked : List Nat
  got : AMap (List Block) := []
  bad : List Nat := []
  deriving DecidableEq, Repr

/-- A locked stripe whose own element is recomputed (R287, R289): element, LBAs fetched so far, writes not yet complete. -/
structure Resync where
  stripe : Nat
  element : Nat
  rebuild : Bool
  next : Nat := 0
  writes : List Nat := []
  deriving DecidableEq, Repr

/-- A fleet activation (R290). -/
structure FleetAct where
  time : Nat
  digest : Nat
  leader : Bool
  commit : Bool := false
  acks : List Nat := []
  deriving DecidableEq, Repr

/-- FLT (09_fleet.md). `stale`: elements (stripe, keeper index, lost); `candidate`: unit ID and position of a unit outside the
roster with which a handshake runs; `replacing`: this unit replaces another (R289). -/
structure Flt where
  fstate : FState := .none
  unitId : Nat := 0
  group : Nat := 0
  certSerial : Nat := 0
  n : Nat := 0
  m : Nat := 0
  position : Nat := 0
  epoch : Nat := 0
  roster : List RosterEntry := []
  peers : AMap Peer := []
  proposal : Option Proposal := none
  recorded : Option (Nat × Change) := none
  msgs : List Msg := []
  nextMsg : Nat := 1
  nextSession : Nat := 1
  journal : List Journal := []
  fleetSeq : Nat := 1
  stale : List (Nat × Nat × Bool) := []
  locks : List Nat := []
  resyncs : AMap Resync := []
  gathers : AMap Gather := []
  gather : Nat := 1
  rebuildFirst : List Nat := []
  rebuilt : List Nat := []
  slice : Option Nat := none
  keepStream : Nat := 0
  sliceSegs : Nat := 0
  fnk : Nat := 0
  fnkHeld : List Nat := []
  rebuildNext : Option Nat := none
  candidate : Option (Nat × Nat) := none
  replacing : Bool := false
  pendingForm : Option (Src × Nat) := none
  pendingDeclare : Option (Src × Nat × Nat) := none
  act : Option FleetAct := none
  ports : FPort × FPort := ({}, {})
  hsSecond : Nat := 0
  hsCount : Nat := 0
  resends : List Nat := []
  resolving : List Nat := []
  serving : AMap Serve := []
  deriving DecidableEq, Repr

/-! ### SEC -/

/-- Lifecycles (R298). -/
inductive Lifecycle where
  | blank | keyed | provisioned | commissioned
  deriving DecidableEq, Repr

/-- Lane states (Table 10.11). -/
inductive LaneSt where
  | off | on | draining | testing | retired
  deriving DecidableEq, Repr

/-- A cipher lane; `pending`: the latched request; `carrying`: a latched request is being carried out. -/
structure Lane where
  st : LaneSt := .off
  pending : Option Bool := none
  carrying : Bool := false
  deriving DecidableEq, Repr

/-- The SPDM responder (R316): no request, one being answered, a response that waits to be collected. -/
inductive Spdm where
  | idle
  | forming (req : SpdmReq)
  | ready (bytes : List Byte)
  deriving DecidableEq, Repr

/-- SEC (10_trust_and_cipher.md). Keys are named by the TRNG draw that made them. -/
structure Sec where
  otpSecret : Option Nat := none
  otpDaymark : Bool := false
  otpOwner : Option Nat := none
  otpLifecycle : Bool := false
  otpTime : Nat := 0
  serial : Nat := 0
  certs : List Byte := []
  steps : List Bool := []
  mramSecver : Nat := 0
  trngOk : Bool := false
  trngDead : Bool := false
  draws : Nat := 1
  keyGen : Nat := 0
  keyStore : Bool := false
  laneRetired : List Nat := []
  lanes : List Lane := List.replicate 8 {}
  wseq : Nat := 0
  wseqMark : Nat := 0
  unlock : Nat := 0
  lockout : Bool := false
  idDisabled : Bool := false
  challenge : Option Nat := none
  sanitize : Nat := 0
  sanitizeStep : Nat := 0
  spdm : Spdm := .idle
  spdmWait : Option Nat := none
  provResult : Nat := 0
  provArg : Nat := 0
  deriving DecidableEq, Repr

/-! ### CPX, MEM, MOV -/

/-- Ledger pair states (Table 11.15). -/
inductive PairSt where
  | paired | single | selfCheck | restarting | failed
  deriving DecidableEq, Repr

/-- A ledger pair: state, primary core, consecutive missed cut-offs, times of the refusals of the last second, tick of the last takeover
(of the mismatch while in self-check), cores that flagged a fault in the recovery under way. -/
structure Pair where
  st : PairSt := .paired
  primary : Nat := 0
  missed : Nat := 0
  refusals : List Nat := []
  takeover : Option Nat := none
  flagged : List Nat := []
  deriving DecidableEq, Repr

/-- CPX. -/
structure Cpx where
  appsOn : List Nat := []
  ledgersOn : Bool := false
  pairs : List Pair := List.replicate 10 {}
  wdogArmed : Bool := false
  deriving DecidableEq, Repr

/-- A memory instance's counts, its log of addresses corrected, newest first, each with its count, the addresses that spares serve, and
the times of the uncorrectable words of the last second (R345, R346, R348). -/
structure MemInst where
  ce : Nat := 0
  ue : Nat := 0
  remaps : List Nat := []
  log : List (Nat × Nat) := []
  ueTimes : List Nat := []
  deriving DecidableEq, Repr

/-- MEM. -/
structure Mem where
  selfTestPass : Bool := false
  mramA : Bool := false
  mramB : Bool := false
  insts : AMap MemInst := []
  fixedKeep : Option Nat := none
  deriving DecidableEq, Repr

/-- A Mover channel: descriptors taken and not begun, each with its number on the channel, the one begun with its EVENT byte, the
MOV status that makes it bad, and how many have been taken since the ring turned On. -/
structure MovCh where
  taken : List (Nat × List Byte × List WordSeen) := []
  busy : Bool := false
  cur : Nat := 0
  event : Nat := 0
  bad : Option Nat := none
  count : Nat := 0
  deriving DecidableEq, Repr

/-- MOV. -/
structure Mov where
  chans : AMap MovCh := []
  last : Nat := 0
  deriving DecidableEq, Repr

/-! ### CST -/

/-- Image slot states (Table 12.15). -/
inductive ImgSt where
  | empty | committed | pending | active | confirmed | rejected
  deriving DecidableEq, Repr

/-- A manifest (Table 12.9); `full`: the SHA-384 over manifest and body together. -/
structure Image where
  formatOk : Bool
  deviceType : Nat
  minSilicon : Nat
  kind : Nat
  secver : Nat
  signer : Nat
  settingsFmt : Nat
  minSettings : Nat
  version : Nat
  len : Nat
  entry : Nat
  digest : Nat
  full : Nat
  actTime : Nat
  moorCount : Nat
  mooring : List Nat
  deriving DecidableEq, Repr

structure ImgSlot where
  st : ImgSt := .empty
  img : Option Image := none
  deriving DecidableEq, Repr

/-- A commit in progress (R377). -/
structure Commit where
  src : CommitSrc
  action : Nat
  slot : Nat
  img : Option Image
  deriving DecidableEq, Repr

/-- A Code Store bank at work (R369, R370): erase running of a sector, suspended, or a program of a code word; when the erase was last
suspended and last resumed, and when the last read of the bank arrived. -/
structure Bank where
  erase : Option Nat := none
  suspended : Bool := false
  prog : Option Nat := none
  suspendedAt : Nat := 0
  resumedAt : Option Nat := none
  lastReq : Nat := 0
  deriving DecidableEq, Repr

/-- A Beacon transfer (R381, R382). `at_`: when its last message came; `queued`: its pages are queued for the system bands. -/
structure Transfer where
  peer : Nat
  slot : Nat
  img : Image
  pieces : List (Nat × List Byte)
  at_ : Nat := 0
  queued : Bool := false
  deriving DecidableEq, Repr

/-- CST (12_modes_boot_update.md). `begun`: PORESET_L has risen; `held`: what a start held by R403 has found; `downloads`: pieces that wait
for a commit to end (R377); `actStage`: step of Table 12.12 that an activation has reached; `lastSlots`: the ledger and OS slots that ran
last (R376); `settingsOld`: format of the older settings record, kept until the start that migrated it is confirmed (R375); `remaps`: the
remap lists of the settings, instance and address (R346); `settingsLog`: the log bank in use (Table 12.8); `osSeen`: what the checks of
check 3 of Table 12.7 found in the OS slots; `prefetch`, `branch`: lines of 64 B in the ledger cores' prefetch buffer and branch cache
(R370); `lastAnswer`: status and payload of the last Beacon answer (R382). -/
structure Cst where
  mode : Mode := .dark
  cause : Nat := 0
  bootCount : Nat := 0
  bootRead : Nat := 0
  confirmed : Bool := false
  powerUps : Nat := 0
  slots : List ImgSlot := List.replicate 5 {}
  ledgerSlot : Nat := 0
  osSlot : Nat := 0
  settingsGen : Nat := 0
  settingsFmt : Nat := 1
  settingsSeq : Nat := 0
  settingsLog : Nat := 2
  settingsOk : Bool := true
  remaps : List (Nat × Nat) := []
  savedPool : Nat := 0
  buffer : List (Nat × List Byte) := []
  commit : Option Commit := none
  waiting : List Commit := []
  actTime : Nat := 0
  actSlots : List Nat := []
  actDue : Bool := false
  actRunning : Bool := false
  actStage : Nat := 0
  banks : AMap Bank := []
  prefetch : List Nat := []
  branch : List Nat := []
  programmed : List Nat := []
  transfer : Option Transfer := none
  lastSeq : Option (Nat × Nat) := none
  startAt : Nat := 0
  begun : Bool := false
  held : Option StartEnv := none
  downloads : List (Nat × Nat × List Byte) := []
  lastSlots : Nat × Nat := (0, 0)
  osSeen : Crypt × Crypt := ({}, {})
  settingsOld : Option Nat := none
  lastAnswer : Nat × List Byte := (0, [])
  deriving DecidableEq, Repr

/-! ### LNT -/

/-- A Lantern record (Table 14.1); its CHECK byte is computed where it is read. -/
structure LntRec where
  time : Nat
  tick : Nat
  status : Nat
  seq : Nat
  mode : Nat
  detail : List Byte
  deriving DecidableEq, Repr

/-- LNT (14_lantern_and_health.md). -/
structure Lnt where
  recs : AMap LntRec := []
  seq : Nat := 1
  newest : Nat := 0
  frozen : Bool := false
  frozenSeq : Nat := 0
  queue : List LntRec := []
  dropped : Nat := 0
  accepting : Bool := false
  waiting : List LntRec := []
  started : Bool := false
  raised : List Nat := []
  smart : AMap Nat := []
  ctrlHist : AMap Nat := []
  flashHist : AMap Nat := []
  hourDeadline : AMap Nat := []
  hourRetry : AMap Nat := []
  hourRead : AMap Nat := []
  lastClean : Bool := false
  deriving DecidableEq, Repr

/-! ### What the unit emits -/

/-- Observations: what leaves the unit (log entry 4). -/
inductive Out where
  /-- A CQE written to a CQ (R70). -/
  | cqe (cq : Nat) (c : Cqe)
  /-- Data written to the host buffer of a Read: LBA and content (R79). -/
  | hostData (sq cid : Nat) (data : List Block)
  /-- An MSI-X message (Table 3.1): address and data of its table entry. -/
  | msix (addr data : Nat)
  /-- Bytes written to an admin command's buffer. -/
  | adminData (cid : Nat) (bytes : List Byte)
  /-- A completion record in a vendor command's buffer bytes 64-95, and its result data (R91). -/
  | adminRecord (cid : Nat) (rec_ : CplRec)
  /-- The value a setup-space load returns. -/
  | load (off : Nat) (v : Word)
  /-- A TICK_OUT pulse (R57). -/
  | tickOut (tick : Nat)
  /-- A TFP message sent on a fleet port to the unit at a ring position: type code of Table 9.2, message number, reference, sequence
  part of the write ID, and the fields of its payload in order. -/
  | tfp (port dest ty msgId ref seqNo : Nat) (body : List Nat)
  /-- READ_DATA sent: the element, or none where it is unavailable. -/
  | tfpData (port dest ref : Nat) (data : Option (List Block))
  /-- A HELLO or HELLO_REPLY sent on a fleet port to a unit ID. -/
  | handshake (port unit ty : Nat)
  /-- An answer to ARP or NDP on a port (R268). -/
  | arp (port : Nat)
  /-- A Beacon answer: SEQ, status, payload (R382). -/
  | beacon (peer seqNo status : Nat) (payload : List Byte)
  /-- 48 bytes of a TAP challenge (R318), named by its TRNG draw. -/
  | challenge (draw : Nat)
  /-- An SPDM response (R314-R316). -/
  | spdm (cid : Nat) (bytes : List Byte)
  /-- An asynchronous event completion (R93): type, information, log page. -/
  | aen (cid ty info page : Nat)
  /-- An access fault given to the requester (R431, R328). -/
  | accessFault (addr : Nat)
  deriving DecidableEq, Repr

/-- The state of the NM-960: its setup registers, the latched halves of 64-bit registers, its addressed memory, its
blocks, what it has emitted, the count of free values drawn, and the commands that wait. -/
structure State where
  pending : List Instr := []
  regs : AMap Word := []
  latch : AMap Word := []
  mem : List Host.Cell := []
  sys : Sys := {}
  clk : Clk := {}
  thm : Thm := {}
  tck : Tck := {}
  hif : Hif := {}
  stm : Stm := {}
  map : Map := {}
  flc : Flc := {}
  bnd : Bnd := {}
  mbr : Mbr := {}
  flt : Flt := {}
  sec : Sec := {}
  cpx : Cpx := {}
  memc : Mem := {}
  mov : Mov := {}
  cst : Cst := {}
  lnt : Lnt := {}
  out : List Out := []
  freeCtr : Nat := 0
  deriving DecidableEq, Repr

/-- The machine right after reset: the default of every field (mode Dark under R362, registers at their reset values, tick
and fleet time zero under R34, only stream 0 Open under R102), a factory-fresh unit (log entry 6), no command waiting. -/
def State.reset : State := {}

end Sys2Proof.Machine
end

