-- ==== Sys2Proof/Machine/Maps.lean ====
section
/-! DEFINITION. Finite maps with rising keys, bit fields, little-endian bytes (R9) and list helpers that every block uses. -/

namespace Sys2Proof.Machine

/-- The value at a key. -/
def mget {α : Type} : AMap α → Nat → Option α
  | [], _ => none
  | (k, v) :: m, n => if n = k then some v else mget m n

/-- The value at a key, or a default. -/
def mgetD {α : Type} (m : AMap α) (n : Nat) (d : α) : α := (mget m n).getD d

/-- Put a value at a key. -/
def mput {α : Type} : AMap α → Nat → α → AMap α
  | [], n, v => [(n, v)]
  | (k, w) :: m, n, v =>
    if n < k then (n, v) :: (k, w) :: m else if n = k then (n, v) :: m else (k, w) :: mput m n v

/-- Remove a key. -/
def mdel {α : Type} (m : AMap α) (n : Nat) : AMap α := m.filter (fun p => p.1 ≠ n)

/-- Change the value at a key that is present. -/
def mupd {α : Type} (m : AMap α) (n : Nat) (f : α → α) : AMap α :=
  m.map (fun p => if p.1 = n then (p.1, f p.2) else p)

/-- Is a key present? -/
def mhas {α : Type} (m : AMap α) (n : Nat) : Bool := (mget m n).isSome

/-- A key that is in no map with a greater or equal largest key. -/
def mfresh {α : Type} (m : AMap α) : Nat := (m.map (·.1)).foldl Nat.max 0 + 1

/-- Field [hi:lo] of a number. -/
def bits (w hi lo : Nat) : Nat := w / 2 ^ lo % 2 ^ (hi + 1 - lo)

/-- Bit i of a number. -/
def bitAt (w i : Nat) : Bool := w / 2 ^ i % 2 = 1

/-- 1 for true. -/
def b2n (b : Bool) : Nat := if b then 1 else 0

/-- A number with field [hi:lo] set to v. -/
def putBits (w hi lo v : Nat) : Nat :=
  w - bits w hi lo * 2 ^ lo + (v % 2 ^ (hi + 1 - lo)) * 2 ^ lo

/-- The bits i < n for which f holds, as a number. -/
def maskOf (n : Nat) (f : Nat → Bool) : Nat :=
  (List.range n).foldl (fun a i => a + b2n (f i) * 2 ^ i) 0

/-- A word from a number, modulo 2^32. -/
def toWord (n : Nat) : Word := BitVec.ofNat 32 n

/-- A byte from a number, modulo 2^8. -/
def toByte (n : Nat) : Byte := BitVec.ofNat 8 n

/-- n bytes of v, least significant first (R9). -/
def le : Nat → Nat → List Byte
  | 0, _ => []
  | n + 1, v => toByte v :: le n (v / 256)

/-- The number that bytes spell, least significant first (R9). -/
def leNat : List Byte → Nat
  | [] => 0
  | b :: bs => b.toNat + 256 * leNat bs

/-- A number from its fields: (lowest bit, width, value) of each. -/
def fields (l : List (Nat × Nat × Nat)) : Nat := (l.map (fun f => f.2.2 % 2 ^ f.2.1 * 2 ^ f.1)).sum

/-- The field of `len` bytes at `off`. -/
def fieldAt (bs : List Byte) (off len : Nat) : Nat := leNat ((bs.drop off).take len)

/-- The list padded or cut to n bytes. -/
def padTo (n : Nat) (bs : List Byte) : List Byte := (bs ++ List.replicate n 0).take n

/-- Bytes placed at offsets in a structure of n bytes of zeros. -/
def layout (n : Nat) (fs : List (Nat × List Byte)) : List Byte :=
  fs.foldl (fun acc f => acc.take f.1 ++ f.2 ++ acc.drop (f.1 + f.2.length)) (List.replicate n 0)

/-- A signed number in w bits (two's complement). -/
def signed (w : Nat) (v : Int) : Nat := (v % (2 ^ w : Int)).toNat

/-- Saturation at 0xFFFF_FFFF. -/
def sat32 (n : Nat) : Nat := Nat.min n 0xFFFFFFFF

/-- Division rounded up. -/
def cdiv (a b : Nat) : Nat := (a + b - 1) / b

/-- Add to a list an element that is not in it. -/
def addTo (l : List Nat) (n : Nat) : List Nat := if l.contains n then l else l ++ [n]

/-- Remove a number from a list. -/
def dropFrom (l : List Nat) (n : Nat) : List Nat := l.filter (· ≠ n)

/-- Change the element at an index of a list. -/
def setAt {α : Type} (l : List α) (i : Nat) (f : α → α) : List α :=
  match l[i]? with
  | some x => l.set i (f x)
  | none => l

/-- The rotating order of R50: p, p + 1, …, n − 1, 0, …, p − 1, with p = t mod n. -/
def rotate (t n : Nat) : List Nat := (List.range n).map (fun i => (t + i) % n)

/-- The element of a list with the least key, the first of several. -/
def minBy {α : Type} (f : α → Nat) : List α → Option α
  | [] => none
  | x :: xs =>
    match minBy f xs with
    | none => some x
    | some y => if f x ≤ f y then some x else some y

/-- Do the ranges [a, a + n) and [b, b + m) meet? -/
def meets (a n b m : Nat) : Bool := a < b + m && b < a + n

/-- Apply a change to the state for each element of a list, in order. -/
def forAll {α : Type} (l : List α) (f : α → State → State) (s : State) : State := l.foldl (fun s x => f x s) s

/-- Change the state only where a condition holds. -/
def doIf (c : Bool) (f : State → State) (s : State) : State := if c then f s else s

end Sys2Proof.Machine
end

