-- ==== Sys2Proof/Machine/Regs.lean ====
section
/-! DEFINITION. The setup registers: offsets from 0x30_0000_0000 (Table 15.1 and the register list of each block), reset
values, and which bits software can write under which access type (Table 15.2). An offset with no row of `writable` is read
only or unassigned. -/

namespace Sys2Proof.Machine

/-! ### Offsets -/

abbrev TCK_CFG : Nat := 0x30000
abbrev TCK_STATUS : Nat := 0x30004
abbrev TCK_FRAME : Nat := 0x30008
abbrev TCK_FRAME_LEN : Nat := 0x3000C
abbrev TCK_TICK_LO : Nat := 0x30010
abbrev TCK_TICK_HI : Nat := 0x30014
abbrev TCK_TIME_LO : Nat := 0x30018
abbrev TCK_TIME_HI : Nat := 0x3001C
abbrev TCK_TIME_SEC_HI : Nat := 0x30020
abbrev TCK_TIME_SEC : Nat := 0x30024
abbrev TCK_PPS_STEP : Nat := 0x30028
abbrev TCK_PPS_CFG : Nat := 0x3002C
abbrev TCK_RATE_TRIM : Nat := 0x30030
abbrev TCK_PPS_MISS_CNT : Nat := 0x30034
abbrev TCK_PPS_REJ_CNT : Nat := 0x30038
abbrev TCK_FSYNC_REJ_CNT : Nat := 0x3003C
abbrev TCK_OVERRUN_CNT : Nat := 0x30040
abbrev TCK_HOLD_CNT : Nat := 0x30044
abbrev TCK_CT_STATE : Nat := 0x30048
abbrev TCK_CT_SWAP_CNT : Nat := 0x3004C
abbrev TCK_CT_A_BASE : Nat := 0x30050
abbrev TCK_CT_B_BASE : Nat := 0x30054
abbrev TCK_FRAME_CNT : Nat := 0x30058
abbrev TCK_ALARMn_LO (n : Nat) : Nat := 0x30060 + 8 * n
abbrev TCK_ALARMn_HI (n : Nat) : Nat := 0x30064 + 8 * n
abbrev TCK_ALARM_STATUS : Nat := 0x30080
abbrev HIF_CFG : Nat := 0x40000
abbrev HIF_STATUS : Nat := 0x40004
abbrev HIF_PCI_ID : Nat := 0x40008
abbrev HIF_SLOTS : Nat := 0x40010
abbrev HIF_WRITE_SLOTS : Nat := 0x40014
abbrev HIF_INFLIGHT : Nat := 0x40018
abbrev HIF_QUEUES : Nat := 0x4001C
abbrev HIF_CMD_CNT_LO : Nat := 0x40020
abbrev HIF_CMD_CNT_HI : Nat := 0x40024
abbrev HIF_ORD_CNT : Nat := 0x40028
abbrev HIF_MGMT_REFUSED_CNT : Nat := 0x4002C
abbrev HIF_AUTH_FAIL_CNT : Nat := 0x40030
abbrev HIF_CQ_STALL_CNT : Nat := 0x40034
abbrev HIF_LINK_DOWN_CNT : Nat := 0x40038
abbrev HIF_IDE_CFG : Nat := 0x40040
abbrev HIF_IDE_RID : Nat := 0x40044
abbrev HIF_IDE_KEY_CTL : Nat := 0x40048
abbrev HIF_IDE_KEYn (n : Nat) : Nat := 0x40050 + 4 * n
abbrev HIF_IDE_IV_LO : Nat := 0x40070
abbrev HIF_IDE_IV_HI : Nat := 0x40074
abbrev HIF_IDE_ERR_CNT : Nat := 0x40078
abbrev STM_CFG : Nat := 0x50000
abbrev STM_STAGING_CFG : Nat := 0x50004
abbrev STM_ADM_TEMP : Nat := 0x50008
abbrev STM_RECLAIM_ALLOW : Nat := 0x5000C
abbrev STM_REBUILD_ALLOW : Nat := 0x50010
abbrev STM_CEIL_BASE : Nat := 0x50014
abbrev STM_CEIL_KEEP : Nat := 0x50018
abbrev STM_CEIL_ADMIT : Nat := 0x5001C
abbrev STM_CEIL_FLEET : Nat := 0x50020
abbrev STM_RESERVED_SUM : Nat := 0x50024
abbrev STM_SCALE : Nat := 0x50028
abbrev STM_STATUS : Nat := 0x5002C
abbrev STM_BANDS : Nat := 0x50030
abbrev STM_STAGING_USED : Nat := 0x50034
abbrev STM_SOFTQ : Nat := 0x50038
abbrev STM_FOG_CNT : Nat := 0x5003C
abbrev STM_FOG_RECON_CNT : Nat := 0x50040
abbrev STM_ADMIT_REFUSED_CNT : Nat := 0x50044
abbrev STM_SCALE_CNT : Nat := 0x50048
abbrev MAP_CFG : Nat := 0x60000
abbrev MAP_POOL_CFG : Nat := 0x60004
abbrev MAP_STATUS : Nat := 0x60008
abbrev MAP_SEG_LIMIT : Nat := 0x6000C
abbrev MAP_SEG_ALLOC : Nat := 0x60010
abbrev MAP_GROUPS : Nat := 0x60014
abbrev MAP_POOL_USED : Nat := 0x60018
abbrev MAP_LOG_USED : Nat := 0x6001C
abbrev MAP_LSN_LO : Nat := 0x60020
abbrev MAP_LSN_HI : Nat := 0x60024
abbrev MAP_CKPT_LSN_LO : Nat := 0x60028
abbrev MAP_CKPT_LSN_HI : Nat := 0x6002C
abbrev MAP_CKPT_CNT : Nat := 0x60030
abbrev MAP_CACHE_HIT_CNT : Nat := 0x60034
abbrev MAP_CACHE_MISS_CNT : Nat := 0x60038
abbrev MAP_TO_GRANULAR_CNT : Nat := 0x6003C
abbrev MAP_TO_EXTENT_CNT : Nat := 0x60040
abbrev MAP_COPY_DISCARD_CNT : Nat := 0x60044
abbrev MAP_LOST_SEGS : Nat := 0x60048
abbrev MAP_REPLAY_RECORDS : Nat := 0x6004C
abbrev MAP_REPLAY_TIME : Nat := 0x60050
abbrev FLC_CFG (c : Nat) : Nat := 0x100000 + 0x1000 * c
abbrev FLC_STATUS (c : Nat) : Nat := 0x100004 + 0x1000 * c
abbrev FLC_TARGETS (c : Nat) : Nat := 0x100008 + 0x1000 * c
abbrev FLC_SUSPENDED (c : Nat) : Nat := 0x10000C + 0x1000 * c
abbrev FLC_DIE_TEMP_MAX (c : Nat) : Nat := 0x100010 + 0x1000 * c
abbrev FLC_PROG_CNT (c : Nat) : Nat := 0x100020 + 0x1000 * c
abbrev FLC_ERASE_CNT (c : Nat) : Nat := 0x100024 + 0x1000 * c
abbrev FLC_READ_CNT (c : Nat) : Nat := 0x100028 + 0x1000 * c
abbrev FLC_HARD_FAIL_CNT (c : Nat) : Nat := 0x10002C + 0x1000 * c
abbrev FLC_RETRY_OK_CNT (c : Nat) : Nat := 0x100030 + 0x1000 * c
abbrev FLC_SOFT_CNT (c : Nat) : Nat := 0x100034 + 0x1000 * c
abbrev FLC_SOFT_FAIL_CNT (c : Nat) : Nat := 0x100038 + 0x1000 * c
abbrev FLC_ERASED_READ_CNT (c : Nat) : Nat := 0x10003C + 0x1000 * c
abbrev FLC_PROG_FAIL_CNT (c : Nat) : Nat := 0x100040 + 0x1000 * c
abbrev FLC_ERASE_FAIL_CNT (c : Nat) : Nat := 0x100044 + 0x1000 * c
abbrev FLC_REFUSE_CNT (c : Nat) : Nat := 0x100048 + 0x1000 * c
abbrev FLC_SUSPEND_CNT (c : Nat) : Nat := 0x10004C + 0x1000 * c
abbrev FLC_OVERTIME_CNT (c : Nat) : Nat := 0x100050 + 0x1000 * c
abbrev FLC_PAD_CNT (c : Nat) : Nat := 0x100054 + 0x1000 * c
abbrev FLC_G_CFG : Nat := 0x100800
abbrev FLC_G_PROFILES : Nat := 0x100804
abbrev FLC_G_SOFT_BUSY : Nat := 0x100808
abbrev FLC_G_STAMP_BASE : Nat := 0x10080C
abbrev FLC_G_REFINE_BASE : Nat := 0x100810
abbrev FLC_G_SOFT_OK_CNT : Nat := 0x100814
abbrev FLC_G_SOFT_TIME : Nat := 0x100818
abbrev BND_CFG : Nat := 0x70000
abbrev BND_STATUS : Nat := 0x70004
abbrev BND_FREE_LOW : Nat := 0x70008
abbrev BND_FREE_HIGH : Nat := 0x7000C
abbrev BND_GEOM : Nat := 0x70010
abbrev BND_ROWS : Nat := 0x70014
abbrev BND_FREE : Nat := 0x70018
abbrev BND_OPEN : Nat := 0x7001C
abbrev BND_CLOSED : Nat := 0x70020
abbrev BND_AWAIT : Nat := 0x70024
abbrev BND_RETIRED : Nat := 0x70028
abbrev BND_RC_NEED : Nat := 0x7002C
abbrev BND_RC_RATE : Nat := 0x70030
abbrev BND_WEAR : Nat := 0x70034
abbrev BND_SYS_WEAR : Nat := 0x70038
abbrev BND_WEAR_PCT : Nat := 0x7003C
abbrev BND_VICTIM_CNT : Nat := 0x70040
abbrev BND_ZERO_ERASE_CNT : Nat := 0x70044
abbrev BND_COPY_CNT : Nat := 0x70048
abbrev BND_EARLY_CNT : Nat := 0x7004C
abbrev BND_FAIL_CLOSE_CNT : Nat := 0x70050
abbrev BND_OVERLOAD_CNT : Nat := 0x70054
abbrev BND_Mm_FACTORY (m : Nat) : Nat := 0x70100 + 32 * m
abbrev BND_Mm_GROWN (m : Nat) : Nat := 0x70104 + 32 * m
abbrev BND_Mm_SPARES_MIN (m : Nat) : Nat := 0x70108 + 32 * m
abbrev BND_Mm_PROG_FAIL (m : Nat) : Nat := 0x7010C + 32 * m
abbrev BND_Mm_ERASE_FAIL (m : Nat) : Nat := 0x70110 + 32 * m
abbrev BND_Mm_EARLY (m : Nat) : Nat := 0x70114 + 32 * m
abbrev MBR_CFG : Nat := 0x80000
abbrev MBR_STATUS : Nat := 0x80004
abbrev MBR_GEOM : Nat := 0x80008
abbrev MBR_POS_LO : Nat := 0x8000C
abbrev MBR_POS_HI : Nat := 0x80010
abbrev MBR_TIMEOUT : Nat := 0x80014
abbrev MBR_READ_DEADLINE : Nat := 0x80018
abbrev MBR_REBUILD : Nat := 0x8001C
abbrev MBR_REBUILD_DONE : Nat := 0x80020
abbrev MBR_SLOTS : Nat := 0x80024
abbrev MBR_RECON_CNT : Nat := 0x80028
abbrev MBR_DEADLINE_CNT : Nat := 0x8002C
abbrev MBR_ROW_LOST_CNT : Nat := 0x80030
abbrev MBR_STALE_DROP_CNT : Nat := 0x80034
abbrev MBR_FAIL_CNT : Nat := 0x80038
abbrev MBR_HELD_CW_CNT : Nat := 0x8003C
abbrev MBR_Mm_STATE (m : Nat) : Nat := 0x80100 + 32 * m
abbrev MBR_Mm_GEN (m : Nat) : Nat := 0x80104 + 32 * m
abbrev MBR_Mm_TIMEOUT_CNT (m : Nat) : Nat := 0x80108 + 32 * m
abbrev MBR_Mm_DEADLINE_CNT (m : Nat) : Nat := 0x8010C + 32 * m
abbrev MBR_Mm_TEMP (m : Nat) : Nat := 0x80110 + 32 * m
abbrev FLT_CFG : Nat := 0x90000
abbrev FLT_STATUS : Nat := 0x90004
abbrev FLT_UNIT : Nat := 0x90008
abbrev FLT_GEOM : Nat := 0x9000C
abbrev FLT_EPOCH_LO : Nat := 0x90010
abbrev FLT_EPOCH_HI : Nat := 0x90014
abbrev FLT_HB : Nat := 0x90018
abbrev FLT_ACT_GRACE : Nat := 0x9001C
abbrev FLT_KEEP_BUF : Nat := 0x90020
abbrev FLT_MIN_SECVER : Nat := 0x90024
abbrev FLT_REBUILD_RATE : Nat := 0x90028
abbrev FLT_HS_RATE : Nat := 0x9002C
abbrev FLT_LINK_RATE : Nat := 0x90030
abbrev FLT_JOURNAL : Nat := 0x90034
abbrev FLT_STALE : Nat := 0x90038
abbrev FLT_FILTER_DROP_CNT : Nat := 0x90040
abbrev FLT_REPLAY_DROP_CNT : Nat := 0x90044
abbrev FLT_STALE_EPOCH_CNT : Nat := 0x90048
abbrev FLT_RETX_CNT : Nat := 0x9004C
abbrev FLT_WINDOW_EXPIRE_CNT : Nat := 0x90050
abbrev FLT_BUSY_CNT : Nat := 0x90054
abbrev FLT_INTENT_CNT : Nat := 0x90058
abbrev FLT_FOLD_CNT : Nat := 0x9005C
abbrev FLT_SESSION_CNT : Nat := 0x90060
abbrev FLT_ADDR_A_w (w : Nat) : Nat := 0x90080 + 4 * w
abbrev FLT_ADDR_B_w (w : Nat) : Nat := 0x90090 + 4 * w
abbrev SEC_CFG : Nat := 0xA0000
abbrev SEC_STATUS : Nat := 0xA0004
abbrev SEC_LIFECYCLE : Nat := 0xA0008
abbrev SEC_SECVER : Nat := 0xA000C
abbrev SEC_SECVER_CTL : Nat := 0xA0010
abbrev SEC_LANE_CTL : Nat := 0xA0014
abbrev SEC_LANE_STATE : Nat := 0xA0018
abbrev SEC_WSEQ_LO : Nat := 0xA001C
abbrev SEC_WSEQ_HI : Nat := 0xA0020
abbrev SEC_TRNG_DATA : Nat := 0xA0024
abbrev SEC_KEYS : Nat := 0xA0028
abbrev SEC_PROV_CTL : Nat := 0xA002C
abbrev SEC_PROV_ARG_LO : Nat := 0xA0030
abbrev SEC_PROV_ARG_HI : Nat := 0xA0034
abbrev SEC_PROV_RESULT : Nat := 0xA0038
abbrev SEC_KEY_GEN : Nat := 0xA003C
abbrev SEC_SANITIZE : Nat := 0xA0040
abbrev SEC_AUTH_FAIL_CNT : Nat := 0xA0044
abbrev SEC_TAG_RECOVERED_CNT : Nat := 0xA0048
abbrev SEC_MISMATCH_CNT : Nat := 0xA004C
abbrev SEC_UNLOCK_FAIL_CNT : Nat := 0xA0050
abbrev SEC_LANEl_MISMATCH_CNT (l : Nat) : Nat := 0xA0100 + 4 * l
abbrev CPX_CFG : Nat := 0xB0000
abbrev CPX_STATUS : Nat := 0xB0004
abbrev CPX_OS_WDOG : Nat := 0xB0008
abbrev CPX_LEDGER_CTL : Nat := 0xB000C
abbrev CPX_Ln_STATE (n : Nat) : Nat := 0xB0100 + 16 * n
abbrev CPX_Ln_FAULT_CNT (n : Nat) : Nat := 0xB0104 + 16 * n
abbrev CPX_Ln_REFUSE_CNT (n : Nat) : Nat := 0xB0108 + 16 * n
abbrev CPX_Ln_MISMATCH_CNT (n : Nat) : Nat := 0xB010C + 16 * n
abbrev MEM_CFG : Nat := 0xC0000
abbrev MEM_STATUS : Nat := 0xC0004
abbrev MEM_INST_SEL : Nat := 0xC0008
abbrev MEM_INST_INFO : Nat := 0xC000C
abbrev MEM_INST_CE_CNT : Nat := 0xC0010
abbrev MEM_INST_UE_CNT : Nat := 0xC0014
abbrev MEM_LOG_SEL : Nat := 0xC0018
abbrev MEM_LOG_ADDR_LO : Nat := 0xC001C
abbrev MEM_LOG_ADDR_HI : Nat := 0xC0020
abbrev MEM_CE_CNT : Nat := 0xC0024
abbrev MEM_UE_CNT : Nat := 0xC0028
abbrev MEM_REMAP_CNT : Nat := 0xC002C
abbrev MEM_HBM_KEEP_BASE : Nat := 0xC0030
abbrev MEM_HBM_STAGE_BASE : Nat := 0xC0034
abbrev MEM_HBM_POOL_BASE : Nat := 0xC0038
abbrev MEM_HBM_SYS_BASE : Nat := 0xC003C
abbrev MEM_HBM_MAP_BASE : Nat := 0xC0040
abbrev MOV_STATUS : Nat := 0xD0000
abbrev MOV_DESC_CNT : Nat := 0xD0004
abbrev MOV_BAD_CNT : Nat := 0xD0008
abbrev MOV_MISALIGNED_CNT : Nat := 0xD000C
abbrev MOV_BUS_ERR_CNT : Nat := 0xD0010
abbrev MOV_PREEMPT_CNT : Nat := 0xD0014
abbrev MOV_CHn_CFG (n : Nat) : Nat := 0xD0100 + 4 * n
abbrev MOV_EVCNTe (e : Nat) : Nat := 0xD0200 + 4 * e
abbrev MOV_EVCMPe (e : Nat) : Nat := 0xD0240 + 4 * e
abbrev CST_CFG : Nat := 0xE0000
abbrev CST_STATUS : Nat := 0xE0004
abbrev CST_BOOT_STATUS : Nat := 0xE0008
abbrev CST_BOOT_CTL : Nat := 0xE000C
abbrev CST_UPD_ADDR_LO : Nat := 0xE0010
abbrev CST_UPD_ADDR_HI : Nat := 0xE0014
abbrev CST_UPD_CTL : Nat := 0xE0018
abbrev CST_UPD_RESULT : Nat := 0xE001C
abbrev CST_ACT_TIME_LO : Nat := 0xE0020
abbrev CST_ACT_TIME_HI : Nat := 0xE0024
abbrev CST_SLOTS : Nat := 0xE0028
abbrev CST_ROW_SEL : Nat := 0xE002C
abbrev CST_ROW_DATAw (w : Nat) : Nat := 0xE0030 + 4 * w
abbrev CST_PROG_CNT : Nat := 0xE0050
abbrev CST_ERASE_CNT : Nat := 0xE0054
abbrev CST_SUSPEND_CNT : Nat := 0xE0058
abbrev CST_REFUSE_CNT : Nat := 0xE005C
abbrev CLK_STATUS : Nat := 0x10000
abbrev CLK_ACLK : Nat := 0x10004
abbrev CLK_GATE_CTL : Nat := 0x10008
abbrev CLK_GATE_RESULT : Nat := 0x1000C
abbrev CLK_GATE_STATE_LO : Nat := 0x10010
abbrev CLK_GATE_STATE_HI : Nat := 0x10014
abbrev CLK_XTAL_QUAL : Nat := 0x10018
abbrev CLK_UNLOCK_CNT : Nat := 0x1001C
abbrev THM_CFG : Nat := 0x20000
abbrev THM_STATUS : Nat := 0x20004
abbrev THM_HOT : Nat := 0x20008
abbrev THM_REDUCTION : Nat := 0x2000C
abbrev THM_SENSOR_SEL : Nat := 0x20010
abbrev THM_SENSOR : Nat := 0x20014
abbrev THM_EXCLUDED : Nat := 0x20018
abbrev THM_THROTTLE_TIME : Nat := 0x2001C
abbrev THM_STEP_CNT : Nat := 0x20020
abbrev THM_BAND_CNT : Nat := 0x20024
abbrev THM_PFAIL_CNT : Nat := 0x20028
abbrev LNT_CFG : Nat := 0xF0000
abbrev LNT_STATUS : Nat := 0xF0004
abbrev LNT_NEWEST : Nat := 0xF0008
abbrev LNT_FROZEN_SEQ : Nat := 0xF000C
abbrev LNT_DROP_CNT : Nat := 0xF0010
abbrev LNT_RECORD_CNT : Nat := 0xF0014
abbrev LNT_WARN : Nat := 0xF0018
abbrev LNT_LASTb (b : Nat) : Nat := 0xF0100 + 4 * b
abbrev SYS_ID : Nat := 0x0
abbrev SYS_STATUS : Nat := 0x4
abbrev SYS_SEAL : Nat := 0x8
abbrev SYS_PROFILE : Nat := 0xC
abbrev SYS_STRAPS : Nat := 0x10
abbrev SYS_RESET_CTL : Nat := 0x14
abbrev SYS_RESET_CAUSE : Nat := 0x18
abbrev SYS_ACCESS_FAULT_CNT : Nat := 0x1C
abbrev SYS_DISCARD_CNT : Nat := 0x20
abbrev SYS_FAULT_ADDR : Nat := 0x24
abbrev SYS_RING_SEL : Nat := 0x40
abbrev SYS_RING_CFG : Nat := 0x44
abbrev SYS_RING_BASE_LO : Nat := 0x48
abbrev SYS_RING_BASE_HI : Nat := 0x4C
abbrev SYS_RING_PROD_LO : Nat := 0x50
abbrev SYS_RING_PROD_HI : Nat := 0x54
abbrev SYS_RING_CONS_LO : Nat := 0x58
abbrev SYS_RING_CONS_HI : Nat := 0x5C
abbrev SYS_RING_CPL_LO : Nat := 0x60
abbrev SYS_RING_CPL_HI : Nat := 0x64
abbrev SYS_RING_CCONS_LO : Nat := 0x68
abbrev SYS_RING_CCONS_HI : Nat := 0x6C
abbrev SYS_RING_TAKEN : Nat := 0x70
abbrev SYS_RING_CPL_CNT : Nat := 0x74
abbrev SYS_GPIO_IN : Nat := 0x100
abbrev SYS_GPIO_OUT : Nat := 0x104
abbrev SYS_GPIO_OE : Nat := 0x108
abbrev SYS_GPIO_EDGE : Nat := 0x10C
abbrev SYS_GPIO_EVENT : Nat := 0x110

/-! ### Reset values -/

/-- Registers whose reset value is not zero and whose value the register file holds. -/
def resetTable : List (Nat × Nat) := [
  (TCK_CFG, 0x00040021), (TCK_FRAME, 1), (TCK_PPS_CFG, 0x1000), (TCK_CT_A_BASE, 0x00400000), (TCK_CT_B_BASE, 0x00600000),
  (HIF_CFG, 4), (STM_CFG, 0x00800200), (STM_STAGING_CFG, 0x108), (STM_ADM_TEMP, 0x5F), (STM_REBUILD_ALLOW, 5000),
  (MAP_CFG, 0x00040040), (MAP_POOL_CFG, 0x80), (FLC_G_CFG, 0x00484000), (BND_CFG, 0x00200A40), (BND_FREE_LOW, 0x00100100),
  (BND_FREE_HIGH, 0x200)] ++ [
  (MBR_CFG, 1), (MBR_TIMEOUT, 8), (MBR_READ_DEADLINE, 2000), (FLT_CFG, 0x1BE42800), (FLT_HB, 0x0014000A), (FLT_ACT_GRACE, 30),
  (FLT_KEEP_BUF, 512), (FLT_REBUILD_RATE, 5000), (FLT_HS_RATE, 1000), (SEC_CFG, 0x301), (SEC_LANE_CTL, 0xFF),
  (CPX_CFG, 0x00104040), (MEM_CFG, 0x1000), (CST_CFG, 0x003C0000), (CST_UPD_RESULT, 0x80000000), (CLK_ACLK, 0x1818),
  (THM_CFG, 0x0014005F), (LNT_CFG, 0xD00), (SYS_ID, 0x096000B0), (SYS_RESET_CAUSE, 1)]

/-- The reset value of a register of the register file. MOV_CHn_CFG resets to 7 for each n. -/
def resetOf (off : Nat) : Word :=
  if MOV_CHn_CFG 0 ≤ off ∧ off < MOV_CHn_CFG 64 ∧ off % 4 = 0 then 7
  else
    match resetTable.find? (fun p => p.1 = off) with
    | some p => toWord p.2
    | none => 0

/-! ### What software can write -/

/-- The writable bits of a register or an array of registers: RW, Sealed, W1C and WO masks. -/
structure RegDef where
  off : Nat
  step : Nat := 4
  count : Nat := 1
  rw : Nat := 0
  seald : Nat := 0
  w1c : Nat := 0
  wo : Nat := 0
  deriving DecidableEq, Repr

/-- The registers that software can write. -/
def writable : List RegDef := [
  { off := SYS_SEAL, wo := 0xFFFFFFFF }, { off := SYS_PROFILE, seald := 1 }, { off := SYS_RESET_CTL, wo := 0xFFFF0003 },
  { off := SYS_RING_SEL, rw := 0x3F }, { off := SYS_RING_CFG, rw := 0x001F1F01 },
  { off := SYS_RING_BASE_LO, rw := 0xFFFFFFFF }, { off := SYS_RING_BASE_HI, rw := 0xFF },
  { off := SYS_RING_PROD_LO, rw := 0xFFFFFFFF }, { off := SYS_RING_PROD_HI, rw := 0xFF },
  { off := SYS_RING_CONS_LO, rw := 0xFFFFFFFF }, { off := SYS_RING_CONS_HI, rw := 0xFF },
  { off := SYS_RING_CPL_LO, rw := 0xFFFFFFFF }, { off := SYS_RING_CPL_HI, rw := 0xFF },
  { off := SYS_RING_CCONS_LO, rw := 0xFFFFFFFF }, { off := SYS_RING_CCONS_HI, rw := 0xFF },
  { off := SYS_GPIO_OUT, rw := 0xFFFF }, { off := SYS_GPIO_OE, rw := 0xFFFF }, { off := SYS_GPIO_EDGE, rw := 0xFFFFFFFF },
  { off := SYS_GPIO_EVENT, w1c := 0xFFFF }] ++ [
  { off := CLK_ACLK, rw := 0x1F }, { off := CLK_GATE_CTL, wo := 0x11F }, { off := THM_CFG, rw := 0x007F00FF },
  { off := THM_SENSOR_SEL, rw := 0xF },
  { off := TCK_CFG, rw := 0x000FFF20, seald := 0x13 }, { off := TCK_FRAME, rw := 0x0007FFFF },
  { off := TCK_TIME_SEC_HI, rw := 7 }, { off := TCK_TIME_SEC, wo := 0xFFFFFFFF }, { off := TCK_PPS_CFG, rw := 0xFF01 },
  { off := TCK_ALARMn_LO 0, count := 8, rw := 0xFFFFFFFF }, { off := TCK_ALARM_STATUS, w1c := 0xF },
  { off := HIF_CFG, rw := 6, seald := 1 }, { off := HIF_IDE_CFG, rw := 5, seald := 0x00FF0000 },
  { off := HIF_IDE_RID, seald := 0xFFFFFFFF }, { off := HIF_IDE_KEY_CTL, wo := 0x19 }, { off := HIF_IDE_KEYn 0, count := 8, wo := 0xFFFFFFFF },
  { off := HIF_IDE_IV_LO, count := 2, wo := 0xFFFFFFFF }] ++ [
  { off := STM_CFG, seald := 0x00FF0F00 }, { off := STM_STAGING_CFG, seald := 0x1F1F }, { off := STM_ADM_TEMP, rw := 0xFF },
  { off := STM_RECLAIM_ALLOW, rw := 0x1FFFF }, { off := STM_REBUILD_ALLOW, rw := 0x1FFFF },
  { off := MAP_CFG, seald := 0x001F00FF }, { off := MAP_POOL_CFG, seald := 0x3FF },
  { off := FLC_CFG 0, step := 0x1000, count := 36, seald := 0x701 }, { off := FLC_G_CFG, seald := 0x00FFFF00 },
  { off := BND_CFG, seald := 0x00FFFFF0 }, { off := BND_FREE_LOW, rw := 0xFFFFFFFF }, { off := BND_FREE_HIGH, rw := 0xFFFF },
  { off := MBR_CFG, rw := 3 }, { off := MBR_TIMEOUT, rw := 0xFF }, { off := MBR_READ_DEADLINE, rw := 0xFFFF }] ++ [
  { off := FLT_CFG, rw := 3, seald := 0xFFFFFF18 }, { off := FLT_HB, rw := 0x00FF00FF }, { off := FLT_ACT_GRACE, rw := 0xFF },
  { off := FLT_KEEP_BUF, seald := 0xFFF }, { off := FLT_MIN_SECVER, rw := 0x3F }, { off := FLT_REBUILD_RATE, rw := 0x1FFFF },
  { off := FLT_HS_RATE, seald := 0xFFFF }, { off := FLT_ADDR_A_w 0, count := 8, seald := 0xFFFFFFFF },
  { off := SEC_CFG, seald := 0xFF01 }, { off := SEC_SECVER_CTL, wo := 0x7F }, { off := SEC_LANE_CTL, rw := 0xFF },
  { off := SEC_PROV_CTL, wo := 0xF }, { off := SEC_PROV_ARG_LO, count := 2, wo := 0xFFFFFFFF },
  { off := CPX_CFG, rw := 1, seald := 0x00FFFFF0 }, { off := CPX_OS_WDOG, rw := 0xFFFF }, { off := CPX_LEDGER_CTL, wo := 0x10F }] ++ [
  { off := MEM_CFG, rw := 0xFFFF }, { off := MEM_INST_SEL, rw := 0x3FF }, { off := MEM_LOG_SEL, rw := 0xF },
  { off := MOV_CHn_CFG 0, count := 32, rw := 7 }, { off := MOV_EVCMPe 0, count := 16, rw := 0xFFFFFFFF },
  { off := CST_CFG, rw := 0xFFFF0000 }, { off := CST_BOOT_CTL, wo := 1 }, { off := CST_UPD_ADDR_LO, rw := 0xFFFFFFFF },
  { off := CST_UPD_ADDR_HI, rw := 0xFF }, { off := CST_UPD_CTL, wo := 0x3F }, { off := CST_ROW_SEL, rw := 0x17F },
  { off := LNT_CFG, seald := 0xFF01 }, { off := LNT_WARN, w1c := 0xFF }]

/-- Does a row of `writable` cover an offset? -/
def RegDef.covers (d : RegDef) (off : Nat) : Bool :=
  d.off ≤ off && (off - d.off) % d.step = 0 && (off - d.off) / d.step < d.count

/-- The row of `writable` for an offset. -/
def regDef (off : Nat) : Option RegDef := writable.find? (·.covers off)

/-- Does an offset lie inside a span of Table 15.1 (R431)? -/
def inSpan (off : Nat) : Bool := off < 0x124000

/-! ### The register file -/

/-- The value a register of the register file holds. -/
def getReg (s : State) (off : Nat) : Word := (mget s.regs off).getD (resetOf off)

/-- The same, as a number. -/
def rg (s : State) (off : Nat) : Nat := (getReg s off).toNat

/-- Field [hi:lo] of a register. -/
def fld (s : State) (off hi lo : Nat) : Nat := bits (rg s off) hi lo

/-- Set a register of the register file, which lists no register at its reset value. -/
def setReg (off : Nat) (v : Word) (s : State) : State :=
  { s with regs := if v = resetOf off then mdel s.regs off else mput s.regs off v }

/-- Add to a counter that saturates at 0xFFFF_FFFF. -/
def bumpBy (off n : Nat) (s : State) : State := setReg off (toWord (sat32 (rg s off + n))) s

/-- Add one to a counter that saturates at 0xFFFF_FFFF. -/
def bump (off : Nat) (s : State) : State := bumpBy off 1 s

/-- The keys of the register file rise and no register is listed at its reset value. -/
def Regs.wf : AMap Word → Bool
  | [] => true
  | (k, v) :: m => (v ≠ resetOf k : Bool) && (m.all (fun p => k < p.1)) && Regs.wf m

end Sys2Proof.Machine
end

