-- ==== Sys2Proof/Machine/Ops.lean ====
section
/-! DEFINITION. The operations that every block shares: addressed memory, observations, interrupt sources, codes and the
Lantern's acceptance of records (R413-R418), modes and Halt (R360-R362), completion queue entries (R70, R94), and ring
completion records (R453). -/

namespace Sys2Proof.Machine

/-! ### Addressed memory -/

/-- What an address that nothing has written reads as (log entry 5). -/
def memDefault : Byte := 0

/-- A memory with one byte written, in the canonical form. -/
def cellPut : List Host.Cell → Nat → Byte → List Host.Cell
  | [], a, v => if v = memDefault then [] else [(a, v)]
  | (k, w) :: m, a, v =>
    if a < k then if v = memDefault then (k, w) :: m else (a, v) :: (k, w) :: m
    else if a = k then if v = memDefault then m else (a, v) :: m
    else (k, w) :: cellPut m a v

/-- The byte of a memory at an address. -/
def cellGet : List Host.Cell → Nat → Byte
  | [], _ => memDefault
  | (k, w) :: m, a => if a = k then w else cellGet m a

/-- The canonical form: addresses strictly rising, no entry equal to what an unlisted address reads as. -/
def Memory.wf : List Host.Cell → Bool
  | [] => true
  | (k, w) :: m => (w ≠ memDefault : Bool) && m.all (fun p => k < p.1) && Memory.wf m

/-- The byte at an address. -/
def readByte (s : State) (a : Nat) : Byte := cellGet s.mem a

/-- Write one byte. -/
def writeByte (a : Nat) (v : Byte) (s : State) : State := { s with mem := cellPut s.mem a v }

/-- n bytes from an address. -/
def readBytes (s : State) (a n : Nat) : List Byte := (List.range n).map (fun i => readByte s (a + i))

/-- Write bytes from an address on. -/
def writeBytes : Nat → List Byte → State → State
  | _, [], s => s
  | a, b :: bs, s => writeBytes (a + 1) bs (writeByte a b s)

/-- One more entry in the settings log (R372): at three quarters of a log's 32,768 code words a new base record takes it in, and the other log
goes on (R374). -/
def settingsEntry (s : State) : State :=
  let c := s.cst
  { s with cst := if c.settingsSeq + 1 < 24576 then { c with settingsSeq := c.settingsSeq + 1 }
    else { c with settingsSeq := 0, settingsGen := c.settingsGen + 1, settingsLog := 5 - c.settingsLog } }

/-- The bases of the HBM partitions in MiB (R349, Table 11.9): keeper buffer, staging, pool, system, map table. -/
def hbmBases (s : State) : Nat × Nat × Nat × Nat × Nat :=
  let map := 0xCC00 - 0x100
  let sy := map - 0x100
  let pool := sy - fld s MAP_POOL_CFG 9 0 * 32
  let stage := pool - fld s STM_STAGING_CFG 4 0 * 1024
  (stage - fld s FLT_KEEP_BUF 11 0, stage, pool, sy, map)

/-- The first address above the HBM OS partition: fixed at the seal, else recomputed (R349). -/
def osTop (s : State) : Nat := (s.memc.fixedKeep.getD (hbmBases s).1) * 0x100000

/-- May the device OS, or a Mover channel 0-31, write [a, a + n) (Table 11.2)? -/
def osCanWrite (s : State) (a n : Nat) : Bool :=
  (a + n ≤ osTop s) || (0x2000000000 ≤ a && a + n ≤ 0x2000400000)

/-- May a Mover channel 0-31 read [a, a + n) (Table 11.2)? -/
def osCanRead (s : State) (a n : Nat) : Bool :=
  osCanWrite s a n || (0x1000000000 ≤ a && a + n ≤ 0x1002000000) || (0x2000400000 ≤ a && a + n ≤ 0x2000800000)

/-! ### Observations, interrupts, free values -/

/-- Emit an observation. -/
def emit (o : Out) (s : State) : State := { s with out := s.out ++ [o] }

/-- Emit a TLP towards the host: dropped while the IDE stream is Insecure (R96). -/
def hostEmit (o : Out) (s : State) : State := if s.hif.idePhase = 2 then s else emit o s

/-- Raise an interrupt source; it stays raised until the device OS claims it (R330). -/
def irqRaise (n : Nat) (s : State) : State := { s with sys := { s.sys with irq := addTo s.sys.irq n } }

/-- Count one free value as drawn. -/
def drawFree (s : State) : State := { s with freeCtr := s.freeCtr + 1 }

/-! ### The Lantern's acceptance of records -/

/-- Mode codes (Table 12.1). -/
def Mode.code : Mode → Nat
  | .dark => 0
  | .beacon => 1
  | .loader => 2
  | .commissioning => 3
  | .service => 4
  | .degraded => 5
  | .quiesce => 6
  | .halt => 7

/-- The sequence number after n: 32 bits, 0 never used (R413). -/
def nextSeq (n : Nat) : Nat := if (n + 1) % 2 ^ 32 = 0 then 1 else (n + 1) % 2 ^ 32

/-- A record of an event raised now (Table 14.1). -/
def newRec (s : State) (code : Nat) (detail : List Byte) : LntRec :=
  { time := s.tck.fleet, tick := s.tck.tick, status := code, seq := 0, mode := s.cst.mode.code, detail := padTo 40 detail }

/-- Write an accepted record into its slot (R413, R414). -/
def lntStore (r : LntRec) (s : State) : State :=
  bump LNT_RECORD_CNT { s with lnt := { s.lnt with recs := mput s.lnt.recs (r.seq % 16384) r, newest := r.seq } }

/-- Accept a record: assign SEQ and write it, or queue it while MEM accepts no MRAM write (R414, R416). -/
def lntTake (r : LntRec) (s : State) : State :=
  let r := { r with seq := s.lnt.seq }
  let s := { s with lnt := { s.lnt with seq := nextSeq s.lnt.seq } }
  if s.thm.mramCut then { s with lnt := { s.lnt with queue := s.lnt.queue ++ [r] } } else lntStore r s

/-- Count a dropped record (R416, R418); `full`: it found the queue full. -/
def lntDrop (full : Bool) (s : State) : State :=
  bump LNT_DROP_CNT { s with lnt := { s.lnt with dropped := s.lnt.dropped + b2n full } }

/-- Offer a record to the Lantern: before step 2 of a start it waits unaccepted (R417), frozen or with a full queue it is
dropped (R416, R418). -/
def lntOffer (r : LntRec) (s : State) : State :=
  if !s.lnt.accepting then { s with lnt := { s.lnt with waiting := s.lnt.waiting ++ [r] } }
  else if s.lnt.frozen then lntDrop false s
  else if s.lnt.queue.length ≥ 64 then lntDrop true s
  else lntTake r s

/-- The status side of a code (R416): interrupt source of the block, LNT_LASTb. -/
def noteCode (code : Nat) (s : State) : State :=
  irqRaise (code / 256 + 1) (setReg (LNT_LASTb (code / 256)) (toWord code) s)

/-- Raise a code and write no record. -/
def raiseQuiet (code : Nat) (s : State) : State := noteCode code s

/-- Raise a code: its record goes to the Lantern unless its table says it is only counted. -/
def raise (code : Nat) (detail : List Byte) (s : State) : State :=
  let s := noteCode code s
  if notLogged.contains code then s else lntOffer (newRec s code detail) s

/-- Freeze the Lantern: LNT_FROZEN gives the SEQ of the causing record, and nothing follows it (R418). -/
def lntFreeze (cause : Nat) (s : State) : State :=
  if s.lnt.frozen then s
  else
    let s := noteCode Ev.LNT_FROZEN s
    let seq := s.lnt.seq
    let s := lntTake (newRec s Ev.LNT_FROZEN (le 4 cause)) s
    { s with lnt := { s.lnt with frozen := true, frozenSeq := seq } }

/-- Raise a code whose record freezes the Lantern (R418). -/
def raiseFreeze (code : Nat) (detail : List Byte) (s : State) : State :=
  if s.lnt.frozen then raise code detail s
  else
    let cause := s.lnt.seq
    lntFreeze cause (raise code detail s)

/-- Open the Lantern at a start: find the newest record, write LNT_START naming the reset kind, the mode entered,
BOOT_COUNT and the Beacon cause, and accept the records that waited (R417, R419). LNT_START is left out while frozen. -/
def lntStart (mode : Mode) (s : State) : State :=
  if s.lnt.started then s
  else
    let s := { s with lnt := { s.lnt with started := true, accepting := true } }
    let s := if s.lnt.frozen then s else
      raise Ev.LNT_START ([toByte s.sys.lastReset, toByte mode.code] ++ le 8 s.cst.bootRead ++ [toByte s.cst.cause]) s
    let ws := s.lnt.waiting
    forAll ws lntOffer { s with lnt := { s.lnt with waiting := [] } }

/-! ### Modes -/

/-- Change the mode: CST_MODE_CHANGED carries the old and the new mode (R360). -/
def enterMode (m : Mode) (s : State) : State :=
  if s.cst.mode = m then s
  else
    let old := s.cst.mode.code
    raise Ev.CST_MODE_CHANGED [toByte old, toByte m.code] { s with cst := { s.cst with mode := m } }

/-- Enter Halt (R361, R362): CSTS.CFS = 1, SEC clears the key store (R301), and the Lantern freezes after the record of the entry (R418). In
Dark, LNT_START comes before the records of the entry (R417). -/
def enterHalt (s : State) : State :=
  if s.cst.mode = .halt then s
  else
    let s := lntStart .halt s
    let old := s.cst.mode.code
    raiseFreeze Ev.CST_MODE_CHANGED [toByte old, 7]
      { s with cst := { s.cst with mode := .halt }, hif := { s.hif with cfs := true }, sec := { s.sec with keyStore := false } }

/-- Enter Halt for a cause that has a code of its own; in Dark, LNT_START precedes it (R417). -/
def haltWith (code : Nat) (detail : List Byte) (s : State) : State :=
  enterHalt (raise code detail (lntStart .halt s))

/-- Does the unit carry out commands of ledgers and the Watch: neither Dark, Beacon nor Halt (R454)? -/
def Mode.runs : Mode → Bool
  | .dark | .beacon | .halt => false
  | _ => true

/-- Does the mode carry host I/O (Table 12.1)? -/
def Mode.io : Mode → Bool
  | .service | .degraded => true
  | _ => false

/-! ### NVMe completions -/

/-- Is the NM-720 profile in force (R444)? -/
def legacy (s : State) : Bool := s.sys.legacy

/-- Table 3.10: the NVMe status type, code and DW0 of an NM status. -/
def nvmeOf (leg : Bool) (nm : Nat) : Nat × Nat × Nat :=
  if nm = 0 then (0, 0, 0)
  else if !leg then (7, nm / 256, nm)
  else if nm = Ev.SEC_DATA_NOT_AUTHENTIC then (2, 0x81, 0)
  else if nm = Ev.STM_STREAM_NOT_OPEN ∨ nm = Ev.STM_STREAM_NOT_BOUND ∨ nm = Ev.STM_STREAM_ID_INVALID then (0, 2, 0)
  else if nm = Ev.HIF_MGMT_DISABLED then (0, 1, 0)
  else if nm = Ev.SYS_MALFORMED then (0, 2, 0)
  else (0, 6, 0)

/-- SMART counters (Table 14.3, Table 14.4), by number. -/
def smartAdd (k n : Nat) (s : State) : State :=
  { s with lnt := { s.lnt with smart := mput s.lnt.smart k (mgetD s.lnt.smart k 0 + n) } }

/-- Signal the interrupt of an MSI-X vector (Table 3.1): the message of an unmasked table entry, else its pending bit. -/
def interrupt (v : Nat) (s : State) : State :=
  match mget s.hif.msix v with
  | some e => hostEmit (.msix e.1 e.2) s
  | none => { s with hif := { s.hif with pba := addTo s.hif.pba v } }

/-- A CQE written to its queue, with the interrupt of the queue's vector: one freed entry is used, HIF_CMD_CNT counts (R99), an error
creates an Error Information entry (log entry 14). -/
def writeCqe (cq : Nat) (c : Cqe) (s : State) : State :=
  let c := { c with writes := false }
  let err := c.sct ≠ 0 ∨ c.sc ≠ 0
  let s := { s with hif := { s.hif with
    cqs := mupd s.hif.cqs cq (fun q => { q with free := q.free - 1, tail := (q.tail + 1) % q.depth })
    cmdCnt := Nat.min (2 ^ 64 - 1) (s.hif.cmdCnt + 1)
    errors := if err then (c :: s.hif.errors).take 64 else s.hif.errors } }
  interrupt ((mget s.hif.cqs cq).elim 0 (·.vector)) (hostEmit (.cqe cq c) (if err then smartAdd 13 1 s else s))

/-- May CQEs issue now: neither in a held tick (R46) nor in Halt (R83)? -/
def cqesIssue (s : State) : Bool := !s.tck.holding && s.cst.mode ≠ .halt

/-- Post a CQE: into a freed entry of its CQ, or held back behind earlier ones (R70). -/
def postCqe (cq : Nat) (c : Cqe) (s : State) : State :=
  match mget s.hif.cqs cq with
  | none => s
  | some q =>
    if cqesIssue s && q.held.isEmpty && q.free > 0 then writeCqe cq c s
    else { s with hif := { s.hif with cqs := mupd s.hif.cqs cq (fun q => { q with held := q.held ++ [c] }) } }

/-- Post as many held CQEs of a CQ as it has freed entries, in order. -/
def drainCq (cq : Nat) (s : State) : State :=
  match mget s.hif.cqs cq with
  | none => s
  | some q =>
    if cqesIssue s then
      let n := Nat.min q.free q.held.length
      let s := forAll (q.held.take n) (writeCqe cq) s
      { s with hif := { s.hif with cqs := mupd s.hif.cqs cq (fun q => { q with held := q.held.drop n }) } }
    else s

/-- Post what can be posted on every CQ. -/
def drainCqs (s : State) : State := forAll (s.hif.cqs.map (·.1)) drainCq s

/-- Complete an admin command with an NVMe status. -/
def adminDone (cid sct sc dw0 : Nat) (s : State) : State :=
  postCqe 0 { sq := 0, cid := cid, sct := sct, sc := sc, dw0 := dw0 } s

/-- Complete an admin command successfully. -/
def adminOk (cid : Nat) (s : State) : State := adminDone cid 0 0 0 s

/-- Complete an admin command with a generic NVMe error. -/
def adminErr (cid sct sc : Nat) (s : State) : State := adminDone cid sct sc 0 s

/-- Complete an admin command with an NM status (R94). -/
def adminNm (cid nm : Nat) (s : State) : State :=
  let v := nvmeOf (legacy s) nm
  adminDone cid v.1 v.2.1 v.2.2 s

/-- Does HIF take admin commands: CC.EN = 1, no reset or Halt, a link that is not Insecure (R96), and a mode that has a controller
(Tables 12.1, 12.14)? -/
def adminOpen (s : State) : Bool :=
  s.hif.ccEn && !s.hif.resetting && s.hif.idePhase ≠ 2 && s.hif.shn = 0 && s.cst.mode ≠ .halt && !(s.cst.mode = .quiesce && s.cst.actRunning)
    && (s.hif.rdy || s.cst.mode = .beacon || s.cst.mode = .commissioning)

/-- In Beacon and Commissioning only the admin commands of R383 are accepted. -/
def adminFull (s : State) : Bool := s.cst.mode ≠ .beacon && s.cst.mode ≠ .commissioning

/-- The entry at an SQ's head is fetched; where HIF has seen no tail beyond it, its doorbell comes with it (log entry 73). -/
def Sq.take (q : Sq) : Sq :=
  let n := (q.head + 1) % Nat.max 1 q.depth
  { q with head := n, tail := if q.head = q.tail then n else q.tail }

/-- Run an admin command's effect where HIF takes admin commands; `always`: one of those R383 accepts in Beacon and
Commissioning, where every other opcode completes with Invalid Command Opcode. -/
def adminCmd (always : Bool) (cid : Nat) (f : State → State) (s : State) : State :=
  if !adminOpen s then s
  else
    let s := { s with hif := { s.hif with sqs := mupd s.hif.sqs 0 Sq.take } }
    if !always && !adminFull s then adminErr cid 0 1 s else f s

/-- Report an asynchronous event (R93, Table 3.9): type 2 events and warnings at once, vendor events unless masked; it
waits for a request where none is outstanding. Feature 0x0B enables each critical warning (bits 2 to 0: reliability, temperature, spare),
the namespace event (bit 8) and the activation event (bit 9) on its own. -/
def asyncEvent (ty info page : Nat) (s : State) : State :=
  let on := mgetD s.hif.features 0x0B 0
  let enabled := if ty = 1 then bitAt on (2 - info) else if ty = 2 then bitAt on (8 + info) else true
  if !s.hif.ccEn || !enabled || s.hif.masked.contains (ty, page) then s
  else
    match s.hif.aers with
    | [] => if s.hif.events.contains (ty * 256 + info, page) then s else
        { s with hif := { s.hif with events := s.hif.events ++ [(ty * 256 + info, page)] } }
    | cid :: rest =>
      let s := { s with hif := { s.hif with aers := rest, masked := s.hif.masked ++ [(ty, page)] } }
      adminDone cid 0 0 (ty + info * 256 + page * 65536) (hostEmit (.aen cid ty info page) s)

/-! ### Ring completion records -/

/-- The opcode-free key of a taken descriptor. -/
def takenBy (src : Src) (tag : Nat) (d : Desc) : Bool := d.src = src && d.tag = tag

/-- Does a descriptor hold an opcode and fields: (offset in the descriptor, bytes, value)? -/
def Desc.holds (d : Desc) (op : Nat) (fs : List (Nat × Nat × Nat)) : Bool :=
  d.opcode = op && fs.all (fun f => fieldAt d.body (f.1 - 8) f.2.1 = f.2.2)

/-- May the operation of a descriptor begin (R91, R41)? A block carries out the descriptors it has taken in the order in which it took
them, each with the fields that it holds. A device OS ring's descriptor that no ring in addressed memory gave counts as taken now. -/
def mayBegin (s : State) (src : Src) (tag op : Nat) (fs : List (Nat × Nat × Nat)) : Bool :=
  (op / 256 = 0x10 || s.cst.mode.runs) &&
  match s.sys.taken.find? (takenBy src tag) with
  | none => match src with
    | .admin _ => false
    | _ => true
  | some _ => match s.sys.taken.find? (fun d => d.opcode / 256 = op / 256 && !d.begun) with
    | some d => takenBy src tag d && d.holds op fs
    | none => false

/-- Carry out the operation of a descriptor where it may begin. -/
def descOp (src : Src) (tag op : Nat) (fs : List (Nat × Nat × Nat)) (f : State → State) (s : State) : State :=
  if mayBegin s src tag op fs then
    f { s with sys := { s.sys with taken := s.sys.taken.map (fun d => if takenBy src tag d then { d with begun := true } else d) } }
  else s

/-- Form the completion record of a descriptor (R453): a device OS ring writes it at the next tick edge that is not held,
the admin ring into the buffer at that moment (R91) unless a controller reset has dropped the command (R81), Beldy gets it in the answer
to RING. An unsuccessful status is raised (R455). -/
def complete (src : Src) (tag status : Nat) (body : List Byte) (result : List Byte) (s : State) : State :=
  let r : CplRec := { tag := tag, status := status, body := padTo 24 body, result := result }
  let held := s.sys.taken.any (takenBy src tag)
  let s := { s with sys := { s.sys with taken := s.sys.taken.filter (fun d => !takenBy src tag d) } }
  let s := if status = 0 then s else raise status [] s
  match src with
  | .ring ix => { s with sys := { s.sys with
      rings := mupd s.sys.rings ix (fun g => { g with formed := g.formed ++ [r], open_ := g.open_ - 1 }) } }
  | .admin cid => if held then { s with sys := { s.sys with hifFormed := s.sys.hifFormed ++ [(cid, r)] } } else s
  | .beldy => emit (.beacon 0 0 status (le 4 tag ++ le 2 status ++ [0, 0] ++ r.body)) s

/-- Complete with success and no body. -/
def completeOk (src : Src) (tag : Nat) (s : State) : State := complete src tag 0 [] [] s

/-- Complete with an unsuccessful status. -/
def completeErr (src : Src) (tag status : Nat) (s : State) : State := complete src tag status [] [] s

end Sys2Proof.Machine
end

