-- ==== Sys2Proof/Machine/Lantern.lean ====
section
/-! DEFINITION. LNT: reading and controlling the Lantern, early warnings, SMART counters and temperature history
(14_lantern_and_health.md). -/

namespace Sys2Proof.Machine

/-! ### Records as bytes -/

/-- One step of CRC-8 with polynomial 0x07 over the eight bits of an accumulator. -/
def crc8Byte : Nat → Nat → Nat
  | 0, a => a
  | n + 1, a => crc8Byte n (if bitAt a 7 then (a * 2 % 256) ^^^ 7 else a * 2 % 256)

/-- CRC-8, polynomial 0x07, initial value 0 (Table 14.1). -/
def crc8 (bs : List Byte) : Nat := bs.foldl (fun a b => crc8Byte 8 (a ^^^ b.toNat)) 0

/-- The 64 bytes of a record (Table 14.1). -/
def LntRec.bytes (r : LntRec) : List Byte :=
  let head := le 8 r.time ++ le 8 r.tick ++ le 2 r.status ++ le 4 r.seq ++ [toByte (r.mode % 16)]
  let detail := padTo 40 r.detail
  head ++ [toByte (crc8 (head ++ detail))] ++ detail

/-- The 64 bytes of a slot: zeros where it is empty. -/
def lntSlot (s : State) (i : Nat) : List Byte :=
  match mget s.lnt.recs i with
  | some r => r.bytes
  | none => List.replicate 64 0

/-- Bytes of the Lantern region as stored, slot 0 first (R420), with the structure's own length as a bound. -/
def lntRegion (s : State) (off len : Nat) : List Byte :=
  ((List.range (len / 64 + 2)).flatMap (fun i => if off / 64 + i < 16384 then lntSlot s (off / 64 + i) else [])).drop (off % 64)
    |>.take len

/-- The record with a sequence number, or 64 zero bytes where it is void, empty or overwritten (R427). -/
def lntRecord (s : State) (seq : Nat) : List Byte :=
  match mget s.lnt.recs (seq % 16384) with
  | some r => if r.seq = seq then r.bytes else List.replicate 64 0
  | none => List.replicate 64 0

/-! ### LANTERN_CONTROL -/

/-- LANTERN_CONTROL QUERY (Table 14.7). -/
def execLanternQuery (src : Src) (tag : Nat) (s : State) : Host.Outcome State Fault Refusal :=
  .next (descOp src tag 0x1001 [] (fun s =>
  complete src tag 0 (le 4 s.lnt.newest ++ le 4 s.lnt.frozenSeq ++ le 4 (rg s LNT_DROP_CNT)) [] s) s)

/-- LANTERN_CONTROL FREEZE (R418): the LNT_FREEZE_REQUEST record is the cause. -/
def execFreeze (src : Src) (tag : Nat) (s : State) : Host.Outcome State Fault Refusal :=
  .next (descOp src tag 0x1002 [] (fun s =>
  if s.lnt.frozen then completeErr src tag Ev.LNT_STATE_CONFLICT s
  else completeOk src tag (raiseFreeze Ev.LNT_FREEZE_REQUEST [] s)) s)

/-- Thaw the Lantern (R419). -/
def lntThaw (s : State) : State :=
  raise Ev.LNT_THAWED (le 4 (rg s LNT_DROP_CNT)) { s with lnt := { s.lnt with frozen := false, frozenSeq := 0 } }

/-- LANTERN_CONTROL THAW (R419, R427). -/
def execThaw (src : Src) (tag : Nat) (s : State) : Host.Outcome State Fault Refusal :=
  .next (descOp src tag 0x1003 [] (fun s =>
  if !s.lnt.frozen || s.cst.mode = .halt then completeErr src tag Ev.LNT_STATE_CONFLICT s
  else completeOk src tag (lntThaw s)) s)

/-- LANTERN_CONTROL MARK: refused while frozen (R427). -/
def execLanternMark (src : Src) (tag : Nat) (detail : List Byte) (s : State) : Host.Outcome State Fault Refusal :=
  .next (descOp src tag 0x1004 [(24, 40, leNat (padTo 40 detail))] (fun s =>
  if s.lnt.frozen then completeErr src tag Ev.LNT_STATE_CONFLICT s
  else completeOk src tag (raise Ev.LNT_MARK detail s)) s)

/-- LANTERN_CONTROL READ: COUNT records from START_SEQ to DEST, or into the admin buffer (R427). -/
def execLanternControlRead (src : Src) (tag startSeq count dest : Nat) (s : State) : Host.Outcome State Fault Refusal :=
  .next (descOp src tag 0x1005 [(8, 4, startSeq), (12, 2, count), (16, 8, dest)] (fun s =>
  let recs := (List.range count).flatMap (fun i => lntRecord s ((startSeq + i) % 2 ^ 32))
  match src with
    | .admin _ =>
      if count = 0 ∨ 62 < count ∨ dest ≠ 0 then completeErr src tag Ev.LNT_PARAM_RANGE s
      else complete src tag 0 (le 2 count) recs s
    | _ =>
      if count = 0 ∨ 16384 < count ∨ dest % 64 ≠ 0 ∨ !osCanWrite s dest (64 * count) then completeErr src tag Ev.LNT_PARAM_RANGE s
      else complete src tag 0 (le 2 count) [] (writeBytes dest recs s)) s)

/-- LANTERN_CONTROL CLEAR: every slot empty, SEQ runs on, then LNT_CLEARED (R427). -/
def execClear (src : Src) (tag : Nat) (s : State) : Host.Outcome State Fault Refusal :=
  .next (descOp src tag 0x1006 [] (fun s =>
  if s.lnt.frozen || s.cst.mode = .halt then completeErr src tag Ev.LNT_STATE_CONFLICT s
  else completeOk src tag (raise Ev.LNT_CLEARED [] { s with lnt := { s.lnt with recs := [] } })) s)

/-- LNT_DROPPED (R416): the queue has room again after drops. -/
def execLntDropped (s : State) : Host.Outcome State Fault Refusal :=
  .next (if s.lnt.dropped = 0 ∨ 64 ≤ s.lnt.queue.length ∨ s.lnt.frozen then s
  else
    let n := s.lnt.dropped
    raise Ev.LNT_DROPPED (le 4 n) { s with lnt := { s.lnt with dropped := 0 } })

/-- Write the records that waited while MEM accepted no MRAM write (R414, R408). -/
def lntFlush (s : State) : State := forAll s.lnt.queue lntStore { s with lnt := { s.lnt with queue := [] } }

/-! ### Early warnings and history -/

/-- Raise an early warning once per start and set its bit (R426). -/
def warn (bit : Nat) (detail : List Byte) (s : State) : State :=
  if s.lnt.raised.contains bit then s
  else
    let s := setReg LNT_WARN (toWord (rg s LNT_WARN ||| 2 ^ bit)) { s with lnt := { s.lnt with raised := s.lnt.raised ++ [bit] } }
    raise (0x1010 + bit) detail s

/-- EARLY_WARNING_HOURLY (Table 14.5 bits 5 and 6). -/
def execEarlyWarningHourly (s : State) : Host.Outcome State Fault Refusal :=
  let slow := (List.range 9).filter (fun m => match s.mbr.ports[m]? with
    | some p => 100 ≤ p.deadlines - mgetD s.lnt.hourDeadline m 0
    | none => false)
  let recov := fun c => rg s (FLC_RETRY_OK_CNT c) + rg s (FLC_SOFT_CNT c)
  let worn := (List.range 36).filter (fun c =>
    (rg s (FLC_READ_CNT c) - mgetD s.lnt.hourRead c 0) < 100 * (recov c - mgetD s.lnt.hourRetry c 0))
  let s1 := match slow with
    | m :: _ => warn 5 [toByte m] s
    | [] => s
  let s2 := match worn with
    | c :: _ => warn 6 [toByte c] s1
    | [] => s1
  .next { s2 with lnt := { s2.lnt with
    hourDeadline := (List.range 9).map (fun m => (m, match s.mbr.ports[m]? with | some p => p.deadlines | none => 0))
    hourRetry := (List.range 36).map (fun c => (c, recov c))
    hourRead := (List.range 36).map (fun c => (c, rg s (FLC_READ_CNT c))) } }

/-- EARLY_WARNING_MINUTE (Table 14.5 bit 7): bands still marked, times the mean time per band so far, exceed 24 h. -/
def execEarlyWarningMinute (s : State) : Host.Outcome State Fault Refusal :=
  .next (match s.mbr.rebuild with
    | some r =>
      if r.done ≠ 0 ∧ r.done * 86400000000000 < r.marked.length * (s.tck.now - r.startNow) then warn 7 [toByte r.position] s
      else s
    | none => s)

/-- The bin of a temperature (R424). -/
def histBin (t : Int) : Nat := if t < -20 then 0 else Nat.min 31 (((t + 20) / 5).toNat + 1)

/-- T_now: THM_HOT rounded down to a whole degree (R393). -/
def tNow (s : State) : Int := s.thm.hot / 8

/-- The hottest target of a channel with its temperature (FLC_DIE_TEMP_MAX). -/
def hottestDie (s : State) (chs : List Nat) : Option (Nat × Int) :=
  (s.flc.dieTemps.filter (fun p => chs.contains (p.1 / 32))).foldl (fun a p => match a with
    | none => some p
    | some q => if q.2 < p.2 then some p else some q) none

/-- TEMP_HISTORY_SECOND (R424), with the times of Table 14.3 that are counted by the second. -/
def execTempHistorySecond (s : State) : Host.Outcome State Fault Refusal :=
  .next (if s.cst.mode = .dark then s
  else
    let b := histBin (tNow s)
    let s := { s with lnt := { s.lnt with ctrlHist := mput s.lnt.ctrlHist b (mgetD s.lnt.ctrlHist b 0 + 1) } }
    let s := match hottestDie s (List.range 36) with
      | some (_, t) => { s with lnt := { s.lnt with
          flashHist := mput s.lnt.flashHist (histBin t) (mgetD s.lnt.flashHist (histBin t) 0 + 1) } }
      | none => s
    let s := smartAdd 7 1 s
    let s := doIf (95 ≤ tNow s) (smartAdd 10 1) s
    let s := doIf (110 ≤ tNow s) (smartAdd 11 1) s
    let s := doIf (0 < s.thm.step) (smartAdd 15 1) s
    let s := doIf (400 ≤ fld s THM_CFG 22 16 * s.thm.step) (smartAdd 17 1) s
    let s := doIf (!s.hif.slots.isEmpty) (smartAdd 31 1) s
    if mgetD s.lnt.smart 30 0 = 59 then
      let s := doIf (mgetD s.lnt.smart 31 0 ≠ 0) (smartAdd 5 1) s
      { s with lnt := { s.lnt with smart := mput (mput s.lnt.smart 30 0) 31 0 } }
    else smartAdd 30 1 s)

end Sys2Proof.Machine
end

