-- ==== Sys2Proof/Machine/Parity.lean ====
section
/-! DEFINITION. Parity arithmetic: GF(2^8) (R235), vectors of bytes times a constant, and the parity of a fleet
group's stripes (R282). -/

namespace Sys2Proof.Machine

/-- Multiplication by g = 0x02 in GF(2^8) with field polynomial 0x11D (R235): shift left by one bit, and if bit 8 is then
set, XOR with 0x11D. -/
def gfDouble (a : Byte) : Byte := if a.getLsbD 7 then (a <<< 1) ^^^ 0x1D else a <<< 1

/-- Multiplication in GF(2^8), over the low n bits of b. -/
def gfMulN : Nat → Byte → Byte → Byte
  | 0, _, _ => 0
  | n + 1, a, b => (if b.getLsbD 0 then a else 0) ^^^ gfMulN n (gfDouble a) (b >>> 1)

/-- Multiplication in GF(2^8). -/
def gfMul (a b : Byte) : Byte := gfMulN 8 a b

/-- g^n. -/
def gfPow : Nat → Byte
  | 0 => 1
  | n + 1 => gfDouble (gfPow n)

/-- The inverse: a^254, as the product of the squares of a. -/
def gfInv (a : Byte) : Byte :=
  let a2 := gfMul a a
  let a4 := gfMul a2 a2
  let a8 := gfMul a4 a4
  let a16 := gfMul a8 a8
  let a32 := gfMul a16 a16
  let a64 := gfMul a32 a32
  let a128 := gfMul a64 a64
  gfMul a2 (gfMul a4 (gfMul a8 (gfMul a16 (gfMul a32 (gfMul a64 a128)))))

/-! ### The outer parity of a fleet group -/

/-- The coefficient of data index i in parity element j: a(j,i) = y_i / (j xor y_i), y_i = m + i (R282). -/
def fleetCoef (m j i : Nat) : Byte :=
  let y := BitVec.ofNat 8 (m + i)
  gfMul y (gfInv (BitVec.ofNat 8 j ^^^ y))

/-- The row of an element over the k data images: data index i for element i < k, parity element j for k + j. -/
def fleetRow (k m e : Nat) : List Byte :=
  if e < k then (List.range k).map (fun i => if i = e then 1 else 0)
  else (List.range k).map (fleetCoef m (e - k))

/-- Solve n linear equations in n unknowns over GF(2^8); each row ends with its right side. -/
def gfSolve : Nat → List (List Byte) → Option (List Byte)
  | 0, _ => some []
  | n + 1, rows =>
    match rows.find? (fun r => r.headD 0 ≠ 0) with
    | none => none
    | some p =>
      let inv := gfInv (p.headD 0)
      let p' := p.tail.map (gfMul inv)
      let rest := (rows.erase p).map (fun r => List.zipWith (fun a b => a ^^^ gfMul (r.headD 0) b) r.tail p')
      (gfSolve n rest).map (fun xs =>
        (List.zipWith gfMul p' xs).foldl (· ^^^ ·) (p'.getLastD 0) :: xs)

/-- The weights with which k elements add up to element e: any k of the n elements determine the rest (R282). -/
def fleetWeights (k m e : Nat) (have_ : List Nat) : Option (List Byte) :=
  let cols := have_.map (fleetRow k m)
  let goal := fleetRow k m e
  gfSolve k ((List.range k).map (fun i => cols.map (fun c => c.getD i 0) ++ [goal.getD i 0]))

/-- Every byte of a vector times 0x02; `ones` has the value 1 in each byte. -/
def vecDouble {w : Nat} (ones b : BitVec w) : BitVec w :=
  let carry := (b >>> 7) &&& ones
  ((b <<< 1) &&& (ones * 0xFE)) ^^^ (carry ^^^ (carry <<< 2) ^^^ (carry <<< 3) ^^^ (carry <<< 4))

/-- Every byte of a vector times c, over the low n bits of c. -/
def vecMulN {w : Nat} (ones : BitVec w) : Nat → Byte → BitVec w → BitVec w
  | 0, _, _ => 0
  | n + 1, c, b => (if c.getLsbD 0 then b else 0) ^^^ vecMulN ones n (c >>> 1) (vecDouble ones b)

/-- Every byte of a vector times c (R235). -/
def vecMul {w : Nat} (ones : BitVec w) (c : Byte) (b : BitVec w) : BitVec w := vecMulN ones 8 c b

/-- A block whose every byte is 1. -/
def blockOnes : Block := (BitVec.replicate 4096 (1 : Byte)).cast (by decide)

/-- Every byte of a block times c (R282). -/
def blockMul (c : Byte) (b : Block) : Block := vecMul blockOnes c b

/-- The weighted sum of blocks. -/
def blockSum (ws : List Byte) (bs : List Block) : Block := (List.zipWith blockMul ws bs).foldl (· ^^^ ·) 0

end Sys2Proof.Machine
end

