-- ==== Sys2Proof/Machine/Stores.lean ====
section
/-! DEFINITION. Stores to setup registers: reserved encodings (R12), access types and the counting of ignored writes (R434),
the seal (R436). What a register's own chapter does with a new value is in the files of the blocks. -/

namespace Sys2Proof.Machine

/-- Ring indexes that can be registered (Table 15.11). -/
def ringIndexOk (ix : Nat) : Bool := ix = 3 || ix = 7 || ix = 8 || ix = 16 || (32 ≤ ix && ix ≤ 63)

/-- The highest granular table in use, plus one (R364). -/
def poolTop (s : State) : Nat := ((s.map.pool.map (·.1)).foldl Nat.max 0) + b2n (!s.map.pool.isEmpty)

/-- Does a register value hold no reserved encoding (R12 and the field tables)? `n` is the value the register would take. -/
def encOk (s : State) (off n : Nat) : Bool :=
  if off = SYS_RING_SEL then ringIndexOk (bits n 5 0)
  else if off = CLK_ACLK then 6 ≤ bits n 4 0 && bits n 4 0 ≤ 24
  else if off = THM_CFG then 1 ≤ bits n 22 16 && bits n 22 16 ≤ 100 && 80 ≤ bits n 7 0 && bits n 7 0 ≤ 105
  else if off = TCK_CFG then bits n 19 8 ≠ 0
  else if off = TCK_FRAME then bits n 17 0 ≠ 0
  else if off = TCK_PPS_CFG then bits n 15 8 ≠ 0
  else if off = STM_CFG then 16 ≤ bits n 23 16 && 1 ≤ bits n 11 8 && bits n 11 8 ≤ 8
  else if off = STM_STAGING_CFG then
    1 ≤ bits n 12 8 && bits n 12 8 ≤ 8 && 8 ≤ bits n 4 0 && bits n 4 0 ≤ 24 && bits n 12 8 < bits n 4 0
  else if off = STM_ADM_TEMP then 45 ≤ bits n 7 0 && bits n 7 0 ≤ 105
  else if off = STM_RECLAIM_ALLOW ∨ off = STM_REBUILD_ALLOW then bits n 16 0 ≤ 80000
  else if off = MAP_CFG then 8 ≤ bits n 7 0 && bits n 20 16 * 256 < fld s MAP_POOL_CFG 9 0 * 1024
  else if off = MAP_POOL_CFG then
    1 ≤ bits n 9 0 && bits n 9 0 ≤ 512 && fld s MAP_CFG 20 16 * 256 < bits n 9 0 * 1024
      && (fld s MAP_POOL_CFG 9 0 ≤ bits n 9 0 || poolTop s ≤ bits n 9 0 * 1024)
  else if off = FLC_G_CFG then 8 ≤ bits n 23 16 && 1 ≤ bits n 15 8
  else if off = BND_CFG then
    16 ≤ bits n 23 16 && bits n 23 16 ≤ 128 && 5 ≤ bits n 15 8 && bits n 15 8 ≤ 50 && 1 ≤ bits n 7 4
  else if off = BND_FREE_LOW then bits n 31 16 < bits n 15 0 && bits n 15 0 < fld s BND_FREE_HIGH 15 0
  else if off = BND_FREE_HIGH then fld s BND_FREE_LOW 15 0 < bits n 15 0
  else if off = MBR_TIMEOUT then bits n 7 0 ≠ 0
  else if off = MBR_READ_DEADLINE then 200 ≤ bits n 15 0
  else if off = FLT_CFG then bits n 31 16 ≠ 0 && 10 ≤ bits n 15 8 && bits n 15 8 ≤ 200
  else if off = FLT_HB then 5 ≤ bits n 23 16 && 1 ≤ bits n 7 0 && bits n 7 0 ≤ 100
  else if off = FLT_ACT_GRACE then bits n 7 0 ≠ 0
  else if off = FLT_KEEP_BUF then 64 ≤ bits n 11 0
  else if off = FLT_REBUILD_RATE then 100 ≤ bits n 16 0 && bits n 16 0 ≤ 80000
  else if off = FLT_HS_RATE then 16 ≤ bits n 15 0
  else if off = SEC_CFG then bits n 15 8 ≠ 0
  else if off = CPX_CFG then bits n 23 16 ≠ 0 && 16 ≤ bits n 15 8 && bits n 7 4 ≠ 0
  else if off = MEM_CFG then bits n 15 0 ≠ 0
  else if off = CST_CFG then bits n 31 16 = 0 || (10 ≤ bits n 31 16 && bits n 31 16 ≤ 3600)
  else if off = CST_ROW_SEL then bitAt n 8 || bits n 6 0 ≤ 63
  else if off = LNT_CFG then 1 ≤ bits n 15 8 && bits n 15 8 ≤ 100
  else true

/-- Discard a write that places a reserved encoding (R12). -/
def discardStore (off : Nat) (v : Word) (s : State) : State :=
  bump SYS_DISCARD_CNT (raise Ev.SYS_RESERVED_ENCODING (le 4 off ++ le 4 v.toNat) s)

/-- Count a write that nothing takes (R431, R434). -/
def ignoreStore (s : State) : State := bump SYS_DISCARD_CNT (raiseQuiet Ev.SYS_WRITE_IGNORED s)

/-- Raise SYS_SEALED_WRITE once per register and second, with the offset and the value (R436). -/
def sealedWrite (off : Nat) (v : Word) (s : State) : State :=
  let sec := s.tck.now / 1000000000
  if mget s.sys.sealedWriteSec off = some sec then s
  else raise Ev.SYS_SEALED_WRITE (le 4 off ++ le 4 v.toNat)
    { s with sys := { s.sys with sealedWriteSec := mput s.sys.sealedWriteSec off sec } }

/-- The value a register of the file takes when v is stored to it. -/
def storedValue (d : RegDef) (isSealed : Bool) (old v : Nat) : Nat :=
  let take := d.rw ||| (if isSealed then 0 else d.seald)
  (old &&& (0xFFFFFFFF ^^^ take ^^^ (d.w1c &&& v))) ||| (v &&& take)

/-- Count a store under R434: it would change an RO field, or a Sealed field after the seal. -/
def countStore (d : RegDef) (off old : Nat) (v : Word) (s : State) : State :=
  let diff := old ^^^ v.toNat
  let ro := diff &&& (0xFFFFFFFF ^^^ (d.rw ||| d.seald ||| d.w1c ||| d.wo)) ≠ 0
  let sl := s.sys.isSealed && (diff &&& d.seald) ≠ 0
  let s := if sl then sealedWrite off v s else s
  let s := if ro then raiseQuiet Ev.SYS_WRITE_IGNORED s else s
  if ro ∨ sl then bump SYS_DISCARD_CNT s else s

/-- A store to a register of the file: unassigned or read only, discarded, or taken. `seen`: bits that the register reads and the
file does not hold, which R434 compares too. -/
def storeSeen (off seen : Nat) (v : Word) (s : State) : State :=
  match regDef off with
  | none => ignoreStore s
  | some d =>
    let old := rg s off
    let new := storedValue d s.sys.isSealed old v.toNat
    if encOk s off new then setReg off (toWord new) (countStore d off (old ||| seen) v s) else discardStore off v s

/-- A store to a register all of whose bits the file holds. -/
def storeFile (off : Nat) (v : Word) (s : State) : State := storeSeen off 0 v s

/-- A store to a register of the file that acts beyond it: a discarded write acts on nothing (R12). -/
def storeThen (off : Nat) (f : State → State) (v : Word) (s : State) : State :=
  match regDef off with
  | none => storeFile off v s
  | some d =>
    if encOk s off (storedValue d s.sys.isSealed (rg s off) v.toNat) then f (storeFile off v s) else storeFile off v s

/-- A store to a WO register: R434's count of its reserved bits, which read zero; `seen`: what its RO bits read. -/
def storeWoSeen (off seen : Nat) (v : Word) (s : State) : State :=
  match regDef off with
  | none => ignoreStore s
  | some d => countStore d off (seen &&& (0xFFFFFFFF ^^^ d.wo)) v s

/-- A store to a register of WO fields alone. -/
def storeWo (off : Nat) (v : Word) (s : State) : State := storeWoSeen off 0 v s

end Sys2Proof.Machine
end

