-- ==== Sys2Proof/Machine/Clocks.lean ====
section
/-! DEFINITION. CLK: the crystal's loss, the PLLs, ACLK and the gate tree (13_clocks_thermal_power.md, R386-R392). -/

namespace Sys2Proof.Machine

/-- Table 13.2: the gates that another control owns. -/
def gateOwned (g : Nat) : Bool := 10 ≤ g && g ≤ 28

/-- Table 13.2: the parent of a gate that software controls. -/
def gateParent (g : Nat) : Option Nat := if 1 ≤ g ∧ g ≤ 8 then some 0 else if g = 10 ∨ g = 11 then some 9 else none

/-- Table 13.2: the children of a gate. -/
def gateChildren (g : Nat) : List Nat := if g = 0 then [1, 2, 3, 4, 5, 6, 7, 8] else if g = 9 then [10, 11] else []

/-- Owned gates follow their controls: fleet ports, cipher lanes, carrier power (Table 13.2). The others are On unless
listed. -/
def gateState (s : State) (g : Nat) : GateSt :=
  if g = 10 ∨ g = 11 then
    let p := if g = 10 then s.flt.ports.1 else s.flt.ports.2
    match p.st with
    | .off => if p.starting then .on else .off
    | .up => .on
    | .draining => if p.pending.isSome then .pending else .draining
  else if 12 ≤ g ∧ g ≤ 19 then
    match s.sec.lanes[g - 12]? with
    | some l => match l.st with
      | .draining => if l.pending.isSome then .pending else .draining
      | .testing => if l.pending.isSome then .pending else .on
      | .off => .off
      | _ => .on
    | none => .off
  else if 20 ≤ g ∧ g ≤ 28 then
    match s.mbr.ports[g - 20]? with
    | some p => if p.powered then .on else .off
    | none => .off
  else (mget s.clk.gates g).getD .on

/-- Set a gate; On is not listed. -/
def setGate (g : Nat) (st : GateSt) (s : State) : State :=
  { s with clk := { s.clk with gates := if st = .on then mdel s.clk.gates g else mput s.clk.gates g st } }

/-- CLK_GATE_RESULT holds the NM status of the last request; an unsuccessful one is raised. -/
def gateResult (nm g : Nat) (s : State) : State :=
  let s := setReg CLK_GATE_RESULT (toWord nm) s
  if nm = 0 then s else raise nm [toByte g] s

/-- Turn a gate on, its parent first (R391); a Draining gate latches the request, of which only the newest is kept (R392). -/
def gateOnReq (g : Nat) (s : State) : State :=
  if gateOwned g then gateResult Ev.CLK_GATE_OWNED g s
  else
    match gateState s g with
    | .draining => gateResult 0 g (setGate g .pending s)
    | .pending => gateResult 0 g (raise Ev.CLK_PENDING_REPLACED [toByte g] s)
    | .on => gateResult 0 g s
    | .off =>
      let s := match gateParent g with
        | some p => match gateState s p with
          | .off => setGate p .on s
          | .draining => setGate p .pending s
          | _ => s
        | none => s
      gateResult 0 g (setGate g .on s)

/-- Start draining a gate; a parent with a child not Off is refused, an owned gate too (R391). A gate-off replaces a latched
gate-on (R392). -/
def gateOffReq (g : Nat) (s : State) : State :=
  if gateOwned g then gateResult Ev.CLK_GATE_OWNED g s
  else if (gateChildren g).any (fun c => gateState s c ≠ .off) then gateResult Ev.CLK_PARENT_BUSY g s
  else
    match gateState s g with
    | .off => gateResult 0 g s
    | .draining => gateResult 0 g s
    | .pending => gateResult 0 g (raise Ev.CLK_PENDING_REPLACED [toByte g] (setGate g .draining s))
    | .on => gateResult 0 g (setGate g .draining s)

/-- A store to CLK_GATE_CTL (Table 13.8): gate 31 is a reserved encoding. -/
def storeGate (v : Word) (s : State) : State :=
  let g := bits v.toNat 4 0
  if g = 31 then discardStore CLK_GATE_CTL v s
  else
    let s := storeWo CLK_GATE_CTL v s
    if bitAt v.toNat 8 then gateOnReq g s else gateOffReq g s

/-- GATE_ON (R391, R392): CLK_GATE_CTL with ON = 1. -/
def execGateOn (v : Word) (s : State) : Host.Outcome State Fault Refusal :=
  .next (storeGate (toWord (putBits v.toNat 8 8 1)) s)

/-- GATE_OFF (R391): CLK_GATE_CTL with ON = 0. -/
def execGateOff (v : Word) (s : State) : Host.Outcome State Fault Refusal :=
  .next (storeGate (toWord (putBits v.toNat 8 8 0)) s)

/-- GATE_DRAIN_END (R392): the gate is Off, and a latched request is carried out. -/
def execGateDrainEnd (g : Nat) (s : State) : Host.Outcome State Fault Refusal :=
  .next (match gateState s g with
    | .draining => if gateOwned g then s else setGate g .off s
    | .pending => if gateOwned g then s else raise Ev.CLK_PENDING_DONE [toByte g, 0] (gateOnReq g (setGate g .off s))
    | _ => s)

/-- XTAL_LOST (R387): the unit enters Halt; fleet time runs on, no longer trimmed. -/
def execXtalLost (s : State) : Host.Outcome State Fault Refusal :=
  .next (if s.clk.xtalOk && !s.clk.xtalLost then
    haltWith Ev.CLK_XTAL_LOST [] (setReg TCK_RATE_TRIM 0
      { s with clk := { s.clk with xtalLost := true }, tck := { s.tck with ppsErrPpb := 0 } })
  else s)

/-- PLL_UNLOCK (R389): Halt for TB, F, L and H, the cores stall for A, port m's channels stop for FL m. -/
def execPllUnlock (i : Nat) (s : State) : Host.Outcome State Fault Refusal :=
  .next (if i ≤ 13 ∧ !s.clk.unlocked.contains i ∧ s.clk.xtalOk then
    let s := bump CLK_UNLOCK_CNT { s with clk := { s.clk with unlocked := addTo s.clk.unlocked i } }
    if i = 0 ∨ i = 1 ∨ i = 3 ∨ i = 4 then haltWith Ev.CLK_PLL_UNLOCK [toByte i] s
    else
      let s := raise Ev.CLK_PLL_UNLOCK [toByte i] s
      if i = 2 then { s with clk := { s.clk with coresStalled := true } } else s
  else s)

/-- PLL_RELOCKED (R389). -/
def execPllRelocked (i : Nat) (s : State) : Host.Outcome State Fault Refusal :=
  .next (if s.clk.unlocked.contains i then
    raise Ev.CLK_PLL_RELOCKED [toByte i]
      { s with clk := { s.clk with unlocked := dropFrom s.clk.unlocked i
                                   coresStalled := s.clk.coresStalled && i ≠ 2 } }
  else s)

/-- The throttle reduction r, in units of 1/65,536 (R398): min(1, slope × step), slope in 0.25 % per degree. -/
def reduction65536 (s : State) (step : Nat) : Nat := Nat.min 65536 (fld s THM_CFG 22 16 * step * 65536 / 400)

/-- The throttle cap of the effective ACLK, in 100 MHz (R399): (1 − r) × 24 rounded down, never below 6. -/
def aclkCap (s : State) : Nat :=
  let k := Nat.min 400 (fld s THM_CFG 22 16 * s.thm.step)
  if k = 0 then 24 else Nat.max 6 ((400 - k) * 24 / 400)

/-- CLK_ACLK.NOW follows the lower of FREQ and the throttle cap (R390, R399). -/
def aclkUpdate (s : State) : State :=
  let r := rg s CLK_ACLK
  setReg CLK_ACLK (toWord (putBits r 12 8 (Nat.min (bits r 4 0) (aclkCap s)))) s

/-- ACLK_FREQ_WRITE (R390): a store to CLK_ACLK. -/
def execAclkFreqWrite (v : Word) (s : State) : Host.Outcome State Fault Refusal :=
  .next (aclkUpdate (storeFile CLK_ACLK v s))

end Sys2Proof.Machine
end

