-- ==== Sys2Proof/Machine/Codeword.lean ====
section
/-! DEFINITION. The codeword on flash (R169-R173): its bytes, the LDPC code of Table 6.6, the scrambler, and the parity arithmetic of a
row over bytes 0-4,127 (R235, R236, Table 8.3). -/

namespace Sys2Proof.Machine

/-! ### Bytes 0-4,127 -/

/-- LBA_TAG (Table 6.5): NSID and LBA. -/
def lbaTag (nsid lba : Nat) : Nat := nsid * 2 ^ 53 + lba

/-- Bytes 0-4,127 of a pad codeword (R173). -/
def padPayload : Payload := { lbaTag := 0x0000FFFFFFFFFFFF }

/-- Bytes 0-4,127 of a data codeword (Table 6.5): DATA encrypted, LBA_TAG, WSEQ, and the tag over them (R303). -/
def sealPayload (key nsid lba wseq place : Nat) (content : Block) : Payload :=
  let t := BitVec.ofNat 64 (lbaTag nsid lba)
  let data := content ^^^ Config.gcmStream key wseq place
  { data := data, lbaTag := t, wseq := BitVec.ofNat 64 wseq, tag := Config.gcmTag key wseq place t data }

/-- Bytes 0-4,127 of a codeword. -/
def Cw.payload : Cw → Payload
  | .data key nsid lba wseq place content => sealPayload key nsid lba wseq place content
  | .pad => padPayload
  | .bytes x => x

/-- Decrypt bytes 0-4,127 as the codeword of an LBA at a place: its content where LBA_TAG names the LBA and the tag verifies (R305). -/
def openPayload (key nsid lba place : Nat) (x : Payload) : Option Block :=
  let w := x.wseq.toNat
  if x.lbaTag = BitVec.ofNat 64 (lbaTag nsid lba) ∧ x.tag = Config.gcmTag key w place x.lbaTag x.data then
    some (x.data ^^^ Config.gcmStream key w place)
  else none

/-- Bytes 0-4,127 as bits: bit n is bit n mod 8 of byte n / 8 (R170). -/
def Payload.toBits (x : Payload) : BitVec 33024 :=
  (((x.tag ++ x.wseq ++ x.lbaTag : BitVec 256) ++ x.data : BitVec (256 + 32768))).cast (by decide)

/-! ### LDPC (R170, Table 6.6) -/

/-- A block column of 384 bits of a vector. -/
def blockCol {n : Nat} (x : BitVec n) (j : Nat) : BitVec 384 := x.extractLsb' (384 * j) 384

/-- C^k v: row i is bit (i + k) mod 384 of v. -/
def circ (k : Nat) (v : BitVec 384) : BitVec 384 := v.rotateRight k

/-- The non-zero blocks of H in an information column j (Table 6.6): the block rows. -/
def infoRows (j : Nat) : List Nat := [j % 10, (j + 3) % 10, (j + 7) % 10]

/-- Block row i of H over the information columns. -/
def infoSum (x : BitVec 33024) (i : Nat) : BitVec 384 :=
  (List.range 86).foldl (fun a j => if (infoRows j).contains i then a ^^^ circ ((37 * j + 101 * i) % 384) (blockCol x j) else a) 0

/-- Block row i of H over the LDPC columns 86-95. -/
def parSum (p : BitVec 3840) (i : Nat) : BitVec 384 :=
  let first := if i = 0 ∨ i = 9 then circ 1 (blockCol p 0) else if i = 5 then blockCol p 0 else 0
  let own := if 1 ≤ i then blockCol p i else 0
  let next := if i ≤ 8 then blockCol p (i + 1) else 0
  first ^^^ own ^^^ next

/-- Does a codeword satisfy H·x = 0? -/
def ldpcOk (x : BitVec 33024) (p : BitVec 3840) : Bool :=
  (List.range 10).all (fun i => infoSum x i ^^^ parSum p i = 0)

/-- The LDPC columns 86-95 that satisfy H·x = 0: column 86 is the sum of all rows, and each later column ends the row before it. -/
def ldpcCols (x : BitVec 33024) : List (BitVec 384) :=
  let s := infoSum x
  let c0 := (List.range 10).foldl (fun a i => a ^^^ s i) 0
  let c1 := s 0 ^^^ circ 1 c0
  let c2 := s 1 ^^^ c1
  let c3 := s 2 ^^^ c2
  let c4 := s 3 ^^^ c3
  let c5 := s 4 ^^^ c4
  let c6 := s 5 ^^^ c5 ^^^ c0
  let c7 := s 6 ^^^ c6
  let c8 := s 7 ^^^ c7
  let c9 := s 8 ^^^ c8
  [c0, c1, c2, c3, c4, c5, c6, c7, c8, c9]

/-- LDPC bytes 4,128-4,607 as bits. -/
def ldpcBits (x : BitVec 33024) : BitVec 3840 :=
  (ldpcCols x).foldr (fun c a => (a <<< 384) ||| c.zeroExtend 3840) 0

/-- The 4,608 bytes of a codeword as the channel encoder makes them, before the scrambler. -/
def codewordBits (x : BitVec 33024) : BitVec 36864 := ((ldpcBits x) ++ x : BitVec (3840 + 33024)).cast (by decide)

/-! ### The scrambler (R171) -/

/-- The seed: [30:29] codeword index, [28:27] plane, [26:13] page number, [12:0] plane block; zero is replaced by 0x1. -/
def scrambleSeed (cw plane page block : Nat) : BitVec 31 :=
  let v := BitVec.ofNat 31 (cw % 4 * 2 ^ 29 + plane % 4 * 2 ^ 27 + page % 2 ^ 14 * 2 ^ 13 + block % 2 ^ 13)
  if v = 0 then 1 else v

/-- n output bits of the generator x^31 + x^28 + 1, bit 0 first (log entry 72): the output is the sum of the register's bits 30 and
27, which enters at bit 0. -/
def prbs : Nat → BitVec 31 → BitVec 36864
  | 0, _ => 0
  | n + 1, r =>
    let b := r.getLsbD 30 != r.getLsbD 27
    (prbs n ((r <<< 1) ||| (BitVec.ofBool b).zeroExtend 31) <<< 1) ||| (BitVec.ofBool b).zeroExtend 36864

/-- The pattern of a codeword's place. -/
def scramblePattern (cw plane page block : Nat) : BitVec 36864 := prbs 36864 (scrambleSeed cw plane page block)

/-- A codeword as it lies on the die (R170, R171). -/
def dieBits (x : Payload) (cw plane page block : Nat) : BitVec 36864 :=
  codewordBits x.toBits ^^^ scramblePattern cw plane page block

/-- The bits of a vector as bytes. -/
def bitsToBytes {n : Nat} (x : BitVec n) (len : Nat) : List Byte :=
  (List.range len).map (fun i => x.extractLsb' (8 * i) 8)

/-! ### Parity over bytes 0-4,127 -/

/-- The sum of two payloads. -/
def Payload.add (x y : Payload) : Payload :=
  { data := x.data ^^^ y.data, lbaTag := x.lbaTag ^^^ y.lbaTag, wseq := x.wseq ^^^ y.wseq, tag := x.tag ^^^ y.tag }

/-- Every byte of a payload times c. -/
def Payload.scale (c : Byte) (x : Payload) : Payload :=
  { data := blockMul c x.data
    lbaTag := vecMul (BitVec.ofNat 64 0x0101010101010101) c x.lbaTag
    wseq := vecMul (BitVec.ofNat 64 0x0101010101010101) c x.wseq
    tag := vecMul (BitVec.ofNat 128 0x01010101010101010101010101010101) c x.tag }

/-- P of a row's data payloads, in ascending index (R235). -/
def payloadP (ds : List Payload) : Payload := ds.foldl Payload.add {}

/-- Q of a row's data payloads from index i on (R235). -/
def payloadQ : Nat → List Payload → Payload
  | _, [] => {}
  | i, d :: ds => (d.scale (gfPow i)).add (payloadQ (i + 1) ds)

/-- The data payloads of a row of d data indexes, with the erased ones recovered under Table 8.3 from those known and from P and Q,
where they suffice. -/
def recoverData (d : Nat) (known : AMap Payload) (p q : Option Payload) : Option (AMap Payload) :=
  let miss := (List.range d).filter (fun i => !mhas known i)
  let fold := fun (w : Nat → Byte) => ((List.range d).filterMap (fun i => (mget known i).map (Payload.scale (w i)))).foldl Payload.add {}
  let pxy := p.map (fun x => x.add (fold (fun _ => 1)))
  let qxy := q.map (fun x => x.add (fold gfPow))
  match miss, pxy, qxy with
  | [], _, _ => some known
  | [x], some v, _ => some (mput known x v)
  | [x], none, some v => some (mput known x (v.scale (gfInv (gfPow x))))
  | [x, y], some v, some w =>
    let num := (v.scale (gfPow (y - x))).add (w.scale (gfInv (gfPow x)))
    let dx := num.scale (gfInv (gfPow (y - x) ^^^ 1))
    some (mput (mput known x dx) y (v.add dx))
  | _, _, _ => none

/-- Bytes recovered for a codeword of which the model already has a form with the same bytes keep that form. -/
def Cw.ofPayload (old : Option Cw) (x : Payload) : Cw :=
  match old with
  | some c => if c.payload = x then c else .bytes x
  | none => .bytes x

end Sys2Proof.Machine
end

