-- ==== Sys2Proof/Machine/SegMap.lean ====
section
/-! DEFINITION. MAP: namespaces and groups, segment entries, run entries and records, resolving an LBA, the delta log,
checkpoints and replay (05_segment_map.md). -/

namespace Sys2Proof.Machine

/-! ### Namespaces -/

/-- The values of t in 0..n−1 at which a ring position q holds data (R280). -/
def dataTs (n m q : Nat) : List Nat := (List.range n).filter (fun t => m ≤ (q + n - t) % n)

/-- The values of t at which it is a keeper. -/
def keepTs (n m q : Nat) : List Nat := (List.range n).filter (fun t => (q + n - t) % n < m)

/-- Host segments of a namespace: all of it, or k / n of a slice (R279). -/
def Ns.hostSegs (x : Ns) : Nat :=
  match x.fleet with
  | none => x.segs
  | some (n, m, _) => x.segs / Nat.max 1 n * (n - m)

/-- The stored segment of segment j of a namespace: R280 maps host segment c of a slice to stripe s; the segments the unit keeps
parity in follow the host's in the model's numbering. -/
def Ns.stored (x : Ns) (j : Nat) : Nat :=
  match x.fleet with
  | none => j
  | some (n, m, q) =>
    let k := Nat.max 1 (n - m)
    if j < x.hostSegs then n * (j / k) + (dataTs n m q).getD (j % k) 0
    else n * ((j - x.hostSegs) / Nat.max 1 m) + (keepTs n m q).getD ((j - x.hostSegs) % Nat.max 1 m) 0

/-- The segment number, in the model's numbering, of a stored segment. -/
def Ns.numbered (x : Ns) (t : Nat) : Nat :=
  match x.fleet with
  | none => t
  | some (n, m, q) =>
    let n1 := Nat.max 1 n
    let d := dataTs n m q
    if d.contains (t % n1) then (n - m) * (t / n1) + d.idxOf (t % n1)
    else x.hostSegs + m * (t / n1) + (keepTs n m q).idxOf (t % n1)

/-- The global segment of segment j of a namespace (R128, R129). -/
def gsnOf (dir : AMap Ns) (nsid j : Nat) : Option Nat :=
  match mget dir nsid with
  | some n => if j < n.segs then (n.groups[n.stored j / 64]?).map (fun g => 64 * g + n.stored j % 64) else none
  | none => none

/-- NSID and NSSEG of a global segment (Table 5.1). -/
def segOwner (dir : AMap Ns) (gsn : Nat) : Nat × Nat :=
  match dir.find? (fun p => p.2.groups.contains (gsn / 64)) with
  | some p => (p.1, 64 * p.2.groups.idxOf (gsn / 64) + gsn % 64)
  | none => (0, 0)

/-- NSID and the model's segment number of a global segment. -/
def segHome (dir : AMap Ns) (gsn : Nat) : Nat × Nat :=
  let o := segOwner dir gsn
  (o.1, match mget dir o.1 with | some n => n.numbered o.2 | none => o.2)

/-- Is a namespace active: existing and attached (R472)? -/
def nsActive (s : State) (nsid : Nat) : Bool := match mget s.map.dir nsid with | some n => n.attached | none => false

/-- The LBAs of a namespace as the host sees it (R279). -/
def nsLbas (s : State) (nsid : Nat) : Nat := match mget s.map.dir nsid with | some n => n.hostSegs * 4096 | none => 0

/-- Groups in use. -/
def groupsUsed (dir : AMap Ns) : List Nat := dir.flatMap (fun p => p.2.groups)

/-- Segments allocated (MAP_SEG_ALLOC): a proxy holds none. -/
def segsAlloc (dir : AMap Ns) : Nat := ((dir.filter (fun p => p.2.proxyOf.isNone)).map (fun p => p.2.segs)).sum

/-- The n lowest-numbered groups that are not used (R129). -/
def freeGroups (used : List Nat) : Nat → Nat → Nat → List Nat
  | 0, _, _ => []
  | _, 0, _ => []
  | fuel + 1, n + 1, g =>
    if used.contains g then freeGroups used fuel (n + 1) (g + 1) else g :: freeGroups used fuel n (g + 1)

/-! ### Segment entries -/

/-- The entry of a global segment: Unmapped where none is listed. -/
def segAt (segs : AMap Seg) (gsn : Nat) : Seg := (mget segs gsn).getD { kind := .unmapped, nsid := 0, nsseg := 0 }

/-- The location of LBA offset i of an extent in a band with D page slots per row (R137). -/
def extentLoc (d band row slot i : Nat) : Loc :=
  let q := row * d + slot + i / 4
  { band := band, row := q / Nat.max 1 d, slot := q % Nat.max 1 d, cw := i % 4 }

/-- The i-th codeword from a location: the codeword advances first, then the slot, then the row (Table 5.5). -/
def Loc.advance (d : Nat) (l : Loc) (i : Nat) : Loc := extentLoc d l.band l.row l.slot (l.cw + i)

/-- The locations of the mapped offsets of a segment (R134, R137); `dOf` gives the page slots per row of a band (R135). -/
def segMapped (dOf : Nat → Nat) (pool : AMap (AMap Loc)) (g : Seg) : List (Nat × Loc) :=
  match g.kind with
  | .extent fill band row slot => (List.range fill).map (fun i => (i, extentLoc (dOf band) band row slot i))
  | .granular ix => mgetD pool ix []
  | _ => []

/-- The location of one offset of a segment, if mapped. -/
def segLoc (dOf : Nat → Nat) (pool : AMap (AMap Loc)) (g : Seg) (i : Nat) : Option Loc :=
  match g.kind with
  | .extent fill band row slot => if i < fill then some (extentLoc (dOf band) band row slot i) else none
  | .granular ix => mget (mgetD pool ix []) i
  | _ => none

/-- Segments, granular tables and directory: what records act on. -/
structure MapView where
  segs : AMap Seg
  pool : AMap (AMap Loc)
  dir : AMap Ns
  deriving DecidableEq, Repr

/-- Put a segment entry with its owner: an Unmapped entry keeps NSID, NSSEG and GEN (Table 5.1). -/
def putSeg (gsn : Nat) (k : SegKind) (v : MapView) : MapView :=
  let o := segOwner v.dir gsn
  { v with segs := mput v.segs gsn { segAt v.segs gsn with kind := k, nsid := o.1, nsseg := o.2 } }

/-- Return the granular table of a segment to the pool, unless another segment holds it: replay can find it taken again (R154). -/
def freeTable (gsn : Nat) (v : MapView) : MapView :=
  match (segAt v.segs gsn).kind with
  | .granular ix => if v.segs.any (fun p => p.1 ≠ gsn && p.2.kind = .granular ix) then v else { v with pool := mdel v.pool ix }
  | _ => v

/-- Clear a segment: Unmapped, its table returned. -/
def clearSeg (gsn : Nat) (v : MapView) : MapView := putSeg gsn .unmapped (freeTable gsn v)

/-- NS_FREE: the group leaves the directory, the entries that `keep` does not name become Unmapped (Table 5.5, R154). -/
def freeGroup (group : Nat) (keep : Nat → Bool) (v : MapView) : MapView :=
  let dir := v.dir.map (fun p => (p.1, { p.2 with groups := p.2.groups.filter (· ≠ group) }))
  let v := { v with dir := dir.filter (fun p => !p.2.groups.isEmpty || p.2.proxyOf.isSome) }
  (List.range 64).foldl (fun v i => if keep (64 * group + i) then v else clearSeg (64 * group + i) v) v

/-- The effect of one run entry (Table 5.5, R136, R150, R156). -/
def applyOp (dOf : Nat → Nat) (v : MapView) : RunOp → MapView
  | .extentSet gsn first num loc => putSeg gsn (.extent (first + num) loc.band loc.row loc.slot) (freeTable gsn v)
  | .granularSet gsn first num loc =>
    match (segAt v.segs gsn).kind with
    | .granular ix =>
      { v with pool := mput v.pool ix ((List.range num).foldl
          (fun t i => mput t (first + i) (loc.advance (dOf loc.band) i)) (mgetD v.pool ix [])) }
    | _ => v
  | .convert gsn ix fill loc =>
    let table := (List.range fill).map (fun i => (i, extentLoc (dOf loc.band) loc.band loc.row loc.slot i))
    let v := putSeg gsn (.granular ix) (freeTable gsn v)
    { v with pool := mput v.pool ix table }
  | .unmap gsn first num =>
    match (segAt v.segs gsn).kind with
    | .extent fill band row slot =>
      if fill ≤ first + num ∧ first < fill then
        putSeg gsn (if first = 0 then .unmapped else .extent first band row slot) v
      else v
    | .granular ix =>
      let t := (mgetD v.pool ix []).filter (fun p => !(first ≤ p.1 && p.1 < first + num))
      if t.isEmpty then clearSeg gsn v else { v with pool := mput v.pool ix t }
    | .lost => if first = 0 ∧ num = 4096 then putSeg gsn .unmapped v else v
    | .unmapped => v
  | .lost gsn => putSeg gsn .lost (freeTable gsn v)
  | .nsGroup group nsid index num =>
    let n := (mget v.dir nsid).getD { groups := [], segs := 0 }
    { v with
        dir := mput v.dir nsid { n with
          groups := n.groups.take index ++ [group] ++ n.groups.drop (index + 1)
          segs := Nat.max n.segs (64 * index + num) }
        segs := v.segs.map (fun p => if p.1 / 64 = group ∧ p.1 % 64 < num then
          (p.1, { p.2 with nsid := nsid, nsseg := 64 * index + p.1 % 64 }) else p) }
  | .nsFree group => freeGroup group (fun _ => false) v

/-- The segments a run entry touches. -/
def RunOp.segsOf : RunOp → List Nat
  | .extentSet g _ _ _ => [g]
  | .granularSet g _ _ _ => [g]
  | .convert g _ _ _ => [g]
  | .unmap g _ _ => [g]
  | .lost g => [g]
  | .nsGroup _ _ _ _ => []
  | .nsFree g => (List.range 64).map (fun i => 64 * g + i)

/-- Apply a record and stamp the entries it touches with the low half of its LSN (R149, R152). -/
def applyRec (dOf : Nat → Nat) (v : MapView) (r : MapRec) : MapView :=
  let v := r.ops.foldl (applyOp dOf) v
  (r.ops.flatMap RunOp.segsOf).foldl (fun v g => { v with
    segs := mupd v.segs g (fun e => { e with gen := r.lsn % 2 ^ 32 }) }) v

/-- Page slots per row of a band: 4 × its data members (R135). -/
def dOfBand (bands : AMap Band) (geometry band : Nat) : Nat :=
  match mget bands band with
  | some b => 4 * (b.active.length - (if geometry = 1 ∨ geometry = 3 then 2 else 1))
  | none => 0

/-- The same, in a state. -/
def dOf (s : State) (band : Nat) : Nat := dOfBand s.bnd.bands s.mbr.geometry band

/-- The map as applied. -/
def viewOf (s : State) : MapView := { segs := s.map.segs, pool := s.map.pool, dir := s.map.dir }

/-- Put a view back. -/
def withView (v : MapView) (s : State) : State :=
  { s with map := { s.map with segs := v.segs, pool := v.pool, dir := v.dir } }

/-- The map as formed: with the records appended and not yet applied (R146, R158). -/
def formedView (s : State) : MapView :=
  (s.map.log.filter (fun r => s.map.durable ≤ r.lsn)).foldl (applyRec (dOf s)) (viewOf s)

/-! ### Resolving an LBA -/

/-- What an LBA resolves to (R144). -/
inductive Resolved where
  | zeros
  | staged (b : Block)
  | lost
  | flash (loc : Loc)
  deriving DecidableEq, Repr

/-- Does an index entry cover an LBA? -/
def IdxEntry.covers (e : IdxEntry) (nsid lba : Nat) : Bool := e.nsid = nsid && e.slba ≤ lba && lba < e.slba + e.nlb

/-- Is an entry's record appended, or applied: for the whole range, or at an LBA of it (R145)? -/
def IdxEntry.formed (e : IdxEntry) : Bool := e.nlb ≤ e.formedN
def IdxEntry.applied (e : IdxEntry) : Bool := e.nlb ≤ e.appliedN
def IdxEntry.formedAt (e : IdxEntry) (lba : Nat) : Bool := lba < e.slba + e.formedN
def IdxEntry.appliedAt (e : IdxEntry) (lba : Nat) : Bool := lba < e.slba + e.appliedN

/-- The newest entered index entry that covers an LBA (R22, R144), of those with an acceptance number below `lim`. -/
def newestEntry (s : State) (lim nsid lba : Nat) : Option IdxEntry :=
  (s.hif.index.map (·.2)).foldl (fun a e =>
    if e.entered && e.accept < lim && e.covers nsid lba then
      match a with
      | some b => if b.accept < e.accept then some e else some b
      | none => some e
    else a) none

/-- Resolve an LBA of a namespace (R144) as it stands below an acceptance number. -/
def resolveAt (s : State) (lim nsid lba : Nat) : Resolved :=
  let byMap :=
    match gsnOf s.map.dir nsid (lba / 4096) with
    | none => .zeros
    | some gsn =>
      let g := segAt s.map.segs gsn
      if g.kind = .lost then .lost
      else match segLoc (dOf s) s.map.pool g (lba % 4096) with
        | some l => .flash l
        | none => .zeros
  match newestEntry s lim nsid lba with
  | some e => if e.appliedAt lba then byMap else if e.zero then .zeros else .staged (e.data.getD (lba - e.slba) 0)
  | none => byMap

/-- Resolve an LBA of a namespace (R144). -/
def resolve (s : State) (nsid lba : Nat) : Resolved := resolveAt s s.hif.nextAccept nsid lba

/-- Look a segment up in the cache (R143): eight ways a set, filled on a miss, the least recently used way replaced. -/
def cacheLook (nsid nsseg : Nat) (s : State) : State :=
  let set := Config.cacheSet nsid nsseg % 32768
  let key := nsid * 2 ^ 24 + nsseg
  let ways := mgetD s.map.cache set []
  let s := { s with map := { s.map with cache := mput s.map.cache set ((key :: dropFrom ways key).take 8) } }
  bump (if ways.contains key then MAP_CACHE_HIT_CNT else MAP_CACHE_MISS_CNT) s

/-- The lookup that resolving an LBA makes: none where the index answers (R144). -/
def cacheFor (lim nsid lba : Nat) (s : State) : State :=
  match newestEntry s lim nsid lba, mget s.map.dir nsid with
  | some e, some x => if e.appliedAt lba then cacheLook nsid (x.stored (lba / 4096)) s else s
  | none, some x => cacheLook nsid (x.stored (lba / 4096)) s
  | _, none => s

/-! ### The log -/

/-- Bytes of the ring: the region of 18 MiB less two root blocks (R147). -/
def ringBytes : Nat := 18 * 2 ^ 20 - 8192

/-- Bytes of the ring in use. -/
def ringUsed (s : State) : Nat := ((s.map.log.filter (fun r => s.map.freeLsn ≤ r.lsn)).map MapRec.len).sum

/-- The byte offset in the ring at which the next record begins. -/
def ringTail (s : State) : Nat := match s.map.log.getLast? with | some r => (r.place + r.len) % ringBytes | none => s.map.ckpt.replayAt

/-- Does a run entry turn an extent into granular form (R140)? -/
def RunOp.converts : RunOp → Bool
  | .convert _ _ fill _ => fill ≠ 0
  | _ => false

/-- Put a record at the ring's tail under the next LSN: it writes over what lay there. -/
def putRec (r : MapRec) (s : State) : State :=
  let kept := s.map.log.filter (fun x => s.map.freeLsn ≤ x.lsn || x.place + x.len ≤ r.place || r.place + r.len ≤ x.place)
  { s with map := { s.map with lsn := s.map.lsn + 1, log := kept ++ [r], logFull := false, cleanMark := false } }

/-- Append a record, or say that the ring is full (R153): MAP_LOG_FULL once per run of waits. A record never wraps: a PAD record fills
the end of the ring first where it does not fit (R147). The record's index entries are formed (R145). -/
def appendRec (ty : RecTy) (accept cmd : Nat) (ops : List RunOp) (marks : List (Nat × Nat)) (last : Bool) (s : State) : Option State :=
  let len := 32 + 16 * ops.length
  let at_ := ringTail s
  let fill := if ringBytes < at_ + len then ringBytes - at_ else 0
  if ringBytes < ringUsed s + fill + len ∨ 128 < ops.length then none
  else
    let s := if fill = 0 then s else putRec { lsn := s.map.lsn, ty := .pad, place := at_, len := fill, accept := 0, cmd := 0, ops := [] } s
    let s := putRec { lsn := s.map.lsn, ty := ty, place := ringTail s, len := len, accept := accept, cmd := cmd, ops := ops
                      marks := marks, last := last } s
    some (bumpBy MAP_TO_GRANULAR_CNT (ops.filter RunOp.converts).length { s with hif := { s.hif with
      index := marks.foldl (fun m k => mupd m k.1 (fun e => { e with formedN := k.2 })) s.hif.index } })

/-- Note that a record waits for ring space. -/
def noteLogFull (s : State) : State :=
  if s.map.logFull then s else raise Ev.MAP_LOG_FULL [] { s with map := { s.map with logFull := true } }

/-- Bytes of the records that n run entries take, at most 128 in each (Table 5.3). -/
def recsBytes (n : Nat) : Nat := 32 * cdiv n 128 + 16 * n

/-- Has the ring room for records of a number of bytes, with a PAD record among them? -/
def ringRoom (s : State) (n : Nat) : Bool := ringUsed s + n + 2080 ≤ ringBytes

/-- Free granular tables as formed (R141). -/
def poolFree (s : State) : Nat := fld s MAP_POOL_CFG 9 0 * 1024 - (formedView s).pool.length

/-- Free tables at or below the reserve (R141). -/
def poolLow (s : State) : Bool := poolFree s ≤ fld s MAP_CFG 20 16 * 256

/-- The lowest pool index that is not used. -/
def poolIndex (pool : AMap (AMap Loc)) : Nat :=
  ((List.range (pool.length + 1)).find? (fun i => !mhas pool i)).getD 0

/-- Segments now Lost. -/
def lostSegs (s : State) : List Nat := (s.map.segs.filter (fun p => p.2.kind = .lost)).map (·.1)

/-! ### Checkpoints -/

/-- Start a checkpoint (R153 step 1): the next LSN and its place in the ring are noted. -/
def ckptBegin (s : State) : State :=
  { s with map := { s.map with
      running := some { s.map.ckpt with replayLsn := s.map.lsn, replayAt := ringTail s, gen := s.map.ckpt.gen + 1
                                        clean := s.map.cleanMark, stage := 0 }
      ckptLate := false } }

/-- Has the page of an item of a checkpoint still a place in it: a granular table that the checkpoint holds? -/
def Ckpt.holds (c : Ckpt) : SysItem → Bool
  | .pool t _ => mhas c.pool t
  | .image _ _ => false
  | _ => true

/-- End the running checkpoint, whose pages are all written (`whole`; R241): its index names the newest copy of every page, the root block
not last written is durable and the ring below REPLAY_LSN is free (R153 step 5). -/
def ckptFinish (whole : Bool) (s : State) : State :=
  match s.map.running with
  | none => s
  | some c =>
    if s.map.durable < c.replayLsn ∨ c.stage < 5 ∨ !whole then s
    else
      let gone := fun (x : SysItem) => match x with | .pool t _ => !mhas c.pool t | _ => false
      let at_ := s.bnd.sysAt.filter (fun e => !gone e.1)
      let c := { c with index := at_.filter (fun e => c.holds e.1), clean := c.clean && s.map.cleanMark }
      bump MAP_CKPT_CNT { s with bnd := { s.bnd with sysAt := at_ }, map := { s.map with
        ckpt := c, older := some s.map.ckpt, inB := !s.map.inB, running := none, ckptLate := false, logFull := false
        freeLsn := c.replayLsn } }

/-- CHECKPOINT_START (R153). -/
def execCheckpointStart (s : State) : Host.Outcome State Fault Refusal :=
  .next (if s.map.replayed && s.map.running.isNone && s.cst.mode.runs && !s.cst.actRunning then ckptBegin s else s)

/-- MAP_CKPT_LATE (R153): a checkpoint has not ended 256 ms after its start. -/
def execMapCkptLate (s : State) : Host.Outcome State Fault Refusal :=
  .next (if s.map.running.isSome && !s.map.ckptLate then
    raise Ev.MAP_CKPT_LATE [] { s with map := { s.map with ckptLate := true } }
  else s)

/-! ### Replay -/

/-- Replay one record: run entries for a segment that already holds this record or a later one are skipped (R154). -/
def replayRec (dOf : Nat → Nat) (base w : Nat) (v : MapView) (r : MapRec) : MapView :=
  let d := (r.lsn % 2 ^ 32 + 2 ^ 32 - base) % 2 ^ 32
  let holds := fun g =>
    let e := ((segAt v.segs g).gen + 2 ^ 32 - base) % 2 ^ 32
    mhas v.segs g && e < w && d ≤ e
  let touched := (r.ops.flatMap RunOp.segsOf).filter (fun g => !holds g)
  let v := r.ops.foldl (fun v o => match o with
    | .nsFree g => freeGroup g holds v
    | o => if o.segsOf.all holds && !o.segsOf.isEmpty then v else applyOp dOf v o) v
  touched.foldl (fun v g => { v with segs := mupd v.segs g (fun e => { e with gen := r.lsn % 2 ^ 32 }) }) v

/-- The valid root block with the higher ROOT_GEN (R154): of `bad`, 0 is block A and 1 block B. -/
def rootChosen (m : Map) : Option Ckpt :=
  if !m.badRoots.contains (b2n m.inB) then some m.ckpt
  else match m.older with
    | some c => if m.badRoots.contains (1 - b2n m.inB) then none else some c
    | none => none

/-- The valid records from an LSN on (R148): each follows its predecessor, up to the first that was never durable. -/
def validFrom (m : Map) : Nat → List MapRec → List MapRec
  | _, [] => []
  | n, r :: rs => if r.lsn < n then validFrom m n rs else if r.lsn = n ∧ n < m.durable then r :: validFrom m (n + 1) rs else []

/-- Load the checkpoint of the chosen root block, rebuild the free list of the pool from the loaded entries, and replay the valid records of
the ring (R154, R155, Table 5.7). A proxy, which no run entry names, stays as the directory holds it (log entry 76). -/
def mapReplay (s : State) : State :=
  match rootChosen s.map with
  | none => haltWith Ev.MAP_ROOT_INVALID [] s
  | some c =>
    let recs := validFrom s.map c.replayLsn s.map.log
    let end_ := c.replayLsn + recs.length
    let torn := s.map.validPast && s.map.log.any (fun r => end_ < r.lsn)
    let keys := s.map.dir
    let proxies := keys.filter (fun p => p.2.proxyOf.isSome)
    let own := c.dir.filter (fun p => p.2.proxyOf.isNone)
    let pool := c.pool.filter (fun t => c.segs.any (fun p => p.2.kind = .granular t.1))
    let v := recs.foldl (replayRec (dOf s) (c.replayLsn % 2 ^ 32) recs.length) { segs := c.segs, pool := pool, dir := own }
    let dir := v.dir.map (fun p => (p.1, match mget keys p.1 with
      | some n => { p.2 with attached := n.attached, key := n.key, fleet := n.fleet }
      | none => p.2))
    let s := withView { v with dir := proxies.foldl (fun m p => mput m p.1 p.2) dir } s
    let clean := c.clean && recs.isEmpty
    let s := { s with
      map := { s.map with
        replayed := true, log := s.map.log.filter (fun r => r.lsn < end_), lsn := end_, durable := end_, freeLsn := c.replayLsn, ckpt := c
        older := if c = s.map.ckpt then s.map.older else none, inB := if c = s.map.ckpt then s.map.inB else !s.map.inB
        startedClean := clean, cleanMark := clean, running := none }
      bnd := { s.bnd with sysAt := s.bnd.sysAt ++ c.index }
      flc := { s.flc with stamps := c.stamps }
      lnt := { s.lnt with smart := c.smart } }
    let s := if clean then s else smartAdd 8 1 s
    let ms := Nat.min 0xFFFF s.map.replayMs
    let s := setReg MAP_REPLAY_TIME (toWord ms) (setReg MAP_REPLAY_RECORDS (toWord recs.length) s)
    let s := if torn then raise Ev.MAP_REPLAY_TORN [] s else s
    ckptBegin (raise Ev.MAP_REPLAY_DONE (le 4 recs.length ++ le 2 ms) s)

end Sys2Proof.Machine
end

