-- ==== Sys2Proof/Machine/Geo.lean ====
section
/-! DEFINITION. Geometry: positions and ports, the places of parity and data in a row, page slots and channels (R135,
R232-R234), targets and blocks, and the keys of the maps of pages, blocks and targets. -/

namespace Sys2Proof.Machine

/-- Positions of the geometry (Table 8.1). -/
def positions (s : State) : Nat := if s.mbr.geometry = 0 ∨ s.mbr.geometry = 1 then 9 else 8

/-- Parity positions per row (Table 8.1). -/
def parityCount (s : State) : Nat := if s.mbr.geometry = 1 ∨ s.mbr.geometry = 3 then 2 else 1

/-- Does the geometry have a spare? -/
def hasSpare (geometry : Nat) : Bool := geometry = 2 || geometry = 3

/-- A port. -/
def portAt (s : State) (m : Nat) : Port := s.mbr.ports.getD m {}

/-- Change a port. -/
def setPort (m : Nat) (f : Port → Port) (s : State) : State :=
  { s with mbr := { s.mbr with ports := setAt s.mbr.ports m f } }

/-- The port that carries a position (MBR_POS). -/
def posPort (s : State) (p : Nat) : Option Nat := mget s.mbr.posOf p

/-- The position that a port carries. -/
def portPos (s : State) (m : Nat) : Option Nat := (s.mbr.posOf.find? (fun e => e.2 = m)).map (·.1)

/-- Does a position have a carrier that is Active or Rebuilding? -/
def posCarried (s : State) (p : Nat) : Bool :=
  match posPort s p with
  | some m => (portAt s m).st = .active || (portAt s m).st = .rebuilding
  | none => false

/-- Positions with an Active or Rebuilding carrier, in ascending order (a of Table 4.3). -/
def livePositions (s : State) : List Nat := (List.range (positions s)).filter (posCarried s)

/-- Positions without an Active carrier. -/
def missingPositions (s : State) : List Nat :=
  (List.range (positions s)).filter (fun p => match posPort s p with
    | some m => (portAt s m).st ≠ .active
    | none => true)

/-- Is the unit formatted with a position that lacks an Active carrier (MBR_STATUS.DEGRADED)? -/
def degradedUnit (s : State) : Bool := s.mbr.formatted && !(missingPositions s).isEmpty

/-- Is a position of the fleet group vacant, or this replacement not yet rebuilt (R276, R289, Table 12.2)? -/
def fleetVacant (s : State) : Bool :=
  s.flt.n ≠ 0 && s.flt.epoch ≠ 0 && s.flt.fstate ≠ .fenced && (s.flt.roster.length < s.flt.n || s.flt.fstate = .rebuilding)

/-- Service or Degraded, whichever condition holds (Table 12.2). -/
def modeCheck (s : State) : State :=
  let low := degradedUnit s || fleetVacant s
  if s.cst.mode = .service ∧ low then enterMode .degraded s
  else if s.cst.mode = .degraded ∧ !low then enterMode .service s
  else s

/-- The P position of row r of a band with the given active positions (R234). -/
def pPos (active : List Nat) (band row : Nat) : Nat := active.getD ((row + band) % Nat.max 1 active.length) 0

/-- The Q position (R234). -/
def qPos (active : List Nat) (band row : Nat) : Nat := active.getD ((row + band + 1) % Nat.max 1 active.length) 0

/-- The data positions of a row in ascending order (R234). -/
def dataPos (p : Nat) (active : List Nat) (band row : Nat) : List Nat :=
  active.filter (fun a => a ≠ pPos active band row && (p = 1 || a ≠ qPos active band row))

/-- The parity positions of a row. -/
def parPos (p : Nat) (active : List Nat) (band row : Nat) : List Nat :=
  if p = 1 then [pPos active band row] else [pPos active band row, qPos active band row]

/-- The places of a channel's program unit that are transferred before a row's, in ascending row order (R175): those that hold data for
data, those that hold parity for parity, which is computed from the group's data (R237). -/
def earlierRows (p : Nat) (active : List Nat) (band lo row pos : Nat) : List Nat :=
  let par := fun r => (parPos p active band r).contains pos
  ((List.range (row - lo)).map (lo + ·)).filter (fun r => par r = par row)

/-- A band: one that no entry lists is Free, or Retired at and above NSETS × VB (R200). -/
def bandAt (s : State) (b : Nat) : Band :=
  mgetD s.bnd.bands b { st := if b < s.bnd.nsets * s.bnd.vb then .free else .retired, erasedAll := s.bnd.freshDone, eraseCnt := s.bnd.freshCnt }

/-- The position and channel position of a page slot of a row (R135). -/
def slotPlace (s : State) (band row slot : Nat) : Nat × Nat :=
  ((dataPos (parityCount s) (bandAt s band).active band row).getD (slot / 4) 0, slot % 4)

/-- The channel of a channel position of a position: 4 × POS[m] + k (R233). -/
def chanOf (s : State) (pos k : Nat) : Option Nat := (posPort s pos).map (fun m => 4 * m + k)

/-- The page slot of a row at a position and channel position, if it holds data there. -/
def placeSlot (s : State) (band row pos k : Nat) : Option Nat :=
  let i := (dataPos (parityCount s) (bandAt s band).active band row).idxOf pos
  if i < (dataPos (parityCount s) (bandAt s band).active band row).length then some (4 * i + k) else none

/-- The key of the page at a channel position (position × 4 + k) of a row of a band. -/
def pageKey (band row pos k : Nat) : Nat := (band * 65536 + row) * 64 + 4 * pos + k

/-- Pages per program unit of a band: PLANES × LEVELS, PLANES in a pSLC system band (R164, R180). -/
def unitPages (s : State) (band : Nat) : Nat :=
  if band < s.bnd.sysBands then s.flc.profile.planes else s.flc.profile.planes * s.flc.profile.levels

/-- Rows of a user band: TPB × PLANES × PPB (R164). -/
def userRows (s : State) : Nat := s.flc.profile.tpb * s.flc.profile.planes * s.flc.profile.ppb

/-- Rows of a band: a system band has the rows of a user band over LEVELS (R225). -/
def bandRows (s : State) (band : Nat) : Nat :=
  if band < s.bnd.sysBands then userRows s / Nat.max 1 s.flc.profile.levels else userRows s

/-- The target set of a band (R200). -/
def setOf (s : State) (band : Nat) : Nat := band % Nat.max 1 s.bnd.nsets

/-- The virtual block of a band (R200). -/
def virtOf (s : State) (band : Nat) : Nat := band / Nat.max 1 s.bnd.nsets

/-- The program unit of a row. -/
def unitOf (s : State) (band row : Nat) : Nat := row / Nat.max 1 (unitPages s band)

/-- The target of a program unit (R165). -/
def targetOf (s : State) (band unit : Nat) : Nat :=
  setOf s band * s.flc.profile.tpb + unit % Nat.max 1 s.flc.profile.tpb

/-- The physical place of row r of a block (R165): target, wordline, plane, level and page number within the plane block. -/
def rowPlace (pf : Profile) (set row : Nat) : Nat × Nat × Nat × Nat × Nat :=
  let u := pf.planes * pf.levels
  let unit := row / u
  let j := row % u
  let wordline := unit / pf.tpb
  (set * pf.tpb + unit % pf.tpb, wordline, j / pf.levels, j % pf.levels, wordline * pf.levels + j % pf.levels)

/-- The physical place of a row of a band: a pSLC system band has one level to each wordline (R180, R225). -/
def bandPlace (s : State) (band row : Nat) : Nat × Nat × Nat × Nat × Nat :=
  rowPlace (if band < s.bnd.sysBands then { s.flc.profile with levels := 1 } else s.flc.profile) (setOf s band) row

/-- The key of a block. -/
def blkKey (ch set block : Nat) : Nat := (ch * 64 + set) * 65536 + block

/-- The key of a target. -/
def tgtKey (ch t : Nat) : Nat := ch * 32 + t

/-- Factory-marked blocks of a set on a channel, ascending (R201). -/
def factoryOf (s : State) (ch set : Nat) : List Nat :=
  (s.bnd.factory.filter (fun f => f.1 = ch && f.2.1 = set)).map (fun f => f.2.2)

/-- Grown records of a set on a channel (R201): virtual block, retired block, replacement. -/
def grownOf (s : State) (ch set : Nat) : List (Nat × Nat × Nat) :=
  (s.bnd.grown.filter (fun g => g.1 = ch && g.2.1 = set)).map (fun g => g.2.2)

/-- The k-th good block of a set in ascending order, stepping over the factory marks (R201). -/
def nthGood (marks : List Nat) (k : Nat) : Nat := marks.foldl (fun c b => if b ≤ c then c + 1 else c) k

/-- The block that virtual block k of a set maps to on a channel: the newest grown record wins (R201). -/
def physOf (s : State) (ch set k : Nat) : Nat :=
  match ((grownOf s ch set).filter (fun g => g.1 = k)).getLast? with
  | some g => g.2.2
  | none => nthGood (factoryOf s ch set) k

/-- Do the offsets of thresholds that a die of so many levels does not have read zero (Table 6.3)? -/
def offsetsOk (levels : Nat) (t : List (List Int)) : Bool := t.all (fun e => (e.drop (2 ^ levels - 1)).all (fun x => x = 0))

/-- Does every field of a profile lie in its range in Table 6.3, the reserved bytes zero (R168)? Fields without a narrower range are bounded
by their width alone. -/
def Profile.inRange (p : Profile) : Bool :=
  p.reservedZero && p.matchId.length = 8 && (1 ≤ p.levels && p.levels ≤ 4) && ([1, 2, 4] : List Nat).contains p.planes
    && ([1, 2, 4] : List Nat).contains p.tpb && p.tpb ≤ p.luns && (1 ≤ p.luns && p.luns ≤ 4) && (1 ≤ p.fillRate && p.fillRate ≤ 65535)
    && p.ersSusMax ≤ 255 && p.pgmSusMax ≤ 15 && p.retryMax ≤ 8 && (1 ≤ p.softDelta && p.softDelta ≤ 32)
    && offsetsOk p.levels p.retry && offsetsOk p.levels p.curve && offsetsOk p.levels p.xtemp

/-- FILL_RATE / 8 ≤ PLANES × LEVELS × 16,384 / (TPROG_MAX + TBERS_MAX × LEVELS / PPB), in MB/s with times in µs (R168), in whole numbers
with times in ns. -/
def Profile.fillOk (p : Profile) : Bool :=
  p.fillRate * (p.tprogMax * p.ppb + p.tbersMax * p.levels) ≤ 8000 * (p.planes * p.levels * 16384) * p.ppb

/-- Is a profile valid (R168)? `crc`: its CRC is correct. -/
def Profile.valid (p : Profile) (crc : Bool) : Bool :=
  crc && p.format = 1 && p.inRange && p.ppb % Nat.max 1 p.levels = 0 && p.tpb * p.planes * p.ppb ≤ 65536 && 3600 ≤ p.maxRate && p.fillOk

/-- A die profile of the settings. -/
def profileAt (s : State) (n : Nat) : Profile := (s.flc.profiles.getD n none).getD {}

/-- The profile of a target: the one that it matches (R167), or the one of the unit's format. -/
def pfAt (s : State) (ch t : Nat) : Profile :=
  match mget s.flc.targetProfile (tgtKey ch t) with
  | some n => profileAt s n
  | none => s.flc.profile

/-- Spares left in a set on a channel: the good blocks beyond the first VB, less those that grown records took (R201). -/
def sparesOf (s : State) (ch set : Nat) : Nat :=
  (pfAt s ch (set * s.flc.profile.tpb)).blocks - (factoryOf s ch set).length - s.bnd.vb - (grownOf s ch set).length

/-- The next spare of a set on a channel. -/
def spareOf (s : State) (ch set : Nat) : Nat :=
  nthGood (factoryOf s ch set) (s.bnd.vb + (grownOf s ch set).length)

/-- The key of a band's block on a channel. -/
def bandBlk (s : State) (ch band : Nat) : Nat := blkKey ch (setOf s band) (physOf s ch (setOf s band) (virtOf s band))

/-- The band whose block on a channel is a plane block of a set (R201), if any. -/
def bandOfBlk (s : State) (ch set block : Nat) : Option Nat :=
  let marks := factoryOf s ch set
  let k := match ((grownOf s ch set).filter (fun g => g.2.2 = block)).getLast? with
    | some g => g.1
    | none => block - (marks.filter (· < block)).length
  if set < s.bnd.nsets ∧ k < s.bnd.vb ∧ physOf s ch set k = block ∧ !marks.contains block then some (k * s.bnd.nsets + set) else none

/-- The state that FLC takes for a block from the entry of its band (R206, Table 7.2): that of a carrier admitted since the start is
Unknown. -/
def blkFromBand (e : Band) (blank : Bool) : Blk :=
  match e.st with
  | .retired => { st := .retired }
  | .closed => { st := if blank then .unknown else .full, ptr := e.endRow }
  | .awaiting => { st := if blank then .unknown else .full, ptr := e.endRow }
  | .free => { st := if e.erasedAll ∧ !blank then .erased else .unknown }
  | _ => { st := if blank then .unknown else .erased }

/-- A block by its physical place: as FLC's table lists it, otherwise as the entry of its band says. -/
def physBlk (s : State) (ch set block : Nat) : Blk :=
  match mget s.flc.blocks (blkKey ch set block), bandOfBlk s ch set block with
  | some b, _ => b
  | none, some n => blkFromBand (bandAt s n) (s.flc.blank.contains (ch / 4))
  | none, none => {}

/-- A band's block on a channel: as FLC's table lists it, otherwise as the entry of its band says (R174, R206). -/
def blkOf (s : State) (ch band : Nat) : Blk :=
  (mget s.flc.blocks (bandBlk s ch band)).getD (blkFromBand (bandAt s band) (s.flc.blank.contains (ch / 4)))

/-- Change a band's block on a channel. -/
def setBlk (ch band : Nat) (f : Blk → Blk) (s : State) : State :=
  { s with flc := { s.flc with blocks := mput s.flc.blocks (bandBlk s ch band) (f (blkOf s ch band)) } }

/-- Change a band entry. -/
def setBand (b : Nat) (f : Band → Band) (s : State) : State :=
  { s with bnd := { s.bnd with bands := mput s.bnd.bands b (f (bandAt s b)) } }

/-- The channels of a band that have a live carrier: four for each position of ACTIVE that is Active or Rebuilding. -/
def bandChans (s : State) (b : Nat) : List Nat :=
  ((bandAt s b).active.filter (posCarried s)).flatMap (fun p => match posPort s p with
    | some m => (List.range 4).map (4 * m + ·)
    | none => [])

/-- Is a band named in the rebuild map, its position rebuilt only below a row (R252, R255)? -/
def rebuiltBelow (s : State) (band pos row : Nat) : Bool :=
  match s.mbr.rebuild with
  | some r => r.position ≠ pos || !r.marked.contains band || (r.band = some band && row < r.row)
  | none => true

/-- The page at a position and channel position of a row. -/
def pageAt (s : State) (band row pos k : Nat) : Option Page := mget s.bnd.pages (pageKey band row pos k)

/-- Can a place of a band be programmed no longer: its carrier is gone, its channel failed at or below the row (R239), or its
block was left torn by a power loss (R178)? -/
def deadPlace (s : State) (band row pos k : Nat) : Bool :=
  let b := bandAt s band
  let ch := chanOf s pos k
  let hit := fun (f : Option (Nat × Nat)) => match f, ch with
    | some (fch, frow), some c => fch = c && frow ≤ row
    | _, _ => false
  let torn : Bool := match ch with
    | some c => (blkOf s c band).torn && (blkOf s c band).readTo ≤ row
    | none => false
  !posCarried s pos || hit b.failA || hit b.failB || torn

/-- Is a parity codeword held in the band's parity slot (R240)? -/
def heldCw (s : State) (band row ch cw : Nat) : Bool := (mgetD s.mbr.slots band []).contains (row, ch, cw)

/-- Is a place a pad position: it counts as the pad codeword and is no erasure (R239)? -/
def padPlace (s : State) (band row pos k : Nat) : Bool :=
  match pageAt s band row pos k with
  | some p => p.st = .gone && p.src = .pad
  | none => false

/-- Bytes 0-4,127 that a place of a row has in the row's parity (R235, R237, R239): those of its page as transferred, the pad codeword
for a pad position, nothing where nothing was folded. -/
def placePayload (s : State) (band row pos k cw : Nat) : Payload :=
  if padPlace s band row pos k then padPayload
  else match (pageAt s band row pos k).bind (fun p => p.cws[cw]?) with
    | some c => c.payload
    | none => {}

/-- The data payloads of a row at a channel position and codeword, in ascending data index (R235): what the row's accumulator folds. -/
def rowPayloads (s : State) (band row k cw : Nat) : List Payload :=
  (dataPos (parityCount s) (bandAt s band).active band row).map (fun pos => placePayload s band row pos k cw)

/-- The four codewords of a row's P or Q page (R172, R235). -/
def parityCws (s : State) (band row k : Nat) (isQ : Bool) : List Cw :=
  (List.range 4).map (fun c =>
    .bytes (if isQ then payloadQ 0 (rowPayloads s band row k c) else payloadP (rowPayloads s band row k c)))

/-- Can the page of a place be read: programmed, its carrier live, its rebuild past the row? A held P page counts (R249). -/
def readable (s : State) (band row pos k cw : Nat) : Bool :=
  match pageAt s band row pos k with
  | some p => match p.st with
    | .passed => posCarried s pos && rebuiltBelow s band pos row
    | .held => heldCw s band row p.ch cw
    | _ => false
  | none => false

/-- Erasures of a row at a channel position and codeword (R249). -/
def erasures (s : State) (band row k cw : Nat) : Nat :=
  ((bandAt s band).active.filter (fun p => !readable s band row p k cw && !padPlace s band row p k)).length

/-- Does a row meet the parity condition at every channel position (R238)? -/
def rowParity (s : State) (band row : Nat) : Bool :=
  (parPos (parityCount s) (bandAt s band).active band row).all (fun pos => (List.range 4).all (fun k =>
    !posCarried s pos || match pageAt s band row pos k with
      | some p => match p.st with
        | .passed => true
        | .held => true
        | .gone => p.src = .parityQ
        | _ => false
      | none => false))

/-- The targets fitted on a port's four channels, as (channel, target). -/
def fittedOn (s : State) (m : Nat) : List (Nat × Nat) :=
  (List.range 4).flatMap (fun k => ((List.range 32).filter (bitAt (mgetD s.flc.fitted (4 * m + k) 0))).map (fun t => (4 * m + k, t)))

/-- Targets fitted on a port's four channels (n_m of Table 4.3). -/
def diesOf (s : State) (m : Nat) : Nat := (fittedOn s m).length

/-- A figure that governs a member: that of its slowest fitted target (R166); `worse` picks between two figures. -/
def memberFig (s : State) (m : Nat) (worse : Nat → Nat → Nat) (f : Profile → Nat) : Nat :=
  match (fittedOn s m).map (fun x => f (pfAt s x.1 x.2)) with
  | [] => f s.flc.profile
  | x :: xs => xs.foldl worse x

/-- The least rated cycles of the targets fitted (R227). -/
def ratedCycles (s : State) (f : Profile → Nat) : Nat :=
  (((List.range 9).filter (fun m => !(fittedOn s m).isEmpty)).map (fun m => memberFig s m Nat.min f)).foldl Nat.min (f s.flc.profile)

/-- Total LBAs that map into a band (VALID of R215), by the map as applied. -/
def validOf (s : State) (band : Nat) : Nat :=
  (s.map.segs.map (fun p => ((segMapped (dOf s) s.map.pool p.2).filter (fun e => e.2.band = band)).length)).sum

/-- The link rate L of the keeper protocol in MB/s (R266): both ports in pair mode, port 0 alone in plane mode. -/
def fleetLink (s : State) : Nat :=
  let up := fun (p : FPort) => if p.st = .up ∧ !p.lost then 50000 else 0
  if bitAt (rg s FLT_CFG) 3 then up s.flt.ports.1 else up s.flt.ports.1 + up s.flt.ports.2

end Sys2Proof.Machine
end

