-- ==== Sys2Proof/Machine/Layouts.lean ====
section
/-! DEFINITION. The bytes that MAP, BND and FLC keep in MRAM and in the system bands: segment and granular entries, records of the delta
log and root blocks (Tables 5.1-5.6), band entries (Table 7.1), stamps (R193), the rebuild map (R252). -/

namespace Sys2Proof.Machine

/-- CRC-32C of bytes, bit by bit, least significant bit first. -/
def crc32cByte : Nat → Nat → Nat
  | 0, c => c
  | n + 1, c => crc32cByte n (if c % 2 = 1 then (c / 2) ^^^ 0x82F63B78 else c / 2)

def crc32c (bs : List Byte) : Nat := (bs.foldl (fun c b => crc32cByte 8 (c ^^^ b.toNat)) 0xFFFFFFFF) ^^^ 0xFFFFFFFF

/-! ### The map -/

/-- A segment entry (Table 5.1); `mapped`: LBAs mapped of a Granular one. -/
def segWord (g : Seg) (mapped : Nat) : Nat :=
  let x : Nat × Nat × Nat × Nat × Nat := match g.kind with
    | .unmapped => (0, 0, 0, 0, 0)
    | .extent fill band row slot => (1, fill, band, row, slot)
    | .granular ix => (2, mapped, ix, 0, 0)
    | .lost => (3, 0, 0, 0, 0)
  fields [(126, 2, x.1), (115, 11, g.nsid), (91, 24, g.nsseg), (78, 13, x.2.1), (58, 20, x.2.2.1), (42, 16, x.2.2.2.1), (36, 6, x.2.2.2.2),
    (0, 32, g.gen)]

/-- A codeword location (Table 5.2) with its TYPE and AUX. -/
def locWord (ty aux : Nat) (l : Loc) : Nat :=
  fields [(62, 2, ty), (44, 13, aux), (24, 20, l.band), (8, 16, l.row), (2, 6, l.slot), (0, 2, l.cw)]

/-- 4 KiB page n of the segment table: 256 entries. -/
def segPage (segs : AMap Seg) (pool : AMap (AMap Loc)) (n : Nat) : List Byte :=
  (List.range 256).flatMap (fun i =>
    let g := segAt segs (256 * n + i)
    le 16 (segWord g (match g.kind with | .granular ix => (mgetD pool ix []).length | _ => 0)))

/-- 4 KiB part n of a granular table: 512 entries, a Mapped one with its location. -/
def poolPage (pool : AMap (AMap Loc)) (table n : Nat) : List Byte :=
  (List.range 512).flatMap (fun i => match mget (mgetD pool table []) (512 * n + i) with
    | some l => le 8 (locWord 1 0 l)
    | none => le 8 0)

/-! ### The delta log -/

/-- Record type codes (Table 5.3). -/
def RecTy.code : RecTy → Nat
  | .pad => 0
  | .write => 1
  | .unmap => 2
  | .copy => 3
  | .lost => 4
  | .namespace_ => 5

/-- A run entry (Tables 5.4 and 5.5, R150). -/
def RunOp.bytes : RunOp → List Byte
  | .extentSet g first num loc => le 3 g ++ [1] ++ le 2 first ++ le 2 num ++ le 8 (locWord 0 0 loc)
  | .granularSet g first num loc => le 3 g ++ [2] ++ le 2 first ++ le 2 num ++ le 8 (locWord 0 0 loc)
  | .convert g pool fill loc => le 3 g ++ [3] ++ le 4 pool ++ le 8 (locWord 0 fill loc)
  | .unmap g first num => le 3 g ++ [4] ++ le 2 first ++ le 2 num ++ le 8 0
  | .lost g => le 3 g ++ [5] ++ le 2 0 ++ le 2 4096 ++ le 8 0
  | .nsGroup group nsid index num => le 3 (64 * group) ++ [6] ++ le 2 0 ++ le 2 num ++ le 8 (fields [(44, 11, nsid), (0, 20, index)])
  | .nsFree group => le 3 (64 * group) ++ [7] ++ le 2 0 ++ le 2 64 ++ le 8 0

/-- A record's bytes in the ring (Table 5.3). -/
def MapRec.bytes (r : MapRec) : List Byte :=
  let body := padTo (r.len - 8) (le 2 r.ty.code ++ le 2 (r.len / 16) ++ le 4 r.ops.length ++ le 8 r.accept ++ le 8 0
    ++ r.ops.flatMap RunOp.bytes)
  le 4 r.lsn ++ le 4 (crc32c body) ++ body

/-- The first 40 bytes of a root block (Table 5.6). -/
def rootBytes (c : Ckpt) : List Byte :=
  let at_ := match c.index.find? (fun e => e.1 = .index 0) with | some e => locWord 1 0 e.2 | none => 0
  let body := le 8 c.gen ++ le 8 c.replayLsn ++ le 8 c.replayAt ++ le 8 at_ ++ le 4 Config.mapFormat
  body ++ le 4 (crc32c body)

/-- A byte of the map delta log region (R147): root blocks A and B, then the ring; where nothing is written it is open. -/
def logByte (s : State) (o : Nat) : Byte :=
  if o < 8192 then
    let root := if (o / 4096 = 1) = s.map.inB then some s.map.ckpt else s.map.older
    match root with
    | some c => if o % 4096 < 40 then (rootBytes c).getD (o % 4096) 0 else Config.mramByte s.freeCtr o
    | none => Config.mramByte s.freeCtr o
  else match s.map.log.find? (fun r => r.lsn < s.map.durable && r.place ≤ o - 8192 && o - 8192 < r.place + r.len) with
    | some r => r.bytes.getD (o - 8192 - r.place) 0
    | none => Config.mramByte s.freeCtr o

/-! ### Bands -/

/-- Band state codes (Table 7.1). -/
def BandSt.code : BandSt → Nat
  | .free => 0
  | .erased => 1
  | .open_ => 2
  | .closed => 3
  | .awaiting => 4
  | .retired => 5

/-- A band state entry (Table 7.1). -/
def Band.bytes (e : Band) : List Byte :=
  let row := fun (f : Option (Nat × Nat)) => le 2 (match f with | some x => x.2 | none => 0)
  let ch := fun (f : Option (Nat × Nat)) => le 1 (match f with | some x => x.1 | none => 0xFF)
  layout 32 [(0, le 1 (fields [(0, 4, e.st.code), (4, 1, b2n e.early), (5, 1, b2n e.failed), (6, 1, b2n (e.st = .free && e.erasedAll))])),
    (2, le 2 (maskOf 9 e.active.contains)), (4, le 2 (fields [(12, 4, e.kind), (0, 12, e.stream)])),
    (6, le 2 (if e.st = .closed ∨ e.st = .awaiting then e.endRow - 1 else 0)), (8, le 4 e.eraseCnt), (12, row e.failA), (14, ch e.failA),
    (15, ch e.failB), (16, le 8 e.openTime), (24, row e.failB)]

/-! ### Stamps and the rebuild map -/

/-- A stamp word (R193). -/
def stampWord : Option (Nat × Nat) → Nat
  | some x => fields [(28, 4, x.1), (0, 28, x.2)]
  | none => 0xFFFFFFFF

/-- 4 KiB page n of the stamp table: 16 bands of 64 stamps. -/
def stampPage (stamps : AMap (AMap (Nat × Nat))) (n : Nat) : List Byte :=
  (List.range 1024).flatMap (fun i => le 4 (stampWord (mget (mgetD stamps (16 * n + i / 64) []) (i % 64))))

/-- 4 KiB page n of the rebuild map: one bit per band number (R252). -/
def rebuildPage (marked : List Nat) (n : Nat) : List Byte :=
  (List.range 4096).map (fun i => toByte (maskOf 8 (fun b => marked.contains (32768 * n + 8 * i + b))))

/-- A block of 4,096 bytes from its bytes. -/
def blockOf (bs : List Byte) : Block := BitVec.ofNat 32768 (leNat (padTo 4096 bs))

end Sys2Proof.Machine
end

