-- ==== Sys2Proof/Machine/SysPages.lean ====
section
/-! DEFINITION. What pages of the system bands hold (R225): the content of an item, fixed for the running checkpoint as its page is sealed
(R153, R154), the items that wait, and items written again (R241). -/

namespace Sys2Proof.Machine

/-- Is an item a checkpoint's, not an image slot's? -/
def SysItem.isCkpt : SysItem → Bool
  | .image _ _ => false
  | _ => true

/-- Is an item a page of the checkpoint index? -/
def SysItem.isIndex : SysItem → Bool
  | .index _ => true
  | _ => false

/-- Is an item a page of an image slot? -/
def SysItem.ofSlot (slot : Nat) : SysItem → Bool
  | .image x _ => x = slot
  | _ => false

/-- A map with the entries at some keys taken from a newer one. -/
def refreshKeys {α : Type} (p : Nat → Bool) (old new : AMap α) : AMap α :=
  (new.filter (fun e => p e.1)).foldl (fun m e => mput m e.1 e.2) (old.filter (fun e => !p e.1))

/-- The checkpoint with an item as it stands now. -/
def capture (s : State) (c : Ckpt) : SysItem → Ckpt
  | .seg n => { c with segs := refreshKeys (fun g => g / 256 = n) c.segs s.map.segs }
  | .pool t n => { c with pool := mput c.pool t (refreshKeys (fun i => i / 512 = n) (mgetD c.pool t []) (mgetD s.map.pool t [])) }
  | .stamps n => { c with stamps := refreshKeys (fun b => b / 16 = n) c.stamps s.flc.stamps }
  | .rebuild n => { c with rebuildMap := c.rebuildMap.filter (fun b => b / 32768 ≠ n)
      ++ (match s.mbr.rebuild with | some r => r.marked.filter (fun b => b / 32768 = n) | none => []) }
  | .smart => { c with smart := s.lnt.smart }
  | .dir n => if n = 0 then { c with dir := s.map.dir } else c
  | .index _ => c
  | .image _ _ => c

/-- The content of an item, as Tables 5.1 and 5.2, R193 and R252 lay it out; the others' is open. -/
def itemBlock (s : State) (c : Ckpt) : SysItem → Block
  | .seg n => blockOf (segPage c.segs s.map.pool n)
  | .pool t n => blockOf (poolPage c.pool t n)
  | .stamps n => blockOf (stampPage c.stamps n)
  | .rebuild n => blockOf (rebuildPage c.rebuildMap n)
  | _ => Config.systemBlock s.freeCtr

/-- Fix the content of an item that has none yet. -/
def fixItem (x : SysCw) (s : State) : SysCw × State :=
  if x.data.isSome then (x, s)
  else
    let c := capture s (s.map.running.getD {}) x.item
    ({ x with data := some (itemBlock s c x.item) },
      drawFree { s with map := { s.map with running := s.map.running.map (fun r => capture s r x.item) } })

/-- Fix the contents of items. -/
def fixItems : List SysCw → State → List SysCw × State
  | [], s => ([], s)
  | x :: xs, s =>
    let a := fixItem x s
    let b := fixItems xs a.2
    (a.1 :: b.1, b.2)

/-! ### What waits -/

/-- The items of the pages of system bands whose rows do not meet R238 yet. -/
def waitItems (s : State) : List SysCw := s.bnd.sysWait.flatMap (fun k => ((mget s.bnd.pages k).elim [] Page.items))

/-- Is an item of the running checkpoint? -/
def SysCw.mine (x : SysCw) : Bool := x.item.isCkpt && x.from_.isNone

/-- Has the running checkpoint items that are not placed, or items whose content is not fixed? -/
def ckptUnplaced (s : State) : Bool := s.bnd.sysTodo.any SysCw.mine
def ckptUnfixed (s : State) : Bool := (s.bnd.sysTodo ++ waitItems s).any (fun x => x.data.isNone)

/-- Is every page of the running checkpoint written, its row meeting R238 by program status (R241)? -/
def ckptWritten (s : State) : Bool := !(s.bnd.sysTodo ++ waitItems s).any SysCw.mine

/-- Do system bands work: the unit is formatted and its bands have been read (Table 7.5)? -/
def sysRuns (s : State) : Bool :=
  s.mbr.formatted && (s.bnd.ready || (s.cst.mode = .loader && s.cpx.ledgersOn && s.cst.osSlot = 0))

/-- A commit's image goes into the system bands under a slot number 8 higher until it is stored (R377). -/
def imageDraft (slot : Nat) : Nat := slot + 8

/-- Are pages of an image being committed still to be written? -/
def imageWaits (s : State) (slot : Nat) : Bool := (s.bnd.sysTodo ++ waitItems s).any (fun x => x.item.ofSlot (imageDraft slot))

/-- Queue the pages of an image that is committed to a slot (R225). -/
def imageQueue (slot : Nat) (bs : List Byte) (s : State) : State :=
  if !sysRuns s ∨ slot < 4 then s
  else { s with bnd := { s.bnd with sysTodo := s.bnd.sysTodo ++ (List.range (cdiv bs.length 4096)).map (fun i =>
    { item := .image (imageDraft slot) i, data := some (blockOf ((bs.drop (4096 * i)).take 4096)) }) } }

/-- An item under the slot of its image: `stored` says whether the commit stored it. -/
def SysItem.settle (slot : Nat) (stored : Bool) (x : SysItem) : Option SysItem :=
  match x with
  | .image n i => if n = imageDraft slot then (if stored then some (.image slot i) else none)
      else if n = slot ∧ stored then none else some x
  | _ => some x

/-- A commit has ended: its image is the slot's, or its pages are dropped. -/
def imageSettle (slot : Nat) (stored : Bool) (s : State) : State :=
  { s with bnd := { s.bnd with
      sysAt := s.bnd.sysAt.filterMap (fun e => (e.1.settle slot stored).map (fun x => (x, e.2)))
      sysTodo := s.bnd.sysTodo.filterMap (fun e => (e.item.settle slot stored).map (fun x => { e with item := x })) } }

/-- The content of a codeword of a system band. -/
def sysContent (s : State) (l : Loc) : Option Block :=
  let at_ := slotPlace s l.band l.row l.slot
  match (pageAt s l.band l.row at_.1 at_.2).bind (fun p => p.cws[l.cw]?) with
  | some (.data _ _ _ _ _ b) => some b
  | _ => none

/-- The newest copy of an item. -/
def sysFind (s : State) (x : SysItem) : Option Loc := (s.bnd.sysAt.find? (fun e => e.1 = x)).map (·.2)

/-- Items of a page are to be written again into the next system band (R241): the checkpoint's index follows anew. -/
def sysBack (key : Nat) (s : State) : State :=
  let l := (mget s.bnd.pages key).elim [] Page.items
  if l.isEmpty then s
  else
    let again := l.filter (fun x => !x.item.isIndex)
    { s with
      bnd := { s.bnd with
        pages := mupd s.bnd.pages key (fun p => { p with items := [] })
        sysWait := dropFrom s.bnd.sysWait key
        sysTodo := again ++ s.bnd.sysTodo.filter (fun x => !x.item.isIndex) }
      map := { s.map with running := s.map.running.map (fun c => { c with stage := Nat.min c.stage 3 }) } }

end Sys2Proof.Machine
end

