-- ==== Sys2Proof/Machine/StmCore.lean ====
section
/-! DEFINITION. STM: stream contexts, the ceilings (R109, R291), admission (R111, R112), scaling (R116, R117), staging (R115)
and frame markers (R118, R119) of 04_capture_streams.md. -/

namespace Sys2Proof.Machine

/-- A stream context; a stream that no entry lists is Closed. -/
def streamAt (s : State) (i : Nat) : Stream := mgetD s.stm.streams i {}

/-- Change a stream context. -/
def setStream (i : Nat) (f : Stream → Stream) (s : State) : State :=
  { s with stm := { s.stm with streams := mput s.stm.streams i (f (streamAt s i)) } }

/-- Is a stream Admitted, or Releasing with a reservation (R103)? -/
def Stream.holds (t : Stream) : Bool := t.st = .admitted || (t.st = .releasing && t.reserved)

/-- STAGE committed in the reserved pool: a stream that lost its admission keeps its own until its staged data has drained (R115,
R116). -/
def stageSum (s : State) (but : Nat) : Nat := ((s.stm.streams.filter (fun p => p.1 ≠ but)).map (fun p => p.2.stage)).sum

/-- Streams that hold a reservation. -/
def holders (s : State) : List (Nat × Stream) := s.stm.streams.filter (fun p => p.2.holds)

/-- The tick length used in conversions: P, or L once frame-locked (R39, R105). -/
def tickLen (s : State) : Nat :=
  if s.tck.source = 1 ∧ s.tck.frameL ≠ 0 then s.tck.frameL else 4000 * 2 ^ s.tck.period

/-- Slots per channel and tick (Table 2.1). -/
def slotsPerTick (period : Nat) : Nat := 3 * 2 ^ period

/-- Slot rate of a channel per second (σ of Table 4.3, R39). -/
def slotRate (s : State) : Nat :=
  if s.tck.source = 1 ∧ s.tck.frameT ≠ 0 then slotsPerTick s.tck.period * s.tck.frameN * 1000000000 / s.tck.frameT
  else 750000

/-- member_rate(m), in units of 0.125 MB/s (R109). -/
def memberRate8 (s : State) (m : Nat) : Nat :=
  Nat.min (diesOf s m * memberFig s m Nat.min (·.fillRate)) (4 * slotRate s * 4096 * 8 / 1000000)

/-- base of R109, in units of 0.125 MB/s. -/
def base8 (s : State) : Nat :=
  let live := livePositions s
  let rates := live.filterMap (fun p => (posPort s p).map (memberRate8 s))
  match rates with
  | [] => 0
  | r :: rs => (live.length - parityCount s) * rs.foldl Nat.min r

/-- reduction(T) of R109, in units of 0.25 %: at most 400. -/
def reduction400 (s : State) (t : Nat) : Nat := Nat.min 400 (fld s THM_CFG 22 16 * (t - fld s THM_CFG 7 0))

/-- The temperature at which C_keep is taken: max(T_adm, T_thr + step). -/
def keepTemp (s : State) : Nat := Nat.max (fld s STM_ADM_TEMP 7 0) (fld s THM_CFG 7 0 + s.thm.step)

/-- base × (1 − reduction(T)) − A_rc in MB/s, not below zero. -/
def ceilingAt (s : State) (t : Nat) : Nat := base8 s * (400 - reduction400 s t) / 400 / 8 - fld s STM_RECLAIM_ALLOW 16 0

/-- C_keep (R109). -/
def cKeep (s : State) : Nat := ceilingAt s (keepTemp s)

/-- C_adm (R109): A_rb counts only while a member is Rebuilding. -/
def cAdm (s : State) : Nat :=
  ceilingAt s (fld s STM_ADM_TEMP 7 0) - (if s.mbr.rebuild.isSome then fld s STM_REBUILD_ALLOW 16 0 else 0)

/-- C_fleet (R291) with KEEP_STREAM scaled by num / den; 0 for a unit in no group. -/
def cFleetAt (s : State) (num den : Nat) : Nat :=
  if s.flt.n = 0 then 0
  else
    let m := Nat.max 1 s.flt.m
    let keep := (streamAt s s.flt.keepStream).rate * num / Nat.max 1 den
    Nat.min (Nat.min (cKeep s / (1 + m)) (fleetLink s / (2 * m))) (keep / m)

/-- C_fleet now. -/
def cFleet (s : State) : Nat := cFleetAt s s.stm.fNum s.stm.fDen

/-- Sum of RATE over streams. -/
def rateSum (l : List (Nat × Stream)) : Nat := (l.map (fun p => p.2.rate)).sum

/-- The hold margin in MiB (R108): RATE × HOLD_MARGIN × P, rounded up. -/
def holdMargin (s : State) (rate : Nat) : Nat := cdiv (rate * fld s STM_CFG 23 16 * tickLen s) (1000 * 1048576)

/-- Dedicated open bands of a rate (Table 4.1). -/
def bandsFor (rate : Nat) : Nat := cdiv rate 5000

/-- The checks of admit() of R111, leaving the stream's own values out of the sums; 0: admitted. -/
def admitCheck (s : State) (i rate burst : Nat) : Nat :=
  let others := (holders s).filter (fun p => p.1 ≠ i)
  let stage := burst + holdMargin s rate
  if s.tck.source = 1 ∧ !s.tck.fsyncEver then Ev.STM_FRAME_NOT_LOCKED
  else if cAdm s < rateSum others + rate then Ev.STM_CEILING_EXCEEDED
  else if (streamAt s i).fleet ∧ cFleet s < rateSum (others.filter (fun p => p.2.fleet)) + rate then
    Ev.STM_FLEET_CEILING_EXCEEDED
  else if (fld s STM_STAGING_CFG 4 0 - fld s STM_STAGING_CFG 12 8) * 1024 < stageSum s i + stage then
    Ev.STM_STAGING_EXCEEDED
  else if 64 - fld s STM_CFG 11 8 < (others.map (fun p => p.2.bands)).sum + bandsFor rate then Ev.STM_BANDS_EXCEEDED
  else 0

/-- Ask the coordinator for a new characteristic table (R44). -/
def wantTable (s : State) : State := { s with tck := { s.tck with tableWanted := true } }

/-- The factor f of scale() for a set of streams, as a fraction (R116, R291). -/
def scaleFactor (s : State) (l : List (Nat × Stream)) : Nat × Nat :=
  let sum := rateSum l
  let f := if sum ≤ cKeep s then (1, 1) else (cKeep s, sum)
  let fleet := rateSum (l.filter (fun p => p.2.fleet))
  let cf := cFleetAt s f.1 f.2
  if fleet = 0 ∨ fleet * f.1 ≤ cf * f.2 then f else (cf, fleet)

/-- The loop of scale(): the streams that fall below MIN_RATE are dropped one at a time, highest ID first; a Releasing
stream is never dropped (R116). -/
def scaleLoop (s : State) : Nat → List (Nat × Stream) → List Nat → (Nat × Nat) × List Nat
  | 0, l, gone => (scaleFactor s l, gone)
  | fuel + 1, l, gone =>
    let f := scaleFactor s l
    match (l.filter (fun p => p.2.st = .admitted && p.2.rate * f.1 < p.2.minRate * f.2)).getLast? with
    | none => (f, gone)
    | some p => scaleLoop s fuel (l.filter (fun q => q.1 ≠ p.1)) (gone ++ [p.1])

/-- A stream loses its admission (R116): its STAGE stays until its staged data has drained. A RESERVE of it that still waits for its
table ends with STM_ADMISSION_LOST (log entry 76). -/
def dropStream (i : Nat) (s : State) : State :=
  let left := 0 < mgetD s.stm.staged i 0
  let s := setStream i (fun t => { t with st := .open_, reserved := false, wOn := false, rate := 0, effRate := 0, bands := 0, scaled := false
                                          stage := if left then t.stage else 0 }) s
  let mine := s.stm.waitTable.filter (fun w => w.2.2 = i && (match w.1 with | .admin cid => decide (cid < 65536) | _ => true))
  let s := { s with stm := { s.stm with waitTable := s.stm.waitTable.filter (fun w => w.2.2 ≠ i) } }
  if mine.isEmpty then raise Ev.STM_ADMISSION_LOST (le 2 i) s
  else forAll mine (fun w => complete w.1 w.2.1 Ev.STM_ADMISSION_LOST [1] []) s

/-- Recompute the scaling after any change of C_keep, C_fleet or the admitted sum: only where f falls are streams dropped (R116, R117). -/
def rescale (s : State) : State :=
  let l := holders s
  let whole := scaleFactor s l
  let r := if whole.1 * s.stm.fDen < s.stm.fNum * whole.2 then scaleLoop s l.length l [] else (whole, [])
  let f := r.1
  let falls := f.1 * s.stm.fDen < s.stm.fNum * f.2
  let rises := s.stm.fNum * f.2 < f.1 * s.stm.fDen
  let s1 := forAll r.2 dropStream s
  let s2 := { s1 with stm := { s1.stm with fNum := f.1, fDen := f.2
                                           streams := s1.stm.streams.map (fun p => if p.2.holds then
      (p.1, { p.2 with effRate := p.2.rate * f.1 / f.2, scaled := f.1 < f.2
                       scaleEvents := p.2.scaleEvents + b2n falls }) else p) } }
  let s3 := if falls then bump STM_SCALE_CNT (raise Ev.STM_RESERVATION_SCALED (le 4 (65536 * f.1 / f.2)) s2) else s2
  let s4 := if rises ∧ f.2 ≤ f.1 then raise Ev.STM_RESERVATION_RESTORED [] s3 else s3
  let s5 := if falls ∨ !r.2.isEmpty ∨ (rises ∧ f.2 ≤ f.1) then asyncEvent 7 2 0xC2 s4 else s4
  if falls ∨ rises ∨ !r.2.isEmpty then wantTable s5 else s5

/-! ### Staging -/

/-- Bytes of staging a command's data takes. -/
def IoCmd.bytes (c : IoCmd) : Nat := c.nlb * 4096

/-- Does a Write draw on its stream's own STAGE: Admitted, or Releasing and handed over before the request (R115)? -/
def ownStage (s : State) (i : Nat) (sl : Slot) : Bool :=
  let t := streamAt s i
  t.st = .admitted || (t.st = .releasing && t.reserved && sl.reserved)

/-- Bytes staged now for a stream's own STAGE. -/
def stagedOwn (s : State) (i : Nat) : Nat := mgetD s.stm.staged i 0

/-- Key of the best-effort pool in `Stm.staged`. -/
def bePool : Nat := 4096

/-- Is there room in staging for a command's data (R115)? -/
def stagingFits (s : State) (i : Nat) (sl : Slot) : Bool :=
  if ownStage s i sl then stagedOwn s i + sl.cmd.bytes ≤ (streamAt s i).stage * 1048576
  else mgetD s.stm.staged bePool 0 + sl.cmd.bytes ≤ fld s STM_STAGING_CFG 12 8 * 1073741824

/-- Add to or take from a staging account. -/
def addStaged (k : Nat) (n : Nat) (s : State) : State :=
  { s with stm := { s.stm with staged := mput s.stm.staged k (mgetD s.stm.staged k 0 + n) } }

/-- Release staging: with its last staged data a stream that holds no reservation gives up its STAGE (R116). -/
def subStaged (k : Nat) (n : Nat) (s : State) : State :=
  let left := mgetD s.stm.staged k 0 - n
  let s := { s with stm := { s.stm with staged := mput s.stm.staged k left } }
  if k < bePool ∧ left = 0 ∧ !(streamAt s k).holds then setStream k (fun t => { t with stage := 0 }) s else s

/-! ### Frame markers -/

/-- Does a marker mode take frames from FSYNC (1 FSYNC, 3 BOTH) or MARK (2 MARK, 3 BOTH)? -/
def markerMode (mark : Bool) (mode : Nat) : Bool := if mark then mode = 2 || mode = 3 else mode = 1 || mode = 3

/-- Write a marker record and the producer index word, or drop the marker (R119, Table 4.4). -/
def writeMarker (i slba accept : Nat) (s : State) : State :=
  let t := streamAt s i
  match t.mkFrame with
  | none => s
  | some (frame, time, mark) =>
    let t := { t with mkFrame := none }
    let cons := leNat (readBytes s t.mkCons 4)
    if t.mkEntries ≤ (t.mkIx + 2 ^ 32 - cons) % 2 ^ 32 then
      let s := setStream i (fun _ => { t with markersDropped := t.markersDropped + 1, mkDropped := true }) s
      if t.mkDropped then s else raise Ev.STM_MARKER_DROPPED (le 2 i) s
    else
      let phase := b2n ((t.mkIx / Nat.max 1 t.mkEntries) % 2 = 0)
      let flags := phase * 128 + b2n t.mkDropped * 2 + b2n mark
      let bytes := le 8 frame ++ le 8 time ++ le 8 slba ++ le 2 i ++ [toByte flags, 0] ++ le 4 accept
      let ix := (t.mkIx + 1) % 2 ^ 32
      let s := writeBytes (t.mkBase + 32 * (t.mkIx % Nat.max 1 t.mkEntries)) bytes s
      setStream i (fun _ => { t with mkIx := ix, mkDropped := false, markers := t.markers + 1 })
        (writeBytes t.mkProd (le 8 ix) s)

/-- Open a frame of a stream (R118): the marker of an empty frame is written first; a new ring takes effect now. -/
def openFrame (i frame : Nat) (mark : Bool) (s : State) : State :=
  let s := writeMarker i 0xFFFFFFFFFFFFFFFF 0 s
  let t := streamAt s i
  let t := match t.mkNew with
    | some (mode, base, entries, prod, cons) =>
      { t with mkMode := mode, mkBase := base, mkEntries := entries, mkProd := prod, mkCons := cons, mkIx := 0, mkNew := none }
    | none => t
  setStream i (fun _ => if markerMode mark t.mkMode then { t with mkFrame := some (frame, s.tck.fleet, mark) } else t) s

end Sys2Proof.Machine
end

