-- ==== Sys2Proof/Machine/Bands.lean ====
section
/-! DEFINITION. BND: counts of bands, replacement of blocks, arming, opening and erase (07_bands_and_reclaim.md). -/

namespace Sys2Proof.Machine

/-- Listed user bands in a state. -/
def userIn (s : State) (st : BandSt) : List Nat :=
  (s.bnd.bands.filter (fun p => s.bnd.sysBands ≤ p.1 && p.1 < s.bnd.nsets * s.bnd.vb && p.2.st = st)).map (·.1)

/-- User bands that exist (R202). -/
def userBands (s : State) : Nat := s.bnd.nsets * s.bnd.vb - s.bnd.sysBands

/-- User bands in Free: those that no entry lists are Free. -/
def freeUser (s : State) : Nat :=
  userBands s - (s.bnd.bands.filter (fun p =>
    s.bnd.sysBands ≤ p.1 && p.1 < s.bnd.nsets * s.bnd.vb && p.2.st ≠ .free)).length

/-- FREE of R216: user bands in Free or Erased. -/
def freeCount (s : State) : Nat := freeUser s + (userIn s .erased).length

/-- MAP_SEG_LIMIT from the user bands not Retired (R202). -/
def segLimitOf (s : State) : Nat :=
  let g := userRows s * (4 * (positions s - parityCount s)) / 1024
  Nat.min 16777216 ((userBands s - (userIn s .retired).length) * g * (100 - fld s BND_CFG 15 8) / 100)

/-- Recompute MAP_SEG_LIMIT after a band is Retired (R202). -/
def lowerSegLimit (s : State) : State :=
  let s := { s with map := { s.map with segLimit := segLimitOf s } }
  if s.map.segLimit < segsAlloc s.map.dir then raise Ev.BND_CAPACITY_LOW [] s else s

/-- RETIRE (Table 6.7): the blocks of a band that FLC's table lists are Retired. -/
def retireBlocks (b : Nat) (s : State) : State :=
  forAll ((List.range 36).filter (fun ch => mhas s.flc.blocks (bandBlk s ch b))) (fun ch => setBlk ch b (fun x => { x with st := .retired })) s

/-- Retire a band for want of a spare (Table 7.3), its blocks with it. -/
def retireBand (b : Nat) (s : State) : State :=
  let s := retireBlocks b s
  lowerSegLimit (raise Ev.BND_BAND_RETIRED (le 4 b) (setBand b (fun e => { e with st := .retired })
    { s with bnd := { s.bnd with erasing := mdel s.bnd.erasing b
                                 arming := if s.bnd.arming = some b then none else s.bnd.arming
                                 sysArming := if s.bnd.sysArming = some b then none else s.bnd.sysArming } }))

/-- Take the next spare of the set for a band's block on a channel: a grown record, or the band is Retired (R201, R223). -/
def replaceBlk (ch b : Nat) (s : State) : State :=
  let set := setOf s b
  if sparesOf s ch set = 0 then retireBand b s
  else
    let old := physOf s ch set (virtOf s b)
    let s := settingsEntry { s with
      bnd := { s.bnd with grown := s.bnd.grown ++ [(ch, set, virtOf s b, old, spareOf s ch set)] } }
    if sparesOf s ch set = 8 then raise Ev.BND_SPARES_LOW [toByte ch, toByte set] s else s

/-- The channels on which a band that is armed or erased now has blocks: those of the live positions. -/
def liveChans (s : State) : List Nat :=
  (livePositions s).flatMap (fun p => match posPort s p with
    | some m => (List.range 4).map (4 * m + ·)
    | none => [])

/-- Queue the erase of a band's block on a channel in an M slot (R184). -/
def queueErase (b ch : Nat) (s : State) : State :=
  { s with tck := { s.tck with queue := s.tck.queue ++ [{ cls := .m, ch := ch, stream := 0, kind := .erase b, left := 1 }] } }

/-- Start erasing a band on channels: each is waited for. -/
def startErase (b : Nat) (chs : List Nat) (s : State) : State :=
  forAll chs (queueErase b) { s with bnd := { s.bnd with erasing := mput s.bnd.erasing b chs } }

/-! ### Wear (R227) -/

/-- Bands that are not Retired; `sys` picks system bands. -/
def wearBands (s : State) (sys : Bool) : Nat :=
  if sys then s.bnd.sysBands - (s.bnd.bands.filter (fun p => p.1 < s.bnd.sysBands && p.2.st = .retired)).length
  else userBands s - (userIn s .retired).length

/-- Sum and maximum of ERASE_CNT over bands that are not Retired; `sys` picks system bands. -/
def wearOf (s : State) (sys : Bool) : Nat × Nat :=
  let l := s.bnd.bands.filter (fun p => p.2.st ≠ .retired && (if sys then p.1 < s.bnd.sysBands else s.bnd.sysBands ≤ p.1))
  let fresh := wearBands s sys - l.length
  ((l.map (fun p => p.2.eraseCnt)).sum + fresh * s.bnd.freshCnt,
    l.foldl (fun m p => Nat.max m p.2.eraseCnt) (if fresh = 0 then 0 else s.bnd.freshCnt))

/-- Mean ERASE_CNT, rounded down. -/
def wearMean (s : State) (sys : Bool) : Nat := (wearOf s sys).1 / Nat.max 1 (wearBands s sys)

/-- Mean wear as a percentage of the rated cycles. -/
def wearPct (s : State) (sys : Bool) : Nat :=
  wearMean s sys * 100 / Nat.max 1 (ratedCycles s (if sys then (·.pslcPeLimit) else (·.peLimit)))

/-- Raise BND_WEAR_WARN and BND_WEAR_LIMIT once each (R227). -/
def wearCheck (s : State) : State :=
  let top := Nat.max (wearPct s false) (wearPct s true)
  let once := fun code (s : State) => if s.bnd.warned.contains code then s
    else raise code [] { s with bnd := { s.bnd with warned := s.bnd.warned ++ [code] } }
  doIf (100 ≤ top) (once Ev.BND_WEAR_LIMIT) (doIf (90 ≤ top) (once Ev.BND_WEAR_WARN) s)

/-! ### Arming (R207) -/

/-- Bands of a target set in a state. -/
def onSet (s : State) (st : BandSt) (set : Nat) : Nat := ((userIn s st).filter (fun b => setOf s b = set)).length

/-- The first user band of a set that no entry lists. -/
def firstFresh (s : State) (set : Nat) : Option Nat :=
  let n := Nat.max 1 s.bnd.nsets
  ((List.range (s.bnd.bands.length + s.bnd.sysBands / n + 2)).map (fun i => set + n * i)).find? (fun b =>
    s.bnd.sysBands ≤ b && b < s.bnd.nsets * s.bnd.vb && !mhas s.bnd.bands b)

/-- The Free user bands that arm() can choose: every listed one, and the first that no entry lists of each set. -/
def armable (s : State) : List Nat := userIn s .free ++ (List.range s.bnd.nsets).filterMap (firstFresh s)

/-- The key of arm(), its fields compared in order. -/
def armKey (s : State) (b : Nat) : List Nat :=
  [onSet s .erased (setOf s b), onSet s .open_ (setOf s b), (bandAt s b).eraseCnt, 1 - b2n (bandAt s b).erasedAll, b]

/-- Field by field comparison. -/
def lexLt : List Nat → List Nat → Bool
  | a :: as, b :: bs => a < b || (a = b && lexLt as bs)
  | _, _ => false

/-- The band with the smallest key. -/
def lexMin (key : Nat → List Nat) : List Nat → Option Nat
  | [] => none
  | x :: xs => match lexMin key xs with
    | none => some x
    | some y => if lexLt (key y) (key x) then some y else some x

/-- A band becomes Erased, ACTIVE written (Table 7.3). -/
def armed (b : Nat) (s : State) : State :=
  setBand b (fun e => { e with st := .erased, active := livePositions s, erasedAll := true })
    { s with bnd := { s.bnd with arming := if s.bnd.arming = some b then none else s.bnd.arming
                                 sysArming := if s.bnd.sysArming = some b then none else s.bnd.sysArming
                                 erasing := mdel s.bnd.erasing b } }

/-- Erase the blocks of a band not held Erased on the channels of the live positions, or arm it at once where none is. -/
def armBand (b : Nat) (s : State) : State :=
  let chs := (liveChans s).filter (fun ch => (blkOf s ch b).st ≠ .erased)
  let s := { s with bnd := if b < s.bnd.sysBands then { s.bnd with sysArming := some b } else { s.bnd with arming := some b } }
  if chs.isEmpty then armed b s else startErase b chs s

/-- Arm the first Free user band where the Erased bands fall short (R207). -/
def armStep (s : State) : State :=
  if s.bnd.arming.isSome ∨ (userIn s .open_).length + fld s BND_CFG 7 4 ≤ (userIn s .erased).length then s
  else match lexMin (armKey s) (armable s) with
    | some b => armBand b s
    | none => s

/-! ### Opening (R209) -/

/-- The share of the reserved rate that an Open band carries. -/
def bandShare (s : State) (b : Nat) : Nat :=
  let e := bandAt s b
  if e.kind = 1 then (streamAt s e.stream).rate / Nat.max 1 (streamAt s e.stream).bands else 0

/-- The reserved load of a set. -/
def setLoad (s : State) (set : Nat) : Nat :=
  (((userIn s .open_).filter (fun b => setOf s b = set)).map (bandShare s)).sum

/-- place() of R209: the Erased band for a share, and whether every set would be overloaded. -/
def placeBand (s : State) (share : Nat) : Option (Nat × Bool) :=
  let rate := base8 s / 8 / Nat.max 1 s.bnd.nsets
  let all := (userIn s .erased).filter (fun b => !mhas s.bnd.erasing b)
  let fit := all.filter (fun b => setLoad s (setOf s b) + share ≤ rate)
  let key := fun b => [setLoad s (setOf s b), onSet s .open_ (setOf s b), (bandAt s b).eraseCnt, b]
  (lexMin key (if fit.isEmpty then all else fit)).map (fun b => (b, fit.isEmpty))

/-- Page slots of a band after its last run. -/
def bandRoom (s : State) (b : Nat) : Nat := bandRows s b * dOf s b - (mgetD s.bnd.opens b {}).next

/-- The band of a stream that the next one succeeds (R210): one with fewer than 2,048 free page slots after its last run and no successor. -/
def succeeds (s : State) (stream : Nat) : Option Nat :=
  ((s.bnd.opens.filter (fun p => (bandAt s p.1).kind = 1 && (bandAt s p.1).stream = stream && bandRoom s p.1 < 2048
    && !(s.bnd.opens.any (fun q => q.2.after = some p.1)))).map (·.1)).head?

/-- Open a band for a writer (R209): OWNER is written; once BND_FREE_MIN is raised, until FREE is restored, a shared band takes no best-effort
page (R217). -/
def openBand (kind stream : Nat) (s : State) : State :=
  let t := streamAt s stream
  match placeBand s (if kind = 1 then t.rate / Nat.max 1 t.bands else 0) with
  | none => s
  | some (b, over_) =>
    let be := !s.bnd.withheld && fld s BND_FREE_LOW 31 16 < freeCount s
    let prev := if kind = 1 then succeeds s stream else none
    let s := if over_ then bump BND_OVERLOAD_CNT (raise Ev.BND_SET_OVERLOAD (le 4 b) s) else s
    setBand b (fun e => { e with st := .open_, kind := kind, stream := stream, early := false, failed := false
                                 erasedAll := false, openTime := 0 })
      { s with bnd := { s.bnd with opens := mput s.bnd.opens b { beOk := be, after := prev } } }

/-- The cursor of an Open band. -/
def openAt (s : State) (b : Nat) : OpenBand := mgetD s.bnd.opens b {}

/-- Change the cursor of an Open band. -/
def setOpen (b : Nat) (f : OpenBand → OpenBand) (s : State) : State :=
  { s with bnd := { s.bnd with opens := mupd s.bnd.opens b f } }

/-- Open bands of a kind and stream that are not being closed. -/
def opensOf (s : State) (kind stream : Nat) : List Nat :=
  (s.bnd.opens.filter (fun p => p.2.closeAt.isNone && (bandAt s p.1).kind = kind && (bandAt s p.1).stream = stream)).map (·.1)

/-- Does a Releasing stream still hold a Write of its reservation that has no place? -/
def releaseWaits (s : State) (i : Nat) : Bool :=
  s.hif.slots.any (fun p => p.2.cmd.kind = .write && p.2.started && p.2.stream = i && p.2.reserved && !p.2.placed)

/-- Do reclaim copies or the backlog of reservations need a shared band (R217)? -/
def sharedWanted (s : State) : Bool :=
  !s.bnd.victims.isEmpty || !s.bnd.copies.isEmpty || s.bnd.orphans.any (fun p => p.src ≠ .write || (streamAt s p.stream).holds)
    || s.tck.queue.any (fun o => o.stream ≠ 0 && (streamAt s o.stream).holds)

/-- Open what writers need: the dedicated bands of each stream that holds a reservation, with the successor of a band that
has fewer than 2,048 free page slots (R114, R210), and the shared bands (R209), from BND_FREE_MIN on for copies and backlog alone (R217). -/
def openStep (s : State) : State :=
  let s := forAll (holders s) (fun p s =>
    if (p.2.st = .admitted ∨ releaseWaits s p.1) ∧
        ((opensOf s 1 p.1).filter (fun b => 2048 ≤ bandRoom s b)).length < p.2.bands then openBand 1 p.1 s else s) s
  if s.mbr.formatted ∧ (!s.bnd.withheld ∨ sharedWanted s) ∧ ((opensOf s 0 0).filter (fun b => 0 < bandRoom s b)).length < fld s STM_CFG 11 8 then openBand 0 0 s
  else s

/-! ### FREE thresholds (R216, R217) -/

/-- Raise the events of FREE as it crosses its thresholds. -/
def freeCheck (s : State) : State :=
  if !s.bnd.ready then s
  else
    let free := freeCount s
    let s := if free ≤ fld s BND_FREE_LOW 15 0 ∧ !s.bnd.low then
      raise Ev.BND_FREE_LOW (le 4 free) { s with bnd := { s.bnd with low := true } } else s
    let s := if free ≤ fld s BND_FREE_LOW 31 16 ∧ !s.bnd.withheld then
      raise Ev.BND_FREE_MIN (le 4 free) { s with bnd := { s.bnd with withheld := true } } else s
    if fld s BND_FREE_HIGH 15 0 ≤ free ∧ (s.bnd.low ∨ s.bnd.withheld) then
      raise Ev.BND_FREE_RESTORED (le 4 free) { s with bnd := { s.bnd with low := false, withheld := false } }
    else s

/-! ### Erase of an AwaitingErase band (R218, R222, R223) -/

/-- Is a read of a band's pages outstanding? -/
def bandRead (s : State) (b : Nat) : Bool :=
  s.flc.reads.any (fun p => match mget s.bnd.pages p.2.page with
    | some g => g.band = b
    | none => false)

/-- Is a write or copy whose data is programmed in the band, though it may have been issued again elsewhere, still without a durable record? -/
def bandUnsettled (s : State) (b : Nat) : Bool :=
  s.bnd.pages.any (fun p => p.2.band = b && (p.2.was ++ p.2.lbas.map (·.1)).any (fun id =>
    match mget s.hif.slots id with
    | some sl => !(sl.formed && sl.lsn ≤ s.map.durable)
    | none => mhas s.bnd.copies id))

/-- The conditions of R218. -/
def mayAwait (s : State) (b : Nat) : Bool :=
  (bandAt s b).st = .closed && validOf s b = 0 && !(s.bnd.copies.any (fun p => p.2.victim = b)) && !bandUnsettled s b

/-- A Closed band enters AwaitingErase; its parity slot is freed, its rebuild mark clears (R240, R252). -/
def toAwaiting (b : Nat) (s : State) : State :=
  setBand b (fun e => { e with st := .awaiting })
    { s with mbr := { s.mbr with slots := mdel s.mbr.slots b
                                 rebuild := s.mbr.rebuild.map (fun r => { r with
                                   marked := dropFrom r.marked b, band := if r.band = some b then none else r.band }) } }

/-- A user band with VALID = 0 enters AwaitingErase. -/
def enterAwait (b : Nat) (s : State) : State :=
  let copied := s.bnd.victims.contains b
  let s := toAwaiting b { s with bnd := { s.bnd with victims := dropFrom s.bnd.victims b } }
  bump (if copied then BND_VICTIM_CNT else BND_ZERO_ERASE_CNT) s

/-- Move every Closed band that meets R218. -/
def awaitStep (s : State) : State :=
  if !s.bnd.ready then s else forAll (userIn s .closed) (fun b s => if mayAwait s b then enterAwait b s else s) s

/-- Plan the erase of AwaitingErase bands, user and system ones, whose reads have transferred (R223); a FAILED band first gets a grown
record for each block that R213 retired. -/
def eraseStep (s : State) : State :=
  if !s.bnd.ready then s
  else forAll ((s.bnd.bands.filter (fun p => p.2.st = .awaiting)).map (·.1)) (fun b s =>
    if mhas s.bnd.erasing b ∨ bandRead s b then s
    else
      let e := bandAt s b
      let bad := (e.failA.toList ++ e.failB.toList).map (·.1)
      let s := forAll bad.dedup (fun ch s => if (blkOf s ch b).st = .retired then replaceBlk ch b s else s) s
      if (bandAt s b).st = .awaiting then startErase b (liveChans s) s else s) s

/-- The pages of a band leave the model with its data. -/
def dropPages (b : Nat) (s : State) : State :=
  { s with bnd := { s.bnd with pages := s.bnd.pages.filter (fun p => p.2.band ≠ b) } }

/-- Every erase of a band has passed: an arming band, and an Erased band that a member joined, is Erased with ACTIVE written, an AwaitingErase band Free with DONE = 1 (Table 7.3). -/
def eraseDone (b : Nat) (s : State) : State :=
  if s.bnd.arming = some b ∨ s.bnd.sysArming = some b ∨ (bandAt s b).st = .erased then armed b s
  else if (bandAt s b).st = .awaiting then
    wearCheck (freeCheck (dropPages b (setBand b (fun e => { e with
      st := .free, erasedAll := true, eraseCnt := e.eraseCnt + 1, endRow := 0, failA := none, failB := none, failed := false
      early := false, kind := 0, stream := 0 })
      { s with bnd := { s.bnd with erasing := mdel s.bnd.erasing b }
               flc := { s.flc with stamps := mdel s.flc.stamps b } })))
  else { s with bnd := { s.bnd with erasing := mdel s.bnd.erasing b } }

/-- A band's erase on a channel has passed. -/
def erasePassed (b ch : Nat) (s : State) : State :=
  match mget s.bnd.erasing b with
  | none => s
  | some chs =>
    let left := dropFrom chs ch
    let s := { s with bnd := { s.bnd with erasing := mput s.bnd.erasing b left } }
    if left.isEmpty ∧ !s.thm.mramCut then eraseDone b s else s

/-- Erases that ended while MEM took no MRAM write (R407): their band state entries follow. -/
def erasedStep (s : State) : State :=
  forAll ((s.bnd.erasing.filter (fun p => p.2.isEmpty)).map (·.1)) eraseDone s

/-- A band's erase on a channel has failed: the block is retired and its replacement erased in its place (R207, R223). -/
def eraseFailed (b ch : Nat) (s : State) : State :=
  let s := replaceBlk ch b s
  if (bandAt s b).st = .retired then s else queueErase b ch s

/-! ### Victims (R216) -/

/-- Codewords that a Closed band can map. -/
def bandCap (s : State) (b : Nat) : Nat := 4 * (bandAt s b).endRow * dOf s b

/-- Does victim a come before b: FAILED, then VALID as a fraction of capacity, then OPEN_TIME, then number? -/
def victimBefore (s : State) (a b : Nat) : Bool :=
  let x := bandAt s a
  let y := bandAt s b
  if x.failed ≠ y.failed then x.failed
  else
    let l := validOf s a * bandCap s b
    let r := validOf s b * bandCap s a
    if l ≠ r then l < r else if x.openTime ≠ y.openTime then x.openTime < y.openTime else a < b

/-- The first victim among Closed bands. -/
def firstVictim (s : State) : List Nat → Option Nat
  | [] => none
  | b :: bs => match firstVictim s bs with
    | none => some b
    | some c => if victimBefore s c b then some c else some b

/-- The segments with mapped LBAs in a band: (first row, segment), to be copied in that order. -/
def victimSegs (s : State) (b : Nat) : List (Nat × Nat) :=
  s.map.segs.filterMap (fun p =>
    let rows := ((segMapped (dOf s) s.map.pool p.2).filter (fun e => e.2.band = b)).map (fun e => e.2.row)
    match rows with
    | [] => none
    | r :: rs => some (rs.foldl Nat.min r, p.1))

end Sys2Proof.Machine
end

