-- ==== Sys2Proof/Machine/Place.lean ====
section
/-! DEFINITION. Placing pages: page slots of Open bands, runs and extents (R137-R139), pages issued again (R27, R213, R239),
pads, the parity of a program group (R237), parity slots (R240) and early close (R212). -/

namespace Sys2Proof.Machine

/-- The slot class of a band's own pages: W for a dedicated band, M for a system band, else B (R212, R237). -/
def classOf (s : State) (b : Nat) : Cls :=
  match (bandAt s b).kind with
  | 1 => .w
  | 3 => .m
  | _ => .b

/-- Queue a waiting operation: parity ahead of the band's next data (R237). -/
def queueOp (first : Bool) (o : Op) (s : State) : State :=
  { s with tck := { s.tck with queue := if first then o :: s.tck.queue else s.tck.queue ++ [o] } }

/-- Note a staging or transfer in a channel's program unit (R181). -/
def touchUnit (b unit ch : Nat) (s : State) : State :=
  setOpen b (fun o => { o with waitFrom := mput o.waitFrom (64 * unit + ch) s.tck.tick }) s

/-- Place a page at a position and channel position of a row and queue its transfer: four slots (R33). -/
def putAt (first : Bool) (p : Page) (s : State) : State :=
  let unit := unitOf s p.band p.row
  let s := { s with bnd := { s.bnd with pages := mput s.bnd.pages (pageKey p.band p.row p.pos (p.ch % 4)) p } }
  queueOp first { cls := p.cls, ch := p.ch, stream := p.stream, kind := .prog (pageKey p.band p.row p.pos (p.ch % 4)), left := 4 }
    (touchUnit p.band unit p.ch s)

/-- Place a data page at linear page slot q of a band (R135, R137). -/
def putSlot (b q : Nat) (p : Page) (s : State) : State :=
  let d := Nat.max 1 (dOf s b)
  let pl := slotPlace s b (q / d) (q % d)
  putAt false { p with band := b, row := q / d, slot := q % d, pos := pl.1, ch := (chanOf s pl.1 pl.2).getD 0, st := .queued } s

/-- The next free page slot of a band: the unused slots of given-up runs first, then the slot after the last run. -/
def takeSlot (b : Nat) (s : State) : Option (Nat × State) :=
  let o := openAt s b
  match o.holes with
  | q :: rest => some (q, setOpen b (fun o => { o with holes := rest }) s)
  | [] =>
    if 0 < bandRoom s b then some (o.next, setOpen b (fun o => { o with next := o.next + 1 }) s) else none

/-- Does a band have a free page slot? -/
def hasSlot (s : State) (b : Nat) : Bool := !(openAt s b).holes.isEmpty || 0 < bandRoom s b

/-- The Open bands that can take a page of a kind, in the rotating order of R50. A best-effort page goes into no shared band
opened while FREE ≤ FREE_MIN (R217), and no page into a band that has lost a carrier and is being finished (R244). -/
def pageBands (s : State) (kind stream : Nat) (be : Bool) : List Nat :=
  let l := opensOf s kind (if kind = 1 then stream else 0)
  ((rotate s.tck.tick l.length).filterMap (fun i => l[i]?)).filter (fun b =>
    hasSlot s b && (!be || (openAt s b).beOk) && (bandAt s b).active.all (posCarried s))

/-- The page slot after the last run of a band (R139). -/
def slotAfter (b : Nat) (s : State) : Option (Nat × State) :=
  if 0 < bandRoom s b then some ((openAt s b).next, setOpen b (fun o => { o with next := o.next + 1 }) s) else none

/-- Place one page in the next band of its kind, if there is one. -/
def placePage (kind : Nat) (be : Bool) (p : Page) (s : State) : Option State :=
  match pageBands s kind p.stream be with
  | [] => none
  | b :: _ => match takeSlot b s with
    | some (q, s) => some (putSlot b q p s)
    | none => none

/-- Is a page's data a best-effort write's (R217)? -/
def bestEffort (s : State) (p : Page) : Bool := p.src = .write && !(streamAt s p.stream).holds

/-- Is the page carried in W slots: of a stream that holds a reservation and has a dedicated band? -/
def pageKind (s : State) (p : Page) : Nat :=
  if p.cls = .w ∧ (streamAt s p.stream).holds ∧ !(opensOf s 1 p.stream).isEmpty then 1 else 0

/-- Place the pages that wait to be issued again (R213, R27). A copy issued again raises BND_COPY_REISSUED (R214). -/
def orphanStep (s : State) : State :=
  let l := s.bnd.orphans
  forAll l (fun p s =>
    let kind := pageKind s p
    let q := { p with cls := if kind = 0 ∧ p.cls = .w then .b else p.cls }
    let after := fun (s : State) => match (pageBands s 1 p.stream false).find? (fun b => 0 < bandRoom s b) with
      | some b => (slotAfter b s).map (fun x => putSlot b x.1 q x.2)
      | none => none
    match (if kind = 1 then after s else placePage 0 (bestEffort s p) q s) with
    | some s => s
    | none => { s with bnd := { s.bnd with orphans := s.bnd.orphans ++ [p] } })
    { s with bnd := { s.bnd with orphans := [] } }

/-! ### Runs -/

/-- The linear page slot of a page in its band. -/
def Page.at_ (s : State) (p : Page) : Nat := p.row * dOf s p.band + p.slot

/-- Give up the run of a segment (R139): its unused slots go to the band's next data, the codewords that fill no page yet go to the next
free page slot. It stays until the records of its appends are formed. -/
def giveUpRun (gsn : Nat) (s : State) : State :=
  match mget s.map.runs gsn with
  | none => s
  | some r =>
    if !r.live then s
    else
      let used := (r.next - r.tail.length) / 4
      let taken := (s.bnd.pages.filter (fun p => p.2.band = r.band)).map (fun p => p.2.at_ s)
      let left := ((List.range (1024 - used)).map (fun i => r.start + used + i)).filter (fun q => !taken.contains q)
      let runs := if r.apps.isEmpty then mdel s.map.runs gsn else mput s.map.runs gsn { r with live := false, tail := [] }
      let s := setOpen r.band (fun o => { o with holes := o.holes ++ left }) { s with map := { s.map with runs := runs } }
      match r.tail with
      | [] => s
      | (id, _) :: _ =>
        let p : Page := { band := r.band, row := 0, slot := 0, pos := 0, ch := 0, src := .write, cls := .w, stream := r.stream
                          nsid := (mget s.hif.slots id).elim 0 (·.cmd.nsid), lbas := r.tail }
        orphanStep { s with bnd := { s.bnd with orphans := s.bnd.orphans ++ [p] } }

/-- An append of a run needs its place in the run order no longer (R139). -/
def dropApp (id : Nat) (s : State) : State :=
  let runs := s.map.runs.map (fun p => (p.1, { p.2 with apps := p.2.apps.filter (fun a => a.1 ≠ id) }))
  { s with map := { s.map with runs := runs.filter (fun p => !(p.2.apps.isEmpty && (!p.2.live || decide (4096 ≤ p.2.next)))) } }

/-- The live run, if any, whose reserved slots hold a page. -/
def runOfPage (s : State) (p : Page) : Option Nat :=
  match p.lbas with
  | [] => none
  | (_, lba) :: _ => match gsnOf s.map.dir p.nsid (lba / 4096) with
    | some g => match mget s.map.runs g with
      | some r => if r.live ∧ r.band = p.band ∧ r.start ≤ p.at_ s ∧ p.at_ s < r.start + 1024 then some g else none
      | none => none
    | none => none

/-- Take a page of a reservation that no slot has carried out of its dedicated band and into a shared band, as backlog in class B (R107,
R114): its place is free again, a run is given up there and the segment converts (R140). -/
def moveBacklog (key : Nat) (s : State) : State :=
  match mget s.bnd.pages key with
  | none => s
  | some p =>
    let q := p.at_ s
    let s := { s with tck := { s.tck with queue := s.tck.queue.filter (fun o => o.kind ≠ .prog key) }
                      bnd := { s.bnd with pages := mdel s.bnd.pages key } }
    let s := match runOfPage s p with
      | some g => giveUpRun g { s with map := { s.map with runs := mupd s.map.runs g (fun r => { r with
          next := 4 * (q - r.start) + r.tail.length }) } }
      | none => setOpen p.band (fun o => { o with holes := o.holes ++ [q] }) s
    orphanStep { s with bnd := { s.bnd with orphans := s.bnd.orphans ++ [{ p with cls := .b, st := .queued }] } }

/-- Take a page out of its place and issue it again elsewhere (R27, R213, R239); a run it belongs to is given up (R139).
`pad`: the place becomes a pad position, otherwise an erasure. -/
def reissue (pad : Bool) (key : Nat) (s : State) : State :=
  match mget s.bnd.pages key with
  | none => s
  | some p =>
    let s := { s with
      tck := { s.tck with queue := s.tck.queue.filter (fun o => o.kind ≠ .prog key) }
      bnd := { s.bnd with pages := mput s.bnd.pages key { p with
        st := .gone, lbas := [], src := if pad then .pad else p.src
        was := if p.st = .queued then p.was else (p.was ++ p.lbas.map (·.1)).dedup } } }
    let s := sysBack key s
    if p.lbas.isEmpty then s
    else
      let s := match p.src with
        | .copy _ => raise Ev.BND_COPY_REISSUED [] s
        | _ => s
      let s := { s with bnd := { s.bnd with orphans := s.bnd.orphans ++ [{ p with st := .queued }] } }
      match runOfPage s p with
      | some g => giveUpRun g s
      | none => s

/-! ### Pads -/

/-- Put a pad page (R173) at a data place of a row that has no page and can still be programmed. -/
def padAt (cls : Cls) (b row pos k : Nat) (s : State) : State :=
  if (pageAt s b row pos k).isSome ∨ deadPlace s b row pos k then s
  else match chanOf s pos k, placeSlot s b row pos k with
    | some ch, some slot =>
      bump (FLC_PAD_CNT ch) (putAt false { band := b, row := row, slot := slot, pos := pos, ch := ch, src := .pad, cls := cls
                                           stream := (bandAt s b).stream } s)
    | _, _ => s

/-- The data places (row, position, channel position) of rows [lo, hi) of a band. -/
def dataPlaces (s : State) (b lo hi : Nat) : List (Nat × Nat × Nat) :=
  (List.range (hi - lo)).flatMap (fun i =>
    (dataPos (parityCount s) (bandAt s b).active b (lo + i)).flatMap (fun pos => (List.range 4).map (fun k => (lo + i, pos, k))))

/-- Pad rows [lo, hi) of a band. -/
def padRows (b lo hi : Nat) (s : State) : State := forAll (dataPlaces s b lo hi) (fun x => padAt (classOf s b) b x.1 x.2.1 x.2.2) s

/-! ### Parity of a program group -/

/-- Have all data pages of a group been transferred, its dead places apart (R237)? -/
def groupData (s : State) (b unit : Nat) : Bool :=
  let u := unitPages s b
  (dataPlaces s b (unit * u) (unit * u + u)).all (fun x =>
    deadPlace s b x.1 x.2.1 x.2.2 || match pageAt s b x.1 x.2.1 x.2.2 with
      | some p => p.st = .transferred || p.st = .passed || p.st = .gone
      | none => false)

/-- Place a parity page, hold it in the band's parity slot, or leave it out: P and Q on a channel that failed (R240). -/
def parityAt (b row pos k : Nat) (isQ : Bool) (s : State) : State :=
  match chanOf s pos k with
  | none => s
  | some ch =>
    let src : PageSrc := if isQ then .parityQ else .parityP
    let p : Page := { band := b, row := row, slot := 63, pos := pos, ch := ch, src := src, cls := classOf s b
                      stream := (bandAt s b).stream }
    if !posCarried s pos then s
    else if (pageAt s b row pos k).any (fun q => q.st = .passed || q.st = .held) then s
    else if deadPlace s b row pos k then
      let p := { p with st := if !isQ && heldCw s b row ch 0 then .held else .gone, cws := parityCws s b row k isQ }
      { s with bnd := { s.bnd with pages := mput s.bnd.pages (pageKey b row pos k) p } }
    else putAt true p s

/-- Are data pages of a group of a band found Open still being read back for its parity (R212)? -/
def readsBack (s : State) (b unit : Nat) : Bool :=
  s.flc.reads.any (fun r => match r.2.use with
    | .readBack key _ => (mget s.bnd.pages key).any (fun p => p.band = b && p.row / Nat.max 1 (unitPages s b) = unit)
    | _ => false)

/-- A programmed data page that cannot be read back: an erasure of its row, of which parity holds nothing (R212). -/
def dropData (key : Nat) (s : State) : State :=
  { s with
    bnd := { s.bnd with pages := mupd s.bnd.pages key (fun p => { p with st := .gone, lbas := [], cws := [] }) }
    flc := { s.flc with reads := s.flc.reads.filter (fun r => match r.2.use with | .readBack k _ => k ≠ key | _ => true) } }

/-- Compute the parity pages of a group whose data pages have all been transferred, once (R237), those found programmed at a start read
back first (R212). -/
def parityStep (b unit : Nat) (s : State) : State :=
  if (openAt s b).parityDone.contains unit ∨ !mhas s.bnd.opens b ∨ !groupData s b unit ∨ readsBack s b unit then s
  else
    let u := unitPages s b
    let s := setOpen b (fun o => { o with parityDone := o.parityDone ++ [unit] }) s
    forAll (List.range u) (fun i s =>
      let row := unit * u + i
      let e := (bandAt s b).active
      let s := forAll (List.range 4) (fun k => parityAt b row (pPos e b row) k false) s
      if parityCount s = 2 then forAll (List.range 4) (fun k => parityAt b row (qPos e b row) k true) s else s) s

/-! ### Closing -/

/-- Programmed rows end here: the first row of the unit after the highest one begun on any channel (R212). -/
def closeRow (s : State) (b : Nat) : Nat := ((openAt s b).started.foldl (fun m p => Nat.max m p.2) 0) * unitPages s b

/-- Runs of a band that can still be appended to. -/
def runsIn (s : State) (b : Nat) : List Nat :=
  (s.map.runs.filter (fun p => p.2.band = b && p.2.live && decide (p.2.next < 4096))).map (·.1)

/-- Pages of a band that wait for their transfer at rows at or above a row. -/
def queuedFrom (s : State) (b row : Nat) : List Nat :=
  (s.bnd.pages.filter (fun p => p.2.band = b && row ≤ p.2.row && p.2.st = .queued)).map (·.1)

/-- Drop a page entry. -/
def dropPage (key : Nat) (s : State) : State := { s with bnd := { s.bnd with pages := mdel s.bnd.pages key } }

/-- Close an Open band early (R212): pads to the end of the highest unit begun, pages beyond it issued again; a band in which
no unit has been issued returns to Erased. -/
def closeEarly (b : Nat) (s : State) : State :=
  if (bandAt s b).st ≠ .open_ ∨ (bandAt s b).early then s
  else if !(openAt s b).issued then
    let keys := queuedFrom s b 0
    let s := { s with bnd := { s.bnd with opens := mupd s.bnd.opens b (fun o => { o with closeAt := some 0 }) } }
    let s := forAll (runsIn s b) giveUpRun s
    let s := forAll keys (reissue false) s
    let s := forAll keys dropPage s
    setBand b (fun e => { e with st := .erased, kind := 0, stream := 0, erasedAll := true })
      { s with bnd := { s.bnd with opens := mdel s.bnd.opens b } }
  else
    let e := closeRow s b
    let s := raise Ev.BND_EARLY_CLOSE (le 4 b) (bump BND_EARLY_CNT (setBand b (fun x => { x with early := true })
      (setOpen b (fun o => { o with closeAt := some e, holes := [] }) s)))
    let s := forAll (runsIn s b) giveUpRun s
    let keys := queuedFrom s b e
    let s := forAll keys (reissue false) s
    let s := forAll keys dropPage s
    let s := padRows b 0 e s
    orphanStep (forAll (List.range (e / Nat.max 1 (unitPages s b))) (parityStep b) s)

/-- Is nothing of a band left to transfer or to report status, and the parity of its rows below e computed? -/
def bandSettled (s : State) (b e : Nat) : Bool :=
  !(s.bnd.pages.any (fun p => p.2.band = b && p.2.row < e && (p.2.st = .queued || p.2.st = .transferred)))
    && (List.range (e / Nat.max 1 (unitPages s b))).all (fun k => (openAt s b).parityDone.contains k)

/-- Close a band whose last page has reported status: END_ROW, its blocks Full (Table 7.3, Table 6.7). -/
def finishBand (b : Nat) (s : State) : State :=
  if (bandAt s b).st ≠ .open_ ∨ s.thm.mramCut then s
  else
    let e := (openAt s b).closeAt.getD (bandRows s b)
    if ((openAt s b).closeAt.isNone && 0 < bandRoom s b) || !bandSettled s b e then s
    else
      let s := forAll (bandChans s b) (fun ch => setBlk ch b (fun x => if x.st = .retired then x else { x with st := .full })) s
      let s := doIf (bandAt s b).failed (bump BND_FAIL_CLOSE_CNT) s
      setBand b (fun x => { x with st := .closed, endRow := e })
        { s with bnd := { s.bnd with opens := mdel s.bnd.opens b } }

/-- A dedicated band that can take no further run is closed early, at the tick edge (R138, R212): its pages are all
transferred by then. -/
def closeStep (s : State) : State :=
  forAll (s.bnd.opens.map (·.1)) (fun b s =>
    let e := bandAt s b
    let done := bandRoom s b < 1024 && (runsIn s b).isEmpty && (queuedFrom s b 0).isEmpty
    if (e.kind = 1 ∧ (openAt s b).closeAt.isNone ∧ 0 < bandRoom s b ∧ done) ∨
        (e.kind = 1 ∧ !(streamAt s e.stream).holds ∧ (openAt s b).closeAt.isNone) then closeEarly b s
    else finishBand b s) s

/-! ### Failures -/

/-- Hold the P codewords that a failed channel cannot take, in rows [lo, hi), in the band's parity slot, or none of them
(R240); where none can be held, the writes of those rows are issued again. A system band has no parity slot (R241). -/
def holdParity (b ch lo hi : Nat) (s : State) : State :=
  let e := bandAt s b
  let rows := ((List.range (hi - lo)).map (lo + ·)).filter (fun r =>
    chanOf s (pPos e.active b r) (ch % 4) = some ch && (match pageAt s b r (pPos e.active b r) (ch % 4) with
      | some p => p.st ≠ .passed
      | none => true))
  if rows.isEmpty ∨ b < s.bnd.sysBands then s
  else
    let held := mgetD s.mbr.slots b []
    let fits := held.length + 4 * rows.length ≤ 15 ∧ (mhas s.mbr.slots b ∨ s.mbr.slots.length < 64)
    if fits then
      let new := rows.flatMap (fun r => (List.range 4).map (fun c => (r, ch, c)))
      let s := { s with mbr := { s.mbr with slots := mput s.mbr.slots b (held ++ new) } }
      let s := raise Ev.MBR_PARITY_HELD (le 4 b) (bumpBy MBR_HELD_CW_CNT new.length s)
      forAll rows (fun r s => if (openAt s b).parityDone.contains (unitOf s b r) then
        parityAt b r (pPos e.active b r) (ch % 4) false s else s) s
    else
      let keys := (s.bnd.pages.filter (fun p => p.2.band = b && rows.contains p.2.row && !p.2.lbas.isEmpty)).map (·.1)
      forAll keys (reissue false) (raise Ev.MBR_SLOT_FULL (le 4 b) s)

/-- A program unit has failed its status on a channel of a band (R177, R213, R239); the pages of a system band's rows that do not meet R238
are written again (R241). -/
def bandFail (b ch unit : Nat) (s : State) : State :=
  let e := bandAt s b
  let u := unitPages s b
  let row := unit * u
  let port := ch / 4
  let s := raise Ev.BND_BAND_FAILED (le 4 b ++ [toByte ch] ++ le 2 row) (bump (BND_Mm_PROG_FAIL port) s)
  let s := if e.early then s else bump (BND_Mm_EARLY port) s
  let s := forAll (s.bnd.sysWait.filter (fun k => (mget s.bnd.pages k).any (fun p => p.band = b && row ≤ p.row))) sysBack s
  if e.failA.isSome ∧ e.failB.isSome ∧ e.failA.map (·.1) ≠ some ch ∧ e.failB.map (·.1) ≠ some ch then
    -- a third failure ends the finishing at its failing unit
    let s := setOpen b (fun o => { o with closeAt := some row }) s
    let keys := (s.bnd.pages.filter (fun p => p.2.band = b && row ≤ p.2.row)).map (·.1)
    finishBand b (orphanStep (forAll keys dropPage (forAll keys (reissue false) s)))
  else
    let s := setBand b (fun x => { x with failed := true
                                          failA := if x.failA.isNone then some (ch, row) else x.failA
                                          failB := if x.failA.isSome ∧ x.failA.map (·.1) ≠ some ch ∧ x.failB.isNone
                                            then some (ch, row) else x.failB }) s
    let keys := (s.bnd.pages.filter (fun p => p.2.band = b && p.2.ch = ch && row ≤ p.2.row && p.2.st ≠ .passed
      && p.2.src ≠ .parityP && p.2.src ≠ .parityQ)).map (fun p => (p.1, p.2.row))
    let s := forAll keys (fun x => reissue (decide (row + s.flc.profile.tpb * u ≤ x.2)) x.1) s
    let par := (s.bnd.pages.filter (fun p => p.2.band = b && p.2.ch = ch && row ≤ p.2.row && p.2.st ≠ .passed
      && (p.2.src = .parityP || p.2.src = .parityQ))).map (·.1)
    let s := forAll par (fun k s => { s with
      bnd := { s.bnd with pages := mupd s.bnd.pages k (fun p => { p with st := .gone }) }
      tck := { s.tck with queue := s.tck.queue.filter (fun o => o.kind ≠ .prog k) } }) s
    let s := closeEarly b s
    orphanStep (holdParity b ch row ((openAt s b).closeAt.getD row) s)

/-- A carrier is lost: its position's Open bands are finished over the remaining positions and closed early (R244 step 3);
its places in rows whose parity is not computed become pad positions (R239), and the pages that they held, like its unpassed pages, are
issued again (R27). -/
def bandsLose (pos : Nat) (s : State) : State :=
  let bs := (s.bnd.opens.map (·.1)).filter (fun b => (bandAt s b).active.contains pos)
  let s := forAll bs (fun b s =>
    let un := (s.bnd.pages.filter (fun p => p.2.band = b && p.2.pos = pos)).map (fun p => (p.1, p.2))
    forAll un (fun x s =>
      let open_ := !(openAt s b).parityDone.contains (unitOf s b x.2.row)
      if x.2.st ≠ .passed ∨ open_ then reissue (open_ && x.2.src ≠ .parityP && x.2.src ≠ .parityQ) x.1 s
      else s) s) s
  let s := forAll bs closeEarly s
  orphanStep (forAll (userIn s .erased) (fun b => setBand b (fun e => { e with active := e.active.filter (· ≠ pos) })) s)

/-! ### Writes -/

/-- Is a Write carried in W slots: handed to STM under a reservation whose table runs (R28, R113)? -/
def inW (s : State) (sl : Slot) : Bool :=
  sl.reserved && (streamAt s sl.stream).holds && (streamAt s sl.stream).wOn

/-- Is an older Write to a segment without its record, so that a Write is not the segment's first (R138)? -/
def segBusy (s : State) (accept nsid j : Nat) : Bool :=
  s.hif.index.any (fun e => e.2.accept < accept && !e.2.zero && e.2.nsid = nsid && !e.2.formed && meets e.2.slba e.2.nlb (4096 * j) 4096)

/-- Put codewords at the end of a run: whole pages go to its slots in order (R139). -/
def runPages (gsn nsid : Nat) : Nat → State → State
  | 0, s => s
  | fuel + 1, s =>
    match mget s.map.runs gsn with
    | none => s
    | some r =>
      if r.tail.length < 4 then s
      else
        let p : Page := { band := r.band, row := 0, slot := 0, pos := 0, ch := 0, src := .write, cls := .w, stream := r.stream
                          nsid := nsid, lbas := r.tail.take 4 }
        let q := r.start + (r.next - r.tail.length) / 4
        runPages gsn nsid fuel (putSlot r.band q p { s with map := { s.map with
          runs := mput s.map.runs gsn { r with tail := r.tail.drop 4 } } })

/-- Append LBAs of a Write to a run. -/
def runAppend (gsn id nsid lba n : Nat) (s : State) : State :=
  let s := { s with map := { s.map with runs := mupd s.map.runs gsn (fun r => { r with
    next := r.next + n, since := s.tck.tick, apps := r.apps ++ [(id, lba % 4096, n)]
    tail := r.tail ++ (List.range n).map (fun i => (id, lba + i)) }) } }
  runPages gsn nsid 64 s

/-- May a dedicated band take runs: the one that it succeeds, if any, has transferred the last page of its last program unit (R210)? -/
def runsHere (s : State) (b : Nat) : Bool :=
  match (openAt s b).after with
  | none => true
  | some q => !mhas s.bnd.opens q || (((openAt s q).closeAt.isSome || bandRoom s q = 0) && (runsIn s q).isEmpty && (queuedFrom s q 0).isEmpty)

/-- The next dedicated band of a stream that can take a run, under R50. -/
def runBand (s : State) (stream : Nat) : Option Nat :=
  let l := opensOf s 1 stream
  ((rotate s.tck.tick l.length).filterMap (fun i => l[i]?)).find? (fun b =>
    1024 ≤ bandRoom s b && runsHere s b && (bandAt s b).active.all (posCarried s))

/-- Place the next codewords of a staged Write: n LBAs placed, or none where it must wait (R138, R139, R69). -/
def placePart (id : Nat) (sl : Slot) (s : State) : Option (Nat × State) :=
  let lba := sl.cmd.slba + sl.piece
  let off := lba % 4096
  let n := Nat.min (sl.cmd.nlb - sl.piece) (4096 - off)
  let four := Nat.min n 4
  let page : Page := { band := 0, row := 0, slot := 0, pos := 0, ch := 0, src := .write, cls := .b, stream := sl.stream
                       nsid := sl.cmd.nsid, lbas := (List.range four).map (fun i => (id, lba + i)) }
  let gran := fun (kind : Nat) (cls : Cls) (s : State) =>
    (placePage kind (kind = 0 && !(streamAt s sl.stream).holds) { page with cls := cls } s).map (fun s => (four, s))
  match gsnOf s.map.dir sl.cmd.nsid (lba / 4096) with
  | none => none
  | some g =>
    if !inW s sl then gran 0 .b s
    else match mget s.map.runs g with
      | some r =>
        if r.live ∧ r.stream = sl.stream ∧ off = r.next then some (n, runAppend g id sl.cmd.nsid lba n s)
        else if r.live ∧ r.stream = sl.stream ∧ r.next < off then none
        else gran 1 .w (giveUpRun g s)
      | none =>
        if off = 0 ∧ (streamAt s sl.stream).st = .admitted ∧ (segAt (formedView s).segs g).kind = .unmapped
            ∧ !segBusy s sl.accept sl.cmd.nsid (lba / 4096) then
          match runBand s sl.stream with
          | none => none
          | some b =>
            let start := (openAt s b).next
            let s := setOpen b (fun o => { o with next := o.next + 1024 }) { s with map := { s.map with
              runs := mput s.map.runs g { stream := sl.stream, band := b, start := start } } }
            some (n, runAppend g id sl.cmd.nsid lba n s)
        else gran 1 .w s

/-- Place as much of a staged Write as can be placed now. -/
def placeLoop : Nat → Nat → State → State
  | 0, _, s => s
  | fuel + 1, id, s =>
    match mget s.hif.slots id with
    | none => s
    | some sl =>
      if !sl.staged ∨ sl.placed ∨ sl.cmd.kind ≠ .write ∨ !sl.fleetReady then s
      else match placePart id sl s with
        | none => s
        | some (n, s) =>
          placeLoop fuel id { s with hif := { s.hif with slots := mupd s.hif.slots id (fun x => { x with
            piece := sl.piece + n, placed := decide (sl.cmd.nlb ≤ sl.piece + n) }) } }

/-- Place a staged Write: at most 66 pages. -/
def placeWrite (id : Nat) (s : State) : State := placeLoop 260 id s

/-- Place every staged Write that waits for a place. -/
def placeAll (s : State) : State :=
  forAll ((s.hif.slots.filter (fun p => p.2.cmd.kind = .write && p.2.staged && !p.2.placed)).map (·.1)) placeWrite s

end Sys2Proof.Machine
end

