-- ==== Sys2Proof/Machine/Members.lean ====
section
/-! DEFINITION. MBR: declaration of a carrier, rebuild, insertion and removal, power, unit format, MEMBER_MANAGE
(08_member_parity.md). -/

namespace Sys2Proof.Machine

/-- Member state codes (Table 8.6). -/
def PortSt.code : PortSt → Nat
  | .absent => 0
  | .present => 1
  | .active => 2
  | .failed => 3
  | .rebuilding => 4
  | .spare => 5
  | .fenced => 6

/-- The completion body of MEMBER_MANAGE (Table 8.15). -/
def memberBody (s : State) (m : Nat) (pending : Bool) : List Byte :=
  let p := portAt s m
  [toByte (if pending then 7 else p.st.code), toByte (p.position.getD 0xFF), toByte p.cause, 0] ++ le 4 p.gen

/-- The geometry that a format fixes (R166): that of the profile of the first fitted target of the assigned ports. -/
def formatProfile (s : State) (ports : List Nat) : Profile :=
  match ports.flatMap (fittedOn s) with
  | x :: _ => pfAt s x.1 x.2
  | [] => s.flc.profile

/-- The 64-byte port entry (Table 8.17). -/
def portEntry (s : State) (m : Nat) : List Byte :=
  let p := portAt s m
  let flags := 128 * b2n p.powered + 64 * b2n p.inserted + 32 * b2n p.fault + 16 * b2n p.unavailable
  layout 64 [(0, [toByte m, toByte p.st.code, toByte (p.position.getD 0xFF), toByte p.cause]), (4, le 4 p.gen), (8, le 16 p.serial),
    (24, le 2 (formatProfile s [m]).id), (26, le 2 (diesOf s m)), (28, [toByte (signed 8 p.temp), toByte flags]), (32, le 4 p.timeouts),
    (36, le 4 p.deadlines), (40, le 4 p.staleDrops), (44, le 4 p.reconstructed), (48, le 8 p.declared)]

/-- A change of member state: the coordinator regenerates the table, STM recomputes its ceilings, the host is told (R44, R109,
R93). -/
def memberChanged (s : State) : State := asyncEvent 7 0 0xC3 (rescale (wantTable s))

/-- A change of a port's durable state, generation or position: its member record, and a settings log entry of type 0x03 (R242). -/
def memberRecord (s : State) : State := settingsEntry s

/-- The lowest-numbered Spare port (R251). -/
def spareOfPorts (s : State) : Option Nat := (List.range 9).find? (fun m => (portAt s m).st = .spare)

/-- Positions with no carrier at all. -/
def orphanPositions (s : State) : List Nat := (List.range (positions s)).filter (fun p => (posPort s p).isNone)

/-- The position to rebuild next: the one whose carrier was declared first (R251). -/
def nextRebuild (s : State) : Option Nat :=
  match s.mbr.order.find? (fun p => (orphanPositions s).contains p) with
  | some p => some p
  | none => (orphanPositions s).head?

/-- Start the rebuild of a position onto a Spare port (R251, R252): Open bands that hold it are closed early, every Closed or
Open band whose ACTIVE includes it is marked, Erased bands are erased on the joining carrier before ACTIVE takes it. -/
def startRebuild (pos m : Nat) (s : State) : State :=
  let s := setPort m (fun p => { p with st := .rebuilding, position := some pos
                                        memb := some { ours := true, port := m, position := pos, gen := p.gen } }) (memberRecord s)
  let s := { s with mbr := { s.mbr with posOf := mput s.mbr.posOf pos m, order := dropFrom s.mbr.order pos } }
  let s := forAll ((s.bnd.opens.map (·.1)).filter (fun b => (bandAt s b).active.contains pos)) closeEarly s
  let marked := (s.bnd.bands.filter (fun p => (p.2.st = .closed || p.2.st = .open_) && p.2.active.contains pos)).map (·.1)
  let s := { s with mbr := { s.mbr with rebuild := some { position := pos, port := m, marked := marked, startNow := s.tck.now } } }
  let s := setReg MBR_REBUILD_DONE 0 s
  let chs := (List.range 4).map (4 * m + ·)
  let s := forAll (userIn s .erased) (fun b => startErase b chs) s
  memberChanged (raise Ev.MBR_REBUILD_START [toByte pos, toByte m] s)

/-- Start a rebuild where one can start: AUTO_REBUILD, none running, a Spare (R251); a position without a carrier while no
Spare exists raises MBR_NO_SPARE. -/
def autoRebuild (s : State) : State :=
  if !s.mbr.formatted ∨ s.mbr.rebuild.isSome ∨ !s.cst.mode.runs then s
  else match nextRebuild s, spareOfPorts s with
    | some pos, some m => if bitAt (rg s MBR_CFG) 0 then startRebuild pos m s else s
    | _, _ => s

/-- Reads that a lost carrier was to give are reconstructed (R26, R247). -/
def readsLose (m : Nat) (s : State) : State :=
  { s with flc := { s.flc with reads := s.flc.reads.map (fun p =>
      match mget s.bnd.pages p.2.page with
      | some g => if g.ch / 4 = m ∧ (p.2.phase = .waiting ∨ p.2.phase = .sensing ∨ p.2.phase = .ready)
          then (p.1, { p.2 with phase := .recon }) else p
      | none => p) } }

/-- Remove power from a port: the down sequence runs (R258, R259). -/
def powerDown (m : Nat) (s : State) : State :=
  setPort m (fun p => if p.powered then { p with powered := false, training := false, seq := .down } else p) s

/-- Declare a carrier Failed (R244): GEN rises, the position loses its carrier, its Open bands are finished and closed early,
power is removed; the unit enters Degraded. -/
def declareFailed (m cause : Nat) (s : State) : State :=
  let p := portAt s m
  if p.st ≠ .active ∧ p.st ≠ .rebuilding ∧ p.st ≠ .spare then s
  else
    let pos := p.position
    let s := setPort m (fun p => { p with st := .failed, gen := p.gen + 1, cause := cause, declared := s.tck.fleet
                                          position := none, admission := .none }) s
    let s := memberRecord s
    let s := raise Ev.MBR_MEMBER_FAILED ([toByte m, toByte cause] ++ le 4 (p.gen + 1)) (bump MBR_FAIL_CNT s)
    let s := readsLose m s
    let s := match pos with
      | none => s
      | some q =>
        let s := { s with mbr := { s.mbr with posOf := mdel s.mbr.posOf q, order := addTo s.mbr.order q
                                              rebuild := match s.mbr.rebuild with
                                                | some r => if r.position = q then none else some r
                                                | none => none } }
        bandsLose q s
    let s := powerDown m s
    let s := if pos.isSome ∧ s.cst.mode = .service then enterMode .degraded s else s
    let s := if (pos.isSome ∨ p.st = .spare) ∧ (spareOfPorts s).isNone ∧ s.mbr.formatted then
        (match (pos.toList ++ orphanPositions s) with
          | q :: _ => raise Ev.MBR_NO_SPARE [toByte q] s
          | [] => s)
      else s
    autoRebuild (memberChanged s)

/-- A carrier enters Spare (Table 8.11 step 5): its record is stamped. -/
def enterSpare (m : Nat) (s : State) : State :=
  let s := setPort m (fun p => { p with st := .spare, admission := .none, position := none
                                        memb := some { ours := true, port := m, position := 0xFF, gen := p.gen } }) (memberRecord s)
  autoRebuild (memberChanged (raise Ev.MBR_MEMBER_ADMITTED [toByte m] s))

/-- A port enters Fenced. -/
def enterFenced (m : Nat) (s : State) : State :=
  memberChanged (raise Ev.MBR_MEMBER_FENCED [toByte m] (setPort m (fun p => { p with st := .fenced }) s))

/-- The last band of a rebuild is done: the target is Active, DONE is cleared in every Free band (R206, R253 step 6); the unit
returns to Service when no position lacks a carrier. -/
def rebuildEnd (s : State) : State :=
  match s.mbr.rebuild with
  | none => s
  | some r =>
    let s := memberRecord (setPort r.port (fun p => { p with st := .active }) { s with
      mbr := { s.mbr with rebuild := none }
      bnd := { s.bnd with freshDone := false
                          bands := s.bnd.bands.map (fun p => if p.2.st = .free then (p.1, { p.2 with erasedAll := false }) else p) } })
    let s := memberChanged (raise Ev.MBR_REBUILD_COMPLETE [toByte r.position] s)
    if (missingPositions s).isEmpty then modeCheck s else autoRebuild s

/-! ### Insertion and removal -/

/-- MEMBER_PRESENCE_DEBOUNCED (Table 8.11 step 1). -/
def execMemberPresenceDebounced (port : Nat) (s : State) : Host.Outcome State Fault Refusal :=
  .next (if port < 9 ∧ (portAt s port).st = .absent ∧ s.cst.mode.runs then
    memberChanged (raise Ev.MBR_MEMBER_INSERTED [toByte port]
      (setPort port (fun p => { p with st := .present, inserted := true, powered := true, fault := false, seq := .up }) s))
  else s)

/-- MEMBER_FAULT_SAMPLE (Table 8.11 step 2): 20 ms after power, a low level removes it. -/
def execMemberFaultSample (port : Nat) (faultLow : Bool) (s : State) : Host.Outcome State Fault Refusal :=
  .next (if port < 9 ∧ (portAt s port).powered ∧ (portAt s port).seq = .up then
    let s := setPort port (fun p => { p with fault := faultLow, seq := .none, training := !faultLow && p.st = .spare }) s
    if faultLow then powerDown port (raise Ev.MBR_MEMBER_FAULT [toByte port] s) else s
  else s)

/-- Begin the qualification of a carrier (Table 8.11 step 4): its channels are trained. -/
def beginAdmission (m : Nat) (a : Admission) (s : State) : State := setPort m (fun p => { p with admission := a, training := true }) s

/-- MEMBER_IDENTITY_READ (Table 8.11 step 3, Table 8.7): while the unit runs, a current record with role Spare is qualified
again, one with role Active is Fenced, an older GEN or another port is Fenced; no record is admitted under AUTO_ADMIT. -/
def execMemberIdentityRead (port serial : Nat) (memb : Option MembRec) (s : State) : Host.Outcome State Fault Refusal :=
  .next (if port < 9 ∧ (portAt s port).st = .present ∧ (portAt s port).powered then
    let s := setPort port (fun p => { p with serial := serial, memb := memb }) s
    let p := portAt s port
    match memb with
    | some r =>
      if !r.ours then s
      else if r.gen < p.gen ∨ r.port ≠ port then enterFenced port s
      else if r.gen = p.gen then
        (if r.position = 0xFF then beginAdmission port .auto s else enterFenced port s)
      else s
    | none => if bitAt (rg s MBR_CFG) 1 then beginAdmission port .auto s else s
  else s)

/-- Answer the ADMIT or READMIT_BLANK that waits on a port. -/
def admissionDone (m status : Nat) (a : Admission) (s : State) : State :=
  match a with
  | .request src tag => complete src tag status (memberBody s m false) [] s
  | _ => s

/-- Forget a port's blocks and counters: it has been readmitted blank (R228, Table 6.7). -/
def portBlank (m : Nat) (s : State) : State :=
  let mine := fun ch => 4 * m ≤ ch && ch < 4 * m + 4
  let s := { s with
    bnd := { s.bnd with grown := s.bnd.grown.filter (fun g => !mine g.1), factory := s.bnd.factory.filter (fun g => !mine g.1) } }
  setReg (BND_Mm_PROG_FAIL m) 0 (setReg (BND_Mm_ERASE_FAIL m) 0 (setReg (BND_Mm_EARLY m) 0 s))

/-- The first valid profile, in index order up to PROFILE_MASK of its channel, whose MATCH_ID a target reports (R167, Table 6.12). -/
def matchProfile (s : State) (c : Nat) (a : TargetSeen) : Option Nat :=
  (List.range (fld s (FLC_CFG c) 10 8 + 1)).find? (fun n => s.flc.valid.contains n && (profileAt s n).matchId = a.id)

/-- Have two profiles one geometry (R166)? -/
def Profile.sameGeometry (a b : Profile) : Bool :=
  a.levels = b.levels && a.planes = b.planes && a.tpb = b.tpb && a.ppb = b.ppb

/-- Identify one target (R166, R167): fitted, unknown, or of another geometry than the unit's. -/
def fitTarget (c : Nat) (a : TargetSeen) (s : State) : State :=
  if !(a.onfiOk && a.crcOk) then s
  else match matchProfile s c a with
    | none => raise Ev.FLC_TARGET_UNKNOWN ([toByte c, toByte a.target] ++ a.id) s
    | some n =>
      if s.mbr.formatted ∧ !(profileAt s n).sameGeometry s.flc.profile then raise Ev.FLC_PROFILE_MISMATCH [toByte c, toByte a.target] s
      else { s with flc := { s.flc with
        fitted := mput s.flc.fitted c (putBits (mgetD s.flc.fitted c 0) a.target a.target 1)
        targetProfile := mput s.flc.targetProfile (tgtKey c a.target) n } }

/-- Drive a channel or leave it (Table 6.12): with EN = 1 its targets that answer are identified, with EN = 0 none is fitted. -/
def fitChannel (c : Nat) (s : State) : State :=
  let seen := if bitAt (rg s (FLC_CFG c)) 0 then
    (portAt s (c / 4)).answers.filter (fun a => a.chpos = c % 4 && decide (a.target < 32)) else []
  forAll seen (fitTarget c) { s with flc := { s.flc with
    fitted := mput s.flc.fitted c 0, targetProfile := s.flc.targetProfile.filter (fun p => p.1 / 32 ≠ c) } }

/-- Take what identification finds on a port: its targets and trained channels (R163); the targets of a channel that fails training are
not fitted (Table 6.15). -/
def fitPort (m : Nat) (targets : List TargetSeen) (untrained : List Nat) (s : State) : State :=
  let good := (List.range 4).filter (fun k => !untrained.contains k)
  let s := setPort m (fun p => { p with training := true, answers := targets.filter (fun a => good.contains a.chpos) }) s
  let s := forAll ((List.range 4).filter untrained.contains) (fun k => raise Ev.FLC_TRAIN_FAIL [toByte (4 * m + k)]) s
  let s := { s with flc := { s.flc with
    trained := good.foldl (fun f k => mput f (4 * m + k) [1]) s.flc.trained
    trainSet := good.foldl (fun f k => mput f (4 * m + k) s.thm.band) s.flc.trainSet } }
  forAll (List.range 4) (fun k => fitChannel (4 * m + k)) s

/-- The factory records of a port's channels (R201): the blocks they name are Retired (R174). -/
def factoryPort (m : Nat) (factory : List (Nat × Nat × Nat)) (s : State) : State :=
  let mine := fun ch => 4 * m ≤ ch && ch < 4 * m + 4
  let s := { s with
    flc := { s.flc with blocks := s.flc.blocks.filter (fun p => !mine (p.1 / 65536 / 64)) }
    bnd := { s.bnd with factory := s.bnd.factory.filter (fun g => !mine g.1) ++ factory.filter (fun g => mine g.1) } }
  forAll (factory.filter (fun g => mine g.1)) (fun f s => { s with flc := { s.flc with
    blocks := mput s.flc.blocks (blkKey f.1 f.2.1 f.2.2) { st := .retired } } }) s

/-- Good blocks of a target set on a channel, by its factory records; none where the set is not fitted whole (R200, R229). -/
def goodBlocks (s : State) (factory : List (Nat × Nat × Nat)) (ch set : Nat) : Nat :=
  let tpb := s.flc.profile.tpb
  if (List.range tpb).all (fun i => bitAt (mgetD s.flc.fitted ch 0) (set * tpb + i)) then
    (pfAt s ch (set * tpb)).blocks - (factory.filter (fun f => f.1 = ch && f.2.1 = set)).length
  else 0

/-- The first channel and set in use of a port with fewer than VB + 8 good blocks (R229). -/
def shortSet (s : State) (m : Nat) (factory : List (Nat × Nat × Nat)) : Option (Nat × Nat) :=
  if !s.mbr.formatted then none
  else ((List.range 4).flatMap (fun k => (List.range s.bnd.nsets).map (fun t => (4 * m + k, t)))).find? (fun x =>
    goodBlocks s factory x.1 x.2 < s.bnd.vb + 8)

/-- MEMBER_QUALIFY_DONE (Table 8.11 steps 4 and 5, R229). -/
def execMemberQualifyDone (port : Nat) (seen : QualifySeen) (s : State) : Host.Outcome State Fault Refusal :=
  let p := portAt s port
  .next (if port < 9 ∧ p.admission ≠ .none ∧ p.powered ∧ (p.st = .present ∨ p.st = .fenced) then
    let s := fitPort port seen.targets seen.untrained s
    let short := shortSet s port seen.factory
    let s := match short with
      | some x => raise Ev.BND_CARRIER_SHORT [toByte x.1, toByte x.2] s
      | none => s
    if seen.untrained.isEmpty ∧ diesOf s port ≠ 0 ∧ short.isNone ∧ seen.erasesOk then
      let s := if p.st = .fenced then portBlank port s else s
      let s := factoryPort port seen.factory { s with flc := { s.flc with blank := addTo s.flc.blank port } }
      admissionDone port 0 p.admission (enterSpare port s)
    else
      let s := match p.admission with
        | .request _ _ => s
        | _ => raise Ev.MBR_QUALIFY_FAIL [toByte port] s
      let s := powerDown port (setPort port (fun p => { p with admission := .none }) s)
      admissionDone port Ev.MBR_QUALIFY_FAIL p.admission s
  else s)

/-- MEMBER_REMOVED (R258): power is removed; an Active or Rebuilding carrier is declared Failed with cause 0x2, any other port
becomes Absent. -/
def execMemberRemoved (port : Nat) (s : State) : Host.Outcome State Fault Refusal :=
  .next (if port < 9 ∧ (portAt s port).inserted then
    let st := (portAt s port).st
    let p := (portAt s port).admission
    let s := raise Ev.MBR_MEMBER_REMOVED [toByte port] (setPort port (fun p => { p with inserted := false, admission := .none }) s)
    let s := admissionDone port Ev.MBR_QUALIFY_FAIL p s
    if st = .active ∨ st = .rebuilding then declareFailed port 2 s
    else
      let s := powerDown port s
      memberChanged (setPort port (fun p =>
        if st = .failed ∧ p.seq = .down then p else { p with st := .absent, position := none }) s)
  else s)

/-- MEMBER_FAULT (R244): Mm_FAULT_L asserted while powered. -/
def execMemberFault (port : Nat) (s : State) : Host.Outcome State Fault Refusal :=
  .next (if port < 9 ∧ (portAt s port).powered ∧ !(portAt s port).fault then
    let s := raise Ev.MBR_MEMBER_FAULT [toByte port] (setPort port (fun p => { p with fault := true }) s)
    match (portAt s port).st with
    | .active => declareFailed port 3 s
    | .rebuilding => declareFailed port 3 s
    | .spare => declareFailed port 3 s
    | _ => powerDown port s
  else s)

/-! ### Power (R259) -/

/-- Raise power on a port; a Failed carrier still present enters Fenced (Table 8.7). -/
def powerUp (m : Nat) (s : State) : State :=
  let failed := (portAt s m).st = .failed
  let s := setPort m (fun p => { p with powered := true, fault := false, seq := .up }) s
  if failed then enterFenced m s else s

/-- Latch a power request behind the sequence that runs; a newer request replaces an older one. -/
def powerLatch (m : Nat) (on : Bool) (s : State) : State :=
  let s := if (portAt s m).pending.isSome then raise Ev.MBR_PENDING_REPLACED [toByte m] s else s
  setPort m (fun p => { p with pending := some on }) s

/-- POWER_ON (R259, Table 8.13). -/
def execPowerOn (src : Src) (tag port : Nat) (s : State) : Host.Outcome State Fault Refusal :=
  .next (descOp src tag 0x0705 [(8, 1, port)] (fun s =>
  let p := portAt s port
  if 9 ≤ port then completeErr src tag Ev.MBR_PARAM_RANGE s
  else if (p.seq = .down ∨ p.pending.isSome) ∧ p.inserted ∧ (p.st = .present ∨ p.st = .spare ∨ p.st = .fenced ∨ p.st = .failed) then
    let s := powerLatch port true s
    complete src tag 0 (memberBody s port true) [] s
  else if (p.st = .present ∨ p.st = .spare ∨ p.st = .fenced ∨ (p.st = .failed ∧ p.inserted)) ∧ !p.powered then
    let s := powerUp port s
    complete src tag 0 (memberBody s port false) [] s
  else completeErr src tag Ev.MBR_STATE_CONFLICT s) s)

/-- POWER_OFF (R259, Table 8.13): the state is kept. -/
def execPowerOff (src : Src) (tag port : Nat) (s : State) : Host.Outcome State Fault Refusal :=
  .next (descOp src tag 0x0706 [(8, 1, port)] (fun s =>
  let p := portAt s port
  if 9 ≤ port then completeErr src tag Ev.MBR_PARAM_RANGE s
  else if p.st = .present ∨ p.st = .spare ∨ p.st = .fenced then
    if p.seq = .up ∨ p.pending.isSome then
      let s := powerLatch port false s
      complete src tag 0 (memberBody s port true) [] s
    else
      let s := powerDown port s
      complete src tag 0 (memberBody s port false) [] s
  else completeErr src tag Ev.MBR_STATE_CONFLICT s) s)

/-- POWER_SEQUENCE_END (R259): a latched request is carried out; a removed carrier's port is Absent once power is off. -/
def execPowerSequenceEnd (port : Nat) (s : State) : Host.Outcome State Fault Refusal :=
  .next (if port < 9 ∧ (portAt s port).seq ≠ .none then
    let s := setPort port (fun p => { p with seq := .none
                                             st := if !p.inserted ∧ !p.powered then .absent else p.st }) s
    match (portAt s port).pending with
    | none => s
    | some on =>
      let s := setPort port (fun p => { p with pending := none }) s
      let ok := (portAt s port).inserted
      let s := if ok then (if on then powerUp port s else powerDown port s) else s
      raise Ev.MBR_PENDING_DONE ([toByte port] ++ le 2 (if ok then 0 else Ev.MBR_STATE_CONFLICT)) s
  else s)

/-! ### MEMBER_MANAGE -/

/-- MEMBER_MANAGE QUERY (Table 8.13); the vendor command also writes the port entry into its buffer (R261). -/
def execMemberQuery (src : Src) (tag port : Nat) (s : State) : Host.Outcome State Fault Refusal :=
  .next (descOp src tag 0x0701 [(8, 1, port)] (fun s =>
  if 9 ≤ port then completeErr src tag Ev.MBR_PARAM_RANGE s
  else complete src tag 0 (memberBody s port false) (match src with | .admin _ => portEntry s port | _ => []) s) s)

/-- Begin the qualification of a port for ADMIT or READMIT_BLANK. -/
def admitReq (src : Src) (tag port : Nat) (from_ : PortSt) (s : State) : State :=
  let p := portAt s port
  if 9 ≤ port then completeErr src tag Ev.MBR_PARAM_RANGE s
  else if p.st ≠ from_ ∨ !p.powered ∨ p.admission ≠ .none then completeErr src tag Ev.MBR_STATE_CONFLICT s
  else beginAdmission port (.request src tag) s

/-- ADMIT (Table 8.13): completes when the carrier enters Spare or fails qualification. -/
def execAdmit (src : Src) (tag port : Nat) (s : State) : Host.Outcome State Fault Refusal :=
  .next (descOp src tag 0x0702 [(8, 1, port)] (fun s =>
  admitReq src tag port .present s) s)

/-- READMIT_BLANK (Table 8.13). -/
def execReadmitBlank (src : Src) (tag port : Nat) (s : State) : Host.Outcome State Fault Refusal :=
  .next (descOp src tag 0x0703 [(8, 1, port)] (fun s =>
  admitReq src tag port .fenced s) s)

/-- FAIL (Table 8.13): cause 0x4. -/
def execFail (src : Src) (tag port : Nat) (s : State) : Host.Outcome State Fault Refusal :=
  .next (descOp src tag 0x0704 [(8, 1, port)] (fun s =>
  let st := (portAt s port).st
  if 9 ≤ port then completeErr src tag Ev.MBR_PARAM_RANGE s
  else if st = .active ∨ st = .rebuilding ∨ st = .spare then
    let s := declareFailed port 4 s
    complete src tag 0 (memberBody s port false) [] s
  else completeErr src tag Ev.MBR_STATE_CONFLICT s) s)

/-- REBUILD (Table 8.13): a Spare target, a position without a carrier, no rebuild running (R251). -/
def execRebuild (src : Src) (tag port position : Nat) (s : State) : Host.Outcome State Fault Refusal :=
  .next (descOp src tag 0x0707 [(8, 1, port), (9, 1, position)] (fun s =>
  if 9 ≤ port ∨ 9 ≤ position ∨ positions s ≤ position then completeErr src tag Ev.MBR_PARAM_RANGE s
  else if (portAt s port).st = .spare ∧ (posPort s position).isNone ∧ s.mbr.rebuild.isNone ∧ s.mbr.formatted then
    let s := startRebuild position port s
    complete src tag 0 (memberBody s port false) [] s
  else completeErr src tag Ev.MBR_STATE_CONFLICT s) s)

/-- The ports that FORMAT_UNIT assigns to positions, in ascending order, and the spare's (R232, R260). -/
def formatPorts (geometry sparePort : Nat) : List Nat :=
  if hasSpare geometry then (List.range 9).filter (· ≠ sparePort) else List.range 9

/-- The target sets fitted on every one of some channels (NSETS of R200 counts them). -/
def setsOf (s : State) (chs : List Nat) : List Nat :=
  let tpb := s.flc.profile.tpb
  (List.range (32 / Nat.max 1 tpb)).filter (fun set =>
    chs.all (fun ch => (List.range tpb).all (fun i => bitAt (mgetD s.flc.fitted ch 0) (set * tpb + i))))

/-- FORMAT_UNIT (R260): geometry, spare, positions, generations and BND's NSETS and VB (R200); every block is erased, those of OS images
and of the last checkpoint with them (log entry 78); a later format keeps ERASE_CNT of every band (Table 7.1) and takes blocks that grown
records replaced as bad. -/
def execFormatUnit (src : Src) (tag geometry sparePort : Nat) (seen : List (Nat × QualifySeen)) (s : State) :
    Host.Outcome State Fault Refusal :=
  .next (descOp src tag 0x0709 [(8, 1, geometry), (9, 1, sparePort)] (fun s =>
  let ports := formatPorts geometry sparePort
  let used := if hasSpare geometry then ports ++ [sparePort] else ports
  let okPort := fun m => let st := (portAt s m).st; st = .present || st = .active || st = .spare
  if 4 ≤ geometry ∨ (hasSpare geometry ∧ 9 ≤ sparePort) then completeErr src tag Ev.MBR_PARAM_RANGE s
  else if (s.cst.mode ≠ .commissioning ∧ s.cst.mode ≠ .quiesce) ∨ !s.map.dir.isEmpty ∨ !used.all okPort then
    completeErr src tag Ev.MBR_FORMAT_REFUSED s
  else
    let chs := ports.flatMap (fun m => (List.range 4).map (4 * m + ·))
    let was := s.mbr.formatted
    let bad := s.bnd.grown.map (fun g => (g.1, g.2.1, g.2.2.2.1))
    let s := forAll seen (fun q s => factoryPort q.1 (q.2.factory ++ bad).dedup (fitPort q.1 q.2.targets q.2.untrained s))
      { s with mbr := { s.mbr with formatted := false } }
    let s := { s with mbr := { s.mbr with formatted := true }, flc := { s.flc with profile := formatProfile s ports } }
    let s := forAll (used.flatMap (fun m => (List.range 4).map (4 * m + ·))) fitChannel s
    let sets := setsOf s chs
    let nsets := sets.length
    let good := (chs.flatMap (fun ch => sets.map (goodBlocks s s.bnd.factory ch))).foldl Nat.min 65536
    let vb := Nat.min (good - 64) (131072 / Nat.max 1 nsets)
    let s := { s with
      mbr := { s.mbr with formatted := true, geometry := geometry, sparePort := if hasSpare geometry then sparePort else 15
                          posOf := (List.range ports.length).zip ports, slots := [], rebuild := none, order := [] }
      cst := { s.cst with slots := ([4, 5] : List Nat).foldl (fun l x =>
        if s.bnd.sysAt.any (fun e => e.1.ofSlot x) then setAt l (x - 1) (fun _ => {}) else l) s.cst.slots }
      bnd := { s.bnd with sysTodo := [], sysWait := [], sysAt := [], sysVictim := none, sysArming := none, sysLow := false
                          nsets := nsets, vb := vb, sysBands := fld s BND_CFG 23 16
                          bands := if was then s.bnd.bands.map (fun p => (p.1, { erasedAll := true, eraseCnt := p.2.eraseCnt + 1 })) else []
                          freshCnt := s.bnd.freshCnt + b2n was, opens := [], pages := [], grown := []
                          victims := [], copies := [], orphans := [], arming := none, erasing := [], freshDone := true
                          ready := true, withheld := false, low := false, warned := [] }
      flc := { s.flc with blocks := s.flc.blocks.filter (fun p => p.2.st = .retired), targets := [], reads := [], stamps := [], blank := [] }
      map := { s.map with segs := [], pool := [], runs := [], running := none, ckpt := { s.map.ckpt with index := [], segs := [], pool := [] } }
      tck := { s.tck with queue := [], senses := [] } }
    let s := forAll used (fun _ => memberRecord) s
    let s := forAll ((List.range ports.length).zip ports) (fun x => setPort x.2 (fun p => { p with
      st := .active, gen := 1, position := some x.1, memb := some { ours := true, port := x.2, position := x.1, gen := 1 } })) s
    let s := if hasSpare geometry then setPort sparePort (fun p => { p with
      st := .spare, gen := 1, position := none, memb := some { ours := true, port := sparePort, position := 0xFF, gen := 1 } }) s
      else s
    let s := memberChanged { s with map := { s.map with segLimit := segLimitOf s } }
    completeOk src tag s) s)

end Sys2Proof.Machine
end

