-- ==== Sys2Proof/Machine/Pairs.lean ====
section
/-! DEFINITION. CPX: ledger pairs: faults, takeover, mismatch, restart and repair (R332-R339, Table 11.4). -/

namespace Sys2Proof.Machine

/-- A ledger pair. -/
def pairAt (s : State) (n : Nat) : Pair := s.cpx.pairs.getD n {}

/-- Change a ledger pair. -/
def setPair (n : Nat) (f : Pair → Pair) (s : State) : State :=
  { s with cpx := { s.cpx with pairs := setAt s.cpx.pairs n f } }

/-- A pair has failed (R337): a member's port is declared Failed with cause 0x5, the coordinator's failure leads to Halt;
the Lantern freezes after CPX_DOUBLE_FAULT. -/
def pairFail (n : Nat) (s : State) : State :=
  let s := setPair n (fun p => { p with st := .failed, flagged := [] }) s
  let s := if n < 9 then declareFailed n 5 s else s
  let s := raiseFreeze Ev.CPX_DOUBLE_FAULT [toByte n] s
  if n < 9 then s else enterHalt s

/-- Restart a pair from its durable state (R336); a member's port is Unavailable meanwhile (R248). -/
def pairRestart (n : Nat) (s : State) : State :=
  let s := raise Ev.CPX_LEDGER_RESTART [toByte n, 0]
    (setPair n (fun p => { p with st := .restarting, missed := 0, refusals := [], takeover := none, flagged := [] }) s)
  if n < 9 then
    raise Ev.MBR_UNAVAILABLE [toByte n] (readsLose n (setPort n (fun p => { p with unavailable := true }) s))
  else s

/-- A core of a pair flags a fault in this tick (R334, R335, R337); cause 1: a word of its memory, 2: missed cut-offs, 3: traps. -/
def pairFault (n core cause : Nat) (s : State) : State :=
  let s := bump (CPX_Ln_FAULT_CNT n) (raise Ev.CPX_LEDGER_FAULT [toByte n, toByte core, toByte cause] s)
  let p := pairAt s n
  match p.st with
  | .paired =>
    if core = p.primary then
      let s := setPair n (fun p => { p with flagged := addTo p.flagged core }) s
      { s with tck := { s.tck with gap := Nat.max s.tck.gap 1 } }
    else setPair n (fun p => { p with st := .single }) s
  | .single => if core = p.primary then pairFail n s else s
  | .selfCheck => setPair n (fun p => { p with flagged := addTo p.flagged core }) s
  | _ => s

/-- Count a refusal that FLC reports; REFUSE_LIMIT of them within a second restart the pair (R339). -/
def pairRefusal (n : Nat) (s : State) : State :=
  let s := bump (CPX_Ln_REFUSE_CNT n) (raise Ev.CPX_LEDGER_REFUSAL [toByte n] s)
  let s := setPair n (fun p => { p with refusals := p.refusals.filter (fun t => s.tck.now < t + 1000000000) ++ [s.tck.now] }) s
  let p := pairAt s n
  if fld s CPX_CFG 23 16 ≤ p.refusals.length ∧ (p.st = .paired ∨ p.st = .single) then pairRestart n s else s

/-- Checksums of a pair differ at the planning cut-off (Table 11.4 step 1′). -/
def pairMismatch (n : Nat) (s : State) : State :=
  if (pairAt s n).st ≠ .paired ∨ !(pairAt s n).flagged.isEmpty then s
  else
    let s := bump (CPX_Ln_MISMATCH_CNT n) (raise Ev.CPX_MISMATCH [toByte n]
      (setPair n (fun p => { p with st := .selfCheck, takeover := some s.tck.tick }) s))
    { s with tck := { s.tck with gap := Nat.max s.tck.gap 1 } }

/-- At the edge of tick t: the standby of a faulted primary takes over (step 2), a self-check of tick t − 2 or earlier is
settled (steps 3′ and 4′). -/
def pairEdge (n : Nat) (s : State) : State :=
  let p := pairAt s n
  match p.st with
  | .paired =>
    match p.flagged with
    | [] => s
    | [_] => raise Ev.CPX_TAKEOVER [toByte n, toByte (1 - p.primary)]
        (setPair n (fun p => { p with st := .single, primary := 1 - p.primary, takeover := some s.tck.tick, flagged := [] }) s)
    | _ => pairFail n s
  | .selfCheck =>
    if s.tck.tick < p.takeover.getD 0 + 2 then s
    else match p.flagged with
      | [c] =>
        let s := if c = p.primary then raise Ev.CPX_TAKEOVER [toByte n, toByte (1 - c)] s else s
        setPair n (fun p => { p with st := .single, primary := 1 - c, takeover := some s.tck.tick, flagged := [] }) s
      | _ => pairRestart n s
  | _ => s

/-- LEDGER_FAULT (R334, R335, R337): an uncorrectable word of the core, or more than TRAP_STORM traps in one tick. -/
def execLedgerFault (pair core : Nat) (cause : LedgerCause) (s : State) : Host.Outcome State Fault Refusal :=
  .next (if 10 ≤ pair ∨ 2 ≤ core ∨ !s.cst.mode.runs then s
  else match cause with
    | .word => pairFault pair core 1 s
    | .traps n => if fld s CPX_CFG 15 8 < n then pairFault pair core 3 s else s)

/-- LEDGER_RESTART_END (R336): the pair is Paired again. -/
def execLedgerRestartEnd (pair : Nat) (s : State) : Host.Outcome State Fault Refusal :=
  .next (if pair < 10 ∧ (pairAt s pair).st = .restarting then
    let s := raise Ev.CPX_LEDGER_RESTART [toByte pair, 1] (setPair pair (fun p => { p with st := .paired, primary := 0 }) s)
    if pair < 9 then setPort pair (fun p => { p with unavailable := false }) s else s
  else s)

/-- LEDGER_RESTART_TIMEOUT (R337): the restart did not end within 400 ms. -/
def execLedgerRestartTimeout (pair : Nat) (s : State) : Host.Outcome State Fault Refusal :=
  .next (if pair < 10 ∧ (pairAt s pair).st = .restarting then
    pairFail pair (if pair < 9 then setPort pair (fun p => { p with unavailable := false }) s else s)
  else s)

/-- A store to CPX_LEDGER_CTL (R338): PAIR 10-15 is a reserved encoding. -/
def storeLedgerCtl (v : Word) (s : State) : State :=
  let n := bits v.toNat 3 0
  if 10 ≤ n then discardStore CPX_LEDGER_CTL v s
  else
    let s := storeWo CPX_LEDGER_CTL v s
    if bitAt v.toNat 8 ∧ s.cst.mode.runs ∧ ((pairAt s n).st = .single ∨ (pairAt s n).st = .paired) then pairRestart n s else s

/-- LEDGER_REPAIR (R338): CPX_LEDGER_CTL with REPAIR = 1. -/
def execLedgerRepair (v : Word) (s : State) : Host.Outcome State Fault Refusal :=
  .next (storeLedgerCtl (toWord (putBits v.toNat 8 8 1)) s)

end Sys2Proof.Machine
end

