-- ==== Sys2Proof/Machine/SecCore.lean ====
section
/-! DEFINITION. SEC: the write sequence (R304), the cipher lanes and their pipelines' disagreements (R308, R309), sealing a
page's codewords (R303, R306). -/

namespace Sys2Proof.Machine

/-! ### Lanes -/

/-- A cipher lane. -/
def laneAt (s : State) (l : Nat) : Lane := s.sec.lanes.getD l {}

/-- Change a cipher lane. -/
def setLane (l : Nat) (f : Lane → Lane) (s : State) : State :=
  { s with sec := { s.sec with lanes := setAt s.sec.lanes l f } }

/-- Lanes On. -/
def liveLanes (s : State) : List Nat := (List.range 8).filter (fun l => (laneAt s l).st = .on)

/-- A bank of the Code Store. -/
def bankAt (s : State) (b : Nat) : Bank := mgetD s.cst.banks b {}

/-- Change a bank at work. -/
def setBank (b : Nat) (f : Bank → Bank) (s : State) : State :=
  { s with cst := { s.cst with banks := mput s.cst.banks b (f (bankAt s b)) } }

/-- Does a read of a bank wait (R370): for a program, or for an erase that was resumed less than 1 ms ago? -/
def bankWaits (s : State) (b : Nat) : Bool :=
  let k := bankAt s b
  k.prog.isSome || (k.erase.isSome && !k.suspended && k.resumedAt.any (fun t => decide (s.tck.now < t + 1000000)))

/-- A read of a sector reaches a bank (R370): an erase that runs there is suspended, unless the read waits; one of the sector whose erase is
suspended gives all ones, is counted as a refusal and is a bus error. -/
def bankRead (b sector : Nat) (s : State) : State :=
  let k := bankAt s b
  if k.erase.isNone then s
  else
    let s := setBank b (fun k => { k with lastReq := s.tck.now }) s
    if bankWaits s b then s
    else
      let s := if k.suspended then s
        else bump CST_SUSPEND_CNT (setBank b (fun k => { k with suspended := true, suspendedAt := s.tck.now }) s)
      if k.erase = some sector then bump CST_REFUSE_CNT (raise Ev.CST_READ_IN_SUSPENDED [toByte b, toByte sector] s) else s

/-- Lines of 64 B that the prefetch buffer and the branch cache keep (R370): those that a test passes. -/
def keepLines (keep : Nat → Bool) (s : State) : State :=
  { s with cst := { s.cst with prefetch := s.cst.prefetch.filter keep, branch := s.cst.branch.filter keep } }

/-- The erase of a sector starts: every line of the sector is invalidated (R370). -/
def eraseBank (b sector : Nat) (s : State) : State :=
  keepLines (fun l => l / 1024 ≠ 16 * b + sector) (setBank b (fun _ => { erase := some sector }) s)

/-- The ledger cores fetch their image from its first instruction (R370): the line of ENTRY enters the branch cache, the four lines from it
on the prefetch buffer, those of a sector whose erase runs or is suspended excepted. -/
def ledgerFetch (slot entry : Nat) (s : State) : State :=
  let line := ((if slot = 2 then 0x400000 else 0x800000) + 1024 + entry) / 64
  let ok := fun (l : Nat) => (bankAt s (l / 16384)).erase ≠ some (l / 1024 % 16)
  { s with cst := { s.cst with
    prefetch := ((List.range 4).map (line + ·)).filter ok, branch := ([line].filter ok ++ s.cst.branch.filter (· ≠ line)).take 64 } }

/-- A new key record, GEN one higher, is durable in the sector that did not hold the old one, and the old sector's erase runs
(R300). -/
def keyRecord (s : State) : State :=
  let s := bumpBy CST_PROG_CNT 1540 { s with sec := { s.sec with keyGen := s.sec.keyGen + 1 } }
  if (bankAt s 12).erase.isSome then s else eraseBank 12 (s.sec.keyGen % 2) s

/-- Retire a lane (R309): four live lanes raise SEC_LANES_LOW, none leads to Halt. -/
def retireLane (l : Nat) (s : State) : State :=
  let before := (liveLanes s).length
  let s := setLane l (fun x => { x with st := .retired }) s
  let s := keyRecord { s with sec := { s.sec with laneRetired := addTo s.sec.laneRetired l } }
  let s := raise Ev.SEC_LANE_RETIRED [toByte l] s
  let n := (liveLanes s).length
  let s := if 4 < before ∧ n ≤ 4 then raise Ev.SEC_LANES_LOW [toByte n] s else s
  if 0 < before ∧ n = 0 ∧ s.cst.mode.runs then enterHalt s else s

/-- The known-answer test of every live lane: those that fail, and only those, are retired; if none passes the unit enters
Halt (R308, R310). -/
def laneKat (fails : List Nat) (s : State) : State :=
  let live := liveLanes s
  if live.all fails.contains then haltWith Ev.SEC_ALL_LANES_FAULT [] s
  else forAll (live.filter fails.contains) retireLane s

/-- One mismatch of the pipelines of a lane (R308, R309). -/
def laneMismatch (l : Nat) (s : State) : State :=
  let s := raise Ev.SEC_LANE_MISMATCH [toByte l] (bump SEC_MISMATCH_CNT (bump (SEC_LANEl_MISMATCH_CNT l) s))
  if fld s SEC_CFG 15 8 ≤ rg s (SEC_LANEl_MISMATCH_CNT l) then retireLane l s else s

/-- What a codeword meets on the lanes: the first mismatch is retried on another live lane; a second one, or a first one on
the only live lane, runs the known-answer test (R308). -/
def laneSeen (seen : LaneSeen) (s : State) : State :=
  match seen.mismatch.filter (fun l => (laneAt s l).st = .on) with
  | [] => s
  | [l] =>
    let only := (liveLanes s).length = 1
    let s := laneMismatch l s
    if only then laneKat seen.katFail s else s
  | l :: m :: _ => laneKat seen.katFail (laneMismatch m (laneMismatch l s))

/-! ### The write sequence (R304) -/

/-- Draw the WSEQ value of a data page: WSEQ_MARK advances by 65,536 when half of the current step is used. -/
def drawWseq (s : State) : State :=
  let w := s.sec.wseq + 1
  let s := { s with sec := { s.sec with
    wseq := w, wseqMark := if s.sec.wseqMark ≤ w + 32768 then s.sec.wseqMark + 65536 else s.sec.wseqMark } }
  if w = 2 ^ 64 - 1 then haltWith Ev.SEC_WSEQ_EXHAUSTED [] s else s

/-! ### Sealing a page -/

/-- The plaintext of an LBA that a command or a copy writes. -/
def plainOf (s : State) (owner lba : Nat) : Block :=
  match mget s.hif.index (owner * 1024) with
  | some e => e.data.getD (lba - e.slba) 0
  | none => match mget s.bnd.copies owner with
    | some c => mgetD c.got (lba - c.base) 0
    | none => 0

/-- The key of a namespace. -/
def nsKey (s : State) (nsid : Nat) : Nat := match mget s.map.dir nsid with | some n => n.key | none => 0

/-- PLACE of Table 10.6: position, channel position, codeword index. -/
def placeWord (pos k cw : Nat) : Nat := pos * 2 ^ 28 + k * 2 ^ 26 + cw * 2 ^ 24

/-- The GCM IV (Table 10.6): WSEQ, then PLACE, little-endian. -/
def gcmIv (wseq pos k cw : Nat) : List Byte := le 8 wseq ++ le 4 (placeWord pos k cw)

/-- The codewords of a page as they go to flash (R303, R306, R173): data under the namespace key, a system band's under K_sys with LBA_TAG
band × 65,536 + row, pad codewords, parity. One WSEQ serves the page. -/
def pageCws (s : State) (p : Page) : List Cw :=
  match p.src with
  | .pad => List.replicate 4 .pad
  | .sys => (List.range 4).map (fun c => match p.items[c]? with
      | some x => .data 0 0 (p.band * 65536 + p.row) s.sec.wseq (placeWord p.pos (p.ch % 4) c) (x.data.getD 0)
      | none => .pad)
  | .parityP => parityCws s p.band p.row (p.ch % 4) false
  | .parityQ => parityCws s p.band p.row (p.ch % 4) true
  | _ => (List.range 4).map (fun c => match p.lbas[c]? with
      | some (owner, lba) => .data (nsKey s p.nsid) p.nsid lba s.sec.wseq (placeWord p.pos (p.ch % 4) c) (plainOf s owner lba)
      | none => .pad)

/-- Encrypt a page as its codewords pass a lane: a data page draws a WSEQ, a rebuilt page keeps its codewords (R306); the items of a system
band's page get the content they have now. -/
def sealPage (key : Nat) (s : State) : State :=
  match mget s.bnd.pages key with
  | none => s
  | some p =>
    if p.rebuilt then s
    else
      let x := fixItems p.items s
      let p := { p with items := x.1 }
      let s := { x.2 with bnd := { x.2.bnd with pages := mput x.2.bnd.pages key { p with cws := pageCws x.2 p } } }
      if p.lbas.isEmpty ∧ p.items.isEmpty then s else drawWseq s

end Sys2Proof.Machine
end

