-- ==== Sys2Proof/Machine/Flash.lean ====
section
/-! DEFINITION. FLC: what targets do: transfers and confirm of program units, erases, senses, suspension, and their statuses
(R174-R189, R193), with the rebuild of a band (Table 8.10). -/

namespace Sys2Proof.Machine

/-- What a target is doing. -/
def tgtAt (s : State) (ch t : Nat) : Option TOp := mget s.flc.targets (tgtKey ch t)

/-- Set what a target is doing. -/
def setTgt (ch t : Nat) (o : Option TOp) (s : State) : State :=
  { s with flc := { s.flc with targets := match o with
      | some o => mput s.flc.targets (tgtKey ch t) o
      | none => mdel s.flc.targets (tgtKey ch t) } }

/-- The band's program unit that a page belongs to. -/
def Page.unit (s : State) (p : Page) : Nat := unitOf s p.band p.row

/-- May a channel carry one more status or feature transfer in this tick (R162)? -/
def dqRoom (s : State) (ch : Nat) : Bool := mgetD s.flc.dqUse ch 0 < 8

/-- A channel carries a status or feature transfer. -/
def dqTake (ch : Nat) (s : State) : State :=
  { s with flc := { s.flc with dqUse := mput s.flc.dqUse ch (mgetD s.flc.dqUse ch 0 + 1) } }

/-- Does a channel stand still: the PLL of its member port is unlocked (R389)? -/
def chanStopped (s : State) (ch : Nat) : Bool := s.clk.unlocked.contains (5 + ch / 4)

/-- Are results collected now: not in a held tick (R46), nor while the channel stands still, nor past the transfers that it carries in a
tick (R162)? -/
def collects (s : State) (ch : Nat) : Bool := !s.tck.holding && !chanStopped s ch && dqRoom s ch

/-- Does an operation program a unit of a band? -/
def isProg (b unit : Nat) (o : TOp) : Bool := o.op = .prog b unit || o.nested = some (.prog b unit)

/-- Does a target hold a partly transferred program unit (R183)? -/
def partialAt (s : State) (ch t : Nat) : Bool :=
  s.bnd.pages.any (fun p => p.2.ch = ch && targetOf s p.2.band (p.2.unit s) = t &&
    (p.2.st = .transferred && !(match tgtAt s ch t with | some o => isProg p.2.band (p.2.unit s) o | none => false)
      || s.tck.queue.any (fun o => o.kind = .prog p.1 && o.left < 4)))

/-- Can an array operation start on a target now: idle, or suspended with nothing in the suspension (Table 6.8, R188)? -/
def canStart (s : State) (ch t : Nat) (prog : Bool) : Bool :=
  match tgtAt s ch t with
  | none => true
  | some o => o.suspended.isSome && o.nested.isNone && match o.op with
    | .erase _ => !prog || !o.progIn
    | .prog _ _ => !prog
    | .sense _ => false

/-- Start an array operation. -/
def startOp (ch t : Nat) (a : ArrayOp) (s : State) : State :=
  let prog := match a with
    | .prog _ _ => true
    | _ => false
  match tgtAt s ch t with
  | none => setTgt ch t (some { op := a, since := s.tck.now }) s
  | some o => setTgt ch t (some { o with nested := some a, progIn := o.progIn || prog, nestedSince := s.tck.now, nestedOver := false }) s

/-- An array operation has ended. -/
def endOp (ch t : Nat) (s : State) : State :=
  match tgtAt s ch t with
  | none => s
  | some o => if o.nested.isSome then setTgt ch t (some { o with nested := none }) s else setTgt ch t none s

/-- At a tick edge, work is planned for a target at work: order the suspend where R187 and Table 6.8 allow it. -/
def orderSuspend (ch t : Nat) (prog : Bool) (s : State) : State :=
  match tgtAt s ch t with
  | none => s
  | some o =>
    let pf := pfAt s ch t
    let may : Bool := match o.op with
      | .erase _ => o.count < pf.ersSusMax
      | .prog _ _ => !prog && o.count < pf.pgmSusMax
      | .sense _ => false
    if o.suspended.isNone ∧ !o.ordered ∧ may ∧ !chanStopped s ch ∧ pf.susMinRun ≤ s.tck.now - o.since then
      bump (FLC_SUSPEND_CNT ch) (setTgt ch t (some { o with ordered := true }) s)
    else s

/-- FLC refuses an operation before any cycle reaches the die (R175, R176): the Lantern record names the block, its pointer and the
row asked, the refusal counts, and the issuing pair hears of it as a ledger fault. -/
def refuseOp (code ch block ptr row : Nat) (s : State) : State :=
  pairRefusal (ch / 4) (raise code ([toByte ch] ++ le 4 block ++ le 4 ptr ++ le 4 row) (bump (FLC_REFUSE_CNT ch) s))

/-- The operation that a target runs, its busy time so far, and whether its overtime has been raised (R185): the nested one, or the outer
one while it is not suspended. -/
def runningOp (s : State) (o : TOp) : Option (ArrayOp × Nat × Bool) :=
  match o.nested with
  | some a => some (a, s.tck.now - o.nestedSince, o.nestedOver)
  | none => if o.suspended.isSome then none else some (o.op, o.busy + (s.tck.now - o.since), o.overtime)

/-- The profile maximum of an array operation's busy time on a target (R185). -/
def maxBusy (s : State) (ch t : Nat) : ArrayOp → Nat
  | .prog b _ => if b < s.bnd.sysBands then (pfAt s ch t).pslcTprogMax else (pfAt s ch t).tprogMax
  | .erase _ => (pfAt s ch t).tbersMax
  | .sense rid => match (mget s.flc.reads rid).bind (fun r => mget s.bnd.pages r.page) with
    | some p => if p.band < s.bnd.sysBands then (pfAt s ch t).pslcTrMax else (pfAt s ch t).trMax
    | none => (pfAt s ch t).trMax

/-- Results from a carrier whose generation has risen are dropped (R245). -/
def staleDrop (ch t : Nat) (s : State) : State :=
  raise Ev.MBR_STALE_DROPPED [toByte (ch / 4)] (bump MBR_STALE_DROP_CNT
    (setPort (ch / 4) (fun p => { p with staleDrops := p.staleDrops + 1 }) (endOp ch t s)))

/-- Does a port give results that count? -/
def portSpeaks (s : State) (m : Nat) : Bool :=
  let st := (portAt s m).st
  st = .active || st = .rebuilding || st = .spare

/-! ### Programs -/

/-- The pages of a program unit on one channel. -/
def unitKeys (s : State) (b unit ch : Nat) : List Nat :=
  (s.bnd.pages.filter (fun p => p.2.band = b && p.2.ch = ch && p.2.unit s = unit)).map (·.1)

/-- Has every page of a unit been transferred on its channel? -/
def unitFull (s : State) (b unit pos k : Nat) : Bool :=
  (List.range (unitPages s b)).all (fun i => match pageAt s b (unit * unitPages s b + i) pos k with
    | some p => p.st = .transferred
    | none => false)

/-- Temperature band of a die, without hysteresis (Table 13.3, R194). -/
def dieBand (t : Int) : Nat := if t < 0 then 0 else if t < 45 then 1 else if t < 85 then 2 else if t < 95 then 3 else if t < 105 then 4 else 5

/-- Mean temperature of the dies of a band's target sets (R193). -/
def bandTemp (s : State) (b : Nat) : Int :=
  let l := s.flc.dieTemps.filter (fun p => p.1 % 32 / Nat.max 1 s.flc.profile.tpb = setOf s b && (bandChans s b).contains (p.1 / 32))
  if l.isEmpty then 0 else (l.map (·.2)).sum / l.length

/-- The stamp word's time field (R193). -/
def stampTime (s : State) : Nat :=
  if !s.tck.timeSet then 0x0FFFFFFF
  else
    let v := s.tck.fleet / 16000000000 % 2 ^ 28
    if v = 0x0FFFFFFF then 0x0FFFFFFE else v

/-- Take the stamps whose row lies in a unit now being programmed first on any channel (R193). -/
def stampUnit (b unit : Nat) (s : State) : State :=
  let rows := bandRows s b
  let u := unitPages s b
  let new := (List.range 64).filter (fun i => i * rows / 64 / Nat.max 1 u = unit && !mhas (mgetD s.flc.stamps b []) i)
  if new.isEmpty then s
  else
    let m := new.foldl (fun m i => mput m i (dieBand (bandTemp s b), stampTime s)) (mgetD s.flc.stamps b [])
    { s with flc := { s.flc with stamps := mput s.flc.stamps b m } }

/-- The last codeword of a unit is transferred: program confirm (R180). The write pointer advances by u. -/
def confirmUnit (b unit pos k ch : Nat) (s : State) : State :=
  if !unitFull s b unit pos k then s
  else
    let u := unitPages s b
    let s := startOp ch (targetOf s b unit) (.prog b unit) s
    let s := setBlk ch b (fun x => { x with
      ptr := (unit + 1) * u, st := if bandRows s b ≤ (unit + 1) * u then .full else .open_ }) s
    stampUnit b unit (bump (FLC_PROG_CNT ch) s)

/-- A refused program (R175, R176): its pages are placed elsewhere, its slots are left unused. -/
def refuseProg (p : Page) (key : Nat) (s : State) : State :=
  let b := blkOf s p.ch p.band
  let code := if b.st = .retired then Ev.FLC_BLOCK_RETIRED else Ev.FLC_PROGRAM_NOT_ERASED
  orphanStep (reissue false key (refuseOp code p.ch p.band b.ptr p.row s))

/-- Begin a program unit with its first transferred page (R180, Table 7.3): OPEN_TIME, the block Open; where an operation of the target
is suspended, the unit is the one that the suspension may take (Table 6.8 step 2). -/
def beginUnit (p : Page) (s : State) : State :=
  let unit := p.unit s
  let first := !(openAt s p.band).issued
  let s := if first then setBand p.band (fun e => { e with openTime := if s.tck.timeSet then s.tck.fleet else 0 }) s else s
  let s := setOpen p.band (fun o => { o with issued := true, started := mput o.started p.ch (unit + 1) }) s
  let t := targetOf s p.band unit
  let s := match tgtAt s p.ch t with
    | some o => setTgt p.ch t (some { o with progIn := true }) s
    | none => s
  setBlk p.ch p.band (fun x => if x.st = .erased then { x with st := .open_ } else x) s

/-- The pages of a page's unit on its channel that are transferred before it (R175). -/
def unitBefore (s : State) (p : Page) : List (Option Page) :=
  (earlierRows (parityCount s) (bandAt s p.band).active p.band (p.unit s * unitPages s p.band) p.row p.pos).map
    (fun r => pageAt s p.band r p.pos (p.ch % 4))

/-- Do the pages of the unit before a page lie transferred on its channel, in ascending row order (R175)? -/
def inRowOrder (s : State) (p : Page) : Bool := (unitBefore s p).all (fun q => q.any (fun q => q.st ≠ .queued))

/-- Has the page's unit begun on its channel? -/
def unitBegun (s : State) (p : Page) : Bool :=
  (p.unit s < mgetD (openAt s p.band).started p.ch 0)
    || (unitKeys s p.band (p.unit s) p.ch).any (fun k => match mget s.bnd.pages k with | some q => q.st = .transferred | none => false)

/-- A page's last codeword is transferred: it is sealed, folded into its group, its unit confirmed when whole. -/
def pageDone (key : Nat) (p : Page) (s : State) : State :=
  let unit := p.unit s
  let s := sealPage key s
  let s := { s with bnd := { s.bnd with pages := mupd s.bnd.pages key (fun q => { q with st := .transferred }) } }
  let s := touchUnit p.band unit p.ch s
  let s := if p.src = .parityP ∨ p.src = .parityQ then s else parityStep p.band unit s
  confirmUnit p.band unit p.pos (p.ch % 4) p.ch s

/-- Take one slot from a waiting operation. -/
def takeOp (o : Op) (s : State) : State :=
  let q := s.tck.queue.map (fun x => if x.kind = o.kind ∧ x.ch = o.ch then { x with left := x.left - 1 } else x)
  { s with tck := { s.tck with queue := q.filter (fun x => 0 < x.left) } }

/-- Slots that a waiting operation still needs. -/
def opLeft (s : State) (o : Op) : Nat :=
  match s.tck.queue.find? (fun x => x.kind = o.kind ∧ x.ch = o.ch) with
  | some x => x.left
  | none => 0

/-- A slot carries one codeword of a page (R33, R180), unless FLC refuses it: the block neither Erased nor Open, a unit whose first row is
not at the write pointer, or a page out of row order (R175). -/
def xferProg (o : Op) (key : Nat) (s : State) : State :=
  match mget s.bnd.pages key with
  | none => takeOp { o with left := 1 } s
  | some p =>
    let t := targetOf s p.band (p.unit s)
    let blk := blkOf s p.ch p.band
    let go := fun (s : State) =>
      let s := takeOp o s
      if opLeft s o = 0 then pageDone key p s else s
    if unitBegun s p then (if inRowOrder s p then go s else refuseProg p key s)
    else if s.thm.pfail ∨ partialAt s p.ch t then s
    else if !canStart s p.ch t true then orderSuspend p.ch t true s
    else if (blk.st ≠ .erased ∧ blk.st ≠ .open_) ∨ blk.ptr ≠ p.unit s * unitPages s p.band ∨ !inRowOrder s p then refuseProg p key s
    else go (beginUnit p s)

/-! ### Erases -/

/-- A slot issues the erase of a band's block to each target of its set (R184), unless FLC refuses it (R176). -/
def xferErase (o : Op) (b : Nat) (s : State) : State :=
  let blk := blkOf s o.ch b
  let ts := (List.range s.flc.profile.tpb).map (fun i => setOf s b * s.flc.profile.tpb + i)
  if s.thm.pfail then s
  else if blk.st = .open_ then refuseOp Ev.FLC_ERASE_OPEN_BLOCK o.ch b blk.ptr 0 (takeOp o s)
  else if blk.st = .retired then refuseOp Ev.FLC_BLOCK_RETIRED o.ch b blk.ptr 0 (takeOp o s)
  else if !bitAt (mgetD s.flc.fitted o.ch 0) (ts.headD 0) ∨ (pfAt s o.ch (ts.headD 0)).blocks ≤ physOf s o.ch (setOf s b) (virtOf s b) then
    refuseOp Ev.FLC_ADDRESS_RANGE o.ch b blk.ptr 0 (takeOp o s)
  else if ts.any (fun t => (tgtAt s o.ch t).isSome || partialAt s o.ch t) then s
  else
    let s := setBlk o.ch b (fun x => { x with st := .erasing, refine := 0 }) (takeOp o s)
    bump (FLC_ERASE_CNT o.ch) (forAll ts (fun t => startOp o.ch t (.erase b)) s)

/-- One filled slot of the plan issues (Table 2.2 step 1). -/
def xferSlot (it : PlanItem) (s : State) : State :=
  if opLeft s it.op = 0 ∨ chanStopped s it.op.ch ∨ (portAt s (it.op.ch / 4)).unavailable then s
  else match it.op.kind with
    | .prog key => xferProg it.op key s
    | .erase b => xferErase it.op b s

/-! ### Senses -/

/-- Channel and target of a codeword read. -/
def readTarget (s : State) (r : Rd) : Option (Nat × Nat) :=
  match r.use with
  | .raw _ _ _ _ x => some (x.ch, x.target)
  | _ => (mget s.bnd.pages r.page).map (fun p => (p.ch, targetOf s p.band (p.unit s)))

/-- Change a codeword read. -/
def setRead (rid : Nat) (f : Rd → Rd) (s : State) : State :=
  { s with flc := { s.flc with reads := mupd s.flc.reads rid f } }

/-- The request that a read belongs to: reads of one request share the sense of a page (R182). -/
def RdFor.owner : RdFor → Nat × Nat
  | .host id _ => (0, id)
  | .copy id _ => (1, id)
  | .rebuild page _ => (2, page)
  | .fleetOld id _ => (3, id)
  | .fleetReq id _ => (4, id)
  | .selfTest seg => (5, seg)
  | .survivor rid _ => (6, rid)
  | .raw _ tag _ _ _ => (7, tag)
  | .readBack page _ => (8, page)
  | .sys page _ => (9, page)

/-- Do two waiting reads share a sense: of one request, one page, one class and the same read offsets? -/
def sameSense (a b : Rd) : Bool :=
  a.use.owner = b.use.owner && a.page = b.page && a.cls = b.cls && a.attempt = b.attempt && a.shift = b.shift && a.strobe = b.strobe
    && a.phase = .waiting && b.phase = .waiting

/-! ### Read thresholds -/

/-- The age bucket of R194: the smallest a with age < 60 × 4^a, at most 15. -/
def ageBucket (age : Nat) : Nat := ((List.range 16).find? (fun a => decide (age < 60 * 4 ^ a))).getD 15

/-- An offset held to −128 … 127. -/
def clamp8 (x : Int) : Int := max (-128) (min 127 x)

/-- Threshold k of an entry of a table of signed offsets. -/
def offsetOf (t : List (List Int)) (i k : Nat) : Int := (t.getD i []).getD (k - 1) 0

/-- The stamp of a row: that of its part of the band, or the nearest earlier one that is valid (R193). -/
def stampOf (s : State) (b row : Nat) : Option (Nat × Nat) :=
  let i := row * 64 / Nat.max 1 (bandRows s b)
  (((mgetD s.flc.stamps b []).filter (fun p => p.1 ≤ i && p.2.1 ≠ 0xF)).getLast?).map (·.2)

/-- The age of a row's data in seconds, where it can be computed (R194). -/
def ageOf (s : State) (st : Nat × Nat) : Option Nat :=
  let now := s.tck.fleet / 16000000000
  if st.2 = 0x0FFFFFFF ∨ !s.tck.timeSet ∨ now < st.2 then none else some ((now - st.2) * 16)

/-- The offset of threshold k for a read of a row (R194); at a retry with its shift in place of REFINE and its RETRY entry (R196). -/
def threshold (s : State) (b row ch t k : Nat) (shift : Int) (retry : Nat) : Int :=
  let pf := pfAt s ch t
  let v := dieBand (mgetD s.flc.dieTemps (tgtKey ch t) 0)
  let st := (stampOf s b row).getD (dieBand (bandTemp s b), 0x0FFFFFFF)
  let a := match ageOf s st with
    | some age => ageBucket age
    | none => 0
  let extra := if retry = 0 then 0 else offsetOf pf.retry (retry - 1) k
  clamp8 (offsetOf pf.curve (st.1 * 16 + a) k + offsetOf pf.xtemp (st.1 * 6 + v) k + shift + extra)

/-- The thresholds that a page level uses (LEVEL_MASK of Table 6.3). -/
def levelThresholds (pf : Profile) (level : Nat) : List Nat :=
  ((List.range 15).filter (bitAt (pf.levelMask.getD level 0))).map (· + 1)

/-- The offsets at which a read is sensed: those of its thresholds, and at a strobe read SOFT_DELTA below or above them (R190). -/
def readOffsets (s : State) (r : Rd) (p : Page) : List Int :=
  let place := bandPlace s p.band p.row
  let pf := pfAt s p.ch place.1
  let shift := if r.attempt = 0 then (blkOf s p.ch p.band).refine else r.shift
  let strobe : Int := if r.strobe = 1 then -(pf.softDelta : Int) else if r.strobe = 2 then pf.softDelta else 0
  (levelThresholds pf place.2.2.2.1).map (fun k => clamp8 (threshold s p.band p.row p.ch place.1 k shift r.attempt + strobe))

/-- Does a read name a block whose erase is suspended, or a page of a program unit that runs or is suspended (R189)? -/
def rawRefusal (s : State) (x : RawPlace) : Option Nat :=
  let sameBlk := fun (b : Nat) => setOf s b = x.set && physOf s x.ch x.set (virtOf s b) = x.block
  let same := fun (a : ArrayOp) => match a with
    | .prog b u => sameBlk b && u = unitOf s b x.row
    | _ => false
  match tgtAt s x.ch x.target with
  | none => none
  | some o =>
    if (match o.op with | .erase b => sameBlk b && o.suspended.isSome | _ => false) then some Ev.FLC_ERASE_SUSPENDED_TARGET
    else if same o.op || (o.nested.map same).getD false then some Ev.FLC_PROGRAM_SUSPENDED_TARGET
    else none

/-- Set the read offsets of a target where they differ from those a read needs: one feature transfer (R162, R194); none where the channel
has no room for it in this tick. -/
def setOffsets (ch t : Nat) (l : List Int) (s : State) : Option State :=
  if mget s.flc.offsets (tgtKey ch t) = some l then some s
  else if dqRoom s ch then some (dqTake ch { s with flc := { s.flc with offsets := mput s.flc.offsets (tgtKey ch t) l } })
  else none

/-- The sense of a read starts, and serves every waiting read that shares it (R182). -/
def startSense (rid : Nat) (r : Rd) (ch t : Nat) (s : State) : State :=
  let gen := (portAt s (ch / 4)).gen
  let go := fun (x : Rd) => { x with
    phase := .sensing, gen := gen, sense := rid
    issued := if x.attempt = 0 ∧ x.strobe = 0 then s.tck.now else x.issued }
  let s := { s with flc := { s.flc with reads := s.flc.reads.map (fun p =>
    if p.1 = rid ∨ sameSense r p.2 then (p.1, go p.2) else p) } }
  startOp ch t (.sense rid) s

/-- Does a diagnostic read name a block whose erase runs: no suspend serves it (R187)? -/
def rawWaits (s : State) (r : Rd) : Bool :=
  match r.use with
  | .raw _ _ _ _ x => (match tgtAt s x.ch x.target with
    | some o => (match o.op with
      | .erase b => o.suspended.isNone && setOf s b = x.set && physOf s x.ch x.set (virtOf s b) = x.block
      | _ => false)
    | none => false)
  | _ => false

/-- The refusal that a diagnostic read meets when its sense is to be issued (R189). -/
def rawStops (s : State) (r : Rd) : Option Nat := match r.use with | .raw _ _ _ _ x => rawRefusal s x | _ => none

/-- A diagnostic read is refused (R189). -/
def refuseRaw (rid : Nat) (r : Rd) (s : State) : State :=
  match r.use with
  | .raw src tag _ _ x =>
    let code := (rawStops s r).getD 0
    completeErr src tag code (refuseOp code x.ch x.block (physBlk s x.ch x.set x.block).ptr x.row
      { s with flc := { s.flc with reads := mdel s.flc.reads rid } })
  | _ => s

/-- Issue the sense of a planned read, or order the suspend that it needs (R182, R187). A read whose carrier is Unavailable is
reconstructed (R248). -/
def issueSense (rid : Nat) (s : State) : State :=
  match mget s.flc.reads rid with
  | none => s
  | some r =>
    if r.phase ≠ .waiting then s
    else match readTarget s r with
      | none => setRead rid (fun r => { r with phase := .recon }) s
      | some (ch, t) =>
        if (portAt s (ch / 4)).unavailable then
          (match r.use with | .raw _ _ _ _ _ => s | _ => setRead rid (fun r => { r with phase := .recon }) s)
        else if chanStopped s ch ∨ partialAt s ch t ∨ rawWaits s r then s
        else if (rawStops s r).isSome then refuseRaw rid r s
        else if canStart s ch t false then
          match mget s.bnd.pages r.page with
          | some p => (match setOffsets ch t (readOffsets s r p) s with
            | some s => startSense rid r ch t s
            | none => s)
          | none => startSense rid r ch t s
        else orderSuspend ch t false s

/-- The target on which a read's sense runs. -/
def senseTarget (s : State) (rid : Nat) : Option Nat :=
  (s.flc.targets.find? (fun p => p.2.op = .sense rid || p.2.nested = some (.sense rid))).map (·.1)

/-- SENSE_COMPLETE (R182): the reads that the sense serves are eligible for the next slots of their class. -/
def execSenseComplete (rid : Nat) (s : State) : Host.Outcome State Fault Refusal :=
  .next (match senseTarget s rid with
    | none => s
    | some key =>
      if !collects s (key / 32) then s
      else if !portSpeaks s (key / 128) then staleDrop (key / 32) (key % 32) s
      else
        let s := dqTake (key / 32) (endOp (key / 32) (key % 32) s)
        { s with flc := { s.flc with reads := s.flc.reads.map (fun p =>
          if p.2.phase = .sensing ∧ p.2.sense = rid then (p.1, { p.2 with phase := .ready }) else p) } })

/-- SUSPEND_STATUS (Table 6.8 step 2): the operation's busy time stops, and the planned reads of other blocks are issued in the
suspension. -/
def execSuspendStatus (ch target : Nat) (s : State) : Host.Outcome State Fault Refusal :=
  .next (match tgtAt s ch target with
    | none => s
    | some o =>
      if !o.ordered ∨ !collects s ch then s
      else
        let s := dqTake ch (setTgt ch target (some { o with
          ordered := false, suspended := some s.tck.now, busy := o.busy + (s.tck.now - o.since), count := o.count + 1, progIn := false }) s)
        let mine := s.tck.senses.filter (fun rid => match mget s.flc.reads rid with
          | some r => r.phase = .waiting && readTarget s r = some (ch, target)
          | none => false)
        match mine with
        | rid :: _ => issueSense rid s
        | [] => s)

/-- Is work waiting for a target? -/
def targetWanted (s : State) (ch t : Nat) : Bool :=
  s.tck.senses.any (fun rid => match mget s.flc.reads rid with
    | some r => r.phase = .waiting && readTarget s r = some (ch, t)
    | none => false)
  || s.tck.plan.any (fun it => it.op.ch = ch && match it.op.kind with
    | .prog key => match mget s.bnd.pages key with
      | some p => targetOf s p.band (p.unit s) = t
      | none => false
    | .erase _ => false)

/-- At a tick edge: resume what has no planned work, or has been suspended for SUS_MAX_HOLD, once a program unit begun in the suspension
has ended (Table 6.8 step 5). -/
def resumeStep (s : State) : State :=
  if s.thm.pfail then s
  else forAll s.flc.targets (fun p s =>
    match p.2.suspended, p.2.nested with
    | some t0, none =>
      if chanStopped s (p.1 / 32) ∨ partialAt s (p.1 / 32) (p.1 % 32) then s
      else if !targetWanted s (p.1 / 32) (p.1 % 32) ∨ (pfAt s (p.1 / 32) (p.1 % 32)).susMaxHold ≤ s.tck.now - t0 then
        setTgt (p.1 / 32) (p.1 % 32) (some { p.2 with suspended := none, since := s.tck.now, progIn := false }) s
      else s
    | _, _ => s) s

/-! ### Rebuild of a band (Table 8.10) -/

/-- Is a read one of the rebuild's, or of a survivor for one? -/
def forRebuild (s : State) (r : Rd) : Bool :=
  match r.use with
  | .rebuild _ _ => true
  | .survivor rid _ => (match mget s.flc.reads rid with
    | some q => (match q.use with | .rebuild _ _ => true | _ => false)
    | none => false)
  | _ => false

/-- The target's blocks of the band being rebuilt start again from step 1. -/
def rebuildRestart (b : Nat) (s : State) : State :=
  match s.mbr.rebuild with
  | none => s
  | some r =>
    let chs := (List.range 4).map (4 * r.port + ·)
    let s := { s with
      mbr := { s.mbr with rebuild := some { r with band := some b, row := 0 } }
      flc := { s.flc with reads := s.flc.reads.filter (fun p => !forRebuild s p.2) }
      tck := { s.tck with queue := s.tck.queue.filter (fun o => o.cls ≠ .u) } }
    startErase b chs s

/-- Start reading the next unit of the band being rebuilt: each codeword of the position's pages is reconstructed. -/
def rebuildUnit (b : Nat) (r : Rebuild) (s : State) : State :=
  let u := unitPages s b
  forAll ((List.range u).flatMap (fun i => (List.range 4).map (fun k => (r.row + i, k)))) (fun x s =>
    let key := pageKey b x.1 r.position x.2
    let p : Page := { band := b, row := x.1, slot := 63, pos := r.position, ch := 4 * r.port + x.2, src := .write, cls := .u
                      stream := 0, st := .gone }
    let s := if mhas s.bnd.pages key then s else { s with bnd := { s.bnd with pages := mput s.bnd.pages key p } }
    forAll (List.range 4) (fun c s => { s with flc := { s.flc with
      reads := mput s.flc.reads s.flc.nextRead { use := .rebuild key c, cls := .u, page := key, cw := c, phase := .recon }
      nextRead := s.flc.nextRead + 1 } }) s) s

/-- One step of the rebuild at a tick edge (R253). -/
def rebuildStep (s : State) : State :=
  match s.mbr.rebuild with
  | none => s
  | some r =>
    if (portAt s r.port).unavailable then s
    else match r.band with
      | none =>
        if r.marked.isEmpty then rebuildEnd s
        else
          let ready := r.marked.filter (fun b => (bandAt s b).st = .closed)
          match (ready.filter (fun b => (bandAt s b).failed)) ++ ready with
          | b :: _ => rebuildRestart b s
          | [] => s
      | some b =>
        let busy := mhas s.bnd.erasing b
          || s.flc.reads.any (fun p => match p.2.use with | .rebuild _ _ => true | _ => false)
          || s.bnd.pages.any (fun p => p.2.band = b && p.2.pos = r.position && (p.2.st = .queued || p.2.st = .transferred))
        if busy then s
        else if (bandAt s b).endRow ≤ r.row then
          let s := forAll (List.range 4) (fun k => setBlk (4 * r.port + k) b (fun x => { x with st := .full })) s
          let s := { s with mbr := { s.mbr with rebuild := some { r with marked := dropFrom r.marked b, done := r.done + 1, band := none } } }
          let s := setReg MBR_REBUILD_DONE (toWord (r.done + 1)) s
          if (dropFrom r.marked b).isEmpty then rebuildEnd s else s
        else rebuildUnit b r s

/-- The four pages of every row of a unit have been reconstructed: FLC programs the unit in U slots (Table 8.10 step 4). -/
def rebuildProgram (s : State) : State :=
  match s.mbr.rebuild with
  | none => s
  | some r =>
    match r.band with
    | none => s
    | some b =>
      if s.flc.reads.any (fun p => match p.2.use with | .rebuild _ _ => true | _ => false) then s
      else forAll ((List.range (unitPages s b)).flatMap (fun i => (List.range 4).map (fun k => (r.row + i, k)))) (fun x s =>
        match pageAt s b x.1 r.position x.2 with
        | some p => putAt false { p with ch := 4 * r.port + x.2, cls := .u, st := .queued, rebuilt := true } s
        | none => s) s

/-! ### Statuses -/

/-- The program unit that a target is running. -/
def runningProg (o : TOp) : Option (Nat × Nat) :=
  match o.nested, o.op with
  | some (.prog b u), _ => some (b, u)
  | none, .prog b u => if o.suspended.isNone then some (b, u) else none
  | _, _ => none

/-- A unit of the band being rebuilt has passed on every channel: the next unit follows. -/
def rebuildPassed (b unit : Nat) (s : State) : State :=
  match s.mbr.rebuild with
  | none => s
  | some r =>
    if r.band = some b ∧ r.row = unit * unitPages s b ∧ !(s.bnd.pages.any (fun p =>
        p.2.band = b && p.2.pos = r.position && (p.2.st = .queued || p.2.st = .transferred))) then
      rebuildStep { s with mbr := { s.mbr with rebuild := some { r with row := r.row + unitPages s b } } }
    else s

/-- A program unit fails its status (R177): the block is Retired, readable below the unit. An Open band is closed early under
R213; on a rebuild target the band starts again with the replacement, or the target fails with cause 0x7 (R253). -/
def progFail (b unit ch : Nat) (s : State) : State :=
  let row := unit * unitPages s b
  let s := setBlk ch b (fun x => { x with st := .retired, readTo := row }) s
  let s := raise Ev.FLC_PROGRAM_FAIL ([toByte ch] ++ le 4 b ++ le 4 row) (bump (FLC_PROG_FAIL_CNT ch) s)
  if (bandAt s b).st = .open_ then bandFail b ch unit s
  else
    let s := bump (BND_Mm_PROG_FAIL (ch / 4)) s
    if sparesOf s ch (setOf s b) = 0 then declareFailed (ch / 4) 7 (raise Ev.MBR_REBUILD_NO_BLOCK [toByte ch] s)
    else rebuildRestart b (replaceBlk ch b s)

/-- PROGRAM_STATUS (R180, R177). -/
def execProgramStatus (ch target : Nat) (pass : Bool) (s : State) : Host.Outcome State Fault Refusal :=
  .next (match tgtAt s ch target with
    | none => s
    | some o => match runningProg o with
      | none => s
      | some (b, unit) =>
        if !collects s ch then s
        else if !portSpeaks s (ch / 4) then staleDrop ch target s
        else
          let s := dqTake ch (endOp ch target s)
          if pass then
            let keys := unitKeys s b unit ch
            let s := { s with bnd := { s.bnd with pages := keys.foldl (fun m k => mupd m k (fun p =>
              if p.st = .transferred then { p with st := .passed } else p)) s.bnd.pages } }
            rebuildPassed b unit (finishBand b s)
          else progFail b unit ch s)

/-- The band whose erase a target is running. -/
def runningErase (o : TOp) : Option Nat :=
  match o.op with
  | .erase b => if o.suspended.isNone then some b else none
  | _ => none

/-- ERASE_STATUS (R184, R177, R207, R223): a block is Erased when every target of its set has passed. -/
def execEraseStatus (ch target : Nat) (pass : Bool) (s : State) : Host.Outcome State Fault Refusal :=
  .next (match tgtAt s ch target with
    | none => s
    | some o => match runningErase o with
      | none => s
      | some b =>
        if !collects s ch then s
        else if !portSpeaks s (ch / 4) then staleDrop ch target s
        else
          let s := dqTake ch (endOp ch target s)
          let others := (List.range s.flc.profile.tpb).any (fun i =>
            match tgtAt s ch (setOf s b * s.flc.profile.tpb + i) with
            | some x => x.op = .erase b
            | none => false)
          if pass then
            if others ∨ (blkOf s ch b).st ≠ .erasing then s
            else erasePassed b ch (setBlk ch b (fun x => { x with st := .erased, ptr := 0, refine := 0 }) s)
          else if (blkOf s ch b).st = .retired then s
          else
            let s := setBlk ch b (fun x => { x with st := .retired, readTo := 0 }) s
            let s := bump (BND_Mm_ERASE_FAIL (ch / 4)) (bump (FLC_ERASE_FAIL_CNT ch)
              (raise Ev.FLC_ERASE_FAIL ([toByte ch] ++ le 4 b) s))
            eraseFailed b ch s)

/-- FLC_OP_OVERTIME (R185): the busy time of the operation that a target runs has passed the profile maximum; raised once. -/
def execFlcOpOvertime (ch target : Nat) (s : State) : Host.Outcome State Fault Refusal :=
  .next (match tgtAt s ch target with
    | none => s
    | some o => match runningOp s o with
      | none => s
      | some (a, busy, over_) =>
        if over_ ∨ busy ≤ maxBusy s ch target a then s
        else
          let s := setTgt ch target (some (if o.nested.isSome then { o with nestedOver := true } else { o with overtime := true })) s
          bump (MBR_Mm_TIMEOUT_CNT (ch / 4)) (setPort (ch / 4) (fun p => { p with timeouts := p.timeouts + 1 })
            (bump (FLC_OVERTIME_CNT ch) (raise Ev.FLC_OP_OVERTIME [toByte ch, toByte target] s))))

/-- MEMBER_TIMEOUT (R246): the busy time of an operation exceeds the profile maximum by more than MBR_TIMEOUT; a suspended interval never
counts. -/
def execMemberTimeout (port : Nat) (s : State) : Host.Outcome State Fault Refusal :=
  let late := fun (t : Nat × TOp) => t.1 / 128 = port && match runningOp s t.2 with
    | some (a, busy, _) => decide (maxBusy s (t.1 / 32) (t.1 % 32) a + 1000000 * fld s MBR_TIMEOUT 7 0 < busy)
    | none => false
  .next (if port < 9 ∧ ((portAt s port).st = .active ∨ (portAt s port).st = .rebuilding ∨ (portAt s port).st = .spare) ∧
      s.flc.targets.any late then
    declareFailed port 1 (raise Ev.MBR_MEMBER_TIMEOUT [toByte port] s)
  else s)

/-- The data places of a channel's program unit that no page has: (row, position, channel position, linear page slot). -/
def unitGaps (s : State) (b unit ch : Nat) : List (Nat × Nat × Nat × Nat) :=
  let u := unitPages s b
  match portPos s (ch / 4) with
  | none => []
  | some pos => (List.range u).filterMap (fun i =>
      let row := unit * u + i
      match pageAt s b row pos (ch % 4), placeSlot s b row pos (ch % 4) with
      | none, some slot => some (row, pos, ch % 4, row * dOf s b + slot)
      | _, _ => none)

/-- The last staging or transfer in a channel's unit (R181). A unit that holds no page waits with the one of its group that has waited
longest: the Writes whose pages that holds complete only with the group's parity, for which every channel programs its unit whole (R237,
R238; log entry 77). -/
def unitWait (s : State) (b unit ch : Nat) : Option Nat :=
  let w := (openAt s b).waitFrom
  match mget w (64 * unit + ch) with
  | some t => some t
  | none => (w.filter (fun p => p.1 / 64 = unit)).foldl (fun m p => some (Nat.min p.2 (m.getD p.2))) none

/-- PAD_WAIT_EXPIRED (R181): a channel's partly filled unit idle for PAD_WAIT ticks is completed with pad pages in the class of its
pages; a run whose slots the pads take is given up first. -/
def execPadWaitExpired (band : Nat) (unit : UnitAt) (s : State) : Host.Outcome State Fault Refusal :=
  let ch := unit.ch
  let unit := unit.unit
  let since := (unitWait s band unit ch).getD 0
  let gaps := unitGaps s band unit ch
  let cls := match (unitKeys s band unit ch).filterMap (mget s.bnd.pages) with
    | p :: _ => p.cls
    | [] => classOf s band
  .next (if (bandAt s band).st = .open_ ∧ (openAt s band).closeAt.isNone ∧ (unitWait s band unit ch).isSome ∧
      fld s FLC_G_CFG 23 16 ≤ s.tck.tick - since ∧ !gaps.isEmpty ∧ s.cst.mode.runs then
    let qs := gaps.map (·.2.2.2)
    let runs := (s.map.runs.filter (fun p => p.2.band = band && qs.any (fun q =>
      p.2.start + (p.2.next - p.2.tail.length) / 4 ≤ q && q < p.2.start + 1024))).map (·.1)
    let s := forAll runs giveUpRun s
    let top := qs.foldl (fun m q => Nat.max m (q + 1)) 0
    let s := setOpen band (fun o => { o with
      next := Nat.max o.next top
      holes := (o.holes ++ (List.range (top - o.next)).map (o.next + ·)).filter (fun q => !qs.contains q) }) s
    parityStep band unit (forAll gaps (fun x => padAt cls band x.1 x.2.1 x.2.2.1) s)
  else s)

/-- EXTENT_RUN_GIVEN_UP (R139): the run's next page has stayed unstaged for EXTENT_WAIT ticks. -/
def execExtentRunGivenUp (gsn : Nat) (s : State) : Host.Outcome State Fault Refusal :=
  .next (match mget s.map.runs gsn with
    | some r => if fld s MAP_CFG 7 0 ≤ s.tck.tick - r.since then giveUpRun gsn s else s
    | none => s)

/-- DIE_TEMP_READ (R193): once per second each target's die temperature, as many as a channel carries feature transfers in a tick
(R162); with them the sensors of powered carriers, which MBR reads (R243, log entry 80). -/
def execDieTempRead (temps : TempsSeen) (s : State) : Host.Outcome State Fault Refusal :=
  let s := forAll temps.carriers (fun p => setPort p.1 (fun q => if q.powered then { q with temp := p.2 } else q)) s
  .next (forAll temps.targets (fun p s =>
    if bitAt (mgetD s.flc.fitted (p.1 / 32) 0) (p.1 % 32) ∧ !chanStopped s (p.1 / 32) ∧ dqRoom s (p.1 / 32) then
      dqTake (p.1 / 32) { s with flc := { s.flc with dieTemps := mput s.flc.dieTemps p.1 p.2 } }
    else s) s)

/-- CHANNEL_TRAINING_DONE (R397): the training for the present band passes and its set is used; a failure is retried, and the
eighth raises THM_RETRAIN_FAIL, the channel keeping the previous set. -/
def execChannelTrainingDone (ch : Nat) (pass : Bool) (s : State) : Host.Outcome State Fault Refusal :=
  .next (if 36 ≤ ch ∨ chanStopped s ch ∨ (mgetD s.flc.trained ch []).contains s.thm.band ∨ !bitAt (rg s (FLC_CFG ch)) 0 then s
  else if pass then { s with
    flc := { s.flc with trained := mput s.flc.trained ch (addTo (mgetD s.flc.trained ch []) s.thm.band)
                        trainSet := mput s.flc.trainSet ch s.thm.band }
    thm := { s.thm with trainFails := mdel s.thm.trainFails ch } }
  else
    let n := mgetD s.thm.trainFails ch 0 + 1
    let s := { s with thm := { s.thm with trainFails := mput s.thm.trainFails ch n } }
    if n = 8 then raise Ev.THM_RETRAIN_FAIL [toByte ch] s else s)

end Sys2Proof.Machine
end

