-- ==== Sys2Proof/Machine/Table.lean ====
section
/-! DEFINITION. The characteristic table as the Watch reads it: the tables in force and waiting, their check (R42-R45), the classes of
slots and their lending (Tables 2.3-2.5). -/

namespace Sys2Proof.Machine

/-- The four-bit class code at an index of a table row (Table 2.3). -/
def ctNibble (r : CtRow) (i : Nat) : Nat := match r.cls.find? (fun c => c.1 = i) with | some c => c.2 % 16 | none => 0

/-- The table in force. -/
def tableNow (s : State) : CtTable := if s.tck.bufB then s.tck.tables.2 else s.tck.tables.1

/-- The table in the inactive buffer. -/
def tableNext (s : State) : CtTable := if s.tck.bufB then s.tck.tables.1 else s.tck.tables.2

/-- The period that TCK_CFG asks for: it takes effect at the next table boundary (R34). -/
def nextPeriod (s : State) : Nat := fld s TCK_CFG 1 0

/-- Does row k of a table fail a check of R45 for S slots per channel? -/
def rowFails (slots k : Nat) (r : CtRow) : Bool :=
  r.row ≠ k || r.rsv || r.wCount ≠ (r.cls.filter (fun c => c.2 = 1)).length
    || r.cls.any (fun c => 864 ≤ c.1 || 7 ≤ c.2 || (c.2 ≠ 0 && slots ≤ c.1 % 24))

/-- The first row from k on that fails. -/
def badRow (slots : Nat) : Nat → List CtRow → Option Nat
  | _, [] => none
  | k, r :: rs => if rowFails slots k r then some k else badRow slots (k + 1) rs

/-- The first failing row of a table: one without rows, or with more than 4,096, fails at its first row out of range. -/
def tableFails (slots : Nat) (t : CtTable) : Option Nat :=
  if t.rows.isEmpty then some 0 else if 4096 < t.rows.length then some 4096 else badRow slots 0 t.rows

/-- Table, row and slots per channel of the next tick: at a table boundary the period and a sound new table take effect. -/
def rowAhead (s : State) : CtTable × Nat × Nat :=
  let t := tableNow s
  let k := (s.tck.tick + 1 - s.tck.swapTick) % Nat.max 1 t.rows.length
  if k ≠ 0 then (t, k, slotsPerTick s.tck.period)
  else
    let slots := slotsPerTick (nextPeriod s)
    if s.tck.swapPending ∧ (tableFails slots (tableNext s)).isNone then (tableNext s, 0, slots) else (t, 0, slots)

/-- The class of a code (Table 2.4). -/
def clsOf : Nat → Cls
  | 1 => .w
  | 2 => .b
  | 3 => .d
  | 4 => .c
  | 5 => .u
  | 6 => .m
  | _ => .idle

/-- The class of slot i of a channel in row k of a table; slots past S are Idle (R34). -/
def slotCls (t : CtTable) (k slots ch i : Nat) : Cls :=
  if slots ≤ i then .idle
  else match t.rows[k]? with
    | some r => clsOf (ctNibble r (24 * ch + i))
    | none => .idle

/-- Slots of a channel with a class's own code in row k. -/
def ownSlots (t : CtTable) (k slots ch : Nat) (cl : Cls) : Nat :=
  ((List.range slots).filter (fun i => slotCls t k slots ch i = cl)).length

/-- The classes that take a slot, in order (Table 2.5). -/
def lendOrder : Cls → List Cls
  | .w => [.w, .b]
  | .b => [.b, .d, .c]
  | .d => [.d, .b, .c]
  | .c => [.c, .u, .d]
  | .u => [.u, .c, .d]
  | .m => [.m, .c]
  | .idle => []

/-- Class codes (Table 2.4). -/
def Cls.code : Cls → Nat
  | .idle => 0
  | .w => 1
  | .b => 2
  | .d => 3
  | .c => 4
  | .u => 5
  | .m => 6

end Sys2Proof.Machine
end

