-- ==== Sys2Proof/Machine/Mem.lean ====
section
/-! DEFINITION. MEM: errors of protected memory (R341, R345-R348, Table 11.8) and the word code (R340). -/

namespace Sys2Proof.Machine

/-! ### The word code (R340) -/

/-- The remainder of a polynomial of n bits, taken bit by bit from the top, by g(x) = x^15 + x^14 + x^10 + x^8 + x^7 + x^4 +
x^3 + 1. -/
def wordRem : Nat → BitVec 80 → BitVec 15 → BitVec 15
  | 0, _, r => r
  | n + 1, d, r =>
    let out := r.getLsbD 14
    let sh := (r <<< 1) ||| (BitVec.zeroExtend 15 ((d >>> n) &&& 1))
    wordRem n d (if out then sh ^^^ 0x4599 else sh)

/-- Address bit A: XOR of address bits [39:3] of the word (Table 11.5). -/
def addrParity (a : Nat) : Bool := (List.range 37).foldl (fun p i => p != bitAt a (i + 3)) false

/-- The 80-bit code word of a data word at an address (Table 11.5): A, DATA, CHECK. -/
def codeWord (a : Nat) (d : BitVec 64) : BitVec 80 :=
  let top : BitVec 80 := ((BitVec.ofBool (addrParity a)).zeroExtend 80 <<< 79) ||| (d.zeroExtend 80 <<< 15)
  top ||| (wordRem 80 top 0).zeroExtend 80

/-- Zero for a code word as encoded (Table 11.6). -/
def syndrome (c : BitVec 80) : BitVec 15 := wordRem 80 c 0

/-- The word with bit i alone set. -/
def oneBit (i : Nat) : BitVec 80 := (1 : BitVec 80) <<< i

/-- The one or two bit errors with a syndrome, where there are any: the code's distance of 6 leaves one such pattern. -/
def errorBits (syn : BitVec 15) : Option (List Nat) :=
  let one := (List.range 80).map (fun i => (i, syndrome (oneBit i)))
  match one.find? (fun e => e.2 = syn) with
  | some e => some [e.1]
  | none => one.findSome? (fun e => (one.find? (fun f => e.1 < f.1 && e.2 ^^^ f.2 = syn)).map (fun f => [e.1, f.1]))

/-- What a read of a word comes to (Table 11.6). -/
inductive WordRead where
  | clean (d : BitVec 64)
  | corrected (d : BitVec 64)
  | addressError
  | uncorrectable
  deriving DecidableEq, Repr

/-- Decode a word with A recomputed from the address requested (R341, Table 11.6). -/
def decodeWord (a : Nat) (c : BitVec 80) : WordRead :=
  let c := (c &&& ~~~(oneBit 79)) ||| ((BitVec.ofBool (addrParity a)).zeroExtend 80 <<< 79)
  let data := fun (x : BitVec 80) => x.extractLsb' 15 64
  if syndrome c = 0 then .clean (data c)
  else match errorBits (syndrome c) with
    | none => .uncorrectable
    | some es => if es.contains 79 then .addressError else .corrected (data (es.foldl (fun x i => x ^^^ oneBit i) c))

/-! ### Errors -/

/-- A memory instance's counts. -/
def instAt (s : State) (i : Nat) : MemInst := mgetD s.memc.insts i {}

/-- Change a memory instance's counts. -/
def setInst (i : Nat) (f : MemInst → MemInst) (s : State) : State :=
  { s with memc := { s.memc with insts := mput s.memc.insts i (f (instAt s i)) } }

/-- Kind and spares of an instance (R345, R346); none where there is no such instance. -/
def instKind (i : Nat) : Option (Nat × Nat) :=
  if i < 0x100 then some (0, 8) else if i < 0x102 then some (1, 32) else if 0x200 ≤ i ∧ i < 0x240 then some (2, 64) else none

/-- Is a spare of an instance left? -/
def spareLeft (s : State) (i : Nat) : Bool :=
  match instKind i with
  | some k => (instAt s i).remaps.length < k.2
  | none => false

/-- Redirect an address to a spare and write it to the remap list in settings; with none left the address stays (R346). -/
def remapWord (i a : Nat) (s : State) : State :=
  let detail := le 2 i ++ le 8 a
  if !spareLeft s i then raise Ev.MEM_REMAP_FULL detail s
  else
    let s := setInst i (fun m => { m with remaps := m.remaps ++ [a] }) s
    raise Ev.MEM_REMAPPED detail (smartAdd 27 1 (bump MEM_REMAP_CNT (settingsEntry { s with cst := { s.cst with
      remaps := if s.cst.remaps.contains (i, a) then s.cst.remaps else s.cst.remaps ++ [(i, a)] } })))

/-- A word's count in the log after one more correction: a new address enters as entry 0, entry 15 drops out (R345). -/
def logCount (log : List (Nat × Nat)) (a : Nat) : List (Nat × Nat) :=
  if log.any (fun e => e.1 = a) then log.map (fun e => if e.1 = a then (a, Nat.min 255 (e.2 + 1)) else e)
  else ((a, 1) :: log).take 16

/-- A word is corrected and written back (R341): it is counted and logged; a count that reaches a multiple of CE_THRESH is reported, and
an address whose count reaches 3 is remapped (R345, R346). -/
def memCorrected (i a : Nat) (s : State) : State :=
  let s := raise Ev.MEM_CORRECTED (le 2 i ++ le 8 a) (smartAdd 26 1 (bump MEM_CE_CNT s))
  let s := setInst i (fun m => { m with ce := m.ce + 1, log := logCount m.log a }) s
  let s := if (instAt s i).ce % fld s MEM_CFG 15 0 = 0 then raise Ev.MEM_CE_THRESHOLD (le 2 i ++ le 4 (instAt s i).ce) s else s
  if (instAt s i).log.contains (a, 3) then remapWord i a s else s

/-- An MRAM die is lost (R348): the Lantern freezes after MEM_MRAM_DIE_LOST (R418). -/
def dieLost (b : Bool) (s : State) : State :=
  raiseFreeze Ev.MEM_MRAM_DIE_LOST [toByte (b2n b)]
    { s with memc := if b then { s.memc with mramB := false } else { s.memc with mramA := false } }

/-- What a word comes to that cannot be corrected, for whoever reads it: it has good data after all, it is poisoned, or it lies in HBM
staging, where the command whose data holds it completes with MEM_UNCORRECTABLE (Table 11.8). -/
inductive WordEnd where
  | good | poison | staging
  deriving DecidableEq, Repr

/-- The Δ that covers a 4 KiB unit of the keeper buffer is missing: its entry is resolved as for a keeper that restarts (Tables 11.8
and 9.6). -/
def keeperWordLost (unit : Nat) (s : State) : State :=
  let hit := fun (j : Journal) =>
    let at_ := Config.keeperPlace j.writer j.seqNo j.keeperJ
    j.delta.isSome && j.role ≠ .own && at_ ≤ unit && unit < at_ + j.count
  { s with flt := { s.flt with
    journal := s.flt.journal.map (fun j => if hit j then { j with delta := none } else j)
    resolving := (s.flt.journal.filter (fun j => hit j && j.role = .keeper)).foldl (fun l j => addTo l j.seqNo) s.flt.resolving } }

/-- An uncorrectable word (R347, Table 11.8), under the code that its syndrome gives: the record gives instance and address. -/
def memUncorrectable (ev : Nat) (w : WordSeen) (s : State) : State × WordEnd :=
  let s := raise ev (le 2 w.inst ++ le 8 w.addr) (bump MEM_UE_CNT s)
  let s := setInst w.inst (fun m => { m with ue := m.ue + 1
                                             ueTimes := m.ueTimes.filter (fun t => s.tck.now < t + 1000000000) ++ [s.tck.now] }) s
  if w.inst = 0x100 ∨ w.inst = 0x101 then
    if !s.memc.mramA || !s.memc.mramB then (enterHalt s, .poison)
    else if 16 ≤ (instAt s w.inst).ueTimes.length then (dieLost (w.inst = 0x101) s, .good)
    else (s, .good)
  else if w.inst < 0x100 then
    match w.use with
    | .ledger pair core => (pairFault pair core 1 s, .poison)
    | .segmentCache => (s, .good)
    | .cores => (emit (.accessFault w.addr) s, .poison)
    | .block => (enterHalt s, .poison)
  else
    let bases := hbmBases s
    let mib := w.addr / 0x100000
    if mib < bases.1 then (emit (.accessFault w.addr) s, .poison)
    else if mib < bases.2.1 then (keeperWordLost (w.addr / 4096 - 256 * bases.1) s, .poison)
    else if mib < bases.2.2.1 then (s, .staging)
    else (enterHalt s, .poison)

/-- Read a word of protected memory (R341). -/
def memRead (w : WordSeen) (s : State) : State × WordEnd :=
  if (instKind w.inst).isNone then (s, .good)
  else match decodeWord w.addr w.code with
    | .clean _ => (s, .good)
    | .corrected _ => (memCorrected w.inst w.addr s, .good)
    | .addressError => memUncorrectable Ev.MEM_ADDRESS_ERROR w s
    | .uncorrectable => memUncorrectable Ev.MEM_UNCORRECTABLE w s

/-- Read words in order; answers those that come back poisoned, each with what it comes to. -/
def memReads : List WordSeen → State → State × List (Nat × WordEnd)
  | [], s => (s, [])
  | w :: ws, s =>
    let r := memRead w s
    let t := memReads ws r.1
    (t.1, if r.2 = .good then t.2 else (w.addr, r.2) :: t.2)

/-! ### The start-up self-test -/

/-- Apply the remap lists of the settings (R363 step 4, R346): an address that already has a spare keeps it. -/
def applyRemaps (s : State) : State :=
  forAll s.cst.remaps (fun e s =>
    if (instAt s e.1).remaps.contains e.2 ∨ !spareLeft s e.1 then s else setInst e.1 (fun m => { m with remaps := m.remaps ++ [e.2] }) s) s

/-- The pattern and injection tests of instances [lo, hi): each word that fails is remapped; the test fails for want of a spare or by the
decoder (R342, R344). -/
def memTest (fails : List (Nat × Nat)) (inject : List Nat) (lo hi : Nat) (s : State) : State × Bool :=
  let mine := fun (i : Nat) => decide (lo ≤ i) && decide (i < hi)
  let words := (fails.filter (fun w => mine w.1)).dedup
  let short := words.any (fun w => (instKind w.1).any (fun k =>
    k.2 < (instAt s w.1).remaps.length + (words.filter (fun v => v.1 = w.1)).length))
  (forAll words (fun w => remapWord w.1 w.2) s, !short && !inject.any mine)

/-- Has an instance used more than half its spares (Table 14.5 bit 2)? -/
def sparesWarn (s : State) : Bool :=
  s.memc.insts.any (fun p => (instKind p.1).any (fun k => k.2 < 2 * p.2.remaps.length))

end Sys2Proof.Machine
end

