-- ==== Sys2Proof/Machine/Reads.lean ====
section
/-! DEFINITION. Codeword reads: decode, retry and refinement (R190-R196), the Fog (R120, R121), reconstruction (R249, R250), tag
checks (R305, R312), what a read's end does for the command, copy or rebuild it serves, and RAW_READ (R261). -/

namespace Sys2Proof.Machine

/-! ### Read thresholds -/

/-- round(BALANCE_GAIN × (f − 0.5)), f the fraction of one bits of 36,864, ties away from zero (R196). -/
def shiftStep (gain : Int) (ones : Nat) : Int :=
  let n := gain * (2 * (ones : Int) - 36864)
  if 0 ≤ n then (n + 36864) / 73728 else -((-n + 36864) / 73728)

/-- A shift held to −64 … 64 (R196). -/
def clampShift (x : Int) : Int := max (-64) (min 64 x)

/-- Refinement after a first read that passes (R195): one step in the sign of BALANCE_GAIN × (f − 0.5). -/
def refineStep (pf : Profile) (ones : Nat) (r : Int) : Int :=
  let d : Int := 2 * (ones : Int) - 36864
  if (pf.balanceTol : Int) * 73728 < |d| * 65536 then clamp8 (r + (if 0 < pf.balanceGain * d then 1 else if pf.balanceGain * d < 0 then -1 else 0))
  else r

/-! ### The end of a read -/

/-- What a codeword read yields: its data, or an NM status. -/
inductive RdRes where
  | ok (b : Block)
  | bad (nm : Nat)
  deriving DecidableEq, Repr

/-- A soft decoder that is free takes the next entry in claim order whose strobe reads are in (R191). -/
def takeDecoder (s : State) : State :=
  let idle := s.stm.softq.filter (fun rid => (match mget s.flc.reads rid with | some r => r.phase = .softq | none => false)
    && !(s.flc.decoders.any (fun p => p.2 = rid)))
  match (List.range 8).find? (fun n => !mhas s.flc.decoders n), idle with
  | some n, rid :: _ => setRead rid (fun r => { r with decoding := s.tck.now }) { s with flc := { s.flc with decoders := mput s.flc.decoders n rid } }
  | _, _ => s

/-- Release a read's soft-queue entry and its decoder (R191); the Fog ends at 2,048 entries (R120). -/
def releaseSoft (rid : Nat) (s : State) : State :=
  let s := takeDecoder { s with
    flc := { s.flc with decoders := s.flc.decoders.filter (fun p => p.2 ≠ rid) }
    stm := { s.stm with softq := dropFrom s.stm.softq rid } }
  if s.stm.fog ∧ s.stm.softq.length ≤ 2048 then raise Ev.STM_FOG_EXIT [] { s with stm := { s.stm with fog := false } } else s

/-- Does a read serve the reconstruction of another? -/
def survives (rid : Nat) (r : Rd) : Bool := match r.use with | .survivor x _ => x = rid | _ => false

/-- Forget a read, with its soft-queue entry and the reads made for its reconstruction. -/
def dropRead (rid : Nat) (s : State) : State :=
  let gone := rid :: (s.flc.reads.filter (fun p => survives rid p.2)).map (·.1)
  let s := { s with flc := { s.flc with reads := s.flc.reads.filter (fun p => !gone.contains p.1) }
                    tck := { s.tck with senses := s.tck.senses.filter (fun n => !gone.contains n) } }
  forAll (gone.filter s.stm.softq.contains) releaseSoft s

/-- The NVMe status of an NM status that ends a Read: Unrecovered Read Error for data that is lost, Table 3.10 otherwise. -/
def readStatus (leg : Bool) (nm : Nat) : Nat × Nat × Nat :=
  if nm = Ev.SEC_DATA_NOT_AUTHENTIC then nvmeOf leg nm else (2, 0x81, if leg then 0 else nm)

/-- The LOST record of the segments that wait for one (R157): at most 128 run entries in a record, each record waiting for ring
space on its own (R151, R153). -/
def lostRecords : Nat → State → State
  | 0, s => s
  | n + 1, s =>
    let segs := s.map.lostWait.take 128
    if segs.isEmpty then s
    else match appendRec .lost 0 0 (segs.map RunOp.lost) [] true s with
      | some s =>
        let s := forAll segs (fun g s => raise Ev.MAP_SEGMENT_MARKED_LOST (le 4 g) s) s
        lostRecords n { s with
          map := { s.map with lostWait := s.map.lostWait.drop 128 }
          bnd := { s.bnd with copies := s.bnd.copies.filter (fun c => !segs.contains c.2.gsn) } }
      | none => noteLogFull s

/-- Form the LOST records that wait. -/
def lostStep (s : State) : State := lostRecords (cdiv s.map.lostWait.length 128) s

/-- MAP marks every segment with a mapped LBA in a row Lost (R157). -/
def mapLost (b row : Nat) (s : State) : State :=
  let v := formedView s
  let segs := (v.segs.filter (fun p => (segMapped (dOf s) v.pool p.2).any (fun e => e.2.band = b && e.2.row = row))).map (·.1)
  let new := segs.filter (fun g => !s.map.lostWait.contains g)
  if new.isEmpty then s else lostStep { s with map := { s.map with lostWait := s.map.lostWait ++ new } }

/-- A row has more than p erasures (R250). -/
def rowLost (b row : Nat) (s : State) : State :=
  mapLost b row (raise Ev.MBR_ROW_LOST (le 4 b ++ le 4 row) (bump MBR_ROW_LOST_CNT (smartAdd 21 1 s)))

/-- A host Read takes a codeword, or its status. -/
def hostTakes (id ix : Nat) (r : RdRes) (s : State) : State :=
  match r with
  | .ok b => { s with hif := { s.hif with slots := mupd s.hif.slots id (fun sl => { sl with got := mput sl.got ix b }) } }
  | .bad nm => { s with hif := { s.hif with slots := mupd s.hif.slots id (fun sl =>
      let v := readStatus s.sys.legacy nm
      { sl with status := nm, nvme := (v.1, v.2.1) }) } }

/-- The bits that the array holds at a diagnostic's place: those of the page that the model has there, ones where the block is erased,
otherwise unknown. -/
def rawArray (s : State) (x : RawPlace) (cw : Nat) : BitVec 36864 :=
  let known := s.bnd.pages.find? (fun p => p.2.ch = x.ch && setOf s p.2.band = x.set
    && physOf s x.ch x.set (virtOf s p.2.band) = x.block && p.2.row = x.row && (p.2.st = .passed || p.2.st = .transferred))
  match known.bind (fun p => p.2.cws[cw]?) with
  | some c => dieBits c.payload cw x.plane x.page x.block
  | none =>
    let b := physBlk s x.ch x.set x.block
    if b.st = .erased ∨ (b.st = .open_ ∧ b.ptr ≤ x.row) then BitVec.allOnes 36864 else Config.rawCodeword s.freeCtr

/-- A raw read with the scrambler pattern removed (Table 8.14 MODE 0, R171), with whatever bits the array gives wrong. -/
def rawBits (s : State) (x : RawPlace) (cw : Nat) : BitVec 36864 :=
  rawArray s x cw ^^^ Config.rawNoise s.freeCtr ^^^ scramblePattern cw x.plane x.page x.block

/-- Bytes 0-4,127 of a codeword that passes hard decode (Table 8.14 MODE 1). -/
def rawDecoded (s : State) (x : RawPlace) (cw : Nat) : BitVec 36864 :=
  rawArray s x cw ^^^ scramblePattern cw x.plane x.page x.block

/-- A read ends: its result goes to what it serves. A copy that cannot be read loses its row (R221); a rebuild writes pad
pages in the place of a row that is unrecoverable (Table 8.10 step 3). -/
def finishRead (rid : Nat) (res : RdRes) (s : State) : State :=
  match mget s.flc.reads rid with
  | none => s
  | some r =>
    let s := dropRead rid s
    match r.use with
    | .host id ix => hostTakes id ix res s
    | .fleetOld id ix => hostTakes id (1000000 + ix) res s
    | .copy id ix =>
      match res with
      | .ok b => { s with bnd := { s.bnd with copies := mupd s.bnd.copies id (fun c => { c with got := mput c.got ix b }) } }
      | .bad _ =>
        let s := match mget s.bnd.pages r.page with
          | some p => mapLost p.band p.row s
          | none => s
        { s with bnd := { s.bnd with copies := mdel s.bnd.copies id } }
    | .rebuild key _ =>
      let s := match res with
        | .ok _ => s
        | .bad _ => { s with bnd := { s.bnd with pages := mupd s.bnd.pages key (fun p => { p with
            src := .pad, lbas := [], cws := List.replicate 4 .pad }) } }
      rebuildProgram s
    | .fleetReq id ix => { s with flt := { s.flt with serving := mupd s.flt.serving id (fun v => match res with
        | .ok b => { v with got := mput v.got ix b }
        | .bad _ => { v with bad := true }) } }
    | .selfTest seg => match res with
      | .ok _ => s
      | .bad _ => { s with hif := { s.hif with selfTest := s.hif.selfTest.map (fun t => { t with
          failed := if t.failed.isNone then some seg else t.failed }) } }
    | .survivor _ _ => s
    | .readBack key _ =>
      let s := match res with
        | .ok _ => s
        | .bad _ => dropData key s
      (match mget s.bnd.pages key with
        | some p => if readsBack s p.band (p.unit s) then s else parityStep p.band (p.unit s) s
        | none => s)
    | .sys key cw => match mget s.bnd.pages key with
      | none => s
      | some p =>
        let at_ : Loc := { band := p.band, row := p.row, slot := p.slot, cw := cw }
        (match s.bnd.sysAt.find? (fun e => e.2 = at_), res with
          | some e, .ok b => { s with bnd := { s.bnd with sysTodo := s.bnd.sysTodo ++ [{ item := e.1, data := some b, from_ := some at_ }] } }
          | some e, .bad _ => { s with bnd := { s.bnd with sysAt := s.bnd.sysAt.filter (fun x => x.1 ≠ e.1) } }
          | none, _ => s)
    | .raw src tag mode dest x => match res with
      | .bad nm => complete src tag nm [] [] s
      | .ok _ =>
        let len := if mode = 0 then 4608 else 4128
        let bits := if mode = 0 then rawBits s x r.cw else rawDecoded s x r.cw
        complete src tag 0 (memberBody s (x.ch / 4) false) [] (drawFree (writeBytes dest (bitsToBytes bits len) s))

/-! ### Tags and reconstruction -/

/-- NSID and LBA from which a read forms the AAD (R305): those that it resolved, for a reclaim read those of the stored LBA_TAG. -/
def aadOf (r : Rd) (c : Cw) : Nat × Nat :=
  match r.use with
  | .copy _ _ => (c.payload.lbaTag.toNat / 2 ^ 53, c.payload.lbaTag.toNat % 2 ^ 48)
  | _ => (r.nsid, r.lba)

/-- The content of a codeword under the tag check: the key of the namespace, the NSID and the LBA of the AAD (R305). A codeword
of another LBA, key or place, a pad, or one cut off fails its tag. -/
def authentic (s : State) (r : Rd) (place : Nat) (tampered : Bool) (c : Option Cw) : Option Block :=
  if tampered then none
  else match c with
    | some (.data key nsid lba wseq pl b) =>
      let a := aadOf r (.data key nsid lba wseq pl b)
      if key = nsKey s a.1 ∧ nsid = a.1 ∧ lba = a.2 ∧ pl = place then some b else none
    | some (.bytes x) => openPayload (nsKey s (aadOf r (.bytes x)).1) (aadOf r (.bytes x)).1 (aadOf r (.bytes x)).2 place x
    | _ => none

/-- A reclaim read has taken the codeword of another LBA than the one it was to copy (R305): the map does not point there for that LBA, so
MAP leaves it out of the copy (R24). -/
def strayCopy (r : Rd) (c : Cw) (s : State) : State :=
  match r.use with
  | .copy id ix =>
    if aadOf r c = (r.nsid, r.lba) then s
    else
      let copies := mupd s.bnd.copies id (fun x => { x with lbas := x.lbas.filter (fun e => e.1 ≠ ix), got := mdel x.got ix })
      bump MAP_COPY_DISCARD_CNT { s with bnd := { s.bnd with copies := copies.filter (fun p => !p.2.lbas.isEmpty) } }
  | _ => s

/-- Does a read decrypt: every one but a rebuild's, a reconstruction's and a read-back's, whose codewords are used as they lie (R306, R249,
R212), and a self-test's of a codeword that holds no LBA? -/
def decrypts (r : Rd) : Bool := match r.use with
  | .rebuild _ _ => false
  | .readBack _ _ => false
  | .survivor _ _ => false
  | .raw _ _ _ _ _ => false
  | .selfTest _ => r.nsid ≠ 0
  | _ => true

/-- The codeword that a read names. -/
def readCw (s : State) (r : Rd) : Option Cw := (mget s.bnd.pages r.page).bind (fun p => p.cws[r.cw]?)

/-- The PLACE word of a read's codeword. -/
def readPlace (s : State) (r : Rd) : Nat :=
  match mget s.bnd.pages r.page with
  | some p => placeWord p.pos (p.ch % 4) r.cw
  | none => 0

/-- The Lantern detail of a codeword: band, row, slot, codeword, NSID, LBA (R312). -/
def cwDetail (s : State) (r : Rd) : List Byte :=
  match mget s.bnd.pages r.page with
  | some p => le 4 p.band ++ le 4 p.row ++ [toByte p.slot, toByte r.cw] ++ le 4 r.nsid ++ le 8 r.lba
  | none => []

/-- What the row of a read offers for its reconstruction, position by position (R249): contents known without a read (pad positions, P pages
held in MRAM, reads that have come), positions that can be read, and erasures; data positions and P before Q. -/
structure RowOffer where
  known : AMap Payload := []
  toRead : List Nat := []
  erased : List Nat := []
  deriving DecidableEq, Repr

/-- The other positions of a page's row, data positions and P before Q. -/
def rowOthers (s : State) (p : Page) : List Nat :=
  let e := (bandAt s p.band).active
  (dataPos (parityCount s) e p.band p.row ++ parPos (parityCount s) e p.band p.row).filter (· ≠ p.pos)

/-- What the row of a read offers. -/
def rowOffer (s : State) (r : Rd) (p : Page) : RowOffer :=
  let k := p.ch % 4
  (rowOthers s p).foldl (fun o q =>
    if padPlace s p.band p.row q k then { o with known := mput o.known q padPayload }
    else match mget r.known q with
      | some x => { o with known := mput o.known q x }
      | none =>
        if r.lost.contains q ∨ !readable s p.band p.row q k r.cw then { o with erased := o.erased ++ [q] }
        else match pageAt s p.band p.row q k with
          | some g => if g.st = .held then { o with known := mput o.known q (placePayload s p.band p.row q k r.cw) }
              else { o with toRead := o.toRead ++ [q] }
          | none => o) {}

/-- Bytes 0-4,127 of a read's codeword from what is known of its row (R236, Table 8.3): a parity codeword is computed again. -/
def recovered (s : State) (p : Page) (known : AMap Payload) : Option Payload :=
  let e := (bandAt s p.band).active
  let n := parityCount s
  let data := dataPos n e p.band p.row
  let par := parPos n e p.band p.row
  let ds := ((List.range data.length).filterMap (fun i => (mget known (data.getD i 0)).map (fun x => (i, x))))
  match recoverData data.length ds ((par[0]?).bind (mget known)) ((par[1]?).bind (mget known)) with
  | none => none
  | some all =>
    if data.contains p.pos then mget all (data.idxOf p.pos)
    else if par[0]? = some p.pos then some (payloadP (all.map (·.2)))
    else some (payloadQ 0 (all.map (·.2)))

/-- Queue the reads of a reconstruction (R249): at one channel position and codeword of other positions, in the read's class. -/
def queueSurvivors (rid : Nat) (r : Rd) (p : Page) (qs : List Nat) (s : State) : State :=
  forAll qs (fun q s => { s with flc := { s.flc with
    reads := mput s.flc.reads s.flc.nextRead { use := .survivor rid q, cls := r.cls, page := pageKey p.band p.row q (p.ch % 4), cw := r.cw }
    nextRead := s.flc.nextRead + 1 } }) s

/-- The page of a rebuild takes a recovered codeword as it is, ciphertext and metadata alike (Table 8.10 step 2). -/
def putRecovered (r : Rd) (x : Payload) (s : State) : State :=
  { s with bnd := { s.bnd with pages := mupd s.bnd.pages r.page (fun p => { p with
      cws := ((p.cws ++ List.replicate 4 Cw.pad).take 4).set r.cw (Cw.ofPayload p.cws[r.cw]? x) }) } }

/-- A codeword of a self-test needed recovery by soft decode or reconstruction (Table 14.5). -/
def countRecovery (r : Rd) (s : State) : State :=
  match r.use with
  | .selfTest 7 => { s with hif := { s.hif with selfTest := s.hif.selfTest.map (fun t => { t with recovered := t.recovered + 1 }) } }
  | _ => s

/-- A reconstruction has its bytes (R249): it counts, and its codeword goes to what it serves, through a cipher lane where it is decrypted. -/
def reconDone (rid : Nat) (r : Rd) (p : Page) (x : Payload) (lane : LaneSeen) (s : State) : State :=
  let s := bump MBR_RECON_CNT (setPort (p.ch / 4) (fun q => { q with reconstructed := q.reconstructed + 1 }) s)
  let s := countRecovery r (doIf s.stm.fog (bump STM_FOG_RECON_CNT) s)
  if !decrypts r then
    finishRead rid (.ok 0) (match r.use with | .rebuild _ _ => putRecovered r x s | _ => s)
  else
    let s := laneSeen lane s
    let c := Cw.ofPayload (readCw s r) x
    match authentic s r (readPlace s r) lane.tampered (some c) with
    | some b =>
      let s := if r.tagFailed then raise Ev.SEC_TAG_RECOVERED (cwDetail s r) (bump SEC_TAG_RECOVERED_CNT (smartAdd 23 1 s)) else s
      strayCopy r c (finishRead rid (.ok b) s)
    | none =>
      let s := raise Ev.SEC_DATA_NOT_AUTHENTIC (cwDetail s r) (bump SEC_AUTH_FAIL_CNT (smartAdd 22 1 s))
      finishRead rid (.bad Ev.SEC_DATA_NOT_AUTHENTIC) s

/-- One step of a reconstruction (R249, R250, R121): it ends when as many positions are known as the row has data positions; more reads are
queued while some lack; more than p erasures lose the row, or, where only reads that met a full soft queue make them so many, the
reconstruction is abandoned and the codeword waits for a queue entry. -/
def reconAdvance (rid : Nat) (lane : LaneSeen) (s : State) : State :=
  match mget s.flc.reads rid with
  | none => s
  | some r =>
    if r.phase ≠ .recon then s
    else match mget s.bnd.pages r.page with
      | none => finishRead rid (.bad Ev.MBR_ROW_LOST) s
      | some p =>
        let k := p.ch % 4
        if padPlace s p.band p.row p.pos k then reconDone rid r p padPayload lane s
        else
          let o := rowOffer s r p
          let n := 1 + o.erased.length
          if parityCount s < n then
            if n - r.fogged.length ≤ parityCount s then
              let mine := (s.flc.reads.filter (fun q => survives rid q.2)).map (·.1)
              setRead rid (fun r => { r with phase := .fog, known := [], lost := [], fogged := [] }) (forAll mine dropRead s)
            else if (match r.use with | .readBack _ _ => true | _ => false) then finishRead rid (.bad Ev.FLC_UNCORRECTABLE) s
            else
              let s := rowLost p.band p.row s
              finishRead rid (.bad (if r.tagFailed then Ev.SEC_DATA_NOT_AUTHENTIC else Ev.MBR_ROW_LOST)) s
          else
            let d := (dataPos (parityCount s) (bandAt s p.band).active p.band p.row).length
            match (if d ≤ o.known.length then recovered s p o.known else none) with
            | some x => reconDone rid r p x lane s
            | none =>
              let out := s.flc.reads.filterMap (fun q => match q.2.use with | .survivor x pos => if x = rid then some pos else none | _ => none)
              queueSurvivors rid r p ((o.toRead.filter (fun q => !out.contains q)).take (d - o.known.length - out.length)) s

/-- The result of a read made for a reconstruction (R249): its bytes, or a failure, `fog`: for want of a soft-queue entry. -/
def survivorDone (rid : Nat) (r : Rd) (ok fog : Bool) (lane : LaneSeen) (s : State) : State :=
  match r.use with
  | .survivor parent pos =>
    let x := ((readCw s r).map Cw.payload).getD {}
    let s := setRead parent (fun q => if ok then { q with known := mput q.known pos x }
      else { q with lost := addTo q.lost pos, fogged := if fog then addTo q.fogged pos else q.fogged }) (dropRead rid s)
    reconAdvance parent lane s
  | _ => s

/-- A read has failed (R249): one made for a reconstruction is an erasure there, a diagnostic ends with its status, any other is
reconstructed. -/
def readFails (rid : Nat) (nm : Nat) (lane : LaneSeen) (s : State) : State :=
  match mget s.flc.reads rid with
  | none => s
  | some r => match r.use with
    | .survivor _ _ => survivorDone rid r false false lane s
    | .raw _ _ _ _ _ => finishRead rid (.bad nm) s
    | _ => setRead rid (fun r => { r with phase := .recon }) s

/-- A codeword decoded on its own passes a cipher lane; a failed tag goes to reconstruction (R312). -/
def deliver (rid : Nat) (lane : LaneSeen) (s : State) : State :=
  match mget s.flc.reads rid with
  | none => s
  | some r =>
    match r.use with
    | .survivor _ _ => survivorDone rid r true false lane s
    | .raw _ _ _ _ _ => finishRead rid (.ok 0) s
    | _ =>
      if !decrypts r then finishRead rid (.ok 0) s
      else
      let s := laneSeen lane s
      match authentic s r (readPlace s r) lane.tampered (readCw s r) with
      | some b => strayCopy r ((readCw s r).getD .pad) (finishRead rid (.ok b) s)
      | none =>
        setRead rid (fun r => { r with tagFailed := true, phase := .recon })
          (raise Ev.SEC_DATA_NOT_AUTHENTIC (cwDetail s r) (bump SEC_AUTH_FAIL_CNT (smartAdd 22 1 s)))

/-! ### Decoding -/

/-- Claim a soft-queue entry: the first strobe read follows (R190, R191); the 4,096th entry brings the Fog (R120). -/
def claimEntry (rid : Nat) (s : State) : State :=
  let ch := match (mget s.flc.reads rid).bind (readTarget s) with
    | some x => x.1
    | none => 0
  let s := setRead rid (fun r => { r with phase := .waiting, strobe := 1 }) { s with stm := { s.stm with softq := s.stm.softq ++ [rid] } }
  let s := bump (FLC_SOFT_CNT ch) s
  if s.stm.softq.length = 4096 ∧ !s.stm.fog then
    smartAdd 25 1 <| bump STM_FOG_CNT (raise Ev.STM_FOG_ENTER [] { s with stm := { s.stm with fog := true } })
  else s

/-- Slots of the next row on a channel that class c can take, W slots apart, less the reads that wait there for a slot of the class. -/
def fogRoom (s : State) (rows : State → CtTable × Nat × Nat) (lend : Cls → List Cls) (ch : Nat) (cl : Cls) : Bool :=
  let a := rows s
  let n := ((List.range a.2.2).filter (fun i =>
    let x := slotCls a.1 a.2.1 a.2.2 ch i
    x ≠ .w && (lend x).contains cl)).length
  let busy := (s.flc.reads.filter (fun p => (p.2.phase = .sensing || p.2.phase = .ready) && p.2.cls = cl
    && (readTarget s p.2).any (fun y => y.1 = ch))).length
  busy < n

/-- A codeword that needs soft decode meets a full queue (R121): it is reconstructed where every read that this needs fits the next tick's
slots without a W slot; a read made for a reconstruction fails there; otherwise the codeword waits for an entry. -/
def meetsFull (rid : Nat) (lane : LaneSeen) (s : State) : State :=
  match mget s.flc.reads rid with
  | none => s
  | some r => match r.use with
    | .survivor _ _ => survivorDone rid r false true lane s
    | _ =>
      let fits := match mget s.bnd.pages r.page with
        | some p =>
          let o := rowOffer s r p
          let d := (dataPos (parityCount s) (bandAt s p.band).active p.band p.row).length
          1 + o.erased.length ≤ parityCount s && (o.toRead.take (d - o.known.length)).all (fun q =>
            match chanOf s q (p.ch % 4) with
            | some ch => fogRoom s rowAhead lendOrder ch r.cls
            | none => false)
        | none => false
      setRead rid (fun r => { r with phase := if fits then .recon else .fog }) s

/-- Claim a soft-queue entry, or meet a full queue (R190, R191, R121). -/
def claimSoft (rid : Nat) (lane : LaneSeen) (s : State) : State :=
  if 4096 ≤ s.stm.softq.length then meetsFull rid lane s else claimEntry rid s

/-- Codewords that wait in the Fog claim entries as the queue has room, under the rotation over the 36 channels (R50, R191). -/
def fogStep (s : State) : State :=
  let wait := (s.flc.reads.filter (fun p => p.2.phase = .fog)).map (fun p => (p.1, ((readTarget s p.2).map (·.1)).getD 0))
  let order := (rotate s.tck.tick 36).flatMap (fun ch => (wait.filter (fun w => w.2 = ch)).map (·.1))
  forAll (order.take (4096 - s.stm.softq.length)) claimEntry s

/-- The reconstructions that a tick edge finds at work go on (R249). -/
def reconStep (s : State) : State :=
  forAll ((s.flc.reads.filter (fun p => p.2.phase = .recon)).map (·.1)) (fun rid => reconAdvance rid {}) s

/-- The REFINE of the block that a page lies in. -/
def refineOf (s : State) (p : Page) : Int := (blkOf s p.ch p.band).refine

/-- Does a codeword read erased: at most ERASED_ZEROS zero bits (R192)? -/
def readsErased (s : State) (raw : Raw) : Bool := 36864 - raw.ones ≤ fld s FLC_G_CFG 15 8

/-- A codeword transferred from its page is decoded (R190, R192). A strobe read only completes what the soft decoder needs. -/
def decode (rid : Nat) (r : Rd) (p : Page) (raw : Raw) (lane : LaneSeen) (s : State) : State :=
  let ch := p.ch
  let s := bump (FLC_READ_CNT ch) s
  if r.strobe = 1 then setRead rid (fun r => { r with strobe := 2, phase := .waiting }) s
  else if r.strobe = 2 then takeDecoder (setRead rid (fun r => { r with phase := .softq }) s)
  else if readsErased s raw then
    readFails rid Ev.FLC_READ_ERASED lane (raise Ev.FLC_READ_ERASED (cwDetail s r) (bump (FLC_ERASED_READ_CNT ch) s))
  else
    let pf := pfAt s ch (targetOf s p.band (p.unit s))
    if raw.pass then
      deliver rid lane (if r.attempt = 0 then setBlk ch p.band (fun b => { b with refine := refineStep pf raw.ones b.refine }) s
        else raise Ev.FLC_RETRY_RECOVERED [] (bump (FLC_RETRY_OK_CNT ch) (setBlk ch p.band (fun b => { b with refine := r.shift }) s)))
    else
      let s := if r.attempt = 0 then bump (FLC_HARD_FAIL_CNT ch) s else s
      if r.attempt < pf.retryMax then
        let from_ := if r.attempt = 0 then refineOf s p else r.shift
        let shift := clampShift (from_ + shiftStep pf.balanceGain raw.ones)
        setRead rid (fun r => { r with phase := .waiting, attempt := r.attempt + 1, shift := shift }) s
      else claimSoft rid lane s

/-- A diagnostic's codeword is transferred (Table 8.14): raw as it is, or through the hard decoder alone. -/
def decodeRaw (rid : Nat) (x : RawPlace) (mode : Nat) (raw : Raw) (s : State) : State :=
  let s := bump (FLC_READ_CNT x.ch) s
  if mode = 0 then finishRead rid (.ok 0) s
  else if readsErased s raw then finishRead rid (.bad Ev.FLC_READ_ERASED) (bump (FLC_ERASED_READ_CNT x.ch) s)
  else if raw.pass then finishRead rid (.ok 0) s
  else finishRead rid (.bad Ev.FLC_UNCORRECTABLE) (bump (FLC_HARD_FAIL_CNT x.ch) s)

/-! ### Starting reads -/

/-- Queue the read of a codeword at a location (R182); where its place cannot be read it is reconstructed (R26, R255). -/
def queueRead (use : RdFor) (cls : Cls) (nsid lba : Nat) (l : Loc) (s : State) : State :=
  let pl := slotPlace s l.band l.row l.slot
  let key := pageKey l.band l.row pl.1 pl.2
  let ok := readable s l.band l.row pl.1 pl.2 l.cw && !(match posPort s pl.1 with | some m => (portAt s m).unavailable | none => true)
  { s with flc := { s.flc with
      reads := mput s.flc.reads s.flc.nextRead { use := use, cls := cls, page := key, cw := l.cw, nsid := nsid, lba := lba
                                                 phase := if ok then .waiting else .recon }
      nextRead := s.flc.nextRead + 1 } }

/-! ### RAW_READ -/

/-- RAW_READ (Tables 8.13 and 8.14, R176, R189): a diagnostic read of one codeword by its physical place, queued in class M. -/
def execRawRead (src : Src) (tag port chpos target mode block page plane cw destLo destHi : Nat) (s : State) :
    Host.Outcome State Fault Refusal :=
  let dest := destLo + 2 ^ 32 * destHi
  .next (descOp src tag 0x0708 [(8, 1, port), (9, 1, chpos), (10, 1, target), (11, 1, mode), (12, 2, block),
    (14, 2, page), (16, 1, plane), (17, 1, cw), (24, 4, destLo), (28, 4, destHi)] (fun s =>
  let p := portAt s port
  let ch := 4 * port + chpos
  let pf := s.flc.profile
  let set := target / Nat.max 1 pf.tpb
  let blk := physBlk s ch set block
  let lv := if (bandOfBlk s ch set block).any (· < s.bnd.sysBands) then 1 else Nat.max 1 pf.levels
  let unit := page / lv * pf.tpb + target % Nat.max 1 pf.tpb
  let row := unit * (pf.planes * lv) + plane * lv + page % lv
  let x : RawPlace := { ch := ch, target := target, set := set, block := block, row := row, plane := plane, page := page }
  let refuse := fun code (s : State) => completeErr src tag code (refuseOp code ch block blk.ptr row s)
  let gone : Bool := blk.st = .retired && blk.readTo ≤ row
  if 9 ≤ port ∨ 4 ≤ chpos ∨ 32 ≤ target ∨ 2 ≤ mode ∨ 4 ≤ plane ∨ 4 ≤ cw ∨ dest % 64 ≠ 0
      ∨ osTop s < dest + (if mode = 0 then 4608 else 4128) then
    completeErr src tag Ev.MBR_PARAM_RANGE s
  else if !p.powered ∨ (p.st ≠ .present ∧ p.st ≠ .active ∧ p.st ≠ .spare ∧ p.st ≠ .fenced) then
    completeErr src tag Ev.MBR_STATE_CONFLICT s
  else if !bitAt (mgetD s.flc.fitted ch 0) target ∨ (pfAt s ch target).blocks ≤ block ∨ pf.ppb ≤ page ∨ pf.planes ≤ plane then
    refuse Ev.FLC_ADDRESS_RANGE s
  else if gone then refuse Ev.FLC_BLOCK_RETIRED s
  else match rawRefusal s x with
    | some code => refuse code s
    | none => { s with flc := { s.flc with
        reads := mput s.flc.reads s.flc.nextRead { use := .raw src tag mode dest x, cls := .m, page := 0, cw := cw }
        nextRead := s.flc.nextRead + 1 } }) s)

end Sys2Proof.Machine
end

