-- ==== Sys2Proof/Machine/MapForm.lean ====
section
/-! DEFINITION. The end of I/O commands (R70, R94), and MAP's records: formed (R138-R142, R146, R150, R151, R156, R158), made
durable and applied (R148, R152, R145), and the completion of a Write (R20). -/

namespace Sys2Proof.Machine

/-! ### The end of an I/O command -/

/-- End an I/O command: its CQE is posted unless a controller reset or Delete I/O SQ has dropped it (R81), its slot is free; either way it
has completed (R74), and an ORD command counts as such (log entry 73). -/
def ioDone (id sct sc dw0 : Nat) (s : State) : State :=
  match mget s.hif.slots id with
  | none => s
  | some sl =>
    let c := sl.cmd
    let s := { s with hif := { s.hif with slots := mdel s.hif.slots id } }
    let s := if c.ord then bump HIF_ORD_CNT s else s
    let s := if sl.status = Ev.SEC_DATA_NOT_AUTHENTIC then bump HIF_AUTH_FAIL_CNT s else s
    let s := if (sct = 2 ∧ sc = 0x81) ∨ sl.status = Ev.SEC_DATA_NOT_AUTHENTIC then smartAdd 9 1 s else s
    if sl.silent then s
    else match mget s.hif.sqs c.sq with
      | some q => postCqe q.cq { sq := c.sq, cid := c.cid, sct := sct, sc := sc, dw0 := dw0, writes := c.kind ≠ .read } s
      | none => s

/-- End an I/O command with an NM status that it raises itself (R94). -/
def ioNm (id nm : Nat) (s : State) : State :=
  let v := nvmeOf (legacy s) nm
  ioDone id v.1 v.2.1 v.2.2 (raise nm [] s)

/-- The key of a command's index entry for range r. -/
def idxKey (id r : Nat) : Nat := id * 1024 + r

/-- Remove the index entries of a command that maps nothing. -/
def dropIndex (id : Nat) (s : State) : State :=
  dropApp id { s with hif := { s.hif with index := s.hif.index.filter (fun e => e.1 / 1024 ≠ id) } }

/-- Release the staging of a command. -/
def releaseStaging (sl : Slot) (s : State) : State :=
  if sl.cmd.kind = .write ∧ sl.accept ≠ 0 then subStaged sl.acct sl.cmd.bytes s else s

/-- Refuse a command whose range meets a Lost segment (R158): it changes nothing. -/
def refuseLost (id : Nat) (sl : Slot) (s : State) : State :=
  ioNm id Ev.MAP_SEGMENT_LOST (dropIndex id (releaseStaging sl s))

/-! ### Durable records -/

/-- An entry leaves the index once it is applied and no entry with a lower acceptance number overlapping it remains (R145). -/
def pruneIndex (s : State) : State :=
  let ix := s.hif.index
  { s with hif := { s.hif with index := ix.filter (fun e =>
      !(e.2.applied && !(ix.any (fun f => f.2.accept < e.2.accept && f.2.nsid = e.2.nsid && meets f.2.slba f.2.nlb e.2.slba e.2.nlb)))) } }

/-- Apply the next record in LSN order, now durable (R152): the map, the index entries it brings on (R145), the copy it ends. -/
def applyNext (s : State) : State :=
  match s.map.log.find? (fun r => r.lsn = s.map.durable) with
  | none => s
  | some r =>
    let s := withView (applyRec (dOf s) (viewOf s) r) { s with map := { s.map with durable := s.map.durable + 1 } }
    pruneIndex { s with
      hif := { s.hif with index := r.marks.foldl (fun m k => mupd m k.1 (fun e => { e with appliedN := k.2 })) s.hif.index }
      bnd := { s.bnd with copies := if r.ty = .copy ∧ r.last then mdel s.bnd.copies r.cmd else s.bnd.copies } }

/-- Apply every record up to an LSN. -/
def applyTo : Nat → Nat → State → State
  | 0, _, s => s
  | fuel + 1, lsn, s => if s.map.durable ≤ lsn then applyTo fuel lsn (applyNext s) else s

/-- MAP_RECORD_DURABLE (R148, R152): the record is durable on both MRAM dies, or on the survivor, and is applied. -/
def execMapRecordDurable (s : State) : Host.Outcome State Fault Refusal :=
  .next (if s.thm.mramCut then s else awaitStep (applyNext s))

/-- Append NAMESPACE run entries, at most 128 in a record, and apply each record at once. -/
def nsRecords : Nat → List RunOp → State → State
  | 0, _, s => s
  | n + 1, ops, s => match appendRec .namespace_ 0 0 (ops.take 128) [] true s with
    | some t => nsRecords n (ops.drop 128) (applyTo (t.map.log.length + 1) (t.map.lsn - 1) t)
    | none => noteLogFull s

/-- The NAMESPACE records of a list of run entries: a change of the directory is atomic towards every lookup (R130). -/
def nsRecord (ops : List RunOp) (s : State) : State := nsRecords (cdiv ops.length 128) ops s

/-! ### Granular tables -/

/-- May a table be taken for a write: any when above the reserve, only for Admitted streams' writes at or below it (R141)? -/
def poolGives (s : State) (admitted : Bool) (n : Nat) : Bool :=
  n ≤ poolFree s && (admitted || !poolLow s || n = 0)

/-- Note a table request that must wait: MAP_POOL_EXHAUSTED once per run of waits (R141). -/
def poolWait (s : State) : State :=
  if s.map.poolExhausted ∨ poolFree s ≠ 0 then s else raise Ev.MAP_POOL_EXHAUSTED [] { s with map := { s.map with poolExhausted := true } }

/-- Raise MAP_POOL_LOW as the free tables fall to the reserve (R141). -/
def poolCheck (s : State) : State :=
  let low := poolLow s
  let s := { s with map := { s.map with poolExhausted := s.map.poolExhausted && poolFree s = 0 } }
  if low ∧ !s.map.poolLow then raise Ev.MAP_POOL_LOW [] { s with map := { s.map with poolLow := true } }
  else { s with map := { s.map with poolLow := low } }

/-! ### The record of a Write -/

/-- The pages that hold codewords of a command. -/
def ownPages (s : State) (id : Nat) : List Page :=
  (s.bnd.pages.filter (fun p => p.2.lbas.any (fun l => l.1 = id))).map (·.2)

/-- Have all data pages of a command passed program status, none waiting to be issued again (R20)? -/
def pagesPassed (s : State) (id : Nat) : Bool :=
  (ownPages s id).all (fun p => p.st = .passed) && !(s.bnd.orphans.any (fun p => p.lbas.any (fun l => l.1 = id)))
    && !(s.map.runs.any (fun r => r.2.tail.any (fun l => l.1 = id)))

/-- LBA and location of each codeword of a command, in LBA order. -/
def ownLocs (s : State) (id : Nat) : List (Nat × Loc) :=
  let l := (ownPages s id).flatMap (fun p => (List.range p.lbas.length).filterMap (fun i => match p.lbas[i]? with
    | some (o, lba) => if o = id then some (lba, ({ band := p.band, row := p.row, slot := p.slot, cw := i } : Loc)) else none
    | none => none))
  l.foldl (fun m e => mput m e.1 e.2) []

/-- Is LBA x of a command left out of its record: a newer entry covers it and is already formed (R146)? -/
def newerFormed (s : State) (accept nsid lba : Nat) : Bool :=
  s.hif.index.any (fun e => e.2.formedAt lba && accept < e.2.accept && e.2.covers nsid lba)

/-- Run entries that map consecutive LBAs at consecutive codewords of one page. -/
def granOps (gsn : Nat) : List (Nat × Loc) → List RunOp
  | [] => []
  | (lba, l) :: rest =>
    match granOps gsn rest with
    | .granularSet g f n m :: more =>
      if f = lba % 4096 + 1 ∧ m.band = l.band ∧ m.row = l.row ∧ m.slot = l.slot ∧ m.cw = l.cw + 1 then
        .granularSet g (lba % 4096) (n + 1) l :: more
      else .granularSet gsn (lba % 4096) 1 l :: .granularSet g f n m :: more
    | more => .granularSet gsn (lba % 4096) 1 l :: more

/-- The run entry that makes a segment Granular, if it is not (R140, R150). -/
def convertOp (v : MapView) (gsn pool : Nat) : Option RunOp :=
  match (segAt v.segs gsn).kind with
  | .granular _ => none
  | .extent fill band row slot => some (.convert gsn pool fill { band := band, row := row, slot := slot, cw := 0 })
  | _ => some (.convert gsn pool 0 { band := 0, row := 0, slot := 0, cw := 0 })

/-- Is the part of a Write an append at FILL of its run, every page of it in its reserved slot (R139)? Answers the run. -/
def appendRun (s : State) (v : MapView) (gsn : Nat) (locs : List (Nat × Loc)) : Option Run :=
  match mget s.map.runs gsn, locs with
  | some r, (lba, l) :: _ =>
    let d := Nat.max 1 (dOf s r.band)
    let fill := match (segAt v.segs gsn).kind with
      | .extent fill _ _ _ => some fill
      | .unmapped => some 0
      | _ => none
    let inPlace := fun (e : Nat × Loc) => e.2.band = r.band && e.2.row * d + e.2.slot = r.start + e.1 % 4096 / 4
    if fill = some (lba % 4096) ∧ inPlace (lba, l) ∧ locs.all inPlace then some r else none
  | _, _ => none

/-- What forming one segment part of a Write gives: run entries, the runs after it, tables it takes; or it must wait. -/
def formPart (s : State) (v : MapView) (gsn pool : Nat) (all : Bool) (locs : List (Nat × Loc)) : List RunOp × Option Run × Bool :=
  match appendRun s v gsn locs, locs with
  | some r, (lba, _) :: _ =>
    if all then
      let d := Nat.max 1 (dOf s r.band)
      ([.extentSet gsn (lba % 4096) locs.length { band := r.band, row := r.start / d, slot := r.start % d, cw := 0 }], some r, false)
    else match convertOp v gsn pool with
      | some c => (c :: granOps gsn locs, none, true)
      | none => (granOps gsn locs, none, false)
  | _, [] => ([], none, false)
  | _, _ => match convertOp v gsn pool with
    | some c => (c :: granOps gsn locs, none, true)
    | none => (granOps gsn locs, none, false)

/-- The segments that a range of a namespace touches: (segment number, first LBA, LBAs). -/
def rangeParts (slba nlb : Nat) : List (Nat × Nat × Nat) :=
  if nlb = 0 then []
  else (List.range ((slba + nlb - 1) / 4096 - slba / 4096 + 1)).map (fun i =>
    let j := slba / 4096 + i
    let a := Nat.max slba (4096 * j)
    let b := Nat.min (slba + nlb) (4096 * j + 4096)
    (j, a, b - a))

/-- Must an append wait to form its record until every earlier append of its run has formed its own (R139)? -/
def runWaits (s : State) (gsn id : Nat) : Bool :=
  match mget s.map.runs gsn with
  | some r => match r.apps with
    | a :: _ => a.1 ≠ id && r.apps.any (fun x => x.1 = id)
    | [] => false
  | none => false

/-- The records of a command are formed: with those below the next LSN durable, it is durable. -/
def markFormed (id : Nat) (s : State) : State :=
  dropApp id { s with hif := { s.hif with slots := mupd s.hif.slots id (fun x => { x with formed := true, lsn := s.map.lsn }) } }

/-- Form the WRITE record of a Write whose pages have all passed. -/
def formWrite (id : Nat) (sl : Slot) (s : State) : State :=
  if !sl.placed ∨ sl.formed ∨ !pagesPassed s id then s
  else
    let v := formedView s
    let c := sl.cmd
    let parts := (rangeParts c.slba c.nlb).filterMap (fun p => (gsnOf s.map.dir c.nsid p.1).map (fun g => (g, p.2.1, p.2.2)))
    let locs := ownLocs s id
    let inPart := fun (p : Nat × Nat × Nat) => locs.filter (fun e => p.2.1 ≤ e.1 && e.1 < p.2.1 + p.2.2)
    if parts.any (fun p => (segAt v.segs p.1).kind = .lost) then refuseLost id sl s
    else if parts.any (fun p => runWaits s p.1 id) then s
    else
      let pool0 := poolIndex v.pool
      let pool1 := poolIndex (mput v.pool pool0 [])
      let keep := fun (p : Nat × Nat × Nat) => (inPart p).filter (fun e => !newerFormed s sl.accept c.nsid e.1)
      let made := (parts.zip [pool0, pool1]).map (fun x =>
        (x.1, formPart s v x.1.1 x.2 ((keep x.1).length = x.1.2.2) (keep x.1)))
      let need := (made.filter (fun m => m.2.2.2)).length
      if !poolGives s (streamAt s sl.stream).holds need then poolWait s
      else match appendRec .write sl.accept id (made.flatMap (fun m => m.2.1)) [(idxKey id 0, c.nlb)] true s with
        | none => noteLogFull s
        | some s =>
          let s := forAll made (fun m s => match m.2.2.1 with
            | some _ => s
            | none => if m.2.1.isEmpty then s else giveUpRun m.1.1 s) s
          poolCheck (markFormed id s)

/-! ### The records of an unmap -/

/-- A command's LBA ranges. -/
def IoCmd.spans (c : IoCmd) : List (Nat × Nat) := if c.kind = .dsm then c.ranges else [(c.slba, c.nlb)]

/-- Does a range cover only part of a Lost segment (R158)? -/
def partOfLost (dir : AMap Ns) (v : MapView) (nsid slba nlb : Nat) : Bool :=
  (rangeParts slba nlb).any (fun p => p.2.2 < 4096 && match gsnOf dir nsid p.1 with
    | some g => (segAt v.segs g).kind = .lost
    | none => false)

/-- The LBAs of the next UNMAP record of a range of which `n` LBAs from `a` are left (R151): at most 32 segments, cut at a
256-LBA boundary from the range's first LBA, at a segment boundary where one is. -/
def cutUnmap (first a n : Nat) : Nat :=
  let lim := (a / 4096 + 32) * 4096 - a
  if n ≤ lim then n
  else
    let last := (a + lim - first) / 256 * 256 + first - a
    let seg := (List.range 32).reverse.find? (fun i =>
      let b := (a / 4096 + i + 1) * 4096
      decide (b - a ≤ last ∧ (b - first) % 256 = 0))
    match seg with
    | some i => (a / 4096 + i + 1) * 4096 - a
    | none => Nat.max last 1

/-- Runs of consecutive LBAs that are not left out (R146): (first, count). -/
def spansOf (skip : Nat → Bool) : Nat → Nat → List (Nat × Nat)
  | 0, _ => []
  | n + 1, a =>
    let rest := spansOf skip n (a + 1)
    if skip a then rest
    else match rest with
      | (b, m) :: more => if b = a + 1 then (a, m + 1) :: more else (a, 1) :: rest
      | [] => [(a, 1)]

/-- The run entries of one segment part of an unmap (R140, R156). -/
def unmapOps (v : MapView) (gsn pool : Nat) (skip : Nat → Bool) (a n : Nat) : List RunOp × Bool :=
  let ops := fun (l : List (Nat × Nat)) => l.map (fun p => RunOp.unmap gsn (p.1 % 4096) p.2)
  let l := spansOf skip n a
  match (segAt v.segs gsn).kind with
  | .extent fill _ _ _ =>
    let plain := l.all (fun p => fill ≤ p.1 % 4096 + p.2)
    if plain then (ops l, false)
    else match convertOp v gsn pool with
      | some c => (c :: ops l, true)
      | none => (ops l, false)
  | _ => (ops l, false)

/-- Number, first LBA and LBAs of the range in which a running offset over a command's ranges lies, and the offset in it. -/
def spanAt (r : Nat) : List (Nat × Nat) → Nat → Option (Nat × Nat × Nat × Nat)
  | [], _ => none
  | (a, n) :: rest, off => if off < n then some (r, a, n, off) else spanAt (r + 1) rest (off - n)

/-- Does a range cover a segment whole, and does a piece of it reach the segment's end? -/
def coversSeg (a n j : Nat) : Bool := a ≤ 4096 * j && 4096 * j + 4096 ≤ a + n

/-- LBAs of all ranges of a command. -/
def IoCmd.total (c : IoCmd) : Nat := (c.spans.map (·.2)).sum

/-- Form the next UNMAP record of a Write Zeroes or Deallocate. -/
def formUnmap (id : Nat) (sl : Slot) (s : State) : State :=
  let c := sl.cmd
  let v := formedView s
  if sl.accept = 0 ∨ sl.formed ∨ !sl.fleetReady then s
  else if sl.piece = 0 ∧ c.spans.any (fun p => partOfLost s.map.dir v c.nsid p.1 p.2) then refuseLost id sl s
  else match spanAt 0 c.spans sl.piece with
    | none => markFormed id s
    | some (r, first, total, off) =>
      let a := first + off
      let n := cutUnmap first a (total - off)
      let parts := (rangeParts a n).filterMap (fun p => (gsnOf s.map.dir c.nsid p.1).map (fun g => (g, p.2.1, p.2.2)))
      let isLost := fun (p : Nat × Nat × Nat) => (segAt v.segs p.1).kind = .lost
      let lost := fun (p : Nat × Nat × Nat) => isLost p && !coversSeg first total (p.2.1 / 4096)
      let made := parts.foldl (fun (acc : List RunOp × AMap (AMap Loc) × Nat) p =>
        if lost p then acc
        else if isLost p then
          if (p.2.1 + p.2.2) % 4096 = 0 then (acc.1 ++ [.unmap p.1 0 4096], acc.2) else acc
        else
          let ix := poolIndex acc.2.1
          let m := unmapOps v p.1 ix (newerFormed s sl.accept c.nsid) p.2.1 p.2.2
          (acc.1 ++ m.1, if m.2 then mput acc.2.1 ix [] else acc.2.1, acc.2.2 + b2n m.2)) ([], v.pool, 0)
      if !poolGives s false made.2.2 then poolWait s
      else match appendRec .unmap sl.accept id made.1 [(idxKey id r, off + n)] true s with
        | none => noteLogFull s
        | some s =>
          let s := forAll parts (fun p s => if (spansOf (newerFormed s sl.accept c.nsid) p.2.2 p.2.1).isEmpty then s else giveUpRun p.1 s) s
          let s := { s with hif := { s.hif with slots := mupd s.hif.slots id (fun x => { x with
            piece := sl.piece + n, status := if parts.any lost then Ev.MAP_SEGMENT_LOST else x.status }) } }
          poolCheck (if c.total ≤ sl.piece + n then markFormed id s else s)

/-! ### The record of a reclaim copy -/

/-- Is a segment in granular form? -/
def isGranular (g : Seg) : Bool := match g.kind with
  | .granular _ => true
  | _ => false

/-- Append the COPY records of a copy, at most 128 run entries in each (Table 5.3). -/
def copyRecords (id : Nat) : Nat → List RunOp → State → State
  | 0, _, s => s
  | n + 1, ops, s => (appendRec .copy 0 id (ops.take 128) [] (n = 0) s).elim s (copyRecords id n (ops.drop 128))

/-- Form the COPY record of a copy whose pages have passed (R24, R142): LBAs whose mapping moved are left out. -/
def formCopy (id : Nat) (c : Copy) (s : State) : State :=
  if !c.placed ∨ c.formed ∨ !pagesPassed s id then s
  else
    let v := formedView s
    let seg := segAt v.segs c.gsn
    let same := fun (e : Nat × Loc) => (segLoc (dOf s) v.pool seg (e.1 % 4096)) = ((c.lbas.find? (fun x => x.1 = e.1 % 4096)).map (·.2))
    let locs := ownLocs s id
    let keep := locs.filter same
    let discard := bumpBy MAP_COPY_DISCARD_CNT (locs.length - keep.length)
    let mapped := segMapped (dOf s) v.pool seg
    let back := c.whole && keep.length = c.lbas.length && mapped.length = keep.length && (match keep with
      | (_, l) :: _ => (keep.zip (List.range keep.length)).all (fun e => e.1.2 = extentLoc (dOf s l.band) l.band l.row l.slot e.2)
      | [] => false)
    let finish := fun (ops : List RunOp) (s : State) =>
      if !ringRoom s (recsBytes ops.length) then noteLogFull s
      else poolCheck (discard (copyRecords id (cdiv ops.length 128) ops
        { s with bnd := { s.bnd with copies := mupd s.bnd.copies id (fun c => { c with formed := true }) } }))
    match keep with
    | [] => discard { s with bnd := { s.bnd with copies := mdel s.bnd.copies id } }
    | (_, l) :: _ =>
      if back then
        let n := s.map.lsn
        let s := finish [.extentSet c.gsn 0 keep.length { l with cw := 0 }] s
        if n < s.map.lsn ∧ isGranular seg then bump MAP_TO_EXTENT_CNT s else s
      else
        let pool := poolIndex v.pool
        match convertOp v c.gsn pool with
        | none => finish (granOps c.gsn keep) s
        | some op => if poolGives s false 1 then finish (op :: granOps c.gsn keep) s else poolWait s

/-! ### Completion -/

/-- Do all rows that a command touched meet the parity condition (R238)? -/
def rowsMet (s : State) (id : Nat) : Bool := (ownPages s id).all (fun p => rowParity s p.band p.row)

/-- Count host data by the second, for the last 10 s (R220). -/
def hostData (n : Nat) (s : State) : AMap Nat :=
  let sec := s.tck.now / 1000000000
  let old := s.bnd.hostBytes.filter (fun p => sec < p.1 + 10)
  mput old sec (mgetD old sec 0 + n)

/-- Statistics of a completed Write (Table 4.9, Table 14.3). -/
def countWrite (sl : Slot) (s : State) : State :=
  let s := setStream sl.stream (fun t => { t with bytes := t.bytes + sl.cmd.bytes, commands := t.commands + 1 }) s
  { smartAdd 4 1 (smartAdd 2 sl.cmd.bytes s) with bnd := { s.bnd with hostBytes := hostData sl.cmd.bytes s } }

/-- Has the fleet met its part of a Write: no journal entry of it awaits the keeper's acknowledgement (R21)? -/
def fleetMet (s : State) (id : Nat) : Bool :=
  !(s.flt.journal.any (fun j => j.role = .own && j.cmd = id && !j.acked))

end Sys2Proof.Machine
end

