-- ==== Sys2Proof/Machine/SysBands.lean ====
section
/-! DEFINITION. System bands (R225, R226, R241): the pages of a checkpoint in order (R153), opening, filling and padding a system band,
reclaim of system bands, the end of a checkpoint. -/

namespace Sys2Proof.Machine

/-! ### Bands -/

/-- Listed system bands in a state. -/
def sysIn (s : State) (st : BandSt) : List Nat :=
  (s.bnd.bands.filter (fun p => p.1 < s.bnd.sysBands && p.2.st = st)).map (·.1)

/-- System bands Free, those armed included. -/
def sysFree (s : State) : Nat :=
  s.bnd.sysBands - (s.bnd.bands.filter (fun p => p.1 < s.bnd.sysBands && p.2.st ≠ .free && p.2.st ≠ .erased)).length

/-- The live pages' codewords of a band (R226): those that the last complete checkpoint or an image slot names, and the newest copies, which
the running checkpoint will name. -/
def sysLive (s : State) (b : Nat) : List Loc := ((s.map.ckpt.index ++ s.bnd.sysAt).map (·.2)).filter (fun l => l.band = b)

/-- The Open system band with room, if any. -/
def sysOpen (s : State) : Option Nat :=
  (s.bnd.opens.find? (fun p => p.1 < s.bnd.sysBands && p.2.closeAt.isNone && 0 < bandRoom s p.1
    && (bandAt s p.1).active.all (posCarried s))).map (·.1)

/-- Least worn first, an erased one before one that is not. -/
def sysKey (s : State) (b : Nat) : List Nat := [(bandAt s b).eraseCnt, 1 - b2n (bandAt s b).erasedAll, b]

/-- Open a system band for what waits, one at a time (R225): an Erased one, or arm the least worn Free one. -/
def sysOpenStep (s : State) : State :=
  if s.bnd.sysTodo.isEmpty ∨ s.bnd.opens.any (fun p => p.1 < s.bnd.sysBands) then s
  else match lexMin (sysKey s) ((sysIn s .erased).filter (fun b => !mhas s.bnd.erasing b)) with
    | some b => setBand b (fun e => { e with st := .open_, kind := 3, stream := 0, early := false, failed := false
                                             erasedAll := false, openTime := 0 })
        { s with bnd := { s.bnd with opens := mput s.bnd.opens b {} } }
    | none =>
      if s.bnd.sysArming.isSome then s
      else match lexMin (sysKey s) (sysIn s .free ++ ((List.range s.bnd.sysBands).find? (fun b => !mhas s.bnd.bands b)).toList) with
        | some b => armBand b s
        | none => s

/-! ### Filling -/

/-- Put the next four items into the next page of the Open system band. -/
def sysPut (b : Nat) (s : State) : State :=
  let q := (openAt s b).next
  let d := Nat.max 1 (dOf s b)
  let at_ := slotPlace s b (q / d) (q % d)
  let p : Page := { band := b, row := 0, slot := 0, pos := 0, ch := 0, src := .sys, cls := .m, stream := 0, items := s.bnd.sysTodo.take 4 }
  let s := putSlot b q p (setOpen b (fun o => { o with next := o.next + 1 }) s)
  { s with bnd := { s.bnd with sysTodo := s.bnd.sysTodo.drop 4, sysWait := addTo s.bnd.sysWait (pageKey b (q / d) at_.1 at_.2) } }

/-- Place what waits, in order. -/
def sysPlace : Nat → State → State
  | 0, s => s
  | n + 1, s => match sysOpen s with
    | some b => if s.bnd.sysTodo.isEmpty then s else sysPlace n (sysPut b s)
    | none => s

/-- Pad the Open system band to the end of its program group, so that whole rows are written (R225). -/
def sysPad (s : State) : State :=
  match s.bnd.opens.find? (fun p => p.1 < s.bnd.sysBands && p.2.closeAt.isNone) with
  | none => s
  | some (b, o) =>
    let u := Nat.max 1 (unitPages s b)
    let g := Nat.max 1 (u * dOf s b)
    if o.next % g = 0 then s
    else
      let k := o.next / g
      padRows b (k * u) (k * u + u) (setOpen b (fun o => { o with next := (k + 1) * g }) s)

/-- A page whose row meets R238 by program status: its items' newest copies are there; a copy yields to a newer one. -/
def sysNoted (key : Nat) (p : Page) (s : State) : State :=
  forAll ((List.range p.items.length).filterMap (fun i => (p.items[i]?).map (fun x => (i, x)))) (fun e s =>
    let at_ : Loc := { band := p.band, row := p.row, slot := p.slot, cw := e.1 }
    if e.2.from_.isSome ∧ sysFind s e.2.item ≠ e.2.from_ then s
    else { s with bnd := { s.bnd with sysAt := s.bnd.sysAt.filter (fun x => x.1 ≠ e.2.item) ++ [(e.2.item, at_)] } })
    { s with bnd := { s.bnd with sysWait := dropFrom s.bnd.sysWait key } }

/-- Note the pages that have come to meet R238. -/
def sysNote (s : State) : State :=
  forAll s.bnd.sysWait (fun key s => match mget s.bnd.pages key with
    | none => { s with bnd := { s.bnd with sysWait := dropFrom s.bnd.sysWait key } }
    | some p => if p.st = .passed ∧ rowParity s p.band p.row then sysNoted key p s else s) s

/-! ### The checkpoint -/

/-- Queue items for the system bands. -/
def sysQueue (l : List SysItem) (s : State) : State :=
  { s with bnd := { s.bnd with sysTodo := s.bnd.sysTodo ++ l.map (fun x => { item := x }) } }

/-- The running checkpoint has come to a stage. -/
def ckptStage (n : Nat) (s : State) : State := { s with map := { s.map with running := s.map.running.map (fun c => { c with stage := n }) } }

/-- The keys at which two maps differ. -/
def diffKeys {α : Type} [DecidableEq α] (a b : AMap α) : List Nat :=
  ((a.filter (fun e => mget b e.1 ≠ some e.2)) ++ b.filter (fun e => mget a e.1 ≠ some e.2)).map (·.1)

/-- Pages of the segment table changed since the last checkpoint, or of which no copy is left. -/
def segItems (s : State) (c : Ckpt) : List SysItem :=
  let all := (s.map.segs.map (fun e => e.1 / 256)).dedup.filter (fun n => (sysFind s (.seg n)).isNone)
  ((diffKeys c.segs s.map.segs).map (· / 256) ++ all).dedup.map .seg

/-- The same of the granular pool, 512 entries a page. -/
def poolItems (s : State) (c : Ckpt) : List SysItem :=
  s.map.pool.flatMap (fun t =>
    let old := mgetD c.pool t.1 []
    let all := (t.2.map (fun e => e.1 / 512)).dedup.filter (fun n => (sysFind s (.pool t.1 n)).isNone)
    ((diffKeys old t.2).map (· / 512) ++ all).dedup.map (fun n => .pool t.1 n))

/-- The same of the stamp tables. -/
def stampItems (s : State) (c : Ckpt) : List SysItem :=
  let all := (s.flc.stamps.map (fun e => e.1 / 16)).dedup.filter (fun n => (sysFind s (.stamps n)).isNone)
  ((diffKeys c.stamps s.flc.stamps).map (· / 16) ++ all).dedup.map .stamps

/-- What a checkpoint writes after the pool: the stamp tables' changed pages (R193), the rebuild map (R252), the SMART page (R422), the group
directory whole (R153 step 4). -/
def restItems (s : State) (c : Ckpt) : List SysItem :=
  stampItems s c ++ (List.range 4).map .rebuild ++ [.smart] ++ (List.range (s.map.dir.length + 1)).map .dir

/-- Pages of the checkpoint index: 256 copies named in each (log entry 78). -/
def indexItems (s : State) : List SysItem := (List.range (cdiv s.bnd.sysAt.length 256 + 1)).map .index

/-- The running checkpoint of a unit without system bands takes everything as it stands. -/
def captureAll (c : Ckpt) (s : State) : State :=
  let l := (segItems s c) ++ poolItems s c ++ restItems s c
  { s with map := { s.map with running := s.map.running.map (fun c => { l.foldl (capture s) c with stage := 5 }) } }

/-- One step of the running checkpoint (R153), each page's content fixed as it is sealed: segment pages, then the granular pool, then the
directory, then the index, then pads. -/
def ckptStep (s : State) : State :=
  match s.map.running with
  | none => s
  | some c =>
    if s.map.durable < c.replayLsn ∨ 5 ≤ c.stage then s
    else if !sysRuns s then captureAll c s
    else if c.stage = 0 then ckptStage 1 (sysQueue (segItems s c) s)
    else if ckptUnfixed s then s
    else if c.stage = 1 then
      let s := ckptStage 2 (sysQueue (poolItems s c) s)
      { s with map := { s.map with running := s.map.running.map (fun c => { c with pool := c.pool.filter (fun t => mhas s.map.pool t.1) }) } }
    else if c.stage = 2 then ckptStage 3 (sysQueue (restItems s c) s)
    else if ckptUnplaced s then s
    else if c.stage = 3 then ckptStage 4 (sysQueue (indexItems s) s)
    else ckptStage 5 (sysPad s)

/-- What else waits is padded to whole rows while no checkpoint runs. -/
def sysIdle (s : State) : State :=
  if s.map.running.isNone ∧ s.bnd.sysTodo.isEmpty ∧ !s.bnd.sysWait.isEmpty then sysPad s else s

/-- CHECKPOINT_END (R153): MEM accepts no MRAM write after the cut-off of Table 13.7, and the root block then waits. -/
def execCheckpointEnd (s : State) : Host.Outcome State Fault Refusal :=
  .next (if s.thm.mramCut || !s.cst.mode.runs then s else ckptFinish (ckptWritten s) s)

/-! ### Reclaim -/

/-- A Closed system band without a live page enters AwaitingErase, once its reads have ended. -/
def sysAwait (s : State) : State :=
  forAll (sysIn s .closed) (fun b s =>
    let waits := s.bnd.sysWait.any (fun k => (mget s.bnd.pages k).any (fun p => p.band = b))
    if (sysLive s b).isEmpty ∧ !waits ∧ !bandRead s b then toAwaiting b
      { s with bnd := { s.bnd with sysVictim := if s.bnd.sysVictim = some b then none else s.bnd.sysVictim } }
    else s) s

/-- The next victim: the Closed system band with the fewest live codewords, where at most two bands are Free or about to be (R226). -/
def sysPick (s : State) : Option Nat :=
  let closed := sysIn s .closed
  if sysFree s + (sysIn s .awaiting).length ≤ 2 then
    lexMin (fun b => [(sysLive s b).length, b]) (closed.filter (fun b => s.bnd.sysAt.any (fun e => e.2.band = b)))
  else none

/-- Copy the live pages of a victim forward, its reads in M slots. -/
def sysReclaim (s : State) : State :=
  match s.bnd.sysVictim with
  | some b =>
    if (bandAt s b).st = .closed ∧ s.bnd.sysAt.any (fun e => e.2.band = b) then s
    else { s with bnd := { s.bnd with sysVictim := none } }
  | none => match sysPick s with
    | none => s
    | some b =>
      forAll ((s.bnd.sysAt.map (·.2)).filter (fun l => l.band = b)) (fun l s =>
        let at_ := slotPlace s b l.row l.slot
        queueRead (.sys (pageKey b l.row at_.1 at_.2) l.cw) .m 0 (b * 65536 + l.row) l s)
        { s with bnd := { s.bnd with sysVictim := some b } }

/-- BND_SYS_SPACE_LOW at one Free system band, until a second is Free (R226). -/
def sysSpace (s : State) : State :=
  if s.bnd.sysLow then { s with bnd := { s.bnd with sysLow := decide (sysFree s ≤ 1) } }
  else if sysFree s ≤ 1 then raise Ev.BND_SYS_SPACE_LOW [] { s with bnd := { s.bnd with sysLow := true } }
  else s

/-- System bands at a tick edge. -/
def sysStep (s : State) : State :=
  if !sysRuns s then ckptStep s
  else if (pairAt s 9).st = .restarting then s
  else
    let s := sysIdle (ckptStep (sysNote s))
    let s := sysOpenStep (sysSpace (sysReclaim (sysAwait s)))
    sysPlace (s.bnd.sysTodo.length + 1) s

end Sys2Proof.Machine
end

