-- ==== Sys2Proof/Machine/FleetCore.lean ====
section
/-! DEFINITION. FLT: ring positions (R265, R280), messages (R267, R273), stripe images and elements (R281, R282), fetching elements
(R288), locked stripes (R287, R289), and both ends of the keeper protocol (R283-R285) of 09_fleet.md. -/

namespace Sys2Proof.Machine

/-! ### Ring positions -/

/-- Is the unit of a ring position in the roster of the current epoch? -/
def liveAt (s : State) (p : Nat) : Bool := s.flt.roster.any (fun e => e.position = p)

/-- The unit ID at a ring position. -/
def unitAt (s : State) (p : Nat) : Nat := match s.flt.roster.find? (fun e => e.position = p) with | some e => e.unitId | none => 0xFFFF

/-- The ring position of a unit. -/
def posOfUnit (s : State) (u : Nat) : Option Nat := (s.flt.roster.find? (fun e => e.unitId = u)).map (·.position)

/-- The next live position after q (R265). -/
def nextLive (s : State) (q : Nat) : Nat :=
  (((List.range s.flt.n).map (fun i => (q + 1 + i) % s.flt.n)).find? (liveAt s)).getD q

/-- The lowest live position: the leader's (R275). -/
def leaderPos (s : State) : Nat := ((List.range 32).find? (liveAt s)).getD 0

/-- Does this unit lead? -/
def leads (s : State) : Bool := liveAt s s.flt.position && leaderPos s = s.flt.position

/-- Positions of the live peers. -/
def livePeers (s : State) : List Nat := (s.flt.roster.map (·.position)).filter (fun p => p ≠ s.flt.position)

/-- A peer, by ring position. -/
def peerAt (s : State) (p : Nat) : Peer := mgetD s.flt.peers p {}

/-- Change a peer. -/
def setPeer (p : Nat) (f : Peer → Peer) (s : State) : State :=
  { s with flt := { s.flt with peers := mput s.flt.peers p (f (peerAt s p)) } }

/-- Is the group one that this unit belongs to now: Member, Rebuilding or Isolated? -/
def inGroup (s : State) : Bool := s.flt.fstate = .member || s.flt.fstate = .rebuilding || s.flt.fstate = .isolated

/-- Data units per stripe. -/
def kOf (s : State) : Nat := s.flt.n - s.flt.m

/-- The ring position of an element of a stripe: data index e < k, keeper e − k (R280). -/
def elemPos (s : State) (stripe e : Nat) : Nat :=
  (stripe + (if e < kOf s then s.flt.m + e else e - kOf s)) % Nat.max 1 s.flt.n

/-- The element of a stripe at a ring position. -/
def posElem (s : State) (stripe p : Nat) : Nat :=
  let n := Nat.max 1 s.flt.n
  let d := (p + n - stripe % n) % n
  if d < s.flt.m then kOf s + d else d - s.flt.m

/-- The relief keeper of keeper j of a stripe (R280). -/
def reliefPos (s : State) (stripe j : Nat) : Nat := nextLive s ((stripe + j) % Nat.max 1 s.flt.n)

/-- The stripe of a segment of the slice, in the model's numbering. -/
def stripeOf (s : State) (nsid seg : Nat) : Nat := match mget s.map.dir nsid with | some x => x.stored seg | none => seg

/-- The segment of the slice, in the model's numbering, that holds a stripe's own element. -/
def segOfStripe (s : State) (stripe : Nat) : Nat := match s.flt.slice with
  | some nsid => (match mget s.map.dir nsid with | some x => x.numbered stripe | none => stripe)
  | none => stripe

/-- Is an I/O command one of the fleet namespace, written by the host (R283)? -/
def fleetCmd (s : State) (c : IoCmd) : Bool := s.flt.slice = some c.nsid && c.sq ≠ 70000

/-! ### Messages -/

/-- Types that Table 9.2 lists with an answer. -/
def answered (ty : Nat) : Bool := [0x03, 0x12, 0x15, 0x20, 0x22, 0x30, 0x40, 0x50, 0x60].contains ty

/-- Bytes that the keeper buffer can still take: the CREDIT announced (R274). -/
def keepFree (s : State) : Nat :=
  fld s FLT_KEEP_BUF 11 0 * 1048576 - (s.flt.journal.map (fun j => if j.role = .own then 0 else match j.delta with
    | some d => d.length * 4096
    | none => 0)).sum

/-- The bytes of a roster entry (Table 9.8). -/
def rosterBytes (e : RosterEntry) : List Byte :=
  le 2 e.unitId ++ [toByte e.position, 0, 0, 0, 0, 0] ++ le 16 e.addrA ++ le 16 e.addrB ++ List.replicate 8 0

/-- ROSTER_HASH (R272): the entries in ascending position, GROUP, N and M. -/
def rosterHash (s : State) : Nat :=
  let l := (List.range 32).filterMap (fun p => s.flt.roster.find? (fun e => e.position = p))
  Config.sha384 (l.flatMap rosterBytes ++ le 2 s.flt.group ++ [toByte s.flt.n, toByte s.flt.m])

/-- Security versions of the running loader, ledger firmware and customer OS, 0 where none runs. -/
def ownSecvers (s : State) : List Nat :=
  [1, s.cst.ledgerSlot, s.cst.osSlot].map (fun slot =>
    if slot = 0 then 0 else match (s.cst.slots[slot - 1]?).bind (·.img) with | some i => i.secver | none => 0)

/-- A change of roster as numbers: positions removed, then the unit and position added. -/
def changeBody (c : Change) : List Nat := c.removed ++ match c.added with | some (u, p) => [u, p] | none => []

/-- SHA-384 of the running customer OS (Table 9.15), 0 where none runs. -/
def osDigest (s : State) : Nat :=
  if s.cst.osSlot = 0 then 0 else match (s.cst.slots[s.cst.osSlot - 1]?).bind (·.img) with | some i => i.digest | none => 0

/-- The payload of a message (Tables 9.2, 9.15, 9.16), from the state that it reports. -/
def msgBody (s : State) (dest ty seqNo part : Nat) : List Nat :=
  let entry := fun (j : Journal) => [j.writer, j.seqNo, j.stripe, j.offset, j.count, j.index] ++ (j.delta.getD []).map BitVec.toNat
  match ty with
  | 0x03 => 1 :: ownSecvers s ++ [osDigest s, rosterHash s, s.flt.sliceSegs]
  | 0x10 => [keepFree s, b2n s.flt.act.isSome, s.flt.sliceSegs, s.tck.fleet]
  | 0x11 => (s.flt.peers.filter (fun p => p.2.suspected)).map (·.1)
  | 0x12 => match s.flt.proposal with | some p => p.epoch :: changeBody p.change | none => []
  | 0x14 => s.flt.epoch :: s.flt.roster.flatMap (fun e => [e.unitId, e.position, e.addrA, e.addrB])
  | 0x20 => match s.flt.journal.find? (fun j => j.role = .own && j.seqNo = seqNo && j.keeperJ = part) with
    | some j => entry j
    | none => []
  | 0x22 => match s.flt.journal.find? (fun j => j.role ≠ .own && j.seqNo = seqNo && j.writer = part) with
    | some j => j.keeperJ :: entry j
    | none => []
  | 0x40 => match mget s.flt.gathers seqNo with | some g => [g.stripe, g.offset, g.count, part] | none => []
  | 0x50 => match s.flt.act with | some a => [a.time, a.digest] | none => []
  | 0x60 => [s.flt.fnk]
  | _ => [dest, part]

/-- Is there a port to send on? -/
def portUp (s : State) : Bool := s.flt.ports.1.st = .up || s.flt.ports.2.st = .up

/-- The port that carries a message (R266): in pair mode by stripe number, with two planes by kind, and the other port where that one
is down. -/
def portFor (s : State) (ty stripe : Nat) : Nat :=
  let planes := bitAt (rg s FLT_CFG) 3
  let want := if planes then b2n (0x40 ≤ ty && ty < 0x60) else stripe % 2
  if s.flt.ports.1.st = .up && s.flt.ports.2.st = .up then want else b2n (s.flt.ports.1.st ≠ .up)

/-- The stripe that a message is about: of the entry with its write ID, or of the elements that it asks for; else 0. -/
def msgStripe (s : State) (ty seqNo : Nat) : Nat :=
  if ty = 0x40 then (mget s.flt.gathers seqNo).elim 0 (·.stripe)
  else if 0x20 ≤ ty ∧ ty < 0x40 then (s.flt.journal.find? (fun j => j.seqNo = seqNo)).elim 0 (·.stripe)
  else 0

/-- May a message go to a peer: over an open session (R18, R267), CONFIRM also over the one it opens? -/
def carries (s : State) (dest ty : Nat) : Bool :=
  portUp s && ((peerAt s dest).session ≠ 0 || (ty = 0x03 && (peerAt s dest).newSession ≠ 0))

/-- Frames of a message (R267): the blocks of Δ that a body carries beside its fields take two to a frame. -/
def frameCnt (ty : Nat) (body : List Nat) : Nat :=
  if ty = 0x20 then (body.length - 6) / 2 + 1 else if ty = 0x22 then (body.length - 7) / 2 + 1 else 1

/-- Put a message on a port, where a session carries it. -/
def transmit (dest ty id ref seqNo : Nat) (body : List Nat) (s : State) : State :=
  if carries s dest ty then
    emit (.tfp (portFor s ty (msgStripe s ty seqNo)) dest ty id ref seqNo body)
      (setPeer dest (fun p => { p with sent := p.sent + frameCnt ty body }) s)
  else s

/-- Send a message to the unit at a ring position; one that awaits an answer is kept until then (R273), and sent again once a
session carries it. -/
def send (dest ty ref seqNo part : Nat) (s : State) : State :=
  let id := s.flt.nextMsg
  let keep := if answered ty then [({ id := id, peer := dest, kind := ty, seqNo := seqNo, part := part } : Msg)] else []
  transmit dest ty id ref seqNo (msgBody s dest ty seqNo part)
    { s with flt := { s.flt with nextMsg := id + 1, msgs := s.flt.msgs ++ keep } }

/-- Answer a message: an answer is not itself answered. -/
def reply (dest ty ref seqNo : Nat) (body : List Nat) (s : State) : State :=
  transmit dest ty s.flt.nextMsg ref seqNo body { s with flt := { s.flt with nextMsg := s.flt.nextMsg + 1 } }

/-- Send READ_DATA: one block of the element in each half of a frame. -/
def sendData (dest ref stripe : Nat) (data : Option (List Block)) (s : State) : State :=
  if carries s dest 0x41 then
    emit (.tfpData (portFor s 0x41 stripe) dest ref data)
      (setPeer dest (fun p => { p with sent := p.sent + Nat.max 1 (cdiv (data.getD []).length 2) }) s)
  else s

/-- Send a message to every live peer. -/
def sendAll (ty seqNo : Nat) (s : State) : State := forAll (livePeers s) (fun p s => send p ty 0 seqNo 0 s) s

/-- An answer has come: the message is no longer sent again. -/
def settle (p : Msg → Bool) (s : State) : State :=
  { s with flt := { s.flt with msgs := s.flt.msgs.filter (fun m => !p m) } }

/-! ### Images and elements -/

/-- The keystream of an LBA of a slice for a data position (R281). -/
def ksAt (s : State) (q stripe off : Nat) : Block := Config.keystream s.flt.fnk q (stripe * 4096 + off)

/-- The first LBA, in the model's numbering, of this unit's element of a stripe. -/
def elemLba (s : State) (stripe : Nat) : Nat := segOfStripe s stripe * 4096

/-- Is an element listed Stale or Lost (R287)? -/
def staleElem (s : State) (stripe e : Nat) : Bool := s.flt.stale.any (fun x => x.1 = stripe && kOf s + x.2.1 = e)

/-- Is a stripe of this replacement not yet rebuilt (R289)? -/
def notRebuilt (s : State) (stripe : Nat) : Bool :=
  s.flt.fstate = .rebuilding && !s.flt.rebuilt.contains stripe && (s.flt.rebuildNext.getD 0) ≤ stripe

/-- The elements that can be fetched for a stripe, data images and P_0 first (R288). -/
def usable (s : State) (stripe want : Nat) (asked : List Nat) : List Nat :=
  (List.range s.flt.n).filter (fun e => e ≠ want && !asked.contains e && liveAt s (elemPos s stripe e) && !staleElem s stripe e
    && !(elemPos s stripe e = s.flt.position && notRebuilt s stripe))

/-- Begin to serve an element of the own slice: each LBA from the index, or read from D slots (R288). -/
def serve (dest ref stripe off count e : Nat) (s : State) : State :=
  let id := s.flt.gather
  let v : Serve := { dest := dest, ref := ref, stripe := stripe, offset := off, count := count, element := e
                     bad := s.flt.slice.isNone || staleElem s stripe e || notRebuilt s stripe }
  let s := { s with flt := { s.flt with gather := id + 1, serving := mput s.flt.serving id v } }
  let nsid := s.flt.slice.getD 0
  let lba0 := elemLba s stripe + off
  let put := fun (i : Nat) (b : Block) (s : State) => { s with flt := { s.flt with
    serving := mupd s.flt.serving id (fun v => { v with got := mput v.got i b }) } }
  forAll (List.range count) (fun i s =>
    let s := cacheFor s.hif.nextAccept nsid (lba0 + i) s
    match resolve s nsid (lba0 + i) with
    | .zeros => put i (if e < kOf s then ksAt s s.flt.position stripe (off + i) else 0) s
    | .staged b => put i b s
    | .lost => { s with flt := { s.flt with serving := mupd s.flt.serving id (fun v => { v with bad := true }) } }
    | .flash l => queueRead (.fleetReq id i) .d nsid (lba0 + i) l s) s

/-- Ask for an element: of the own slice, or by READ_REQ. -/
def ask (gid e : Nat) (s : State) : State :=
  match mget s.flt.gathers gid with
  | none => s
  | some g =>
    let s := { s with flt := { s.flt with gathers := mput s.flt.gathers gid { g with asked := g.asked ++ [e] } } }
    let p := elemPos s g.stripe e
    if p = s.flt.position then serve p gid g.stripe g.offset g.count e s else send p 0x40 0 gid e s

/-- End a read of a proxy LBA without k usable elements (R288). -/
def proxyFail (id stripe : Nat) (s : State) : State :=
  let s := raise Ev.FLT_UNRECOVERABLE (le 4 stripe) s
  { s with hif := { s.hif with slots := mupd s.hif.slots id (fun sl => { sl with status := Ev.FLT_UNRECOVERABLE, nvme := (2, 0x81) }) } }

/-- A locked stripe's element cannot be computed: it is Lost (Table 9.6, last row). -/
def resyncLost (key : Nat) (s : State) : State :=
  match mget s.flt.resyncs key with
  | none => s
  | some r =>
    let s := if r.rebuild then raise Ev.FLT_UNRECOVERABLE (le 4 r.stripe) s else raise Ev.FLT_RANGE_LOST (le 4 r.stripe) s
    { s with flt := { s.flt with
        resyncs := mdel s.flt.resyncs key, locks := dropFrom s.flt.locks r.stripe
        rebuilt := if r.rebuild then addTo s.flt.rebuilt r.stripe else s.flt.rebuilt
        stale := if kOf s ≤ r.element then
          s.flt.stale.filter (fun x => !(x.1 = r.stripe && kOf s + x.2.1 = r.element)) ++ [(r.stripe, r.element - kOf s, true)]
          else s.flt.stale } }

/-- Ask for as many elements as are still needed, or give up. -/
def askMore : Nat → Nat → State → State
  | 0, _, s => s
  | fuel + 1, gid, s =>
    match mget s.flt.gathers gid with
    | none => s
    | some g =>
      if kOf s ≤ g.asked.length - g.bad.length then s
      else match usable s g.stripe g.want g.asked with
        | e :: _ => askMore fuel gid (ask gid e s)
        | [] =>
          let s := { s with flt := { s.flt with gathers := mdel s.flt.gathers gid } }
          match g.use with
          | .proxy id _ => proxyFail id g.stripe s
          | .element key => resyncLost key s

/-- Begin to fetch k elements. -/
def gather (use : GatherFor) (stripe off count want : Nat) (s : State) : State :=
  let gid := s.flt.gather
  let g : Gather := { use := use, stripe := stripe, offset := off, count := count, want := want, asked := [] }
  askMore 40 gid { s with flt := { s.flt with gather := gid + 1, gathers := mput s.flt.gathers gid g } }

/-- Begin to fetch the next LBAs of a locked stripe, at most 256 at a time. -/
def resyncRead (key : Nat) (s : State) : State :=
  match mget s.flt.resyncs key with
  | none => s
  | some r =>
    if 4096 ≤ r.next ∨ s.flt.gathers.any (fun g => g.2.use = .element key) then s
    else gather (.element key) r.stripe r.next 256 r.element s

/-- An internal Write of the own slice, not counted among the host's commands; it waits until its data is whole. -/
def ownWrite (stream nsid lba : Nat) (data : List Block) (n : Nat) (started : Bool) (s : State) : Nat × State :=
  let id := s.hif.nextCmd
  let c : IoCmd := { sq := 70000, cid := 0, nsid := nsid, ord := false, kind := .write, slba := lba, nlb := n, data := data }
  let sl : Slot := { cmd := c, started := started, stream := stream, reserved := (streamAt s stream).st = .admitted, silent := true }
  (id, { s with hif := { s.hif with nextCmd := id + 1, slots := mput s.hif.slots id sl } })

/-- The runs of consecutive data that are not zero: (first, blocks). -/
def solidRuns : List Block → Nat → List (Nat × List Block)
  | [], _ => []
  | b :: bs, i =>
    let rest := solidRuns bs (i + 1)
    if b = 0 then rest
    else match rest with
      | (j, l) :: more => if j = i + 1 then (i, b :: l) :: more else (i, [b]) :: rest
      | [] => [(i, [b])]

/-- A locked stripe has been read and written whole: the element is current, the lock is freed (R287, R289). -/
def resyncEnd (key : Nat) (s : State) : State :=
  match mget s.flt.resyncs key with
  | none => s
  | some r =>
    if r.next < 4096 ∨ !r.writes.isEmpty then s
    else
      let s := { s with flt := { s.flt with resyncs := mdel s.flt.resyncs key, locks := dropFrom s.flt.locks r.stripe } }
      if r.rebuild then { s with flt := { s.flt with rebuilt := addTo s.flt.rebuilt r.stripe } }
      else raise Ev.FLT_RESYNC_DONE [] { s with flt := { s.flt with
        stale := s.flt.stale.filter (fun x => !(x.1 = r.stripe && kOf s + x.2.1 = r.element)) } }

/-- The LBAs fetched for a locked stripe are written: a data image without its keystream as best-effort writes of stream 0, parity
through KEEP_STREAM (R287, R289). -/
def resyncWrite (key off : Nat) (bs : List Block) (s : State) : State :=
  match mget s.flt.resyncs key, s.flt.slice with
  | some r, some nsid =>
    let base := elemLba s r.stripe + off
    let isData := r.element < kOf s
    let bare := (List.range bs.length).map (fun i =>
      let b := bs.getD i 0
      if isData ∧ b ≠ 0 then b ^^^ ksAt s s.flt.position r.stripe (off + i) else b)
    let runs := if isData then (solidRuns bs 0).map (fun x => (x.1, (bare.drop x.1).take x.2.length))
      else if bs.all (· = 0) && (List.range bs.length).all (fun i => resolve s nsid (base + i) = .zeros) then [] else [(0, bs)]
    let s := forAll runs (fun x s =>
      let w := ownWrite (if isData then 0 else s.flt.keepStream) nsid (base + x.1) x.2 x.2.length true s
      { w.2 with flt := { w.2.flt with resyncs := mupd w.2.flt.resyncs key (fun r => { r with writes := r.writes ++ [w.1] }) } }) s
    let s := { s with flt := { s.flt with resyncs := mupd s.flt.resyncs key (fun r => { r with next := off + bs.length }) } }
    resyncEnd key (resyncRead key s)
  | _, _ => s

/-- k elements are there: the one wanted follows (R282). The keystream is removed from a proxy LBA; an image of zeros is an
Unmapped LBA (R281). -/
def gatherDone (gid : Nat) (s : State) : State :=
  match mget s.flt.gathers gid with
  | none => s
  | some g =>
    if g.got.length < kOf s then s
    else
      let s := { s with flt := { s.flt with gathers := mdel s.flt.gathers gid } }
      let ws := (fleetWeights (kOf s) s.flt.m g.want (g.got.map (·.1))).getD []
      let bs := (List.range g.count).map (fun i => blockSum ws (g.got.map (fun x => x.2.getD i 0)))
      match g.use with
      | .proxy id ix =>
        let b := bs.getD 0 0
        let out := if b = 0 then b else b ^^^ ksAt s (elemPos s g.stripe g.want) g.stripe g.offset
        { s with hif := { s.hif with slots := mupd s.hif.slots id (fun sl => { sl with got := mput sl.got ix out }) } }
      | .element key => resyncWrite key g.offset bs s

/-- An element has come, or cannot be had. -/
def takeElem (gid e : Nat) (data : Option (List Block)) (s : State) : State :=
  match mget s.flt.gathers gid with
  | none => s
  | some g =>
    if !g.asked.contains e ∨ g.bad.contains e ∨ mhas g.got e then s
    else match data with
      | some bs => gatherDone gid { s with flt := { s.flt with gathers := mput s.flt.gathers gid { g with got := mput g.got e bs } } }
      | none => askMore 40 gid { s with flt := { s.flt with gathers := mput s.flt.gathers gid { g with bad := g.bad ++ [e] } } }

/-- Answer the READ_REQs whose LBAs have all been read. -/
def serveStep (s : State) : State :=
  let ready := s.flt.serving.filter (fun v => v.2.bad || v.2.count ≤ v.2.got.length)
  forAll ready (fun v s =>
    let x := v.2
    let s := { s with flt := { s.flt with serving := mdel s.flt.serving v.1 } }
    let image := fun (i : Nat) =>
      let b := (mget x.got i).getD 0
      if x.element < kOf s then b ^^^ ksAt s s.flt.position x.stripe (x.offset + i) else b
    let data := if x.bad then none else some ((List.range x.count).map image)
    if x.dest = s.flt.position then takeElem x.ref x.element data s else sendData x.dest x.ref x.stripe data s) s

/-! ### The data unit -/

/-- The pieces of a fleet write: stripe, first offset, LBAs (at most 256), first LBA's number within the command. -/
def fleetPieces (s : State) (c : IoCmd) : List (Nat × Nat × Nat × Nat) :=
  let spans := c.spans.foldl (fun (a : List (Nat × Nat × Nat) × Nat) p => (a.1 ++ [(p.1, p.2, a.2)], a.2 + p.2)) ([], 0)
  spans.1.flatMap (fun p => (rangeParts p.1 p.2.1).flatMap (fun q =>
    (List.range (cdiv q.2.2 256)).map (fun i =>
      let off := q.2.1 + 256 * i
      (stripeOf s c.nsid q.1, off % 4096, Nat.min 256 (q.2.2 - 256 * i), p.2.2 + (off - p.1)))))

/-- The LBAs of a command in order. -/
def IoCmd.lbas (c : IoCmd) : List Nat := c.spans.flatMap (fun p => (List.range p.2).map (fun i => p.1 + i))

/-- Bytes of Δ sent to a position and not acknowledged, and still to be sent there. -/
def deltaOut (s : State) (p : Nat) : Nat :=
  (s.flt.journal.map (fun j => if j.role = .own ∧ !j.acked ∧ elemPos s j.stripe (kOf s + j.keeperJ) = p
    ∧ s.flt.msgs.any (fun m => m.kind = 0x20 && m.seqNo = j.seqNo && m.peer = p) then j.count * 4096 else 0)).sum

/-- Send the intents that wait, within the CREDIT of each keeper (R274). -/
def sendIntents (s : State) : State :=
  forAll s.flt.journal (fun j s =>
    let p := elemPos s j.stripe (kOf s + j.keeperJ)
    if j.role ≠ .own ∨ j.acked ∨ s.flt.fstate = .isolated ∨ s.flt.resends.contains j.seqNo ∨ !liveAt s p
      ∨ s.flt.msgs.any (fun m => m.kind = 0x20 && m.seqNo = j.seqNo && m.peer = p)
      ∨ (peerAt s p).credit < deltaOut s p + j.count * 4096 then s
    else send p 0x20 0 j.seqNo j.keeperJ s) s

/-- Every live keeper has acknowledged: the new data may be programmed (Table 9.5 step 7). -/
def fleetGo (id : Nat) (s : State) : State :=
  if s.flt.journal.any (fun j => j.role = .own && j.cmd = id && !j.acked) then s
  else placeWrite id { s with hif := { s.hif with slots := mupd s.hif.slots id (fun sl => { sl with fleetReady := true }) } }

/-- Form Δ of a fleet write whose old data is there, journal an OWN entry per stripe piece and live keeper, and send the intents
(Table 9.5 step 2). -/
def formDelta (id : Nat) (sl : Slot) (s : State) : State :=
  let c := sl.cmd
  let pieces := fleetPieces s c
  let delta := fun (pc : Nat × Nat × Nat × Nat) => (List.range pc.2.2.1).map (fun i =>
    let ks := ksAt s s.flt.position pc.1 (pc.2.1 + i)
    let old := (mget sl.got (1000000 + pc.2.2.2 + i)).getD 0 ^^^ ks
    if c.kind = .write then old ^^^ (c.data.getD (pc.2.2.2 + i) 0 ^^^ ks) else old)
  let s := { s with hif := { s.hif with slots := mupd s.hif.slots id (fun x => { x with got := [] }) } }
  let s := forAll pieces (fun pc s =>
    let js := (List.range s.flt.m).filter (fun j => liveAt s (elemPos s pc.1 (kOf s + j)))
    let mk := fun (j : Nat) => ({ role := .own, st := .intended, writer := s.flt.unitId, seqNo := s.flt.fleetSeq, stripe := pc.1
                                  offset := pc.2.1, count := pc.2.2.1, index := posElem s pc.1 s.flt.position, keeperJ := j
                                  epoch := s.flt.epoch, delta := some (delta pc), cmd := id } : Journal)
    { s with flt := { s.flt with journal := s.flt.journal ++ js.map mk, fleetSeq := s.flt.fleetSeq + 1 } }) s
  fleetGo id (sendIntents s)

/-- Step 1 of Table 9.5: read the old data below the write's own acceptance number; an Unmapped LBA is a zero image. -/
def readOld (id : Nat) (sl : Slot) (s : State) : State :=
  let c := sl.cmd
  let put := fun (i : Nat) (b : Block) (s : State) => { s with hif := { s.hif with
    slots := mupd s.hif.slots id (fun x => { x with got := mput x.got (1000000 + i) b }) } }
  forAll ((List.range c.lbas.length).zip c.lbas) (fun x s =>
    let st := stripeOf s c.nsid (x.2 / 4096)
    let zero := if c.sq = 70000 then 0 else ksAt s s.flt.position st (x.2 % 4096)
    let s := cacheFor sl.accept c.nsid x.2 s
    match resolveAt s sl.accept c.nsid x.2 with
    | .zeros => put x.1 zero s
    | .lost => put x.1 zero s
    | .staged b => put x.1 b s
    | .flash l => queueRead (.fleetOld id x.1) .d c.nsid x.2 l s) s

/-- Does a slot hold all the old data it reads? -/
def oldThere (sl : Slot) : Bool := sl.cmd.total ≤ sl.got.length && sl.cmd.total ≠ 0

/-- Form Δ of every fleet write that can. -/
def deltaStep (s : State) : State :=
  let l := s.hif.slots.filter (fun p => fleetCmd s p.2.cmd && !p.2.fleetReady && oldThere p.2
    && !(s.flt.journal.any (fun j => j.role = .own && j.cmd = p.1)))
  forAll l (fun p s => formDelta p.1 p.2 s) s

/-! ### The keeper -/

/-- A keeper element of a stripe becomes Stale (R287): its keeper locks the stripe to resync it. -/
def markStale (stripe j : Nat) (s : State) : State :=
  if s.flt.stale.any (fun x => x.1 = stripe && x.2.1 = j) then s
  else
    let s := raise Ev.FLT_STRIPE_STALE (le 4 stripe ++ [toByte j]) { s with flt := { s.flt with stale := s.flt.stale ++ [(stripe, j, false)] } }
    if elemPos s stripe (kOf s + j) = s.flt.position then { s with flt := { s.flt with locks := addTo s.flt.locks stripe } } else s

/-- Reads of old data or old parity that failed (Table 10.7): the fleet write completes with the status; the element whose old
parity cannot be read is Stale, and the entry is dropped. -/
def failedStep (s : State) : State :=
  forAll (s.hif.slots.filter (fun p => p.2.status ≠ 0 && !p.2.fleetReady || p.2.status ≠ 0 && p.2.cmd.sq = 70000 && !p.2.started)) (fun p s =>
    if p.2.cmd.sq = 70000 then
      let s := { s with hif := { s.hif with slots := mdel s.hif.slots p.1 } }
      match s.flt.journal.find? (fun j => j.role = .keeper && j.cmd = p.1) with
      | some j => markStale j.stripe j.keeperJ { s with flt := { s.flt with journal := s.flt.journal.filter (fun x => x ≠ j) } }
      | none => s
    else if fleetCmd s p.2.cmd && !(s.flt.journal.any (fun j => j.role = .own && j.cmd = p.1)) then
      ioNm p.1 p.2.status (dropIndex p.1 (releaseStaging p.2 s))
    else s) s

/-- Begin the fold of a DONE entry: an internal Write through KEEP_STREAM reads the old parity, once every earlier fold of the same
LBAs has been entered in the index (R284). -/
def foldStep (s : State) : State :=
  forAll s.flt.journal (fun j s =>
    match s.flt.slice, j.delta with
    | some nsid, some _ =>
      let lba := elemLba s j.stripe + j.offset
      let before := s.hif.slots.any (fun p => p.2.cmd.sq = 70000 && p.2.cmd.nsid = nsid && meets p.2.cmd.slba p.2.cmd.nlb lba j.count
        && !(s.hif.index.any (fun e => e.1 / 1024 = p.1 && e.2.entered)))
      if j.role ≠ .keeper ∨ j.st ≠ .done ∨ j.cmd ≠ 0 ∨ before then s
      else
        let w := ownWrite s.flt.keepStream nsid lba [] j.count false s
        let s := { w.2 with flt := { w.2.flt with journal := w.2.flt.journal.map (fun x => if x = j then { x with cmd := w.1 } else x) } }
        match mget s.hif.slots w.1 with
        | some sl => readOld w.1 { sl with accept := s.hif.nextAccept } s
        | none => s
    | _, _ => s) s

/-- The old parity is there: fold Δ into it (R282) and hand the Write to STM. -/
def foldData (s : State) : State :=
  forAll s.hif.slots (fun p s =>
    if p.2.cmd.sq ≠ 70000 ∨ p.2.started ∨ !oldThere p.2 then s
    else match s.flt.journal.find? (fun j => j.role = .keeper && j.cmd = p.1) with
      | none => s
      | some j =>
        let c := fleetCoef s.flt.m j.keeperJ j.index
        let data := (List.range j.count).map (fun i =>
          (mget p.2.got (1000000 + i)).getD 0 ^^^ blockMul c (((j.delta.getD [])[i]?).getD 0))
        bump FLT_FOLD_CNT { s with hif := { s.hif with slots := mupd s.hif.slots p.1 (fun sl => { sl with
          cmd := { sl.cmd with data := data }, started := true, got := [] }) } }) s

/-- One round of what the message engine and the lanes can do with what has been read. -/
def fleetPass (s : State) : State := foldData (foldStep (deltaStep (failedStep (serveStep s))))

/-- What FLT does once reads have ended or entries have changed; past the cut-off of Table 13.7 no journal entry is written, and only
requests are served (R407). -/
def fleetStep (s : State) : State :=
  if s.flt.slice.isNone && s.flt.serving.isEmpty && s.flt.gathers.isEmpty then s
  else if s.thm.mramCut then serveStep s
  else fleetPass (fleetPass (fleetPass (fleetPass s)))

/-- An internal Write has met R20: its fold retires the entry (Table 9.5 step 9), or its locked stripe comes further. -/
def ownWriteEnd (id : Nat) (s : State) : State :=
  let s := match s.flt.journal.find? (fun j => j.role = .keeper && j.cmd = id) with
    | some j =>
      let rel := reliefPos s j.stripe j.keeperJ
      let s := { s with flt := { s.flt with journal := s.flt.journal.filter (fun x => x ≠ j) } }
      let s := if rel ≠ s.flt.position then send rel 0x25 0 j.seqNo j.writer s else s
      match posOfUnit s j.writer with
      | some p => send p 0x25 0 j.seqNo j.writer s
      | none => s
    | none => s
  match s.flt.resyncs.find? (fun r => r.2.writes.contains id) with
  | some (key, r) => resyncEnd key { s with flt := { s.flt with
      resyncs := mput s.flt.resyncs key { r with writes := dropFrom r.writes id } } }
  | none => s

/-- A fleet write has met R20: its OWN entries are PROGRAMMED, DONE goes to every keeper (Table 9.5 step 7). -/
def fleetDone (id : Nat) (s : State) : State :=
  let mine := s.flt.journal.filter (fun j => j.role = .own && j.cmd = id)
  let s := { s with flt := { s.flt with journal := s.flt.journal.map (fun j =>
    if j.role = .own ∧ j.cmd = id then { j with st := .programmed } else j) } }
  forAll mine (fun j s => send (elemPos s j.stripe (kOf s + j.keeperJ)) 0x24 0 j.seqNo 0 s) s

/-- A held fleet write of a Fenced unit completes with FLT_FENCED, nothing of it programmed (R277). -/
def fenceWrite (id : Nat) (sl : Slot) (s : State) : State :=
  let s := { s with flt := { s.flt with journal := s.flt.journal.filter (fun j => !(j.role = .own && j.cmd = id)) } }
  ioNm id Ev.FLT_FENCED (dropIndex id (releaseStaging sl s))

/-- Complete every fleet write that is held. -/
def fenceAll (s : State) : State :=
  forAll (s.hif.slots.filter (fun p => fleetCmd s p.2.cmd && !p.2.fleetReady && p.2.accept ≠ 0)) (fun p s => fenceWrite p.1 p.2 s) s

/-- FLEET_WRITE_START (R283, R284): with every older overlapping fleet write entered, the old data is read. -/
def execFleetWriteStart (id : Nat) (s : State) : Host.Outcome State Fault Refusal :=
  .next (match mget s.hif.slots id with
    | none => s
    | some sl =>
      let entered := s.hif.index.any (fun e => e.1 / 1024 = id && e.2.entered)
      let older := s.hif.index.any (fun e => !e.2.entered && e.2.accept < sl.accept && e.2.nsid = sl.cmd.nsid
        && sl.cmd.spans.any (fun p => meets e.2.slba e.2.nlb p.1 p.2))
      let begun := !sl.got.isEmpty || s.flt.journal.any (fun j => j.role = .own && j.cmd = id)
        || s.flc.reads.any (fun r => match r.2.use with | .fleetOld i _ => i = id | _ => false)
      if !fleetCmd s sl.cmd ∨ sl.fleetReady ∨ sl.accept = 0 ∨ !entered ∨ older ∨ begun ∨ !s.cst.mode.runs then s
      else if s.flt.fstate = .fenced then fenceWrite id sl s
      else if s.flt.fstate = .isolated then s
      else if 65536 < s.flt.journal.length + (fleetPieces s sl.cmd).length * s.flt.m then s
      else if (fleetPieces s sl.cmd).any (fun p => notRebuilt s p.1) then
        { s with flt := { s.flt with rebuildFirst := (fleetPieces s sl.cmd).foldl (fun l p =>
            if notRebuilt s p.1 then addTo l p.1 else l) s.flt.rebuildFirst } }
      else fleetStep (readOld id sl s))

end Sys2Proof.Machine
end

