-- ==== Sys2Proof/Machine/IoCmds.lean ====
section
/-! DEFINITION. The steps of commands that read or write flash, as commands: codewords transferred and decoded (R190, R249, R312),
MAP's records formed (R146), Writes, Write Zeroes and Deallocates completed (R20, R76). -/

namespace Sys2Proof.Machine

/-- Is a read the oldest of its class on its channel whose sense has completed, with a slot of the running tick for it (R182)? -/
def mayTransfer (s : State) (rid : Nat) (r : Rd) (ch : Nat) : Bool :=
  0 < mgetD s.tck.readSlots (8 * ch + r.cls.code) 0
    && s.flc.reads.all (fun p => !(p.2.phase = .ready && p.2.cls = r.cls && p.1 < rid && (readTarget s p.2).any (fun x => x.1 = ch)))

/-- A slot of the running tick carries a codeword. -/
def useReadSlot (ch : Nat) (cl : Cls) (s : State) : State :=
  let key := 8 * ch + cl.code
  { s with tck := { s.tck with readSlots := mput s.tck.readSlots key (mgetD s.tck.readSlots key 0 - 1) } }

/-- READ_TRANSFER (R182, R190, R312): at a slot of its class, the oldest sensed codeword is transferred and decoded; nothing is collected in
a held tick (R46); `ones`, `pass`: its raw result; `words`: the memory words read on its way (R341), of which an uncorrectable one is
settled under R347. -/
def execReadTransfer (rid ones : Nat) (pass : Bool) (lane : LaneSeen) (words : List WordSeen) (s : State) :
    Host.Outcome State Fault Refusal :=
  let raw : Raw := { ones := ones, pass := pass }
  .next (fleetStep (match mget s.flc.reads rid with
    | none => s
    | some r => match readTarget s r with
      | none => s
      | some (ch, _) =>
        if s.tck.holding ∨ chanStopped s ch ∨ r.phase ≠ .ready ∨ !mayTransfer s rid r ch then s
        else
          let m := memReads words (useReadSlot ch r.cls s)
          let s := m.1
          if s.cst.mode = .halt ∨ !s.flc.reads.any (fun p => p.1 = rid) then s
          else if m.2.any (fun e => e.2 = .staging) then awaitStep (finishRead rid (.bad Ev.MEM_UNCORRECTABLE) s)
          else match r.use, mget s.bnd.pages r.page with
            | .raw _ _ mode _ x, _ => decodeRaw rid x mode raw s
            | _, some p =>
              if (portAt s (ch / 4)).gen ≠ r.gen then readFails rid Ev.FLC_UNCORRECTABLE lane (staleDrop ch 32 s)
              else awaitStep (decode rid r p raw lane s)
            | _, none => s))

/-- SOFT_DECODE_DONE (R190, R191): a soft decoder ends, and the longest time of one is kept (Table 6.11); its entry is released, and the next takes the decoder. -/
def execSoftDecodeDone (rid : Nat) (pass : Bool) (lane : LaneSeen) (s : State) : Host.Outcome State Fault Refusal :=
  .next (fleetStep (match mget s.flc.reads rid with
    | none => s
    | some r =>
      if s.tck.holding ∨ !s.flc.decoders.any (fun p => p.2 = rid) then s
      else
        let s := { s with flc := { s.flc with softTime := Nat.max s.flc.softTime (s.tck.now - r.decoding) } }
        let s := fogStep (releaseSoft rid (doIf pass (countRecovery r) s))
        if pass then awaitStep (deliver rid lane (bump FLC_G_SOFT_OK_CNT (raise Ev.FLC_SOFT_RECOVERED [] s)))
        else
          let ch := ((readTarget s r).map (·.1)).getD 0
          readFails rid Ev.FLC_UNCORRECTABLE lane (raise Ev.FLC_UNCORRECTABLE (cwDetail s r) (bump (FLC_SOFT_FAIL_CNT ch) s))))

/-- READ_DEADLINE (R247): the deadline, from the edge that issued the read's sense, passes; the codeword is reconstructed in the read's own
class, and a read made for a reconstruction fails there; where the row cannot spare the codeword, the read waits for its own result.
`tampered`, `lanes`: what the cipher lane meets as it decrypts what the reconstruction brings. -/
def execReadDeadline (rid : Nat) (tampered : Bool) (lanes : List Nat × List Nat) (s : State) : Host.Outcome State Fault Refusal :=
  let lane : LaneSeen := { tampered := tampered, mismatch := lanes.1, katFail := lanes.2 }
  .next (fleetStep (match mget s.flc.reads rid with
    | none => s
    | some r =>
      if r.late ∨ r.issued = 0 ∨ r.phase = .recon ∨ s.tck.now < r.issued + 1000 * fld s MBR_READ_DEADLINE 15 0 then s
      else match r.use, mget s.bnd.pages r.page with
        | .raw _ _ _ _ _, _ => s
        | _, none => s
        | _, some p =>
          let s := setRead rid (fun r => { r with late := true }) s
          if parityCount s < 1 + (rowOffer s r p).erased.length then s
          else
            let m := p.ch / 4
            let s := raise Ev.MBR_READ_DEADLINE [] (bump MBR_DEADLINE_CNT (bump (MBR_Mm_DEADLINE_CNT m)
              (setPort m (fun q => { q with deadlines := q.deadlines + 1 }) s)))
            readFails rid Ev.FLC_UNCORRECTABLE lane (if s.stm.softq.contains rid then releaseSoft rid s else s)))

/-- MAP_RECORD_FORM (R146, R151): the delta record of a Write, an unmap or a copy. -/
def execMapRecordForm (id : Nat) (s : State) : Host.Outcome State Fault Refusal :=
  .next (if !s.cst.mode.runs ∨ !s.map.replayed then s
  else match mget s.hif.slots id with
    | some sl => match sl.cmd.kind with
      | .write => formWrite id sl s
      | .writeZeroes => formUnmap id sl s
      | .dsm => formUnmap id sl s
      | _ => s
    | none => match mget s.bnd.copies id with
      | some c => formCopy id c s
      | none => s)

/-- End a Write that has met its conditions; an internal one of FLT posts nothing. -/
def writeEnd (id : Nat) (sl : Slot) (s : State) : State :=
  let s := releaseStaging sl s
  if sl.cmd.sq = 70000 then
    let s := setStream sl.stream (fun t => { t with bytes := t.bytes + sl.cmd.bytes, commands := t.commands + 1 }) s
    fleetStep (ownWriteEnd id { s with hif := { s.hif with slots := mdel s.hif.slots id } })
  else fleetDone id (ioDone id 0 0 0 (countWrite sl s))

/-- WRITE_COMPLETION (R20, R21, R76): the CQE of a Write is posted and its staging released; the same ends a Write Zeroes or
Deallocate whose last record is durable. -/
def execWriteCompletion (id : Nat) (s : State) : Host.Outcome State Fault Refusal :=
  .next (match mget s.hif.slots id with
    | none => s
    | some sl =>
      let kindOk := sl.cmd.kind = .write || sl.cmd.kind = .writeZeroes || sl.cmd.kind = .dsm
      if !kindOk ∨ !sl.formed ∨ s.map.durable < sl.lsn ∨ !s.cst.mode.runs ∨ !fleetMet s id then s
      else if sl.cmd.kind = .write then
        if rowsMet s id then awaitStep (writeEnd id sl s) else s
      else
        let s := fleetDone id (smartAdd 4 1 s)
        awaitStep (if sl.status = 0 then ioDone id 0 0 0 s else ioNm id sl.status s))

end Sys2Proof.Machine
end

