-- ==== Sys2Proof/Machine/HostIo.lean ====
section
/-! DEFINITION. HIF's I/O commands: fetching into command slots (R67, R68), the order of execution (R74), the Streams directive
(R71), Writes (R69, R78), Reads (R79, R144), Flush (R77), Write Zeroes and Deallocate (R80), and the I/O queues (R65, R66, R70). -/

namespace Sys2Proof.Machine

/-! ### Slots and order -/

/-- Slots that the host's I/O commands hold. -/
def hostSlots (s : State) : List (Nat × Slot) := s.hif.slots.filter (fun p => p.2.cmd.sq < 65536)

/-- Does a command hold one of the 61,440 slots of writes (R67)? -/
def IoCmd.writeSlot (c : IoCmd) : Bool := c.kind ≠ .read

/-- CQEs held back, whose commands keep their slots (R67). -/
def heldCqes (s : State) : List Cqe := s.hif.cqs.flatMap (fun p => p.2.held)

/-- Slots held by writes: Writes, Write Zeroes, Dataset Management and Flush commands (R67, HIF_WRITE_SLOTS). -/
def writeSlots (s : State) : Nat :=
  ((hostSlots s).filter (fun p => p.2.cmd.writeSlot)).length + ((heldCqes s).filter (·.writes)).length

/-- Admin commands fetched and not ended: event requests, namespace commands that wait, vendor commands, a Format, downloads and commits
that wait, a Security Receive (R67). -/
def adminSlots (s : State) : Nat :=
  let vendor := fun (l : List Desc) => (l.filter (fun d => match d.src with | .admin _ => true | _ => false)).length
  let commits := (s.cst.commit.toList ++ s.cst.waiting).filter (fun c => match c.src with | .host _ => true | _ => false)
  s.hif.aers.length + s.hif.adminHeld.length + vendor s.sys.hifRings + vendor s.sys.taken + s.sys.hifFormed.length
    + b2n (s.hif.format.isSome && !s.hif.formatQuiet) + s.cst.downloads.length + commits.length + b2n s.sec.spdmWait.isSome

/-- Slots held by admin commands and Reads (R67). -/
def readSlots (s : State) : Nat :=
  ((hostSlots s).filter (fun p => !p.2.cmd.writeSlot)).length + ((heldCqes s).filter (fun c => !c.writes)).length + adminSlots s

/-- Is a slot of the right kind free (R67)? Reads and admin commands beyond 4,096 use the others' (log entry 30). -/
def slotFree (s : State) (c : IoCmd) : Bool :=
  decide ((!c.writeSlot ∧ readSlots s < 4096) ∨ writeSlots s + (readSlots s - 4096) < 61440)

/-- Does HIF fetch from an SQ now (R81-R83, Table 12.1)? -/
def fetchable (s : State) (sq : Nat) : Bool :=
  s.hif.ccEn && s.hif.rdy && !s.hif.resetting && s.hif.shn = 0 && s.cst.mode.io && s.hif.idePhase ≠ 2 && mhas s.hif.sqs sq

/-- May a command start: an ORD command after every earlier one of its SQ, no command before an earlier ORD one (R74)? Commands of a
deleted SQ hold back none (R75). -/
def mayStart (s : State) (id : Nat) (c : IoCmd) : Bool :=
  !(s.hif.slots.any (fun p => p.1 < id && p.2.cmd.sq = c.sq && !p.2.silent && (c.ord || p.2.cmd.ord)))

/-- Commands that one visit to an SQ fetches at most: 2 to the power of feature 0x01's burst, 7 being no limit (R67). -/
def burstMax (s : State) : Nat :=
  let ab := bits (mgetD s.hif.features 1 0) 2 0
  if ab = 7 then 65536 else 2 ^ ab

/-- Does an SQ hold entries that HIF has not fetched, with its lookahead empty? -/
def Sq.waits (q : Sq) : Bool := q.head ≠ q.tail && q.look.isNone

/-- Is it an SQ's turn (R67)? The round robin goes up the SQ numbers, stays with one for a burst, and visits the admin SQ before a round. -/
def turnOf (s : State) (sq : Nat) : Bool :=
  let cur := s.hif.rr.1
  let go := fun x => (mget s.hif.sqs x).any Sq.waits
  if sq = cur ∧ s.hif.rr.2 < burstMax s then true
  else
    !(s.hif.rr.2 < burstMax s && go cur) && (cur < sq || !go 0)
      && !(s.hif.sqs.any (fun p => p.1 ≠ 0 && p.1 ≠ sq && p.2.waits && (if cur < sq then cur < p.1 && p.1 < sq else cur < p.1 || p.1 < sq)))

/-- Mark a slot. -/
def setSlot (id : Nat) (f : Slot → Slot) (s : State) : State :=
  { s with hif := { s.hif with slots := mupd s.hif.slots id f } }

/-! ### Starting a command -/

/-- Is a range inside its namespace? -/
def rangeOk (s : State) (nsid slba nlb : Nat) : Bool := slba + nlb ≤ nsLbas s nsid

/-- Is a namespace a proxy (R288)? -/
def isProxy (s : State) (nsid : Nat) : Bool := match mget s.map.dir nsid with | some x => x.proxyOf.isSome | none => false

/-- The stream that a Write selects, or an NM status (0: NVMe's own Invalid Field) (R71). -/
def selectStream (s : State) (c : IoCmd) : Nat ⊕ Nat :=
  if c.dtype = 0 then .inl 0
  else if c.dtype ≠ 1 then .inr 0
  else if c.dspec = 0 then .inl 0
  else if 4096 ≤ c.dspec then .inr Ev.STM_STREAM_ID_INVALID
  else
    let t := streamAt s c.dspec
    if t.st = .closed ∨ (t.st = .releasing ∧ t.toClosed) then .inr Ev.STM_STREAM_NOT_OPEN
    else if t.nsid ≠ c.nsid then .inr Ev.STM_STREAM_NOT_BOUND
    else .inl c.dspec

/-- Bytes staged for a stream now. -/
def streamStaged (s : State) (i : Nat) : Nat :=
  (s.hif.slots.map (fun p => if p.2.cmd.kind = .write ∧ p.2.accept ≠ 0 ∧ p.2.stream = i then p.2.cmd.bytes else 0)).sum

/-- Is a Write or unmap handed over and not yet accepted? -/
def waitsAccept (sl : Slot) : Bool := sl.started && sl.accept = 0 && sl.cmd.kind ≠ .read && sl.cmd.kind ≠ .flush

/-- Has the index room for a command's entries (R145)? -/
def indexRoom (s : State) (c : IoCmd) : Bool := s.hif.index.length + c.spans.length ≤ 65536

/-- May a command take its index entries: the index has room, and no command handed over earlier waits for entries (R145)? -/
def indexFor (s : State) (id : Nat) (sl : Slot) : Bool :=
  indexRoom s sl.cmd && !(s.hif.slots.any (fun p => p.1 ≠ id && p.2.handed < sl.handed && waitsAccept p.2 && p.2.idxWait))

/-- May STM grant a Write its staging: it fits, and no Write handed over earlier waits for the same staging (R69, R115)? -/
def stageFor (s : State) (id : Nat) (sl : Slot) : Bool :=
  let own := ownStage s sl.stream sl
  stagingFits s sl.stream sl
    && !(s.hif.slots.any (fun p => p.1 ≠ id && p.2.handed < sl.handed && waitsAccept p.2 && p.2.cmd.kind = .write
      && (if own then p.2.stream = sl.stream && ownStage s p.2.stream p.2 else !ownStage s p.2.stream p.2)))

/-- May STM assign a Write its acceptance number? -/
def mayAccept (s : State) (id : Nat) (sl : Slot) : Bool := stageFor s id sl && indexFor s id sl

/-- Assign the acceptance number of an unmap and enter its zero entries (R80). -/
def acceptUnmap (id : Nat) (sl : Slot) (s : State) : State :=
  let a := s.hif.nextAccept
  let c := sl.cmd
  let es := (List.range c.spans.length).zip c.spans
  setSlot id (fun x => { x with accept := a, fleetReady := !fleetCmd s c })
    { s with hif := { s.hif with
      nextAccept := a + 1
      index := es.foldl (fun m e => mput m (idxKey id e.1)
        { accept := a, nsid := c.nsid, slba := e.2.1, nlb := e.2.2, zero := true, entered := true }) s.hif.index } }

/-- The next place in the order of hand-over. -/
def nextHand (s : State) : State := { s with hif := { s.hif with nextHand := s.hif.nextHand + 1 } }

/-- Start an unmap: it is accepted at once where the index has room. -/
def startUnmap (id : Nat) (sl : Slot) (s : State) : State :=
  let sl := { sl with started := true, handed := s.hif.nextHand }
  let now := indexFor s id sl
  let s := nextHand (setSlot id (fun _ => { sl with idxWait := !now }) s)
  if now then acceptUnmap id sl s else s

/-- Start a Write: it selects its stream and is handed to STM (R71, R69); a wait for staging counts (R106). -/
def startWrite (id : Nat) (sl : Slot) (s : State) : State :=
  match selectStream s sl.cmd with
  | .inr 0 => ioDone id 0 2 0 s
  | .inr nm => ioNm id nm s
  | .inl i =>
    let sl := { sl with started := true, handed := s.hif.nextHand, stream := i, reserved := decide ((streamAt s i).st = .admitted) }
    let waits := !mayAccept s id sl
    let s := nextHand (setSlot id (fun _ => { sl with waited := waits, idxWait := stageFor s id sl && waits }) s)
    if waits then setStream i (fun t => { t with waits := t.waits + 1 }) s else s

/-- Start a Read: each LBA comes from the index, as zeros, from flash, or from elements of other units (R144, R288, R289). -/
def startRead (id : Nat) (sl : Slot) (s : State) : State :=
  let c := sl.cmd
  let s := setSlot id (fun x => { x with started := true }) s
  let put := fun (i : Nat) (b : Block) (s : State) => setSlot id (fun x => { x with got := mput x.got i b }) s
  let proxy := match mget s.map.dir c.nsid with | some x => x.proxyOf | none => none
  fleetStep (forAll (List.range c.nlb) (fun i s =>
    let lba := c.slba + i
    let st := stripeOf s c.nsid (lba / 4096)
    match proxy with
    | some q => gather (.proxy id i) st (lba % 4096) 1 (posElem s st q) s
    | none =>
      if s.flt.slice = some c.nsid ∧ notRebuilt s st then gather (.proxy id i) st (lba % 4096) 1 (posElem s st s.flt.position) s
      else
        let s := cacheFor s.hif.nextAccept c.nsid lba s
        match resolve s c.nsid lba with
        | .zeros => put i 0 s
        | .staged b => put i b s
        | .lost => setSlot id (fun x => { x with status := Ev.MAP_SEGMENT_LOST, nvme := (2, 0x81) }) s
        | .flash l => queueRead (.host id i) .d c.nsid lba l s) s)

/-- Start a command in its slot (R74), with the checks of NVMe and of Table 3.2. -/
def startCmd (id : Nat) (s : State) : State :=
  match mget s.hif.slots id with
  | none => s
  | some sl =>
    let c := sl.cmd
    let live := c.active && mhas s.map.dir c.nsid
    if c.kind = .flush then
      if c.nsid = 0xFFFFFFFF ∨ live then ioDone id 0 0 0 s else ioDone id 0 0x0B 0 s
    else if !live then ioDone id 0 0x0B 0 s
    else match c.kind with
      | .flush => s
      | .read =>
        if 256 < c.nlb then ioDone id 0 2 0 s
        else if !rangeOk s c.nsid c.slba c.nlb then ioDone id 0 0x80 0 s
        else startRead id sl s
      | .write =>
        if 256 < c.nlb then ioDone id 0 2 0 s
        else if !rangeOk s c.nsid c.slba c.nlb then ioDone id 0 0x80 0 s
        else if isProxy s c.nsid then ioNm id Ev.FLT_PROXY_READ_ONLY s
        else startWrite id sl s
      | .writeZeroes =>
        if 65536 < c.nlb then ioDone id 0 2 0 s
        else if !rangeOk s c.nsid c.slba c.nlb then ioDone id 0 0x80 0 s
        else if isProxy s c.nsid then ioNm id Ev.FLT_PROXY_READ_ONLY s
        else startUnmap id sl s
      | .dsm =>
        if 256 < c.ranges.length then ioDone id 0 2 0 s
        else if !(c.ranges.all (fun p => rangeOk s c.nsid p.1 p.2)) then ioDone id 0 0x80 0 s
        else if isProxy s c.nsid then ioNm id Ev.FLT_PROXY_READ_ONLY s
        else if c.dtype = 0 then ioDone id 0 0 0 s
        else startUnmap id sl s

/-- Put a command into a slot and start it where the order allows. -/
def takeSlotFor (c : IoCmd) (s : State) : State :=
  let id := s.hif.nextCmd
  let s := { s with hif := { s.hif with nextCmd := id + 1, slots := mput s.hif.slots id { cmd := c } } }
  if mayStart s id c then startCmd id s else s

/-- Fetch a command (R67, R68, R74): in its SQ's turn; with the lookahead of its SQ occupied the SQ is skipped; with ORDER_EN = 0 the ORD
bit is a reserved field. The namespace counts as it is now (R472). -/
def fetchCmd (c : IoCmd) (s : State) : State :=
  match mget s.hif.sqs c.sq with
  | none => s
  | some q =>
    if c.sq = 0 ∨ !fetchable s c.sq ∨ q.look.isSome ∨ !turnOf s c.sq then s
    else
      let c := { c with active := nsActive s c.nsid }
      let n := if s.hif.rr.1 = c.sq ∧ s.hif.rr.2 < burstMax s then s.hif.rr.2 + 1 else 1
      let s := { s with hif := { s.hif with rr := (c.sq, n), sqs := mupd s.hif.sqs c.sq Sq.take } }
      if c.ord ∧ !bitAt (rg s HIF_CFG) 0 then
        postCqe q.cq { sq := c.sq, cid := c.cid, sct := 0, sc := 2, dw0 := 0, writes := c.writeSlot } s
      else if slotFree s c then takeSlotFor c s
      else { s with hif := { s.hif with sqs := mupd s.hif.sqs c.sq (fun q => { q with look := some c }) } }

/-- FLUSH (R77). -/
def execFlush (h : IoHdr) (s : State) : Host.Outcome State Fault Refusal :=
  .next (fetchCmd { sq := h.sq, cid := h.cid, nsid := h.nsid, ord := h.ord, kind := .flush } s)

/-- WRITE (R69, R71). -/
def execWrite (h : IoHdr) (slba nlb dtype dspec : Nat) (data : List Block) (s : State) : Host.Outcome State Fault Refusal :=
  .next (fetchCmd { sq := h.sq, cid := h.cid, nsid := h.nsid, ord := h.ord, kind := .write, slba := slba, nlb := nlb
                    dtype := dtype, dspec := dspec, data := data } s)

/-- READ (R144). -/
def execRead (h : IoHdr) (slba nlb : Nat) (s : State) : Host.Outcome State Fault Refusal :=
  .next (fetchCmd { sq := h.sq, cid := h.cid, nsid := h.nsid, ord := h.ord, kind := .read, slba := slba, nlb := nlb } s)

/-- WRITE_ZEROES (R80). -/
def execWriteZeroes (h : IoHdr) (slba nlb : Nat) (s : State) : Host.Outcome State Fault Refusal :=
  .next (fetchCmd { sq := h.sq, cid := h.cid, nsid := h.nsid, ord := h.ord, kind := .writeZeroes, slba := slba, nlb := nlb } s)

/-- DATASET_MANAGEMENT (R80): only Deallocate acts (Table 3.2); the attribute is kept in `dtype`. -/
def execDatasetManagement (h : IoHdr) (deallocate : Bool) (ranges : List (Nat × Nat)) (s : State) : Host.Outcome State Fault Refusal :=
  .next (fetchCmd { sq := h.sq, cid := h.cid, nsid := h.nsid, ord := h.ord, kind := .dsm, dtype := b2n deallocate, ranges := ranges } s)

/-- LOOKAHEAD_RELEASE (R68). -/
def execLookaheadRelease (sq : Nat) (s : State) : Host.Outcome State Fault Refusal :=
  .next (match mget s.hif.sqs sq with
    | none => s
    | some q => match q.look with
      | none => s
      | some c =>
        if fetchable s sq && slotFree s c then
          takeSlotFor c { s with hif := { s.hif with sqs := mupd s.hif.sqs sq (fun q => { q with look := none }) } }
        else s)

/-- ORDERED_COMMAND_START (R74): a command that waited for others of its SQ starts. In Quiesce and Halt nothing starts (R83). -/
def execOrderedCommandStart (id : Nat) (s : State) : Host.Outcome State Fault Refusal :=
  .next (match mget s.hif.slots id with
    | none => s
    | some sl => if !sl.started && mayStart s id sl.cmd && s.cst.mode.io && s.hif.shn = 0 && sl.cmd.sq < 65536 then startCmd id s else s)

/-! ### Acceptance and staging -/

/-- WRITE_ACCEPTED (R69, R78, R118, R145): the acceptance number, the staging, the index claim, the frame marker. The same claims
the zero entries of an unmap that found the index full. -/
def execWriteAccepted (id : Nat) (s : State) : Host.Outcome State Fault Refusal :=
  .next (match mget s.hif.slots id with
    | none => s
    | some sl =>
      if !waitsAccept sl ∨ !s.cst.mode.runs then s
      else if sl.cmd.kind = .write then
        if mayAccept s id sl then
          let a := s.hif.nextAccept
          let c := sl.cmd
          let acct := if ownStage s sl.stream sl then sl.stream else bePool
          let s := addStaged acct c.bytes { s with hif := { s.hif with
            nextAccept := a + 1
            index := mput s.hif.index (idxKey id 0) { accept := a, nsid := c.nsid, slba := c.slba, nlb := c.nlb, zero := false, data := c.data }
            slots := mupd s.hif.slots id (fun x => { x with accept := a, acct := acct }) } }
          let s := writeMarker sl.stream c.slba a s
          setStream sl.stream (fun t => { t with peak := Nat.max t.peak (cdiv (streamStaged s sl.stream) 1048576) }) s
        else doIf (stageFor s id sl) (setSlot id (fun x => { x with idxWait := true })) s
      else if indexFor s id sl then acceptUnmap id sl s else s)

/-- STAGING_COMPLETE (R78): the LBAs of the Write enter the index in one step and its data is queued for slots; a fleet write
waits for the keeper protocol first (R283). -/
def execStagingComplete (id : Nat) (s : State) : Host.Outcome State Fault Refusal :=
  .next (match mget s.hif.slots id with
    | none => s
    | some sl =>
      if sl.cmd.kind ≠ .write ∨ sl.accept = 0 ∨ sl.staged ∨ !s.cst.mode.runs then s
      else
        let s := { s with hif := { s.hif with
          slots := mupd s.hif.slots id (fun x => { x with staged := true, fleetReady := !fleetCmd s sl.cmd })
          index := mupd s.hif.index (idxKey id 0) (fun e => { e with entered := true }) } }
        fleetStep (placeWrite id s))

/-! ### The end of a Read -/

/-- Does a Read still wait for a codeword? -/
def readWaits (s : State) (id : Nat) : Bool :=
  s.flc.reads.any (fun r => match r.2.use with | .host i _ => i = id | _ => false)
    || s.flt.gathers.any (fun g => match g.2.use with | .proxy i _ => i = id | _ => false)

/-- READ_COMPLETION (R79): the data and the CQE, or an error status, after which the host buffer's content is a free value. -/
def execReadCompletion (id : Nat) (s : State) : Host.Outcome State Fault Refusal :=
  .next (match mget s.hif.slots id with
    | none => s
    | some sl =>
      let c := sl.cmd
      if c.kind ≠ .read ∨ !sl.started ∨ readWaits s id ∨ s.cst.mode = .halt then s
      else if sl.status = 0 then
        let data := (List.range c.nlb).map (fun i => mgetD sl.got i 0)
        let s := smartAdd 3 1 (smartAdd 1 (c.nlb * 4096) s)
        awaitStep (ioDone id 0 0 0 (hostEmit (.hostData c.sq c.cid data) s))
      else
        let data := (List.range c.nlb).map (fun i => Config.undefinedBlock (s.freeCtr + i))
        let s := { s with freeCtr := s.freeCtr + c.nlb }
        awaitStep (ioDone id sl.nvme.1 sl.nvme.2 (if legacy s then 0 else sl.status) (hostEmit (.hostData c.sq c.cid data) s)))

/-! ### Dropping commands -/

/-- Drop a Read: its slot and what it reads. -/
def dropHostRead (id : Nat) (s : State) : State :=
  let s := forAll (s.flc.reads.filter (fun r => match r.2.use with | .host i _ => i = id | _ => false)) (fun r s => dropRead r.1 s) s
  { s with hif := { s.hif with slots := mdel s.hif.slots id }
           flt := { s.flt with gathers := s.flt.gathers.filter (fun g => match g.2.use with | .proxy i _ => i ≠ id | _ => true) } }

/-- The rule of R81 for the commands of the SQs that a condition names: Reads are dropped, commands that have not started are
discarded, started Writes and unmaps run to their end and post nothing. -/
def dropSqs (p : Nat → Bool) (s : State) : State :=
  forAll ((hostSlots s).filter (fun x => p x.2.cmd.sq)) (fun x s =>
    if x.2.cmd.kind = .read then dropHostRead x.1 s
    else if !x.2.started then { s with hif := { s.hif with slots := mdel s.hif.slots x.1 } }
    else setSlot x.1 (fun sl => { sl with silent := true }) s) s

/-! ### Queues -/

/-- An SQ tail: written to the BAR, or read from the shadow buffer; EventIdx lies half the depth ahead (R66). -/
def sqTail (sq tail : Nat) (s : State) : State :=
  { s with hif := { s.hif with sqs := mupd s.hif.sqs sq (fun q => if tail < q.depth then
    { q with tail := tail, eventIdx := if s.hif.shadow then (tail + q.depth / 2) % q.depth else q.eventIdx } else q) } }

/-- A CQ head: the entries up to it are freed, and held CQEs go into them (R66, R70). -/
def cqHead (cq head : Nat) (s : State) : State :=
  drainCq cq { s with hif := { s.hif with cqs := mupd s.hif.cqs cq (fun q => if head < q.depth then
    { q with head := head, free := Nat.min (q.depth - 1) (q.free + (head + q.depth - q.head) % q.depth)
             stalled := q.stalled && head = q.head
             eventIdx := if s.hif.shadow then (head + q.depth / 2) % q.depth else q.eventIdx } else q) } }

/-- Do the host's register writes reach HIF: CC.EN = 1, the link not Insecure (R96)? -/
def hostWrites (s : State) : Bool := s.hif.ccEn && s.hif.idePhase ≠ 2

/-- The value that a BAR doorbell write makes HIF act on (R66): the queue's shadow entry where a shadow buffer is configured, which the
admin queues do not have. -/
def doorbell (s : State) (q written entry : Nat) : Nat := if s.hif.shadow ∧ q ≠ 0 then entry else written

/-- SQ_TAIL_DOORBELL (R66). -/
def execSqTailDoorbell (sq : Nat) (tail : Doorbell) (s : State) : Host.Outcome State Fault Refusal :=
  .next (if hostWrites s then sqTail sq (doorbell s sq tail.value tail.entry) s else s)

/-- CQ_HEAD_DOORBELL (R70). -/
def execCqHeadDoorbell (cq : Nat) (head : Doorbell) (s : State) : Host.Outcome State Fault Refusal :=
  .next (if hostWrites s then cqHead cq (doorbell s cq head.value head.entry) s else s)

/-- The IDs of the created queues, ascending (R66). -/
def queueIds (s : State) : List Nat :=
  ((((s.hif.sqs.map (·.1)) ++ (s.hif.cqs.map (·.1))).foldl (fun (m : AMap Unit) q => mput m q ()) []).map (·.1)).filter (· ≠ 0)

/-- SHADOW_DOORBELL_SWEEP (R66): the entries of every created queue in ascending ID; the host has moved those that the lists name, any other
entry reads as it did last. -/
def execShadowDoorbellSweep (sqTails cqHeads : List (Nat × Nat)) (s : State) : Host.Outcome State Fault Refusal :=
  .next (if s.hif.shadow && hostWrites s then
    forAll (queueIds s) (fun q s =>
      let s := match mget s.hif.sqs q with
        | some x => sqTail q ((mget sqTails q).getD x.tail) s
        | none => s
      match mget s.hif.cqs q with
      | some x => cqHead q ((mget cqHeads q).getD x.head) s
      | none => s) s
  else s)

/-- HIF_CQ_STALL (R70): once per stall of a CQ that has stayed full. -/
def execHifCqStall (cq : Nat) (s : State) : Host.Outcome State Fault Refusal :=
  .next (match mget s.hif.cqs cq with
    | none => s
    | some q =>
      if q.free = 0 && !q.stalled then
        bump HIF_CQ_STALL_CNT (raise Ev.HIF_CQ_STALL (le 2 cq)
          { s with hif := { s.hif with cqs := mupd s.hif.cqs cq (fun q => { q with stalled := true }) } })
      else s)

/-- CREATE_IO_SQ (R65). -/
def execCreateIoSq (cid qid depth cq : Nat) (contiguous : Bool) (s : State) : Host.Outcome State Fault Refusal :=
  .next (adminCmd false cid (fun s =>
    if qid = 0 ∨ 32768 < qid ∨ mhas s.hif.sqs qid then adminErr cid 1 1 s
    else if depth < 2 ∨ 65536 < depth then adminErr cid 1 2 s
    else if !contiguous then adminErr cid 0 2 s
    else if cq = 0 ∨ !mhas s.hif.cqs cq then adminErr cid 1 0 s
    else adminOk cid { s with hif := { s.hif with sqs := mput s.hif.sqs qid { depth := depth, cq := cq } } }) s)

/-- DELETE_IO_SQ (R75): its commands end as under R81, and no command waits for them. -/
def execDeleteIoSq (cid qid : Nat) (s : State) : Host.Outcome State Fault Refusal :=
  .next (adminCmd false cid (fun s =>
    if qid = 0 ∨ !mhas s.hif.sqs qid then adminErr cid 1 1 s
    else
      let s := dropSqs (· = qid) s
      adminOk cid { s with hif := { s.hif with sqs := mdel s.hif.sqs qid } }) s)

/-- CREATE_IO_CQ (R65). -/
def execCreateIoCq (cid qid depth vector : Nat) (contiguous : Bool) (s : State) : Host.Outcome State Fault Refusal :=
  .next (adminCmd false cid (fun s =>
    if qid = 0 ∨ 32768 < qid ∨ mhas s.hif.cqs qid then adminErr cid 1 1 s
    else if depth < 2 ∨ 65536 < depth then adminErr cid 1 2 s
    else if !contiguous then adminErr cid 0 2 s
    else if 2048 ≤ vector then adminErr cid 1 8 s
    else adminOk cid { s with hif := { s.hif with cqs := mput s.hif.cqs qid { depth := depth, vector := vector, free := depth - 1 } } }) s)

/-- DELETE_IO_CQ (R65): refused while an SQ uses it. -/
def execDeleteIoCq (cid qid : Nat) (s : State) : Host.Outcome State Fault Refusal :=
  .next (adminCmd false cid (fun s =>
    if qid = 0 ∨ !mhas s.hif.cqs qid then adminErr cid 1 1 s
    else if s.hif.sqs.any (fun p => p.2.cq = qid) then adminErr cid 1 0x0C s
    else adminOk cid { s with hif := { s.hif with cqs := mdel s.hif.cqs qid } }) s)

end Sys2Proof.Machine
end

