-- ==== Sys2Proof/Machine/Pcie.lean ====
section
/-! DEFINITION. What the host reads of the function beside its queues: PCIe configuration space (R60, R61) and the controller properties
in BAR0 (R63). No command of the opcode table reads or writes them, so they stand here as functions of the state; the places of fields
that PCI Express and NVMe define are those standards' (log entry 74). -/

namespace Sys2Proof.Machine

/-- The capability structures present in configuration space (Table 3.1); every other one is absent. -/
inductive PciCap where
  | powerManagement | msix | express | aer | secondaryExpress | dataLinkFeature | physicalLayer16 | physicalLayer32 | physicalLayer64
  | laneMargining | ltr | l1Substates | ide
  deriving DecidableEq, Repr

/-- The capability list (Table 3.1). -/
def pciCaps : List PciCap := [.powerManagement, .msix, .express, .aer, .secondaryExpress, .dataLinkFeature, .physicalLayer16,
  .physicalLayer32, .physicalLayer64, .laneMargining, .ltr, .l1Substates, .ide]

/-- Class code: NVM Express I/O controller (Table 3.1). -/
def classCode : Nat := 0x010802

/-- A memory BAR: number, bytes, 64-bit, prefetchable (Table 3.1). -/
def pciBars : List (Nat × Nat × Bool × Bool) := [(0, 512 * 1024, true, false), (4, 64 * 1024, true, false)]

/-- Entries of the MSI-X table at offset 0 of BAR4; its pending bits lie at 0x8000 (Table 3.1). -/
def msixEntries : Nat := 2048

/-- The bits of a double word of the configuration header that are fixed, or none: Configuration Request Retry Status, while the loader has
not verified the ledger firmware and HIF is not ready (R61). -/
def configRead (s : State) (off : Nat) : Option Word :=
  if s.hif.retry then none
  else if off = 0x00 then some 0x09601F3A
  else if off = 0x08 then some (toWord (classCode * 256 + 0xB0))
  else if off = 0x10 ∨ off = 0x20 then some 4
  else some 0

/-- CAP (R63): MQES, CQR, AMS, TO, DSTRD, NSSRS, CSS (NVM command set), MPSMIN, MPSMAX. -/
def capProperty : Nat :=
  0xFFFF + 1 * 2 ^ 16 + 0 * 2 ^ 17 + 40 * 2 ^ 24 + 0 * 2 ^ 32 + 0 * 2 ^ 36 + 1 * 2 ^ 37 + 0 * 2 ^ 48 + 4 * 2 ^ 52

/-- VER (R63), which differs in the NM-720 profile. -/
def verProperty (s : State) : Nat := if legacy s then 0x00010400 else 0x00020000

/-- CSTS: RDY, CFS, SHST, PP (R81-R83, Table 12.12). -/
def cstsProperty (s : State) : Nat := b2n s.hif.rdy + 2 * b2n s.hif.cfs + 4 * s.hif.shst + 32 * b2n s.hif.pp

/-- The pending bit of an MSI-X vector (Table 3.1). -/
def pbaBit (s : State) (v : Nat) : Bool := v < msixEntries && s.hif.pba.contains v

end Sys2Proof.Machine
end

