-- ==== Sys2Proof/Machine/HostCtl.lean ====
section
/-! DEFINITION. HIF: the link, controller resets (R61, R81), enabling (R363), shutdown (R82), link encryption (R95, R96). -/

namespace Sys2Proof.Machine

/-- The flash reads of a self-test are given up with it. -/
def dropTestReads (s : State) : State :=
  forAll (s.flc.reads.filter (fun r => match r.2.use with | .selfTest _ => true | _ => false)) (fun r s => dropRead r.1 s) s

/-- End the device self-test with a result and a failing segment: log page 0x06 keeps 20 results. -/
def selfTestOver (t : SelfTest) (result seg : Nat) (s : State) : State :=
  let s := dropTestReads s
  { s with hif := { s.hif with
      selfTest := none, selfResults := ((result, if t.extended then 2 else 1, seg) :: s.hif.selfResults).take 20 } }

/-- Abort the device self-test with a result (R88). -/
def abortSelfTest (result : Nat) (s : State) : State :=
  match s.hif.selfTest with
  | none => s
  | some t => raise Ev.HIF_SELFTEST_ABORTED [toByte result] (selfTestOver t result 0 s)

/-- Was a descriptor sent by a vendor admin command? -/
def isAdmin : Src → Bool
  | .admin _ => true
  | _ => false

/-- Drop every queued admin command (R81): none of them posts a completion; what has begun runs on. -/
def dropAdmin (s : State) : State :=
  { s with
    hif := { s.hif with aers := [], events := [], masked := [], adminHeld := [], formatQuiet := s.hif.format.isSome }
    sys := { s.sys with hifRings := [], hifFormed := [], taken := s.sys.taken.filter (fun d => !isAdmin d.src) }
    sec := { s.sec with spdmWait := none }
    cst := { s.cst with
      buffer := [], downloads := [], waiting := s.cst.waiting.filter (fun c => c.src = .os)
      commit := s.cst.commit.map (fun c => if c.src = .os then c else { c with src := .dropped }) } }

/-- The end of a controller reset (R81): queues and shadow buffer go, HIF_CTRL_RESET carries the commands carried to their end. -/
def resetDone (s : State) : State :=
  let s := raise Ev.HIF_CTRL_RESET (le 4 s.hif.carried) s
  { s with hif := { s.hif with
    resetting := false, rdy := false, shn := 0, shst := 0, shutGen := 0, carried := 0, shadow := false, rr := (0, 0)
    sqs := [], cqs := [], features := [], pp := false, msix := [], pba := [], d3hot := false } }

/-- The start of a controller reset (R81): fetching stops, Reads and queued admin commands are dropped, started writes run on. With
CC.EN = 0 and CSTS.RDY = 0 no write can run, and the reset ends at once. -/
def ctrlReset (s : State) : State :=
  if s.hif.resetting then { s with hif := { s.hif with ccEn := false } }
  else
    let idle := !s.hif.ccEn && !s.hif.rdy && (hostSlots s).isEmpty
    let s := dropAdmin (dropSqs (fun _ => true) (abortSelfTest 2 s))
    let s := { s with hif := { s.hif with
      ccEn := false, resetting := true, carried := (hostSlots s).length
      sqs := s.hif.sqs.map (fun p => (p.1, { p.2 with look := none })) } }
    if idle then resetDone s else s

/-- PCIE_PERST (R61): a fundamental reset. -/
def execPciePerst (s : State) : Host.Outcome State Fault Refusal :=
  .next (ctrlReset { s with hif := { s.hif with linkUp := false, linkWidth := 0, linkSpeed := 0, linkFlit := false } })

/-- HOT_RESET (R61). -/
def execHotReset (s : State) : Host.Outcome State Fault Refusal :=
  .next (let t : State := { s with hif := { s.hif with linkUp := false, linkWidth := 0, linkSpeed := 0, linkFlit := false } }
         ctrlReset t)

/-- LINK_DOWN (R61, Table 3.18): the link leaves L0 and L1 unrequested. -/
def execLinkDown (s : State) : Host.Outcome State Fault Refusal :=
  .next (if !s.hif.linkUp then s
  else ctrlReset (bump HIF_LINK_DOWN_CNT (raise Ev.HIF_LINK_DOWN []
    { s with hif := { s.hif with linkUp := false, linkWidth := 0, linkSpeed := 0, linkFlit := false } })))

/-- FUNCTION_LEVEL_RESET (R61). -/
def execFunctionLevelReset (s : State) : Host.Outcome State Fault Refusal := .next (ctrlReset s)

/-- CONTROLLER_RESET (R81): CC.EN goes from 1 to 0. -/
def execControllerReset (s : State) : Host.Outcome State Fault Refusal := .next (if hostWrites s then ctrlReset s else s)

/-- CONTROLLER_RESET_DONE (R81): the started writes have ended. -/
def execControllerResetDone (s : State) : Host.Outcome State Fault Refusal :=
  .next (if !s.hif.resetting ∨ !(hostSlots s).isEmpty then s else resetDone s)

/-- CC_EN_SET (R363, R383): the host sets CC.EN; CSTS.RDY follows once the unit is ready. -/
def execCcEnSet (s : State) : Host.Outcome State Fault Refusal :=
  .next (if s.hif.ccEn ∨ s.hif.resetting ∨ s.hif.retry ∨ s.hif.idePhase = 2 then s
  else { s with hif := { s.hif with
    ccEn := true, rdy := s.hif.ready, cqs := mput s.hif.cqs 0 { depth := 4096, vector := 0, free := 4095 }
    sqs := mput s.hif.sqs 0 { depth := 4096, cq := 0 } } })

/-- LINK_UP: the link trains to a width and a rate of Table 3.1. -/
def execLinkUp (width speed : Nat) (flit : Bool) (s : State) : Host.Outcome State Fault Refusal :=
  .next (if [1, 2, 4, 8, 16].contains width ∧ 3 ≤ speed ∧ speed ≤ 6 then
    { s with hif := { s.hif with linkUp := true, linkWidth := width, linkSpeed := speed, linkFlit := flit || speed = 6 } }
  else s)

/-! ### Shutdown -/

/-- CC_SHUTDOWN (R82): fetching stops; CSTS.SHST = 0b01 until the shutdown ends. -/
def execCcShutdown (shn : Nat) (s : State) : Host.Outcome State Fault Refusal :=
  .next (if (shn = 1 ∨ shn = 2) ∧ hostWrites s ∧ s.hif.shn = 0 then { s with hif := { s.hif with shn := shn, shst := 1 } } else s)

/-- A shutdown's checkpoint (R82): with every started command complete, every record applied and no checkpoint running, MAP starts one that
is marked clean. -/
def shutdownStep (s : State) : State :=
  if s.hif.shst ≠ 1 ∨ s.hif.shutGen ≠ 0 ∨ s.hif.slots.any (fun p => p.2.started) ∨ !s.map.replayed ∨ s.map.running.isSome
    ∨ s.map.log.any (fun r => s.map.durable ≤ r.lsn) then s
  else
    let s := ckptBegin { s with map := { s.map with cleanMark := true } }
    { s with hif := { s.hif with shutGen := s.map.ckpt.gen + 1 } }

/-- SHUTDOWN_DONE (R82): the checkpoint marked clean is complete, and CSTS.SHST = 0b10. -/
def execShutdownDone (s : State) : Host.Outcome State Fault Refusal :=
  .next (if s.hif.shst ≠ 1 ∨ s.hif.shutGen = 0 ∨ s.map.ckpt.gen < s.hif.shutGen ∨ s.thm.mramCut then s
  else raise Ev.HIF_SHUTDOWN_DONE [] { s with hif := { s.hif with shst := 2 } })

/-! ### Link encryption -/

/-- IDE_INTEGRITY_FAIL (R96): the stream enters Insecure. -/
def execIdeIntegrityFail (s : State) : Host.Outcome State Fault Refusal :=
  .next (if s.hif.idePhase = 1 then
    raise Ev.HIF_IDE_INTEGRITY [] (bump HIF_IDE_ERR_CNT { s with hif := { s.hif with idePhase := 2 } })
  else s)

/-- A store to HIF_IDE_CFG (R95, R96): IDE_EN = 1 without a key in the active set, or without new keys after Insecure, leaves
IDE_EN at 0. `idePhase`: 0 off, 1 Secure, 2 Insecure, 3 off with new keys needed. -/
def storeIde (v : Word) (s : State) : State :=
  let s := storeFile HIF_IDE_CFG v s
  let r := rg s HIF_IDE_CFG
  let set := bits r 2 2
  if bitAt r 0 then
    if s.hif.idePhase = 2 then s
    else if s.hif.idePhase = 3 ∨ !s.hif.ideRx.contains set ∨ !s.hif.ideTx.contains set then
      raise Ev.HIF_IDE_NO_KEY [] (setReg HIF_IDE_CFG (toWord (putBits r 0 0 0))
        { s with hif := { s.hif with idePhase := if s.hif.idePhase = 3 then 3 else 0 } })
    else { s with hif := { s.hif with idePhase := 1 } }
  else { s with hif := { s.hif with idePhase := if s.hif.idePhase = 2 ∨ s.hif.idePhase = 3 then 3 else 0 } }

/-- IDE_ENABLE (R96): HIF_IDE_CFG with IDE_EN = 1. -/
def execIdeEnable (v : Word) (s : State) : Host.Outcome State Fault Refusal :=
  .next (storeIde (toWord (putBits v.toNat 0 0 1)) s)

/-- IDE_DISABLE (R96): HIF_IDE_CFG with IDE_EN = 0. -/
def execIdeDisable (v : Word) (s : State) : Host.Outcome State Fault Refusal :=
  .next (storeIde (toWord (putBits v.toNat 0 0 0)) s)

/-- A store to HIF_IDE_KEY_CTL (Table 3.17): LOAD puts the staged key and IV into a set and clears them (R95). -/
def storeIdeKey (v : Word) (s : State) : State :=
  let s := storeWoSeen HIF_IDE_KEY_CTL (256 * maskOf 2 (fun n => s.hif.ideRx.contains n)) v s
  let set := bits v.toNat 3 3
  if !bitAt v.toNat 0 then s
  else
    let tx := bitAt v.toNat 4
    { s with hif := { s.hif with
      ideRx := if tx then s.hif.ideRx else addTo s.hif.ideRx set
      ideTx := if tx then addTo s.hif.ideTx set else s.hif.ideTx
      ideKeys := mput s.hif.ideKeys (set + 2 * b2n tx) s.hif.ideStaged
      idePhase := if s.hif.idePhase = 3 then 0 else s.hif.idePhase
      ideStaged := [] } }

/-- IDE_KEY_LOAD (R95): HIF_IDE_KEY_CTL with LOAD = 1. -/
def execIdeKeyLoad (v : Word) (s : State) : Host.Outcome State Fault Refusal :=
  .next (storeIdeKey (toWord (putBits v.toNat 0 0 1)) s)

end Sys2Proof.Machine
end

