-- ==== Sys2Proof/Machine/Streams.lean ====
section
/-! DEFINITION. STREAM_MANAGE (R101-R104, R111-R113, R118, R123-R125) of 04_capture_streams.md. -/

namespace Sys2Proof.Machine

/-- STATE codes of Table 4.8. -/
def StreamSt.code : StreamSt → Nat
  | .closed => 0
  | .open_ => 1
  | .admitted => 2
  | .releasing => 3

/-- The completion body: STATE. -/
def stmBody (s : State) (i : Nat) : List Byte := [toByte (streamAt s i).st.code]

/-- Complete a STREAM_MANAGE request. -/
def stmDone (src : Src) (tag i status : Nat) (s : State) : State := complete src tag status (stmBody s i) [] s

/-- May a request name a stream: 1–4,095 (R101)? -/
def streamIdOk (i : Nat) : Bool := 1 ≤ i && i ≤ 4095

/-- A namespace's streams are fleet-protected, but for KEEP_STREAM (R291). -/
def fleetStream (s : State) (i nsid : Nat) : Bool := s.flt.slice = some nsid && s.flt.keepStream ≠ i

/-- Open a Closed stream (Table 4.5): its counters are cleared (R125). -/
def openStream (i nsid : Nat) (s : State) : State :=
  setStream i (fun _ => { st := .open_, nsid := nsid, fleet := fleetStream s i nsid }) s

/-- Latch a request; an older one is replaced with STM_PENDING_REPLACED (R104). -/
def latchStream (src : Src) (tag i : Nat) (r : StreamReq) (s : State) : State :=
  let s := if (streamAt s i).latch.isSome then raise Ev.STM_PENDING_REPLACED (le 2 i) s else s
  complete src tag 0 [4] [] (setStream i (fun t => { t with latch := some r }) s)

/-- A request ends a reservation's intake: the Writes handed to STM before it are carried in the stream's W slots, and its runs are given
up (R103, R139). -/
def markHanded (i : Nat) (s : State) : State :=
  let s := { s with hif := { s.hif with slots := s.hif.slots.map (fun p =>
    if p.2.cmd.kind = .write ∧ p.2.started ∧ p.2.stream = i then (p.1, { p.2 with reserved := true }) else p) } }
  forAll ((s.map.runs.filter (fun r => r.2.stream = i)).map (·.1)) giveUpRun s

/-- Admit a stream (R111): its completion, if any, waits for the table that holds its W slots (R113). -/
def admitStream (who : Option (Src × Nat)) (i rate minRate burst : Nat) (s : State) : State :=
  let s := setStream i (fun t => { t with
    st := .admitted, reserved := true, toClosed := false, rate := rate, minRate := minRate, burst := burst
    effRate := rate * s.stm.fNum / Nat.max 1 s.stm.fDen, stage := burst + holdMargin s rate, bands := bandsFor rate }) s
  let w : Src × Nat := who.getD (.admin 65536, 0)
  rescale (wantTable { s with stm := { s.stm with waitTable := s.stm.waitTable ++ [(w.1, w.2, i)] } })

/-- Decide a RESERVE of an Open or Admitted stream (R111, R112): an NM status, 0 where it is admitted. -/
def reserveCheck (s : State) (i rate burst : Nat) : Nat :=
  let t := streamAt s i
  if t.st = .admitted ∧ rate ≤ t.rate ∧ burst ≤ t.burst then 0 else admitCheck s i rate burst

/-- The parameters of a RESERVE lie in Table 4.7. -/
def reserveRange (rate minRate burst : Nat) : Bool :=
  1 ≤ rate && rate ≤ 80000 && minRate ≤ rate && 16 ≤ burst && burst ≤ 24576

/-- Refuse a RESERVE. -/
def refuseReserve (src : Src) (tag i nm : Nat) (s : State) : State := stmDone src tag i nm (bump STM_ADMIT_REFUSED_CNT s)

/-- OPEN (Table 4.2). -/
def execOpen (src : Src) (tag stream nsid : Nat) (s : State) : Host.Outcome State Fault Refusal :=
  .next (descOp src tag 0x0301 [(8, 2, stream), (12, 4, nsid)] (fun s =>
  if !streamIdOk stream then stmDone src tag stream Ev.STM_STREAM_ID_INVALID s
  else if !mhas s.map.dir nsid then stmDone src tag stream Ev.STM_PARAM_RANGE s
  else
    let t := streamAt s stream
    match t.st with
    | .closed => stmDone src tag stream 0 (openStream stream nsid s)
    | .releasing => if t.toClosed then latchStream src tag stream (.open_ nsid) s else stmDone src tag stream Ev.STM_STATE_CONFLICT s
    | _ => stmDone src tag stream Ev.STM_STATE_CONFLICT s) s)

/-- RESERVE (R111-R113, Table 4.2). -/
def execReserve (src : Src) (tag stream rate minRate burst : Nat) (s : State) : Host.Outcome State Fault Refusal :=
  .next (descOp src tag 0x0302 [(8, 2, stream), (12, 4, rate), (16, 4, minRate), (20, 4, burst)] (fun s =>
  if !streamIdOk stream then refuseReserve src tag stream Ev.STM_STREAM_ID_INVALID s
  else if !reserveRange rate minRate burst then refuseReserve src tag stream Ev.STM_PARAM_RANGE s
  else
    let t := streamAt s stream
    match t.st with
    | .closed => refuseReserve src tag stream Ev.STM_STREAM_NOT_OPEN s
    | .releasing =>
      if t.toClosed then refuseReserve src tag stream Ev.STM_STATE_CONFLICT s
      else latchStream src tag stream (.reserve rate minRate burst) s
    | _ =>
      let nm := reserveCheck s stream rate burst
      if nm = 0 then admitStream (some (src, tag)) stream rate minRate burst s else refuseReserve src tag stream nm s) s)

/-- RELEASE (R103): Releasing toward Open; the reservation holds until it ends. -/
def execRelease (src : Src) (tag stream : Nat) (s : State) : Host.Outcome State Fault Refusal :=
  .next (descOp src tag 0x0303 [(8, 2, stream)] (fun s =>
  if !streamIdOk stream then stmDone src tag stream Ev.STM_STREAM_ID_INVALID s
  else if (streamAt s stream).st = .admitted then
    stmDone src tag stream 0 (markHanded stream
      (setStream stream (fun t => { t with st := .releasing, toClosed := false, reserved := true }) s))
  else stmDone src tag stream Ev.STM_STATE_CONFLICT s) s)

/-- Close a stream (R103, Table 4.2): none for a state in which CLOSE conflicts. -/
def closeStream (i : Nat) (s : State) : Option State :=
  let t := streamAt s i
  match t.st with
  | .open_ => some (setStream i (fun t => { t with st := .releasing, toClosed := true, reserved := false }) s)
  | .admitted => some (markHanded i (setStream i (fun t => { t with st := .releasing, toClosed := true, reserved := true }) s))
  | .releasing =>
    if t.toClosed then none
    else
      let s := if t.latch.isSome then raise Ev.STM_PENDING_REPLACED (le 2 i) s else s
      some (setStream i (fun t => { t with toClosed := true, latch := none }) s)
  | .closed => none

/-- CLOSE (R103). -/
def execClose (src : Src) (tag stream : Nat) (s : State) : Host.Outcome State Fault Refusal :=
  .next (descOp src tag 0x0304 [(8, 2, stream)] (fun s =>
  if !streamIdOk stream then stmDone src tag stream Ev.STM_STREAM_ID_INVALID s
  else match closeStream stream s with
    | some s => stmDone src tag stream 0 s
    | none => stmDone src tag stream Ev.STM_STATE_CONFLICT s) s)

/-- Deleting, formatting or sanitizing a namespace closes every stream bound to it as if by CLOSE (R104). -/
def closeBound (nsid : Nat) (s : State) : State :=
  forAll ((s.stm.streams.filter (fun p => p.1 ≠ 0 && p.2.nsid = nsid && p.2.st ≠ .closed)).map (·.1))
    (fun i s => (closeStream i s).getD s) s

/-- Does an accepted Write of a Releasing stream still run (R103)? Those handed over before the request, where it goes Open. -/
def releaseBusy (s : State) (i : Nat) : Bool :=
  let t := streamAt s i
  s.hif.slots.any (fun p => p.2.cmd.kind = .write && p.2.started && p.2.stream = i && (t.toClosed || p.2.reserved))

/-- Close early the dedicated bands of streams that are Releasing, once every Write of the reservation has a place (R103). -/
def releaseStep (s : State) : State :=
  forAll (s.stm.streams.filter (fun p => p.2.st = .releasing && p.2.reserved)) (fun p s =>
    if releaseWaits s p.1 then s
    else forAll ((opensOf s 1 p.1).filter (fun b => (openAt s b).closeAt.isNone)) closeEarly s) s

/-- Carry out a latched request and raise STM_PENDING_DONE with its outcome (R104). -/
def carryLatch (i : Nat) (r : StreamReq) (s : State) : State :=
  match r with
  | .open_ nsid =>
    if mhas s.map.dir nsid then raise Ev.STM_PENDING_DONE (le 2 i ++ le 2 0) (openStream i nsid s)
    else raise Ev.STM_PENDING_DONE (le 2 i ++ le 2 Ev.STM_PARAM_RANGE) s
  | .reserve rate minRate burst =>
    let nm := reserveCheck s i rate burst
    let s := if nm = 0 then admitStream none i rate minRate burst s else bump STM_ADMIT_REFUSED_CNT s
    raise Ev.STM_PENDING_DONE (le 2 i ++ le 2 nm) s

/-- RELEASING_END (R103, R104): the stream enters TARGET, its RATE leaves every sum, a latched request is carried out. -/
def execReleasingEnd (stream : Nat) (s : State) : Host.Outcome State Fault Refusal :=
  let t := streamAt s stream
  let bandOpen := s.bnd.opens.any (fun p => (bandAt s p.1).kind = 1 && (bandAt s p.1).stream = stream)
  .next (if t.st ≠ .releasing ∨ releaseBusy s stream ∨ bandOpen ∨ !s.cst.mode.runs then s
  else
    let bare := fun (t : Stream) => { t with st := if t.toClosed then .closed else .open_, toClosed := false, reserved := false
                                             wOn := false, latch := none, rate := 0, minRate := 0, burst := 0, effRate := 0, stage := 0
                                             bands := 0, scaled := false }
    let s := setStream stream bare s
    let s := rescale (if t.reserved then wantTable s else s)
    match t.latch with
    | some r => carryLatch stream r s
    | none => s)

/-! ### Markers -/

/-- Does a request find its stream closed (Table 4.14)? -/
def streamShut (s : State) (i : Nat) : Bool :=
  let t := streamAt s i
  t.st = .closed || (t.st = .releasing && t.toClosed)

/-- A power of two from 16 to 65,536. -/
def ringEntriesOk (n : Nat) : Bool := (List.range 13).any (fun i => n = 2 ^ (i + 4))

/-- SET_MARKERS (R118, Table 4.6): MODE 0 stops the markers; a new ring takes effect at the next frame. -/
def execSetMarkers (src : Src) (tag stream mode base entries prodAddr consAddr : Nat) (s : State) : Host.Outcome State Fault Refusal :=
  .next (descOp src tag 0x0305 ([(8, 2, stream), (12, 1, mode)] ++ if mode = 0 then [] else
    [(16, 8, base), (24, 4, entries), (32, 8, prodAddr), (40, 8, consAddr)]) (fun s =>
  let bad := base % 64 ≠ 0 ∨ !ringEntriesOk entries ∨ prodAddr % 8 ≠ 0 ∨ consAddr % 8 ≠ 0 ∨ osTop s < base + 32 * entries
    ∨ osTop s < prodAddr + 8 ∨ osTop s < consAddr + 8
  if !streamIdOk stream then stmDone src tag stream Ev.STM_STREAM_ID_INVALID s
  else if streamShut s stream then stmDone src tag stream Ev.STM_STREAM_NOT_OPEN s
  else if 4 ≤ mode then stmDone src tag stream Ev.STM_PARAM_RANGE s
  else if mode = 0 then
    stmDone src tag stream 0 (setStream stream (fun t => { t with mkMode := 0, mkFrame := none, mkNew := none }) s)
  else if bad then stmDone src tag stream Ev.STM_PARAM_RANGE s
  else stmDone src tag stream 0 (setStream stream (fun t => { t with mkNew := some (mode, base, entries, prodAddr, consAddr) }) s)) s)

/-- The marker mode that the next frame finds. -/
def nextMode (t : Stream) : Nat := match t.mkNew with | some (m, _) => m | none => t.mkMode

/-- MARK (R118). -/
def execMark (src : Src) (tag stream frame : Nat) (s : State) : Host.Outcome State Fault Refusal :=
  .next (descOp src tag 0x0306 [(8, 2, stream), (16, 8, frame)] (fun s =>
  if !streamIdOk stream then stmDone src tag stream Ev.STM_STREAM_ID_INVALID s
  else if streamShut s stream then stmDone src tag stream Ev.STM_STREAM_NOT_OPEN s
  else if !markerMode true (nextMode (streamAt s stream)) then stmDone src tag stream Ev.STM_STATE_CONFLICT s
  else stmDone src tag stream 0 (openFrame stream frame true s)) s)

/-- An accepted FSYNC edge opens a frame of every stream whose mode takes FSYNC (R118). -/
def fsyncFrames (frame : Nat) (s : State) : State :=
  forAll ((s.stm.streams.filter (fun p => p.1 ≠ 0 && markerMode false (nextMode p.2))).map (·.1)) (fun i => openFrame i frame false) s

/-! ### Queries -/

/-- The 128-byte statistics entry of a stream (Table 4.9). -/
def streamEntry (s : State) (i : Nat) : List Byte :=
  let t := streamAt s i
  let sat := fun (n v : Nat) => le n (Nat.min (256 ^ n - 1) v)
  let flags := b2n t.fleet * 8 + b2n (t.mkMode ≠ 0) * 4 + b2n t.scaled * 2 + b2n t.latch.isSome
  layout 128 [(0, le 2 i), (2, [toByte t.st.code, toByte flags]), (4, le 4 (if i = 0 then 0xFFFFFFFF else t.nsid)),
    (8, le 4 t.rate), (12, le 4 t.effRate), (16, le 4 t.minRate), (20, le 4 t.burst), (24, le 8 s.tck.tick), (32, sat 8 t.bytes),
    (40, sat 8 t.commands), (48, sat 8 t.wGranted), (56, sat 8 t.wUnused), (64, sat 8 t.bBacklog), (72, sat 4 t.ties), (76, sat 4 t.waits),
    (80, sat 4 t.peak), (84, sat 4 t.heldTicks), (88, sat 4 t.scaleEvents), (92, sat 4 t.markers), (96, sat 4 t.markersDropped),
    (100, le 2 t.bands)]

/-- STREAM_QUERY (R124). -/
def execStreamQuery (src : Src) (tag stream : Nat) (s : State) : Host.Outcome State Fault Refusal :=
  .next (descOp src tag 0x0307 [(8, 2, stream)] (fun s =>
  if 4096 ≤ stream then stmDone src tag stream Ev.STM_STREAM_ID_INVALID s
  else
    let t := streamAt s stream
    complete src tag 0 (stmBody s stream ++ [0, 0, 0] ++ le 4 t.effRate ++ le 4 (cdiv (streamStaged s stream) 1048576))
      (streamEntry s stream) s) s)

/-- f × 65,536 (STM_SCALE). -/
def scale65536 (s : State) : Nat := 65536 * s.stm.fNum / Nat.max 1 s.stm.fDen

/-- QUERY_CEILING (Table 4.8). -/
def execQueryCeiling (src : Src) (tag : Nat) (s : State) : Host.Outcome State Fault Refusal :=
  .next (descOp src tag 0x0308 [] (fun s =>
  complete src tag 0 (le 4 (cAdm s) ++ le 4 (cKeep s) ++ le 4 (cFleet s) ++ le 4 (rateSum (holders s)) ++ le 4 (scale65536 s)) [] s) s)

end Sys2Proof.Machine
end

