-- ==== Sys2Proof/Machine/Pages.lean ====
section
/-! DEFINITION. Log pages (Tables 3.8, 8.16, 9.9, 14.3, 14.4, R379, R420, R425) and Identify data (Table 3.3) as bytes. Offsets of
fields that the NVMe specification lays out are the NVMe specification's (log entry 23); what it leaves to the device and the
manual does not give is a free value. -/

namespace Sys2Proof.Machine

/-! ### What the pages show -/

/-- The fewest spares left on any target set of an Active channel of a port (BND_Mm_SPARES_MIN). -/
def sparesMin (s : State) (m : Nat) : Nat :=
  let l := (List.range 4).flatMap (fun k => (List.range s.bnd.nsets).map (fun set => sparesOf s (4 * m + k) set))
  match l with
  | [] => 0
  | x :: xs => xs.foldl Nat.min x

/-- Ports in state Active. -/
def activePorts (s : State) : List Nat := (List.range 9).filter (fun m => (portAt s m).st = .active)

/-- Available Spare (Table 14.3). -/
def availSpare (s : State) : Nat :=
  match (activePorts s).map (sparesMin s) with
  | [] => 100
  | x :: xs => Nat.min 100 (100 * xs.foldl Nat.min x / 64)

/-- Temperature of a reported sensor in °C: 0 composite, then Temperature Sensors 1-7 (Table 14.3). Sensors 12 and 13 are HBM stacks,
14 and 15 the MRAM dies. -/
def tempOf (s : State) (sel : Nat) : Int :=
  let at_ := fun (i : Nat) => ((s.thm.sensors.getD i {}).last.headD 0) / 8
  if sel ≤ 1 then tNow s
  else if sel ≤ 5 then at_ (sel + 10)
  else if sel = 6 then match hottestDie s (List.range 36) with | some (_, t) => t | none => 0
  else match ((List.range 9).filter (fun m => (portAt s m).powered)).map (fun m => (portAt s m).temp) with
    | t :: ts => ts.foldl max t
    | [] => 0

/-- Is a threshold of feature 0x04 crossed (R64)? Thresholds are in kelvin under key 0x400 + 16 × type + sensor. -/
def threshCrossed (s : State) : Bool :=
  (List.range 8).any (fun i =>
    let k : Int := tempOf s i + 273
    (match mget s.hif.features (0x400 + i) with | some v => decide ((v : Int) ≤ k) | none => false)
      || (match mget s.hif.features (0x410 + i) with | some v => decide (k ≤ (v : Int)) | none => false))

/-- Is one MRAM die alone in use (MEM_STATUS.MRAM_SINGLE)? -/
def mramSingle (s : State) : Bool := s.memc.mramA != s.memc.mramB

/-- Ledger pairs that run Single, as a mask. -/
def singlePairs (s : State) : Nat := maskOf 10 (fun n => (pairAt s n).st = .single)

/-- Critical Warning (Table 14.3). -/
def critWarning (s : State) : Nat :=
  b2n (availSpare s < fld s LNT_CFG 15 8) + 2 * b2n (threshCrossed s || 0 < s.thm.step)
    + 4 * b2n (s.cst.mode = .degraded || !(lostSegs s).isEmpty || (liveLanes s).length ≤ 4 || mramSingle s || singlePairs s ≠ 0
        || s.bnd.warned.contains Ev.BND_WEAR_LIMIT)

/-- Raise the SMART event for critical warning bits that have set (R93); the bits last reported are kept under key 0x10000. -/
def critCheck (s : State) : State :=
  let w := critWarning s
  let old := mgetD s.hif.features 0x10000 0
  let s := if w = old then s else { s with hif := { s.hif with features := mput s.hif.features 0x10000 w } }
  let rose := fun (i : Nat) => bitAt w i && !bitAt old i
  let s := if rose 0 then asyncEvent 1 2 2 s else s
  let s := if rose 1 then asyncEvent 1 1 2 s else s
  if rose 2 then asyncEvent 1 0 2 s else s

/-- A SMART counter. -/
def smartAt (s : State) (k : Nat) : Nat := mgetD s.lnt.smart k 0

/-- Log page 0x02 (Table 14.3). -/
def smartPage (s : State) : List Byte :=
  let du := fun (k : Nat) => cdiv (smartAt s k) 512000
  let mins := fun (k : Nat) => smartAt s k / 60
  let k2 := fun (i : Nat) => le 2 (signed 16 (tempOf s i + 273))
  layout 512 [(0, [toByte (critWarning s)]), (1, k2 0), (3, [toByte (availSpare s), toByte (fld s LNT_CFG 15 8),
      toByte (Nat.min 255 (Nat.max (wearPct s false) (wearPct s true)))]),
    (32, le 16 (du 1)), (48, le 16 (du 2)), (64, le 16 (smartAt s 3)), (80, le 16 (smartAt s 4)), (96, le 16 (smartAt s 5)),
    (112, le 16 (smartAt s 6)), (128, le 16 (smartAt s 7 / 3600)), (144, le 16 (smartAt s 8)), (160, le 16 (smartAt s 9)),
    (176, le 16 (smartAt s 13)), (192, le 4 (mins 10)), (196, le 4 (mins 11)), (200, k2 1), (202, k2 2), (204, k2 3), (206, k2 4),
    (208, k2 5), (210, k2 6), (212, k2 7), (216, le 4 (smartAt s 14)), (220, le 4 (smartAt s 16)), (224, le 4 (smartAt s 15)),
    (228, le 4 (smartAt s 17))]

/-- Hours of a history's bins (R424). -/
def histBytes (h : AMap Nat) : List Byte := (List.range 32).flatMap (fun i => le 4 (mgetD h i 0 / 3600))

/-- Log page 0xC1 (Tables 14.4, R425). -/
def healthPage (s : State) : List Byte :=
  let flags := 32 * b2n s.lnt.lastClean + 16 * b2n (mramSingle s) + 8 * b2n ((liveLanes s).length ≤ 4) + 4 * b2n s.stm.fog
    + 2 * b2n (s.cst.mode = .degraded) + b2n s.lnt.frozen
  let head := layout 128 [(0, le 8 s.tck.tick), (8, le 4 s.lnt.newest), (12, le 4 s.lnt.frozenSeq), (16, le 4 (rg s LNT_WARN)),
    (20, [toByte flags, toByte (liveLanes s).length]), (22, le 2 (singlePairs s)), (24, le 4 (lostSegs s).length),
    (28, le 4 (signed 32 ((smartAt s 20 : Int) - 300))), (32, le 8 (smartAt s 21)), (40, le 8 (smartAt s 22)), (48, le 8 (smartAt s 23)),
    (56, le 8 (smartAt s 24)), (64, le 8 (smartAt s 25)), (72, le 8 (smartAt s 26)), (80, le 2 (smartAt s 27)),
    (82, le 2 (wearMean s false)), (84, le 2 (wearOf s false).2), (86, le 2 (wearMean s true)),
    (88, (List.range 9).map (fun m => toByte (Nat.min 255 (sparesMin s m))))]
  if legacy s then padTo 512 (head ++ histBytes s.lnt.ctrlHist)
  else padTo 4096 (head ++ histBytes s.lnt.ctrlHist ++ histBytes s.lnt.flashHist)

/-- A slot of log page 0xC0 in the NM-720 layout (R425). -/
def legacySlot (s : State) (i : Nat) : List Byte :=
  match mget s.lnt.recs i with
  | some r => le 8 r.time ++ le 2 r.status ++ padTo 22 r.detail
  | none => List.replicate 32 0

/-- Lost segments as log page 0xC3 lists them: NSID and NSSEG, ascending (R262). -/
def lostList (s : State) : List (Nat × Nat) :=
  ((lostSegs s).map (segOwner s.map.dir)).foldl (fun m o => mput m (o.1 * 2 ^ 32 + o.2) o) ([] : AMap (Nat × Nat)) |>.map (·.2)

/-- Log page 0xC3 (Tables 8.16, 8.17). -/
def memberPage (s : State) : List Byte :=
  let lost := lostList s
  let r := s.mbr.rebuild
  let left := match r with | some r => r.marked.length | none => 0
  layout 1024 ([(0, le 8 s.tck.tick),
    (8, [toByte s.mbr.geometry, toByte (2 * b2n r.isSome + b2n (degradedUnit s)),
      toByte (match r with | some r => r.position | none => 0xFF), toByte (match r with | some r => r.port | none => 0xFF)]),
    (12, le 4 left), (16, le 4 lost.length), (20, (List.range 9).map (fun p => toByte ((posPort s p).getD 0xFF)))]
    ++ (List.range 9).map (fun m => (64 + 64 * m, portEntry s m)))
    ++ lost.flatMap (fun o => le 4 o.1 ++ le 4 o.2)

/-- FSTATE codes (Table 9.11). -/
def FState.code : FState → Nat
  | .none => 0
  | .enrolled => 1
  | .forming => 2
  | .member => 3
  | .rebuilding => 4
  | .isolated => 5
  | .fenced => 6

/-- Position entry of log page 0xC4. -/
def fleetEntry (s : State) (q : Nat) : List Byte :=
  let p := peerAt s q
  let own := q = s.flt.position && s.flt.n ≠ 0
  let flags := 128 * b2n (liveAt s q) + 64 * b2n p.suspected + 32 * b2n (p.session ≠ 0) + 16 * b2n (p.activating || (own && s.flt.act.isSome))
  layout 64 [(0, le 2 (unitAt s q)), (2, [toByte flags]), (8, le 8 p.heard), (16, le 8 p.expiredTotal)]

/-- Stripes of the slice not yet rebuilt. -/
def stripesLeft (s : State) : Nat :=
  if s.flt.fstate = .rebuilding then s.flt.sliceSegs - (s.flt.rebuilt.length) else 0

/-- Log page 0xC4 (R293, Table 9.9). -/
def fleetPage (s : State) : List Byte :=
  layout 2304 ([(0, le 8 s.tck.tick), (8, le 8 s.flt.epoch), (16, le 2 (if s.flt.n = 0 then 0xFFFF else s.flt.group)),
    (18, [toByte ((s.flt.n - 1) * 8 + s.flt.m), toByte s.flt.fstate.code, toByte s.flt.position, toByte (leaderPos s)]),
    (22, le 2 (cdiv (stripesLeft s) 256)), (24, le 4 s.flt.stale.length), (28, le 4 (cFleet s))]
    ++ (List.range 32).map (fun q => (256 + 64 * q, fleetEntry s q)))
    ++ s.flt.stale.flatMap (fun x => le 4 x.1 ++ [toByte x.2.1, toByte (b2n x.2.2), 0, 0])

/-- The VERSION of a slot's image, or zero where it is Empty or Rejected (R379). -/
def slotVersion (s : State) (i : Nat) : Nat :=
  match s.cst.slots[i - 1]? with
  | some x => if x.st = .empty ∨ x.st = .rejected then 0 else match x.img with | some m => m.version | none => 0
  | none => 0

/-- Log page 0x03 (R379). -/
def slotPage (s : State) : List Byte :=
  let pend := ([2, 3].find? (fun i => match s.cst.slots[i - 1]? with | some x => x.st = .pending | none => false)).getD 0
  layout 512 ((0, [toByte (s.cst.ledgerSlot + 16 * pend)]) :: [1, 2, 3, 4, 5].map (fun i => (8 * i, le 8 (slotVersion s i))))

/-- An entry of log page 0x01 in the NVMe layout. -/
def errorEntry (n : Nat) (c : Cqe) : List Byte :=
  layout 64 [(0, le 8 n), (8, le 2 c.sq), (10, le 2 c.cid), (12, le 2 (2 * (c.sc + 256 * c.sct))), (32, le 8 c.dw0)]

/-- Log page 0x01: newest first. -/
def errorPage (s : State) : List Byte :=
  padTo 4096 (((List.range s.hif.errors.length).zip s.hif.errors).flatMap (fun x => errorEntry (smartAt s 13 - x.1) x.2))

/-- Log page 0x06: the present test and its results, newest first. -/
def selfTestPage (s : State) : List Byte :=
  let cur := match s.hif.selfTest with | some t => if t.extended then 2 else 1 | none => 0
  layout 564 ((0, [toByte cur, 0, 0, 0]) :: (List.range 20).map (fun i => (4 + 28 * i, match s.hif.selfResults[i]? with
    | some (r, ty, seg) => [toByte (16 * ty + r), toByte seg]
    | none => [toByte 0x0F])))

/-- The size of a log page (Table 3.8), or none for a page that is not supported. -/
def pageSize (s : State) (lid : Nat) : Option Nat :=
  if lid = 1 then some 4096 else if lid = 2 then some 512 else if lid = 3 then some 512 else if lid = 4 then some 4096
  else if lid = 5 then some 4096 else if lid = 6 then some 564 else if lid = 0x80 then some 512
  else if lid = 0xC0 then some (if legacy s then 524288 else 1048576)
  else if lid = 0xC1 then some (if legacy s then 512 else 4096)
  else if lid = 0xC2 then some 524288
  else if lid = 0xC3 then some (1024 + 8 * (lostList s).length)
  else if lid = 0xC4 then some (2304 + 8 * s.flt.stale.length)
  else none

/-- Log page 0x80: SPROG and SSTAT of the Sanitize Status log (NVMe); its other bytes are free. -/
def sanitizePage (s : State) : List Byte :=
  (if s.hif.sanitizeLog = 2 then (List.range 2).map (Config.nvmeByte s.freeCtr) else [0xFF, 0xFF]) ++ le 2 s.hif.sanitizeLog
    ++ (List.range 508).map (fun i => Config.nvmeByte s.freeCtr (4 + i))

/-- The opcodes that the NM-960 implements, admin and I/O (Table 3.2). -/
def adminOps : List Nat := [0, 1, 2, 4, 5, 6, 8, 9, 0x0A, 0x0C, 0x0D, 0x10, 0x11, 0x14, 0x15, 0x19, 0x1A, 0x7C, 0x80, 0x81, 0x82, 0x84,
  0xC1, 0xC2, 0xC3, 0xC4]

def ioOps : List Nat := [0, 1, 2, 8, 9]

/-- Log page 0x05 in the NVMe layout: an entry of four bytes for each admin opcode, then for each I/O opcode; bit 0, supported, follows
Table 3.2, the other effects of a supported command are free. -/
def effectsPage (s : State) : List Byte :=
  let entry := fun (ops : List Nat) (base op : Nat) =>
    if ops.contains op then
      (List.range 4).map (fun i => Config.nvmeByte s.freeCtr (base + 4 * op + i) ||| (if i = 0 then 1 else 0))
    else [0, 0, 0, 0]
  padTo 4096 ((List.range 256).flatMap (entry adminOps 0) ++ (List.range 256).flatMap (entry ioOps 1024))

/-- Bytes [off, off + len) of a log page; `ctr` names the free bytes of pages that NVMe lays out. -/
def pageBytes (s : State) (lid off len : Nat) : List Byte :=
  let cut := fun (l : List Byte) => padTo len (l.drop off)
  if lid = 1 then cut (errorPage s) else if lid = 2 then cut (smartPage s) else if lid = 3 then cut (slotPage s)
  else if lid = 4 then cut (s.hif.changed.flatMap (le 4)) else if lid = 5 then cut (effectsPage s) else if lid = 6 then cut (selfTestPage s)
  else if lid = 0x80 then cut (sanitizePage s)
  else if lid = 0xC0 then
    if legacy s then padTo len (((List.range (len / 32 + 2)).flatMap (fun i => legacySlot s (off / 32 + i))).drop (off % 32))
    else padTo len (lntRegion s off len)
  else if lid = 0xC1 then cut (healthPage s)
  else if lid = 0xC2 then padTo len (((List.range (len / 128 + 2)).flatMap (fun i => streamEntry s (off / 128 + i))).drop (off % 128))
  else if lid = 0xC3 then cut (memberPage s) else if lid = 0xC4 then cut (fleetPage s)
  else (List.range len).map (fun i => Config.nvmeByte s.freeCtr (off + i))

/-! ### Identify -/

/-- ASCII text padded with spaces to n bytes. -/
def asciiPad (n : Nat) (bs : List Byte) : List Byte := (bs ++ List.replicate n 0x20).take n

/-- "Skovilward NM-960", or "Skovilward NM-720" in that profile (Table 3.3). -/
def modelNumber (leg : Bool) : List Byte :=
  asciiPad 40 ([0x53, 0x6B, 0x6F, 0x76, 0x69, 0x6C, 0x77, 0x61, 0x72, 0x64, 0x20, 0x4E, 0x4D, 0x2D]
    ++ if leg then [0x37, 0x32, 0x30] else [0x39, 0x36, 0x30])

/-- Bytes laid over others at offsets. -/
def overlay (base : List Byte) (fs : List (Nat × List Byte)) : List Byte :=
  fs.foldl (fun acc f => acc.take f.1 ++ f.2 ++ acc.drop (f.1 + f.2.length)) base

/-- Free bytes of a 4 KiB structure. -/
def freeBytes (s : State) : List Byte := (List.range 4096).map (Config.nvmeByte s.freeCtr)

/-- Identify Controller: the fields of Table 3.3; FR has the native form in both profiles (log entry 73). SGLS 1: SGLs on I/O commands,
byte-aligned; PS0's maximum power in units of 0.01 W. -/
def identifyCtrl (s : State) : List Byte :=
  overlay (freeBytes s) [(4, asciiPad 20 (le 16 s.sec.serial)), (24, modelNumber (legacy s)), (64, le 8 (slotVersion s s.cst.ledgerSlot)),
    (77, [8]), (78, le 2 1), (80, le 4 (if legacy s then 0x00010400 else 0x00020000)), (84, le 4 20000000), (88, le 4 1000000),
    (111, [1]), (256, le 2 0x13F), (260, [0x1B]), (263, [0]), (266, le 2 368), (268, le 2 383), (270, le 2 10), (316, le 2 30), (319, [1]),
    (328, le 4 3), (512, [0x66, 0x44]), (516, le 4 (if s.cst.mode = .beacon ∨ s.cst.mode = .commissioning then 0 else 1024)), (520, le 2 0x0C),
    (525, [0]), (526, le 2 255), (528, le 2 255), (536, le 4 1), (2048, le 2 9000)]

/-- Identify Namespace (Table 3.3). -/
def identifyNs (s : State) (nsid : Nat) : List Byte :=
  let n := nsLbas s nsid
  overlay (freeBytes s) [(0, le 8 n), (8, le 8 n), (24, [2, 0, 0, 0, 0, 0]), (33, [9]), (34, le 2 255), (36, le 2 255), (38, le 2 0), (40, le 2 0), (128, [0, 0, 12, 0])]

/-- A list of namespace identifiers above one, 1,024 at most. -/
def nsList (l : List Nat) (above : Nat) : List Byte := padTo 4096 (((l.filter (fun n => above < n)).take 1024).flatMap (le 4))

/-- Identify by CNS: none for a structure that is not supported. -/
def identifyBytes (s : State) (cns nsid : Nat) : Option (List Byte) :=
  let all := s.map.dir.map (·.1)
  let act := all.filter (nsActive s)
  if cns = 0 then some (if nsActive s nsid then identifyNs s nsid else List.replicate 4096 0)
  else if cns = 1 then some (identifyCtrl s)
  else if cns = 2 then some (nsList act nsid)
  else if cns = 3 then some (freeBytes s)
  else if cns = 0x10 then some (nsList all nsid)
  else if cns = 0x11 then some (if mhas s.map.dir nsid then identifyNs s nsid else List.replicate 4096 0)
  else if cns = 0x12 then some (padTo 4096 (if nsActive s nsid then le 2 1 ++ le 2 1 else []))
  else if cns = 0x13 then some (padTo 4096 (le 2 1 ++ le 2 1))
  else none

end Sys2Proof.Machine
end

