-- ==== Sys2Proof/Machine/Admin.lean ====
section
/-! DEFINITION. HIF's admin commands (Table 3.2): log pages, Identify, Abort, features (Table 3.4), events (R93), namespaces (R85,
R131, R132, R472), Format NVM (R85), the device self-test (R86-R88), directives (R72), the shadow buffer (R66) and the vendor
management commands (R89-R91). -/

namespace Sys2Proof.Machine

/-! ### Reading -/

/-- Write an admin command's data and complete it; free bytes count as drawn. -/
def adminGives (cid : Nat) (bytes : List Byte) (s : State) : State := adminOk cid (drawFree (hostEmit (.adminData cid bytes) s))

/-- GET_LOG_PAGE (R92): RAE = 0 lets the page's event be raised again (R93). -/
def execGetLogPage (cid lid offset len : Nat) (rae : Bool) (s : State) : Host.Outcome State Fault Refusal :=
  .next (adminCmd (lid = 1 || lid = 3 || lid = 0xC0) cid (fun s =>
    match pageSize s lid with
    | none => adminErr cid 1 9 s
    | some size =>
      if offset % 4 ≠ 0 ∨ size < offset then adminErr cid 0 2 s
      else
        let bytes := pageBytes s lid offset len
        let s := if rae then s else { s with hif := { s.hif with
          masked := s.hif.masked.filter (fun m => m.2 ≠ lid), changed := if lid = 4 then [] else s.hif.changed } }
        adminGives cid bytes s) s)

/-- IDENTIFY (R63). -/
def execIdentify (cid cns nsid : Nat) (s : State) : Host.Outcome State Fault Refusal :=
  .next (adminCmd true cid (fun s => match identifyBytes s cns nsid with
    | some bytes => adminGives cid bytes s
    | none => adminErr cid 0 2 s) s)

/-- ABORT (R84): only for a command that has not started; DW0 bit 0 = 1 otherwise. -/
def execAbort (cid sqid target : Nat) (s : State) : Host.Outcome State Fault Refusal :=
  .next (adminCmd false cid (fun s =>
    let inSlot := s.hif.slots.find? (fun p => p.2.cmd.sq = sqid && p.2.cmd.cid = target && !p.2.started)
    let inLook := match mget s.hif.sqs sqid with
      | some q => (match q.look with | some c => if c.cid = target then some q.cq else none | none => none)
      | none => none
    if sqid = 0 ∧ s.hif.aers.contains target then
      adminOk cid (adminErr target 0 7 { s with hif := { s.hif with aers := dropFrom s.hif.aers target } })
    else match inSlot, inLook with
      | some (id, _), _ => adminOk cid (ioDone id 0 7 0 s)
      | none, some cq => adminOk cid (postCqe cq { sq := sqid, cid := target, sct := 0, sc := 7, dw0 := 0 }
          { s with hif := { s.hif with sqs := mupd s.hif.sqs sqid (fun q => { q with look := none }) } })
      | none, none => adminDone cid 0 0 1 s) s)

/-! ### Features and events -/

/-- SET_FEATURES (R64, Table 3.4). -/
def execSetFeatures (cid fid value : Nat) (s : State) : Host.Outcome State Fault Refusal :=
  let store := fun (key v : Nat) (s : State) => { s with hif := { s.hif with features := mput s.hif.features key v } }
  .next (adminCmd false cid (fun s =>
    if fid = 2 then if bits value 4 0 = 0 then adminOk cid (store 2 value s) else adminErr cid 0 2 s
    else if fid = 4 then
      if 8 ≤ bits value 19 16 ∨ 2 ≤ bits value 21 20 then adminErr cid 0 2 s
      else adminOk cid (critCheck (store (0x400 + 16 * bits value 21 20 + bits value 19 16) (bits value 15 0) s))
    else if fid = 5 then if bitAt value 16 then adminErr cid 0 2 s else adminOk cid (store 5 value s)
    else if fid = 7 then
      let n := Nat.min 32767 (bits value 15 0) + 65536 * Nat.min 32767 (bits value 31 16)
      if bits value 15 0 = 65535 ∨ bits value 31 16 = 65535 then adminErr cid 0 2 s
      else adminDone cid 0 0 n (store 7 n s)
    else if fid = 9 then
      if 2048 ≤ bits value 15 0 then adminErr cid 0 2 s else adminOk cid (store (0x900000 + bits value 15 0) (bits value 16 16) s)
    else if fid = 1 ∨ fid = 8 ∨ fid = 0x0A ∨ fid = 0x0B then adminOk cid (store fid value s)
    else adminErr cid 0 2 s) s)

/-- GET_FEATURES (R64): the Timestamp is fleet time divided by 1,000,000, Synch and Origin 0; CDW11 names the sensor and the type of a
temperature threshold, and the interrupt vector. -/
def execGetFeatures (cid : Nat) (ask : FeatureAsk) (s : State) : Host.Outcome State Fault Refusal :=
  let fid := ask.fid
  let dw11 := ask.dw11
  .next (adminCmd false cid (fun s =>
    if fid = 0x0E then adminOk cid (hostEmit (.adminData cid (le 6 (s.tck.fleet / 1000000) ++ [0, 0])) s)
    else if fid = 4 then
      if 8 ≤ bits dw11 19 16 ∨ 2 ≤ bits dw11 21 20 then adminErr cid 0 2 s
      else adminDone cid 0 0 (mgetD s.hif.features (0x400 + 16 * bits dw11 21 20 + bits dw11 19 16) 0) s
    else if fid = 9 then
      let v := bits dw11 15 0
      if 2048 ≤ v then adminErr cid 0 2 s else adminDone cid 0 0 (v + 65536 * mgetD s.hif.features (0x900000 + v) 0) s
    else if fid = 7 then adminDone cid 0 0 (mgetD s.hif.features 7 (32767 + 65536 * 32767)) s
    else if [1, 2, 5, 8, 0x0A, 0x0B].contains fid then adminDone cid 0 0 (mgetD s.hif.features fid 0) s
    else adminErr cid 0 2 s) s)

/-- ASYNCHRONOUS_EVENT_REQUEST (R93): up to 16 wait; one that waited for a request is reported at once. -/
def execAsynchronousEventRequest (cid : Nat) (s : State) : Host.Outcome State Fault Refusal :=
  .next (adminCmd false cid (fun s =>
    if 16 ≤ s.hif.aers.length then adminErr cid 1 5 s
    else
      let s := { s with hif := { s.hif with aers := s.hif.aers ++ [cid] } }
      match s.hif.events with
      | [] => s
      | e :: rest => asyncEvent (e.1 / 256) (e.1 % 256) e.2 { s with hif := { s.hif with events := rest } }) s)

/-! ### Namespaces -/

/-- A namespace is created, deleted or resized: the Namespace Attribute Changed event (R93). -/
def nsChanged (nsid : Nat) (s : State) : State :=
  asyncEvent 2 0 4 { s with hif := { s.hif with changed := addTo s.hif.changed nsid } }

/-- Draw a new namespace data key: the key record is written (R300). -/
def newKey (nsid : Nat) (s : State) : State :=
  keyRecord { s with
    map := { s.map with dir := mupd s.map.dir nsid (fun n => { n with key := s.sec.draws }) }
    sec := { s.sec with draws := s.sec.draws + 1 } }

/-- The lowest NSID not in use. -/
def freeNsid (s : State) : Option Nat := ((List.range 1024).map (· + 1)).find? (fun n => !mhas s.map.dir n)

/-- Hold a namespace command until the ring has room for its records: MAP_LOG_FULL (R153); after the cut-off of Table 13.7, until MEM
accepts MRAM writes. -/
def nsHold (r : NsReq) (s : State) : State :=
  doIf (!s.thm.mramCut) noteLogFull { s with hif := { s.hif with adminHeld := s.hif.adminHeld ++ [r] } }

/-- Create a namespace in the lowest NSID and the lowest-numbered free groups (R129, R131). -/
def nsCreate (cid nsze : Nat) (s : State) : State :=
  let segs := nsze / 4096
  let used := groupsUsed s.map.dir
  let need := cdiv segs 64
  let refuse := fun (sc cause : Nat) (s : State) => adminErr cid 1 sc (raise Ev.MAP_NS_NO_SPACE [toByte cause] s)
  match freeNsid s with
  | none => refuse 0x16 1 s
  | some nsid =>
    if s.map.segLimit < segsAlloc s.map.dir + segs ∨ 262144 < used.length + need then refuse 0x15 0 s
    else if s.thm.mramCut ∨ !ringRoom s (recsBytes need) then nsHold (.create cid nsze) s
    else
      let gs := freeGroups used (used.length + need + 1) need 0
      let ops := (List.range need).map (fun i => RunOp.nsGroup (gs.getD i 0) nsid i (Nat.min 64 (segs - 64 * i)))
      adminDone cid 0 0 nsid (nsChanged nsid (newKey nsid (nsRecord ops s)))

/-- NAMESPACE_CREATE (R85, R131, R472): allocated and detached, with a key of its own. -/
def execNamespaceCreate (cid nsze ncap : Nat) (s : State) : Host.Outcome State Fault Refusal :=
  .next (adminCmd false cid (fun s =>
    if nsze = 0 ∨ nsze % 4096 ≠ 0 ∨ ncap ≠ nsze then adminErr cid 0 2 s else nsCreate cid nsze s) s)

/-- End the outstanding commands of a namespace that goes away with Invalid Namespace or Format (log entry 24). -/
def dropNs (nsid : Nat) (s : State) : State :=
  forAll ((hostSlots s).filter (fun p => p.2.cmd.nsid = nsid)) (fun p s =>
    if p.2.cmd.kind = .read then
      let s := forAll (s.flc.reads.filter (fun r => match r.2.use with | .host i _ => i = p.1 | _ => false)) (fun r s => dropRead r.1 s) s
      ioDone p.1 0 0x0B 0 s
    else ioDone p.1 0 0x0B 0 (dropIndex p.1 (releaseStaging p.2 s))) s

/-- Unbind the slice: FNK is destroyed with it (Table 10.2). -/
def unbindSlice (nsid : Nat) (s : State) : State :=
  if s.flt.slice = some nsid then keyRecord { s with flt := { s.flt with slice := none, fnk := 0, sliceSegs := 0 } } else s

/-- Delete a namespace: its groups and tables are freed, its key is destroyed, its streams close (R132, R104). -/
def deleteNs (nsid : Nat) (s : State) : State :=
  match mget s.map.dir nsid with
  | none => s
  | some n =>
    let s := match s.hif.selfTest with | some t => if t.nsid = nsid then abortSelfTest 3 s else s | none => s
    let s := dropNs nsid (unbindSlice nsid (closeBound nsid s))
    let s := forAll ((s.map.runs.filter (fun r => n.groups.contains (r.1 / 64))).map (·.1)) giveUpRun s
    let s := if n.groups.isEmpty then { s with map := { s.map with dir := mdel s.map.dir nsid } }
      else nsRecord (n.groups.map RunOp.nsFree) s
    nsChanged nsid (keyRecord s)

/-- The namespaces a Delete or a Format covers. -/
def nsCovered (s : State) (nsid : Nat) : List Nat := if nsid = 0xFFFFFFFF then s.map.dir.map (·.1) else [nsid]

/-- Bytes of the records that free the groups of a list of namespaces. -/
def nsFreeBytes (s : State) (ids : List Nat) : Nat :=
  (ids.map (fun n => match mget s.map.dir n with | some x => recsBytes x.groups.length | none => 0)).sum

/-- Delete one namespace or all, once the ring has room for every record of it. -/
def nsDelete (cid nsid : Nat) (s : State) : State :=
  if nsid ≠ 0xFFFFFFFF ∧ !mhas s.map.dir nsid then adminErr cid 0 0x0B s
  else if s.thm.mramCut ∨ !ringRoom s (nsFreeBytes s (nsCovered s nsid)) then nsHold (.delete cid nsid) s
  else adminOk cid (forAll (nsCovered s nsid) deleteNs s)

/-- NAMESPACE_DELETE (R132): one namespace, or all. -/
def execNamespaceDelete (cid nsid : Nat) (s : State) : Host.Outcome State Fault Refusal :=
  .next (adminCmd false cid (nsDelete cid nsid) s)

/-- The namespace commands that wait for ring space, in their order. -/
def nsStep (s : State) : State :=
  forAll s.hif.adminHeld (fun r s => match r with
    | .create cid nsze => nsCreate cid nsze s
    | .delete cid nsid => nsDelete cid nsid s) { s with hif := { s.hif with adminHeld := [] } }

/-- Attach or detach a namespace (R472). -/
def attachNs (on : Bool) (cid nsid : Nat) (controllers : List Nat) (s : State) : State :=
  match mget s.map.dir nsid with
  | none => adminErr cid 0 0x0B s
  | some n =>
    if controllers ≠ [1] then adminErr cid 1 0x1C s
    else if n.attached = on then adminErr cid 1 (if on then 0x18 else 0x1A) s
    else adminOk cid { s with map := { s.map with dir := mupd s.map.dir nsid (fun n => { n with attached := on }) } }

/-- NAMESPACE_ATTACH (R472). -/
def execNamespaceAttach (cid nsid : Nat) (controllers : List Nat) (s : State) : Host.Outcome State Fault Refusal :=
  .next (adminCmd false cid (attachNs true cid nsid controllers) s)

/-- NAMESPACE_DETACH (R472). -/
def execNamespaceDetach (cid nsid : Nat) (controllers : List Nat) (s : State) : Host.Outcome State Fault Refusal :=
  .next (adminCmd false cid (attachNs false cid nsid controllers) s)

/-! ### Format NVM -/

/-- The segments of a namespace that are not Unmapped. -/
def mappedSegs (s : State) (n : Ns) : List Nat :=
  ((formedView s).segs.filter (fun p => n.groups.contains (p.1 / 64) && p.2.kind ≠ .unmapped)).map (·.1)

/-- Set every segment of a list Unmapped, in records of at most 128 run entries, while the ring has room. -/
def unmapSegs : Nat → List Nat → State → State
  | 0, _, s => s
  | fuel + 1, l, s =>
    if l.isEmpty then s
    else match (if s.thm.mramCut then none else appendRec .unmap 0 0 ((l.take 128).map (fun g => RunOp.unmap g 0 4096)) [] true s) with
      | none => doIf (!s.thm.mramCut) noteLogFull s
      | some s => unmapSegs fuel (l.drop 128) (applyTo (s.map.log.length + 1) (s.map.lsn - 1) s)

/-- Unmap a namespace whole: its runs are given up (R132). -/
def unmapNs (nsid : Nat) (s : State) : State :=
  match mget s.map.dir nsid with
  | none => s
  | some n =>
    let s := forAll ((s.map.runs.filter (fun r => n.groups.contains (r.1 / 64))).map (·.1)) giveUpRun s
    unmapSegs ((mappedSegs s n).length + 1) (mappedSegs s n) s

/-- Leave Quiesce for Service or Degraded, whichever conditions hold (Table 12.2). -/
def leaveQuiesce (s : State) : State :=
  if s.cst.mode = .quiesce then enterMode (if degradedUnit s || fleetVacant s then .degraded else .service) s else s

/-- Carry out the Format that the unit is in Quiesce for, once the started commands have ended (R83, R85): every segment
Unmapped, and with SES 1 or 2 a new key. -/
def formatStep (s : State) : State :=
  match s.hif.format with
  | none => s
  | some (cid, nsid, ses) =>
    if (s.hif.slots.any (fun p => p.2.started)) then s
    else
      let s := forAll (nsCovered s nsid) unmapNs s
      if (nsCovered s nsid).any (fun n => match mget s.map.dir n with | some x => !(mappedSegs s x).isEmpty | none => false) then s
      else
        let s := if ses = 0 then s else forAll (nsCovered s nsid) newKey s
        let quiet := s.hif.formatQuiet
        let s := leaveQuiesce { s with hif := { s.hif with format := none, formatQuiet := false } }
        if quiet then s else adminOk cid s

/-- Does the group's parity cover the slice (R321)? -/
def sliceCovered (s : State) : Bool :=
  s.flt.slice.isSome && [FState.forming, .member, .rebuilding, .isolated].contains s.flt.fstate

/-- FORMAT_NVM (R85, R88, R104, R132, R321): LBA format 0, SES 0, 1 or 2, with the unit in Quiesce. -/
def execFormatNvm (cid nsid ses lbaf : Nat) (s : State) : Host.Outcome State Fault Refusal :=
  .next (adminCmd false cid (fun s =>
    if lbaf ≠ 0 then adminErr cid 1 0x0A s
    else if 2 < ses then adminErr cid 0 2 s
    else if nsid ≠ 0xFFFFFFFF ∧ !nsActive s nsid then adminErr cid 0 0x0B s
    else if sliceCovered s ∧ (nsid = 0xFFFFFFFF ∨ s.flt.slice = some nsid) then
      adminNm cid Ev.SEC_SANITIZE_REFUSED (raise Ev.SEC_SANITIZE_REFUSED [] s)
    else if !s.cst.mode.io ∨ s.hif.format.isSome then adminErr cid 0 0x0C s
    else
      let s := enterMode .quiesce (abortSelfTest 4 s)
      let s := forAll (nsCovered s nsid) closeBound s
      formatStep { s with hif := { s.hif with format := some (cid, nsid, ses) } }) s)

/-! ### Device self-test -/

/-- The codewords of a page as a self-test reads them: (page, codeword, NSID and LBA whose tag is checked). -/
def testCws (p : Nat × Page) : List (Nat × Nat × Nat × Nat) :=
  (List.range 4).map (fun i => match p.2.lbas[i]? with
    | some (_, lba) => (p.1, i, p.2.nsid, lba)
    | none => (p.1, i, 0, 0))

/-- The first and the last page of each block of a band (its block on each channel, R164) among the band's pages in ascending order. -/
def edgePages (l : List (Nat × Page)) : List (Nat × Page) :=
  l.filter (fun p =>
    let same := l.filter (fun q => q.2.ch = p.2.ch)
    same.head?.any (fun q => q.1 = p.1) || same.getLast?.any (fun q => q.1 = p.1))

/-- Pages of a band that are programmed, in row order. -/
def donePages (s : State) (b : Nat) : List (Nat × Page) := s.bnd.pages.filter (fun p => p.2.band = b && p.2.st = .passed)

/-- Segment 4 (Table 3.5): one page of a system band on each channel. -/
def systemReads (s : State) : List (Nat × Nat × Nat × Nat) :=
  (List.range 36).flatMap (fun ch =>
    (((s.bnd.pages.find? (fun p => p.2.band < s.bnd.sysBands && p.2.ch = ch && p.2.st = .passed)).map testCws).getD []))

/-- Segment 7: the first and last programmed page of every block of every Closed band that holds data of the namespace. -/
def closedReads (s : State) (nsid : Nat) : List (Nat × Nat × Nat × Nat) :=
  ((userIn s .closed).filter (fun b => (donePages s b).any (fun p => p.2.nsid = nsid || (nsid = 0xFFFFFFFF && p.2.nsid ≠ 0)))).flatMap
    (fun b => (edgePages (donePages s b)).flatMap testCws)

/-- Queue the reads of a segment behind every other D read (R87). -/
def queueTest (seg : Nat) (l : List (Nat × Nat × Nat × Nat)) (s : State) : State :=
  forAll l (fun x s => { s with flc := { s.flc with
    reads := mput s.flc.reads s.flc.nextRead { use := .selfTest seg, cls := .d, page := x.1, cw := x.2.1, nsid := x.2.2.1, lba := x.2.2.2 }
    nextRead := s.flc.nextRead + 1 } }) s

/-- Start a self-test: one at a time, for one namespace or for all (R86); its flash reads wait in the D queue. -/
def startSelfTest (extended : Bool) (cid nsid : Nat) (s : State) : State :=
  if s.hif.selfTest.isSome then adminErr cid 1 0x1D s
  else if nsid ≠ 0 ∧ nsid ≠ 0xFFFFFFFF ∧ !nsActive s nsid then adminErr cid 0 0x0B s
  else
    let l := if extended then closedReads s nsid else []
    let s := queueTest 7 l (queueTest 4 (systemReads s) s)
    adminOk cid { s with hif := { s.hif with selfTest := some { extended := extended, nsid := nsid, read := l.length } } }

/-- SELF_TEST_SHORT (R86). -/
def execSelfTestShort (cid nsid : Nat) (s : State) : Host.Outcome State Fault Refusal :=
  .next (adminCmd false cid (startSelfTest false cid nsid) s)

/-- SELF_TEST_EXTENDED (R86). -/
def execSelfTestExtended (cid nsid : Nat) (s : State) : Host.Outcome State Fault Refusal :=
  .next (adminCmd false cid (startSelfTest true cid nsid) s)

/-- SELF_TEST_ABORT (R88): STC = 0xF ends the test with result 0x1. -/
def execSelfTestAbort (cid : Nat) (s : State) : Host.Outcome State Fault Refusal :=
  .next (adminCmd false cid (fun s => adminOk cid (abortSelfTest 1 s)) s)

/-- The first failing segment of a test: of what its checks find, among the segments that it has, and what its flash reads found. -/
def failedSeg (t : SelfTest) (seen : SelfTestSeen) : Option Nat :=
  match seen.failSeg.filter (fun n => 1 ≤ n && n ≤ (if t.extended then 7 else 5)), t.failed with
  | some a, some b => some (Nat.min a b)
  | some a, none => some a
  | none, x => x

/-- SELF_TEST_END (R86, R88, Table 14.5): result 0x7 with the failing segment, or 0x0 once every segment has passed, its flash reads
included; the early warnings of a test's end, bit 4 where more than 1 % of segment 7's codewords were recovered. -/
def execSelfTestEnd (seen : SelfTestSeen) (s : State) : Host.Outcome State Fault Refusal :=
  .next (match s.hif.selfTest with
    | none => s
    | some t =>
      let more := s.flc.reads.any (fun r => match r.2.use with | .selfTest _ => true | _ => false)
      match failedSeg t seen with
      | none =>
        if more then s
        else
          let s := selfTestOver t 0 0 s
          let s := if 16 ≤ seen.corrected then warn 3 (le 4 seen.corrected) s else s
          if t.extended ∧ t.read < 100 * t.recovered then warn 4 [] s else s
      | some seg =>
        let s := selfTestOver t 7 seg s
        if 16 ≤ seen.corrected then warn 3 (le 4 seen.corrected) s else s)

/-! ### Directives and the shadow buffer -/

/-- Open streams bound to a namespace (R72); stream 0 is not counted (log entry 73). -/
def openOf (s : State) (nsid : Nat) : List Nat :=
  (s.stm.streams.filter (fun p => p.1 ≠ 0 && p.2.nsid = nsid && (p.2.st = .open_ || p.2.st = .admitted))).map (·.1)

/-- Streams bound to a namespace, Releasing ones among them (R72). -/
def boundTo (s : State) (nsid : Nat) : List Nat :=
  (s.stm.streams.filter (fun p => p.1 ≠ 0 && p.2.nsid = nsid && p.2.st ≠ .closed)).map (·.1)

/-- DIRECTIVE_SEND (R72): Release Identifier and Release Resources change nothing. -/
def execDirectiveSend (cid nsid dtype doper dspec : Nat) (s : State) : Host.Outcome State Fault Refusal :=
  .next (adminCmd false cid (fun s =>
    if nsid ≠ 0xFFFFFFFF ∧ !nsActive s nsid then adminErr cid 0 0x0B s
    else if (dtype = 0 ∧ doper = 1) ∨ (dtype = 1 ∧ (doper = 1 ∨ doper = 2) ∧ dspec < 65536) then adminOk cid s
    else adminErr cid 0 2 s) s)

/-- DIRECTIVE_RECEIVE (R72): parameters, status, and an allocation that allocates nothing. -/
def execDirectiveReceive (cid nsid dtype doper : Nat) (s : State) : Host.Outcome State Fault Refusal :=
  .next (adminCmd false cid (fun s =>
    let l := openOf s nsid
    if nsid ≠ 0xFFFFFFFF ∧ !nsActive s nsid then adminErr cid 0 0x0B s
    else if dtype = 0 ∧ doper = 1 then adminGives cid (layout 4096 [(0, [3]), (32, [3])]) s
    else if dtype = 1 ∧ doper = 1 then
      adminGives cid (layout 32 [(0, le 2 4095), (2, le 2 4095), (4, le 2 l.length), (16, le 4 4), (20, le 2 1024), (24, le 2 l.length)]) s
    else if dtype = 1 ∧ doper = 2 then adminGives cid (padTo 131072 (le 2 l.length ++ l.flatMap (le 2))) s
    else if dtype = 1 ∧ doper = 3 then adminDone cid 0 0 (boundTo s nsid).length s
    else adminErr cid 0 2 s) s)

/-- DOORBELL_BUFFER_CONFIG (R66). -/
def execDoorbellBufferConfig (cid : Nat) (s : State) : Host.Outcome State Fault Refusal :=
  .next (adminCmd false cid (fun s =>
    if fld s HIF_CFG 2 2 = 0 then adminErr cid 0 2 s
    else adminOk cid { s with hif := { s.hif with shadow := true } }) s)

/-! ### Vendor management commands -/

/-- A vendor command (R89-R91): refused with HOST_MGMT_EN = 0 or a block code that is not its own, malformed under R11, or passed on to
the block's internal ring. HIF_MGMT_REFUSED_CNT counts the first two (log entry 73). -/
def vendor (block : Nat) (v : Vend) (s : State) : State :=
  adminCmd false v.cid (fun s =>
    if fld s HIF_CFG 1 1 = 0 then adminNm v.cid Ev.HIF_MGMT_DISABLED (bump HIF_MGMT_REFUSED_CNT (raise Ev.HIF_MGMT_DISABLED [] s))
    else if v.opcode / 256 ≠ block then adminNm v.cid Ev.HIF_OPCODE_MISMATCH
      (bump HIF_MGMT_REFUSED_CNT (raise Ev.HIF_OPCODE_MISMATCH (le 2 v.opcode) s))
    else if v.nsid ≠ 0 ∨ v.prp2 ≠ 0 ∨ v.rsv ∨ v.flags ≠ 0 ∨ v.rspec ≠ 0 then
      adminNm v.cid Ev.SYS_MALFORMED (raise Ev.SYS_MALFORMED (le 2 v.opcode) s)
    else { s with sys := { s.sys with
      hifRings := s.sys.hifRings ++ [{ src := .admin v.cid, opcode := v.opcode, tag := v.cid, body := v.body }] } }) s

/-- STREAM_MANAGE, opcode 0xC1 (R89). -/
def execStreamManage (v : Vend) (s : State) : Host.Outcome State Fault Refusal := .next (vendor 0x03 v s)

/-- MEMBER_MANAGE, opcode 0xC2 (R89). -/
def execMemberManage (v : Vend) (s : State) : Host.Outcome State Fault Refusal := .next (vendor 0x07 v s)

/-- FLEET_MANAGE, opcode 0xC3 (R89). -/
def execFleetManage (v : Vend) (s : State) : Host.Outcome State Fault Refusal := .next (vendor 0x08 v s)

/-- LANTERN_CONTROL, opcode 0xC4 (R89). -/
def execLanternControl (v : Vend) (s : State) : Host.Outcome State Fault Refusal := .next (vendor 0x10 v s)

end Sys2Proof.Machine
end

