-- ==== Sys2Proof/Machine/Thermal.lean ====
section
/-! DEFINITION. THM: sensors, bands, throttle, thermal shutdown and the loss of power announced on PFAIL_L (R393-R409). Readings are in
units of 0.125 degrees. -/

namespace Sys2Proof.Machine

/-! ### Sensors (R393, R394) -/

/-- Mean of a sensor's last eight samples, rounded down. -/
def Sensor.mean (x : Sensor) : Int := x.last.sum / (Nat.max 1 x.last.length : Nat)

/-- A sensor takes a sample; `odd`: it lies more than 20 degrees from the median. -/
def Sensor.take (x : Sensor) (r : Int) (odd : Bool) : Sensor :=
  { x with last := (r :: x.last).take 8
           high := if x.last.isEmpty then r else max x.high r
           odd := if odd then x.odd + 1 else 0
           overRun := if 920 ≤ r then x.overRun + 1 else 0 }

/-- Insert a reading into a list in rising order. -/
def insertInt (x : Int) : List Int → List Int
  | [] => [x]
  | y :: ys => if x ≤ y then x :: y :: ys else y :: insertInt x ys

/-- The readings in rising order. -/
def sortInts (l : List Int) : List Int := l.foldr insertInt []

/-- Twice the median of twelve readings: the sum of the middle two. -/
def median2 (l : List Int) : Int := (sortInts l).getD 5 0 + (sortInts l).getD 6 0

/-- Controller sensors in use. -/
def liveSensors (s : State) : List Nat := (List.range 12).filter (fun i => !s.thm.excluded.contains i)

/-- A sensor. -/
def sensorAt (s : State) (i : Nat) : Sensor := s.thm.sensors.getD i {}

/-- THM_HOT and the sensor it names: the highest mean of the sensors in use, the lowest number of several. -/
def hotNow (s : State) : Nat × Int :=
  (liveSensors s).foldl (fun best i => if best.2 < (sensorAt s i).mean then (i, (sensorAt s i).mean) else best)
    (match liveSensors s with
      | i :: _ => (i, (sensorAt s i).mean)
      | [] => (s.thm.hotSensor, s.thm.hot))

/-! ### Bands (R395) -/

/-- Lower bound of a temperature band; TB0 has none. -/
def bandLow : Nat → Int
  | 0 => -1000
  | 1 => 0
  | 2 => 45
  | 3 => 85
  | 4 => 95
  | _ => 105

/-- The highest band whose lower bound T_now has reached. -/
def bandOf (t : Int) : Nat := ((List.range 6).filter (fun b => decide (bandLow b ≤ t))).length - 1

/-- The band of T_now, entered upward at its lower bound, left downward 2 degrees below it. -/
def nextBand (cur : Nat) (t : Int) : Nat :=
  if cur < bandOf t then bandOf t
  else ((List.range (cur + 1)).filter (fun b => b = 0 || decide (bandLow b - 2 < t))).getLastD 0

/-- The settings of a temperature band (Table 13.3): HBM refresh interval and MRAM write pulse in ns, channel drive and ODT in ohms. -/
structure BandSettings where
  refresh : Nat
  pulse : Nat
  drive : Nat
  odt : Nat
  deriving DecidableEq, Repr

/-- Table 13.3; the DQS training set of a band has its number. -/
def bandSettings : Nat → BandSettings
  | 0 => { refresh := 3900, pulse := 60, drive := 34, odt := 60 }
  | 1 => { refresh := 3900, pulse := 45, drive := 40, odt := 60 }
  | 2 => { refresh := 3900, pulse := 40, drive := 40, odt := 50 }
  | 3 => { refresh := 1950, pulse := 35, drive := 40, odt := 40 }
  | _ => { refresh := 975, pulse := 35, drive := 34, odt := 40 }

/-- The HBM refresh interval that the next refresh begins (R396). -/
def hbmRefresh (s : State) : Nat := (bandSettings s.thm.band).refresh

/-- The pulse of the next MRAM write (R396). -/
def mramPulse (s : State) : Nat := (bandSettings s.thm.band).pulse

/-- The channel drive in force (R396). -/
def channelDrive (s : State) : Nat := (bandSettings s.thm.driveBand).drive

/-- The flash ODT in force (R396). -/
def flashOdt (s : State) : Nat := (bandSettings s.thm.driveBand).odt

/-- Enter a band: its trained set is used on every channel that has one (R397). -/
def enterBand (b : Nat) (s : State) : State :=
  if b = s.thm.band then s
  else
    let old := s.thm.band
    bump THM_BAND_CNT (raise Ev.THM_BAND_CHANGED [toByte old, toByte b] { s with
      thm := { s.thm with band := b, trainFails := [] }
      flc := { s.flc with trainSet := s.flc.trainSet.map (fun p =>
        if (mgetD s.flc.trained p.1 []).contains b then (p.1, b) else p) } })

/-! ### Throttle (R398-R400) -/

/-- The throttle step that follows from T_now, with its hysteresis. -/
def nextStep (s : State) : Nat :=
  let t := tNow s
  let thr : Int := fld s THM_CFG 7 0
  if thr + s.thm.step + 1 ≤ t ∨ t ≤ thr + s.thm.step - 1 then (t - thr).toNat else s.thm.step

/-- Put the throttle's effects into force: THM_REDUCTION, the ACLK cap, a new characteristic table, the ceilings. -/
def throttleApply (s : State) : State :=
  rescale (wantTable (aclkUpdate (setReg THM_REDUCTION (toWord (reduction65536 s s.thm.step)) s)))

/-- Follow T_now and THM_CFG; `force`: the settings have changed. -/
def throttle (force : Bool) (s : State) : State :=
  let old := s.thm.step
  let new := nextStep s
  if new = old then doIf force throttleApply s
  else
    let full := fun k => 400 ≤ fld s THM_CFG 22 16 * k
    let s := bump THM_STEP_CNT (raise Ev.THM_THROTTLE_STEP [toByte old, toByte new] { s with thm := { s.thm with step := new } })
    let s := if old = 0 then smartAdd 14 1 (raise Ev.THM_THROTTLE_START [toByte new] s) else s
    let s := if new = 0 then raise Ev.THM_THROTTLE_END [] s else s
    let s := doIf (full new && !full old) (smartAdd 16 1) s
    throttleApply s

/-- A store to THM_CFG (Table 13.11). -/
def storeThmCfg (v : Word) (s : State) : State := storeThen THM_CFG (throttle true) v s

/-- Is THERM_L driven low (R400, R403)? -/
def thermLow (s : State) : Bool := 0 < s.thm.step || s.thm.tripped || s.thm.holdStart

/-! ### Thermal shutdown (R401, R402) -/

/-- The comparator trips: every following tick is held, the unit is in Halt, the Lantern freezes after THM_SHUTDOWN. -/
def trip (i : Nat) (r : Int) (s : State) : State :=
  if s.thm.tripped then s
  else
    let s := lntStart .halt { s with thm := { s.thm with tripped := true } }
    enterHalt (raiseFreeze Ev.THM_SHUTDOWN ([toByte i] ++ le 2 (signed 16 r)) s)

/-- THM_SAMPLE (R393-R401). A sample that completes a trip does so before the exclusion it causes. -/
def execThmSample (readings : List Int) (s : State) : Host.Outcome State Fault Refusal :=
  .next (if readings.length ≠ 16 ∨ !s.cst.begun then s
  else
    let first := (sensorAt s 0).last.isEmpty
    let med := median2 (readings.take 12)
    let far := fun (r : Int) => decide (320 < (2 * r - med).natAbs)
    let live := liveSensors s
    let s := { s with thm := { s.thm with
      sensors := (List.range 16).map (fun i => (sensorAt s i).take (readings.getD i 0) (i < 12 && far (readings.getD i 0)))
      throttle10us := s.thm.throttle10us + b2n (0 < s.thm.step) } }
    let s := match live.find? (fun i => decide (3 ≤ (sensorAt s i).overRun)) with
      | some i => trip i (readings.getD i 0) s
      | none => s
    let bad := live.filter (fun i => decide (readings.getD i 0 < -440 ∨ 1200 < readings.getD i 0 ∨ 100 ≤ (sensorAt s i).odd))
    let s := forAll bad (fun i s => raise Ev.THM_SENSOR_FAIL [toByte i]
      { s with thm := { s.thm with excluded := addTo s.thm.excluded i } }) s
    let s := if (liveSensors s).length < 3 ∧ s.cst.mode ≠ .dark then enterHalt s else s
    let h := hotNow s
    let s := { s with
      thm := { s.thm with hotSensor := h.1, hot := h.2 }
      lnt := { s.lnt with smart := mput s.lnt.smart 20 (Nat.max (mgetD s.lnt.smart 20 0) (h.2 / 8 + 300).toNat) } }
    let b := if first then bandOf (tNow s) else nextBand s.thm.band (tNow s)
    let s := if first then { s with thm := { s.thm with band := b, driveBand := b } } else enterBand b s
    critCheck (throttle false s))

/-- THERMAL_SHUTDOWN_POWER_OFF (Table 13.4 steps 2 and 3): running erases are suspended, CSTS.CFS = 1, no carrier has power, ACLK, LCLK,
FLCLK and FCLK logic are gated. -/
def execThermalShutdownPowerOff (s : State) : Host.Outcome State Fault Refusal :=
  .next (if !s.thm.tripped ∨ s.thm.powerOff then s
  else { s with
    thm := { s.thm with powerOff := true }
    hif := { s.hif with cfs := true }
    flc := { s.flc with targets := s.flc.targets.map (fun p => match p.2.op with
      | .erase _ => (p.1, { p.2 with suspended := p.2.suspended.or (some s.tck.now), ordered := false })
      | _ => p) }
    mbr := { s.mbr with ports := s.mbr.ports.map (fun p => { p with powered := false, training := false, seq := .none }) }
    clk := { s.clk with gates := (List.range 10).foldl (fun g i => mput g i GateSt.off) s.clk.gates, coresStalled := true } })

/-! ### PFAIL_L (R407, R408) -/

/-- PFAIL_FALL (R407): no new program, erase or resume; MEM takes MRAM writes until the cut-off. -/
def execPfailFall (s : State) : Host.Outcome State Fault Refusal :=
  .next (
    let s := lntFlush { s with thm := { s.thm with pfail := true, mramCut := false } }
    irqRaise 68 (bump THM_PFAIL_CNT (raise Ev.THM_PFAIL [] s)))

/-- PFAIL_MRAM_CUTOFF (R407 step 4). -/
def execPfailMramCutoff (s : State) : Host.Outcome State Fault Refusal :=
  .next (if s.thm.pfail then { s with thm := { s.thm with mramCut := true } } else s)

/-- PFAIL_CLEARED (R408). -/
def execPfailCleared (s : State) : Host.Outcome State Fault Refusal :=
  .next (if s.thm.pfail then raise Ev.THM_PFAIL_CLEARED [] (lntFlush { s with thm := { s.thm with pfail := false, mramCut := false } })
  else s)

end Sys2Proof.Machine
end

