-- ==== Sys2Proof/Machine/Trust.lean ====
section
/-! DEFINITION. SEC: the lifecycle and the key unit's provisioning (R296-R302), lane requests (R311), the TRNG, debug unlock
(R317-R319), Sanitize (R320-R322), the security version (R323), SPDM (R314-R316). -/

namespace Sys2Proof.Machine

/-! ### The OTP row -/

/-- The lifecycle that the OTP row spells (R298), or none for any other combination. -/
def lifecycleOf (s : State) : Option Lifecycle :=
  match s.sec.otpSecret.isSome, s.sec.otpDaymark, s.sec.otpOwner.isSome, s.sec.otpLifecycle with
  | false, false, false, false => some .blank
  | true, false, false, false => some .keyed
  | true, true, false, false => some .provisioned
  | true, true, true, true => some .commissioned
  | _, _, _, _ => none

/-- Is the lifecycle Commissioned? -/
def commissioned (s : State) : Bool := lifecycleOf s = some .commissioned

/-- Byte i of the identity public key of a unit whose device secret is a TRNG draw (R299). -/
def idKey (secret : Nat) : List Byte := (List.range 96).map (Config.digestByte (2 ^ 20 + secret))

/-- The outcome of a provisioning command: SEC_PROV_RESULT holds it, an unsuccessful one is raised. -/
def provResult (nm : Nat) (s : State) : State :=
  let s : State := { s with sec := { s.sec with provResult := nm } }
  if nm = 0 then s else raise nm [] s

/-- Is the argument an HBM address, 64 B aligned, with n bytes below the map table (Table 10.11)? -/
def provArgOk (s : State) (n : Nat) : Bool := s.sec.provArg % 64 = 0 && s.sec.provArg + n ≤ (hbmBases s).2.2.2.2 * 0x100000

/-- Carry out a provisioning command in its lifecycle and before the seal (R302, R324). -/
def provision (l : Lifecycle) (ok : State → Bool) (f : State → State) (s : State) : State :=
  if s.cst.mode = .dark ∨ s.cst.mode = .halt then s
  else if lifecycleOf s = some l ∧ !s.sys.isSealed ∧ ok s then provResult 0 (f s)
  else provResult Ev.SEC_PROV_REFUSED s

/-- GEN_SECRET (R302 step 2): the identity public key goes to the argument address. Without the TRNG there is no secret. -/
def execGenSecret (s : State) : Host.Outcome State Fault Refusal :=
  .next (provision .blank (fun s => s.sec.trngOk && provArgOk s 96) (fun s =>
    let n := s.sec.draws
    writeBytes s.sec.provArg (idKey n) (bump CST_PROG_CNT { s with sec := { s.sec with otpSecret := some n, draws := n + 1 } })) s)

/-- WRITE_DAYMARK (R302 step 4): CERT_LEN, then the certificate chain, at the argument address. -/
def execWriteDaymark (s : State) : Host.Outcome State Fault Refusal :=
  let len := fun (s : State) => leNat (readBytes s s.sec.provArg 4)
  .next (provision .keyed (fun s => provArgOk s 4 && len s ≤ 8192 && provArgOk s (4 + len s)) (fun s =>
    bumpBy CST_PROG_CNT (cdiv (len s) 32 + 3)
      { s with sec := { s.sec with otpDaymark := true, certs := readBytes s (s.sec.provArg + 4) (len s) } }) s)

/-- SET_OWNER (R302 step 5): OWNER_HASH, then LIFECYCLE; JTAG locks at once. -/
def execSetOwner (s : State) : Host.Outcome State Fault Refusal :=
  .next (provision .provisioned (fun s => provArgOk s 96) (fun s =>
    bumpBy CST_PROG_CNT 3 { s with sec := { s.sec with
      otpOwner := some (Config.sha384 (readBytes s s.sec.provArg 96)), otpLifecycle := true, otpTime := s.tck.fleet } }) s)

/-- A store to SEC_PROV_CTL (Table 10.11): other commands are reserved encodings. -/
def storeProv (v : Word) (s : State) : State :=
  let run := fun (o : Host.Outcome State Fault Refusal) => match o with | .next t => t | _ => s
  let s' := storeWo SEC_PROV_CTL v s
  match bits v.toNat 3 0 with
  | 1 => run (execGenSecret s')
  | 2 => run (execWriteDaymark s')
  | 3 => run (execSetOwner s')
  | _ => discardStore SEC_PROV_CTL v s

/-- V of R323: the unbroken run of step words, or the MRAM copy where greater. -/
def secver (s : State) : Nat := Nat.max (s.sec.steps.takeWhile id).length s.sec.mramSecver

/-- The image in a slot 1-5. -/
def slotImage (s : State) (slot : Nat) : Option Image :=
  if slot = 0 then none else (s.cst.slots[slot - 1]?).bind (·.img)

/-- ENTRY of the image in a slot. -/
def imageEntry (s : State) (slot : Nat) : Nat := ((slotImage s slot).map (·.entry)).getD 0

/-- Security versions of the running loader, ledger firmware and customer OS. -/
def runningSecvers (s : State) : List Nat :=
  [slotImage s 1, slotImage s s.cst.ledgerSlot, slotImage s s.cst.osSlot].filterMap (fun i => i.map (·.secver))

/-- SECVER_ADVANCE (R323): a store to SEC_SECVER_CTL. -/
def execSecverAdvance (v : Word) (s : State) : Host.Outcome State Fault Refusal :=
  .next (
    let t := bits v.toNat 6 0
    let s := storeWo SEC_SECVER_CTL v s
    if secver s < t ∧ t ≤ 64 ∧ (runningSecvers s).all (fun x => t ≤ x) ∧ s.cst.mode ≠ .dark then
      let old := s.sec.steps
      let n := ((List.range t).filter (fun i => secver s ≤ i && !old.getD i false)).length
      raise Ev.SEC_SECVER_ADVANCED [toByte t] (bumpBy CST_PROG_CNT n { s with sec := { s.sec with
        steps := (List.range 64).map (fun i => old.getD i false || (secver s ≤ i && i < t)), mramSecver := t } })
    else raise Ev.SEC_SECVER_REFUSED [toByte t] s)

/-! ### Lane requests (R311) -/

/-- After live lanes fell by request: SEC_LANES_LOW at four, Halt where none is left or coming (R309). -/
def lanesFell (before : Nat) (s : State) : State :=
  let n := (liveLanes s).length
  let s := if 4 < before ∧ n ≤ 4 then raise Ev.SEC_LANES_LOW [toByte n] s else s
  if s.sec.lanes.all (fun l => l.st = .off || l.st = .retired) && s.cst.mode.runs then enterHalt s else s

/-- A request for a lane: latched while it drains or is tested, of which only the newest is kept. -/
def laneReq (l : Nat) (on : Bool) (s : State) : State :=
  let x := laneAt s l
  match x.st with
  | .draining | .testing =>
    let s := if x.pending.isSome then raise Ev.SEC_PENDING_REPLACED [toByte l] s else s
    setLane l (fun x => { x with pending := some on }) s
  | .on => if on then s else lanesFell (liveLanes s).length (setLane l (fun x => { x with st := .draining }) s)
  | _ => if on then setLane l (fun x => { x with st := .testing }) s else s

/-- Outcome codes of SEC_PENDING_DONE: the lane's state (Table 10.11). -/
def LaneSt.code : LaneSt → Nat
  | .off => 0
  | .on => 1
  | .draining => 2
  | .testing => 4
  | .retired => 5

/-- A sequence of a lane has ended: a request being carried out is reported, a latched one is carried out. -/
def laneEnded (l : Nat) (s : State) : State :=
  let done := fun (s : State) =>
    raise Ev.SEC_PENDING_DONE [toByte l, toByte (laneAt s l).st.code] (setLane l (fun x => { x with carrying := false }) s)
  let s := if (laneAt s l).carrying then done s else s
  match (laneAt s l).pending with
  | none => lanesFell 0 s
  | some on =>
    let s := laneReq l on (setLane l (fun x => { x with pending := none, carrying := true }) s)
    if (laneAt s l).st = .draining ∨ (laneAt s l).st = .testing then s else lanesFell 0 (done s)

/-- A store to SEC_LANE_CTL: a request for each lane whose bit changes, and for a Retired lane whose bit is set. -/
def storeLanes (v : Word) (s : State) : State :=
  let old := rg s SEC_LANE_CTL
  let s := storeFile SEC_LANE_CTL v s
  let new := rg s SEC_LANE_CTL
  if s.cst.mode.runs then
    forAll (List.range 8) (fun l s =>
      if bitAt new l ≠ bitAt old l ∨ (bitAt new l ∧ (laneAt s l).st = .retired) then laneReq l (bitAt new l) s else s) s
  else s

/-- LANE_ENABLE (R311): a store that sets bit l. -/
def execLaneEnable (l : Nat) (s : State) : Host.Outcome State Fault Refusal :=
  .next (if l < 8 then storeLanes (toWord (putBits (rg s SEC_LANE_CTL) l l 1)) s else s)

/-- LANE_DISABLE (R311): a store that clears bit l. -/
def execLaneDisable (l : Nat) (s : State) : Host.Outcome State Fault Refusal :=
  .next (if l < 8 then storeLanes (toWord (putBits (rg s SEC_LANE_CTL) l l 0)) s else s)

/-- LANE_DRAIN_END (R311). -/
def execLaneDrainEnd (l : Nat) (s : State) : Host.Outcome State Fault Refusal :=
  .next (if (laneAt s l).st = .draining then laneEnded l (setLane l (fun x => { x with st := .off }) s) else s)

/-- LANE_TEST_END (R310, R311): a pass clears the lane's bit of LANE_RETIRED and its mismatch counter. -/
def execLaneTestEnd (l : Nat) (pass : Bool) (s : State) : Host.Outcome State Fault Refusal :=
  .next (if (laneAt s l).st ≠ .testing then s
  else if pass then
    let s := setReg (SEC_LANEl_MISMATCH_CNT l) 0 (setLane l (fun x => { x with st := .on }) s)
    laneEnded l (if s.sec.laneRetired.contains l then
      keyRecord { s with sec := { s.sec with laneRetired := dropFrom s.sec.laneRetired l } } else s)
  else laneEnded l (retireLane l s))

/-- SEC_TRNG_FAIL (R302): no output until cold reset. -/
def execSecTrngFail (s : State) : Host.Outcome State Fault Refusal :=
  .next (if s.sec.trngOk then raise Ev.SEC_TRNG_FAIL [] { s with sec := { s.sec with trngOk := false, trngDead := true } } else s)

/-! ### Erasing keys and maps (Table 10.10) -/

/-- Step 3: a new key for every namespace, FNK cleared, one new key record. -/
def renewKeys (s : State) : State :=
  let ids := s.map.dir.map (·.1)
  let key := fun n => s.sec.draws + ids.findIdx (· = n)
  keyRecord { s with
    map := { s.map with dir := s.map.dir.map (fun p => (p.1, { p.2 with key := key p.1 })) }
    sec := { s.sec with draws := s.sec.draws + ids.length }
    flt := { s.flt with fnk := 0, fnkHeld := [] } }

/-- Cells outside [a, b). -/
def clearCells (a b : Nat) (m : List Host.Cell) : List Host.Cell := m.filter (fun c => c.1 < a || b ≤ c.1)

/-- Step 4: every segment Unmapped, the delta log empty, a checkpoint started, HBM staging and granular pool zeros. -/
def emptyMap (s : State) : State :=
  let b := hbmBases s
  let s := forAll (s.map.runs.map (·.1)) giveUpRun s
  ckptBegin { s with
    map := { s.map with segs := [], pool := [], log := [], lostWait := [], durable := s.map.lsn, poolExhausted := false
                        freeLsn := s.map.lsn, ckpt := { s.map.ckpt with replayAt := ringTail s } }
    bnd := { s.bnd with sysTodo := s.bnd.sysTodo.filter (fun x => !x.mine) }
    mem := clearCells (b.2.1 * 0x100000) (b.2.2.2.1 * 0x100000) s.mem }

/-! ### Debug unlock (R317-R319) -/

/-- TAP_CHALLENGE_READ (R318): a new challenge; none after lockout, nor without the TRNG. -/
def execTapChallengeRead (s : State) : Host.Outcome State Fault Refusal :=
  .next (if s.sec.lockout || !s.sec.trngOk then { s with sec := { s.sec with challenge := none } }
  else emit (.challenge s.sec.draws) { s with sec := { s.sec with challenge := some s.tck.now, draws := s.sec.draws + 1 } })

/-- A response fails or is refused: it counts, the eighth one locks. -/
def unlockFail (s : State) : State :=
  let s := raise Ev.SEC_UNLOCK_FAIL [] (bump SEC_UNLOCK_FAIL_CNT s)
  if 8 ≤ rg s SEC_UNLOCK_FAIL_CNT ∧ !s.sec.lockout then
    raise Ev.SEC_UNLOCK_LOCKOUT [] { s with sec := { s.sec with lockout := true } }
  else s

/-- A vendor unlock first erases every namespace, clears the key store and disables the identity key (R319). -/
def vendorErase (s : State) : State :=
  let s := emptyMap (renewKeys s)
  { s with sec := { s.sec with keyStore := false, idDisabled := true } }

/-- TAP_RESPONSE (R318, R319): a challenge is void once answered, and 60 s after it was read. -/
def execTapResponse (level : Nat) (keyOk sigOk : Bool) (s : State) : Host.Outcome State Fault Refusal :=
  .next (
    let live := match s.sec.challenge with | some t => decide (s.tck.now < t + 60000000000) | none => false
    let s := { s with sec := { s.sec with challenge := none } }
    let placeOk := level = 1 ∨ (level = 2 ∧ (s.cst.mode = .quiesce ∨ s.cst.mode = .halt ∨ s.cst.mode = .beacon))
    if !live ∨ s.sec.lockout ∨ !keyOk ∨ !sigOk ∨ !placeOk then unlockFail s
    else
      let s := if level = 2 then vendorErase s else s
      raise Ev.SEC_UNLOCKED [toByte level] { s with sec := { s.sec with unlock := level } })

/-- CHALLENGE_EXPIRY (R318). -/
def execChallengeExpiry (s : State) : Host.Outcome State Fault Refusal :=
  .next { s with sec := { s.sec with challenge := none } }

/-! ### Sanitize (R320-R322) -/

/-- Start a Sanitize: mode 1 crypto erase, 2 block erase (Table 10.10 step 1). -/
def sanitizeStart (mode cid : Nat) (s : State) : State :=
  adminCmd false cid (fun s =>
    if sliceCovered s then adminNm cid Ev.SEC_SANITIZE_REFUSED (raise Ev.SEC_SANITIZE_REFUSED [] s)
    else if s.sec.sanitize ≠ 0 then adminErr cid 0 0x1D s
    else if !s.cst.mode.io ∨ s.hif.format.isSome then adminErr cid 0 0x0C s
    else
      let s := forAll (s.map.dir.map (·.1)) closeBound (enterMode .quiesce (abortSelfTest 9 s))
      adminOk cid { s with
        sec := { s.sec with sanitize := mode, sanitizeStep := 1 }
        hif := { s.hif with sanitizeLog := 2 } }) s

/-- Steps 2 to 4, once no started command is left; keys and map are renewed together. -/
def sanitizeProgress (s : State) : State :=
  if s.sec.sanitize = 0 ∨ s.sec.sanitizeStep ≠ 1 ∨ s.cst.mode ≠ .quiesce ∨ s.hif.slots.any (fun p => p.2.started)
      ∨ s.thm.mramCut then s
  else
    let s := emptyMap (renewKeys s)
    { s with sec := { s.sec with sanitizeStep := 4 } }

/-- The band state entries once every band not held has been erased: Free, DONE = 1, ERASE_CNT one higher (R320 step 5). -/
def erasedBands (held : Nat → Bool) (s : State) : AMap Band :=
  s.bnd.bands.map (fun p => if held p.1 ∨ p.2.st = .retired then p
    else (p.1, { erasedAll := true, eraseCnt := p.2.eraseCnt + 1 }))

/-- Step 5: every user band, and every system band without a page live in an image slot, is Free and erased, its pages and blocks are gone;
a checkpoint follows, since the pages of the last one are erased with them. -/
def eraseUserBands (s : State) : State :=
  let image := s.bnd.sysAt.filter (fun e => !e.1.isCkpt)
  let held := fun (b : Nat) => decide (b < s.bnd.sysBands) && image.any (fun e => e.2.band = b)
  let blks := (image.map (fun e => e.2.band)).dedup.flatMap (fun b => (List.range 36).map (fun ch => bandBlk s ch b))
  ckptBegin { s with
    bnd := { s.bnd with
      bands := erasedBands held s, freshCnt := s.bnd.freshCnt + 1, opens := s.bnd.opens.filter (fun p => held p.1)
      pages := s.bnd.pages.filter (fun p => held p.2.band), victims := [], copies := [], orphans := [], freshDone := true
      erasing := [], arming := none, sysTodo := [], sysWait := [], sysAt := image, sysVictim := none, sysArming := none }
    map := { s.map with ckpt := { s.map.ckpt with index := [] } }
    mbr := { s.mbr with slots := [] }
    tck := { s.tck with queue := s.tck.queue.filter (fun o => match o.kind with
      | .prog key => (mget s.bnd.pages key).any (fun p => held p.band)
      | .erase _ => false) }
    flc := { s.flc with blocks := s.flc.blocks.filter (fun b => b.2.st = .retired || blks.contains b.1), targets := [], stamps := [], blank := [] } }

/-- SANITIZE_CRYPTO_ERASE (R320). -/
def execSanitizeCryptoErase (cid : Nat) (s : State) : Host.Outcome State Fault Refusal :=
  .next (sanitizeProgress (sanitizeStart 1 cid s))

/-- SANITIZE_BLOCK_ERASE (R320). -/
def execSanitizeBlockErase (cid : Nat) (s : State) : Host.Outcome State Fault Refusal :=
  .next (sanitizeProgress (sanitizeStart 2 cid s))

/-- SANITIZE_END (Table 10.10 steps 5 and 6). -/
def execSanitizeEnd (s : State) : Host.Outcome State Fault Refusal :=
  .next (
    let s := sanitizeProgress s
    if s.sec.sanitize = 0 ∨ s.sec.sanitizeStep ≠ 4 ∨ s.cst.mode ≠ .quiesce ∨ s.map.running.isSome then s
    else
      let s := if s.sec.sanitize = 2 then eraseUserBands s else s
      let s := { s with sec := { s.sec with sanitize := 0, sanitizeStep := 0 }, hif := { s.hif with sanitizeLog := 1 } }
      leaveQuiesce (raise Ev.SEC_SANITIZE_DONE [] s))

/-! ### SPDM (R314-R316) -/

/-- Free bytes of a response: nonces, signatures and digests. -/
def spdmFree (s : State) (n : Nat) : List Byte := (List.range n).map (Config.digestByte (1024 + s.freeCtr))

/-- The value of a measurement block (Table 10.9): DMTF value type and bytes; type bit 7 marks a raw value. -/
def measurement (s : State) (ix : Nat) : Nat × List Byte :=
  let img := fun slot => match slotImage s slot with | some i => le 48 i.digest | none => List.replicate 48 0
  let ver := fun slot => match slotImage s slot with | some i => i.secver | none => 0
  let lc := match lifecycleOf s with
    | some .blank => 0
    | some .provisioned => 1
    | some .commissioned => 2
    | _ => 3
  match ix with
  | 1 => (0, (List.range 48).map (Config.digestByte 1))
  | 2 => (1, img 1)
  | 3 => (1, img s.cst.ledgerSlot)
  | 4 => (1, img s.cst.osSlot)
  | 5 => (0x87, [toByte (secver s), toByte (ver 1), toByte (ver s.cst.ledgerSlot), toByte (ver s.cst.osSlot)])
  | 6 => (0x85, [toByte lc, toByte (if commissioned s then s.sec.unlock else 3), toByte (b2n s.sec.lockout), toByte (b2n s.sec.idDisabled)])
  | _ => (0x83, [toByte (b2n (legacy s)), toByte (b2n s.sys.isSealed), toByte s.mbr.geometry, toByte (parityCount s)]
      ++ le 2 s.flt.group ++ [0, 0])

/-- A measurement block in the DMTF format. -/
def measurementBlock (s : State) (ix : Nat) : List Byte :=
  let m := measurement s ix
  [toByte ix, 1] ++ le 2 (m.2.length + 3) ++ [toByte m.1] ++ le 2 m.2.length ++ m.2

/-- An SPDM ERROR response. -/
def spdmError (code data : Nat) : List Byte := [0x12, 0x7F, toByte code, toByte data]

/-- The response to a request. -/
def spdmResponse (s : State) : SpdmReq → List Byte
  | .getVersion => [0x10, 0x04, 0, 0, 0, 1, 0, 0x12]
  | .getCapabilities => [0x12, 0x61, 0, 0, 0, 15, 0, 0] ++ le 4 0x16 ++ spdmFree s 8
  | .negotiateAlgorithms => layout 36 [(0, [0x12, 0x63]), (4, le 2 36), (6, [1]), (8, le 4 4), (12, le 4 0x80), (16, le 4 2)]
  | .getDigests => [0x12, 0x01, 0, 1] ++ le 48 (Config.sha384 s.sec.certs)
  | .getCertificate slot off len =>
    if slot ≠ 0 ∨ s.sec.certs.length < off then spdmError 1 0
    else
      let part := (s.sec.certs.drop off).take len
      [0x12, 0x02, 0, 0] ++ le 2 part.length ++ le 2 (s.sec.certs.length - off - part.length) ++ part
  | .challenge slot =>
    if s.sec.idDisabled then spdmError 5 0
    else if slot ≠ 0 then spdmError 1 0
    else [0x12, 0x03, 0, 1] ++ le 48 (Config.sha384 s.sec.certs) ++ spdmFree s 178
  | .getMeasurements ix sign =>
    if sign ∧ s.sec.idDisabled then spdmError 5 0
    else if 8 ≤ ix ∧ ix ≠ 255 then spdmError 1 0
    else
      let list := if ix = 0 then [] else if ix = 255 then [1, 2, 3, 4, 5, 6, 7] else [ix]
      let rec_ := list.flatMap (measurementBlock s)
      [0x12, 0x60, if ix = 0 then 7 else 0, 0, toByte list.length] ++ le 3 rec_.length ++ rec_ ++ spdmFree s 34
        ++ if sign then spdmFree s 130 else []
  | .unsupported code => spdmError 7 code

/-- An SPDM request reaches SEC: one that was not collected is discarded (R316). -/
def spdmTake (r : SpdmReq) (s : State) : State :=
  if fld s SEC_CFG 0 0 = 0 ∨ s.cst.mode = .dark ∨ s.cst.mode = .halt then s
  else { s with sec := { s.sec with spdm := .forming r } }

/-- Hand a response to a Security Receive. -/
def spdmGive (cid : Nat) (bytes : List Byte) (s : State) : State :=
  adminOk cid (hostEmit (.spdm cid bytes) { s with sec := { s.sec with spdm := .idle, spdmWait := none } })

/-- SECURITY_SEND (R314): protocol 0xE8 while SPDM_EN = 1. -/
def execSecuritySend (cid proto : Nat) (req : SpdmReq) (s : State) : Host.Outcome State Fault Refusal :=
  .next (adminCmd true cid (fun s =>
    if proto = 0xE8 ∧ fld s SEC_CFG 0 0 = 1 then adminOk cid (spdmTake req s) else adminErr cid 0 2 s) s)

/-- SECURITY_RECEIVE (R314, R316): protocol 0x00 lists the protocols; 0xE8 gives the response, or waits for it. -/
def execSecurityReceive (cid proto : Nat) (s : State) : Host.Outcome State Fault Refusal :=
  .next (adminCmd true cid (fun s =>
    if proto = 0 then adminOk cid (hostEmit (.adminData cid [0, 0, 0, 0, 0, 0, 0, 2, 0, 0xE8]) s)
    else if proto ≠ 0xE8 ∨ fld s SEC_CFG 0 0 = 0 then adminErr cid 0 2 s
    else match s.sec.spdm with
      | .ready b => spdmGive cid b s
      | _ => if s.sec.spdmWait.isSome then adminErr cid 0 0x0C s
        else { s with sec := { s.sec with spdmWait := some cid } }) s)

/-- SPDM_RECEIVE_TIMEOUT (R316): 32.768 ms have passed. -/
def execSpdmReceiveTimeout (cid : Nat) (s : State) : Host.Outcome State Fault Refusal :=
  .next (if s.sec.spdmWait = some cid then adminErr cid 0 0x0C { s with sec := { s.sec with spdmWait := none } } else s)

/-- Does a request wait for the certificate chain in bank 12 (R370)? -/
def chainWaits (s : State) : SpdmReq → Bool
  | .getCertificate _ _ _ => bankWaits s 12
  | _ => false

/-- SPDM_RESPONSE_READY (R316): formed from one snapshot; a Security Receive that waits completes. The chain's read may have to wait for its
bank (R370). -/
def execSpdmResponseReady (s : State) : Host.Outcome State Fault Refusal :=
  .next (match s.sec.spdm with
    | .forming r =>
      if chainWaits s r then s else
      let b := spdmResponse s r
      let s := drawFree s
      match s.sec.spdmWait with
      | some cid => spdmGive cid b s
      | none => { s with sec := { s.sec with spdm := .ready b } }
    | _ => s)

/-- GET_VERSION (Table 10.8). -/
def execGetVersion (s : State) : Host.Outcome State Fault Refusal := .next (spdmTake .getVersion s)

/-- GET_CAPABILITIES (Table 10.8). -/
def execGetCapabilities (s : State) : Host.Outcome State Fault Refusal := .next (spdmTake .getCapabilities s)

/-- NEGOTIATE_ALGORITHMS (Table 10.8). -/
def execNegotiateAlgorithms (s : State) : Host.Outcome State Fault Refusal := .next (spdmTake .negotiateAlgorithms s)

/-- GET_DIGESTS (Table 10.8). -/
def execGetDigests (s : State) : Host.Outcome State Fault Refusal := .next (spdmTake .getDigests s)

/-- GET_CERTIFICATE (Table 10.8): slot 0 only. -/
def execGetCertificate (slot offset len : Nat) (s : State) : Host.Outcome State Fault Refusal :=
  .next (spdmTake (.getCertificate slot offset len) (bankRead 12 2 s))

/-- CHALLENGE (Table 10.8, R316). -/
def execChallenge (slot : Nat) (s : State) : Host.Outcome State Fault Refusal := .next (spdmTake (.challenge slot) s)

/-- GET_MEASUREMENTS (R315, R316). -/
def execGetMeasurements (index : Nat) (signed : Bool) (s : State) : Host.Outcome State Fault Refusal :=
  .next (spdmTake (.getMeasurements index signed) s)

/-- Any other SPDM request: ERROR UnsupportedRequest (Table 10.8). -/
def execSpdmUnsupportedRequest (code : Nat) (s : State) : Host.Outcome State Fault Refusal :=
  .next (spdmTake (.unsupported code) s)

end Sys2Proof.Machine
end

