-- ==== Sys2Proof/Machine/Fleet.lean ====
section
/-! DEFINITION. FLT: the filter (R268), sessions (R269-R272), epochs (R275-R278), the messages of the keeper protocol (R283-R287),
resync and rebuild (R287, R289), activation (R290). -/

namespace Sys2Proof.Machine

/-! ### Peers -/

/-- The ring position of a unit: of the roster, or of the unit that a handshake outside it admits (R289). -/
def peerOf (s : State) (u : Nat) : Option Nat :=
  match posOfUnit s u with
  | some p => some p
  | none => match s.flt.candidate with | some (c, p) => if c = u then some p else none | none => none

/-- The unit of a peer's position. -/
def unitOfPeer (s : State) (p : Nat) : Nat :=
  if liveAt s p then unitAt s p
  else match s.flt.candidate with | some (c, q) => if q = p then c else 0xFFFF | none => 0xFFFF

/-- SUSPECT_MS in ns. -/
def suspectNs (s : State) : Nat := fld s FLT_HB 23 16 * 1000000

/-- FSTATE outside Isolated: Rebuilding while the replacement rebuild runs, Member otherwise. -/
def groupState (s : State) : FState := if s.flt.rebuildNext.isSome then .rebuilding else .member

/-- Acknowledge an intent as keeper (Table 9.5 step 6). -/
def ackIntent (j : Journal) (s : State) : State :=
  match posOfUnit s j.writer with
  | none => s
  | some p =>
    let s := { s with flt := { s.flt with journal := s.flt.journal.map (fun x => if x = j then { x with acked := true } else x) } }
    bump FLT_INTENT_CNT (reply p 0x21 0 j.seqNo [j.seqNo, keepFree s] s)

/-- Acknowledge every intent that is journalled and mirrored, unless Isolated or still resolving (R277, R286). -/
def ackReady (s : State) : State :=
  if s.flt.fstate = .isolated ∨ !s.flt.resolving.isEmpty then s
  else forAll (s.flt.journal.filter (fun j => j.role = .keeper && j.mirrored && !j.acked && j.delta.isSome)) ackIntent s

/-- Become Isolated while more than half of the live peers are suspected, and leave it when a majority answers again (R277). -/
def isoCheck (s : State) : State :=
  let l := livePeers s
  let bad := (l.filter (fun p => (peerAt s p).suspected)).length
  if l.length < 2 * bad then
    if s.flt.fstate = .member ∨ s.flt.fstate = .rebuilding then
      raise Ev.FLT_ISOLATED [] { s with flt := { s.flt with fstate := .isolated } }
    else s
  else if s.flt.fstate = .isolated then
    sendIntents (ackReady { s with flt := { s.flt with fstate := groupState s } })
  else s

/-! ### Epochs -/

/-- Cancel an activation that this unit holds (R290): its alarm is disarmed. -/
def cancelAct (s : State) : State :=
  match s.flt.act with
  | none => s
  | some _ => raise Ev.FLT_ACTIVATION_CANCELLED [] { s with
      flt := { s.flt with act := none }
      tck := { s.tck with alarms := s.tck.alarms.filter (fun a => a.2.2 ≠ .flt) } }

/-- Forward an entry to its relief keeper, or count it mirrored where no other unit is live. -/
def mirrorEntry (j : Journal) (s : State) : State :=
  let rel := reliefPos s j.stripe j.keeperJ
  if rel = s.flt.position then
    { s with flt := { s.flt with journal := s.flt.journal.map (fun x => if x = j then { x with mirrored := true } else x) } }
  else send rel 0x22 0 j.seqNo j.writer
    { s with flt := { s.flt with journal := s.flt.journal.map (fun x => if x = j then { x with mirrored := false } else x) } }

/-- Table 9.6 for one removed position, its unit, and the entries of this unit. -/
def peerGone (p unit : Nat) (oldRelief : Nat → Nat → Nat) (s : State) : State :=
  let s := { s with flt := { s.flt with peers := mdel s.flt.peers p, msgs := s.flt.msgs.filter (fun m => m.peer ≠ p) } }
  let keeperOf := fun (j : Journal) => elemPos s j.stripe (kOf s + j.keeperJ)
  let cmds := (s.flt.journal.filter (fun j => j.role = .own && keeperOf j = p && !j.acked)).map (·.cmd)
  let s := { s with flt := { s.flt with journal := s.flt.journal.filter (fun j => !(j.role = .own && keeperOf j = p && !j.acked)) } }
  let s := forAll cmds fleetGo s
  let s := { s with flt := { s.flt with journal := s.flt.journal.map (fun j =>
    if j.role = .keeper ∧ j.writer = unit ∧ j.st = .intended then { j with st := .done } else j) } }
  let s := forAll (s.flt.journal.filter (fun j => j.role = .keeper && oldRelief j.stripe j.keeperJ = p)) (fun j s =>
    if j.delta.isSome then mirrorEntry j s
    else markStale j.stripe j.keeperJ { s with flt := { s.flt with journal := s.flt.journal.filter (fun x => x ≠ j) } }) s
  forAll (s.flt.journal.filter (fun j => j.role = .relief && keeperOf j = p)) (fun j s =>
    match posOfUnit s j.writer with
    | some w => if w = s.flt.position then s else send w 0x30 0 j.seqNo 0 s
    | none => { s with flt := { s.flt with journal := s.flt.journal.filter (fun x => x ≠ j) } }) s

/-- Apply an epoch (R276): the roster, the sessions of removed units, the entries of Table 9.6; a unit left out is Fenced (R277). -/
def applyEpoch (e : Nat) (roster : List RosterEntry) (s : State) : State :=
  let old := s.flt.roster
  let kept := fun (u : Nat) => roster.any (fun x => x.unitId = u)
  if !kept s.flt.unitId then
    let s := raise Ev.FLT_FENCED [] (cancelAct { s with flt := { s.flt with
      fstate := .fenced, epoch := e, roster := roster, peers := [], msgs := [], proposal := none, recorded := none } })
    modeCheck (fenceAll s)
  else
    let gone := old.filter (fun x => !kept x.unitId)
    let rel := fun (stripe j : Nat) => reliefPos s stripe j
    let s := { s with flt := { s.flt with
      epoch := e, roster := roster
      proposal := match s.flt.proposal with | some p => if p.epoch ≤ e then none else some p | none => none
      recorded := match s.flt.recorded with | some p => if p.1 ≤ e then none else some p | none => none
      candidate := match s.flt.candidate with | some c => if kept c.1 then none else some c | none => none } }
    let s := raise Ev.FLT_EPOCH_COMMITTED (le 8 e) (cancelAct s)
    let s := asyncEvent 7 1 0xC4 s
    let s := forAll gone (fun x s => peerGone x.position x.unitId rel s) s
    let s := match s.flt.fstate with
      | .forming =>
        let s := { s with flt := { s.flt with fstate := .member } }
        match s.flt.pendingForm with
        | some (src, tag) => complete src tag 0 ([3, 0, 0, 0] ++ le 8 e) [] { s with flt := { s.flt with pendingForm := none } }
        | none => s
      | _ => s
    let s := match s.flt.pendingDeclare with
      | some (src, tag, p) => if liveAt s p then s else
          complete src tag 0 ([toByte s.flt.fstate.code, 0, 0, 0] ++ le 8 e) [] { s with flt := { s.flt with pendingDeclare := none } }
      | none => s
    fleetStep (sendIntents (modeCheck (isoCheck s)))

/-- Commit a proposal that has its majority: EPOCH_COMMIT goes to every unit of the new roster. -/
def commitEpoch (e : Nat) (roster : List RosterEntry) (s : State) : State :=
  let s := applyEpoch e roster s
  forAll (livePeers s) (fun p s => send p 0x14 0 0 0 s) s

/-- The roster after a change; a unit admitted has the addresses of no entry, which FLT resolves itself (R268). -/
def changedRoster (s : State) (c : Change) : List RosterEntry :=
  let l := s.flt.roster.filter (fun e => !c.removed.contains e.position)
  match c.added with
  | some (u, p) => l.filter (fun e => e.position ≠ p) ++ [{ unitId := u, position := p, addrA := 0, addrB := 0 }]
  | none => l

/-- Commit the own proposal at a majority of the units live in the epoch. -/
def proposalCheck (s : State) : State :=
  match s.flt.proposal with
  | some p => if p.own ∧ s.flt.roster.length / 2 + 1 ≤ p.accepts.length then
      commitEpoch p.epoch (changedRoster s p.change)
        { s with flt := { s.flt with msgs := s.flt.msgs.filter (fun m => m.kind ≠ 0x12) } } else s
  | none => s

/-- propose(e, change) of R276. -/
def propose (e : Nat) (c : Change) (s : State) : State :=
  let s := { s with flt := { s.flt with
    msgs := s.flt.msgs.filter (fun m => m.kind ≠ 0x12)
    proposal := some { epoch := e, change := c, accepts := [s.flt.position], own := true } } }
  proposalCheck (sendAll 0x12 e s)

/-- Has the unit heard nothing from a position for half of SUSPECT_MS (R276)? -/
def silentHalf (s : State) (p : Nat) : Bool := (peerAt s p).heardNow * 2 + suspectNs s ≤ s.tck.now * 2

/-- Does this unit propose removals: the leader, or the next live position if the leader is suspected (R276)? -/
def proposes (s : State) : Bool :=
  leads s || ((peerAt s (leaderPos s)).suspected && nextLive s (leaderPos s) = s.flt.position)

/-- Propose the removal of suspected positions. -/
def proposeRemoval (ps : List Nat) (s : State) : State :=
  let l := ps.filter (fun p => p ≠ s.flt.position && liveAt s p && silentHalf s p)
  if l.isEmpty ∨ s.flt.proposal.isSome ∨ !proposes s ∨ !inGroup s then s
  else propose (s.flt.epoch + 1) { removed := l, added := none } s

/-! ### Handshakes -/

/-- May the unit take part in handshakes: enrolled with a roster, fleet time set (R269)? -/
def hsOpenTo (s : State) : Bool := s.flt.fstate ≠ .none && s.flt.fstate ≠ .enrolled && s.flt.fstate ≠ .fenced

/-- Start a handshake as initiator: the unit with the lower ID, and a replacement, which the others' rosters do not name yet. -/
def startHs (p : Nat) (s : State) : State :=
  let u := unitOfPeer s p
  if !hsOpenTo s ∨ !s.tck.timeSet ∨ !portUp s ∨ (peerAt s p).hsOpen ∨ u = 0xFFFF ∨ p = s.flt.position
    ∨ !(s.flt.unitId < u ∨ s.flt.replacing) then s
  else emit (.handshake (portFor s 0x01 0) u 0x01) (setPeer p (fun x => { x with hsOpen := true, newSession := 0 }) s)

/-- Start the handshakes with every peer that has no session. -/
def startAllHs (s : State) : State :=
  forAll (livePeers s) (fun p s => if (peerAt s p).session = 0 then startHs p s else s) s

/-- A check of a handshake failed: the attempt ends. -/
def hsFail (p check : Nat) (s : State) : State :=
  raise Ev.FLT_HANDSHAKE_FAIL ([toByte check] ++ le 2 (unitOfPeer s p))
    (setPeer p (fun x => { x with hsOpen := false, newSession := 0, hsFails := x.hsFails + 1 }) s)

/-- Ask for what is unresolved with a unit whose session has just opened (R286): the keeper asks the relief for Δ and the data
unit for the outcome. -/
def resolveWith (p : Nat) (fresh : Bool) (s : State) : State :=
  forAll (s.flt.journal.filter (fun j => j.role = .keeper)) (fun j s =>
    let rel := j.delta.isNone && reliefPos s j.stripe j.keeperJ = p
    let wr := posOfUnit s j.writer = some p && j.st = .intended && (j.delta.isNone || fresh)
    if rel || wr then send p 0x30 0 j.seqNo 0 s else s) s

/-- A session opens with a peer (Table 9.4 step 4, R271). -/
def openSession (p : Nat) (f : Tfp) (b : ConfirmBody) (s : State) : State :=
  let fresh := (peerAt s p).session = 0
  let s := setPeer p (fun x => { x with
    oldSession := x.session, oldHigh := x.seqHigh, oldSeen := x.seqSeen
    session := f.session, newSession := 0, seqHigh := f.seq, seqSeen := [f.seq], sent := 0, expired := 0, suspected := false
    heard := s.tck.fleet, heardNow := s.tck.now, rosterHash := b.rosterHash, sliceSegs := b.sliceSegs, confirmed := true
    hsOpen := false, hsFails := 0 }) s
  let s := raise Ev.FLT_SESSION_OPEN (le 2 f.src) (bump FLT_SESSION_CNT s)
  let s := resolveWith p fresh s
  let all := (livePeers s).all (fun q => (peerAt s q).session ≠ 0 && (peerAt s q).confirmed && (peerAt s q).rosterHash = rosterHash s)
  if s.flt.fstate = .forming ∧ !s.flt.replacing ∧ s.flt.position = 0 ∧ all then commitEpoch 1 s.flt.roster s
  else match s.flt.candidate with
    | some (u, q) =>
      if q = p ∧ leads s ∧ inGroup s ∧ s.flt.proposal.isNone then propose (s.flt.epoch + 1) { removed := [], added := some (u, q) } s else s
    | none => s

/-! ### The filter (R268) -/

/-- The parts of the filter that every TFP frame must pass. -/
def headOk (s : State) (f : Tfp) : Bool :=
  f.addrOk && f.version = 1 && f.dst = s.flt.unitId && f.group = s.flt.group && s.flt.fstate ≠ .none && portUp s

/-- Count a frame that the filter drops. -/
def filterDrop (s : State) : State := bump FLT_FILTER_DROP_CNT s

/-- Is a SEQ acceptable after those received? -/
def seqOk (high : Nat) (seen : List Nat) (n : Nat) : Bool := high ≤ n + 4096 && !seen.contains n

/-- Note a SEQ as received: those more than 4,096 below the highest need no note. -/
def noteSeq (seen : List Nat) (high n : Nat) : List Nat := (seen.filter (fun x => Nat.max high n ≤ x + 4096)) ++ [n]

/-- Receive a frame of a session and act on the message it carries. `anyEpoch`: a message that a unit of an older epoch sends
by its purpose. -/
def receive (f : Tfp) (anyEpoch : Bool) (act : Nat → State → State) (s : State) : State :=
  if !s.cst.mode.runs then s
  else match peerOf s f.src with
  | none => filterDrop s
  | some p =>
    let x := peerAt s p
    let cur := f.session = x.session
    if !headOk s f ∨ f.session = 0 ∨ !(cur ∨ f.session = x.oldSession) ∨ !f.tagOk then filterDrop s
    else if !(if cur then seqOk x.seqHigh x.seqSeen f.seq else seqOk x.oldHigh x.oldSeen f.seq) then bump FLT_REPLAY_DROP_CNT s
    else
      let s := setPeer p (fun x =>
        let x := { x with heard := s.tck.fleet, heardNow := s.tck.now, suspected := false }
        if cur then { x with seqHigh := Nat.max x.seqHigh f.seq, seqSeen := noteSeq x.seqSeen x.seqHigh f.seq }
        else { x with oldHigh := Nat.max x.oldHigh f.seq, oldSeen := noteSeq x.oldSeen x.oldHigh f.seq }) s
      let s := isoCheck s
      if f.epoch < s.flt.epoch ∧ !anyEpoch then bump FLT_STALE_EPOCH_CNT s
      else
        let s := if s.flt.epoch < f.epoch ∧ !anyEpoch ∧ !(s.flt.msgs.any (fun m => m.kind = 0x15 && m.peer = p)) then send p 0x15 0 0 0 s else s
        if f.whole then act p s else s

/-- A message that a journal or epoch entry in MRAM answers: past the cut-off of Table 13.7 the entry waits, and the sender asks again
(R273, R407). -/
def receiveDurable (f : Tfp) (act : Nat → State → State) (s : State) : State :=
  receive f false (fun p s => doIf (!s.thm.mramCut) (act p) s) s

/-- The message that a received one answers, by REF. -/
def answeredBy (f : Tfp) (s : State) : Option Msg := s.flt.msgs.find? (fun m => m.id = f.ref)

/-- An answer has come from a peer: its window ends (R273), no count of windows without an answer runs on (R275). -/
def answer (p : Nat) (q : Msg → Bool) (s : State) : State := settle q (setPeer p (fun x => { x with expired := 0 }) s)

/-- Does a handshake frame pass: fewer than FLT_HS_RATE have passed in this second? -/
def hsPass (f : Tfp) (s : State) : Bool × State :=
  let sec := s.tck.now / 1000000000
  let n := if s.flt.hsSecond = sec then s.flt.hsCount else 0
  if !headOk s f ∨ f.session ≠ 0 ∨ !f.whole ∨ fld s FLT_HS_RATE 15 0 ≤ n then (false, filterDrop s)
  else (true, { s with flt := { s.flt with hsSecond := sec, hsCount := n + 1 } })

/-- ARP_NDP_FRAME (R268): answered for the port's own address. -/
def execArpNdpFrame (port : Nat) (own : Bool) (s : State) : Host.Outcome State Fault Refusal :=
  .next (if !s.cst.mode.runs then s
  else if own ∧ ((port = 0 ∧ s.flt.ports.1.st = .up) ∨ (port = 1 ∧ s.flt.ports.2.st = .up)) then emit (.arp port) s
  else filterDrop s)

/-- HELLO (Table 9.4 step 2): a unit outside the roster is answered while a ring position is vacant (R289). -/
def execHello (f : Tfp) (c : HsChecks) (s : State) : Host.Outcome State Fault Refusal :=
  .next (if !s.cst.mode.runs then s
  else
    let r := hsPass f s
    let s := r.2
    if !r.1 ∨ !hsOpenTo s then s
    else if !s.tck.timeSet then raise Ev.FLT_TIME_NOT_SET [] s
    else
      let vacant := (List.range s.flt.n).find? (fun p => !liveAt s p)
      let s := match posOfUnit s f.src, vacant with
        | none, some p => if inGroup s then { s with flt := { s.flt with candidate := some (f.src, p) } } else s
        | _, _ => s
      match peerOf s f.src with
      | none => raise Ev.FLT_HANDSHAKE_FAIL ([4] ++ le 2 f.src) s
      | some p =>
        if !c.certOk then hsFail p 1 s
        else if !c.sigOk then hsFail p 2 s
        else if !c.idOk ∨ (liveAt s p ∧ s.flt.unitId < f.src) then hsFail p 3 s
        else emit (.handshake (portFor s 0x02 0) f.src 0x02) (setPeer p (fun x => { x with hsOpen := true, newSession := 0 }) s))

/-- HELLO_REPLY (Table 9.4 step 3). -/
def execHelloReply (f : Tfp) (c : HsChecks) (s : State) : Host.Outcome State Fault Refusal :=
  .next (if !s.cst.mode.runs then s
  else
    let r := hsPass f s
    let s := r.2
    if !r.1 ∨ !hsOpenTo s then s
    else if !s.tck.timeSet then raise Ev.FLT_TIME_NOT_SET [] s
    else match peerOf s f.src with
      | none => raise Ev.FLT_HANDSHAKE_FAIL ([4] ++ le 2 f.src) s
      | some p =>
        if !(peerAt s p).hsOpen then s
        else if !c.certOk then hsFail p 1 s
        else if !c.sigOk then hsFail p 2 s
        else if !c.idOk then hsFail p 3 s
        else if c.secvers.any (fun v => v < fld s FLT_MIN_SECVER 5 0) then hsFail p 5 s
        else
          let n := s.flt.nextSession
          send p 0x03 0 0 0 (setPeer p (fun x => { x with newSession := n }) { s with flt := { s.flt with nextSession := n + 1 } }))

/-- CONFIRM (Table 9.4 steps 3 and 4): it opens the session; one received again is answered again. -/
def execConfirm (f : Tfp) (b : ConfirmBody) (s : State) : Host.Outcome State Fault Refusal :=
  .next (if !s.cst.mode.runs then s
  else match peerOf s f.src with
  | none => filterDrop s
  | some p =>
    let x := peerAt s p
    if f.session ≠ 0 ∧ f.session = x.session then receive f true (fun p s =>
      if (answeredBy f s).isSome then answer p (fun m => m.id = f.ref) s
      else if f.ref = 0 then reply p 0x03 f.msgId 0 (msgBody s p 0x03 0 0) s else s) s
    else if !headOk s f ∨ f.session = 0 ∨ !f.tagOk ∨ !f.whole ∨ !x.hsOpen ∨ (x.newSession ≠ 0 ∧ f.session ≠ x.newSession) then filterDrop s
    else if b.secvers.any (fun v => v < fld s FLT_MIN_SECVER 5 0) then hsFail p 5 s
    else
      let responder := x.newSession = 0
      let s := openSession p f b (answer p (fun m => m.kind = 0x03 && m.peer = p) s)
      if responder then reply p 0x03 f.msgId 0 (msgBody s p 0x03 0 0) s else s)

/-- HANDSHAKE_TIMEOUT (R270). -/
def execHandshakeTimeout (position : Nat) (s : State) : Host.Outcome State Fault Refusal :=
  .next (if (peerAt s position).hsOpen then
    settle (fun m => m.kind = 0x03 && m.peer = position)
      (setPeer position (fun x => { x with hsOpen := false, newSession := 0, hsFails := x.hsFails + 1 }) s)
  else s)

/-- HANDSHAKE_RETRY (R270). -/
def execHandshakeRetry (position : Nat) (s : State) : Host.Outcome State Fault Refusal :=
  .next (if s.cst.mode.runs ∧ (peerAt s position).session = 0 ∧ liveAt s position then startHs position s else s)

/-- SESSION_REKEY (R271): a new handshake before the session ends. -/
def execSessionRekey (position : Nat) (s : State) : Host.Outcome State Fault Refusal :=
  .next (if s.cst.mode.runs ∧ (peerAt s position).session ≠ 0 ∧ liveAt s position then startHs position s else s)

/-- OLD_SESSION_EXPIRY (R271). -/
def execOldSessionExpiry (position : Nat) (s : State) : Host.Outcome State Fault Refusal :=
  .next (if (peerAt s position).oldSession ≠ 0 then
    setPeer position (fun x => { x with oldSession := 0, oldHigh := 0, oldSeen := [] }) s else s)

/-! ### Heartbeats and suspicion -/

/-- The leader draws FNK at the first BIND and sends it to the units that have bound a slice (R281, R313). -/
def fnkStep (s : State) : State :=
  if !leads s ∨ !inGroup s ∨ !(s.flt.slice.isSome || (livePeers s).any (fun p => (peerAt s p).sliceSegs ≠ 0)) then s
  else
    let s := if s.flt.fnk ≠ 0 then s else
      keyRecord { s with flt := { s.flt with fnk := s.sec.draws, fnkHeld := [] }, sec := { s.sec with draws := s.sec.draws + 1 } }
    forAll ((livePeers s).filter (fun p => (peerAt s p).session ≠ 0 && !s.flt.fnkHeld.contains p
      && !(s.flt.msgs.any (fun m => m.kind = 0x60 && m.peer = p)))) (fun p s => send p 0x60 0 0 0 s) s

/-- HEARTBEAT (R272, R274, R275). -/
def execHeartbeat (f : Tfp) (credit : Nat) (activating : Bool) (sliceSegs : Nat) (s : State) : Host.Outcome State Fault Refusal :=
  .next (receive f false (fun p s =>
    fnkStep (sendIntents (setPeer p (fun x => { x with
      credit := credit, activating := activating, actHeard := s.tck.now, sliceSegs := sliceSegs }) s))) s)

/-- HEARTBEAT_SEND (R275): to every live peer with which a session is open. -/
def execHeartbeatSend (s : State) : Host.Outcome State Fault Refusal :=
  .next (if s.cst.mode.runs ∧ inGroup s then
    forAll ((livePeers s).filter (fun p => (peerAt s p).session ≠ 0)) (fun p s => send p 0x10 0 0 0 s) s
  else s)

/-- SUSPECT (R275, R276): the unit that proposes acts on it. -/
def execSuspect (f : Tfp) (positions : List Nat) (s : State) : Host.Outcome State Fault Refusal :=
  .next (receive f false (fun _ s => proposeRemoval positions s) s)

/-- PEER_SUSPECT (R275): silent for SUSPECT_MS, or 8 windows without an answer; not within the grace of an activation. -/
def execPeerSuspect (position : Nat) (s : State) : Host.Outcome State Fault Refusal :=
  .next (
    let x := peerAt s position
    let grace := x.activating && decide (s.tck.now < x.actHeard + fld s FLT_ACT_GRACE 7 0 * 1000000000)
    if !s.cst.mode.runs ∨ !inGroup s ∨ !(livePeers s).contains position ∨ x.suspected ∨ grace
      ∨ !(x.heardNow + suspectNs s ≤ s.tck.now ∨ 8 ≤ x.expired) then s
    else
      let s := raise Ev.FLT_PEER_SUSPECT [toByte position] (setPeer position (fun x => { x with suspected := true }) s)
      let to_ := if (peerAt s (leaderPos s)).suspected then nextLive s (leaderPos s) else leaderPos s
      let s := isoCheck s
      if to_ = s.flt.position then proposeRemoval ((livePeers s).filter (fun p => (peerAt s p).suspected)) s else send to_ 0x11 0 0 0 s)

/-! ### Epoch messages -/

/-- EPOCH_PROPOSE (R276): recorded in MRAM and accepted once for each epoch; received twice it is answered once more. -/
def execEpochPropose (f : Tfp) (epoch : Nat) (c : Change) (s : State) : Host.Outcome State Fault Refusal :=
  .next (receiveDurable f (fun p s =>
    let fresh : Bool := match s.flt.recorded with | some (e, _) => decide (e < epoch) | none => true
    let own : Bool := match s.flt.proposal with | some q => decide (epoch ≤ q.epoch) | none => false
    if s.flt.recorded = some (epoch, c) then reply p 0x13 f.msgId epoch [epoch] s
    else if s.flt.epoch < epoch ∧ inGroup s ∧ fresh ∧ !own ∧ !c.removed.contains s.flt.position ∧ c.removed.all (silentHalf s) then
      reply p 0x13 f.msgId epoch [epoch] { s with flt := { s.flt with recorded := some (epoch, c) } }
    else s) s)

/-- EPOCH_ACCEPT (R276): counted; a majority commits. -/
def execEpochAccept (f : Tfp) (epoch : Nat) (s : State) : Host.Outcome State Fault Refusal :=
  .next (receive f false (fun p s =>
    match s.flt.proposal with
    | some q =>
      if q.own ∧ q.epoch = epoch then
        proposalCheck (answer p (fun m => m.kind = 0x12 && m.peer = p)
          { s with flt := { s.flt with proposal := some { q with accepts := addTo q.accepts p } } })
      else s
    | none => s) s)

/-- EPOCH_COMMIT (R276, R278): applied when it is received, for an epoch above the unit's own. -/
def execEpochCommit (f : Tfp) (epoch : Nat) (roster : List RosterEntry) (s : State) : Host.Outcome State Fault Refusal :=
  .next (receive f true (fun p s =>
    let s := answer p (fun m => m.kind = 0x15 && m.peer = p) s
    if s.flt.epoch < epoch ∧ (inGroup s ∨ s.flt.fstate = .forming) then applyEpoch epoch roster s else s) s)

/-- EPOCH_QUERY (R276): answered with the current EPOCH_COMMIT. -/
def execEpochQuery (f : Tfp) (s : State) : Host.Outcome State Fault Refusal :=
  .next (receive f true (fun p s => reply p 0x14 f.msgId 0 (msgBody s p 0x14 0 0) s) s)

/-- EPOCH_PROPOSE_RETRY (R276): without a majority after 10 ms × (1 + own position) the change is proposed for the next epoch. -/
def execEpochProposeRetry (s : State) : Host.Outcome State Fault Refusal :=
  .next (match s.flt.proposal with
    | some p => if p.own ∧ s.cst.mode.runs then propose (p.epoch + 1) p.change s else s
    | none => s)

/-! ### Messages that wait for an answer -/

/-- RETRANSMIT (R273): every frame of the message again. -/
def execRetransmit (msgId : Nat) (s : State) : Host.Outcome State Fault Refusal :=
  .next (match s.flt.msgs.find? (fun m => m.id = msgId) with
    | some m => if s.cst.mode.runs then
        if carries s m.peer m.kind then
          bump FLT_RETX_CNT (transmit m.peer m.kind m.id 0 m.seqNo (msgBody s m.peer m.kind m.seqNo m.part) s) else s
      else s
    | none => s)

/-- WINDOW_EXPIRED (R273): counted, and a new window starts. -/
def execWindowExpired (msgId : Nat) (s : State) : Host.Outcome State Fault Refusal :=
  .next (match s.flt.msgs.find? (fun m => m.id = msgId) with
    | some m => if s.cst.mode.runs then
        raise Ev.FLT_WINDOW_EXPIRED [toByte m.peer] (bump FLT_WINDOW_EXPIRE_CNT
          (setPeer m.peer (fun x => { x with expired := x.expired + 1, expiredTotal := x.expiredTotal + 1 }) s)) else s
    | none => s)

/-! ### The keeper protocol -/

/-- Answer BUSY (R274). -/
def answerBusy (p msgId seqNo : Nat) (s : State) : State :=
  raise Ev.FLT_KEEPER_BUSY [] (bump FLT_BUSY_CNT (reply p 0x26 msgId seqNo [seqNo] s))

/-- INTENT (Table 9.5 steps 3 and 4): refused with BUSY for want of buffer or entries, on a locked stripe, while entries are
unresolved, and for a stripe not yet rebuilt. -/
def execIntent (f : Tfp) (b : IntentBody) (s : State) : Host.Outcome State Fault Refusal :=
  .next (receiveDurable f (fun p s =>
    let e := posElem s b.stripe s.flt.position
    if f.epoch ≠ s.flt.epoch ∨ s.flt.slice.isNone ∨ e < kOf s ∨ posElem s b.stripe p ≠ b.index ∨ kOf s ≤ b.index
      ∨ s.flt.fstate = .isolated ∨ b.delta.length ≠ b.count ∨ 4096 < b.offset + b.count then s
    else match s.flt.journal.find? (fun j => j.role = .keeper && j.writer = f.src && j.seqNo = b.seqNo) with
      | some j => if j.acked then reply p 0x21 f.msgId b.seqNo [b.seqNo, keepFree s] s else s
      | none =>
        if keepFree s < b.count * 4096 ∨ 65536 ≤ s.flt.journal.length ∨ s.flt.locks.contains b.stripe ∨ !s.flt.resolving.isEmpty
          ∨ notRebuilt s b.stripe then answerBusy p f.msgId b.seqNo s
        else
          let j : Journal := { role := .keeper, st := .intended, writer := f.src, seqNo := b.seqNo, stripe := b.stripe, offset := b.offset
                               count := b.count, index := b.index, keeperJ := e - kOf s, epoch := s.flt.epoch, delta := some b.delta }
          ackReady (mirrorEntry j { s with flt := { s.flt with journal := s.flt.journal ++ [j] } })) s)

/-- INTENT_ACK (Table 9.5 step 7): once every live keeper has acknowledged, the new data is programmed. -/
def execIntentAck (f : Tfp) (seqNo credit : Nat) (s : State) : Host.Outcome State Fault Refusal :=
  .next (receive f false (fun p s =>
    let mine := fun (j : Journal) => j.role = .own && j.seqNo = seqNo && elemPos s j.stripe (kOf s + j.keeperJ) = p
    let cmds := (s.flt.journal.filter (fun j => mine j && !j.acked)).map (·.cmd)
    let s := answer p (fun m => m.kind = 0x20 && m.seqNo = seqNo && m.peer = p)
      (setPeer p (fun x => { x with credit := credit })
        { s with flt := { s.flt with journal := s.flt.journal.map (fun j => if mine j then { j with acked := true } else j) } })
    sendIntents (forAll cmds fleetGo s)) s)

/-- BUSY (R274): the intent is sent again 10 µs later. -/
def execBusy (f : Tfp) (seqNo : Nat) (s : State) : Host.Outcome State Fault Refusal :=
  .next (receive f false (fun p s =>
    if s.flt.msgs.any (fun m => m.kind = 0x20 && m.seqNo = seqNo && m.peer = p) then
      answer p (fun m => m.kind = 0x20 && m.seqNo = seqNo && m.peer = p) { s with flt := { s.flt with resends := addTo s.flt.resends seqNo } }
    else s) s)

/-- INTENT_RESEND (R274). -/
def execIntentResend (seqNo : Nat) (s : State) : Host.Outcome State Fault Refusal :=
  .next (if s.cst.mode.runs then sendIntents { s with flt := { s.flt with resends := dropFrom s.flt.resends seqNo } } else s)

/-- MIRROR (Table 9.5 step 5, Table 9.6): the relief journals the entry and keeps Δ; a restarted keeper takes back its Δ, or
learns that the relief has none, and the element is Stale. -/
def execMirror (f : Tfp) (keeperIndex writer : Nat) (b : IntentBody) (s : State) : Host.Outcome State Fault Refusal :=
  .next (receiveDurable f (fun p s =>
    match s.flt.journal.find? (fun j => j.role = .keeper && j.writer = writer && j.seqNo = b.seqNo && j.delta.isNone) with
    | some j =>
      let s := answer p (fun m => m.kind = 0x30 && m.seqNo = b.seqNo && m.peer = p) s
      if b.delta.length = j.count then
        let s := { s with flt := { s.flt with
          journal := s.flt.journal.map (fun x => if x = j then { x with delta := some b.delta, mirrored := true } else x)
          resolving := if j.st = .done then dropFrom s.flt.resolving b.seqNo else s.flt.resolving } }
        fleetStep (ackReady s)
      else
        let s := { s with flt := { s.flt with
          journal := s.flt.journal.filter (fun x => x ≠ j), resolving := dropFrom s.flt.resolving b.seqNo } }
        markStale j.stripe j.keeperJ (ackReady s)
    | none =>
      if b.delta.length ≠ b.count ∨ f.epoch ≠ s.flt.epoch then s
      else if s.flt.journal.any (fun j => j.role = .relief && j.writer = writer && j.seqNo = b.seqNo && j.keeperJ = keeperIndex) then
        reply p 0x23 f.msgId b.seqNo [writer, b.seqNo] s
      else if keepFree s < b.count * 4096 ∨ 65536 ≤ s.flt.journal.length then s
      else
        let j : Journal := { role := .relief, st := .intended, writer := writer, seqNo := b.seqNo, stripe := b.stripe, offset := b.offset
                             count := b.count, index := b.index, keeperJ := keeperIndex, epoch := s.flt.epoch, delta := some b.delta }
        reply p 0x23 f.msgId b.seqNo [writer, b.seqNo] { s with flt := { s.flt with journal := s.flt.journal ++ [j] } }) s)

/-- MIRROR_ACK (Table 9.5 step 6). -/
def execMirrorAck (f : Tfp) (writer seqNo : Nat) (s : State) : Host.Outcome State Fault Refusal :=
  .next (receive f false (fun p s =>
    let s := answer p (fun m => m.kind = 0x22 && m.seqNo = seqNo && m.part = writer && m.peer = p) s
    ackReady { s with flt := { s.flt with journal := s.flt.journal.map (fun j =>
      if j.role = .keeper ∧ j.writer = writer ∧ j.seqNo = seqNo ∧ reliefPos s j.stripe j.keeperJ = p then { j with mirrored := true } else j) } }) s)

/-- DONE (Table 9.5 step 8): the keeper folds Δ into its parity. -/
def execDone (f : Tfp) (seqNo : Nat) (s : State) : Host.Outcome State Fault Refusal :=
  .next (receiveDurable f (fun _ s =>
    fleetStep { s with flt := { s.flt with journal := s.flt.journal.map (fun j =>
      if j.role = .keeper ∧ j.writer = f.src ∧ j.seqNo = seqNo ∧ j.st = .intended then { j with st := .done } else j) } }) s)

/-- RETIRE (Table 9.5 step 9): from the keeper of an entry, or from the relief that ended it. -/
def execRetire (f : Tfp) (writer seqNo : Nat) (s : State) : Host.Outcome State Fault Refusal :=
  .next (receive f false (fun p s =>
    let mine := fun (j : Journal) => j.writer = writer && j.seqNo = seqNo && j.role ≠ .keeper
      && (elemPos s j.stripe (kOf s + j.keeperJ) = p || (reliefPos s j.stripe j.keeperJ = p && !liveAt s (elemPos s j.stripe (kOf s + j.keeperJ))))
    { s with flt := { s.flt with journal := s.flt.journal.filter (fun j => !mine j) } }) s)

/-- RESOLVE (R286): the data unit answers whether its write was programmed; the relief of a restarted keeper returns Δ. -/
def execResolve (f : Tfp) (seqNo : Nat) (s : State) : Host.Outcome State Fault Refusal :=
  .next (receive f false (fun p s =>
    let rel := s.flt.journal.find? (fun j => j.role = .relief && j.seqNo = seqNo && elemPos s j.stripe (kOf s + j.keeperJ) = p)
    let own := s.flt.journal.filter (fun j => j.role = .own && j.seqNo = seqNo)
    let s := match rel with
      | some j => reply p 0x22 f.msgId seqNo ([j.keeperJ, j.writer, j.seqNo, j.stripe, j.offset, j.count, j.index]
          ++ (j.delta.getD []).map BitVec.toNat) s
      | none => s
    if own.isEmpty ∧ rel.isSome then s
    else reply p 0x31 f.msgId seqNo [s.flt.unitId, seqNo, b2n (own.all (fun j => j.st = .programmed))] s) s)

/-- RESOLVE_REPLY (R286): PROGRAMMED folds or completes the entry, NOT_PROGRAMMED discards it. -/
def execResolveReply (f : Tfp) (writer seqNo : Nat) (programmed : Bool) (s : State) : Host.Outcome State Fault Refusal :=
  .next (receiveDurable f (fun p s =>
    let s := answer p (fun m => m.kind = 0x30 && m.seqNo = seqNo && m.peer = p)
      { s with flt := { s.flt with resolving := dropFrom s.flt.resolving seqNo } }
    if writer ≠ f.src then ackReady s
    else match s.flt.journal.find? (fun j => j.role ≠ .own && j.writer = writer && j.seqNo = seqNo) with
      | none => ackReady s
      | some j =>
        let drop := fun (s : State) => { s with flt := { s.flt with journal := s.flt.journal.filter (fun x => x ≠ j) } }
        if j.role = .keeper then
          if programmed then
            fleetStep (ackReady { s with flt := { s.flt with journal := s.flt.journal.map (fun x => if x = j then { x with st := .done } else x) } })
          else
            let rel := reliefPos s j.stripe j.keeperJ
            let s := drop s
            let s := if rel = s.flt.position then s else send rel 0x25 0 seqNo writer s
            ackReady (send p 0x25 0 seqNo writer s)
        else send p 0x25 0 seqNo writer (drop s)) s)

/-! ### Elements -/

/-- READ_REQ (R282, R288): the element is answered from the own slice, through D slots. -/
def execReadReq (f : Tfp) (stripe offset count element : Nat) (s : State) : Host.Outcome State Fault Refusal :=
  .next (receive f false (fun p s =>
    if s.flt.slice.isNone ∨ posElem s stripe s.flt.position ≠ element ∨ 4096 < offset + count ∨ 4096 * s.flt.sliceSegs ≤ stripe * 4096 then
      sendData p f.msgId stripe none s
    else fleetStep (serve p f.msgId stripe offset count element s)) s)

/-- READ_DATA (R282): an element for a proxy read, a resync or a rebuild. -/
def execReadData (f : Tfp) (stripe offset element : Nat) (data : Option (List Block)) (s : State) : Host.Outcome State Fault Refusal :=
  .next (receive f false (fun p s =>
    match answeredBy f s with
    | some m =>
      if m.kind ≠ 0x40 ∨ m.peer ≠ p ∨ m.part ≠ element then s
      else
        let okData := match mget s.flt.gathers m.seqNo with
          | some g => if g.stripe = stripe ∧ g.offset = offset ∧ (data.map List.length = some g.count) then data else none
          | none => none
        fleetStep (takeElem m.seqNo element okData (answer p (fun x => x.id = m.id) s))
    | none => s) s)

/-- RESYNC_READ_START (R287): the keeper of a locked Stale stripe, holding no entry for it, reads. -/
def execResyncReadStart (stripe element : Nat) (s : State) : Host.Outcome State Fault Refusal :=
  .next (
    let listed := s.flt.stale.any (fun x => x.1 = stripe && kOf s + x.2.1 = element && !x.2.2)
    if !s.cst.mode.runs ∨ !inGroup s ∨ s.flt.slice.isNone ∨ !listed ∨ elemPos s stripe element ≠ s.flt.position
      ∨ !s.flt.locks.contains stripe ∨ s.flt.resyncs.any (fun r => r.2.stripe = stripe)
      ∨ s.flt.journal.any (fun j => j.role = .keeper && j.stripe = stripe) then s
    else
      let key := s.flt.gather
      fleetStep (resyncRead key { s with flt := { s.flt with
        gather := key + 1, resyncs := mput s.flt.resyncs key { stripe := stripe, element := element, rebuild := false } } }))

/-- The next stripe of the replacement rebuild, in ascending order, one that a host write waits for first (R289). -/
def nextStripe (s : State) : Option Nat :=
  let left := fun n => !s.flt.rebuilt.contains n
  match s.flt.rebuildFirst.find? left with
  | some n => some n
  | none => ((List.range (s.flt.sliceSegs - s.flt.rebuildNext.getD 0)).map (· + s.flt.rebuildNext.getD 0)).find? left

/-- Carry the replacement rebuild on: one stripe at a time under its lock; after the last one the unit is a Member (R289). -/
def fleetRebuildStep (s : State) : State :=
  if s.flt.fstate ≠ .rebuilding ∨ s.flt.slice.isNone ∨ s.flt.fnk = 0 ∨ s.flt.resyncs.any (fun r => r.2.rebuild) then s
  else match nextStripe s with
    | some n =>
      let key := s.flt.gather
      resyncRead key { s with flt := { s.flt with
        gather := key + 1, locks := addTo s.flt.locks n
        resyncs := mput s.flt.resyncs key { stripe := n, element := posElem s n s.flt.position, rebuild := true } } }
    | none => modeCheck (asyncEvent 7 1 0xC4 (raise Ev.FLT_REBUILD_COMPLETE [] { s with flt := { s.flt with
        fstate := .member, rebuildNext := none, rebuilt := [], rebuildFirst := [], replacing := false } }))

/-! ### Activation (R290) -/

/-- Does the unit hold an image, committed, by the SHA-384 over manifest and body? -/
def holdsImage (s : State) (digest : Nat) : Option Nat :=
  ([2, 3, 4, 5] : List Nat).find? (fun slot => match s.cst.slots[slot - 1]? with
    | some x => (x.st = .committed || x.st = .confirmed) && (x.img.map (·.full)) = some digest
    | none => false)

/-- Arm this unit for a fleet activation: TCK alarm 3. -/
def armFleet (time digest : Nat) (leader : Bool) (s : State) : State :=
  raise Ev.FLT_ACTIVATION_ARMED (le 8 time) { s with
    flt := { s.flt with act := some { time := time, digest := digest, leader := leader } }
    tck := { s.tck with alarms := mput s.tck.alarms 3 (time, .flt) } }

/-- ACTIVATE (R290). -/
def execActivate (f : Tfp) (actTime digest : Nat) (s : State) : Host.Outcome State Fault Refusal :=
  .next (receive f false (fun p s =>
    match s.flt.act with
    | some a => if a.time = actTime ∧ a.digest = digest then reply p 0x51 f.msgId 0 [] s else s
    | none => if (holdsImage s digest).isSome ∧ s.tck.fleet < actTime ∧ !mhas s.tck.alarms 3 then
        reply p 0x51 f.msgId 0 [] (armFleet actTime digest false s) else s) s)

/-- Commit the activation when every live unit has answered. -/
def actCheck (s : State) : State :=
  match s.flt.act with
  | some a => if a.leader ∧ !a.commit ∧ (livePeers s).all a.acks.contains then
      forAll (livePeers s) (fun p s => send p 0x52 0 0 1 s) { s with flt := { s.flt with act := some { a with commit := true } } } else s
  | none => s

/-- ACTIVATE_ACK (R290). -/
def execActivateAck (f : Tfp) (s : State) : Host.Outcome State Fault Refusal :=
  .next (receive f false (fun p s =>
    match s.flt.act with
    | some a => actCheck (answer p (fun m => m.kind = 0x50 && m.peer = p)
        { s with flt := { s.flt with act := some { a with acks := addTo a.acks p } } })
    | none => s) s)

/-- ACTIVATE_COMMIT (R290). -/
def execActivateCommit (f : Tfp) (s : State) : Host.Outcome State Fault Refusal :=
  .next (receive f false (fun _ s =>
    { s with flt := { s.flt with act := s.flt.act.map (fun a => if a.leader then a else { a with commit := true }) } }) s)

/-- ACTIVATE_CANCEL (R290). -/
def execActivateCancel (f : Tfp) (s : State) : Host.Outcome State Fault Refusal :=
  .next (receive f false (fun _ s => cancelAct s) s)

/-- Cancel for the group: ACTIVATE_CANCEL goes to every live unit. -/
def cancelAll (s : State) : State :=
  cancelAct (settle (fun m => m.kind = 0x50) (forAll (livePeers s) (fun p s => send p 0x52 0 0 0 s) s))

/-- ACTIVATION_DEADLINE (R290): 100 ms before the time. -/
def execActivationDeadline (s : State) : Host.Outcome State Fault Refusal :=
  .next (match s.flt.act with
    | some a => if a.commit ∨ s.tck.fleet + 100000000 < a.time ∨ !s.cst.mode.runs then s else if a.leader then cancelAll s else cancelAct s
    | none => s)

/-! ### FNK (R313) -/

/-- FNS_KEY: stored wrapped in the key record. -/
def execFnsKey (f : Tfp) (key : Nat) (s : State) : Host.Outcome State Fault Refusal :=
  .next (receive f false (fun p s =>
    reply p 0x61 f.msgId 0 [] (if s.flt.fnk = key then s else keyRecord { s with flt := { s.flt with fnk := key } })) s)

/-- FNS_KEY_ACK. -/
def execFnsKeyAck (f : Tfp) (s : State) : Host.Outcome State Fault Refusal :=
  .next (receive f false (fun p s =>
    answer p (fun m => m.kind = 0x60 && m.peer = p) { s with flt := { s.flt with fnkHeld := addTo s.flt.fnkHeld p } }) s)

end Sys2Proof.Machine
end

