-- ==== Sys2Proof/Machine/FleetManage.lean ====
section
/-! DEFINITION. FLEET_MANAGE (R292, Table 9.7), enrollment (R269), forming (R278), binding (R279), proxies (R288), replacement (R289),
and the fleet ports (R294). -/

namespace Sys2Proof.Machine

/-- The completion body: FSTATE and the epoch. -/
def fltBody (s : State) : List Byte := [toByte s.flt.fstate.code, 0, 0, 0] ++ le 8 s.flt.epoch

/-- Complete a FLEET_MANAGE request. -/
def fltDone (src : Src) (tag nm : Nat) (s : State) : State := complete src tag nm (fltBody s) [] s

/-- Is an address 64 B aligned in HBM with n bytes below the keeper buffer's upper neighbours (R292)? -/
def fltAddrOk (s : State) (a n : Nat) : Bool := a % 64 = 0 && a + n ≤ (hbmBases s).2.2.2.2 * 0x100000

/-- Carry out a request that needs a certificate, where the unit carries out requests. -/
def fltReq (src : Src) (tag : Nat) (f : State → State) (s : State) : State :=
  if !s.cst.mode.runs then s
  else if s.flt.fstate = .none then fltDone src tag Ev.FLT_NOT_ENROLLED s
  else f s

/-- QUERY (Table 9.7). -/
def execFleetQuery (src : Src) (tag : Nat) (s : State) : Host.Outcome State Fault Refusal :=
  .next (descOp src tag 0x0801 [] (fun s =>
  fltDone src tag 0 s) s)

/-- ENROLL (R269): the checks of the certificate of Table 9.3. -/
def execEnroll (src : Src) (tag certAddr : Nat) (sigOk idOk : Bool) (s : State) : Host.Outcome State Fault Refusal :=
  .next (descOp src tag 0x0802 [(8, 8, certAddr)] (fun s =>
  if !fltAddrOk s certAddr 512 then fltDone src tag Ev.FLT_PARAM_RANGE s
  else if !s.tck.timeSet then fltDone src tag Ev.FLT_TIME_NOT_SET s
  else if s.flt.fstate ≠ .none ∧ s.flt.fstate ≠ .enrolled then fltDone src tag Ev.FLT_STATE_CONFLICT s
  else
    let c := readBytes s certAddr 512
    let unit := fieldAt c 2 2
    let grp := fieldAt c 4 2
    let inTime := fieldAt c 72 8 ≤ s.tck.fleet ∧ s.tck.fleet ≤ fieldAt c 80 8
    let blank := fieldAt c 6 2 = 0 ∧ fieldAt c 88 328 = 0 ∧ unit < 16384 ∧ grp < 512
    if !sigOk ∨ !idOk ∨ s.sec.otpOwner.isNone ∨ fieldAt c 0 2 ≠ 1 ∨ fieldAt c 8 16 ≠ s.sec.serial ∨ ¬ inTime ∨ ¬ blank then
      fltDone src tag Ev.FLT_CERT_INVALID s
    else fltDone src tag 0 { s with flt := { s.flt with fstate := .enrolled, unitId := unit, group := grp, certSerial := fieldAt c 8 16 } }) s)

/-- A roster entry from its 48 bytes (Table 9.8). -/
def parseEntry (b : List Byte) : RosterEntry :=
  { unitId := fieldAt b 0 2, position := fieldAt b 2 1, addrA := fieldAt b 8 16, addrB := fieldAt b 24 16 }

/-- n roster entries at an address. -/
def parseRoster (s : State) (addr n : Nat) : List RosterEntry := (List.range n).map (fun i => parseEntry (readBytes s (addr + 48 * i) 48))

/-- Is a roster sound for n positions: unit IDs and positions in range and each once? -/
def rosterOk (l : List RosterEntry) (n : Nat) : Bool :=
  l.all (fun e => e.unitId < 16384 && e.position < n) && decide ((l.map (·.unitId)).Nodup) && decide ((l.map (·.position)).Nodup)

/-- FORM (R278): the same roster on every unit; it completes when epoch 1 is applied. -/
def execForm (src : Src) (tag group n m rosterAddr : Nat) (s : State) : Host.Outcome State Fault Refusal :=
  .next (descOp src tag 0x0803 [(8, 2, group), (10, 1, n), (11, 1, m), (16, 8, rosterAddr)] (fun s =>
  fltReq src tag (fun s =>
    let l := parseRoster s rosterAddr n
    match l.find? (fun e => e.unitId = s.flt.unitId) with
    | none => fltDone src tag Ev.FLT_PARAM_RANGE s
    | some me =>
      if n < 3 ∨ 32 < n ∨ m < 1 ∨ 4 < m ∨ n < m + 2 ∨ group ≠ s.flt.group ∨ !fltAddrOk s rosterAddr (48 * n) ∨ !rosterOk l n then
        fltDone src tag Ev.FLT_PARAM_RANGE s
      else if s.flt.fstate ≠ .enrolled then fltDone src tag Ev.FLT_STATE_CONFLICT s
      else startAllHs { s with flt := { s.flt with
        n := n, m := m, position := me.position, roster := l, epoch := 0, fstate := .forming, replacing := false, peers := []
        pendingForm := some (src, tag) } }) s) s)

/-- Does a namespace hold a mapped LBA? -/
def nsHolds (s : State) (x : Ns) : Bool := !(mappedSegs s x).isEmpty

/-- BIND (R279): the slice and its KEEP_STREAM; a replacement starts its rebuild (R289). -/
def execBind (src : Src) (tag nsid keepStream : Nat) (s : State) : Host.Outcome State Fault Refusal :=
  .next (descOp src tag 0x0804 [(8, 4, nsid), (12, 2, keepStream)] (fun s =>
  fltReq src tag (fun s =>
    if nsid = 0 ∨ 1024 < nsid ∨ keepStream = 0 ∨ 4095 < keepStream then fltDone src tag Ev.FLT_PARAM_RANGE s
    else if s.flt.fstate ≠ .member ∨ s.flt.slice.isSome then fltDone src tag Ev.FLT_STATE_CONFLICT s
    else
      let t := streamAt s keepStream
      match mget s.map.dir nsid with
      | none => fltDone src tag Ev.FLT_BIND_REFUSED s
      | some x =>
        if x.proxyOf.isSome ∨ nsHolds s x ∨ x.segs % Nat.max 1 s.flt.n ≠ 0
            ∨ (livePeers s).any (fun p => (peerAt s p).sliceSegs ≠ 0 && (peerAt s p).sliceSegs ≠ x.segs)
            ∨ t.st ≠ .admitted ∨ t.nsid ≠ nsid then fltDone src tag Ev.FLT_BIND_REFUSED s
        else
          let s := { s with
            map := { s.map with dir := mput s.map.dir nsid { x with fleet := some (s.flt.n, s.flt.m, s.flt.position) } }
            flt := { s.flt with slice := some nsid, keepStream := keepStream, sliceSegs := x.segs }
            stm := { s.stm with streams := s.stm.streams.map (fun (p : Nat × Stream) =>
              if p.2.nsid = nsid ∧ p.2.st ≠ StreamSt.closed ∧ p.1 ≠ 0 then (p.1, { p.2 with fleet := decide (p.1 ≠ keepStream) }) else p) } }
          let s := if s.flt.replacing then
              asyncEvent 7 1 0xC4 (raise Ev.FLT_REBUILD_START [] { s with flt := { s.flt with
                fstate := .rebuilding, rebuildNext := some 0, rebuilt := [], rebuildFirst := [] } })
            else s
          fltDone src tag 0 (rescale (fnkStep (nsChanged nsid s)))) s) s)

/-- PROXY_CREATE (R288): on a live unit, for a position whose unit has been removed. -/
def execProxyCreate (src : Src) (tag position : Nat) (s : State) : Host.Outcome State Fault Refusal :=
  .next (descOp src tag 0x0805 [(8, 1, position)] (fun s =>
  fltReq src tag (fun s =>
    if s.flt.n ≤ position then fltDone src tag Ev.FLT_PARAM_RANGE s
    else if s.flt.fstate ≠ .member ∨ liveAt s position ∨ s.flt.slice.isNone then fltDone src tag Ev.FLT_STATE_CONFLICT s
    else match freeNsid s with
      | none => fltDone src tag Ev.FLT_STATE_CONFLICT s
      | some nsid =>
        let x : Ns := { groups := [], segs := s.flt.sliceSegs, proxyOf := some position, fleet := some (s.flt.n, s.flt.m, position) }
        let s := nsChanged nsid { s with map := { s.map with dir := mput s.map.dir nsid x } }
        complete src tag 0 (fltBody s ++ le 4 nsid) [] s) s) s)

/-- PROXY_DELETE (Table 9.7). -/
def execProxyDelete (src : Src) (tag nsid : Nat) (s : State) : Host.Outcome State Fault Refusal :=
  .next (descOp src tag 0x0806 [(8, 4, nsid)] (fun s =>
  fltReq src tag (fun s =>
    match mget s.map.dir nsid with
    | none => fltDone src tag Ev.FLT_PARAM_RANGE s
    | some x => if x.proxyOf.isSome then fltDone src tag 0 (deleteNs nsid s) else fltDone src tag Ev.FLT_STATE_CONFLICT s) s) s)

/-- REPLACE (R289): this unit takes a vacant position; N is the highest position named, and a unit that was Fenced keeps its own;
M is open for a unit that no FORM has told it. -/
def execReplace (src : Src) (tag position rosterAddr : Nat) (s : State) : Host.Outcome State Fault Refusal :=
  .next (descOp src tag 0x0807 [(8, 1, position), (16, 8, rosterAddr)] (fun s =>
  fltReq src tag (fun s =>
    let l := (parseRoster s rosterAddr 32).takeWhile (fun e => !(e.unitId = 0 && e.position = 0 && e.addrA = 0 && e.addrB = 0))
    let others := l.filter (fun e => e.unitId ≠ s.flt.unitId)
    let n := Nat.max s.flt.n (((position :: others.map (·.position)).foldl Nat.max 0) + 1)
    let m := if s.flt.m = 0 then Nat.min (n - 2) (1 + Config.groupParity s.flt.group % 4) else s.flt.m
    if 31 < position ∨ !fltAddrOk s rosterAddr 1536 ∨ others.isEmpty ∨ !rosterOk others n ∨ others.any (fun e => e.position = position) then
      fltDone src tag Ev.FLT_PARAM_RANGE s
    else if (s.flt.fstate ≠ .enrolled ∧ s.flt.fstate ≠ .fenced) ∨ s.flt.slice.isSome then fltDone src tag Ev.FLT_STATE_CONFLICT s
    else
      let s := { s with flt := { s.flt with
        n := n, m := m, position := position, roster := others, epoch := 0, fstate := .forming, replacing := true, peers := []
        journal := [], stale := [], locks := [], fnk := 0, recorded := none, proposal := none } }
      fltDone src tag 0 (startAllHs s)) s) s)

/-- DECLARE (R292): the leader proposes a removal; it completes when the epoch is committed. -/
def execDeclare (src : Src) (tag position : Nat) (s : State) : Host.Outcome State Fault Refusal :=
  .next (descOp src tag 0x0808 [(8, 1, position)] (fun s =>
  fltReq src tag (fun s =>
    if s.flt.n ≤ position then fltDone src tag Ev.FLT_PARAM_RANGE s
    else if !inGroup s ∨ !leads s ∨ !liveAt s position ∨ position = s.flt.position ∨ s.flt.proposal.isSome ∨ s.flt.pendingDeclare.isSome then
      fltDone src tag Ev.FLT_STATE_CONFLICT s
    else propose (s.flt.epoch + 1) { removed := [position], added := none }
      { s with flt := { s.flt with pendingDeclare := some (src, tag, position) } }) s) s)

/-- DECLARE_TIMEOUT (R292): no majority within 1 s. -/
def execDeclareTimeout (s : State) : Host.Outcome State Fault Refusal :=
  .next (match s.flt.pendingDeclare with
    | some (src, tag, _) => fltDone src tag Ev.FLT_STATE_CONFLICT
        (settle (fun m => m.kind = 0x12) { s with flt := { s.flt with pendingDeclare := none, proposal := none } })
    | none => s)

/-- RESYNC (Table 9.7): every Stale element of which this unit is the keeper is locked for its resync. -/
def execResync (src : Src) (tag : Nat) (s : State) : Host.Outcome State Fault Refusal :=
  .next (descOp src tag 0x0809 [] (fun s =>
  fltReq src tag (fun s =>
    if !inGroup s then fltDone src tag Ev.FLT_STATE_CONFLICT s
    else
      let mine := s.flt.stale.filter (fun x => !x.2.2 && elemPos s x.1 (kOf s + x.2.1) = s.flt.position)
      fltDone src tag 0 { s with flt := { s.flt with locks := mine.foldl (fun l x => addTo l x.1) s.flt.locks } }) s) s)

/-- FLEET_ACTIVATE (R290): on the leader, for a fleet time at least 1 s ahead and an image that it holds. -/
def execFleetActivate (src : Src) (tag actTime digest : Nat) (s : State) : Host.Outcome State Fault Refusal :=
  .next (descOp src tag 0x080A [(8, 8, actTime), (16, 48, digest)] (fun s =>
  fltReq src tag (fun s =>
    if actTime < s.tck.fleet + 1000000000 then fltDone src tag Ev.FLT_PARAM_RANGE s
    else if !inGroup s ∨ !leads s ∨ s.flt.act.isSome ∨ (holdsImage s digest).isNone ∨ mhas s.tck.alarms 3 then
      fltDone src tag Ev.FLT_STATE_CONFLICT s
    else
      let s := armFleet actTime digest true s
      fltDone src tag 0 (actCheck (forAll (livePeers s) (fun p s => send p 0x50 0 0 0 s) s))) s) s)

/-- CANCEL_ACTIVATE (Table 9.7). -/
def execCancelActivate (src : Src) (tag : Nat) (s : State) : Host.Outcome State Fault Refusal :=
  .next (descOp src tag 0x080B [] (fun s =>
  fltReq src tag (fun s =>
    match s.flt.act with
    | some a => if a.leader then fltDone src tag 0 (cancelAll s) else fltDone src tag Ev.FLT_STATE_CONFLICT s
    | none => fltDone src tag Ev.FLT_STATE_CONFLICT s) s) s)

/-! ### Fleet ports (R294) -/

/-- A fleet port. -/
def fport (s : State) (p : Nat) : FPort := if p = 0 then s.flt.ports.1 else s.flt.ports.2

/-- Change a fleet port; the ceiling follows the link rate (R266, R291). -/
def setFport (p : Nat) (f : FPort → FPort) (s : State) : State :=
  { s with flt := { s.flt with ports := if p = 0 then (f s.flt.ports.1, s.flt.ports.2) else (s.flt.ports.1, f s.flt.ports.2) } }

/-- A request for a port: latched behind the opposite sequence, of which only the newest is kept. -/
def portReq (p : Nat) (on : Bool) (s : State) : State :=
  let x := fport s p
  let running := (x.st = .draining ∧ on) ∨ (x.starting ∧ !on)
  let s := if x.pending.isSome then raise Ev.FLT_PENDING_REPLACED [toByte p] (setFport p (fun x => { x with pending := none }) s) else s
  if running then setFport p (fun x => { x with pending := some on }) s
  else if on then (if x.st = .off then setFport p (fun x => { x with starting := true }) s else s)
  else if x.st = .up then rescale (setFport p (fun x => { x with st := .draining }) s) else s

/-- Carry out a latched request of a port. -/
def portCarry (p : Nat) (s : State) : State :=
  match (fport s p).pending with
  | none => s
  | some on => raise Ev.FLT_PENDING_DONE [toByte p, 0, 0] (portReq p on (setFport p (fun x => { x with pending := none }) s))

/-- A store to FLT_CFG: a request for each port whose PORT_EN bit changes. -/
def storeFltCfg (v : Word) (s : State) : State :=
  let old := rg s FLT_CFG
  let s := storeFile FLT_CFG v s
  let new := rg s FLT_CFG
  forAll [0, 1] (fun p s => if bitAt new p ≠ bitAt old p ∧ s.cst.mode.runs then portReq p (bitAt new p) s else s) s

/-- PORT_ENABLE (R294): a store that sets the PORT_EN bit. -/
def execPortEnable (p : Nat) (s : State) : Host.Outcome State Fault Refusal :=
  .next (if p < 2 then storeFltCfg (toWord (putBits (rg s FLT_CFG) p p 1)) s else s)

/-- PORT_DISABLE (R294): a store that clears the PORT_EN bit. -/
def execPortDisable (p : Nat) (s : State) : Host.Outcome State Fault Refusal :=
  .next (if p < 2 then storeFltCfg (toWord (putBits (rg s FLT_CFG) p p 0)) s else s)

/-- PORT_DRAIN_END (R294): the queued frames are out, the link is down. -/
def execPortDrainEnd (p : Nat) (s : State) : Host.Outcome State Fault Refusal :=
  .next (if p < 2 ∧ (fport s p).st = .draining then portCarry p (setFport p (fun x => { x with st := .off, lost := false }) s) else s)

/-- FLT_PORT_DOWN (R266): traffic moves to the other port. -/
def execFltPortDown (p : Nat) (s : State) : Host.Outcome State Fault Refusal :=
  .next (if p < 2 ∧ (fport s p).st = .up then
    rescale (raise Ev.FLT_PORT_DOWN [toByte p] (setFport p (fun x => { x with st := .off, starting := true, lost := true }) s))
  else s)

/-- FLEET_PORT_LINK_UP (R266, R294): a port that starts, or whose link was lost, is up. -/
def execFleetPortLinkUp (p : Nat) (s : State) : Host.Outcome State Fault Refusal :=
  .next (if p < 2 ∧ (fport s p).starting then
    let s := rescale (setFport p (fun x => { x with st := .up, starting := false, lost := false }) s)
    startAllHs (portCarry p s)
  else s)

/-- After a cold start (R286): sessions and the keeper buffer are lost, the journal is kept; every KEEPER entry is to be resolved. -/
def fleetRestart (s : State) : State :=
  { s with flt := { s.flt with
    peers := [], msgs := [], proposal := none, candidate := none, act := none, ports := ({}, {}), gathers := [], serving := [], resyncs := []
    resends := [], hsCount := 0, pendingForm := none, pendingDeclare := none
    journal := s.flt.journal.map (fun j => { j with delta := none, cmd := 0, mirrored := false })
    resolving := (s.flt.journal.filter (fun j => j.role = .keeper)).map (·.seqNo)
    fstate := if s.flt.fstate = .isolated then groupState s else s.flt.fstate } }

end Sys2Proof.Machine
end

