-- ==== Sys2Proof/Machine/Time.lean ====
section
/-! DEFINITION. TCK: the passing of time, the next tick edge (R34-R38), PPS (R51-R55), FSYNC (R36-R39), armed seconds (R53) and
alarms (R56) of 02_tick_and_time.md. Times are ns; rates are parts in 10^9. -/

namespace Sys2Proof.Machine

/-! ### Elapsed time and fleet time -/

/-- Fleet time after dt ns of elapsed time, with its fraction in units of 1/10^9 ns (R51). -/
def fleetAfter (s : State) (dt : Nat) : Nat × Nat :=
  let rate := (1000000000 + s.tck.ppsErrPpb).toNat
  let t := dt * rate + s.tck.frac
  ((s.tck.fleet + t / 1000000000) % 2 ^ 64, t % 1000000000)

/-- Let dt ns pass. -/
def advance (dt : Nat) (s : State) : State :=
  let f := fleetAfter s dt
  { s with tck := { s.tck with now := s.tck.now + dt, fleet := f.1, frac := f.2 } }

/-- The nominal period of a PERIOD code (Table 2.1). -/
def periodNs (p : Nat) : Nat := 4000 * 2 ^ p

/-- Elapsed ns until fleet time reaches m. -/
def untilFleet (s : State) (m : Nat) : Nat :=
  if m ≤ s.tck.fleet then 0
  else cdiv ((m - s.tck.fleet) * 1000000000 - s.tck.frac) (1000000000 + s.tck.ppsErrPpb).toNat

/-- The next edge of a time-locked tick (R35): the first moment, once the tick has lasted P, at which fleet time reaches a
whole multiple of P. -/
def timeLockedEdge (s : State) : Nat :=
  let p := periodNs s.tck.period
  let least := s.tck.tickStart + p
  let before := if s.tck.now < least then (fleetAfter s (least - 1 - s.tck.now)).1 else s.tck.fleet
  Nat.max (s.tck.now + untilFleet s ((before / p + 1) * p)) least

/-- The next edge of a frame-locked tick (R36-R38), none where it waits for an FSYNC edge or the end of its window. -/
def frameLockedEdge (s : State) : Option Nat :=
  let n := fld s TCK_FRAME 17 0
  match s.tck.fsync with
  | .locked => if s.tck.frameTick + 1 < n then some (s.tck.frameStart + (s.tck.frameTick + 1) * s.tck.frameL) else none
  | .holdover => if s.tck.frameTick + 1 < n then some (s.tck.frameStart + (s.tck.frameTick + 1) * s.tck.frameL)
      else some (s.tck.frameStart + s.tck.frameT)
  | _ => some (s.tck.tickStart + if s.tck.frameL = 0 then periodNs s.tck.period else s.tck.frameL)

/-- The time of the next tick edge. -/
def nextEdge (s : State) : Option Nat :=
  if s.tck.edgeDue then some s.tck.now
  else if s.tck.source = 0 then some (timeLockedEdge s)
  else (frameLockedEdge s).map (Nat.max s.tck.now)

/-- May dt ns pass before the next tick edge? -/
def mayPass (s : State) (dt : Nat) : Bool :=
  s.tck.running && match nextEdge s with
    | some t => s.tck.now + dt ≤ t
    | none => true

/-! ### PPS -/

/-- Fleet time as it was back ns of elapsed time ago. -/
def fleetBack (s : State) (back : Nat) : Nat :=
  (s.tck.fleet * 1000000000 + s.tck.frac - back * (1000000000 + s.tck.ppsErrPpb).toNat) / 1000000000

/-- Put PPS into a state. -/
def setPps (st : LockSt) (s : State) : State := { s with tck := { s.tck with pps := st } }

/-- Fleet time of the predicted edge, and half the window (R52, R55). -/
def ppsWindow (s : State) : Nat × Nat :=
  (s.tck.ppsLastFleet + (s.tck.ppsMissRun + 1) * 1000000000, Nat.min 1000000 (10000 + 1000 * s.tck.ppsMissRun))

/-- The rate correction (R51): one eighth of the measured frequency error is taken off, within 200 ppm in total. -/
def trimmed (old : Int) (seen since : Nat) : Int :=
  let n := Nat.max 1 ((seen - since + 500000000) / 1000000000)
  let err : Int := ((seen : Int) - since - n * 1000000000) / n
  max (-200000) (min 200000 (old - err.tdiv 8))

/-- Set the rate correction. -/
def setTrim (t : Int) (s : State) : State :=
  setReg TCK_RATE_TRIM (toWord (signed 32 t)) { s with tck := { s.tck with ppsErrPpb := t } }

/-- Saturation of a step to the signed range of TCK_PPS_STEP. -/
def satStep (x : Int) : Int := max (-2147483648) (min 2147483647 x)

/-- A step ends the tick at once where the tick has lasted P and fleet time reaches or passes a multiple of P (R35). -/
def stepEnds (s : State) (old new : Nat) : Bool :=
  let p := periodNs s.tck.period
  s.tck.source = 0 && s.tck.tickStart + p ≤ s.tck.now && (old / p < new / p || new % p = 0)

/-- Accept the PPS edge at which fleet time stood at `seen`, 50 us ago (R51, R52, R54). -/
def ppsAccept (seen : Nat) (s : State) : State :=
  let sec := s.tck.armed.getD ((seen + 500000000) / 1000000000)
  let st := s.tck.pps
  let step : Int := (sec * 1000000000 : Int) - seen
  let trim := if st = .locked then trimmed s.tck.ppsErrPpb seen s.tck.ppsLastFleet else s.tck.ppsErrPpb
  let good := if step.natAbs ≤ 10000 then s.tck.ppsGood + 1 else 0
  let new := (sec * 1000000000 + 50000) % 2 ^ 64
  let due := stepEnds s s.tck.fleet new
  let s := setTrim trim { s with tck := { s.tck with
    fleet := new, frac := 0, timeSet := s.tck.timeSet || s.tck.armed.isSome, armed := none, ppsGood := good
    ppsLastFleet := sec * 1000000000, ppsRun := 0, ppsMissRun := 0
    edgeDue := s.tck.edgeDue || due } }
  let s := noteCode Ev.TCK_PPS_STEPPED (setReg TCK_PPS_STEP (toWord (signed 32 (satStep step))) s)
  let s := if 1000 < step.natAbs ∨ st = .acquiring then lntOffer (newRec s Ev.TCK_PPS_STEPPED (le 8 (signed 64 step))) s else s
  if st = .holdover ∨ (st = .acquiring ∧ 2 ≤ good) then raise Ev.TCK_PPS_LOCKED [] (setPps .locked s) else s

/-- Count a miss or a rejection toward MISS_LIMIT (R55). -/
def ppsFault (s : State) : State :=
  let n := s.tck.ppsRun + 1
  if fld s TCK_PPS_CFG 15 8 ≤ n then
    raise Ev.TCK_PPS_ACQUIRING [] { s with tck := { s.tck with pps := .acquiring, ppsRun := 0, ppsMissRun := 0, ppsGood := 0 } }
  else { s with tck := { s.tck with ppsRun := n } }

/-- Judge a pulse that counts. -/
def ppsJudge (s : State) : State :=
  let seen := fleetBack s 50000
  let w := ppsWindow s
  match s.tck.pps with
  | .off => s
  | .acquiring => ppsAccept seen s
  | _ =>
    if w.1 ≤ seen + w.2 ∧ seen ≤ w.1 + w.2 then ppsAccept seen s
    else ppsFault (raise Ev.TCK_PPS_REJECTED (le 8 seen) (bump TCK_PPS_REJ_CNT s))

/-- PPS_EDGE_JUDGED (R51, R52, R55): dt ns on, a pulse has been high for `high` ns, counted up to 50 us; a shorter one does not
count. -/
def execPpsEdgeJudged (dt high : Nat) (s : State) : Host.Outcome State Fault Refusal :=
  .next (if !mayPass s dt then s
  else
    let s := advance dt s
    if high < 50000 ∨ s.tck.now < 50000 then s else ppsJudge s)

/-- PPS_WINDOW_MISSED (R55): dt ns on, the window has ended with no accepted edge. -/
def execPpsWindowMissed (dt : Nat) (s : State) : Host.Outcome State Fault Refusal :=
  .next (if !mayPass s dt then s
  else
    let s := advance dt s
    let w := ppsWindow s
    if (s.tck.pps = .locked ∨ s.tck.pps = .holdover) ∧ w.1 + w.2 < s.tck.fleet then
      let first : Bool := s.tck.pps = .locked
      let s := bump TCK_PPS_MISS_CNT (setPps .holdover s)
      let s := if first then raise Ev.TCK_PPS_MISSED (le 8 w.1) s else s
      ppsFault { s with tck := { s.tck with ppsMissRun := s.tck.ppsMissRun + 1 } }
    else s)

/-- A store to TCK_PPS_CFG: PPS_EN starts acquisition or turns PPS off (Table 2.12). -/
def storePpsCfg (v : Word) (s : State) : State :=
  let old := fld s TCK_PPS_CFG 0 0
  let s := storeFile TCK_PPS_CFG v s
  let new := fld s TCK_PPS_CFG 0 0
  if old = new then s
  else { s with tck := { s.tck with pps := if new = 1 then .acquiring else .off, ppsGood := 0, ppsRun := 0, ppsMissRun := 0 } }

/-! ### FSYNC -/

/-- Mean of the accepted frame periods, rounded down to whole ns (log entry 71). -/
def meanPeriod (l : List Nat) : Nat := l.sum / Nat.max 1 l.length

/-- Is L within the limits of R36: 1.07 P to 1.25 P? -/
def frameLenOk (s : State) (l : Nat) : Bool :=
  let p := periodNs s.tck.period
  107 * p ≤ 100 * l && 100 * l ≤ 125 * p

/-- Take a newly measured T: L is recomputed (R36), the coordinator regenerates its table (R44), and streams are scaled where L has
grown (R39). -/
def newFrameLen (s : State) : State :=
  let t := meanPeriod s.tck.periods
  let l := t / Nat.max 1 (fld s TCK_FRAME 17 0)
  let old := (s.tck.frameT, s.tck.frameL, s.tck.frameN)
  let s := setReg TCK_FRAME_LEN (toWord (l % 65536)) { s with tck := { s.tck with frameT := t, frameL := l, frameN := Nat.max 1 (fld s TCK_FRAME 17 0) } }
  if (s.tck.frameT, s.tck.frameL, s.tck.frameN) = old then s else rescale (wantTable s)

/-- Start a frame at the present moment: its number counts, and markers open (R118). -/
def frameStarts (s : State) : State :=
  let s := bump TCK_FRAME_CNT { s with tck := { s.tck with
    frameStart := s.tck.now, predict := s.tck.now + s.tck.frameT, fsyncMissRun := 0 } }
  fsyncFrames (rg s TCK_FRAME_CNT) s

/-- The next frame period joins the last 16. -/
def pushPeriod (s : State) : State :=
  match s.tck.fsyncLast with
  | some t => { s with tck := { s.tck with periods := ((s.tck.now - t) :: s.tck.periods).take 16 } }
  | none => s

/-- Count a missed or rejected edge (R38): after eight in a row FSYNC enters Holdover. -/
def fsyncMiss (s : State) : State :=
  let n := s.tck.fsyncMissRun + 1
  let s := bump TCK_FSYNC_REJ_CNT { s with tck := { s.tck with fsyncMissRun := n } }
  if 8 ≤ n then raise Ev.TCK_FSYNC_HOLDOVER [] { s with tck := { s.tck with fsync := .holdover } } else s

/-- An edge while Acquiring (R37): 16 periods are measured; at the first edge after a valid L is found, FSYNC locks. -/
def fsyncAcquire (s : State) : State :=
  let l := meanPeriod s.tck.periods / Nat.max 1 (fld s TCK_FRAME 17 0)
  let full := s.tck.periods.length = 16
  let s := pushPeriod s
  let s := { s with tck := { s.tck with fsyncLast := some s.tck.now } }
  if full ∧ frameLenOk s l then
    let p := periodNs s.tck.period
    let ends : Bool := s.tck.tickStart + p ≤ s.tck.now
    let s := newFrameLen { s with tck := { s.tck with fsync := .locked, fsyncEver := true, frameTick := 0
                                                      edgeDue := s.tck.edgeDue || ends } }
    frameStarts (raise Ev.TCK_FSYNC_LOCKED [] s)
  else
    let l := meanPeriod s.tck.periods / Nat.max 1 (fld s TCK_FRAME 17 0)
    if s.tck.periods.length = 16 ∧ !frameLenOk s l then raise Ev.TCK_FSYNC_RANGE (le 4 l) s else s

/-- An edge while Locked (R36-R38): within L/16 of the prediction it ends the last tick and starts a frame. -/
def fsyncLockedEdge (s : State) : State :=
  let w := s.tck.frameL / 16
  if s.tck.predict ≤ s.tck.now + w ∧ s.tck.now ≤ s.tck.predict + w then
    let s := if s.tck.fsyncMissRun = 0 then pushPeriod s else s
    let s := newFrameLen { s with tck := { s.tck with fsyncLast := some s.tck.now, edgeDue := true, frameTick := 0 } }
    frameStarts s
  else fsyncMiss s

/-- FSYNC_EDGE (R36-R38): of the two edges of FSYNC_IN only the one that TCK_FRAME.EDGE selects is judged; without frame locking
FSYNC is Off and the edge has no effect on TCK. -/
def execFsyncEdge (edge : FsyncSeen) (s : State) : Host.Outcome State Fault Refusal :=
  .next (if !mayPass s edge.dt then s
  else
    let s := advance edge.dt s
    if edge.rising = bitAt (rg s TCK_FRAME) 18 then s
    else match s.tck.fsync with
    | .off => s
    | .acquiring => fsyncAcquire s
    | .locked => fsyncLockedEdge s
    | .holdover => { s with tck := { s.tck with fsync := .acquiring, fsyncLast := some s.tck.now, periods := [], fsyncMissRun := 0 } })

/-- FSYNC_EDGE_MISSED (R38): the window has ended with no accepted edge; the last tick ends at the predicted edge plus L/16, and the
next prediction is T later. -/
def execFsyncEdgeMissed (s : State) : Host.Outcome State Fault Refusal :=
  .next (
    let t := s.tck.predict + s.tck.frameL / 16
    if s.tck.fsync ≠ .locked ∨ t < s.tck.now ∨ !mayPass s (t - s.tck.now) then s
    else
      let s := advance (t - s.tck.now) s
      let next := s.tck.predict + s.tck.frameT
      fsyncMiss (bump TCK_FRAME_CNT { s with tck := { s.tck with edgeDue := true, frameTick := 0, frameStart := s.tck.now, predict := next } }))

/-- FRAME_WRITE (R39): a store to TCK_FRAME; while frame-locked FSYNC returns to Acquiring. -/
def execFrameWrite (v : Word) (s : State) : Host.Outcome State Fault Refusal :=
  .next (if !encOk s TCK_FRAME (v.toNat % 2 ^ 19) then storeFile TCK_FRAME v s
  else
    let s := storeFile TCK_FRAME v s
    if s.tck.source = 1 then
      { s with tck := { s.tck with fsync := .acquiring, periods := [], fsyncLast := none, fsyncMissRun := 0 } }
    else s)

/-! ### Armed seconds and alarms -/

/-- TIME_SEC_ARM (R52, R53): arm a seconds value with TCK_TIME_SEC_HI; one whose ns exceed 64 bits is a reserved encoding. -/
def execTimeSecArm (v : Word) (s : State) : Host.Outcome State Fault Refusal :=
  .next (
    let sec := fld s TCK_TIME_SEC_HI 2 0 * 2 ^ 32 + v.toNat
    if 2 ^ 64 ≤ sec * 1000000000 then discardStore TCK_TIME_SEC v s
    else { s with tck := { s.tck with armed := some sec } })

/-- Apply an armed seconds value at a tick edge while PPS is disabled (R53, R54). -/
def applyArmed (s : State) : State :=
  match s.tck.armed with
  | some sec => if fld s TCK_PPS_CFG 0 0 = 0 then
      { s with tck := { s.tck with fleet := sec * 1000000000, frac := 0, timeSet := true, armed := none } } else s
  | none => s

/-- ALARM_ARM (R56): a store to an alarm's HI register arms it at both halves together, or disarms it where both are zero. -/
def execAlarmArm (n : Nat) (hi : Word) (s : State) : Host.Outcome State Fault Refusal :=
  .next (if 4 ≤ n then s
  else
    let s := setReg (TCK_ALARMn_HI n) hi s
    let t := hi.toNat * 2 ^ 32 + rg s (TCK_ALARMn_LO n)
    { s with tck := { s.tck with alarms := if t = 0 then mdel s.tck.alarms n else mput s.tck.alarms n (t, .os) } })

/-- A member state change or a held table (R44): the running tick's table position (R42). -/
def tableRow (s : State) : Nat :=
  let t := if s.tck.bufB then s.tck.tables.2 else s.tck.tables.1
  (s.tck.tick - s.tck.swapTick) % Nat.max 1 t.rows.length

end Sys2Proof.Machine
end

