-- ==== Sys2Proof/Machine/Firmware.lean ====
section
/-! DEFINITION. CST: the Code Store's banks (R369, R370), image checks (R371), commits (R377), activations (R378) and the
confirmation of a start (R367) of 12_modes_boot_update.md. -/

namespace Sys2Proof.Machine

/-! ### The Code Store's banks -/

/-- Is code word w of a bank in a sector? A sector holds 2,048 code words of 32 B. -/
def inSector (w sector : Nat) : Bool := w / 2048 = sector

/-- CST refuses a program (R369): it is counted and writes nothing. -/
def cstRefuse (code bank word : Nat) (s : State) : State :=
  bump CST_REFUSE_CNT (raise code ([toByte bank] ++ le 4 word) s)

/-- A program or erase of a settings base record has failed (R374). -/
def settingsFail (bank : Nat) (s : State) : State := if bank = 1 then haltWith Ev.CST_SETTINGS_INVALID [] s else s

/-- Banks of the Code Store that a slot occupies (Table 12.5). -/
def slotBanks (slot : Nat) : List Nat :=
  if slot = 1 then [0] else if slot = 2 then [4, 5, 6, 7] else if slot = 3 then [8, 9, 10, 11] else []

/-- Is the flag of a code word set (R369): a program has set it, or it holds part of a slot's image? -/
def cwProgrammed (s : State) (bank word : Nat) : Bool :=
  s.cst.programmed.contains (bank * 32768 + word) || ([1, 2, 3] : List Nat).any (fun x => (slotBanks x).contains bank &&
    match (s.cst.slots.getD (x - 1) {}).img with
    | some i => (bank - (slotBanks x).headD 0) * 32768 + word < cdiv (1024 + i.len) 32
    | none => false)

/-- The sector of a slot's bank is erased: the slot's image is no longer whole. -/
def imageTorn (bank : Nat) (s : State) : State :=
  forAll ([1, 2, 3] : List Nat) (fun x s => if (slotBanks x).contains bank then
    { s with cst := { s.cst with slots := setAt s.cst.slots (x - 1) (fun y => { y with img := none }) } } else s) s

/-- CST_PROGRAM_DONE (R369, R370, R374): a program of a code word ends, unless CST refuses it: banks 13-15 are never programmed; while an
erase of the bank runs none does. -/
def execCstProgramDone (bank word : Nat) (verified : Bool) (s : State) : Host.Outcome State Fault Refusal :=
  .next (
    let key := bank * 32768 + word
    if 13 ≤ bank ∨ 32768 ≤ word ∨ s.cst.mode = .dark then s
    else if (bankAt s bank).erase.any (inSector word) then cstRefuse Ev.CST_ERASE_TARGET bank word s
    else if cwProgrammed s bank word then cstRefuse Ev.CST_DOUBLE_PROGRAM bank word s
    else if (bankAt s bank).erase.isSome ∧ !(bankAt s bank).suspended then s
    else
      let s := keepLines (· ≠ key / 2) s
      let s := bump CST_PROG_CNT { s with cst := { s.cst with programmed := addTo s.cst.programmed key } }
      if verified then s else settingsFail bank (raise Ev.CST_PROGRAM_FAIL ([toByte bank] ++ le 4 word) s))

/-- CST_ERASE_DONE (R369, R374): the erase of a sector ends; its code words are no longer programmed. -/
def execCstEraseDone (bank sector : Nat) (ok : Bool) (s : State) : Host.Outcome State Fault Refusal :=
  .next (
    let b := bankAt s bank
    if 13 ≤ bank ∨ 16 ≤ sector ∨ s.cst.mode = .dark ∨ b.suspended ∨ b.prog.isSome ∨ b.erase.any (· ≠ sector) then s
    else
      let s := { s with cst := { s.cst with banks := mdel s.cst.banks bank } }
      if ok then imageTorn bank (bump CST_ERASE_CNT { s with cst := { s.cst with
        programmed := s.cst.programmed.filter (fun k => k / 32768 ≠ bank || !inSector (k % 32768) sector) } })
      else settingsFail bank (raise Ev.CST_ERASE_FAIL [toByte bank, toByte sector] s))

/-- CST_ERASE_RESUME (R370): no read of the bank has arrived for 2 µs, or the suspension has lasted 1 ms; a program in it has ended. -/
def execCstEraseResume (bank : Nat) (s : State) : Host.Outcome State Fault Refusal :=
  .next (
    let k := bankAt s bank
    if k.suspended ∧ k.prog.isNone ∧ (k.lastReq + 2000 ≤ s.tck.now ∨ k.suspendedAt + 1000000 ≤ s.tck.now) then
      setBank bank (fun k => { k with suspended := false, resumedAt := some s.tck.now }) s
    else s)

/-! ### Images -/

/-- A manifest (Table 12.9) with the body that follows it. -/
def parseImage (bs : List Byte) : Image :=
  let zero := fun (off len : Nat) => fieldAt bs off len = 0
  let moor := (List.range 16).map (fun i => fieldAt bs (96 + 16 * i) 16)
  let n := fieldAt bs 88 1
  { formatOk := fieldAt bs 0 4 = 0x4E4D494D && fieldAt bs 4 2 = 1 && zero 89 7 && zero 448 480 && fieldAt bs 10 1 ≤ 64
      && fieldAt bs 11 1 ≤ 1 && n ≤ 16 && (moor.drop n).all (· = 0)
    deviceType := fieldAt bs 6 2, minSilicon := fieldAt bs 8 1, kind := fieldAt bs 9 1, secver := fieldAt bs 10 1
    signer := fieldAt bs 11 1, settingsFmt := fieldAt bs 12 2, minSettings := fieldAt bs 14 2, version := fieldAt bs 16 8
    len := fieldAt bs 24 4, entry := fieldAt bs 28 4, digest := fieldAt bs 32 48
    full := Config.sha384 (bs.take (1024 + fieldAt bs 24 4)), actTime := fieldAt bs 80 8, moorCount := n, mooring := moor }

/-- The kind of image a slot takes (Table 12.10). -/
def slotKind (slot : Nat) : Nat := if slot = 1 then 1 else if slot = 2 ∨ slot = 3 then 2 else 3

/-- The largest image of a slot, manifest included (Table 12.10). -/
def slotBytes (slot : Nat) : Nat := if slot = 1 then 0x100000 else if slot = 2 ∨ slot = 3 then 0x400000 else 0x8000000

/-- The checks of Table 12.7 in order: 0, or the status of the first that fails. `fmt`: the format of the settings in use. -/
def imageCheck (s : State) (slot fmt : Nat) (i : Image) (c : Crypt) : Nat :=
  if !i.formatOk ∨ i.kind ≠ slotKind slot ∨ slotBytes slot < 1024 + i.len then Ev.CST_IMAGE_FORMAT
  else if i.deviceType ≠ 0x0960 ∨ 0xB0 < i.minSilicon then Ev.CST_IMAGE_DEVICE
  else if !c.keyOk ∨ !c.sigOk ∨ !c.digestOk ∨ (i.kind = 3 ∧ s.sec.otpOwner.isNone) then Ev.CST_IMAGE_SIGNATURE
  else if i.secver < secver s then Ev.CST_IMAGE_ROLLBACK
  else if i.moorCount ≠ 0 ∧ !(i.mooring.take i.moorCount).contains s.sec.serial then Ev.CST_IMAGE_MOORING
  else if (i.kind = 2 ∧ !(i.minSettings ≤ fmt ∧ fmt ≤ i.settingsFmt)) ∨ (i.kind ≠ 2 ∧ (i.minSettings ≠ 0 ∨ i.settingsFmt ≠ 0)) then
    Ev.CST_IMAGE_SETTINGS
  else 0

/-- A slot 1-5. -/
def slotAt (s : State) (slot : Nat) : ImgSlot := if slot = 0 then {} else s.cst.slots.getD (slot - 1) {}

/-- Change a slot: its entry of the slot directory goes into the settings log. -/
def setSlotAt (slot : Nat) (f : ImgSlot → ImgSlot) (s : State) : State :=
  settingsEntry { s with cst := { s.cst with slots := setAt s.cst.slots (slot - 1) f } }

/-- Is a slot running? -/
def slotRuns (s : State) (slot : Nat) : Bool := slot = s.cst.ledgerSlot || slot = s.cst.osSlot

/-- Is a slot Pending, or armed for an activation? -/
def slotPends (s : State) (slot : Nat) : Bool := (slotAt s slot).st = .pending || s.cst.actSlots.contains slot

/-- The bytes of the download buffer (R377): a later piece overwrites an earlier one. -/
def bufferByte (ps : List (Nat × List Byte)) (i : Nat) : Byte :=
  match (ps.filter (fun p => p.1 ≤ i && i < p.1 + p.2.length)).getLast? with
  | some p => p.2.getD (i - p.1) 0
  | none => 0

/-- The bytes that a commit reads: from the download buffer, or from HBM at CST_UPD_ADDR. -/
def commitBytes (s : State) (src : CommitSrc) : List Byte :=
  let get := fun n => match src with
    | .host _ => (List.range n).map (bufferByte s.cst.buffer)
    | _ => readBytes s (rg s CST_UPD_ADDR_HI * 2 ^ 32 + rg s CST_UPD_ADDR_LO) n
  get (1024 + Nat.min 0x8000000 (fieldAt (get 1024) 24 4))

/-- The image that a commit reads. -/
def commitImage (s : State) (src : CommitSrc) : Image := parseImage (commitBytes s src)

/-! ### Commits (R377) -/

/-- The slot that a commit names: 0 takes the slot of the image's kind that is neither running nor Pending. -/
def commitSlot (s : State) (slot kind : Nat) : Nat :=
  if slot ≠ 0 then slot
  else (([1, 2, 3, 4, 5] : List Nat).find? (fun x => x ≠ 1 && slotKind x = kind && !slotRuns s x && !slotPends s x)).getD 0

/-- May an image go into a slot under R381: the loader's, a ledger slot that is not Active (slot 2 where the settings are unreadable), an OS
slot in Loader only? -/
def beaconSlot (s : State) (slot kind : Nat) : Bool :=
  1 ≤ slot && slot ≤ 5 && slotKind slot = kind &&
    (if kind = 1 then s.cst.mode ≠ .loader
     else if kind = 2 then (if s.cst.settingsOk then (slotAt s slot).st ≠ .active && slot ≠ s.cst.ledgerSlot else slot = 2)
     else s.cst.mode = .loader)

/-- May a commit store into a slot? In Beacon and Commissioning under R381 (R383). -/
def slotTakes (s : State) (slot kind : Nat) : Bool :=
  if s.cst.mode = .beacon ∨ s.cst.mode = .commissioning then beaconSlot s slot kind
  else 2 ≤ slot && slot ≤ 5 && slotKind slot = kind && !slotRuns s slot && !slotPends s slot

/-- End a commit: its requester gets the outcome, CST_UPD_RESULT its NM status. -/
def commitDone (src : CommitSrc) (nm sct sc : Nat) (s : State) : State :=
  let s := setReg CST_UPD_RESULT (toWord (0x80000000 + nm)) s
  match src with
  | .host cid => adminDone cid sct sc 0 s
  | _ => s

/-- Mark a slot's image Pending for the next cold reset; another Pending image of its kind is Committed again. -/
def markPending (slot : Nat) (s : State) : State :=
  let s := forAll ([2, 3, 4, 5] : List Nat) (fun x s =>
    if slotKind x = slotKind slot ∧ (slotAt s x).st = .pending then setSlotAt x (fun y => { y with st := .committed }) s else s) s
  setSlotAt slot (fun y => { y with st := .pending }) s

/-- Begin a commit: action 0b010 ends at once, a store runs until COMMIT_END. -/
def commitBegin (c : Commit) (s : State) : State :=
  let s := setReg CST_UPD_RESULT 0 s
  if c.action = 2 then
    let x := slotAt s c.slot
    if 2 ≤ c.slot ∧ c.slot ≤ 5 ∧ !slotRuns s c.slot ∧ !slotPends s c.slot ∧ (x.st = .committed ∨ x.st = .confirmed) then
      commitDone c.src 0 0 0 (markPending c.slot s)
    else commitDone c.src Ev.CST_IMAGE_FORMAT 1 6 s
  else
    let i := commitImage s c.src
    let slot := commitSlot s c.slot i.kind
    if !i.formatOk ∨ i.kind = 0 ∨ 4 ≤ i.kind then
      commitDone c.src Ev.CST_IMAGE_FORMAT 1 7 (raise Ev.CST_IMAGE_FORMAT [toByte slot] s)
    else if !slotTakes s slot i.kind then commitDone c.src Ev.CST_IMAGE_FORMAT 1 6 s
    else imageQueue slot (commitBytes s c.src) (keepLines (fun l => !(slotBanks slot).contains (l / 16384)) { s with cst := { s.cst with
      commit := some { c with slot := slot, img := some i }
      banks := (slotBanks slot).foldl (fun m b => mput m b { prog := some 0 }) s.cst.banks } })

/-- Begin the waiting commits, one at a time in arrival order. -/
def commitNext : Nat → State → State
  | 0, s => s
  | n + 1, s =>
    if s.cst.commit.isSome then s
    else match s.cst.waiting with
      | [] => s
      | c :: cs => commitNext n (commitBegin c { s with cst := { s.cst with waiting := cs } })

/-- Ask for a commit. A store to CST_UPD_CTL while DONE = 0 is a reserved encoding (R384). -/
def commitReq (src : CommitSrc) (action slot : Nat) (s : State) : State :=
  let go := fun (s : State) => commitNext 2 { s with cst := { s.cst with
    waiting := s.cst.waiting ++ [{ src := src, action := action, slot := slot, img := none }] } }
  match src with
  | .host cid => adminCmd true cid go s
  | .dropped => s
  | .os =>
    let v := toWord (8 * action + slot % 8)
    if !bitAt (rg s CST_UPD_RESULT) 31 then discardStore CST_UPD_CTL v s
    else go (setReg CST_UPD_RESULT 0 s)

/-- A store to CST_UPD_CTL: actions other than those of Table 12.11 are reserved encodings. -/
def storeUpdCtl (v : Word) (s : State) : State :=
  if 4 ≤ bits v.toNat 5 3 then discardStore CST_UPD_CTL v s
  else commitReq .os (bits v.toNat 5 3) (bits v.toNat 2 0) (storeWo CST_UPD_CTL v s)

/-- COMMIT_STORE (Table 12.11, 0b000). -/
def execCommitStore (src : CommitSrc) (slot : Nat) (s : State) : Host.Outcome State Fault Refusal := .next (commitReq src 0 slot s)

/-- COMMIT_STORE_PENDING (0b001). -/
def execCommitStorePending (src : CommitSrc) (slot : Nat) (s : State) : Host.Outcome State Fault Refusal :=
  .next (commitReq src 1 slot s)

/-- COMMIT_MARK_PENDING (0b010). -/
def execCommitMarkPending (src : CommitSrc) (slot : Nat) (s : State) : Host.Outcome State Fault Refusal :=
  .next (commitReq src 2 slot s)

/-- COMMIT_ACTIVATE (0b011). -/
def execCommitActivate (src : CommitSrc) (slot : Nat) (s : State) : Host.Outcome State Fault Refusal :=
  .next (commitReq src 3 slot s)

/-! ### Activation (R378, Table 12.12) -/

/-- The OS image is read from the system bands into HBM at 0x00_0010_0000 (Table 12.3 step 7). -/
def osLoad (slot : Nat) (s : State) : State :=
  forAll s.bnd.sysAt (fun e s => match e.1 with
    | .image x i => if x = slot then (match sysContent s e.2 with
        | some b => writeBytes (0x100000 + 4096 * i) (bitsToBytes b 4096) s
        | none => s) else s
    | _ => s) s

/-- Application cores start at step 7 of Table 12.3: the image is loaded, the boot block written (R365), BOOT_COUNT rises, the start is
unconfirmed (R367). -/
def coresStart (s : State) : State :=
  let s := writeBytes 0 (bitsToBytes (Config.bootBlock s.freeCtr) 4096) (osLoad s.cst.osSlot (drawFree s))
  { s with
    cst := { s.cst with bootCount := s.cst.bootCount + 1, confirmed := false, startAt := s.tck.now }
    cpx := { s.cpx with appsOn := List.range 8, wdogArmed := false } }

/-- What a warm reset of the application cores resets with them (Table 15.5): interrupts and GPIO, CPX_OS_WDOG, CLK_ACLK, gates
0-8, 29 and 30; device OS rings are drained. -/
def coresReset (s : State) : State :=
  let s := forAll [CPX_OS_WDOG, CLK_ACLK, SYS_GPIO_OUT, SYS_GPIO_OE, SYS_GPIO_EDGE, SYS_GPIO_EVENT] (fun r s => setReg r (resetOf r) s) s
  aclkUpdate { s with
    clk := { s.clk with gates := s.clk.gates.filter (fun g => !(g.1 ≤ 8 || g.1 = 29 || g.1 = 30)) }
    cpx := { s.cpx with wdogArmed := false }
    sys := { s.sys with irq := [], rings := s.sys.rings.map (fun p =>
      if p.2.st = .on ∨ p.2.st = .error then (p.1, { p.2 with st := .draining }) else p) } }

/-- Step 1: Quiesce, CSTS.PP = 1. -/
def actBegin (s : State) : State :=
  let s := raise Ev.CST_ACTIVATION_START [] { s with cst := { s.cst with
    actDue := false, actRunning := true, actStage := 1, actTime := 0 } }
  enterMode .quiesce (asyncEvent 2 1 3 { s with hif := { s.hif with pp := true } })

/-- Steps 2 to 4 as far as they can go: the started commands end, a checkpoint is written, then the pairs restart on the new ledger
image and the application cores on the new OS image. -/
def actStep (s : State) : State :=
  if !s.cst.actRunning then s
  else if s.cst.actStage = 1 then
    if s.hif.slots.any (fun p => p.2.started) then s
    else
      let s := { s with cst := { s.cst with actStage := 2 } }
      if s.map.replayed ∧ s.map.running.isNone then ckptBegin s else s
  else if s.cst.actStage = 2 ∧ s.map.running.isNone then
    let s := { s with cst := { s.cst with actStage := 3 } }
    let led := s.cst.actSlots.filter (fun x => slotKind x = 2)
    let os := s.cst.actSlots.filter (fun x => slotKind x = 3)
    let s := match led with
      | x :: _ => forAll (List.range 10) pairRestart (ledgerFetch x (imageEntry s x) { s with cst := { s.cst with ledgerSlot := x } })
      | [] => s
    match os with
    | x :: _ => coresStart (coresReset { s with cst := { s.cst with osSlot := x } })
    | [] => s
  else s

/-- Begin a due activation, once no commit runs and the unit is in Service or Degraded. -/
def actTry (s : State) : State :=
  if s.cst.actDue ∧ s.cst.commit.isNone ∧ s.cst.mode.io ∧ !s.cst.actRunning then actStep (actBegin s) else s

/-- An image is stored for activation: at once, or at ACT_TIME by TCK alarm 3. -/
def actArm (slot : Nat) (s : State) : State :=
  let t := match slotImage s slot with | some i => i.actTime | none => 0
  let s := { s with cst := { s.cst with actSlots := addTo s.cst.actSlots slot } }
  if s.tck.fleet < t then { s with
    cst := { s.cst with actTime := t }
    tck := { s.tck with alarms := mput s.tck.alarms 3 (t, .cst) } }
  else actTry { s with cst := { s.cst with actDue := true } }

/-- ACTIVATION_DONE (Table 12.12 step 5): the new images are Active and unconfirmed. -/
def execActivationDone (s : State) : Host.Outcome State Fault Refusal :=
  .next (if !s.cst.actRunning ∨ s.cst.actStage ≠ 3 ∨ (List.range 10).any (fun n => (pairAt s n).st = .restarting) then s
  else
    let s := forAll s.cst.actSlots (fun x s =>
      setSlotAt x (fun y => { y with st := .active })
        (forAll ([2, 3, 4, 5] : List Nat) (fun z s => if slotKind z = slotKind x ∧ (slotAt s z).st = .active then
          setSlotAt z (fun y => { y with st := .committed }) s else s) s)) s
    let s := { s with
      cst := { s.cst with actRunning := false, actStage := 0, actSlots := [] }
      hif := { s.hif with pp := false } }
    actTry (raise Ev.CST_ACTIVATION_DONE [] (leaveQuiesce s)))

/-- Downloads that waited for a commit take their places. -/
def downloadsGo (s : State) : State :=
  let ds := s.cst.downloads
  forAll ds (fun d s => adminOk d.1 { s with cst := { s.cst with buffer := s.cst.buffer ++ [(d.2.1, d.2.2)] } })
    { s with cst := { s.cst with downloads := [] } }

/-- The image of a commit has been programmed and read back. In Beacon and Commissioning it becomes Active and BOOT_COUNT 0 (R381, R383). -/
def commitStored (c : Commit) (i : Image) (s : State) : State :=
  let n := if slotKind c.slot = 3 then 0 else cdiv (1024 + i.len) 32
  let s := if c.slot = 4 then { s with cst := { s.cst with osSeen := ({}, s.cst.osSeen.2) } }
    else if c.slot = 5 then { s with cst := { s.cst with osSeen := (s.cst.osSeen.1, {}) } } else s
  let s := bumpBy CST_ERASE_CNT (16 * (slotBanks c.slot).length) (bumpBy CST_PROG_CNT n s)
  let s := setSlotAt c.slot (fun _ => { st := .committed, img := some i }) s
  let s := raise Ev.CST_IMAGE_COMMITTED [toByte c.slot] s
  if s.cst.mode = .beacon ∨ s.cst.mode = .commissioning then
    setSlotAt c.slot (fun y => { y with st := .active }) { s with cst := { s.cst with bootCount := 0 } }
  else if c.action = 1 then markPending c.slot s
  else if c.action = 3 then actArm c.slot s
  else s

/-- The outcome of the running commit: 0, or the status of the first check that its image fails (R371). -/
def commitCheck (s : State) (chk : Crypt) : Nat :=
  match s.cst.commit with
  | some c => (match c.img with | some i => imageCheck s c.slot s.cst.settingsFmt i chk | none => 0)
  | none => 0

/-- Does the running commit still write pages into the system bands? -/
def commitWrites (s : State) : Bool := match s.cst.commit with | some c => imageWaits s c.slot | none => false

/-- COMMIT_END (R377, R371): the checks and the read-back of the running commit end it, an OS image's once its pages are written. -/
def execCommitEnd (chk : Crypt) (verified : Bool) (s : State) : Host.Outcome State Fault Refusal :=
  .next (if commitCheck s chk = 0 ∧ commitWrites s then s else match s.cst.commit with
    | none => s
    | some c =>
      let s := imageSettle c.slot (commitCheck s chk = 0 && verified) s
      let s := { s with cst := { s.cst with commit := none, banks := s.cst.banks.filter (fun b => !(slotBanks c.slot).contains b.1) } }
      let s := match c.img with
        | none => s
        | some i =>
          let nm := imageCheck s c.slot s.cst.settingsFmt i chk
          if nm ≠ 0 then commitDone c.src nm 1 7 (raise nm [toByte c.slot] s)
          else if !verified then
            commitDone c.src Ev.CST_PROGRAM_FAIL 0 6 (raise Ev.CST_PROGRAM_FAIL [toByte c.slot] (setSlotAt c.slot (fun _ => {}) s))
          else commitDone c.src 0 0 0 (commitStored c i s)
      actTry (downloadsGo (commitNext (s.cst.waiting.length + 1) s)))

/-- FIRMWARE_IMAGE_DOWNLOAD (R377): a piece goes into the buffer, or waits while a host commit reads it. -/
def execFirmwareImageDownload (cid offset : Nat) (piece : List Byte) (s : State) : Host.Outcome State Fault Refusal :=
  .next (adminCmd true cid (fun s =>
    if offset % 4096 ≠ 0 ∨ 0x8000000 < offset + piece.length then adminErr cid 0 2 s
    else match s.cst.commit with
      | some { src := .host _, .. } =>
        { s with cst := { s.cst with downloads := s.cst.downloads ++ [(cid, offset, piece)] } }
      | _ => adminOk cid { s with cst := { s.cst with buffer := s.cst.buffer ++ [(offset, piece)] } }) s)

/-! ### Confirmation (R367) -/

/-- The first CONFIRM of a start clears BOOT_COUNT, marks the running images Confirmed, and thaws the Lantern with AUTO_THAW. -/
def confirmStart (s : State) : State :=
  let run := [s.cst.ledgerSlot, s.cst.osSlot].filter (· ≠ 0)
  let first := !s.cst.confirmed
  let s := forAll run (fun x s => if (slotAt s x).st = .active then setSlotAt x (fun y => { y with st := .confirmed }) s else s)
    { s with cst := { s.cst with bootCount := 0, confirmed := true, settingsOld := none } }
  if first ∧ s.lnt.frozen ∧ fld s LNT_CFG 0 0 = 1 then lntThaw s else s

/-- A store to CST_BOOT_CTL. -/
def storeBootCtl (v : Word) (s : State) : State :=
  let s := storeWo CST_BOOT_CTL v s
  if bitAt v.toNat 0 ∧ !s.cpx.appsOn.isEmpty then confirmStart s else s

/-- BOOT_CONFIRM (R367): CST_BOOT_CTL with CONFIRM = 1. -/
def execBootConfirm (v : Word) (s : State) : Host.Outcome State Fault Refusal :=
  .next (storeBootCtl (toWord (putBits v.toNat 0 0 1)) s)

/-! ### The device OS watchdog (R331) -/

/-- A store to CPX_OS_WDOG restarts the period. -/
def storeOsWdog (v : Word) (s : State) : State :=
  let s := storeFile CPX_OS_WDOG v s
  { s with cpx := { s.cpx with wdogArmed := rg s CPX_OS_WDOG ≠ 0 } }

/-- OS_WATCHDOG_WRITE (R331). -/
def execOsWatchdogWrite (v : Word) (s : State) : Host.Outcome State Fault Refusal := .next (storeOsWdog v s)

/-! ### Alarms (R56) -/

/-- What a fleet activation does at its time (R290): a committed unit activates the image, any other disarms. -/
def fleetActs (s : State) : State :=
  match s.flt.act with
  | none => s
  | some a =>
    if !a.commit then cancelAct s
    else match holdsImage s a.digest with
      | some slot => actTry { s with
          flt := { s.flt with act := none }
          cst := { s.cst with actSlots := addTo s.cst.actSlots slot, actDue := true } }
      | none => { s with flt := { s.flt with act := none } }

/-- Fire an alarm: its status bit, its record, and the event to the block that armed it. -/
def fireAlarm (n : Nat) (s : State) : State :=
  match mget s.tck.alarms n with
  | none => s
  | some (t, owner) =>
    let s := setReg TCK_ALARM_STATUS (toWord (rg s TCK_ALARM_STATUS ||| 2 ^ n))
      (raise Ev.TCK_ALARM_FIRED ([toByte n] ++ le 8 t) { s with tck := { s.tck with alarms := mdel s.tck.alarms n } })
    match owner with
    | .os => irqRaise (64 + n) s
    | .cst => actTry { s with cst := { s.cst with actDue := true } }
    | .flt => fleetActs s

/-- Fire every alarm at whose value fleet time has arrived. -/
def fireAlarms (s : State) : State :=
  forAll (List.range 4) (fun n s => match mget s.tck.alarms n with
    | some (t, _) => if t ≤ s.tck.fleet then fireAlarm n s else s
    | none => s) s

/-- ALARM_FIRED (R56): at a tick edge, an alarm whose value fleet time has reached fires. -/
def execAlarmFired (n : Nat) (s : State) : Host.Outcome State Fault Refusal :=
  .next (match mget s.tck.alarms n with
    | some (t, _) => if n < 4 ∧ t ≤ s.tck.fleet ∧ s.tck.now = s.tck.tickStart then fireAlarm n s else s
    | none => s)

end Sys2Proof.Machine
end

