-- ==== Sys2Proof/Machine/Mover.lean ====
section
/-! DEFINITION. The Mover (R351-R355), the bytes that its reads see, and MEM's sub-word store fault (R328). -/

namespace Sys2Proof.Machine

/-! ### What the bus reads -/

/-- Byte b of a characteristic table row (Table 2.3). -/
def ctByte (r : CtRow) (b : Nat) : Byte :=
  if b < 2 then toByte (r.row / 256 ^ b)
  else if b = 4 ∨ b = 5 then toByte (r.wCount / 256 ^ (b - 4))
  else if 16 ≤ b ∧ b < 448 then toByte (ctNibble r (2 * (b - 16)) + 16 * ctNibble r (2 * (b - 16) + 1))
  else 0

/-- The counters region (Table 11.12). -/
def countersRegion (s : State) : List Byte :=
  let memberRec := fun (p : Port) =>
    let body := le 4 p.gen ++ [toByte p.st.code, toByte (p.position.getD 0xFF), 0, 0] ++ le 16 p.serial ++ le 4 0
    body ++ le 4 (crc32c body)
  layout 416 ([(0, le 8 s.sec.wseqMark), (8, le 8 s.cst.bootCount), (16, le 8 s.sec.mramSecver), (64, le 8 s.sec.sanitize)]
    ++ (List.range 9).map (fun m => (128 + 32 * m, memberRec (portAt s m))))

/-- A byte of the partial-row parity region (Tables 8.4 and 8.5): 64 slots, each with up to 15 held P codewords. -/
def slotByte (s : State) (o : Nat) : Byte :=
  match s.mbr.slots.find? (fun p => Config.paritySlot p.1 % 64 = o / 65536) with
  | none => if o % 65536 < 4 then 0xFF else 0
  | some (b, es) =>
    let x := o % 65536
    if x < 4 then (le 4 b).getD x 0
    else if x = 4 then toByte es.length
    else if x < 256 then 0
    else match es[(x - 256) / 4160]? with
      | none => 0
      | some (row, ch, cw) =>
        let head := le 2 row ++ [toByte ch, toByte cw]
        let p := bitsToBytes (((parityCws s b row (ch % 4) false).getD cw .pad).payload.toBits) 4128
        (head ++ le 4 (crc32c (head ++ p)) ++ List.replicate 24 0 ++ p).getD ((x - 256) % 4160) 0

/-- A keeper journal entry (Table 11.13). -/
def Journal.bytes (j : Journal) : List Byte :=
  let role := match j.role with
    | .own => 1
    | .keeper => 2
    | .relief => 3
  let st := match j.st with
    | .intended => 1
    | .done => 2
    | .programmed => 3
  let buf := if j.role = .own then 0xFFFFFFFF else Config.keeperPlace j.writer j.seqNo j.keeperJ
  let body := padTo 56 (le 8 j.seqNo ++ le 2 (j.writer % 2 ^ 14) ++ le 2 j.count ++ le 4 j.stripe ++ le 8 j.epoch ++ le 2 j.offset ++ le 2 0 ++ le 4 buf)
  [toByte (16 * role + st), toByte j.index, toByte j.keeperJ, 0] ++ le 4 (crc32c body) ++ body

/-- A byte of the keeper journal region; an entry that no write holds is free (ROLE 0x0). -/
def journalByte (s : State) (o : Nat) : Byte :=
  match s.flt.journal.find? (fun j => Config.journalSlot j.writer j.seqNo j.keeperJ % 65536 = o / 64) with
  | some j => j.bytes.getD (o % 64) 0
  | none => 0

/-- The byte that a read of an address sees: the regions of the MRAM window (Table 11.11), table rows in the characteristic table buffers,
otherwise addressed memory. -/
def busByte (s : State) (a : Nat) : Byte :=
  if 0x1000000000 ≤ a ∧ a < 0x1002000000 then
    let o := a - 0x1000000000
    if o < 0x1200000 then logByte s o
    else if o < 0x1600000 then slotByte s (o - 0x1200000)
    else if o < 0x1A00000 then journalByte s (o - 0x1600000)
    else if o < 0x1E00000 then (bandAt s ((o - 0x1A00000) / 32)).bytes.getD (o % 32) 0
    else if o < 0x1F00000 then (lntRegion s (o - 0x1E00000) 1).getD 0 0
    else (countersRegion s).getD (o - 0x1F00000) 0
  else if 0x2000400000 ≤ a ∧ a < 0x2000800000 then
    let o := a - 0x2000400000
    let t := if o / 0x200000 = 0 then s.tck.tables.1 else s.tck.tables.2
    match t.rows[o % 0x200000 / 512]? with
    | some r => ctByte r (o % 512)
    | none => 0
  else readByte s a

/-! ### Descriptors -/

/-- Is [a, a + n) HBM, MRAM or on-chip SRAM, between which alone the Mover carries transfers (R18)? -/
def movMem (a n : Nat) : Bool :=
  (a + n ≤ 0x0CC0000000) || (0x1000000000 ≤ a && a + n ≤ 0x1002000000) || (0x2000000000 ≤ a && a + n ≤ 0x2000800000)

/-- May a channel read, or write, n bytes at an address (R18, R329)? Channels 32-63 belong to the ledgers. -/
def movReads (s : State) (ch a n : Nat) : Bool := if ch < 32 then osCanRead s a n else movMem a n
def movWrites (s : State) (ch a n : Nat) : Bool := if ch < 32 then osCanWrite s a n else movMem a n

/-- The MOV status that makes a descriptor bad before it runs (R353): 0xFF malformed, the low byte of MOV_MISALIGNED, or none. -/
def descBad (ch : Nat) (d : List Byte) : Option Nat :=
  let f := fieldAt d
  let ev := f 29 1
  if f 0 2 ≠ 0x0C01 ∨ f 2 1 ≠ 0 ∨ f 13 3 ≠ 0 ∨ f 21 3 ≠ 0 ∨ 4 ≤ f 28 1 ∨ bits ev 5 4 ≠ 0 ∨ f 30 34 ≠ 0 ∨ (2 ≤ bits ev 7 6 ∧ ch < 32) then some 0xFF
  else if f 8 8 % 64 ≠ 0 ∨ f 16 8 % 64 ≠ 0 ∨ f 24 4 % 64 ≠ 0 ∨ f 24 4 = 0 then some (Ev.MOV_MISALIGNED % 256)
  else none

/-- Write the beats of a piece in order; stop at one that the channel may not write. -/
def writeBeats (ch : Nat) (fixed : Bool) : Nat → List (List Byte) → State → State × Bool
  | _, [], s => (s, true)
  | a, b :: bs, s =>
    if movWrites s ch a 64 then writeBeats ch fixed (if fixed then a else a + 64) bs (writeBytes a b s) else (s, false)

/-- Copy in pieces of at most 4 KiB, each read whole before any of it is written (R354); `poison`: addresses of poisoned source words.
Answers whether no bus error met it (R353). -/
def copyPieces (ch : Nat) (poison : List Nat) (sf df : Bool) : Nat → Nat → Nat → Nat → State → State × Bool
  | 0, _, _, _, s => (s, true)
  | n + 1, src, dst, len, s =>
    if len = 0 then (s, true)
    else
      let piece := Nat.min 4096 len
      let at_ := fun i => if sf then src else src + 64 * i
      let k := piece / 64
      if (List.range k).all (fun i => movReads s ch (at_ i) 64 && !poison.any (fun a => at_ i ≤ a && a < at_ i + 64)) then
        let beats := (List.range k).map (fun i => (List.range 64).map (fun j => busByte s (at_ i + j)))
        let r := writeBeats ch df dst beats s
        if r.2 then copyPieces ch poison sf df n (if sf then src else src + piece) (if df then dst else dst + piece) (len - piece) r.1 else r
      else (s, false)

/-- A Mover channel. -/
def movAt (s : State) (ch : Nat) : MovCh := mgetD s.mov.chans ch {}

/-- Change a Mover channel. -/
def setMov (ch : Nat) (f : MovCh → MovCh) (s : State) : State :=
  { s with mov := { s.mov with chans := mput s.mov.chans ch (f (movAt s ch)), last := ch } }

/-- The channels as they begin at an edge: by PRIO, 0 first, and in the rotation of R50 within one (R354). -/
def movOrder (s : State) : List Nat :=
  (List.range 4).flatMap (fun p => (rotate s.tck.tick 64).filter (fun n => bits (rg s (MOV_CHn_CFG n)) 2 1 = p))

/-- Begin the next descriptor of a channel: not in a held tick, only while the channel is enabled (R351). -/
def movBegin (ch : Nat) (s : State) : State :=
  let c := movAt s ch
  if c.busy ∨ s.tck.holding ∨ s.cst.mode = .dark ∨ s.cst.mode = .beacon ∨ !bitAt (rg s (MOV_CHn_CFG ch)) 0 then s
  else match c.taken with
    | [] => s
    | (n, d, ws) :: rest =>
      let s := setMov ch (fun c => { c with taken := rest, busy := true, cur := n, event := fieldAt d 29 1, bad := descBad ch d }) s
      if (descBad ch d).isSome then s
      else
        let m := fieldAt d 28 1
        let len := fieldAt d 24 4
        let w := memReads ws s
        let r := copyPieces ch (w.2.map (·.1)) (bitAt m 0) (bitAt m 1) (cdiv len 4096) (fieldAt d 8 8) (fieldAt d 16 8) len (drawFree w.1)
        if r.2 then r.1 else setMov ch (fun c => { c with bad := some (Ev.MOV_BUS_ERROR % 256) }) r.1

/-- TRANSFER (R352-R354): the channel takes the descriptor and runs it in its turn. -/
def execTransfer (ch : Nat) (desc : MovDesc) (s : State) : Host.Outcome State Fault Refusal :=
  .next (if 64 ≤ ch then s
  else movBegin ch (setMov ch (fun c => { c with taken := c.taken ++ [(c.count, padTo 64 desc.bytes, desc.words)], count := c.count + 1 }) s))

/-- The address of descriptor n of a device OS channel in its ring. -/
def movRingAddr (s : State) (ch n : Nat) : Option Nat :=
  if ch < 32 then (mget s.sys.rings (32 + ch)).map (fun g => g.base + 64 * (n % 2 ^ g.descLog2)) else none

/-- One pulse of a Watch event counter (R355): it wraps, and raises its interrupt source at the compare value. -/
def eventPulse (e : Nat) (s : State) : State :=
  let v := toWord (rg s (MOV_EVCNTe e) + 1)
  let s := setReg (MOV_EVCNTe e) v s
  if v.toNat = rg s (MOV_EVCMPe e) then irqRaise (48 + e) s else s

/-- A list without its first element that meets a condition. -/
def dropFirst (p : Desc → Bool) : List Desc → List Desc
  | [] => []
  | d :: ds => if p d then ds else d :: dropFirst p ds

/-- A descriptor taken from a device OS ring has ended: the ring's consumer index moves past it (R452). -/
def movRingEnd (ch : Nat) (s : State) : State :=
  match mget s.sys.rings (32 + ch) with
  | none => s
  | some g =>
    if 32 ≤ ch ∨ !s.sys.taken.any (fun d => d.src = .ring (32 + ch)) then s
    else
      let ix := (g.consIx + 1) % 2 ^ 32
      let s := { s with sys := { s.sys with
        rings := mput s.sys.rings (32 + ch) { g with open_ := g.open_ - 1, consIx := ix }
        taken := dropFirst (fun d => d.src = .ring (32 + ch)) s.sys.taken } }
      writeBytes g.cons (le 8 ix) s

/-- MOVER_DESCRIPTOR_END (R353, R355): a bad descriptor is marked in the ring, its event pulses, the next one begins. -/
def execMoverDescriptorEnd (ch : Nat) (s : State) : Host.Outcome State Fault Refusal :=
  .next (
    let c := movAt s ch
    if !c.busy then s
    else
      let s := bump MOV_DESC_CNT s
      let s := match c.bad with
        | none => s
        | some r =>
          let s := bump MOV_BAD_CNT s
          let s := match movRingAddr s ch c.cur with
            | some a => writeByte (a + 2) (toByte (fieldAt (readBytes s a 64) 2 1 ||| 0x80)) (writeByte (a + 3) (toByte r) s)
            | none => s
          if r = 0xFF then raise Ev.SYS_MALFORMED (le 2 0x0C01 ++ [toByte ch]) s
          else if r = Ev.MOV_MISALIGNED % 256 then raise Ev.MOV_MISALIGNED [toByte ch] (bump MOV_MISALIGNED_CNT s)
          else raise Ev.MOV_BUS_ERROR [toByte ch] (bump MOV_BUS_ERR_CNT s)
      let s := if bits c.event 7 6 = 1 then eventPulse (bits c.event 3 0) s else s
      movBegin ch (movRingEnd ch (setMov ch (fun c => { c with busy := false, bad := none }) s)))

/-! ### MEM -/

/-- Is an address in protected memory: HBM, the MRAM window, OS scratch or the table buffers (Table 11.2)? -/
def protectedMem (a : Nat) : Bool :=
  a < 0x0CC0000000 || (0x1000000000 ≤ a && a < 0x1002000000) || (0x2000000000 ≤ a && a < 0x2000800000)

/-- MEM_SUBWORD_STORE (R328): a store of fewer than 8 bytes to protected memory faults, the word is not written. -/
def execMemSubwordStore (addr width : Nat) (s : State) : Host.Outcome State Fault Refusal :=
  .next (if width < 8 ∧ protectedMem addr then emit (.accessFault addr) (raise Ev.MEM_SUBWORD_STORE (le 8 addr) s) else s)

end Sys2Proof.Machine
end

