-- ==== Sys2Proof/Machine/Plan.lean ====
section
/-! DEFINITION. The planning of a tick: the characteristic table, its check and its contents (R42-R45, R219, R254, R399), and the
planning cut-off, at which the Watch fills the slots of the next row (Table 2.2 step 4, R40, R43, R50, R182). -/

namespace Sys2Proof.Machine

/-! ### The characteristic table -/

/-- A slot rate as a reduced fraction of slots per tick: `rate` MB/s, times a / b slots for each codeword, over the tick length P, or the
locked L (R39). -/
def slotShare (s : State) (rate a b : Nat) : Nat × Nat :=
  let t := if fld s TCK_CFG 4 4 = 1 ∧ s.tck.frameL ≠ 0 then s.tck.frameL else periodNs (nextPeriod s)
  let n := rate * t * a
  let d := 4096000 * b
  let g := Nat.max 1 (Nat.gcd n d)
  (n / g, Nat.max 1 (d / g))

/-- Slots per tick of classes W, C and U, as fractions: every reservation with its parity (R45), the reclaim allowance (R219), the
rebuild allowance while a rebuild runs (R254). -/
def classShares (s : State) : (Nat × Nat) × (Nat × Nat) × (Nat × Nat) :=
  let p := parityCount s
  let d := (livePositions s).length - p
  if d = 0 ∨ !s.mbr.formatted then ((0, 1), (0, 1), (0, 1))
  else
    (slotShare s ((holders s).map (fun x => x.2.effRate)).sum (d + p) d,
     slotShare s (fld s STM_RECLAIM_ALLOW 16 0) (2 * d + p) d,
     slotShare s (if s.mbr.rebuild.isSome then fld s STM_REBUILD_ALLOW 16 0 else 0) (d + p) d)

/-- Channels of the carriers in use, in ascending order. -/
def tableChans (s : State) : List Nat :=
  (List.range 36).filter (fun c => (livePositions s).any (fun p => posPort s p = some (c / 4)))

/-- The slots of row k of n rows with w, c and u slots of classes W, C and U in all rows together: (index, code). The counts of two
rows differ by at most one. The other slots are M in the last slot of a channel every third row, else D and B by turns; under the
throttle each class but W is cut in proportion, from its end (R399). -/
def rowSlots (s : State) (n w c u k : Nat) : List (Nat × Nat) :=
  let chans := tableChans s
  let slots := slotsPerTick (nextPeriod s)
  let m := Nat.max 1 chans.length
  let cnt := fun t => t * (k + 1) / n - t * k / n
  let nw := Nat.min (cnt w) (chans.length * slots)
  let at_ := fun (j : Nat) => (chans.getD ((j + w * k / n) % m) 0, j / m)
  let code := fun (j : Nat) =>
    if j < nw then 1 else if j < nw + cnt c then 4 else if j < nw + cnt c + cnt u then 5
    else if (at_ j).2 + 1 = slots ∧ (k + (at_ j).1) % Nat.min n 3 = 0 then 6
    else if ((at_ j).1 + (at_ j).2) % 2 = 0 then 3 else 2
  let all := (List.range (chans.length * slots)).map (fun j => (24 * (at_ j).1 + (at_ j).2, code j))
  let of := fun x => all.filter (fun e => e.2 = x)
  let cut := Nat.min 400 (fld s THM_CFG 22 16 * s.thm.step)
  let part := fun x => if x = 6 ∧ cut = 400 then of x else (of x).take ((of x).length * (400 - cut) / 400)
  of 1 ++ ([2, 3, 4, 5, 6] : List Nat).flatMap part

/-- The table that the coordinator writes (R44): the shortest over which every allocation is whole, at most 4,096 rows. -/
def buildTable (s : State) : CtTable :=
  let x := classShares s
  let n := Nat.lcm x.1.2 (Nat.lcm x.2.1.2 x.2.2.2)
  let n := if 4096 < n then 4096 else n
  let all := n * (tableChans s).length * slotsPerTick (nextPeriod s)
  let w := Nat.min all (cdiv (x.1.1 * n) x.1.2)
  let c := Nat.min (all - w) (x.2.1.1 * n / x.2.1.2)
  let u := Nat.min (all - w - c) (x.2.2.1 * n / x.2.2.2)
  { rows := (List.range n).map (fun k =>
      let cls := rowSlots s n w c u k
      { row := k, wCount := (cls.filter (fun e => e.2 = 1)).length, cls := cls, rsv := false })
    slots := slotsPerTick (nextPeriod s)
    streams := s.stm.waitTable.map (fun e => e.2.2) }

/-- The coordinator writes a table into the inactive buffer and requests the swap (R44). -/
def writeTable (t : CtTable) (s : State) : State :=
  { s with tck := { s.tck with
    tables := if s.tck.bufB then (t, s.tck.tables.2) else (s.tck.tables.1, t)
    swapPending := true, tableWanted := false } }

/-! ### Filling the slots -/

/-- Does a band lie in part on an Unavailable port, so that its groups wait (R248)? -/
def bandHeld (s : State) (b : Nat) : Bool :=
  (bandAt s b).active.any (fun pos => (posPort s pos).any (fun m => (portAt s m).unavailable))

/-- May a waiting operation be planned now? A program unit begins in order on its channel (R174), and only after every channel of
the band has begun the unit before it (R210); nothing is begun on an Unavailable port, nor in a band that lies on one (R248). -/
def opReady (s : State) (o : Op) : Bool :=
  !(portAt s (o.ch / 4)).unavailable && match o.kind with
  | .erase _ => true
  | .prog key =>
    match mget s.bnd.pages key with
    | none => true
    | some p =>
      let unit := p.unit s
      let u := unitPages s p.band
      let begun := fun (pos k : Nat) => deadPlace s p.band ((unit - 1) * u) pos k || (match chanOf s pos k with
        | some ch => unit ≤ mgetD (openAt s p.band).started ch 0
        | none => true)
      unitBegun s p || (!bandHeld s p.band && (blkOf s p.ch p.band).ptr = unit * u && (unit = 0 || !mhas s.bnd.opens p.band
        || (bandAt s p.band).active.all (fun pos => (List.range 4).all (begun pos))))

/-- What filling has come to: the operations left, the codeword reads whose data still needs a slot by 8 × channel + class code, the
slots filled, the slots given to reads by the same key, streams that lost a tie (R50), streams that left a W slot unused. -/
structure PlanAcc where
  queue : List Op
  demand : AMap Nat
  items : List PlanItem := []
  reads : AMap Nat := []
  ties : List Nat := []
  unused : List Nat := []
  deriving DecidableEq, Repr

/-- Is it a page's turn among its unit's pages, which a channel programs in ascending row order (R175)? `l`: what still waits. -/
def rowTurn (s : State) (l : List Op) (o : Op) : Bool :=
  match o.kind with
  | .erase _ => true
  | .prog key => match mget s.bnd.pages key with
    | none => true
    | some p => (unitBefore s p).all (fun q => q.any (fun q =>
        q.st ≠ .queued || !l.any (fun x => x.kind = .prog (pageKey q.band q.row q.pos (q.ch % 4)))))

/-- The winner among waiting operations of one class under R50: the first stream from p, its operations in their order. -/
def pickOp (p : Nat) (l : List Op) : Option Op := minBy (fun o => (o.stream + 4096 - p % 4096) % 4096) l

/-- Does an operation carry data that draws on its stream's own STAGE? -/
def ownData (s : State) (o : Op) : Bool :=
  match o.kind with
  | .prog key => match mget s.bnd.pages key with
    | some p => p.lbas.any (fun l => match mget s.hif.slots l.1 with | some sl => sl.acct = o.stream | none => false)
    | none => false
  | .erase _ => false

/-- Is a waiting operation backlog of a reservation, which class B carries ahead of every best-effort stream (R107): data of an Admitted
stream in a shared band, data that a reservation staged before it ended or was lost (R116), or what is left in a lost one's bands? -/
def backlog (s : State) (o : Op) : Bool :=
  (o.cls = .w && !(streamAt s o.stream).holds)
    || (o.cls = .b && o.stream ≠ 0 && ((streamAt s o.stream).st = .admitted || ownData s o))

/-- The band that an operation works on. -/
def Op.band (s : State) (o : Op) : Option Nat :=
  match o.kind with
  | .erase b => some b
  | .prog key => (mget s.bnd.pages key).map (·.band)

/-- Has the throttle reached r = 1 (R399)? -/
def throttled (s : State) : Bool := 400 ≤ fld s THM_CFG 22 16 * s.thm.step

/-- May an operation be planned under the throttle: at r = 1 those of class M only as they finish a checkpoint (R399)? -/
def mayThrottle (s : State) (o : Op) : Bool :=
  o.cls ≠ .m || !throttled s || (s.map.running.isSome && (o.band s).any (· < s.bnd.sysBands))

/-- Waiting operations of class M that go ahead of its other work: those of system bands while BND_SYS_SPACE_LOW holds (R226). -/
def sysFirst (s : State) (l : List Op) : List Op :=
  if s.bnd.sysLow then l.filter (fun o => o.cls = .m && (o.band s).any (· < s.bnd.sysBands)) else []

/-- The operation that a class gives for a slot: class B first carries the backlog of reservations, class W only reservations, class M
first system reclaim where space is low. -/
def classOp (s : State) (p : Nat) (l : List Op) (cl : Cls) : Option Op × List Nat :=
  let l := l.filter (fun o => rowTurn s l o && mayThrottle s o)
  let own := l.filter (fun o => o.cls = cl && (cl ≠ .w || (streamAt s o.stream).holds))
  let back := if cl = .b then l.filter (backlog s) else if cl = .m then sysFirst s l else []
  let from_ := if back.isEmpty then own else back
  let win := pickOp p from_
  (win, if cl = .w ∨ cl = .b then ((from_.map (·.stream)).dedup).filter (fun i => some i ≠ win.map (·.stream)) else [])

/-- Give a slot to the first class in line that has work: a read whose sense has been issued, or a waiting operation. -/
def giveSlot (s : State) (p ch i : Nat) (code : Cls) : List Cls → PlanAcc → PlanAcc
  | [], a => a
  | cl :: cs, a =>
    let key := 8 * ch + cl.code
    let n := mgetD a.demand key 0
    if 0 < n then { a with demand := mput a.demand key (n - 1), reads := mput a.reads key (mgetD a.reads key 0 + 1) }
    else match classOp s p (a.queue.filter (fun o => o.ch = ch)) cl with
      | (some o, lost) => { a with
          queue := (a.queue.map (fun x => if x.kind = o.kind ∧ x.ch = ch then { x with left := x.left - 1 } else x)).filter
            (fun x => 0 < x.left)
          items := a.items ++ [{ slot := i, code := code, op := o }]
          ties := a.ties ++ lost
          unused := if code = .w ∧ o.cls ≠ .w then a.unused ++ [p] else a.unused }
      | (none, _) => giveSlot s p ch i code cs a

/-- Codeword reads that have been sensed, or are being, and need a slot. -/
def readDemand (s : State) : AMap Nat :=
  s.flc.reads.foldl (fun m r =>
    if r.2.phase = .sensing ∨ r.2.phase = .ready then
      match readTarget s r.2 with
      | some x => mput m (8 * x.1 + r.2.cls.code) (mgetD m (8 * x.1 + r.2.cls.code) 0 + 1)
      | none => m
    else m) []

/-- Fill the slots of the next row (R43); at r = 1 only W slots and M slots that finish a checkpoint are filled (R399). -/
def fillRow (s : State) : PlanAcc :=
  let a := rowAhead s
  let p := s.tck.tick + 1
  (List.range 36).foldl (fun acc ch => (List.range a.2.2).foldl (fun acc i =>
    let code := slotCls a.1 a.2.1 a.2.2 ch i
    giveSlot s p ch i code (if throttled s then (if code = .w then [.w, .b] else if code = .m then [.m] else []) else lendOrder code)
      acc) acc)
    { queue := s.tck.queue.filter (opReady s), demand := if throttled s then [] else readDemand s }

/-- Slots of class B in the next row. -/
def backSlots (s : State) : Nat :=
  let a := rowAhead s
  ((List.range 36).map (fun ch => ownSlots a.1 a.2.1 a.2.2 ch .b)).sum

/-- Staged pages of Admitted streams that the W slots of the next row do not begin, newest first (R107); KEEP_STREAM uses its W slots
and no others (R28). -/
def backPages (s : State) : List Nat :=
  let begun := (fillRow s).items.map (fun it => it.op.kind)
  s.tck.queue.reverse.filterMap (fun o => match o.kind with
    | .prog key => match mget s.bnd.pages key with
      | some p => if o.cls = .w ∧ o.left = 4 ∧ p.src = .write ∧ p.st = .queued ∧ !unitBegun s p ∧ (streamAt s o.stream).st = .admitted
          ∧ !(s.flt.slice.isSome ∧ s.flt.keepStream = o.stream) ∧ !begun.contains o.kind then some key else none
      | none => none
    | .erase _ => none)

/-- The coordinator puts as much backlog of Admitted streams into the shared bands as the class B slots of the next row carry beside
the backlog that waits there (R107, R114). -/
def backlogStep (s : State) : State :=
  let there := ((s.tck.queue.filter (backlog s)).map (·.left)).sum
  let n := (backSlots s - there) / 4
  if n = 0 ∨ (pageBands s 0 0 false).isEmpty then s else forAll ((backPages s).take n).reverse moveBacklog s

/-- Of waiting reads, those that no earlier one's sense serves. -/
def senseLeads : List (Nat × Rd) → List (Nat × Rd)
  | [] => []
  | x :: xs => x :: (senseLeads xs).filter (fun y => !sameSense x.2 y.2)

/-- Senses of the next tick (R182): on each channel the senses of a class outstanding stay no more numerous than the class's own slots
in the next ceil(TR_MAX / P) rows, and one at least. A self-test's reads come after every other one of class D (R87), those of system
reclaim before every other one of class M while BND_SYS_SPACE_LOW holds (R226). -/
def planSenses (s : State) : List Nat :=
  let a := rowAhead s
  (List.range 36).flatMap (fun ch =>
    let h := cdiv (memberFig s (ch / 4) Nat.max (·.trMax)) (Nat.max 1 (tickLen s))
    ([.d, .c, .u, .m] : List Cls).flatMap (fun cl =>
    let mine := s.flc.reads.filter (fun r => r.2.cls = cl && (readTarget s r.2).any (fun x => x.1 = ch))
    let lead := (senseLeads (mine.filter (fun r => r.2.phase = .waiting)))
    let test := fun (r : Nat × Rd) => match r.2.use with | .selfTest _ => true | _ => false
    let sys := fun (r : Nat × Rd) => match r.2.use with | .sys _ _ => true | _ => false
    let first := if s.bnd.sysLow then lead.filter sys else []
    let host := ((if first.isEmpty then lead else first).filter (fun r => !test r)).map (·.1)
    let wait := if host.isEmpty then (lead.filter test).map (·.1) else host
    if wait.isEmpty ∨ throttled s then []
    else
      let out := ((mine.filter (fun r => r.2.phase = .sensing || r.2.phase = .ready)).map (fun r => r.2.sense)).dedup.length
      let lim := ((List.range h).map (fun j => ownSlots a.1 ((a.2.1 + j) % Nat.max 1 a.1.rows.length) a.2.2 ch cl)).sum
      wait.take (Nat.max 1 lim - out)))

/-- Streams' shares in the counters of Table 4.9: ties lost, and W slots left unused, which count for the reservation next in the
order of R50. -/
def countPlan (a : PlanAcc) (s : State) : State :=
  let s := forAll a.ties (fun i s => setStream i (fun t => { t with ties := t.ties + 1 }) s) s
  forAll a.unused (fun p s => match minBy (fun (x : Nat × Stream) => (x.1 + 4096 - p % 4096) % 4096) (holders s) with
    | some x => setStream x.1 (fun t => { t with wUnused := t.wUnused + 1 }) s
    | none => s) s

/-! ### The cut-off -/

/-- Does a pair give output: neither restarting nor failed (R336)? -/
def pairRuns (s : State) (n : Nat) : Bool := (pairAt s n).st ≠ .restarting && (pairAt s n).st ≠ .failed

/-- A pair has missed, or made, the cut-off: LWDOG misses in a row are a fault of its primary (R334). -/
def cutOff (late : List Nat) (n : Nat) (s : State) : State :=
  if !late.contains n then setPair n (fun p => { p with missed := 0 }) s
  else
    let m := (pairAt s n).missed + 1
    if fld s CPX_CFG 7 4 ≤ m then pairFault n (pairAt s n).primary 2 (setPair n (fun p => { p with missed := 0 }) s)
    else setPair n (fun p => { p with missed := m }) s

/-- The state with the register values that were visible when step 2 of the tick began, by which its deciders decide (R437). -/
def atStepTwo (s : State) : State := { s with regs := s.tck.seen }

/-- PLANNING_CUT_OFF (Table 2.2 step 4): `late`: pairs that have not signalled the end of their output, `mismatch`: pairs whose
checksums differ, `table`: a table that the coordinator has written. The plan of the next tick is closed. -/
def execPlanningCutOff (late mismatch : List Nat) (table : Option (List CtRow)) (s : State) : Host.Outcome State Fault Refusal :=
  .next (if !s.tck.running ∨ s.tck.planned ∨ !s.cpx.ledgersOn ∨ !s.cst.mode.runs then s
  else
    let late := (late.dedup).filter (fun n => n < 10 && pairRuns s n)
    let s := forAll (mismatch.dedup.filter (· < 10)) pairMismatch s
    let s := forAll (List.range 10) (cutOff late) s
    let s := if (pairAt s 9).st = .restarting then s else match table with
      | some rows => writeTable { rows := rows, slots := slotsPerTick (nextPeriod s), streams := s.stm.waitTable.map (fun e => e.2.2) } s
      | none => if s.tck.tableWanted then writeTable (buildTable (atStepTwo s)) s else s
    let s := if (pairAt s 9).st = .restarting then s else backlogStep s
    let a := fillRow (atStepTwo s)
    let senses := planSenses (atStepTwo s)
    countPlan a { s with tck := { s.tck with plan := a.items, readPlan := a.reads, senses := senses, planned := true, late := late } })

/-- TCK_HOLD_LIMIT (R48): HOLD_LIMIT ticks in a row have been held. -/
def execTckHoldLimit (s : State) : Host.Outcome State Fault Refusal :=
  .next (if s.cst.mode ≠ .halt ∧ 0 < s.tck.holdRun ∧ fld s TCK_CFG 19 8 ≤ s.tck.holdRun then
    haltWith Ev.TCK_HOLD_LIMIT (le 8 s.tck.tick) s
  else s)

end Sys2Proof.Machine
end

