-- ==== Sys2Proof/Machine/Tick.lean ====
section
/-! DEFINITION. The tick edge (Table 2.2 steps 1 and 2): the plan issues or the tick is held (R46-R49), tables swap (R44, R45), the
control rings are served (R41, R445-R454), and the work that blocks do at an edge is done. -/

namespace Sys2Proof.Machine

/-! ### Control rings -/

/-- Bytes 8-63 of a descriptor that its opcode uses, as (offset, length) in the descriptor; none for an opcode that no block of
Tables 4.5, 8.13, 9.7 and 14.6 defines. SET_MARKERS with MODE 0 ignores bytes 16-47. -/
def usedBytes (op : Nat) (stop : Bool) : Option (List (Nat × Nat)) :=
  if op = 0x0301 then some [(8, 2), (12, 4)]
  else if op = 0x0302 then some [(8, 2), (12, 12)]
  else if op = 0x0303 ∨ op = 0x0304 ∨ op = 0x0307 then some [(8, 2)]
  else if op = 0x0305 then some (if stop then [(8, 2), (12, 1), (16, 32)] else [(8, 2), (12, 1), (16, 12), (32, 16)])
  else if op = 0x0306 then some [(8, 2), (16, 8)]
  else if op = 0x0308 then some []
  else if 0x0701 ≤ op ∧ op ≤ 0x0706 then some [(8, 1)]
  else if op = 0x0707 ∨ op = 0x0709 then some [(8, 2)]
  else if op = 0x0708 then some [(8, 10), (24, 8)]
  else if op = 0x0801 ∨ op = 0x0809 ∨ op = 0x080B then some []
  else if op = 0x0802 then some [(8, 8)]
  else if op = 0x0803 then some [(8, 4), (16, 8)]
  else if op = 0x0804 then some [(8, 6)]
  else if op = 0x0805 ∨ op = 0x0808 then some [(8, 1)]
  else if op = 0x0806 then some [(8, 4)]
  else if op = 0x0807 then some [(8, 1), (16, 8)]
  else if op = 0x080A then some [(8, 56)]
  else if op = 0x1001 ∨ op = 0x1002 ∨ op = 0x1003 ∨ op = 0x1006 then some []
  else if op = 0x1004 then some [(24, 40)]
  else if op = 0x1005 then some [(8, 6), (16, 8)]
  else none

/-- The check of R446, steps 1 and 2, of the 64 bytes of a descriptor of a block: 0, or the status that completes it. -/
def descCheck (block : Nat) (d : List Byte) : Nat :=
  let op := fieldAt d 0 2
  match (if op / 256 = block then usedBytes op (fieldAt d 12 1 = 0) else none) with
  | none => Ev.SYS_OPCODE_UNKNOWN
  | some used =>
    let rsv := ((List.range 56).map (· + 8)).filter (fun i => !used.any (fun u => u.1 ≤ i && i < u.1 + u.2))
    if fieldAt d 2 2 ≠ 0 ∨ rsv.any (fun i => d.getD i 0 ≠ 0) then Ev.SYS_MALFORMED else 0

/-- A block takes a descriptor: one that fails R446 steps 1 and 2 ends at once. -/
def takeDesc (block : Nat) (d : Desc) (bytes : List Byte) (s : State) : State :=
  let s := { s with sys := { s.sys with taken := s.sys.taken ++ [d] } }
  let nm := descCheck block bytes
  if nm = 0 then s else completeErr d.src d.tag nm s

/-- A ring. -/
def ringAt (s : State) (ix : Nat) : Ring := mgetD s.sys.rings ix {}

/-- Change a ring. -/
def setRing (ix : Nat) (f : Ring → Ring) (s : State) : State :=
  { s with sys := { s.sys with rings := mput s.sys.rings ix (f (ringAt s ix)) } }

/-- Write a completion record into the ring's next entry (R453, Table 15.10). -/
def writeRecord (ix : Nat) (r : CplRec) (s : State) : State :=
  let g := ringAt s ix
  let n := 2 ^ g.cplLog2
  let a := g.cpl + 32 * (g.cplCnt % n)
  let phase := b2n (g.cplCnt / n % 2 = 0)
  let s := writeBytes (a + 8) (padTo 24 r.body) s
  let s := writeBytes a (le 4 r.tag ++ le 2 r.status ++ [toByte phase, 0]) s
  setRing ix (fun g => { g with cplCnt := (g.cplCnt + 1) % 2 ^ 32 }) s

/-- Write the records formed before this edge, in order, and raise interrupt source 24 + block code (R453). -/
def ringFlush (ix : Nat) (s : State) : State :=
  let rs := (ringAt s ix).formed
  if rs.isEmpty then s
  else irqRaise (24 + ix) (forAll rs (writeRecord ix) (setRing ix (fun g => { g with formed := [] }) s))

/-- Write the records of vendor admin commands into their buffers and post their CQEs (R91, R94). -/
def adminFlush (s : State) : State :=
  let rs := s.sys.hifFormed
  forAll rs (fun r s => adminNm r.1 r.2.status (hostEmit (.adminRecord r.1 r.2) s)) { s with sys := { s.sys with hifFormed := [] } }

/-- Take n descriptors of a ring from index i on. -/
def takeFrom (ix : Nat) : Nat → Nat → State → State
  | 0, _, s => s
  | n + 1, i, s =>
    let g := ringAt s ix
    let d := readBytes s (g.base + 64 * (i % 2 ^ g.descLog2)) 64
    let e : Desc := { src := .ring ix, opcode := fieldAt d 0 2, tag := fieldAt d 4 4, body := d.drop 8 }
    let s := setRing ix (fun g => { g with taken := (g.taken + 1) % 2 ^ 32, open_ := g.open_ + 1 }) s
    let s := if ix < 32 then takeDesc ix e d s else { s with sys := { s.sys with taken := s.sys.taken ++ [e] } }
    takeFrom ix n ((i + 1) % 2 ^ 32) s

/-- Read a device OS ring's doorbell and take what R451, or R452 for a Mover ring, allows. -/
def ringPoll (ix : Nat) (s : State) : State :=
  let g := ringAt s ix
  if g.st ≠ .on then s
  else
    let word := readBytes s g.prod 8
    let wait := (fieldAt word 0 4 + 2 ^ 32 - g.consIx) % 2 ^ 32
    if 2 ^ g.descLog2 < wait ∨ fieldAt word 4 4 ≠ 0 then
      raise Ev.SYS_RING_INDEX_INVALID [toByte ix] (setRing ix (fun g => { g with st := .error }) s)
    else if 32 ≤ ix then takeFrom ix (Nat.min (wait - g.open_) (Nat.min 32 (32 - g.open_))) ((g.consIx + g.open_) % 2 ^ 32) s
    else
      let unread := (g.cplCnt + 2 ^ 32 - leNat (readBytes s g.ccons 4)) % 2 ^ 32
      let n := Nat.min wait (Nat.min 32 (2 ^ g.cplLog2 - unread - g.open_ - g.formed.length))
      if n = 0 then s
      else
        let s := takeFrom ix n g.consIx s
        let ix' := (g.consIx + n) % 2 ^ 32
        writeBytes g.cons (le 8 ix') (setRing ix (fun g => { g with consIx := ix' }) s)

/-- The block of HIF ring 64-67. -/
def hifRingBlock (ix : Nat) : Nat := if ix = 64 then 0x03 else if ix = 65 then 0x07 else if ix = 66 then 0x08 else 0x10

/-- Take the vendor admin commands that wait for a block, 32 at most. -/
def hifPoll (ix : Nat) (s : State) : State :=
  let block := hifRingBlock ix
  let mine := (s.sys.hifRings.filter (fun d => d.opcode / 256 = block)).take 32
  let rest := s.sys.hifRings.filter (fun d => d.opcode / 256 ≠ block)
    ++ (s.sys.hifRings.filter (fun d => d.opcode / 256 = block)).drop 32
  forAll mine (fun d => takeDesc block d (le 2 d.opcode ++ [0, 0] ++ le 4 d.tag ++ padTo 56 d.body))
    { s with sys := { s.sys with hifRings := rest } }

/-- Step 2 of Table 2.2: the doorbells in rotating order over 68 requesters (R447). -/
def pollRings (s : State) : State :=
  forAll (rotate s.tck.tick 68) (fun ix s =>
    if 64 ≤ ix then hifPoll ix s else if mhas s.sys.rings ix then ringPoll ix s else s) s

/-! ### Table boundaries -/

/-- The first table that holds a stream's W slots runs: its RESERVE completes (R113), and its record follows at the next edge not held
(R453). The keeper's own requests have no requester. -/
def reserveDone (t : CtTable) (s : State) : State :=
  let mine := s.stm.waitTable.filter (fun w => t.streams.contains w.2.2)
  let s := { s with stm := { s.stm with waitTable := s.stm.waitTable.filter (fun w => !t.streams.contains w.2.2) } }
  let s := forAll mine (fun w => setStream w.2.2 (fun t => { t with wOn := t.holds })) s
  forAll mine (fun w s => match w.1 with
    | .admin cid => if 65536 ≤ cid then s else stmDone w.1 w.2.1 w.2.2 0 s
    | _ => stmDone w.1 w.2.1 w.2.2 0 s) s

/-- PERIOD and SOURCE take effect (R34); frame locking starts by acquiring FSYNC with ticks at their present length (R37), and ends with it
Off. -/
def newPeriod (s : State) : State :=
  let src := fld s TCK_CFG 4 4
  let s := if src = s.tck.source then s
    else { s with tck := { s.tck with fsync := if src = 1 then .acquiring else .off, fsyncLast := none, periods := [], fsyncMissRun := 0
                                      frameL := 0, frameT := 0 } }
  let old := (s.tck.period, s.tck.source)
  let s := { s with tck := { s.tck with period := nextPeriod s, source := src } }
  if old = (nextPeriod s, src) then s else rescale s

/-- The table boundary (R34, R44, R45): the new table is checked and swapped in, or kept out. -/
def boundary (s : State) : State :=
  let s := newPeriod s
  if !s.tck.swapPending then s
  else
    let t := tableNext s
    let s := { s with tck := { s.tck with swapPending := false } }
    match tableFails (slotsPerTick s.tck.period) t with
    | some k => raise Ev.TCK_CT_INVALID (le 2 k) s
    | none =>
      let s := { s with tck := { s.tck with bufB := !s.tck.bufB, swapTick := s.tck.tick } }
      raise Ev.TCK_CT_SWAPPED (le 2 t.rows.length) (bump TCK_CT_SWAP_CNT s)

/-! ### Reclaim (R216) -/

/-- Can a segment be copied as one run: an Extent, or a Granular segment whose mapped LBAs run unbroken from its first (R142)? -/
def copyWhole (mapped : List (Nat × Loc)) : Bool :=
  (mapped.zip (List.range mapped.length)).all (fun e => e.1.1 = e.2)

/-- Does a band hold a Granular segment that its reclaim returns to an extent (R142)? -/
def returnsTable (s : State) (b : Nat) : Bool :=
  (victimSegs s b).any (fun x => isGranular (segAt s.map.segs x.2) && copyWhole (segMapped (dOf s) s.map.pool (segAt s.map.segs x.2)))

/-- Choose a victim while reclaim runs and fewer than four are at work; not while the coordinator restarts (R336). While the pool is low or
exhausted, bands whose reclaim gives tables back go first (R141). -/
def victimStep (s : State) : State :=
  if !s.bnd.ready ∨ !s.bnd.low ∨ 4 ≤ s.bnd.victims.length ∨ (pairAt s 9).st = .restarting then s
  else
    let cand := (userIn s .closed).filter (fun b => !s.bnd.victims.contains b && 0 < validOf s b)
    let first := if s.map.poolLow ∨ s.map.poolExhausted then cand.filter (returnsTable s) else []
    match firstVictim s (if first.isEmpty then cand else first) with
    | none => s
    | some b => { s with bnd := { s.bnd with
        victims := s.bnd.victims ++ [b]
        recentV := ((validOf s b, bandCap s b) :: s.bnd.recentV).take 16 } }

/-- Sort (row, segment) pairs: ascending row, ties in ascending segment. -/
def sortSegs (l : List (Nat × Nat)) : List Nat :=
  (l.foldl (fun (m : AMap Nat) e => mput m (e.1 * 2 ^ 32 + e.2) e.2) []).map (·.2)

/-- Copy one segment out of a victim: whole where R142 allows, else the LBAs that lie in the victim. -/
def copySeg (b gsn : Nat) (s : State) : State :=
  let seg := segAt s.map.segs gsn
  let mapped := segMapped (dOf s) s.map.pool seg
  let whole := copyWhole mapped
  let lbas := if whole then mapped else mapped.filter (fun e => e.2.band = b)
  let home := segHome s.map.dir gsn
  let id := s.hif.nextCmd
  let c : Copy := { victim := b, gsn := gsn, lbas := lbas, whole := whole, nsid := home.1, base := home.2 * 4096 }
  let s := { s with
    hif := { s.hif with nextCmd := id + 1 }
    bnd := { s.bnd with copies := mput s.bnd.copies id c } }
  forAll lbas (fun e => queueRead (.copy id e.1) .c home.1 (home.2 * 4096 + e.1) e.2) s

/-- Start the copies of a victim that has none outstanding. -/
def copyStart (b : Nat) (s : State) : State :=
  if s.bnd.copies.any (fun p => p.2.victim = b) then s
  else forAll (sortSegs (victimSegs s b)) (copySeg b) s

/-- The pages of a copy, four codewords each. -/
def copyPages (id : Nat) (c : Copy) : List Page :=
  let l := c.lbas.map (fun e => (id, c.base + e.1))
  (List.range (cdiv l.length 4)).map (fun i =>
    { band := 0, row := 0, slot := 0, pos := 0, ch := 0, src := .copy id, cls := .c, stream := 0, nsid := c.nsid
      lbas := (l.drop (4 * i)).take 4 })

/-- Place a copy that has been read: a whole segment as one run of a shared band (R211), otherwise page by page. -/
def copyPlace (id : Nat) (c : Copy) (s : State) : State :=
  let pages := copyPages id c
  let done := fun (s : State) => bumpBy BND_COPY_CNT pages.length
    { s with bnd := { s.bnd with
        copies := mupd s.bnd.copies id (fun c => { c with placed := true })
        copied := mput (s.bnd.copied.filter (fun p => s.tck.now < p.1 + 1000000000)) s.tck.now
          (mgetD s.bnd.copied s.tck.now 0 + 4096 * c.lbas.length) } }
  if c.whole then
    match (pageBands s 0 0 false).find? (fun b => 1024 ≤ bandRoom s b) with
    | none => s
    | some b =>
      let start := (openAt s b).next
      let s := setOpen b (fun o => { o with
        next := o.next + 1024
        holes := o.holes ++ ((List.range (1024 - pages.length)).map (fun i => start + pages.length + i)) }) s
      done (forAll (pages.zip (List.range pages.length)) (fun e => putSlot b (start + e.2) e.1) s)
  else
    let room := ((pageBands s 0 0 false).map (fun b => (openAt s b).holes.length + bandRoom s b)).sum
    if room < pages.length then s
    else done (forAll pages (fun p s => (placePage 0 false p s).getD s) s)

/-- One round of reclaim: a victim, its copies, and the pages of copies that have been read. -/
def copyStep (s : State) : State :=
  let s := victimStep s
  let s := forAll s.bnd.victims copyStart s
  forAll (s.bnd.copies.filter (fun p => !p.2.placed && p.2.lbas.length ≤ p.2.got.length)) (fun p => copyPlace p.1 p.2) s

/-! ### The edge -/

/-- A filled slot issues, and counts for its stream (Table 4.9). -/
def xferCount (it : PlanItem) (s : State) : State :=
  let o := it.op
  let s := if it.code = .w ∧ o.cls = .w then setStream o.stream (fun t => { t with wGranted := t.wGranted + 1 }) s
    else if it.code = .b ∧ backlog s o then setStream o.stream (fun t => { t with bBacklog := t.bBacklog + 1 }) s
    else s
  xferSlot it s

/-- Step 1: the plan issues: slots in their order, then the senses. -/
def issuePlan (s : State) : State :=
  let s := resumeStep { s with tck := { s.tck with readSlots := s.tck.readPlan, readPlan := [] } }
  forAll s.tck.senses issueSense (forAll s.tck.plan xferCount s)

/-- What the coordinator does at an edge, unless it restarts (R336). -/
def coordinate (s : State) : State :=
  if (pairAt s 9).st = .restarting ∨ !s.bnd.ready then s
  else copyStep (openStep (armStep s))

/-- What the blocks do at an edge; past the cut-off of Table 13.7 whatever writes MRAM waits, and only reads go on (R407). -/
def blocksStep (s : State) : State :=
  let s := fogStep (reconStep s)
  if s.thm.mramCut then s
  else
    let s := sysStep s
    let s := releaseStep (closeStep (eraseStep (erasedStep (awaitStep s))))
    let s := placeAll (orphanStep (coordinate s))
    let s := freeCheck (rebuildStep s)
    let s := sanitizeProgress (formatStep (nsStep (lostStep s)))
    let s := shutdownStep (fnkStep (fleetRebuildStep (fleetStep s)))
    actTry (actStep s)

/-- A tick that is not held: the plan, the records, the rings, the blocks; CQEs and the Mover go on, its channels in rotating order
(R50). -/
def runTick (s : State) : State :=
  let s := { s with tck := { s.tck with holdRun := 0 } }
  let s := if !s.cst.mode.runs then s
    else
      let s := issuePlan s
      let s := adminFlush (forAll (s.sys.rings.map (·.1)) ringFlush s)
      if s.cpx.ledgersOn then blocksStep (pollRings s) else s
  forAll (movOrder s) movBegin (drainCqs s)

/-- A held tick (R46-R48): `shut`: in Halt, or after a thermal trip; `over_`: for want of a complete plan; `late`: the pairs that missed
the cut-off. -/
def holdTick (shut over_ : Bool) (late : List Nat) (s : State) : State :=
  let s := smartAdd 24 1 (bump TCK_HOLD_CNT { s with tck := { s.tck with plan := [], readPlan := [], readSlots := [], senses := [] } })
  let s := forAll ((s.stm.streams.filter (fun p => p.2.st = .admitted)).map (·.1))
    (fun i => setStream i (fun t => { t with heldTicks := t.heldTicks + 1 })) s
  if shut then s
  else
    let s := { s with tck := { s.tck with holdRun := s.tck.holdRun + 1 } }
    if over_ then
      raise Ev.TCK_OVERRUN (le 8 s.tck.tick ++ le 2 (maskOf 10 (fun n => late.contains n))) (bump TCK_OVERRUN_CNT s)
    else s

/-- A frame-locked tick starts: the first of a frame, or the next one; in Holdover frames start T apart (R38). -/
def frameStep (first : Bool) (s : State) : State :=
  if s.tck.source = 0 then s
  else if first then { s with tck := { s.tck with frameTick := 0 } }
  else if s.tck.fsync = .holdover ∧ fld s TCK_FRAME 17 0 ≤ s.tck.frameTick + 1 then
    bump TCK_FRAME_CNT { s with tck := { s.tck with frameTick := 0, frameStart := s.tck.now } }
  else { s with tck := { s.tck with frameTick := s.tck.frameTick + 1 } }

/-- The edge of the next tick, now. -/
def tickAt (s : State) : State :=
  let s := frameStep s.tck.edgeDue s
  let s := { s with tck := { s.tck with tick := (s.tck.tick + 1) % 2 ^ 64, tickStart := s.tck.now, edgeDue := false, seen := s.regs }
                    thm := { s.thm with driveBand := s.thm.band }
                    flc := { s.flc with dqUse := [] } }
  let s := if fld s TCK_CFG 5 5 = 1 then emit (.tickOut s.tck.tick) s else s
  let s := applyArmed (if tableRow s = 0 then boundary s else s)
  let shut := s.thm.tripped || s.cst.mode = .halt
  let late := if s.tck.planned then s.tck.late else (List.range 10).filter (pairRuns s)
  let over_ := s.cpx.ledgersOn && !late.isEmpty && s.tck.gap = 0
  let held := shut || over_ || 0 < s.tck.gap
  let s := { s with tck := { s.tck with holding := held, planned := false, late := [], gap := s.tck.gap - 1 } }
  let s := forAll (List.range 10) pairEdge s
  reserveDone (tableNow s) (if held then holdTick shut over_ late s else runTick s)

/-- TICK_EDGE (Table 2.2, R34-R36, R46): time goes on to the next edge; none while the edge waits for FSYNC. -/
def execTickEdge (s : State) : Host.Outcome State Fault Refusal :=
  .next (if !s.tck.running then s
  else match nextEdge s with
    | none => s
    | some e => tickAt (advance (e - s.tck.now) s))

end Sys2Proof.Machine
end

