-- ==== Sys2Proof/Machine/Views.lean ====
section
/-! DEFINITION. What each setup register reads: the registers that show the state of a block, the latched halves of 64-bit
registers, the rows of the Code Store (the register lists of every chapter; R58, R430-R434). -/

namespace Sys2Proof.Machine

/-! ### Code Store rows -/

/-- The calibration row (Table 12.4): 2 KiB. -/
def calRow (s : State) : List Byte :=
  let free := fun a n => (List.range n).map (fun i => Config.calibrationByte (a + i))
  let body := padTo 2044 (le 16 s.sec.serial ++ le 2 0x1F3A ++ free 18 6 ++ le 2 0x0960 ++ [0xB0] ++ le 5 0 ++ free 32 224)
  body ++ le 4 (crc32c body)

/-- The Daymark (Table 10.2): 96 B. -/
def daymark (s : State) : List Byte :=
  let hash := match s.sec.otpSecret with
    | some k => le 48 (Config.sha384 (idKey k))
    | none => le 48 0
  let body := padTo 92 (le 16 s.sec.serial ++ le 2 0x0960 ++ [0xB0, 0] ++ hash ++ le 4 0x00C20000 ++ le 4 s.sec.certs.length)
  body ++ le 4 (crc32c body)

/-- Word i of an OTP code word (Table 10.1); code word 3 reads zero (R296). -/
def otpWord (s : State) (w i : Nat) : Word :=
  let of_ := fun (bs : List Byte) => toWord (fieldAt bs (4 * i) 4)
  if w < 3 then if s.sec.otpDaymark then of_ ((daymark s).drop (32 * w)) else Config.otpWord false w i
  else if w = 3 then 0
  else if w < 6 then match s.sec.otpOwner with
    | some h => of_ ((padTo 64 (le 48 h)).drop (32 * (w - 4)))
    | none => Config.otpWord false w i
  else if w = 6 then
    if s.sec.otpLifecycle then of_ (padTo 32 (le 4 0x4E4D4331 ++ le 8 s.sec.otpTime)) else Config.otpWord false w i
  else if 8 ≤ w ∧ w < 72 then Config.otpWord (s.sec.steps.getD (w - 8) false) w i
  else Config.otpWord false w i

/-- CST_ROW_DATAw: word i of the code word that CST_ROW_SEL selects. -/
def rowData (s : State) (i : Nat) : Word :=
  let w := fld s CST_ROW_SEL 6 0
  if bitAt (rg s CST_ROW_SEL) 8 then otpWord s w i else toWord (fieldAt (calRow s) (32 * w + 4 * i) 4)

/-! ### Blocks -/

/-- Codes of the lock states (Table 2.10). -/
def LockSt.code : LockSt → Nat
  | .off => 0
  | .acquiring => 1
  | .locked => 2
  | .holdover => 3

/-- Codes of the gate states (Table 13.8). -/
def GateSt.code : GateSt → Nat
  | .off => 0
  | .on => 1
  | .draining => 2
  | .pending => 3

/-- The state of a gate as CLK_GATE_STATE shows it: every gate stands On until the ROM lets the start go on (Table 13.8), and follows its
control then. -/
def gateCode (s : State) (g : Nat) : Nat := if s.cst.mode = .dark then 1 else (gateState s g).code

/-- Codes of the pair states (Table 11.15). -/
def PairSt.code : PairSt → Nat
  | .paired => 0
  | .single => 1
  | .selfCheck => 2
  | .restarting => 3
  | .failed => 4

/-- Codes of the image slot states (CST_SLOTS). -/
def ImgSt.code : ImgSt → Nat
  | .empty => 0
  | .committed => 1
  | .pending => 2
  | .active => 3
  | .confirmed => 4
  | .rejected => 5

/-- Codes of the ring states (Table 15.8). -/
def RingSt.code : RingSt → Nat
  | .off => 0
  | .on => 1
  | .draining => 2
  | .error => 3

/-- TCK_STATUS (Table 2.10). -/
def tckStatus (s : State) : Nat :=
  fields [(8, 1, b2n s.tck.armed.isSome), (6, 2, s.tck.pps.code), (4, 2, s.tck.fsync.code), (3, 1, b2n s.tck.holding),
    (2, 1, b2n s.tck.timeSet), (1, 1, b2n s.tck.bufB), (0, 1, b2n s.tck.swapPending)]

/-- HIF_STATUS (Table 3.15). -/
def hifStatus (s : State) : Nat :=
  fields [(16, 5, s.hif.linkWidth), (12, 4, s.hif.linkSpeed), (4, 1, b2n s.hif.linkFlit), (3, 1, b2n (s.hif.idePhase = 1)),
    (2, 1, b2n (s.hif.shst = 2)), (1, 1, b2n s.hif.ccEn), (0, 1, b2n s.hif.linkUp)]

/-- STM_STATUS (Table 4.13). -/
def stmStatus (s : State) : Nat :=
  let n := fun (f : Stream → Bool) => (s.stm.streams.filter (fun p => f p.2)).length
  fields [(31, 1, b2n s.stm.fog), (30, 1, b2n (s.stm.fNum < s.stm.fDen)), (16, 12, n (fun t => t.st = .admitted)),
    (0, 13, n (fun t => t.st = .open_ || t.st = .admitted))]

/-- MAP_STATUS (Table 5.11). -/
def mapStatus (s : State) : Nat :=
  fields [(4, 1, b2n (poolFree s = 0)), (3, 1, b2n s.map.logFull), (2, 1, b2n (poolLow s)), (1, 1, b2n s.map.running.isSome),
    (0, 1, b2n s.map.replayed)]

/-- Bands listed in a state, system bands included. -/
def bandsIn (s : State) (st : BandSt) : Nat := (s.bnd.bands.filter (fun p => p.2.st = st)).length

/-- BND_STATUS (Table 7.8). -/
def bndStatus (s : State) : Nat :=
  fields [(3, 1, b2n s.bnd.sysLow), (2, 1, b2n s.bnd.withheld), (1, 1, b2n s.bnd.low),
    (0, 1, b2n (!s.bnd.victims.isEmpty))]

/-- BND_RC_NEED (R220): W × v / (1 − v) in MB/s, at most 80,000. -/
def rcNeed (s : State) : Nat :=
  let sec := s.tck.now / 1000000000
  let w := ((s.bnd.hostBytes.filter (fun p => sec < p.1 + 10)).map (·.2)).sum / 10000000
  let n := s.bnd.recentV.length
  let v := (s.bnd.recentV.map (fun p => p.1 * 65536 / Nat.max 1 p.2)).sum / Nat.max 1 n
  if v = 0 then 0 else if 65536 ≤ v then 80000 else Nat.min 80000 (w * v / (65536 - v))

/-- BND_RC_RATE: bytes copied over the last second, in MB/s. -/
def rcRate (s : State) : Nat := ((s.bnd.copied.filter (fun p => s.tck.now < p.1 + 1000000000)).map (·.2)).sum / 1000000

/-- MBR_GEOM (Table 8.18). -/
def mbrGeom (s : State) : Nat :=
  if !s.mbr.formatted then 0
  else fields [(12, 4, s.mbr.sparePort), (8, 4, positions s), (4, 4, parityCount s), (0, 2, s.mbr.geometry)]

/-- MBR_STATUS (Table 8.20). -/
def mbrStatus (s : State) : Nat :=
  if !s.mbr.formatted then 0
  else fields [(13, 1, b2n (degradedUnit s)), (12, 1, b2n s.mbr.rebuild.isSome),
    (0, 9, maskOf 9 (fun i => i < positions s && (match posPort s i with
      | some m => (portAt s m).st = .rebuilding
      | none => true)))]

/-- MBR_Mm_STATE (Table 8.21). -/
def portState (s : State) (m : Nat) : Nat :=
  let p := portAt s m
  let pend := match p.pending with
    | none => 0
    | some on => if on then 1 else 2
  fields [(20, 4, p.position.getD 15), (12, 4, pend), (7, 1, b2n p.powered), (6, 1, b2n p.inserted), (5, 1, b2n p.fault),
    (4, 1, b2n p.unavailable), (0, 4, p.st.code)]

/-- A fleet port's state code (Table 9.13): Pending while Draining with a latched request. -/
def FPort.code (p : FPort) : Nat :=
  match p.st with
  | .off => 0
  | .up => 1
  | .draining => if p.pending.isSome then 3 else 2

/-- FLT_STATUS (Table 9.13). -/
def fltStatus (s : State) : Nat :=
  fields [(16, 4, s.flt.fstate.code), (8, 6, s.flt.roster.length), (6, 2, s.flt.ports.2.code), (4, 2, s.flt.ports.1.code),
    (0, 1, b2n (leads s))]

/-- SEC_STATUS (Table 10.13). -/
def secStatus (s : State) : Nat :=
  fields [(16, 4, (liveLanes s).length), (8, 2, if commissioned s then s.sec.unlock else 3), (4, 1, b2n s.sec.idDisabled),
    (3, 1, b2n s.sec.lockout), (2, 1, b2n (s.cpx.ledgersOn && (liveLanes s).length ≤ 4)), (1, 1, b2n (s.sec.sanitize ≠ 0)),
    (0, 1, b2n s.sec.trngOk)]

/-- SEC_LANE_STATE. -/
def laneStates (s : State) : Nat :=
  ((List.range 8).map (fun l => (if ((laneAt s l).st = .draining ∨ (laneAt s l).st = .testing) ∧ (laneAt s l).pending.isSome then 3 else (laneAt s l).st.code) * 16 ^ l)).sum

/-- SEC_LIFECYCLE codes. -/
def lifecycleCode (s : State) : Nat :=
  match lifecycleOf s with
  | some .provisioned => 1
  | some .commissioned => 2
  | some .keyed => 3
  | _ => 0

/-- CPX_STATUS. -/
def cpxStatus (s : State) : Nat :=
  fields [(24, 8, maskOf 8 (fun c => s.cpx.appsOn.contains c)),
    (12, 10, maskOf 10 (fun n => (pairAt s n).st = .restarting)), (0, 10, maskOf 10 (fun n => (pairAt s n).st = .single))]

/-- MEM_INST_INFO to MEM_LOG_ADDR_HI of the selected instance: a selection beyond the instances present reads as zero. -/
def instView (s : State) (off : Nat) : Nat :=
  let i := fld s MEM_INST_SEL 9 0
  match instKind i with
  | none => 0
  | some (kind, spares) =>
    let x := instAt s i
    let e := x.log.getD (fld s MEM_LOG_SEL 3 0) (0, 0)
    if off = MEM_INST_INFO then fields [(16, 8, x.remaps.length), (8, 8, spares), (0, 2, kind)]
    else if off = MEM_INST_CE_CNT then sat32 x.ce
    else if off = MEM_INST_UE_CNT then sat32 x.ue
    else if off = MEM_LOG_ADDR_LO then e.1 % 2 ^ 32
    else fields [(8, 8, e.2), (0, 8, e.1 / 2 ^ 32)]

/-- CST_STATUS (Table 12.16). -/
def cstStatus (s : State) : Nat :=
  let armed : Bool := match mget s.tck.alarms 3 with
    | some a => a.2 = .cst || a.2 = .flt
    | none => false
  fields [(31, 1, b2n armed), (30, 1, b2n s.cst.actRunning), (29, 1, b2n s.cst.commit.isSome),
    (0, 16, maskOf 16 (fun b => (bankAt s b).erase.isSome || (bankAt s b).prog.isSome))]

/-- CST_BOOT_STATUS (Table 12.17). -/
def bootStatus (s : State) : Nat :=
  fields [(28, 4, s.cst.mode.code), (25, 1, b2n (s.cst.mode = .degraded && s.mbr.rebuild.isSome)), (24, 1, b2n s.cst.confirmed),
    (16, 8, s.cst.bootCount), (12, 4, s.cst.cause), (4, 4, s.cst.osSlot), (0, 4, s.cst.ledgerSlot)]

/-- THM_STATUS (Table 13.12). -/
def thmStatus (s : State) : Nat :=
  fields [(16, 8, s.thm.step), (8, 3, s.thm.band), (2, 1, b2n s.thm.holdStart), (1, 1, b2n (thermLow s)), (0, 1, b2n s.thm.pfail)]

/-- FLC_STATUS of channel c (Table 6.13). -/
def flcStatus (s : State) (c : Nat) : Nat :=
  fields [(16, 8, (s.flc.blocks.filter (fun b => b.1 / (64 * 65536) = c && b.2.st = .open_)).length), (8, 4, mgetD s.flc.trainSet c 0),
    (2, 1, b2n s.flc.probed), (1, 1, b2n (!(mgetD s.flc.trained c []).isEmpty)), (0, 1, b2n (bitAt (rg s (FLC_CFG c)) 0 && (portAt s (c / 4)).answers.any (fun a => a.chpos = c % 4)))]

/-- FLC_DIE_TEMP_MAX: the hottest target of a channel. -/
def dieTempMax (s : State) (c : Nat) : Nat :=
  match (List.range 32).foldl (fun (b : Option (Nat × Int)) t => match mget s.flc.dieTemps (tgtKey c t), b with
    | some v, some x => if x.2 < v then some (t, v) else b
    | some v, none => some (t, v)
    | none, _ => b) none with
  | some x => fields [(8, 5, x.1), (0, 8, signed 8 x.2)]
  | none => 0

/-! ### The register views -/

/-- The ring that SYS_RING_SEL selects. -/
def ringSel (s : State) : Nat := fld s SYS_RING_SEL 5 0

/-- Registers 0x044 to 0x074: the selected ring; zero where none is selected (R447). -/
def ringView (s : State) (off : Nat) : Nat :=
  if !ringIndexOk (ringSel s) then 0
  else
    let g := ringAt s (ringSel s)
    let half := fun (v lo : Nat) => if off = lo then v % 2 ^ 32 else v / 2 ^ 32
    if off = SYS_RING_CFG then
      fields [(30, 2, g.st.code), (16, 5, g.cplLog2), (8, 5, g.descLog2), (0, 1, b2n (g.st = .on || g.st = .error))]
    else if off = SYS_RING_BASE_LO ∨ off = SYS_RING_BASE_HI then half g.base SYS_RING_BASE_LO
    else if off = SYS_RING_PROD_LO ∨ off = SYS_RING_PROD_HI then half g.prod SYS_RING_PROD_LO
    else if off = SYS_RING_CONS_LO ∨ off = SYS_RING_CONS_HI then half g.cons SYS_RING_CONS_LO
    else if off = SYS_RING_CPL_LO ∨ off = SYS_RING_CPL_HI then half g.cpl SYS_RING_CPL_LO
    else if off = SYS_RING_CCONS_LO ∨ off = SYS_RING_CCONS_HI then half g.ccons SYS_RING_CCONS_LO
    else if off = SYS_RING_TAKEN then g.taken % 2 ^ 32
    else g.cplCnt % 2 ^ 32

/-- The 64-bit registers whose LO half latches the HI half when read (R58, R99, R159, R294, R325), with their values. -/
def latchedView (s : State) (lo : Nat) : Option Nat :=
  if lo = TCK_TICK_LO then some s.tck.tick
  else if lo = TCK_TIME_LO then some s.tck.fleet
  else if lo = HIF_CMD_CNT_LO then some s.hif.cmdCnt
  else if lo = MAP_LSN_LO then some s.map.lsn
  else if lo = MAP_CKPT_LSN_LO then some s.map.ckpt.replayLsn
  else if lo = FLT_EPOCH_LO then some s.flt.epoch
  else if lo = SEC_WSEQ_LO then some s.sec.wseq
  else none

/-- SYS, CLK, THM and TCK registers that show state. -/
def viewA (s : State) (off : Nat) : Option Nat :=
  if SYS_RING_CFG ≤ off ∧ off ≤ SYS_RING_CPL_CNT then some (ringView s off)
  else if off = SYS_STATUS then some (fields [(12, 4, s.sys.lastReset), (4, 4, s.sys.sealFail), (0, 1, b2n s.sys.isSealed)])
  else if off = SYS_PROFILE then some (b2n s.sys.legacy)
  else if off = SYS_STRAPS then some (fields [(2, 1, s.sys.compat), (0, 2, s.sys.bootSel)])
  else if off = SYS_GPIO_IN then some s.sys.gpioIn
  else if off = CLK_STATUS then some (maskOf 15 (fun i => !s.clk.unlocked.contains i))
  else if off = CLK_GATE_STATE_LO then some (((List.range 16).map (fun g => gateCode s g * 4 ^ g)).sum)
  else if off = CLK_GATE_STATE_HI then some (((List.range 15).map (fun g => gateCode s (16 + g) * 4 ^ g)).sum)
  else if off = CLK_XTAL_QUAL then some (s.clk.qualCount % 65536)
  else if off = THM_STATUS then some (thmStatus s)
  else if off = THM_HOT then some (fields [(16, 4, s.thm.hotSensor), (0, 16, signed 16 s.thm.hot)])
  else if off = THM_SENSOR then
    let x := s.thm.sensors.getD (fld s THM_SENSOR_SEL 3 0) {}
    some (fields [(16, 16, signed 16 x.high), (0, 16, signed 16 (x.last.headD 0))])
  else if off = THM_EXCLUDED then some (maskOf 12 (fun i => s.thm.excluded.contains i))
  else if off = THM_THROTTLE_TIME then some (sat32 (s.thm.throttle10us / 100))
  else if off = TCK_STATUS then some (tckStatus s)
  else if off = TCK_CT_STATE then
    some (fields [(16, 12, tableRow s), (0, 12, (tableNow s).rows.length - 1)])
  else if off = TCK_CT_A_BASE then some 0x00400000
  else if off = TCK_CT_B_BASE then some 0x00600000
  else none

/-- HIF, STM and MAP registers that show state. -/
def viewB (s : State) (off : Nat) : Option Nat :=
  if off = HIF_STATUS then some (hifStatus s)
  else if off = HIF_CFG then some (fields [(0, 3, rg s HIF_CFG), (3, 1, b2n s.sys.legacy)])
  else if off = HIF_PCI_ID then some 0x09601F3A
  else if off = HIF_SLOTS then some (fields [(0, 17, Nat.min 65536 (readSlots s + writeSlots s))])
  else if off = HIF_WRITE_SLOTS then some (fields [(0, 16, Nat.min 61440 (writeSlots s))])
  else if off = HIF_INFLIGHT then some (fields [(0, 24, (s.hif.index.map (fun p => p.2.nlb)).sum)])
  else if off = HIF_QUEUES then
    some (fields [(16, 16, (s.hif.cqs.filter (fun p => p.1 ≠ 0)).length), (0, 16, (s.hif.sqs.filter (fun p => p.1 ≠ 0)).length)])
  else if off = HIF_IDE_KEY_CTL then some (256 * maskOf 2 (fun n => s.hif.ideRx.contains n))
  else if off = STM_CEIL_BASE then some (fields [(0, 17, base8 s / 8)])
  else if off = STM_CEIL_KEEP then some (fields [(0, 17, cKeep s)])
  else if off = STM_CEIL_ADMIT then some (fields [(0, 17, cAdm s)])
  else if off = STM_CEIL_FLEET then some (fields [(0, 17, cFleet s)])
  else if off = STM_RESERVED_SUM then some (fields [(0, 20, rateSum (holders s))])
  else if off = STM_SCALE then some (65536 * s.stm.fNum / Nat.max 1 s.stm.fDen)
  else if off = STM_STATUS then some (stmStatus s)
  else if off = STM_BANDS then
    some (fields [(8, 8, ((userIn s .open_).filter (fun b => (bandAt s b).kind = 0)).length),
      (0, 8, ((holders s).map (fun p => p.2.bands)).sum)])
  else if off = STM_STAGING_USED then
    some (fields [(16, 16, mgetD s.stm.staged bePool 0 / 1048576), (0, 16, stageSum s bePool)])
  else if off = STM_SOFTQ then some s.stm.softq.length
  else if off = MAP_STATUS then some (mapStatus s)
  else if off = MAP_SEG_LIMIT then some s.map.segLimit
  else if off = MAP_SEG_ALLOC then some (segsAlloc s.map.dir)
  else if off = MAP_GROUPS then some ((s.map.dir.map (fun p => p.2.groups.length)).sum)
  else if off = MAP_POOL_USED then some s.map.pool.length
  else if off = MAP_LOG_USED then some (cdiv (ringUsed s) 1024)
  else if off = MAP_LOST_SEGS then some (lostSegs s).length
  else none

/-- BND and MBR registers that show state. -/
def viewC (s : State) (off : Nat) : Option Nat :=
  let fmt := 0 < s.bnd.nsets
  if off = BND_STATUS then some (bndStatus s)
  else if off = BND_GEOM then some (fields [(16, 6, s.bnd.nsets), (0, 16, s.bnd.vb)])
  else if off = BND_ROWS then some (if fmt then fields [(16, 16, userRows s / Nat.max 1 s.flc.profile.levels - 1), (0, 16, userRows s - 1)] else 0)
  else if off = BND_FREE then some (freeCount s)
  else if off = BND_OPEN then some (fields [(8, 8, (userIn s .erased).length), (0, 8, bandsIn s .open_)])
  else if off = BND_CLOSED then some (bandsIn s .closed)
  else if off = BND_AWAIT then some (bandsIn s .awaiting)
  else if off = BND_RETIRED then some (if fmt then 131072 - s.bnd.nsets * s.bnd.vb + bandsIn s .retired else 0)
  else if off = BND_RC_NEED then some (rcNeed s)
  else if off = BND_RC_RATE then some (Nat.min 131071 (rcRate s))
  else if off = BND_WEAR then some (fields [(16, 16, Nat.min 65535 (wearOf s false).2), (0, 16, Nat.min 65535 (wearMean s false))])
  else if off = BND_SYS_WEAR then some (fields [(16, 16, Nat.min 65535 (wearOf s true).2), (0, 16, Nat.min 65535 (wearMean s true))])
  else if off = BND_WEAR_PCT then some (fields [(8, 8, Nat.min 255 (wearPct s true)), (0, 8, Nat.min 255 (wearPct s false))])
  else if BND_Mm_FACTORY 0 ≤ off ∧ off < BND_Mm_FACTORY 9 then
    let m := (off - BND_Mm_FACTORY 0) / 32
    if off = BND_Mm_FACTORY m then some ((s.bnd.factory.filter (fun f => f.1 / 4 = m)).length)
    else if off = BND_Mm_GROWN m then some ((s.bnd.grown.filter (fun f => f.1 / 4 = m)).length)
    else if off = BND_Mm_SPARES_MIN m then some (if fmt then sparesMin s m else 0)
    else none
  else if off = MBR_STATUS then some (mbrStatus s)
  else if off = MBR_GEOM then some (mbrGeom s)
  else if off = MBR_POS_LO then
    some (if s.mbr.formatted then ((List.range 8).map (fun i => (posPort s i).getD 15 * 16 ^ i)).sum else 0)
  else if off = MBR_POS_HI then some (if s.mbr.formatted then (posPort s 8).getD 15 else 0)
  else if off = MBR_REBUILD then
    some (match s.mbr.rebuild with
      | some r => fields [(24, 4, r.position), (20, 4, r.port), (0, 17, r.marked.length)]
      | none => 0x0FF00000)
  else if off = MBR_SLOTS then some s.mbr.slots.length
  else if MBR_Mm_STATE 0 ≤ off ∧ off < MBR_Mm_STATE 9 then
    let m := (off - MBR_Mm_STATE 0) / 32
    if off = MBR_Mm_STATE m then some (portState s m)
    else if off = MBR_Mm_GEN m then some ((portAt s m).gen % 2 ^ 32)
    else if off = MBR_Mm_TEMP m then some (signed 8 (portAt s m).temp)
    else none
  else none

/-- FLT, SEC, CPX and MEM registers that show state. -/
def viewD (s : State) (off : Nat) : Option Nat :=
  if off = FLT_STATUS then some (fltStatus s)
  else if off = FLT_UNIT then some (fields [(16, 9, s.flt.group), (0, 14, s.flt.unitId)])
  else if off = FLT_GEOM then
    some (if s.flt.n = 0 then 0 else fields [(16, 5, s.flt.n - 1), (8, 3, s.flt.m), (0, 5, s.flt.position)])
  else if off = FLT_LINK_RATE then some (fleetLink s / 100)
  else if off = FLT_JOURNAL then some s.flt.journal.length
  else if off = FLT_STALE then some s.flt.stale.length
  else if off = SEC_STATUS then some (secStatus s)
  else if off = SEC_LIFECYCLE then some (lifecycleCode s)
  else if off = SEC_SECVER then some (secver s)
  else if off = SEC_LANE_STATE then some (laneStates s)
  else if off = SEC_KEYS then some (if s.sec.keyStore then s.map.dir.length else 0)
  else if off = SEC_PROV_RESULT then some s.sec.provResult
  else if off = SEC_KEY_GEN then some (s.sec.keyGen % 2 ^ 32)
  else if off = CPX_STATUS then some (cpxStatus s)
  else if CPX_Ln_STATE 0 ≤ off ∧ off < CPX_Ln_STATE 10 ∧ off % 16 = 0 then
    let p := pairAt s ((off - CPX_Ln_STATE 0) / 16)
    some (fields [(4, 1, p.primary), (0, 4, p.st.code)])
  else if off = MEM_STATUS then
    some (fields [(3, 1, b2n (s.memc.mramA != s.memc.mramB)), (2, 1, b2n s.memc.mramB), (1, 1, b2n s.memc.mramA), (0, 1, b2n s.memc.selfTestPass)])
  else if MEM_INST_INFO ≤ off ∧ off ≤ MEM_INST_UE_CNT then some (instView s off)
  else if off = MEM_LOG_ADDR_LO ∨ off = MEM_LOG_ADDR_HI then some (instView s off)
  else
    let b := hbmBases s
    if off = MEM_HBM_KEEP_BASE then some (s.memc.fixedKeep.getD b.1)
    else if off = MEM_HBM_STAGE_BASE then some b.2.1
    else if off = MEM_HBM_POOL_BASE then some b.2.2.1
    else if off = MEM_HBM_SYS_BASE then some b.2.2.2.1
    else if off = MEM_HBM_MAP_BASE then some b.2.2.2.2
    else none

/-- HBM offset, in units of 64 KiB, of a table of the system partition at an offset in MiB (Table 11.10); zero until MEM has tested HBM. -/
def tableBase (s : State) (mib : Nat) : Nat := if s.memc.selfTestPass then 16 * ((hbmBases s).2.2.2.1 + mib) else 0

/-- MOV, CST, LNT and FLC registers that show state. -/
def viewE (s : State) (off : Nat) : Option Nat :=
  if off = MOV_STATUS then
    some (fields [(6, 1, b2n (s.mov.chans.any (fun p => p.2.busy))), (0, 6, s.mov.last)])
  else if MOV_CHn_CFG 0 ≤ off ∧ off < MOV_CHn_CFG 64 ∧ off % 4 = 0 then
    some (fields [(0, 3, rg s off), (8, 1, b2n (movAt s ((off - MOV_CHn_CFG 0) / 4)).busy)])
  else if off = CST_STATUS then some (cstStatus s)
  else if off = CST_BOOT_STATUS then some (bootStatus s)
  else if off = CST_ACT_TIME_LO then some (s.cst.actTime % 2 ^ 32)
  else if off = CST_ACT_TIME_HI then some (s.cst.actTime / 2 ^ 32)
  else if off = CST_SLOTS then some (((List.range 5).map (fun i => (slotAt s (i + 1)).st.code * 16 ^ i)).sum)
  else if CST_ROW_DATAw 0 ≤ off ∧ off < CST_ROW_DATAw 8 ∧ off % 4 = 0 then some (rowData s ((off - CST_ROW_DATAw 0) / 4)).toNat
  else if off = LNT_STATUS then some (fields [(1, 1, b2n s.lnt.lastClean), (0, 1, b2n s.lnt.frozen)])
  else if off = LNT_NEWEST then some s.lnt.newest
  else if off = LNT_FROZEN_SEQ then some (if s.lnt.frozen then s.lnt.frozenSeq else 0)
  else if 0x100000 ≤ off ∧ off < 0x124000 then
    let c := (off - 0x100000) / 0x1000
    if off = FLC_STATUS c then some (flcStatus s c)
    else if off = FLC_TARGETS c then some (mgetD s.flc.fitted c 0)
    else if off = FLC_SUSPENDED c then
      some (maskOf 32 (fun t => match tgtAt s c t with | some o => o.suspended.isSome | none => false))
    else if off = FLC_DIE_TEMP_MAX c then some (dieTempMax s c)
    else if off = FLC_G_PROFILES then some (maskOf 8 s.flc.valid.contains)
    else if off = FLC_G_SOFT_BUSY then some (maskOf 8 (mhas s.flc.decoders))
    else if off = FLC_G_STAMP_BASE then some (tableBase s 64)
    else if off = FLC_G_REFINE_BASE then some (tableBase s 96)
    else if off = FLC_G_SOFT_TIME then some (Nat.min 65535 (s.flc.softTime / 10))
    else none
  else none

/-- Registers whose value is open to the model, beside the progress of a Sanitize: Mover pre-emptions, since no command carries a beat. -/
def openRegs : List Nat := [MOV_PREEMPT_CNT]

/-- SEC_SANITIZE: the kind in progress; the progress is open. -/
def sanitizeView (s : State) : Nat :=
  if s.sec.sanitize = 0 then 0
  else fields [(16, 4, s.sec.sanitize), (0, 16, (Config.openRegister s.freeCtr SEC_SANITIZE).toNat)]

/-- The value a setup register reads (R434): WO fields read zero, an unassigned offset reads zero (R431), a HI half reads what the last
read of its LO half latched. -/
def viewReg (s : State) (off : Nat) : Word :=
  match latchedView s off with
  | some v => toWord v
  | none =>
    if 4 ≤ off ∧ (latchedView s (off - 4)).isSome then mgetD s.latch off 0
    else if off = SEC_SANITIZE then toWord (sanitizeView s)
    else if off = SEC_TRNG_DATA then if s.sec.trngOk then Config.trngWord s.sec.draws else 0
    else if openRegs.contains off then Config.openRegister s.freeCtr off
    else
      match (viewA s off).orElse (fun _ => (viewB s off).orElse (fun _ => (viewC s off).orElse (fun _ =>
        (viewD s off).orElse (fun _ => viewE s off)))) with
      | some v => toWord v
      | none => match regDef off with
        | some d => toWord (rg s off &&& (0xFFFFFFFF ^^^ d.wo))
        | none => getReg s off

/-- A load from a setup register: a LO half latches its HI half, SEC_TRNG_DATA takes a fresh draw. -/
def loadReg (off : Nat) (s : State) : Word × State :=
  let v := viewReg s off
  let s := match latchedView s off with
    | some x => { s with latch := mput s.latch (off + 4) (toWord (x / 2 ^ 32)) }
    | none => s
  let s := if off = SEC_TRNG_DATA ∧ s.sec.trngOk then { s with sec := { s.sec with draws := s.sec.draws + 1 } } else s
  (v, if openRegs.contains off ∨ off = SEC_SANITIZE then drawFree s else s)

/-- LATCHING_LO_READ (R58): a load of the LO half of a 64-bit register that latches. -/
def execLatchingLoRead (off : Nat) (s : State) : Host.Outcome State Fault Refusal :=
  .next (if (latchedView s off).isSome then
    let r := loadReg off s
    emit (.load off r.1) r.2
  else s)

end Sys2Proof.Machine
end

