-- ==== Sys2Proof/Machine/Setup.lean ====
section
/-! DEFINITION. Setup space: stores to every register (R430-R437), access faults (R431), the host profile (R444), the device OS
rings (R447-R450) and GPIO (R471). The seal and the resets are in Boot.lean. -/

namespace Sys2Proof.Machine

/-! ### Device OS rings -/

/-- Do n bytes at an address lie where R329 gives the device OS write access (R448), aligned to `al`? -/
def ringSpan (s : State) (a n al : Nat) : Bool := a % al = 0 && osCanWrite s a n

/-- The check of R449 of a ring that is to be enabled. -/
def ringOk (s : State) (ix : Nat) (g : Ring) : Bool :=
  (4 ≤ g.descLog2 && g.descLog2 ≤ 16) && ringSpan s g.base (64 * 2 ^ g.descLog2) 64 && ringSpan s g.prod 8 8
    && ringSpan s g.cons 8 8
    && (32 ≤ ix || ((4 ≤ g.cplLog2 && g.cplLog2 ≤ 16) && ringSpan s g.cpl (32 * 2 ^ g.cplLog2) 64 && ringSpan s g.ccons 8 8))

/-- A Draining ring whose taken descriptors have all ended and been recorded is Off (R450). -/
def ringDrained (ix : Nat) (s : State) : State :=
  let g := ringAt s ix
  let work : Bool := 32 ≤ ix && ((movAt s (ix - 32)).busy || !(movAt s (ix - 32)).taken.isEmpty)
  if g.st = .draining ∧ g.open_ = 0 ∧ g.formed.isEmpty ∧ !work then setRing ix (fun g => { g with st := .off }) s else s

/-- A store to SYS_RING_CFG: EN = 1 on an Off ring enables it after its check, EN = 0 on a ring that is On or in Error makes it
Draining, any other store to a ring that is not Off is discarded (R449, R450). -/
def storeRingCfg (v : Word) (s : State) : State :=
  let ix := ringSel s
  if !ringIndexOk ix then ignoreStore s
  else
    let g := ringAt s ix
    let n := v.toNat
    match g.st with
    | .off =>
      let g := { g with cplLog2 := bits n 20 16, descLog2 := bits n 12 8 }
      let s' := match regDef SYS_RING_CFG with
        | some d => countStore d SYS_RING_CFG (ringView s SYS_RING_CFG) v s
        | none => s
      if !bitAt n 0 then setRing ix (fun _ => g) s'
      else if ringOk s ix g then
        let s' := if 32 ≤ ix then setMov (ix - 32) (fun c => { c with count := 0 }) s' else s'
        writeBytes g.cons (le 8 0) (setRing ix (fun _ => { g with st := .on, taken := 0, cplCnt := 0, consIx := 0, open_ := 0, formed := [] }) s')
      else discardStore SYS_RING_CFG v s
    | .draining => raise Ev.SYS_RING_BUSY [toByte ix] s
    | _ =>
      if bitAt n 0 then raise Ev.SYS_RING_BUSY [toByte ix] s
      else setRing ix (fun g => { g with st := .draining }) s

/-- RING_ENABLE (R449): SYS_RING_CFG with EN = 1. -/
def execRingEnable (v : Word) (s : State) : Host.Outcome State Fault Refusal :=
  .next (storeRingCfg (toWord (putBits v.toNat 0 0 1)) s)

/-- RING_DISABLE (R450): SYS_RING_CFG with EN = 0. -/
def execRingDisable (v : Word) (s : State) : Host.Outcome State Fault Refusal :=
  .next (storeRingCfg (toWord (putBits v.toNat 0 0 0)) s)

/-- RING_DRAIN_END (R450). -/
def execRingDrainEnd (ix : Nat) (s : State) : Host.Outcome State Fault Refusal := .next (ringDrained ix s)

/-- An address half of a ring: [39:32] in HI, [31:0] in LO. -/
def ringHalf (lo off : Nat) (old : Nat) (v : Word) : Nat :=
  if off = lo then putBits old 31 0 v.toNat else putBits old 39 32 (v.toNat % 256)

/-- A store to an address register of the selected ring. -/
def storeRingAddr (off : Nat) (v : Word) (s : State) : State :=
  let ix := ringSel s
  if !ringIndexOk ix then ignoreStore s
  else if (ringAt s ix).st ≠ .off then raise Ev.SYS_RING_BUSY [toByte ix] s
  else match regDef off with
    | none => ignoreStore s
    | some d =>
      let s := countStore d off (ringView s off) v s
      setRing ix (fun g =>
        if off = SYS_RING_BASE_LO ∨ off = SYS_RING_BASE_HI then { g with base := ringHalf SYS_RING_BASE_LO off g.base v }
        else if off = SYS_RING_PROD_LO ∨ off = SYS_RING_PROD_HI then { g with prod := ringHalf SYS_RING_PROD_LO off g.prod v }
        else if off = SYS_RING_CONS_LO ∨ off = SYS_RING_CONS_HI then { g with cons := ringHalf SYS_RING_CONS_LO off g.cons v }
        else if off = SYS_RING_CPL_LO ∨ off = SYS_RING_CPL_HI then { g with cpl := ringHalf SYS_RING_CPL_LO off g.cpl v }
        else { g with ccons := ringHalf SYS_RING_CCONS_LO off g.ccons v }) s

/-! ### The host profile -/

/-- A store to SYS_PROFILE (R444): discarded while CC.EN = 1. -/
def storeProfile (v : Word) (s : State) : State :=
  if s.hif.ccEn then raise Ev.SYS_PROFILE_LOCKED (le 4 v.toNat) s
  else match regDef SYS_PROFILE with
    | none => ignoreStore s
    | some d =>
      let s := countStore d SYS_PROFILE (b2n s.sys.legacy) v s
      if s.sys.isSealed then s else { s with sys := { s.sys with legacy := bitAt v.toNat 0 } }

/-- PROFILE_WRITE (R444). -/
def execProfileWrite (v : Word) (s : State) : Host.Outcome State Fault Refusal := .next (storeProfile v s)

/-! ### GPIO -/

/-- The level at a GPIO pin changes: a selected edge sets its bit of SYS_GPIO_EVENT and raises source 71 + g (R471). -/
def gpioLevel (g : Nat) (high : Bool) (s : State) : State :=
  if bitAt s.sys.gpioIn g = high then s
  else
    let s := { s with sys := { s.sys with gpioIn := putBits s.sys.gpioIn g g (b2n high) } }
    if bitAt (rg s SYS_GPIO_EDGE) (2 * g + (1 - b2n high)) then
      irqRaise (71 + g) (setReg SYS_GPIO_EVENT (toWord (putBits (rg s SYS_GPIO_EVENT) g g 1)) s)
    else s

/-- GPIO_EDGE (R471). -/
def execGpioEdge (g : Nat) (rising : Bool) (s : State) : Host.Outcome State Fault Refusal :=
  .next (if g < 16 then gpioLevel g rising s else s)

/-- A driven pin reads back its output (Table 16.13). -/
def gpioDrive (s : State) : State :=
  forAll (List.range 16) (fun g s =>
    if bitAt (rg s SYS_GPIO_OE) g then gpioLevel g (bitAt (rg s SYS_GPIO_OUT) g) s else s) s

/-! ### Stores -/

/-- The state that a meaning leads to. -/
def after (o : Host.Outcome State Fault Refusal) (s : State) : State := match o with
  | .next t => t
  | _ => s

/-- A store of part of a key or IV waits for HIF_IDE_KEY_CTL.LOAD (R95). -/
def storeStaged (off : Nat) (v : Word) (s : State) : State :=
  { s with hif := { s.hif with ideStaged := mput s.hif.ideStaged off v } }

/-- A store to SEC_PROV_ARG_LO or SEC_PROV_ARG_HI. -/
def storeProvArg (off : Nat) (v : Word) (s : State) : State :=
  { s with sec := { s.sec with provArg :=
    if off = SEC_PROV_ARG_LO then putBits s.sec.provArg 31 0 v.toNat else putBits s.sec.provArg 63 32 v.toNat } }

/-- A store to FLC_CFG of channel c: EN and PROFILE_MASK say which targets are fitted (Table 6.12). -/
def storeFlcCfg (off : Nat) (v : Word) (s : State) : State :=
  let t := storeFile off v s
  if rg t off = rg s off then t else fitChannel ((off - FLC_CFG 0) / 0x1000) t

/-- A store to MOV_CHn_CFG; a channel that is enabled begins what waits (R351). -/
def storeMovCfg (off : Nat) (v : Word) (s : State) : State :=
  let n := (off - MOV_CHn_CFG 0) / 4
  let s := storeSeen off (256 * b2n (movAt s n).busy) v s
  if n < 32 ∧ bitAt (rg s off) 0 then movBegin n s else s

/-- Stores to TCK, HIF and STM registers that act beyond the register file. -/
def storeA (off : Nat) (v : Word) (s : State) : Option State :=
  if off = TCK_CFG then some (storeThen off wantTable v s)
  else if off = TCK_FRAME then some (after (execFrameWrite v s) s)
  else if off = TCK_TIME_SEC then some (after (execTimeSecArm v s) s)
  else if off = TCK_PPS_CFG then some (storePpsCfg v s)
  else if TCK_ALARMn_LO 0 < off ∧ off < TCK_ALARMn_LO 4 ∧ off % 8 = 4 then
    some (after (execAlarmArm ((off - TCK_ALARMn_LO 0) / 8) v s) s)
  else if off = HIF_CFG then some (storeSeen off (8 * b2n s.sys.legacy) v s)
  else if off = HIF_IDE_CFG then some (storeIde v s)
  else if off = HIF_IDE_KEY_CTL then some (storeIdeKey v s)
  else if HIF_IDE_KEYn 0 ≤ off ∧ off ≤ HIF_IDE_IV_HI ∧ off % 4 = 0 then some (storeStaged off v s)
  else if off = STM_ADM_TEMP then some (storeThen off rescale v s)
  else if off = STM_RECLAIM_ALLOW ∨ off = STM_REBUILD_ALLOW then some (storeThen off (fun s => rescale (wantTable s)) v s)
  else none

/-- Stores to SYS, CLK, THM, FLT, SEC, CPX, MOV and CST registers that act beyond the register file. -/
def storeB (off : Nat) (v : Word) (s : State) : Option State :=
  if off = SYS_PROFILE then some (storeProfile v s)
  else if off = SYS_RING_CFG then some (storeRingCfg v s)
  else if SYS_RING_BASE_LO ≤ off ∧ off ≤ SYS_RING_CCONS_HI ∧ off % 4 = 0 then some (storeRingAddr off v s)
  else if off = SYS_GPIO_OUT ∨ off = SYS_GPIO_OE then some (gpioDrive (storeFile off v s))
  else if off = CLK_ACLK then some (after (execAclkFreqWrite v s) s)
  else if off = CLK_GATE_CTL then some (storeGate v s)
  else if off = THM_CFG then some (storeThmCfg v s)
  else if off = FLT_CFG then some (storeFltCfg v s)
  else if off = SEC_SECVER_CTL then some (after (execSecverAdvance v s) s)
  else if off = SEC_LANE_CTL then some (storeLanes v s)
  else if off = SEC_PROV_CTL then some (storeProv v s)
  else if off = SEC_PROV_ARG_LO ∨ off = SEC_PROV_ARG_HI then some (storeProvArg off v s)
  else if off = CPX_OS_WDOG then some (storeOsWdog v s)
  else if off = CPX_LEDGER_CTL then some (storeLedgerCtl v s)
  else if MOV_CHn_CFG 0 ≤ off ∧ off < MOV_CHn_CFG 64 ∧ off % 4 = 0 then some (storeMovCfg off v s)
  else if FLC_CFG 0 ≤ off ∧ off < FLC_CFG 36 ∧ (off - FLC_CFG 0) % 0x1000 = 0 then some (storeFlcCfg off v s)
  else if off = CST_BOOT_CTL then some (storeBootCtl v s)
  else if off = CST_UPD_CTL then some (storeUpdCtl v s)
  else none

/-- May a requester store to setup space (R432): a running core, Beldy in Commissioning; JTAG only reads. -/
def mayStore (s : State) : Who → Bool
  | .core n => s.cpx.appsOn.contains n && !s.clk.coresStalled
  | .beldy => s.cst.mode = .commissioning
  | .jtag => false

/-- An access fault (R431): counted, its address recorded, given to the requester. -/
def accessFault (addr : Nat) (s : State) : State :=
  emit (.accessFault addr) (setReg SYS_FAULT_ADDR (toWord addr)
    (bump SYS_ACCESS_FAULT_CNT (raise Ev.SYS_ACCESS_FAULT (le 8 addr) s)))

/-- The base of setup space (R430). -/
def setupBase : Nat := 0x3000000000

/-- SETUP_ACCESS_FAULT (R431): another width, a misaligned access, or outside every span. -/
def execSetupAccessFault (addr width : Nat) (_isStore : Bool) (s : State) : Host.Outcome State Fault Refusal :=
  .next (if setupBase ≤ addr ∧ addr < setupBase + 2 ^ 32 ∧ (width ≠ 4 ∨ addr % 4 ≠ 0 ∨ !inSpan (addr - setupBase)) then
    accessFault addr s
  else s)

end Sys2Proof.Machine
end

