-- ==== Sys2Proof/Machine/Boot.lean ====
section
/-! DEFINITION. Resets (R440-R442, Table 15.5), start-up (R363-R367, R373-R376, Tables 12.2 and 12.3), the seal (R438, R439), readiness,
and stores to setup registers by any requester (R432-R434). -/

namespace Sys2Proof.Machine

/-! ### What survives -/

/-- A port keeps what MBR keeps durably (R242): its state where that is Active, Rebuilding, Spare or Failed, GEN, serial. -/
def Port.cold (p : Port) : Port :=
  let kept : Bool := p.st = .active || p.st = .rebuilding || p.st = .spare || p.st = .failed
  { st := if kept then p.st else .absent, gen := p.gen, position := if kept then p.position else none, cause := p.cause, serial := p.serial
    memb := p.memb, declared := p.declared }

/-- What power loss cuts off on a target (R186): the pages of a program unit that ran, the block whose erase ran. -/
def tearProg (ch : Nat) (o : ArrayOp) (s : State) : State :=
  match o with
  | .prog band unit => { s with bnd := { s.bnd with pages := s.bnd.pages.map (fun p =>
      if p.2.band = band ∧ p.2.ch = ch ∧ p.2.unit s = unit ∧ p.2.st = .transferred then (p.1, { p.2 with st := .cut }) else p) } }
  | .erase band => setBlk ch band (fun b => { b with st := .unknown, ptr := 0 }) s
  | .sense _ => s

/-- Every program and erase under way is cut off (R186). -/
def tearAll (s : State) : State :=
  forAll s.flc.targets (fun t s =>
    let s := tearProg (t.1 / 32) t.2.op s
    match t.2.nested with
    | some o => tearProg (t.1 / 32) o s
    | none => s) s

/-- SYS_RESET_CAUSE after a cold reset or an internal cold restart with cause bit `bit`; the warm bits stay over an internal one. -/
def coldCause (kind bit : Nat) (s : State) : Nat :=
  2 ^ bit + (if kind = 0 then 0 else rg s SYS_RESET_CAUSE / 256 * 256)

/-- Registers that hold a value after a cold reset: the cause, and the counters of Table 7.6, which are rebuilt (R228). -/
def coldRegs (kind bit : Nat) (s : State) : AMap Word :=
  let kept := s.regs.filter (fun p => BND_Mm_FACTORY 0 ≤ p.1 ∧ p.1 < BND_Mm_FACTORY 9)
  let cause := toWord (coldCause kind bit s)
  if cause = resetOf SYS_RESET_CAUSE then kept else mput kept SYS_RESET_CAUSE cause

/-- The map and the bands as flash, MRAM and the system bands keep them; of the system bands the pages that the slot directory names, but for
`cut`, the slot of a commit that was cut off (R377). -/
def coldMap (m : Map) : Map :=
  { dir := m.dir, ckpt := m.ckpt, older := m.older, inB := m.inB, log := m.log, durable := m.durable, freeLsn := m.freeLsn, lsn := m.lsn }

def coldBnd (b : Bnd) (cut : Nat) : Bnd :=
  { sysAt := b.sysAt.filter (fun e => match e.1 with | .image n _ => n < 8 && n ≠ cut | _ => false)
    nsets := b.nsets, vb := b.vb, sysBands := b.sysBands, bands := b.bands, factory := b.factory, grown := b.grown, freshDone := b.freshDone
    freshCnt := b.freshCnt
    opens := b.opens.map (fun p => (p.1, { p.2 with holes := [], parityDone := [], beOk := true, waitFrom := [] }))
    pages := b.pages.filter (fun p => p.2.st = .passed || p.2.st = .held || p.2.st = .gone || p.2.st = .cut) }

/-- The blocks of which more is known at a start than the entry of their band says (R206): those held Retired, those that an erase left
Unknown, and those of Open bands, which the probe of R178 examines. -/
def coldBlocks (s : State) : AMap Blk :=
  let probed := (s.bnd.opens.map (·.1)).flatMap (fun b => (List.range 36).map (fun ch => bandBlk s ch b))
  (s.flc.blocks.filter (fun p => p.2.st = .retired || p.2.st = .erasing || p.2.st = .unknown || probed.contains p.1)).map (fun p =>
    (p.1, { p.2 with refine := 0, st := if p.2.st = .erasing then .unknown else p.2.st }))

/-- The trust block keeps the OTP row, the key record and the MRAM counters; every key leaves the key store (R301). -/
def coldSec (c : Sec) : Sec :=
  { otpSecret := c.otpSecret, otpDaymark := c.otpDaymark, otpOwner := c.otpOwner, otpLifecycle := c.otpLifecycle, otpTime := c.otpTime
    serial := c.serial, certs := c.certs, steps := c.steps, mramSecver := c.mramSecver, draws := c.draws, keyGen := c.keyGen
    laneRetired := c.laneRetired, wseq := c.wseqMark, wseqMark := c.wseqMark, sanitize := c.sanitize, sanitizeStep := b2n (c.sanitize ≠ 0) }

/-- Settings, image slots and BOOT_COUNT stay; an erase of the old key record starts again at the start (R300); the slot of a commit that was cut off holds nothing that passes. -/
def coldCst (c : Cst) (begun : Bool) : Cst :=
  { bootCount := c.bootCount, powerUps := c.powerUps, settingsGen := c.settingsGen, settingsFmt := c.settingsFmt
    settingsSeq := c.settingsSeq, settingsLog := c.settingsLog, settingsOld := c.settingsOld, savedPool := c.savedPool, remaps := c.remaps, programmed := c.programmed
    lastSlots := c.lastSlots, begun := begun
    banks := if (mgetD c.banks 12 {}).erase.isSome then [(12, { erase := (mgetD c.banks 12 {}).erase })] else []
    slots := match c.commit with
      | some k => if k.slot = 0 then c.slots else setAt c.slots (k.slot - 1) (fun _ => {})
      | none => c.slots }

/-- The Lantern stays in MRAM; the counters that a checkpoint saved come back from it (R422). -/
def coldLnt (l : Lnt) (smart : AMap Nat) : Lnt :=
  { recs := l.recs, seq := l.seq, newest := l.newest, frozen := l.frozen, frozenSeq := l.frozenSeq, smart := smart
    ctrlHist := l.ctrlHist, flashHist := l.flashHist }

/-- The unit in Dark after a cold reset (kind 0) or an internal cold restart (kind 1), which keeps rails, crystal and qualification
(Table 15.5, R441). -/
def coldState (kind bit : Nat) (s : State) : State :=
  let s := tearAll (enterMode .dark s)
  let keep : Bool := kind = 1
  { pending := s.pending, out := s.out, freeCtr := s.freeCtr, regs := coldRegs kind bit s
    sys := { lastReset := kind, bootSel := s.sys.bootSel, compat := s.sys.compat, legacy := s.sys.compat = 1, gpioIn := s.sys.gpioIn }
    clk := if keep then { xtalOk := s.clk.xtalOk, xtalLost := s.clk.xtalLost, qualCount := s.clk.qualCount } else {}
    thm := if keep then { hot := s.thm.hot, hotSensor := s.thm.hotSensor, pfail := s.thm.pfail, mramCut := s.thm.mramCut } else {}
    hif := { nextCmd := s.hif.nextCmd, selfResults := s.hif.selfResults, sanitizeLog := s.hif.sanitizeLog }
    map := coldMap s.map, bnd := coldBnd s.bnd (match s.cst.commit with | some k => k.slot | none => 0)
    flc := { profiles := s.flc.profiles, profile := s.flc.profile, blocks := coldBlocks s }
    mbr := { formatted := s.mbr.formatted, geometry := s.mbr.geometry, sparePort := s.mbr.sparePort, ports := s.mbr.ports.map Port.cold
             posOf := s.mbr.posOf, slots := s.mbr.slots, order := s.mbr.order
             rebuild := s.mbr.rebuild.map (fun r => { position := r.position, port := r.port
                                                      marked := s.map.ckpt.rebuildMap.filter r.marked.contains }) }
    flt := (fleetRestart s).flt
    sec := coldSec s.sec, cst := coldCst s.cst keep, lnt := coldLnt s.lnt s.map.ckpt.smart }

/-- COLD_RESET (R441): PORESET_L low. -/
def execColdReset (s : State) : Host.Outcome State Fault Refusal := .next (coldState 0 0 s)

/-- An internal cold restart, with the bit of SYS_RESET_CAUSE that names its cause. -/
def internalRestart (bit : Nat) (s : State) : State := coldState 1 bit s

/-- START_UP (R363 step 1, R386, R460): the rising edge of PORESET_L samples the straps; SYS_PROFILE takes COMPAT. -/
def execStartUp (bootSel compat : Nat) (s : State) : Host.Outcome State Fault Refusal :=
  .next (if s.cst.mode ≠ .dark ∨ s.cst.begun then s
  else { s with
    sys := { s.sys with bootSel := bootSel % 4, compat := compat % 2, legacy := compat % 2 = 1 }
    cst := { s.cst with begun := true, powerUps := s.cst.powerUps + 1 } })

/-- XTAL_QUAL_TIMEOUT (R386): 50 ms after PORESET_L rises, FAULT_L is driven low until the count completes. -/
def execXtalQualTimeout (s : State) : Host.Outcome State Fault Refusal :=
  .next (if s.cst.mode = .dark ∧ s.cst.begun ∧ !s.clk.xtalOk then { s with clk := { s.clk with qualLate := true } } else s)

/-! ### Slots -/

/-- The checks of R371 on a slot's image: an empty slot has no manifest. `fmt`: the settings format for check 6. -/
def slotCheck (s : State) (slot fmt : Nat) (c : Crypt) : Nat :=
  match (slotAt s slot).img with
  | none => Ev.CST_IMAGE_FORMAT
  | some i => imageCheck s slot fmt i c

/-- The other slot of the same kind. -/
def otherSlot (slot : Nat) : Nat := if slot = 2 then 3 else if slot = 3 then 2 else if slot = 4 then 5 else 4

/-- The slot of a kind that a start takes first (R376): one Pending for this start, else the Active one, else the one that ran last, else
a Confirmed one. A Pending image with an ACT_TIME waits for it. -/
def firstSlot (s : State) (a b last : Nat) : Nat :=
  let due := fun x => (slotAt s x).st = .pending && (match slotImage s x with
    | some i => i.actTime ≤ s.tck.fleet
    | none => false)
  let is := fun (st : ImgSt) x => (slotAt s x).st = st
  let pick := fun (p : Nat → Bool) => if p a then some a else if p b then some b else none
  ((pick due).orElse (fun _ => (pick (fun x => is .active x)).orElse (fun _ =>
    if (last = a ∨ last = b) ∧ is .confirmed last then some last else pick (fun x => is .confirmed x)))).getD a

/-- Mark a slot Rejected, where it holds an image. -/
def rejectSlot (slot : Nat) (s : State) : State :=
  if (slotAt s slot).img.isNone then s else setSlotAt slot (fun x => { x with st := .rejected }) s

/-- The slot to start where slot x comes first (R376): an unconfirmed image of an unconfirmed start gives way to a Confirmed one that passes,
a failing one to the other. -/
def chooseFrom (x : Nat) (chk : State → Nat → Nat) (s : State) : Option Nat × State :=
  let y := otherSlot x
  let bad := chk s x
  if bad ≠ 0 then
    let s := raise bad [toByte x] (rejectSlot x s)
    if chk s y = 0 ∧ (slotAt s y).st ≠ .rejected then (some y, raise Ev.CST_FALLBACK [toByte y] s) else (none, s)
  else if 1 ≤ s.cst.bootRead ∧ (slotAt s x).st ≠ .confirmed ∧ (slotAt s y).st = .confirmed ∧ chk s y = 0 then
    (some y, raise Ev.CST_FALLBACK [toByte y] (rejectSlot x s))
  else (some x, s)

/-- Choose a slot of a kind. -/
def chooseSlot (a b last : Nat) (chk : State → Nat → Nat) (s : State) : Option Nat × State := chooseFrom (firstSlot s a b last) chk s

/-- A slot starts: a Pending or Committed image becomes Active, another Active one of its kind Committed. -/
def slotStarts (slot : Nat) (s : State) : State :=
  let st := (slotAt s slot).st
  if st = .confirmed ∨ st = .active then s
  else
    let o := otherSlot slot
    let s := if (slotAt s o).st = .active then setSlotAt o (fun x => { x with st := .committed }) s else s
    setSlotAt slot (fun x => { x with st := .active }) s

/-- The checks of an OS slot's image, with what its signature was found to be. -/
def osCheck (s : State) (x : Nat) : Nat := slotCheck s x s.cst.settingsFmt (if x = 4 then s.cst.osSeen.1 else s.cst.osSeen.2)

/-- Step 7 with the slot chosen (R365, R376): without one no application core starts. -/
def osGo (r : Option Nat × State) : State :=
  let s := r.2
  match r.1 with
  | none => { s with cpx := { s.cpx with appsOn := [] } }
  | some x =>
    let s := slotStarts x s
    let s := { s with cst := { s.cst with osSlot := x, lastSlots := (s.cst.lastSlots.1, x) } }
    coresStart (doIf (decide (1 ≤ s.cst.bootRead)) (warn 1 (le 8 s.cst.bootRead)) s)

/-! ### Warm reset -/

/-- LNT_START of a warm reset (R417). -/
def lntRestart (s : State) : State :=
  if s.lnt.frozen then s
  else raise Ev.LNT_START ([2, toByte s.cst.mode.code] ++ le 8 s.cst.bootCount ++ [toByte s.cst.cause]) s

/-- A warm reset (R362, R365, R440, R450): step 7 is repeated where application cores run; while PFAIL_L is fallen it is ignored (R463). -/
def warmReset (bit : Nat) (s : State) : State :=
  if s.cst.mode = .dark ∨ s.cst.mode = .beacon ∨ s.thm.pfail ∨ s.thm.tripped then s
  else
    let cause := rg s SYS_RESET_CAUSE % 256 + 2 ^ bit
    let s := setReg SYS_RESET_CAUSE (toWord cause) { s with sys := { s.sys with lastReset := 2 } }
    if s.cpx.appsOn.isEmpty then s
    else
      let s := coresReset { s with cst := { s.cst with bootRead := s.cst.bootCount } }
      lntRestart (osGo (chooseFrom s.cst.osSlot osCheck s))

/-- WARM_RESET (R441, R463): the rising edge of RESET_L. -/
def execWarmReset (s : State) : Host.Outcome State Fault Refusal := .next (warmReset 8 s)

/-- A store to SYS_RESET_CTL (R442). -/
def storeResetCtl (v : Word) (s : State) : State :=
  let kind := bits v.toNat 1 0
  if bits v.toNat 31 16 ≠ 0x5AFE ∨ kind = 0 ∨ kind = 3 then discardStore SYS_RESET_CTL v s
  else
    let s := raise Ev.SYS_RESET_REQUESTED [toByte kind] (storeWo SYS_RESET_CTL v s)
    if kind = 1 then warmReset 10 s else internalRestart 3 s

/-- SYS_RESET_WARM (R442): SYS_RESET_CTL with KIND 0b01. -/
def execSysResetWarm (v : Word) (s : State) : Host.Outcome State Fault Refusal :=
  .next (storeResetCtl (toWord (putBits v.toNat 1 0 1)) s)

/-- SYS_RESET_COLD_RESTART (R442): SYS_RESET_CTL with KIND 0b10. -/
def execSysResetColdRestart (v : Word) (s : State) : Host.Outcome State Fault Refusal :=
  .next (storeResetCtl (toWord (putBits v.toNat 1 0 2)) s)

/-- CPX_OS_WATCHDOG (R331): a period ends without a write; a warm reset follows where WDOG_ACTION = 1. -/
def execCpxOsWatchdog (s : State) : Host.Outcome State Fault Refusal :=
  .next (if !s.cpx.wdogArmed then s
  else
    let s := raise Ev.CPX_OS_WATCHDOG [] s
    if bitAt (rg s CPX_CFG) 0 then warmReset 9 s else s)

/-- CST_BOOT_FAILED (R367): BOOT_WDOG seconds after step 7 without CONFIRM. -/
def execCstBootFailed (s : State) : Host.Outcome State Fault Refusal :=
  .next (
    let limit := fld s CST_CFG 31 16
    if limit = 0 ∨ s.cpx.appsOn.isEmpty ∨ s.cst.confirmed ∨ s.cst.mode = .halt ∨ s.tck.now < s.cst.startAt + limit * 1000000000 then s
    else internalRestart 2 (raise Ev.CST_BOOT_FAILED [] s))

/-! ### Start-up -/

/-- Run the steps of a start in order, as long as the mode lets the start go on and no restart has stopped it. -/
def startChain (fs : List (State → State)) (s : State) : State :=
  fs.foldl (fun s f => if s.tck.running ∧ (s.cst.mode = .dark ∨ s.cst.mode = .loader) then f s else s) s

/-- Steps 1 and 2: the tick starts; straps, calibration row, lifecycle, TRNG, SRAM, BOOT_COUNT (R366, R298, R302, R344). -/
def stepCal (env : StartEnv) (s : State) : State := if env.calOk then s else haltWith Ev.CST_CAL_INVALID [] s

def stepOtp (s : State) : State := if (lifecycleOf s).isSome then s else haltWith Ev.SEC_OTP_INVALID [] s

def stepTrng (env : StartEnv) (s : State) : State :=
  if env.trngOk then { s with sec := { s.sec with trngOk := true } }
  else raise Ev.SEC_TRNG_FAIL [] { s with sec := { s.sec with trngDead := true } }

def stepSram (env : StartEnv) (s : State) : State :=
  let r := memTest env.failWords env.injectFail 0 0x100 s
  if r.2 then { r.1 with cst := { r.1.cst with bootRead := s.cst.bootCount } } else haltWith Ev.MEM_SELFTEST_FAIL [0] r.1

/-- Checks 1-5 alone (R373 step 1). -/
def slotCheck5 (s : State) (slot : Nat) (c : Crypt) : Nat :=
  let r := slotCheck s slot s.cst.settingsFmt c
  if r = Ev.CST_IMAGE_SETTINGS then 0 else r

/-- Enter Beacon with a cause (R380, R417). -/
def enterBeacon (cause : Nat) (s : State) : State :=
  let s := lntStart .beacon { s with cst := { s.cst with cause := cause } }
  raise Ev.CST_BEACON_ENTERED [toByte cause] { enterMode .beacon s with hif := { s.hif with retry := false } }

/-- Step 3 (Table 12.2): Beacon for BOOT_SEL, a failing loader, three unconfirmed starts, or a restart for want of a ledger slot; else
Loader. -/
def stepRom (env : StartEnv) (s : State) : State :=
  let bad := slotCheck s 1 0 env.loader
  if s.sys.bootSel = 3 then enterBeacon 1 s
  else if bad ≠ 0 then enterBeacon 2 (raise bad [1] s)
  else if 3 ≤ s.cst.bootRead then enterBeacon 3 s
  else if s.sys.lastReset = 1 ∧ bitAt (rg s SYS_RESET_CAUSE) 4 then enterBeacon 4 s
  else enterMode .loader (lntStart .loader s)

/-- Does an image read settings of a format (check 6)? -/
def fmtFits (s : State) (slot fmt : Nat) : Bool :=
  match slotImage s slot with
  | some i => i.minSettings ≤ fmt && fmt ≤ i.settingsFmt
  | none => false

/-- The settings for a ledger slot (R372, R375): the record in use, or the older one that a migration left; newer software migrates it. -/
def useSettings (slot : Nat) (s : State) : Option State :=
  let migrate := fun (s : State) => match slotImage s slot with
    | some i => if s.cst.settingsFmt < i.settingsFmt then
        raise Ev.CST_MIGRATED (le 2 i.settingsFmt) { s with cst := { s.cst with
          settingsOld := some s.cst.settingsFmt, settingsFmt := i.settingsFmt, settingsGen := s.cst.settingsGen + 1 } }
      else s
    | none => s
  if fmtFits s slot s.cst.settingsFmt then some (migrate s)
  else match s.cst.settingsOld with
    | some f => if fmtFits s slot f then some { s with cst := { s.cst with settingsFmt := f, settingsOld := none } } else none
    | none => none

/-- Step 4, slots and settings (R373): no ledger slot leads to Beacon through an internal cold restart. -/
def stepLedger (env : StartEnv) (s : State) : State :=
  let chk := fun (s : State) x => slotCheck5 s x (if x = 2 then env.ledger2 else env.ledger3)
  match chooseSlot 2 3 s.cst.lastSlots.1 chk s with
  | (none, s) => internalRestart 4 s
  | (some x, s) =>
    let start := fun x (s : State) => { slotStarts x s with cst := { (slotStarts x s).cst with
      ledgerSlot := x, lastSlots := (x, s.cst.lastSlots.2) } }
    let bad := fun (s : State) => raise Ev.CST_SETTINGS_INVALID [] { s with cst := { s.cst with settingsOk := false } }
    if !env.settingsOk then bad (start x s)
    else match useSettings x s with
      | some s => start x s
      | none =>
        let y := otherSlot x
        if (slotAt s y).st = .confirmed ∧ chk s y = 0 then
          let s := raise Ev.CST_FALLBACK [toByte y] (rejectSlot x s)
          match useSettings y s with
          | some s => start y s
          | none => bad (start y s)
        else bad (start x s)

/-- Step 4, memories: the remap lists, MRAM dies, HBM, spares (R342-R344, R348). -/
def stepMem (env : StartEnv) (s : State) : State :=
  let test := memTest env.failWords env.injectFail
  let s := applyRemaps { s with memc := { s.memc with mramA := true, mramB := true } }
  let a := test 0x100 0x101 s
  let b := test 0x101 0x102 a.1
  let h := test 0x200 0x240 b.1
  let s := doIf (!a.2) (dieLost false) h.1
  let s := doIf (!b.2) (dieLost true) s
  if (!a.2 && !b.2) || !h.2 then haltWith Ev.MEM_SELFTEST_FAIL [1] s
  else
    let s : State := { s with memc := { s.memc with selfTestPass := a.2 && b.2 }
                              map := { s.map with badRoots := env.badRoots, validPast := env.validPast, replayMs := env.replayMs } }
    if sparesWarn s then warn 2 [] s else s

/-- Step 4, keys (R301); the write sequence resumes at WSEQ_MARK, which rises by a step before a value is used (R304). -/
def stepKeys (env : StartEnv) (s : State) : State :=
  if s.sec.otpSecret.isNone then s
  else if env.unwrapOk then { s with sec := { s.sec with keyStore := true, wseqMark := s.sec.wseqMark + 65536 } }
  else haltWith Ev.SEC_KEY_UNWRAP_FAIL [] s

/-- Step 5: the pairs start, HIF stops answering with Configuration Request Retry Status (R61); profiles and lanes are checked (R168,
R310). -/
def stepPairs (env : StartEnv) (s : State) : State :=
  let s := { s with cpx := { s.cpx with ledgersOn := true }, hif := { s.hif with retry := false } }
  let s := ledgerFetch s.cst.ledgerSlot (imageEntry s s.cst.ledgerSlot) s
  let held := (List.range 8).filter (fun n => (s.flc.profiles.getD n none).isSome)
  let valid := held.filter (fun n => (profileAt s n).valid (env.profilesOk.getD n true))
  let s := forAll (held.filter (fun n => !valid.contains n)) (fun n => raise Ev.FLC_PROFILE_INVALID [toByte n])
    { s with flc := { s.flc with valid := valid } }
  let s := forAll (List.range 8) (fun l s =>
    if s.sec.laneRetired.contains l then setLane l (fun x => { x with st := .retired }) s
    else if env.lanesOk.getD l true then setLane l (fun x => { x with st := .on }) s
    else retireLane l s) s
  let n := (liveLanes s).length
  if n = 0 then haltWith Ev.SEC_ALL_LANES_FAULT [] s else if n ≤ 4 then raise Ev.SEC_LANES_LOW [toByte n] s else s

/-- The carrier of a position is gone at a start: declared with cause 0x6 (R244). -/
def lostAtStart (m : Nat) (s : State) : State :=
  let st := (portAt s m).st
  if st = .active ∨ st = .rebuilding then declareFailed m 6 s else s

/-- Step 6 for one port (Table 8.11 steps 1-4, Table 8.7 at a start). -/
def stepPort (m : Nat) (seen : PortSeen) (s : State) : State :=
  if !seen.present then
    setPort m (fun p => { p with st := .absent, position := none, inserted := false, powered := false, training := false }) (lostAtStart m s)
  else
    let st := (portAt s m).st
    let up := fun (s : State) => setPort m (fun p => { p with
      inserted := true, powered := true, seq := .none, fault := seen.faultLow, serial := seen.serial, memb := seen.memb }) s
    let s := raise Ev.MBR_MEMBER_INSERTED [toByte m] (up s)
    let hold := fun (x : PortSt) (s : State) => up (setPort m (fun p => { p with st := x, position := none }) s)
    if seen.faultLow then
      let s := raise Ev.MBR_MEMBER_FAULT [toByte m] s
      if st = .active ∨ st = .rebuilding then declareFailed m 3 s
      else powerDown m (setPort m (fun p => { p with st := .present, position := none }) s)
    else match seen.memb with
      | none => hold .present (lostAtStart m s)
      | some r =>
        let gen := (portAt s m).gen
        if !r.ours then hold .present (lostAtStart m s)
        else if r.gen = gen ∧ r.port = m then
          if r.position = 0xFF then fitPort m seen.targets seen.untrained (setPort m (fun p => { p with st := .spare, position := none }) s)
          else if st = .active ∨ st = .rebuilding then fitPort m seen.targets seen.untrained s
          else enterFenced m s
        else if r.gen < gen ∨ r.port ≠ m then enterFenced m (hold .present (lostAtStart m s))
        else hold .present (lostAtStart m s)

/-- Step 6 (R204, R242, R257): band entries, then every port. -/
def stepBring (env : StartEnv) (s : State) : State :=
  if s.mbr.formatted ∧ !env.bandTableOk then haltWith Ev.BND_ENTRY_INVALID [] s
  else
    let none_ : PortSeen := { present := false, faultLow := false, serial := 0, memb := none, targets := [] }
    forAll (List.range 9) (fun m => stepPort m (env.ports.getD m none_)) s

/-- Commissioning where the lifecycle is not Commissioned, the settings hold no unit format or none qualifies (Table 12.2, R372). -/
def stepCommission (s : State) : State :=
  if !commissioned s ∨ !s.mbr.formatted ∨ !s.cst.settingsOk then enterMode .commissioning s else s

/-- Step 7 (R364, R365, R376): the OS slot, the saved pool size, BOOT_COUNT, the application cores; without an OS image that passes the
unit stays in Loader. -/
def stepOs (env : StartEnv) (s : State) : State :=
  let s := { s with cst := { s.cst with osSeen := (env.os4, env.os5) } }
  let s := if s.cst.savedPool = 0 then s else setReg MAP_POOL_CFG (toWord s.cst.savedPool) s
  osGo (chooseSlot 4 5 s.cst.lastSlots.2 osCheck s)

/-- Steps 2 to 7. -/
def startSteps (env : StartEnv) (s : State) : State :=
  startChain [stepCal env, stepOtp, stepTrng env, stepSram env, stepRom env, stepLedger env, stepMem env, stepKeys env, stepPairs env,
    stepBring env, stepCommission, stepOs env] s

/-- Steps 4 to 7 follow only in Loader. -/
def startRun (env : StartEnv) (s : State) : State :=
  if 800 ≤ s.thm.hot then { s with thm := { s.thm with holdStart := true }, cst := { s.cst with held := some env } }
  else startSteps env { s with thm := { s.thm with holdStart := false }, cst := { s.cst with held := none } }

/-- XTAL_QUALIFIED (R34, R363, R386): the count completes, the tick starts, the ROM and the loader go on; at 100 degrees the ROM stays in
Dark (R403). -/
def execXtalQualified (env : StartEnv) (s : State) : Host.Outcome State Fault Refusal :=
  .next (if s.cst.mode ≠ .dark ∨ !s.cst.begun ∨ s.tck.running then s
  else startRun env { s with
    clk := { s.clk with xtalOk := true, qualLate := false
                        qualCount := if s.clk.xtalOk then s.clk.qualCount else Nat.min 65535 (env.qualTime / 10000) }
    tck := { s.tck with running := true } })

/-- START_TEMP_HOLD_RELEASE (R403). -/
def execStartTempHoldRelease (s : State) : Host.Outcome State Fault Refusal :=
  .next (match s.cst.held with
    | some env => if s.cst.mode = .dark ∧ s.thm.hot < 800 then startRun env s else s
    | none => s)

/-! ### The seal -/

/-- Does [a, a + n) lie wholly below the keeper buffer, or wholly in OS scratch SRAM (Table 15.3 check 2)? -/
def sealSpan (s : State) (a n : Nat) : Bool :=
  a + n ≤ (hbmBases s).1 * 0x100000 || (0x2000000000 ≤ a && a + n ≤ 0x2000400000)

/-- Check 2 for one ring. -/
def sealRing (s : State) (ix : Nat) (g : Ring) : Bool :=
  g.st = .off || (sealSpan s g.base (64 * 2 ^ g.descLog2) && sealSpan s g.prod 8 && sealSpan s g.cons 8
    && (32 ≤ ix || (sealSpan s g.cpl (32 * 2 ^ g.cplLog2) && sealSpan s g.ccons 8)))

/-- The first check of Table 15.3 that fails, or 0. -/
def sealCheck (s : State) : Nat :=
  if fld s FLC_G_CFG 23 16 < fld s MAP_CFG 7 0 then 1
  else if s.sys.rings.any (fun p => !sealRing s p.1 p.2) then 2
  else 0

/-- The probe of units that were cut off (R178, R186), in ascending order: those below the first whose lowest page reads erased, each with
whether it decodes. How each reads is free. -/
def probeUnits : List Nat → State → List (Nat × Bool) × State
  | [], s => ([], s)
  | k :: ks, s =>
    let r := Config.tornUnit s.freeCtr % 3
    let s := drawFree s
    if r = 0 then ([], s)
    else
      let x := probeUnits ks s
      ((k, r = 2) :: x.1, x.2)

/-- The pages of a unit on a channel after the probe: programmed where they decode, otherwise of unknown content. -/
def probedPages (b ch : Nat) (x : Nat × Bool) (s : State) : State :=
  { s with bnd := { s.bnd with pages := s.bnd.pages.map (fun p =>
      if p.2.band = b ∧ p.2.ch = ch ∧ p.2.unit s = x.1 ∧ p.2.st = .cut then
        (p.1, if x.2 then { p.2 with st := .passed } else { p.2 with st := .gone, lbas := [], cws := [] }) else p) } }

/-- The probe of a band's block on a channel (R178): its write pointer is found; where the unit below it reads neither erased nor decodable
the block is marked Full. A block that FLC holds Retired keeps its state (R206). -/
def probeBlk (b ch : Nat) (s : State) : State :=
  let u := Nat.max 1 (unitPages s b)
  let cuts := ((s.bnd.pages.filter (fun p => p.2.band = b && p.2.ch = ch && p.2.st = .cut)).map (fun p => p.2.unit s)).dedup
  let cuts := (List.range (bandRows s b / u)).filter cuts.contains
  let seen := probeUnits cuts s
  let s := forAll seen.1 (probedPages b ch) seen.2
  let lost := s.bnd.pages.filter (fun p => p.2.band = b && p.2.ch = ch && p.2.st = .cut)
  let s := forAll (lost.map (·.1)) dropPage s
  let blk := blkOf s ch b
  if blk.st = .retired then setOpen b (fun o => { o with started := mput o.started ch (blk.readTo / u + 1) }) s
  else
    let ptr := match cuts[seen.1.length]? with
      | some k => k * u
      | none => blk.ptr
    let torn : Bool := match seen.1.getLast? with
      | some (k, ok) => !ok && (k + 1) * u = ptr
      | none => false
    let st : BlkSt := if torn ∨ bandRows s b ≤ ptr then .full else if ptr = 0 then .erased else .open_
    let s := setBlk ch b (fun x => { x with st := st, ptr := ptr, torn := torn, readTo := if torn then ptr - u else x.readTo }) s
    let s := if ptr = 0 then s else setOpen b (fun o => { o with started := mput o.started ch (ptr / u) }) s
    if torn then raise Ev.FLC_PROBE_TORN ([toByte ch] ++ le 4 b ++ le 4 (ptr - u)) s else s

/-- Does every row of a group have its parity (R238)? -/
def groupParity (s : State) (b unit : Nat) : Bool :=
  (List.range (unitPages s b)).all (fun i => rowParity s b (unit * unitPages s b + i))

/-- Queue the read-back, in M slots, of the programmed data pages of the groups whose parity has not passed (R212). -/
def readBackBand (b : Nat) (s : State) : State :=
  let u := Nat.max 1 (unitPages s b)
  let units := (List.range (bandRows s b / u)).filter (fun k => !groupParity s b k)
  let l := (s.bnd.pages.filter (fun p => p.2.band = b && p.2.st = .passed && p.2.src ≠ .parityP && p.2.src ≠ .parityQ
    && units.contains (p.2.unit s))).map (·.1)
  forAll (l.flatMap (fun key => (List.range 4).map (fun c => (key, c)))) (fun x s => { s with flc := { s.flc with
    reads := mput s.flc.reads s.flc.nextRead { use := .readBack x.1 x.2, cls := .m, page := x.1, cw := x.2 }
    nextRead := s.flc.nextRead + 1 } }) s

/-- Step 9 for a band found Open (R178, R212): its blocks are probed, data is read back where parity has not passed, the band is closed
early, and parity that a torn block cannot take is held. -/
def closeFound (b : Nat) (s : State) : State :=
  let s := setOpen b (fun o => { o with closeAt := none, started := [] }) (setBand b (fun e => { e with early := false }) s)
  let s := forAll (bandChans s b) (probeBlk b) s
  let s := setOpen b (fun o => { o with issued := !o.started.isEmpty }) s
  let s := closeEarly b (readBackBand b s)
  forAll ((bandChans s b).filter (fun ch => (blkOf s ch b).torn)) (fun ch s =>
    holdParity b ch (blkOf s ch b).readTo (((openAt s b).closeAt).getD 0) s) s

/-- Step 9 of Table 12.3 (Tables 5.7 and 7.5): the map is rebuilt, Open bands are closed early, arming and reclaim begin. -/
def stepNine (s : State) : State :=
  let s := mapReplay s
  if s.cst.mode = .halt then s
  else
    let s := if s.sys.lastReset = 0 then smartAdd 6 1 s else s
    let s : State := { s with lnt := { s.lnt with lastClean := s.map.startedClean }, flc := { s.flc with probed := true } }
    let s := forAll (s.bnd.opens.map (·.1)) closeFound s
    let s : State := { s with map := { s.map with segLimit := segLimitOf s }, bnd := { s.bnd with ready := true } }
    autoRebuild (rescale (wantTable (wearCheck (freeCheck s))))

/-- A store to SYS_SEAL (R438, R439). -/
def storeSeal (v : Word) (s : State) : State :=
  if s.sys.isSealed then s
  else if v ≠ 0x5EA1 then discardStore SYS_SEAL v s
  else
    let bad := sealCheck s
    if bad ≠ 0 then raise Ev.SYS_SEAL_REFUSED [toByte bad] { s with sys := { s.sys with sealFail := bad } }
    else
      let base := (hbmBases s).1
      let s := raise Ev.SYS_SEALED [] { s with
        sys := { s.sys with isSealed := true }
        memc := { s.memc with fixedKeep := some base }
        cst := { s.cst with savedPool := fld s MAP_POOL_CFG 9 0 } }
      let s := settingsEntry s
      if s.cst.mode = .loader ∧ !s.cpx.appsOn.isEmpty then stepNine s else s

/-- SEAL (R438, R439). -/
def execSeal (v : Word) (s : State) : Host.Outcome State Fault Refusal := .next (storeSeal v s)

/-- START_READY (step 10 of Table 12.3, R322): HIF is ready, CSTS.RDY once CC.EN is set; Service, Degraded, or Quiesce with a SANITIZE
record held. -/
def execStartReady (s : State) : Host.Outcome State Fault Refusal :=
  .next (if s.cst.mode ≠ .loader ∨ !s.sys.isSealed ∨ !s.map.replayed then s
  else
    let s := { s with hif := { s.hif with ready := true, rdy := s.hif.ccEn } }
    let s := if 10000000000 < s.tck.now then warn 0 (le 8 s.tck.now) s else s
    if s.sec.sanitize ≠ 0 then enterMode .quiesce s
    else modeCheck (enterMode (if degradedUnit s || fleetVacant s then .degraded else .service) s))

/-! ### Stores by a requester -/

/-- A store to any register of setup space (R434): what a register's chapter does, else the register file. -/
def storeReg (off : Nat) (v : Word) (s : State) : State :=
  if off = SYS_SEAL then storeSeal v s
  else if off = SYS_RESET_CTL then storeResetCtl v s
  else ((storeA off v s).orElse (fun _ => storeB off v s)).getD (storeFile off v s)

/-- A store at an offset of setup space: outside every span or misaligned it is an access fault (R431). -/
def storeAt (off : Nat) (v : Word) (s : State) : State :=
  if !inSpan off ∨ off % 4 ≠ 0 then accessFault (setupBase + off) s else storeReg off v s

/-- REGISTER_WRITE (R432-R436): a store by a running application core or Beldy; JTAG has no store. -/
def execRegisterWrite (who : Who) (off : Nat) (v : Word) (s : State) : Host.Outcome State Fault Refusal :=
  .next (if mayStore s who then storeAt off v s else s)

end Sys2Proof.Machine
end

