-- ==== Sys2Proof/Machine/Beacon.lean ====
section
/-! DEFINITION. The Beacon protocol (R380-R383, Tables 12.13 and 12.14): one request, one answer. -/

namespace Sys2Proof.Machine

/-- Does the unit serve the Beacon protocol: in Beacon, in Loader with no valid OS once the ledgers run, in Commissioning (Table 12.14)? -/
def beaconServes (s : State) : Bool :=
  s.cst.mode = .beacon || (s.cst.mode = .loader && s.cpx.ledgersOn && s.cst.osSlot = 0) || s.cst.mode = .commissioning

/-- Answer a request with ACK: status and payload (R382). -/
def beaconSay (peer seqNo status : Nat) (payload : List Byte) (s : State) : State :=
  emit (.beacon peer seqNo status payload)
    { s with cst := { s.cst with lastSeq := some (peer, seqNo), lastAnswer := (status, payload) } }

/-- Answer a request; an unsuccessful status is raised. -/
def beaconAck (peer seqNo status : Nat) (payload : List Byte) (s : State) : State :=
  beaconSay peer seqNo status payload (if status = 0 then s else raise status [] s)

/-- Carry out a request where the protocol is served; one with the SEQ of the last is answered again and carried out once. `all`: a
message that only Commissioning accepts. -/
def beaconReq (all : Bool) (peer seqNo : Nat) (f : State → State) (s : State) : State :=
  if !beaconServes s then s
  else if s.cst.lastSeq = some (peer, seqNo) then emit (.beacon peer seqNo s.cst.lastAnswer.1 s.cst.lastAnswer.2) s
  else if all ∧ s.cst.mode ≠ .commissioning then beaconAck peer seqNo Ev.SYS_MALFORMED [] s
  else f s

/-- The payload of ANNOUNCE: serial, lifecycle, mode, cause, the versions of the slots (Table 12.13). -/
def announce (s : State) : List Byte :=
  le 16 s.sec.serial ++ [toByte (lifecycleCode s), toByte s.cst.mode.code, toByte s.cst.cause]
    ++ (List.range 5).flatMap (fun i => le 8 (match slotImage s (i + 1) with
      | some x => x.version
      | none => 0))

/-- DISCOVER (R382): answered with ANNOUNCE. -/
def execDiscover (peer seqNo : Nat) (s : State) : Host.Outcome State Fault Refusal :=
  .next (beaconReq false peer seqNo (fun s => beaconAck peer seqNo 0 (announce s) s) s)

/-- System bands that a unit in Loader finds Open are closed before an image of the customer OS goes into the next one (R178, R225). -/
def loaderBands (s : State) : State :=
  if s.bnd.ready ∨ !sysRuns s then s else forAll ((s.bnd.opens.map (·.1)).filter (· < s.bnd.sysBands)) closeFound s

/-- BEGIN (R381, R382): a manifest and a target slot; another address meets CST_BUSY while a transfer is open. -/
def execBegin (peer seqNo slot : Nat) (manifest : List Byte) (s : State) : Host.Outcome State Fault Refusal :=
  .next (beaconReq false peer seqNo (fun s =>
    let i := parseImage manifest
    if s.cst.transfer.any (fun t => t.peer ≠ peer) then beaconAck peer seqNo Ev.CST_BUSY [] s
    else if !i.formatOk ∨ !beaconSlot s slot i.kind then beaconAck peer seqNo Ev.CST_IMAGE_FORMAT [] s
    else
      let s := doIf (i.kind = 3) loaderBands s
      beaconAck peer seqNo 0 [] { s with cst := { s.cst with
        transfer := some { peer := peer, slot := slot, img := i, pieces := [], at_ := s.tck.now } } }) s)

/-- Is byte i of an image in a piece? -/
def pieceHas (ps : List (Nat × List Byte)) (i : Nat) : Bool := ps.any (fun p => p.1 ≤ i && i < p.1 + p.2.length)

/-- Does a piece differ from what is programmed in the code words it touches? -/
def pieceClash (ps : List (Nat × List Byte)) (offset : Nat) (piece : List Byte) : Bool :=
  (List.range piece.length).any (fun i => pieceHas ps (offset + i) && bufferByte ps (offset + i) ≠ piece.getD i 0)

/-- DATA (R381): a piece is programmed as it arrives, the first one erases the slot; the same content again is accepted, another is refused. -/
def execData (peer seqNo offset : Nat) (piece : List Byte) (s : State) : Host.Outcome State Fault Refusal :=
  .next (beaconReq false peer seqNo (fun s =>
    match s.cst.transfer with
    | none => beaconAck peer seqNo Ev.SYS_MALFORMED [] s
    | some t =>
      if t.peer ≠ peer then beaconAck peer seqNo Ev.CST_BUSY [] s
      else if slotBytes t.slot < offset + piece.length then beaconAck peer seqNo Ev.CST_IMAGE_FORMAT [] s
      else if pieceClash t.pieces offset piece then beaconAck peer seqNo Ev.CST_DOUBLE_PROGRAM [] s
      else
        let s := if t.pieces.isEmpty then
            bumpBy CST_ERASE_CNT (slotBytes t.slot / 65536) (setSlotAt t.slot (fun _ => {}) s) else s
        let s := bumpBy CST_PROG_CNT (cdiv piece.length 32) s
        beaconAck peer seqNo 0 [] { s with cst := { s.cst with
          transfer := some { t with pieces := t.pieces ++ [(offset, piece)], at_ := s.tck.now } } }) s)

/-- The image that a transfer has brought. -/
def Transfer.bytes (t : Transfer) : List Byte := (List.range (1024 + t.img.len)).map (bufferByte t.pieces)

/-- END (R381): the slot is checked under R371; it becomes Active and unconfirmed with BOOT_COUNT 0, or is erased. An image of the customer OS
goes into the system bands first: until its pages are there the request has no answer, and Beldy sends it again (R382). -/
def execEnd (peer seqNo : Nat) (chk : Crypt) (s : State) : Host.Outcome State Fault Refusal :=
  .next (beaconReq false peer seqNo (fun s =>
    match s.cst.transfer with
    | none => beaconAck peer seqNo Ev.SYS_MALFORMED [] s
    | some t =>
      if t.peer ≠ peer then beaconAck peer seqNo Ev.CST_BUSY [] s
      else
        let i := parseImage t.bytes
        let bad := imageCheck s t.slot s.cst.settingsFmt i chk
        if bad = 0 ∧ 4 ≤ t.slot ∧ !t.queued then
          imageQueue t.slot t.bytes { s with cst := { s.cst with transfer := some { t with queued := true, at_ := s.tck.now } } }
        else if bad = 0 ∧ imageWaits s t.slot then s
        else
        let s := imageSettle t.slot (bad = 0) { s with cst := { s.cst with transfer := none } }
        if bad ≠ 0 then
          beaconAck peer seqNo bad [] (bumpBy CST_ERASE_CNT (slotBytes t.slot / 65536) (setSlotAt t.slot (fun _ => {}) s))
        else
          let s := forAll ([1, 2, 3, 4, 5] : List Nat) (fun x s =>
            if x ≠ t.slot ∧ slotKind x = slotKind t.slot ∧ (slotAt s x).st = .active then
              setSlotAt x (fun y => { y with st := .committed }) s else s) s
          let s := setSlotAt t.slot (fun _ => { st := .active, img := some i }) s
          beaconAck peer seqNo 0 [] { s with cst := { s.cst with bootCount := 0 } }) s)

/-- LANTERN_READ (R382, R420): up to 1,024 bytes of the Lantern. -/
def execLanternRead (peer seqNo offset len : Nat) (s : State) : Host.Outcome State Fault Refusal :=
  .next (beaconReq false peer seqNo (fun s =>
    if 1024 < len then beaconAck peer seqNo Ev.SYS_MALFORMED [] s
    else beaconAck peer seqNo 0 (lntRegion s offset len) s) s)

/-- RESTART (R383): an internal cold restart after the answer. -/
def execRestart (peer seqNo : Nat) (s : State) : Host.Outcome State Fault Refusal :=
  .next (beaconReq false peer seqNo (fun s => internalRestart 1 (beaconAck peer seqNo 0 [] s)) s)

/-- REG_READ (R383, R432): a load in Commissioning. -/
def execRegRead (peer seqNo off : Nat) (s : State) : Host.Outcome State Fault Refusal :=
  .next (beaconReq true peer seqNo (fun s =>
    if !inSpan off ∨ off % 4 ≠ 0 then beaconSay peer seqNo Ev.SYS_ACCESS_FAULT [] (accessFault (setupBase + off) s)
    else
      let r := loadReg off s
      beaconAck peer seqNo 0 (le 4 r.1.toNat) r.2) s)

/-- REG_WRITE (R383, R432): a store in Commissioning. -/
def execRegWrite (peer seqNo off : Nat) (v : Word) (s : State) : Host.Outcome State Fault Refusal :=
  .next (beaconReq true peer seqNo (fun s =>
    if !inSpan off ∨ off % 4 ≠ 0 then beaconSay peer seqNo Ev.SYS_ACCESS_FAULT [] (accessFault (setupBase + off) s)
    else beaconAck peer seqNo 0 [] (storeReg off v s)) s)

/-- RING (R383, R454): a descriptor in Commissioning; its block takes it, and its completion record is the answer. -/
def execRing (peer seqNo : Nat) (desc : List Byte) (s : State) : Host.Outcome State Fault Refusal :=
  .next (if beaconServes s ∧ s.cst.lastSeq = some (peer, seqNo) ∧ s.cst.mode = .commissioning then s
  else beaconReq true peer seqNo (fun s =>
    let bytes := padTo 64 desc
    let block := fieldAt bytes 1 1
    let d : Desc := { src := .beldy, opcode := fieldAt bytes 0 2, tag := fieldAt bytes 4 4, body := bytes.drop 8 }
    let s := { s with cst := { s.cst with lastSeq := some (peer, seqNo), lastAnswer := (0, []) } }
    if block = 3 ∨ block = 7 ∨ block = 8 ∨ block = 16 then takeDesc block d bytes s
    else beaconAck peer seqNo Ev.SYS_OPCODE_UNKNOWN [] s) s)

/-- BEACON_TRANSFER_IDLE (R382): a transfer left idle for 10 s is discarded. -/
def execBeaconTransferIdle (s : State) : Host.Outcome State Fault Refusal :=
  .next (match s.cst.transfer with
  | some t => if t.at_ + 10000000000 ≤ s.tck.now then imageSettle t.slot false { s with cst := { s.cst with transfer := none } } else s
  | none => s)

end Sys2Proof.Machine
end

