-- ==== Sys2Proof/Machine/Dispatch.lean ====
section
/-! DEFINITION. One arm for each command: the direct call of its meaning. -/

namespace Sys2Proof.Machine

def exec (i : Instr) (s : State) : Host.Outcome State Fault Refusal :=
  match i with
  | .tickEdge => Sys2Proof.Machine.execTickEdge s
  | .planningCutOff late mismatch table => Sys2Proof.Machine.execPlanningCutOff late mismatch table s
  | .tckHoldLimit => Sys2Proof.Machine.execTckHoldLimit s
  | .alarmFired n => Sys2Proof.Machine.execAlarmFired n s
  | .fsyncEdge edge => Sys2Proof.Machine.execFsyncEdge edge s
  | .fsyncEdgeMissed => Sys2Proof.Machine.execFsyncEdgeMissed s
  | .ppsEdgeJudged dt high => Sys2Proof.Machine.execPpsEdgeJudged dt high s
  | .ppsWindowMissed dt => Sys2Proof.Machine.execPpsWindowMissed dt s
  | .timeSecArm v => Sys2Proof.Machine.execTimeSecArm v s
  | .alarmArm n hi => Sys2Proof.Machine.execAlarmArm n hi s
  | .frameWrite v => Sys2Proof.Machine.execFrameWrite v s
  | .latchingLoRead off => Sys2Proof.Machine.execLatchingLoRead off s
  | .registerWrite who off v => Sys2Proof.Machine.execRegisterWrite who off v s
  | .setupAccessFault addr width isStore => Sys2Proof.Machine.execSetupAccessFault addr width isStore s
  | .seal v => Sys2Proof.Machine.execSeal v s
  | .startReady => Sys2Proof.Machine.execStartReady s
  | .sysResetWarm v => Sys2Proof.Machine.execSysResetWarm v s
  | .sysResetColdRestart v => Sys2Proof.Machine.execSysResetColdRestart v s
  | .profileWrite v => Sys2Proof.Machine.execProfileWrite v s
  | .ringEnable v => Sys2Proof.Machine.execRingEnable v s
  | .ringDisable v => Sys2Proof.Machine.execRingDisable v s
  | .ringDrainEnd ix => Sys2Proof.Machine.execRingDrainEnd ix s
  | .gpioEdge g rising => Sys2Proof.Machine.execGpioEdge g rising s
  | .coldReset => Sys2Proof.Machine.execColdReset s
  | .startUp bootSel compat => Sys2Proof.Machine.execStartUp bootSel compat s
  | .warmReset => Sys2Proof.Machine.execWarmReset s
  | .xtalQualified env => Sys2Proof.Machine.execXtalQualified env s
  | .xtalQualTimeout => Sys2Proof.Machine.execXtalQualTimeout s
  | .xtalLost => Sys2Proof.Machine.execXtalLost s
  | .pllUnlock p => Sys2Proof.Machine.execPllUnlock p s
  | .pllRelocked p => Sys2Proof.Machine.execPllRelocked p s
  | .aclkFreqWrite v => Sys2Proof.Machine.execAclkFreqWrite v s
  | .gateOn v => Sys2Proof.Machine.execGateOn v s
  | .gateOff v => Sys2Proof.Machine.execGateOff v s
  | .gateDrainEnd g => Sys2Proof.Machine.execGateDrainEnd g s
  | .thmSample readings => Sys2Proof.Machine.execThmSample readings s
  | .thermalShutdownPowerOff => Sys2Proof.Machine.execThermalShutdownPowerOff s
  | .startTempHoldRelease => Sys2Proof.Machine.execStartTempHoldRelease s
  | .pfailFall => Sys2Proof.Machine.execPfailFall s
  | .pfailMramCutoff => Sys2Proof.Machine.execPfailMramCutoff s
  | .pfailCleared => Sys2Proof.Machine.execPfailCleared s
  | .pciePerst => Sys2Proof.Machine.execPciePerst s
  | .hotReset => Sys2Proof.Machine.execHotReset s
  | .linkDown => Sys2Proof.Machine.execLinkDown s
  | .functionLevelReset => Sys2Proof.Machine.execFunctionLevelReset s
  | .controllerReset => Sys2Proof.Machine.execControllerReset s
  | .controllerResetDone => Sys2Proof.Machine.execControllerResetDone s
  | .ccEnSet => Sys2Proof.Machine.execCcEnSet s
  | .ccShutdown shn => Sys2Proof.Machine.execCcShutdown shn s
  | .shutdownDone => Sys2Proof.Machine.execShutdownDone s
  | .ideIntegrityFail => Sys2Proof.Machine.execIdeIntegrityFail s
  | .ideEnable v => Sys2Proof.Machine.execIdeEnable v s
  | .ideDisable v => Sys2Proof.Machine.execIdeDisable v s
  | .ideKeyLoad v => Sys2Proof.Machine.execIdeKeyLoad v s
  | .sqTailDoorbell sq tail => Sys2Proof.Machine.execSqTailDoorbell sq tail s
  | .cqHeadDoorbell cq head => Sys2Proof.Machine.execCqHeadDoorbell cq head s
  | .shadowDoorbellSweep sqTails cqHeads => Sys2Proof.Machine.execShadowDoorbellSweep sqTails cqHeads s
  | .hifCqStall cq => Sys2Proof.Machine.execHifCqStall cq s
  | .lookaheadRelease sq => Sys2Proof.Machine.execLookaheadRelease sq s
  | .orderedCommandStart id => Sys2Proof.Machine.execOrderedCommandStart id s
  | .flush h => Sys2Proof.Machine.execFlush h s
  | .write h slba nlb dtype dspec data => Sys2Proof.Machine.execWrite h slba nlb dtype dspec data s
  | .read h slba nlb => Sys2Proof.Machine.execRead h slba nlb s
  | .writeZeroes h slba nlb => Sys2Proof.Machine.execWriteZeroes h slba nlb s
  | .datasetManagement h deallocate ranges => Sys2Proof.Machine.execDatasetManagement h deallocate ranges s
  | .createIoSq cid qid depth cq contiguous => Sys2Proof.Machine.execCreateIoSq cid qid depth cq contiguous s
  | .deleteIoSq cid qid => Sys2Proof.Machine.execDeleteIoSq cid qid s
  | .createIoCq cid qid depth vector contiguous => Sys2Proof.Machine.execCreateIoCq cid qid depth vector contiguous s
  | .deleteIoCq cid qid => Sys2Proof.Machine.execDeleteIoCq cid qid s
  | .getLogPage cid lid offset len rae => Sys2Proof.Machine.execGetLogPage cid lid offset len rae s
  | .identify cid cns nsid => Sys2Proof.Machine.execIdentify cid cns nsid s
  | .abort cid sqid target => Sys2Proof.Machine.execAbort cid sqid target s
  | .setFeatures cid fid value => Sys2Proof.Machine.execSetFeatures cid fid value s
  | .getFeatures cid ask => Sys2Proof.Machine.execGetFeatures cid ask s
  | .asynchronousEventRequest cid => Sys2Proof.Machine.execAsynchronousEventRequest cid s
  | .namespaceCreate cid nsze ncap => Sys2Proof.Machine.execNamespaceCreate cid nsze ncap s
  | .namespaceDelete cid nsid => Sys2Proof.Machine.execNamespaceDelete cid nsid s
  | .namespaceAttach cid nsid controllers => Sys2Proof.Machine.execNamespaceAttach cid nsid controllers s
  | .namespaceDetach cid nsid controllers => Sys2Proof.Machine.execNamespaceDetach cid nsid controllers s
  | .firmwareImageDownload cid offset piece => Sys2Proof.Machine.execFirmwareImageDownload cid offset piece s
  | .commitStore src slot => Sys2Proof.Machine.execCommitStore src slot s
  | .commitStorePending src slot => Sys2Proof.Machine.execCommitStorePending src slot s
  | .commitMarkPending src slot => Sys2Proof.Machine.execCommitMarkPending src slot s
  | .commitActivate src slot => Sys2Proof.Machine.execCommitActivate src slot s
  | .commitEnd chk verified => Sys2Proof.Machine.execCommitEnd chk verified s
  | .activationDone => Sys2Proof.Machine.execActivationDone s
  | .selfTestShort cid nsid => Sys2Proof.Machine.execSelfTestShort cid nsid s
  | .selfTestExtended cid nsid => Sys2Proof.Machine.execSelfTestExtended cid nsid s
  | .selfTestAbort cid => Sys2Proof.Machine.execSelfTestAbort cid s
  | .selfTestEnd seen => Sys2Proof.Machine.execSelfTestEnd seen s
  | .directiveSend cid nsid dtype doper dspec => Sys2Proof.Machine.execDirectiveSend cid nsid dtype doper dspec s
  | .directiveReceive cid nsid dtype doper => Sys2Proof.Machine.execDirectiveReceive cid nsid dtype doper s
  | .doorbellBufferConfig cid => Sys2Proof.Machine.execDoorbellBufferConfig cid s
  | .formatNvm cid nsid ses lbaf => Sys2Proof.Machine.execFormatNvm cid nsid ses lbaf s
  | .securitySend cid proto req => Sys2Proof.Machine.execSecuritySend cid proto req s
  | .securityReceive cid proto => Sys2Proof.Machine.execSecurityReceive cid proto s
  | .spdmReceiveTimeout cid => Sys2Proof.Machine.execSpdmReceiveTimeout cid s
  | .sanitizeCryptoErase cid => Sys2Proof.Machine.execSanitizeCryptoErase cid s
  | .sanitizeBlockErase cid => Sys2Proof.Machine.execSanitizeBlockErase cid s
  | .sanitizeEnd => Sys2Proof.Machine.execSanitizeEnd s
  | .getVersion => Sys2Proof.Machine.execGetVersion s
  | .getCapabilities => Sys2Proof.Machine.execGetCapabilities s
  | .negotiateAlgorithms => Sys2Proof.Machine.execNegotiateAlgorithms s
  | .getDigests => Sys2Proof.Machine.execGetDigests s
  | .getCertificate slot offset len => Sys2Proof.Machine.execGetCertificate slot offset len s
  | .challenge slot => Sys2Proof.Machine.execChallenge slot s
  | .getMeasurements index signed => Sys2Proof.Machine.execGetMeasurements index signed s
  | .spdmUnsupportedRequest code => Sys2Proof.Machine.execSpdmUnsupportedRequest code s
  | .streamManage v => Sys2Proof.Machine.execStreamManage v s
  | .memberManage v => Sys2Proof.Machine.execMemberManage v s
  | .fleetManage v => Sys2Proof.Machine.execFleetManage v s
  | .lanternControl v => Sys2Proof.Machine.execLanternControl v s
  | .writeAccepted id => Sys2Proof.Machine.execWriteAccepted id s
  | .stagingComplete id => Sys2Proof.Machine.execStagingComplete id s
  | .fleetWriteStart id => Sys2Proof.Machine.execFleetWriteStart id s
  | .programStatus ch target pass => Sys2Proof.Machine.execProgramStatus ch target pass s
  | .eraseStatus ch target pass => Sys2Proof.Machine.execEraseStatus ch target pass s
  | .suspendStatus ch target => Sys2Proof.Machine.execSuspendStatus ch target s
  | .readTransfer rid ones pass lane words => Sys2Proof.Machine.execReadTransfer rid ones pass lane words s
  | .softDecodeDone rid pass lane => Sys2Proof.Machine.execSoftDecodeDone rid pass lane s
  | .readCompletion id => Sys2Proof.Machine.execReadCompletion id s
  | .flcOpOvertime ch target => Sys2Proof.Machine.execFlcOpOvertime ch target s
  | .memberTimeout port => Sys2Proof.Machine.execMemberTimeout port s
  | .readDeadline rid tampered lanes => Sys2Proof.Machine.execReadDeadline rid tampered lanes s
  | .padWaitExpired band unit => Sys2Proof.Machine.execPadWaitExpired band unit s
  | .extentRunGivenUp gsn => Sys2Proof.Machine.execExtentRunGivenUp gsn s
  | .dieTempRead temps => Sys2Proof.Machine.execDieTempRead temps s
  | .channelTrainingDone ch pass => Sys2Proof.Machine.execChannelTrainingDone ch pass s
  | .mapRecordForm id => Sys2Proof.Machine.execMapRecordForm id s
  | .mapRecordDurable => Sys2Proof.Machine.execMapRecordDurable s
  | .writeCompletion id => Sys2Proof.Machine.execWriteCompletion id s
  | .checkpointStart => Sys2Proof.Machine.execCheckpointStart s
  | .checkpointEnd => Sys2Proof.Machine.execCheckpointEnd s
  | .mapCkptLate => Sys2Proof.Machine.execMapCkptLate s
  | .memberPresenceDebounced port => Sys2Proof.Machine.execMemberPresenceDebounced port s
  | .memberFaultSample port faultLow => Sys2Proof.Machine.execMemberFaultSample port faultLow s
  | .memberIdentityRead port serial memb => Sys2Proof.Machine.execMemberIdentityRead port serial memb s
  | .memberQualifyDone port seen => Sys2Proof.Machine.execMemberQualifyDone port seen s
  | .memberRemoved port => Sys2Proof.Machine.execMemberRemoved port s
  | .memberFault port => Sys2Proof.Machine.execMemberFault port s
  | .powerSequenceEnd port => Sys2Proof.Machine.execPowerSequenceEnd port s
  | .memberQuery src tag port => Sys2Proof.Machine.execMemberQuery src tag port s
  | .memberAdmit src tag port => Sys2Proof.Machine.execAdmit src tag port s
  | .readmitBlank src tag port => Sys2Proof.Machine.execReadmitBlank src tag port s
  | .fail src tag port => Sys2Proof.Machine.execFail src tag port s
  | .powerOn src tag port => Sys2Proof.Machine.execPowerOn src tag port s
  | .powerOff src tag port => Sys2Proof.Machine.execPowerOff src tag port s
  | .rebuild src tag port position => Sys2Proof.Machine.execRebuild src tag port position s
  | .rawRead src tag port chpos target mode block page plane cw destLo destHi => Sys2Proof.Machine.execRawRead src tag port chpos target mode block page plane cw destLo destHi s
  | .formatUnit src tag geometry sparePort seen => Sys2Proof.Machine.execFormatUnit src tag geometry sparePort seen s
  | .open_ src tag stream nsid => Sys2Proof.Machine.execOpen src tag stream nsid s
  | .reserve src tag stream rate minRate burst => Sys2Proof.Machine.execReserve src tag stream rate minRate burst s
  | .release src tag stream => Sys2Proof.Machine.execRelease src tag stream s
  | .close src tag stream => Sys2Proof.Machine.execClose src tag stream s
  | .setMarkers src tag stream mode base entries prodAddr consAddr => Sys2Proof.Machine.execSetMarkers src tag stream mode base entries prodAddr consAddr s
  | .mark src tag stream frame => Sys2Proof.Machine.execMark src tag stream frame s
  | .streamQuery src tag stream => Sys2Proof.Machine.execStreamQuery src tag stream s
  | .queryCeiling src tag => Sys2Proof.Machine.execQueryCeiling src tag s
  | .releasingEnd stream => Sys2Proof.Machine.execReleasingEnd stream s
  | .arpNdpFrame port own => Sys2Proof.Machine.execArpNdpFrame port own s
  | .hello f c => Sys2Proof.Machine.execHello f c s
  | .helloReply f c => Sys2Proof.Machine.execHelloReply f c s
  | .confirm f b => Sys2Proof.Machine.execConfirm f b s
  | .heartbeat f credit activating sliceSegs => Sys2Proof.Machine.execHeartbeat f credit activating sliceSegs s
  | .suspect f positions => Sys2Proof.Machine.execSuspect f positions s
  | .epochPropose f epoch c => Sys2Proof.Machine.execEpochPropose f epoch c s
  | .epochAccept f epoch => Sys2Proof.Machine.execEpochAccept f epoch s
  | .epochCommit f epoch roster => Sys2Proof.Machine.execEpochCommit f epoch roster s
  | .epochQuery f => Sys2Proof.Machine.execEpochQuery f s
  | .intent f b => Sys2Proof.Machine.execIntent f b s
  | .intentAck f seqNo credit => Sys2Proof.Machine.execIntentAck f seqNo credit s
  | .busy f seqNo => Sys2Proof.Machine.execBusy f seqNo s
  | .mirror f keeperIndex writer b => Sys2Proof.Machine.execMirror f keeperIndex writer b s
  | .mirrorAck f writer seqNo => Sys2Proof.Machine.execMirrorAck f writer seqNo s
  | .done f seqNo => Sys2Proof.Machine.execDone f seqNo s
  | .retire f writer seqNo => Sys2Proof.Machine.execRetire f writer seqNo s
  | .resolve f seqNo => Sys2Proof.Machine.execResolve f seqNo s
  | .resolveReply f writer seqNo programmed => Sys2Proof.Machine.execResolveReply f writer seqNo programmed s
  | .readReq f stripe offset count element => Sys2Proof.Machine.execReadReq f stripe offset count element s
  | .readData f stripe offset element data => Sys2Proof.Machine.execReadData f stripe offset element data s
  | .activate f actTime digest => Sys2Proof.Machine.execActivate f actTime digest s
  | .activateAck f => Sys2Proof.Machine.execActivateAck f s
  | .activateCommit f => Sys2Proof.Machine.execActivateCommit f s
  | .activateCancel f => Sys2Proof.Machine.execActivateCancel f s
  | .fnsKey f key => Sys2Proof.Machine.execFnsKey f key s
  | .fnsKeyAck f => Sys2Proof.Machine.execFnsKeyAck f s
  | .heartbeatSend => Sys2Proof.Machine.execHeartbeatSend s
  | .retransmit msgId => Sys2Proof.Machine.execRetransmit msgId s
  | .windowExpired msgId => Sys2Proof.Machine.execWindowExpired msgId s
  | .peerSuspect position => Sys2Proof.Machine.execPeerSuspect position s
  | .handshakeTimeout position => Sys2Proof.Machine.execHandshakeTimeout position s
  | .handshakeRetry position => Sys2Proof.Machine.execHandshakeRetry position s
  | .sessionRekey position => Sys2Proof.Machine.execSessionRekey position s
  | .oldSessionExpiry position => Sys2Proof.Machine.execOldSessionExpiry position s
  | .epochProposeRetry => Sys2Proof.Machine.execEpochProposeRetry s
  | .intentResend seqNo => Sys2Proof.Machine.execIntentResend seqNo s
  | .activationDeadline => Sys2Proof.Machine.execActivationDeadline s
  | .resyncReadStart stripe element => Sys2Proof.Machine.execResyncReadStart stripe element s
  | .fleetQuery src tag => Sys2Proof.Machine.execFleetQuery src tag s
  | .enroll src tag certAddr sigOk idOk => Sys2Proof.Machine.execEnroll src tag certAddr sigOk idOk s
  | .form src tag group n m rosterAddr => Sys2Proof.Machine.execForm src tag group n m rosterAddr s
  | .bind src tag nsid keepStream => Sys2Proof.Machine.execBind src tag nsid keepStream s
  | .proxyCreate src tag position => Sys2Proof.Machine.execProxyCreate src tag position s
  | .proxyDelete src tag nsid => Sys2Proof.Machine.execProxyDelete src tag nsid s
  | .replace src tag position rosterAddr => Sys2Proof.Machine.execReplace src tag position rosterAddr s
  | .declare src tag position => Sys2Proof.Machine.execDeclare src tag position s
  | .declareTimeout => Sys2Proof.Machine.execDeclareTimeout s
  | .resync src tag => Sys2Proof.Machine.execResync src tag s
  | .fleetActivate src tag actTime digest => Sys2Proof.Machine.execFleetActivate src tag actTime digest s
  | .cancelActivate src tag => Sys2Proof.Machine.execCancelActivate src tag s
  | .portEnable p => Sys2Proof.Machine.execPortEnable p s
  | .portDisable p => Sys2Proof.Machine.execPortDisable p s
  | .portDrainEnd p => Sys2Proof.Machine.execPortDrainEnd p s
  | .fltPortDown p => Sys2Proof.Machine.execFltPortDown p s
  | .genSecret => Sys2Proof.Machine.execGenSecret s
  | .writeDaymark => Sys2Proof.Machine.execWriteDaymark s
  | .setOwner => Sys2Proof.Machine.execSetOwner s
  | .secverAdvance v => Sys2Proof.Machine.execSecverAdvance v s
  | .laneEnable l => Sys2Proof.Machine.execLaneEnable l s
  | .laneDisable l => Sys2Proof.Machine.execLaneDisable l s
  | .laneDrainEnd l => Sys2Proof.Machine.execLaneDrainEnd l s
  | .laneTestEnd l pass => Sys2Proof.Machine.execLaneTestEnd l pass s
  | .secTrngFail => Sys2Proof.Machine.execSecTrngFail s
  | .tapChallengeRead => Sys2Proof.Machine.execTapChallengeRead s
  | .tapResponse level keyOk sigOk => Sys2Proof.Machine.execTapResponse level keyOk sigOk s
  | .challengeExpiry => Sys2Proof.Machine.execChallengeExpiry s
  | .ledgerFault pair core cause => Sys2Proof.Machine.execLedgerFault pair core cause s
  | .ledgerRestartEnd pair => Sys2Proof.Machine.execLedgerRestartEnd pair s
  | .ledgerRestartTimeout pair => Sys2Proof.Machine.execLedgerRestartTimeout pair s
  | .ledgerRepair v => Sys2Proof.Machine.execLedgerRepair v s
  | .osWatchdogWrite v => Sys2Proof.Machine.execOsWatchdogWrite v s
  | .cpxOsWatchdog => Sys2Proof.Machine.execCpxOsWatchdog s
  | .memSubwordStore addr width => Sys2Proof.Machine.execMemSubwordStore addr width s
  | .transfer ch desc => Sys2Proof.Machine.execTransfer ch desc s
  | .moverDescriptorEnd ch => Sys2Proof.Machine.execMoverDescriptorEnd ch s
  | .bootConfirm v => Sys2Proof.Machine.execBootConfirm v s
  | .cstBootFailed => Sys2Proof.Machine.execCstBootFailed s
  | .cstProgramDone bank word verified => Sys2Proof.Machine.execCstProgramDone bank word verified s
  | .cstEraseDone bank sector ok => Sys2Proof.Machine.execCstEraseDone bank sector ok s
  | .cstEraseResume bank => Sys2Proof.Machine.execCstEraseResume bank s
  | .discover peer seqNo => Sys2Proof.Machine.execDiscover peer seqNo s
  | .begin_ peer seqNo slot manifest => Sys2Proof.Machine.execBegin peer seqNo slot manifest s
  | .data peer seqNo offset piece => Sys2Proof.Machine.execData peer seqNo offset piece s
  | .end_ peer seqNo chk => Sys2Proof.Machine.execEnd peer seqNo chk s
  | .lanternRead peer seqNo offset len => Sys2Proof.Machine.execLanternRead peer seqNo offset len s
  | .restart peer seqNo => Sys2Proof.Machine.execRestart peer seqNo s
  | .regRead peer seqNo off => Sys2Proof.Machine.execRegRead peer seqNo off s
  | .regWrite peer seqNo off v => Sys2Proof.Machine.execRegWrite peer seqNo off v s
  | .ring peer seqNo desc => Sys2Proof.Machine.execRing peer seqNo desc s
  | .beaconTransferIdle => Sys2Proof.Machine.execBeaconTransferIdle s
  | .lanternQuery src tag => Sys2Proof.Machine.execLanternQuery src tag s
  | .freeze src tag => Sys2Proof.Machine.execFreeze src tag s
  | .thaw src tag => Sys2Proof.Machine.execThaw src tag s
  | .lanternMark src tag detail => Sys2Proof.Machine.execLanternMark src tag detail s
  | .lanternControlRead src tag startSeq count dest => Sys2Proof.Machine.execLanternControlRead src tag startSeq count dest s
  | .clear src tag => Sys2Proof.Machine.execClear src tag s
  | .lntDropped => Sys2Proof.Machine.execLntDropped s
  | .earlyWarningHourly => Sys2Proof.Machine.execEarlyWarningHourly s
  | .earlyWarningMinute => Sys2Proof.Machine.execEarlyWarningMinute s
  | .tempHistorySecond => Sys2Proof.Machine.execTempHistorySecond s
  | .fleetPortLinkUp p => Sys2Proof.Machine.execFleetPortLinkUp p s
  | .linkUp width speed flit => Sys2Proof.Machine.execLinkUp width speed flit s
  | .senseComplete rid => Sys2Proof.Machine.execSenseComplete rid s
  | .spdmResponseReady => Sys2Proof.Machine.execSpdmResponseReady s

end Sys2Proof.Machine
end

