-- ==== Sys2Proof/Safety.lean ====
section
/-! DEFINITION. What the statements call a good state and a good run, in the machine's own terms: the canonical forms of the
addressed memory and of the register file, the words of the memory that a write may touch, and completion. -/

namespace Sys2Proof.Safety

open Sys2Proof.Machine

/-- The canonical form of what the machine addresses: its memory in the form of `Memory.wf` and its setup registers in that of
`Regs.wf`, so that equal contents are equal data. -/
def Canonical (s : State) : Prop := Memory.wf s.mem = true ∧ Regs.wf s.regs = true

/-- The command answers a next state with the property. -/
def Answers (c : Instr) (s : State) (P : State → Prop) : Prop := ∃ t, exec c s = .next t ∧ P t

/-- The parts of the state, as the frames of the commands name them. -/
inductive Part where
  | regs | latch | mem | sys | clk | thm | tck | hif | stm | map | flc | bnd | mbr | flt | sec | cpx | memc | mov | cst | lnt | out | freeCtr
  deriving DecidableEq, Repr

/-- A part of two states is the same. -/
def Part.same : Part → State → State → Prop
  | .regs, s, t => t.regs = s.regs
  | .latch, s, t => t.latch = s.latch
  | .mem, s, t => t.mem = s.mem
  | .sys, s, t => t.sys = s.sys
  | .clk, s, t => t.clk = s.clk
  | .thm, s, t => t.thm = s.thm
  | .tck, s, t => t.tck = s.tck
  | .hif, s, t => t.hif = s.hif
  | .stm, s, t => t.stm = s.stm
  | .map, s, t => t.map = s.map
  | .flc, s, t => t.flc = s.flc
  | .bnd, s, t => t.bnd = s.bnd
  | .mbr, s, t => t.mbr = s.mbr
  | .flt, s, t => t.flt = s.flt
  | .sec, s, t => t.sec = s.sec
  | .cpx, s, t => t.cpx = s.cpx
  | .memc, s, t => t.memc = s.memc
  | .mov, s, t => t.mov = s.mov
  | .cst, s, t => t.cst = s.cst
  | .lnt, s, t => t.lnt = s.lnt
  | .out, s, t => t.out = s.out
  | .freeCtr, s, t => t.freeCtr = s.freeCtr

/-- The commands that wait and every part outside the list are as before: the frame of a command. -/
def SameBut (ps : List Part) (s t : State) : Prop := t.pending = s.pending ∧ ∀ p, p ∉ ps → Part.same p s t

/-- What raising a code and counting it may change: registers, interrupt sources and the Lantern. -/
def notes : List Part := [.regs, .sys, .lnt]

/-- The registers that raising a code changes (R413-R416): the counts of records and of drops, and the block's last code. -/
def noteRegs (code : Nat) : List Nat := [LNT_RECORD_CNT, LNT_DROP_CNT, LNT_LASTb (code / 256)]

/-- A completion queue takes a CQE at once: CQEs issue, what HIF sends reaches the host, none is held back and an entry is free (R46, R70,
R83, R96). -/
def CqRoom (cq : Nat) (s : State) : Prop :=
  cqesIssue s = true ∧ s.hif.idePhase ≠ 2 ∧ ∃ q, mget s.hif.cqs cq = some q ∧ q.held = [] ∧ 0 < q.free

/-- The unit serves no fleet: its slice is not bound and FLT fetches and answers nothing. -/
def NotFleet (s : State) : Prop := s.flt.slice = none ∧ s.flt.serving = [] ∧ s.flt.gathers = []

/-- HIF fetches an I/O command from its SQ, whose turn it is, into a slot of its own (R67, R68, R81). -/
def Fetches (s : State) (c : IoCmd) : Prop :=
  (∃ q, mget s.hif.sqs c.sq = some q ∧ q.look = none) ∧ c.sq ≠ 0 ∧ fetchable s c.sq = true ∧ turnOf s c.sq = true ∧ c.ord = false
    ∧ slotFree s c = true

/-- The I/O command of a header, of a kind. -/
def ioOf (h : IoHdr) (k : IoKind) : IoCmd := { sq := h.sq, cid := h.cid, nsid := h.nsid, ord := h.ord, kind := k }

/-- HIF carries out every admin command, and its CQEs are posted at once. -/
def AdminServes (s : State) : Prop := adminOpen s = true ∧ adminFull s = true ∧ CqRoom 0 s

/-- What the host sees of a CQE: the entry, and the message of its queue's vector where the MSI-X table holds that unmasked (Table 3.1). -/
def cqeOut (s : State) (cq : Nat) (c : Cqe) : List Out :=
  .cqe cq { c with writes := false }
    :: (mget s.hif.msix ((mget s.hif.cqs cq).elim 0 (fun q => q.vector))).toList.map (fun e => Out.msix e.1 e.2)

/-- What the host sees of the end of an admin command. -/
def adminCqe (s : State) (cid sct sc dw0 : Nat) : List Out := cqeOut s 0 { sq := 0, cid := cid, sct := sct, sc := sc, dw0 := dw0 }

/-- No command handed over waits for entries of the in-flight index (R145). -/
def IndexUnclaimed (s : State) : Prop := ∀ p ∈ s.hif.slots, waitsAccept p.2 = true → p.2.idxWait = false

/-- A completion record goes to the requester of a management command (R453): into its ring's records, into the vendor command's buffer, or
into Beldy's answer. -/
def Formed (src : Src) (tag status : Nat) (body result : List Byte) (s t : State) : Prop :=
  let r : CplRec := { tag := tag, status := status, body := padTo 24 body, result := result }
  match src with
  | .ring ix => t.out = s.out ∧ t.sys.hifFormed = s.sys.hifFormed
      ∧ t.sys.rings = mupd s.sys.rings ix (fun g => { g with formed := g.formed ++ [r], open_ := g.open_ - 1 })
  | .admin cid => t.out = s.out ∧ t.sys.rings = s.sys.rings ∧ t.sys.hifFormed = s.sys.hifFormed ++ [(cid, r)]
  | .beldy => t.sys.rings = s.sys.rings ∧ t.sys.hifFormed = s.sys.hifFormed
      ∧ t.out = s.out ++ [.beacon 0 0 status (le 4 tag ++ le 2 status ++ [0, 0] ++ r.body)]

/-- A controller reset has begun (R81): fetching has stopped, the host's Reads and unstarted commands are gone, what has started ends in
silence, and no admin command waits. -/
def ResetBegun (t : State) : Prop :=
  t.hif.ccEn = false ∧ t.hif.resetting = true ∧ t.hif.aers = [] ∧ t.hif.events = [] ∧ t.hif.adminHeld = []
    ∧ t.hif.carried = (hostSlots t).length ∧ t.sec.spdmWait = none
    ∧ ∀ p ∈ hostSlots t, p.2.cmd.kind ≠ .read ∧ p.2.started = true ∧ p.2.silent = true

/-- The descriptor of a management command (R89, Table 15.8): its requester and tag, its opcode, and the fields of it that the command's
operands stand for (offset, bytes, value). -/
def descOf : Instr → Option (Src × Nat × Nat × List (Nat × Nat × Nat))
  | .open_ src tag stream nsid => some (src, tag, 0x0301, [(8, 2, stream), (12, 4, nsid)])
  | .reserve src tag stream rate minRate burst => some (src, tag, 0x0302, [(8, 2, stream), (12, 4, rate), (16, 4, minRate), (20, 4, burst)])
  | .release src tag stream => some (src, tag, 0x0303, [(8, 2, stream)])
  | .close src tag stream => some (src, tag, 0x0304, [(8, 2, stream)])
  | .setMarkers src tag stream mode base entries prodAddr consAddr => some (src, tag, 0x0305, [(8, 2, stream), (12, 1, mode)]
      ++ if mode = 0 then [] else [(16, 8, base), (24, 4, entries), (32, 8, prodAddr), (40, 8, consAddr)])
  | .mark src tag stream frame => some (src, tag, 0x0306, [(8, 2, stream), (16, 8, frame)])
  | .streamQuery src tag stream => some (src, tag, 0x0307, [(8, 2, stream)])
  | .queryCeiling src tag => some (src, tag, 0x0308, [])
  | .memberQuery src tag port => some (src, tag, 0x0701, [(8, 1, port)])
  | .memberAdmit src tag port => some (src, tag, 0x0702, [(8, 1, port)])
  | .readmitBlank src tag port => some (src, tag, 0x0703, [(8, 1, port)])
  | .fail src tag port => some (src, tag, 0x0704, [(8, 1, port)])
  | .powerOn src tag port => some (src, tag, 0x0705, [(8, 1, port)])
  | .powerOff src tag port => some (src, tag, 0x0706, [(8, 1, port)])
  | .rebuild src tag port position => some (src, tag, 0x0707, [(8, 1, port), (9, 1, position)])
  | .rawRead src tag port chpos target mode block page plane cw destLo destHi => some (src, tag, 0x0708,
      [(8, 1, port), (9, 1, chpos), (10, 1, target), (11, 1, mode), (12, 2, block), (14, 2, page), (16, 1, plane), (17, 1, cw),
        (24, 4, destLo), (28, 4, destHi)])
  | .formatUnit src tag geometry sparePort _ => some (src, tag, 0x0709, [(8, 1, geometry), (9, 1, sparePort)])
  | .fleetQuery src tag => some (src, tag, 0x0801, [])
  | .enroll src tag certAddr _ _ => some (src, tag, 0x0802, [(8, 8, certAddr)])
  | .form src tag group n m rosterAddr => some (src, tag, 0x0803, [(8, 2, group), (10, 1, n), (11, 1, m), (16, 8, rosterAddr)])
  | .bind src tag nsid keepStream => some (src, tag, 0x0804, [(8, 4, nsid), (12, 2, keepStream)])
  | .proxyCreate src tag position => some (src, tag, 0x0805, [(8, 1, position)])
  | .proxyDelete src tag nsid => some (src, tag, 0x0806, [(8, 4, nsid)])
  | .replace src tag position rosterAddr => some (src, tag, 0x0807, [(8, 1, position), (16, 8, rosterAddr)])
  | .declare src tag position => some (src, tag, 0x0808, [(8, 1, position)])
  | .resync src tag => some (src, tag, 0x0809, [])
  | .fleetActivate src tag actTime digest => some (src, tag, 0x080A, [(8, 8, actTime), (16, 48, digest)])
  | .cancelActivate src tag => some (src, tag, 0x080B, [])
  | .lanternQuery src tag => some (src, tag, 0x1001, [])
  | .freeze src tag => some (src, tag, 0x1002, [])
  | .thaw src tag => some (src, tag, 0x1003, [])
  | .lanternMark src tag detail => some (src, tag, 0x1004, [(24, 40, leNat (padTo 40 detail))])
  | .lanternControlRead src tag startSeq count dest => some (src, tag, 0x1005, [(8, 4, startSeq), (12, 2, count), (16, 8, dest)])
  | .clear src tag => some (src, tag, 0x1006, [])
  | _ => none

/-- The descriptor of a command may begin (R41, R91): it is the next of its block's that have been taken, with the fields that it holds. -/
def Begins (c : Instr) (s : State) : Prop :=
  ∃ src tag op fs, descOf c = some (src, tag, op, fs) ∧ mayBegin s src tag op fs = true

/-- Identification finds a fitted target on a port's channel, which is driven: its parameter page is good, its identification that of a valid
profile (R163, R167, Table 6.12). -/
def Identified (s : State) (m : Nat) (a : TargetSeen) : Prop :=
  a.target < 32 ∧ a.onfiOk = true ∧ a.crcOk = true ∧ bitAt (rg s (FLC_CFG (4 * m + a.chpos))) 0 = true
    ∧ (matchProfile s (4 * m + a.chpos) a).isSome = true

/-- A codeword read is no diagnostic, serves no reconstruction and has none at work for it. -/
def PlainRead (s : State) (rid : Nat) (r : Rd) : Prop :=
  (∀ src tag mode dest x, r.use ≠ .raw src tag mode dest x) ∧ (∀ p q, r.use ≠ .survivor p q) ∧ (∀ q ∈ s.flc.reads, survives rid q.2 = false)

/-- The next slot of its class carries a sensed codeword of a page (R182), and every memory word on its way is as it was written (R341). -/
def Carries (s : State) (rid : Nat) (r : Rd) (p : Page) (words : List WordSeen) : Prop :=
  s.tck.holding = false ∧ s.cst.mode ≠ .halt ∧ mget s.flc.reads rid = some r ∧ r.phase = .ready ∧ mget s.bnd.pages r.page = some p
    ∧ chanStopped s p.ch = false ∧ mayTransfer s rid r p.ch = true ∧ (portAt s (p.ch / 4)).gen = r.gen
    ∧ ∀ w ∈ words, ∃ d, decodeWord w.addr w.code = .clean d

/-- What FLT notes of a frame that its filter passes: when the peer was heard, and the SEQ (R268, R275). -/
def Heard (s : State) (f : Tfp) (p : Nat) : State :=
  setPeer p (fun x => { x with
    heard := s.tck.fleet, heardNow := s.tck.now, suspected := false
    seqHigh := Nat.max x.seqHigh f.seq, seqSeen := noteSeq x.seqSeen x.seqHigh f.seq }) s

/-- A frame of the session open with position p reaches FLT: the address, the group, the session and the tag are in order (R268). -/
def InSession (s : State) (f : Tfp) (p : Nat) : Prop :=
  s.cst.mode.runs = true ∧ peerOf s f.src = some p ∧ headOk s f = true ∧ f.session ≠ 0 ∧ f.session = (peerAt s p).session ∧ f.tagOk = true

/-- A frame passes the filter: its SEQ is new as well; no peer is suspected and the unit is not Isolated. -/
def PassesFilter (s : State) (f : Tfp) (p : Nat) : Prop :=
  InSession s f p ∧ seqOk (peerAt s p).seqHigh (peerAt s p).seqSeen f.seq = true
    ∧ (∀ q ∈ livePeers s, (peerAt s q).suspected = false) ∧ s.flt.fstate ≠ .isolated

/-- A whole message of the current epoch passes the filter. -/
def Passes (s : State) (f : Tfp) (p : Nat) : Prop := PassesFilter s f p ∧ f.epoch = s.flt.epoch ∧ f.whole = true

/-- A message goes out, on one of the fleet ports (R266). -/
def Said (dest ty id ref seqNo : Nat) (body : List Nat) (s t : State) : Prop :=
  ∃ port, port < 2 ∧ t.out = s.out ++ [.tfp port dest ty id ref seqNo body]

/-- Every byte of the addressed memory reads as before. -/
def SameMemory (s t : State) : Prop := ∀ a, readByte t a = readByte s a

/-- Every byte outside [a, a + n) reads as before. -/
def SameMemoryOutside (a n : Nat) (s t : State) : Prop := ∀ b, (b < a ∨ a + n ≤ b) → readByte t b = readByte s b

/-- Every setup register but those at the offsets of the list reads as before. -/
def SameRegsBut (offs : List Nat) (s t : State) : Prop := ∀ o, o ∉ offs → getReg t o = getReg s o

end Sys2Proof.Safety
end

