-- ==== Sys2Proof/Certificates/Slice0/Obligations.lean ====
section
/-! DEFINITION. The statements for the provers: what the commands of each block do (each answers a next state, with its effect and
its frame), what holds of every command, and the invariants that every step keeps. -/

open Sys2Proof Sys2Proof.Machine Sys2Proof.Safety

/-! ### The tick, time, alarms (02_tick_and_time.md) -/

/-- TICK_EDGE and PLANNING_CUT_OFF (R34, R46, R40, Table 2.2): an edge takes the tick count one further, modulo 2^64, at the time of the
edge, its plan is used up, and the registers as they stand are those by which the tick decides (R437); in Halt and after a thermal trip the
tick is held and issues nothing (DEDUCED, log entry 25). At the cut-off the plan of the next tick is closed, with the pairs that are late.
-/
def Obligations.TickEdgeAndCutOff : Prop :=
  (∀ (s : State) (e : Nat), s.tck.running = true → nextEdge s = some e →
    Answers .tickEdge s (fun t =>
      t.tck.tick = (s.tck.tick + 1) % 2 ^ 64 ∧ t.tck.now = Nat.max s.tck.now e ∧ t.tck.tickStart = t.tck.now ∧ t.tck.running = true
      ∧ t.tck.planned = false ∧ t.tck.late = []
      ∧ ((s.thm.tripped = true ∨ s.cst.mode = .halt) → t.tck.holding = true ∧ t.tck.plan = [] ∧ t.tck.senses = [])
      ∧ (s.thm.tripped = false → s.cst.mode ≠ .halt → s.tck.gap = 0 → s.cpx.ledgersOn = false → t.tck.holding = false ∧ t.tck.holdRun = 0)
      ∧ t.sec.otpSecret = s.sec.otpSecret ∧ t.latch = s.latch ∧ t.thm = { s.thm with driveBand := s.thm.band }
      ∧ t.tck.seen = s.regs ∧ t.pending = s.pending)) ∧
  (∀ (s : State) (late mismatch : List Nat) (table : Option (List CtRow)),
    s.tck.running = true → s.tck.planned = false → s.cpx.ledgersOn = true → s.cst.mode.runs = true →
    Answers (.planningCutOff late mismatch table) s (fun t =>
      t.tck.planned = true ∧ t.tck.late = (late.dedup).filter (fun n => n < 10 && pairRuns s n)
      ∧ t.tck.tick = s.tck.tick ∧ t.tck.now = s.tck.now
      ∧ SameBut [.regs, .sys, .tck, .hif, .stm, .map, .flc, .bnd, .mbr, .sec, .cpx, .cst, .lnt, .out] s t))

/-- The entries to Halt (R48, R387, R389, R361): HOLD_LIMIT held ticks in a row, the loss of the crystal, and the loss of a lock of TB, F, L
or H each send the unit to Halt, where CFS is set, the key store is cleared and the Lantern is frozen; fewer held ticks change nothing. -/
def Obligations.HoldLimit : Prop :=
  (∀ s : State, s.cst.mode ≠ .halt → 0 < s.tck.holdRun → fld s TCK_CFG 19 8 ≤ s.tck.holdRun →
    Answers .tckHoldLimit s (fun t => t.cst.mode = .halt ∧ t.hif.cfs = true ∧ t.sec.keyStore = false ∧ t.lnt.frozen = true
      ∧ SameBut [.regs, .sys, .hif, .sec, .cst, .lnt] s t)) ∧
  (∀ s : State, s.tck.holdRun < fld s TCK_CFG 19 8 → Answers .tckHoldLimit s (fun t => t = s)) ∧
  (∀ (s : State) (c : Instr), s.cst.mode ≠ .halt → s.clk.xtalOk = true →
    ((c = .xtalLost ∧ s.clk.xtalLost = false) ∨ ∃ i, c = .pllUnlock i ∧ (i = 0 ∨ i = 1 ∨ i = 3 ∨ i = 4) ∧ i ∉ s.clk.unlocked) →
    ∃ t, exec c s = .next t ∧ t.cst.mode = .halt ∧ t.hif.cfs = true ∧ t.sec.keyStore = false ∧ t.lnt.frozen = true
      ∧ SameBut [.regs, .sys, .clk, .tck, .hif, .sec, .cst, .lnt] s t)

/-- ALARM_FIRED and ALARM_ARM (R56): an alarm of the device OS whose time has come is disarmed, sets its status bit and raises source
64 + n; a store to the HI register arms the alarm at both halves, or disarms it where both are zero. -/
def Obligations.Alarms : Prop :=
  (∀ (s : State) (n tm : Nat), n < 4 → mget s.tck.alarms n = some (tm, .os) → tm ≤ s.tck.fleet → s.tck.now = s.tck.tickStart →
    Answers (.alarmFired n) s (fun t => mget t.tck.alarms n = none ∧ rg t TCK_ALARM_STATUS % 2 ^ (n + 1) / 2 ^ n = 1 ∧ 64 + n ∈ t.sys.irq
      ∧ (∀ k, k ≠ n → mget t.tck.alarms k = mget s.tck.alarms k)
      ∧ SameRegsBut (TCK_ALARM_STATUS :: noteRegs Ev.TCK_ALARM_FIRED) s t ∧ SameBut (.tck :: notes) s t)) ∧
  (∀ (s : State) (n tm : Nat) (o : AlarmOwner), mget s.tck.alarms n = some (tm, o) → s.tck.fleet < tm →
    Answers (.alarmFired n) s (fun t => t = s)) ∧
  (∀ (s : State) (n : Nat) (hi : Word), n < 4 →
    Answers (.alarmArm n hi) s (fun t => getReg t (TCK_ALARMn_HI n) = hi
      ∧ mget t.tck.alarms n = (if hi.toNat * 2 ^ 32 + rg s (TCK_ALARMn_LO n) = 0 then none
          else some (hi.toNat * 2 ^ 32 + rg s (TCK_ALARMn_LO n), .os))
      ∧ (∀ k, k ≠ n → mget t.tck.alarms k = mget s.tck.alarms k)
      ∧ SameRegsBut [TCK_ALARMn_HI n] s t ∧ SameBut [.regs, .tck] s t))

/-- PPS (R51, R52, R55): a pulse below 50 us only lets its time pass; an accepted one while Acquiring sets fleet time from the armed
seconds and disarms them; the end of a window without an accepted edge counts a miss and enters Holdover, and at MISS_LIMIT PPS
returns to Acquiring. -/
def Obligations.PpsEdges : Prop :=
  (∀ (s : State) (dt high : Nat), mayPass s dt = true → high < 50000 →
    Answers (.ppsEdgeJudged dt high) s (fun t => t = advance dt s)) ∧
  (∀ (s : State) (dt high sec : Nat), mayPass s dt = true → 50000 ≤ high → 50000 ≤ s.tck.now + dt → s.tck.pps = .acquiring →
    s.tck.armed = some sec →
    Answers (.ppsEdgeJudged dt high) s (fun t => t.tck.fleet = sec * 1000000000 + 50000 ∧ t.tck.frac = 0 ∧ t.tck.armed = none
      ∧ t.tck.timeSet = true ∧ t.tck.now = s.tck.now + dt ∧ t.tck.tick = s.tck.tick ∧ SameBut (.tck :: notes) s t)) ∧
  (∀ (s : State) (dt : Nat), mayPass s dt = true → s.tck.pps = .locked ∨ s.tck.pps = .holdover →
    (ppsWindow s).1 + (ppsWindow s).2 < (advance dt s).tck.fleet →
    Answers (.ppsWindowMissed dt) s (fun t =>
      (if fld s TCK_PPS_CFG 15 8 ≤ s.tck.ppsRun + 1 then t.tck.pps = .acquiring ∧ t.tck.ppsRun = 0
        else t.tck.pps = .holdover ∧ t.tck.ppsRun = s.tck.ppsRun + 1 ∧ t.tck.ppsMissRun = s.tck.ppsMissRun + 1)
      ∧ rg t TCK_PPS_MISS_CNT = Nat.min (rg s TCK_PPS_MISS_CNT + 1) 0xFFFFFFFF ∧ t.tck.now = s.tck.now + dt
      ∧ SameBut (.tck :: notes) s t))

/-- FSYNC (R36-R38): the edge that TCK_FRAME.EDGE does not select, and any edge while FSYNC is off, only lets its time pass; in Holdover an
edge returns to Acquiring; a window that ends without an accepted edge counts a miss, ends the last tick L/16 after the predicted edge and
predicts the next one T later, and the eighth in a row enters Holdover. -/
def Obligations.FsyncEdges : Prop :=
  (∀ (s : State) (dt : Nat) (rising : Bool), mayPass s dt = true → s.tck.fsync = .off ∨ rising = bitAt (rg s TCK_FRAME) 18 →
    Answers (.fsyncEdge ⟨dt, rising⟩) s (fun t => t = advance dt s)) ∧
  (∀ (s : State) (dt : Nat) (rising : Bool), mayPass s dt = true → rising ≠ bitAt (rg s TCK_FRAME) 18 → s.tck.fsync = .holdover →
    Answers (.fsyncEdge ⟨dt, rising⟩) s (fun t => t.tck.fsync = .acquiring ∧ t.tck.periods = [] ∧ t.tck.fsyncLast = some (s.tck.now + dt)
      ∧ t.tck.now = s.tck.now + dt ∧ SameBut [.tck] s t)) ∧
  (∀ (s : State) (dt : Nat) (rising : Bool), mayPass s dt = true → rising ≠ bitAt (rg s TCK_FRAME) 18 → s.tck.fsync = .locked →
    s.tck.predict ≤ s.tck.now + dt + s.tck.frameL / 16 → s.tck.now + dt ≤ s.tck.predict + s.tck.frameL / 16 →
    Answers (.fsyncEdge ⟨dt, rising⟩) s (fun t => t.tck.fsync = .locked ∧ t.tck.edgeDue = true ∧ t.tck.frameTick = 0
      ∧ t.tck.frameStart = s.tck.now + dt ∧ t.tck.predict = s.tck.now + dt + t.tck.frameT ∧ t.tck.fsyncMissRun = 0
      ∧ SameBut [.regs, .mem, .sys, .tck, .hif, .stm, .lnt, .out] s t)) ∧
  (∀ s : State, s.tck.fsync = .locked → s.tck.now ≤ s.tck.predict + s.tck.frameL / 16 →
    mayPass s (s.tck.predict + s.tck.frameL / 16 - s.tck.now) = true →
    Answers .fsyncEdgeMissed s (fun t => t.tck.edgeDue = true ∧ t.tck.now = s.tck.predict + s.tck.frameL / 16
      ∧ t.tck.predict = s.tck.predict + s.tck.frameT ∧ t.tck.fsyncMissRun = s.tck.fsyncMissRun + 1
      ∧ t.tck.fsync = (if 8 ≤ s.tck.fsyncMissRun + 1 then .holdover else .locked)
      ∧ rg t TCK_FSYNC_REJ_CNT = Nat.min (rg s TCK_FSYNC_REJ_CNT + 1) 0xFFFFFFFF ∧ SameBut (.tck :: notes) s t))

/-- TIME_SEC_ARM, FRAME_WRITE and LATCHING_LO_READ (R52, R53, R39, R58): a seconds value is armed with TCK_TIME_SEC_HI; a store to TCK_FRAME
while frame-locked sends FSYNC back to Acquiring; the load of a LO half gives its value and latches its HI half. -/
def Obligations.TimeRegisters : Prop :=
  (∀ (s : State) (v : Word), (fld s TCK_TIME_SEC_HI 2 0 * 2 ^ 32 + v.toNat) * 1000000000 < 2 ^ 64 →
    Answers (.timeSecArm v) s (fun t => t.tck.armed = some (fld s TCK_TIME_SEC_HI 2 0 * 2 ^ 32 + v.toNat)
      ∧ t.tck = { s.tck with armed := t.tck.armed } ∧ SameBut [.tck] s t)) ∧
  (∀ (s : State) (v : Word), 2 ^ 64 ≤ (fld s TCK_TIME_SEC_HI 2 0 * 2 ^ 32 + v.toNat) * 1000000000 →
    Answers (.timeSecArm v) s (fun t => rg t SYS_DISCARD_CNT = Nat.min (rg s SYS_DISCARD_CNT + 1) 0xFFFFFFFF ∧ SameBut notes s t)) ∧
  (∀ (s : State) (v : Word), bits (v.toNat % 2 ^ 19) 17 0 ≠ 0 → s.tck.source = 1 →
    Answers (.frameWrite v) s (fun t => t.tck.fsync = .acquiring ∧ t.tck.periods = [] ∧ fld t TCK_FRAME 17 0 = bits v.toNat 17 0
      ∧ SameBut (.tck :: notes) s t)) ∧
  (∀ (s : State) (off : Nat) (x : Nat), latchedView s off = some x →
    Answers (.latchingLoRead off) s (fun t => t.out = s.out ++ [.load off (loadReg off s).1]
      ∧ mget t.latch (off + 4) = some (toWord (x / 2 ^ 32)) ∧ SameBut [.latch, .sec, .out, .freeCtr] s t))

/-! ### Setup space, resets, rings, GPIO (15_setup_space.md, 12_modes_boot_update.md) -/

/-- REGISTER_WRITE (R432, R434, R12, R431): a store that a requester may make, to a register with no meaning of its own, changes its
writable bits alone; a reserved encoding is discarded and counted; at an unassigned offset nothing is stored and the store is counted;
outside every span or misaligned it is an access fault; from any other requester nothing happens. -/
def Obligations.RegisterWrite : Prop :=
  (∀ (s : State) (who : Who) (off : Nat) (v : Word) (d : RegDef), mayStore s who = true → inSpan off = true → off % 4 = 0 →
    off ≠ SYS_SEAL → off ≠ SYS_RESET_CTL → storeA off v s = none → storeB off v s = none → regDef off = some d →
    encOk s off (storedValue d s.sys.isSealed (rg s off) v.toNat) = true →
    Answers (.registerWrite who off v) s (fun t =>
      getReg t off = toWord (storedValue d s.sys.isSealed (rg s off) v.toNat)
      ∧ SameRegsBut (off :: SYS_DISCARD_CNT :: noteRegs Ev.SYS_WRITE_IGNORED) s t ∧ SameBut notes s t)) ∧
  (∀ (s : State) (who : Who) (off : Nat) (v : Word) (d : RegDef), mayStore s who = true → inSpan off = true → off % 4 = 0 →
    off ≠ SYS_SEAL → off ≠ SYS_RESET_CTL → storeA off v s = none → storeB off v s = none → regDef off = some d →
    encOk s off (storedValue d s.sys.isSealed (rg s off) v.toNat) = false →
    Answers (.registerWrite who off v) s (fun t => rg t SYS_DISCARD_CNT = Nat.min (rg s SYS_DISCARD_CNT + 1) 0xFFFFFFFF
      ∧ SameRegsBut (SYS_DISCARD_CNT :: noteRegs Ev.SYS_RESERVED_ENCODING) s t ∧ SameBut notes s t)) ∧
  (∀ (s : State) (who : Who) (off : Nat) (v : Word), mayStore s who = true → inSpan off = true → off % 4 = 0 →
    off ≠ SYS_SEAL → off ≠ SYS_RESET_CTL → storeA off v s = none → storeB off v s = none → regDef off = none →
    Answers (.registerWrite who off v) s (fun t => rg t SYS_DISCARD_CNT = Nat.min (rg s SYS_DISCARD_CNT + 1) 0xFFFFFFFF
      ∧ SameRegsBut (SYS_DISCARD_CNT :: noteRegs Ev.SYS_WRITE_IGNORED) s t ∧ SameBut notes s t)) ∧
  (∀ (s : State) (who : Who) (off : Nat) (v : Word), mayStore s who = false →
    Answers (.registerWrite who off v) s (fun t => t = s))

/-- Access faults (R431): an access of another width, a misaligned one and one outside every span is counted, its address recorded
and given to the requester, and no other register changes. -/
def Obligations.AccessFaults : Prop :=
  (∀ (s : State) (addr width : Nat) (isStore : Bool), setupBase ≤ addr → addr < setupBase + 2 ^ 32 →
    (width ≠ 4 ∨ addr % 4 ≠ 0 ∨ inSpan (addr - setupBase) = false) →
    Answers (.setupAccessFault addr width isStore) s (fun t =>
      rg t SYS_ACCESS_FAULT_CNT = Nat.min (rg s SYS_ACCESS_FAULT_CNT + 1) 0xFFFFFFFF ∧ getReg t SYS_FAULT_ADDR = toWord addr
      ∧ t.out = s.out ++ [.accessFault addr]
      ∧ SameRegsBut (SYS_ACCESS_FAULT_CNT :: SYS_FAULT_ADDR :: noteRegs Ev.SYS_ACCESS_FAULT) s t ∧ SameBut (.out :: notes) s t)) ∧
  (∀ (s : State) (who : Who) (off : Nat) (v : Word), mayStore s who = true → (inSpan off = false ∨ off % 4 ≠ 0) →
    Answers (.registerWrite who off v) s (fun t =>
      rg t SYS_ACCESS_FAULT_CNT = Nat.min (rg s SYS_ACCESS_FAULT_CNT + 1) 0xFFFFFFFF ∧ getReg t SYS_FAULT_ADDR = toWord (setupBase + off)
      ∧ SameRegsBut (SYS_ACCESS_FAULT_CNT :: SYS_FAULT_ADDR :: noteRegs Ev.SYS_ACCESS_FAULT) s t ∧ SameBut (.out :: notes) s t))

/-- SEAL (R438, R439, R349): 0x5EA1 after passing checks seals the unit and fixes the HBM partitions; a failing check is shown and seals
nothing; any other value is discarded; nothing unseals it; the checks are those of Table 15.3, in order. -/
def Obligations.Seal : Prop :=
  (∀ s : State, s.sys.isSealed = false → sealCheck s = 0 →
    Answers (.seal 0x5EA1) s (fun t => t.sys.isSealed = true ∧ t.memc.fixedKeep = some (hbmBases s).1
      ∧ t.cst.savedPool = fld s MAP_POOL_CFG 9 0 ∧ t.hif.slots = s.hif.slots
      ∧ SameBut [.regs, .sys, .tck, .hif, .stm, .map, .flc, .bnd, .mbr, .sec, .memc, .cst, .lnt, .out, .freeCtr] s t)) ∧
  (∀ s : State, s.sys.isSealed = false → sealCheck s ≠ 0 →
    Answers (.seal 0x5EA1) s (fun t => t.sys = { s.sys with sealFail := sealCheck s, irq := t.sys.irq }
      ∧ SameRegsBut (noteRegs Ev.SYS_SEAL_REFUSED) s t ∧ SameBut notes s t)) ∧
  (∀ (s : State) (v : Word), s.sys.isSealed = false → v ≠ 0x5EA1 →
    Answers (.seal v) s (fun t => t.sys = { s.sys with irq := t.sys.irq } ∧ rg t SYS_DISCARD_CNT = Nat.min (rg s SYS_DISCARD_CNT + 1) 0xFFFFFFFF
      ∧ SameBut notes s t)) ∧
  (∀ (s : State) (v : Word), s.sys.isSealed = true → Answers (.seal v) s (fun t => t = s)) ∧
  (∀ s : State,
    let spans := fun (p : Nat × Ring) => [(p.2.base, 64 * 2 ^ p.2.descLog2), (p.2.prod, 8), (p.2.cons, 8)]
      ++ (if p.1 < 32 then [(p.2.cpl, 32 * 2 ^ p.2.cplLog2), (p.2.ccons, 8)] else [])
    let placed := fun (r : Nat × Nat) => r.1 + r.2 ≤ (hbmBases s).1 * 0x100000 ∨ (0x2000000000 ≤ r.1 ∧ r.1 + r.2 ≤ 0x2000400000)
    let check1 := fld s MAP_CFG 7 0 ≤ fld s FLC_G_CFG 23 16
    let check2 := ∀ p ∈ s.sys.rings, p.2.st ≠ .off → ∀ r ∈ spans p, placed r
    (sealCheck s = 1 ↔ ¬check1) ∧ (sealCheck s = 2 ↔ check1 ∧ ¬check2) ∧ (sealCheck s = 0 ↔ check1 ∧ check2))

/-- SYS_RESET_CTL and RESET_L (R441, R442): with the key, a warm reset records its cause and kind and, where no application core runs,
changes nothing else but the records of the request; where they run from a Confirmed OS slot that passes its checks they all start again
from it, counted in BOOT_COUNT, and host, streams, map and tick go on; an internal cold restart leaves the unit in Dark with its cause;
another key is discarded. -/
def Obligations.ResetRequests : Prop :=
  (∀ (s : State) (v : Word), bits v.toNat 31 16 = 0x5AFE → s.cst.mode ≠ .dark → s.cst.mode ≠ .beacon → s.thm.pfail = false →
    s.thm.tripped = false → s.cpx.appsOn = [] →
    Answers (.sysResetWarm v) s (fun t => t.sys.lastReset = 2 ∧ bitAt (rg t SYS_RESET_CAUSE) 10 = true
      ∧ rg t SYS_RESET_CAUSE % 256 = rg s SYS_RESET_CAUSE % 256 ∧ SameBut notes s t)) ∧
  (∀ (s : State) (v : Word), bits v.toNat 31 16 = 0x5AFE →
    Answers (.sysResetColdRestart v) s (fun t => t.cst.mode = .dark ∧ t.sys.lastReset = 1 ∧ bitAt (rg t SYS_RESET_CAUSE) 3 = true
      ∧ t.sys.isSealed = false ∧ t.tck = {} ∧ t.mem = [] ∧ t.sec.otpSecret = s.sec.otpSecret ∧ t.sec.keyStore = false
      ∧ t.out = s.out ∧ t.pending = s.pending)) ∧
  (∀ (s : State) (v : Word), bits v.toNat 31 16 ≠ 0x5AFE →
    Answers (.sysResetColdRestart v) s (fun t => t.cst.mode = s.cst.mode
      ∧ rg t SYS_DISCARD_CNT = Nat.min (rg s SYS_DISCARD_CNT + 1) 0xFFFFFFFF ∧ SameBut notes s t)) ∧
  (∀ s : State, s.cst.mode ≠ .dark → s.cst.mode ≠ .beacon → s.thm.pfail = false → s.thm.tripped = false →
    Answers .warmReset s (fun t => t.sys.lastReset = 2 ∧ t.hif = s.hif ∧ t.stm = s.stm ∧ t.map = s.map ∧ t.tck = s.tck
      ∧ (s.cpx.appsOn = [] → t.mem = s.mem ∧ t.cpx = s.cpx ∧ t.cst = s.cst)
      ∧ SameBut [.regs, .mem, .sys, .clk, .cpx, .cst, .lnt, .freeCtr] s t)) ∧
  (∀ s : State, s.cst.mode ≠ .dark → s.cst.mode ≠ .beacon → s.thm.pfail = false → s.thm.tripped = false → s.cpx.appsOn ≠ [] →
    osCheck s s.cst.osSlot = 0 → (slotAt s s.cst.osSlot).st = .confirmed →
    Answers .warmReset s (fun t => t.cpx.appsOn = List.range 8 ∧ t.cst.osSlot = s.cst.osSlot ∧ t.cst.bootCount = s.cst.bootCount + 1
      ∧ t.cst.confirmed = false ∧ t.cst.mode = s.cst.mode)) ∧
  (∀ s : State, s.thm.pfail = true → Answers .warmReset s (fun t => t = s))

/-- COLD_RESET and the start (R441, R363, R386, R403, R460): PORESET_L low leaves the unit in Dark with all volatile state cleared, and the
OTP row, the image slots and the keys' generation as they were; its rising edge samples the straps; a crystal not qualified drives FAULT_L
low; at 100 degrees the ROM waits in Dark until T_now has fallen. -/
def Obligations.ColdStart : Prop :=
  (∀ s : State, Answers .coldReset s (fun t => t.cst.mode = .dark ∧ t.sys.lastReset = 0 ∧ rg t SYS_RESET_CAUSE = 1 ∧ t.tck = {} ∧ t.stm = {}
      ∧ t.cpx = {} ∧ t.mov = {} ∧ t.memc = {} ∧ t.mem = [] ∧ t.clk = {} ∧ t.thm = {} ∧ t.latch = [] ∧ t.hif.sqs = [] ∧ t.hif.slots = []
      ∧ t.sec.otpSecret = s.sec.otpSecret ∧ t.sec.otpOwner = s.sec.otpOwner ∧ t.sec.keyGen = s.sec.keyGen ∧ t.sec.keyStore = false
      ∧ (s.cst.commit = none → t.cst.slots = s.cst.slots) ∧ t.mbr.formatted = s.mbr.formatted
      ∧ t.out = s.out ∧ t.pending = s.pending ∧ t.freeCtr = s.freeCtr)) ∧
  (∀ (s : State) (b c : Nat), s.cst.mode = .dark → s.cst.begun = false →
    Answers (.startUp b c) s (fun t => t.sys = { s.sys with bootSel := b % 4, compat := c % 2, legacy := decide (c % 2 = 1) }
      ∧ t.cst = { s.cst with begun := true, powerUps := s.cst.powerUps + 1 } ∧ SameBut [.sys, .cst] s t)) ∧
  (∀ s : State, s.cst.mode = .dark → s.cst.begun = true → s.clk.xtalOk = false →
    Answers .xtalQualTimeout s (fun t => t.clk = { s.clk with qualLate := true } ∧ SameBut [.clk] s t)) ∧
  (∀ (s : State) (env : StartEnv), s.cst.mode = .dark → s.cst.begun = true → s.tck.running = false → 800 ≤ s.thm.hot →
    Answers (.xtalQualified env) s (fun t => t.cst.mode = .dark ∧ t.tck.running = true ∧ t.clk.xtalOk = true ∧ t.thm.holdStart = true
      ∧ t.cst.held = some env ∧ SameBut [.clk, .thm, .tck, .cst] s t)) ∧
  (∀ (s : State) (env : StartEnv), s.cst.mode = .dark → s.cst.held = some env → s.thm.hot < 800 →
    Answers .startTempHoldRelease s (fun t => t.thm.holdStart = false ∧ t.cst.held = none))

/-- XTAL_QUALIFIED (Table 12.2, R344, R366, R380): with the calibration row, the lifecycle and the SRAM in order, strap BOOT_SEL = 3 leads
to Beacon with cause 1, and an invalid calibration row or an SRAM that fails its test to Halt. START_READY (R363 step 10, R322): a sealed
unit in Loader whose map is rebuilt shows CSTS.RDY with CC.EN and enters Service or Degraded, or Quiesce where a SANITIZE record is held. -/
def Obligations.StartOutcomes : Prop :=
  (∀ (s : State) (env : StartEnv), s.cst.mode = .dark → s.cst.begun = true → s.tck.running = false → s.thm.hot < 800 →
    env.calOk = true → lifecycleOf s ≠ none → env.trngOk = true →
    (memTest env.failWords env.injectFail 0 0x100 s).2 = true → s.sys.bootSel = 3 →
    Answers (.xtalQualified env) s (fun t => t.cst.mode = .beacon ∧ t.cst.cause = 1 ∧ t.tck.running = true ∧ t.sec.trngOk = true
      ∧ t.hif.retry = false)) ∧
  (∀ (s : State) (env : StartEnv), s.cst.mode = .dark → s.cst.begun = true → s.tck.running = false → s.thm.hot < 800 →
    env.calOk = false →
    Answers (.xtalQualified env) s (fun t => t.cst.mode = .halt ∧ t.lnt.frozen = true ∧ t.hif.cfs = true ∧ t.cpx = s.cpx)) ∧
  (∀ (s : State) (env : StartEnv), s.cst.mode = .dark → s.cst.begun = true → s.tck.running = false → s.thm.hot < 800 →
    env.calOk = true → lifecycleOf s ≠ none → env.trngOk = true → (memTest env.failWords env.injectFail 0 0x100 s).2 = false →
    Answers (.xtalQualified env) s (fun t => t.cst.mode = .halt ∧ t.lnt.frozen = true ∧ t.hif.cfs = true ∧ t.cpx = s.cpx)) ∧
  (∀ s : State, s.cst.mode = .loader → s.sys.isSealed = true → s.map.replayed = true → s.sec.sanitize = 0 →
    Answers .startReady s (fun t => t.hif.ready = true ∧ t.hif.rdy = s.hif.ccEn
      ∧ (t.cst.mode = .service ∨ t.cst.mode = .degraded)
      ∧ (t.cst.mode = .degraded ↔ (degradedUnit s || fleetVacant s) = true) ∧ SameBut [.regs, .sys, .hif, .cst, .lnt] s t)) ∧
  (∀ s : State, s.cst.mode = .loader → s.sys.isSealed = true → s.map.replayed = true → s.sec.sanitize ≠ 0 →
    Answers .startReady s (fun t => t.hif.ready = true ∧ t.hif.rdy = s.hif.ccEn ∧ t.cst.mode = .quiesce
      ∧ SameBut [.regs, .sys, .hif, .cst, .lnt] s t)) ∧
  (∀ s : State, (s.cst.mode ≠ .loader ∨ s.sys.isSealed = false ∨ s.map.replayed = false) → Answers .startReady s (fun t => t = s))

/-- Device OS rings (R449, R450): EN = 1 on an Off ring whose registers pass turns it On and zeroes its consumer index, and no other byte of
memory changes; EN = 0 makes a ring that is On or in Error Draining; a Draining ring with nothing open is Off; a ring that is not Off
refuses EN = 1. -/
def Obligations.Rings : Prop :=
  (∀ (s : State) (v : Word) (g : Ring), ringIndexOk (ringSel s) = true → (ringAt s (ringSel s)).st = .off → Memory.wf s.mem = true →
    g = { ringAt s (ringSel s) with cplLog2 := bits (putBits v.toNat 0 0 1) 20 16, descLog2 := bits (putBits v.toNat 0 0 1) 12 8 } →
    ringOk s (ringSel s) g = true →
    Answers (.ringEnable v) s (fun t => (ringAt t (ringSel s)).st = .on ∧ (ringAt t (ringSel s)).consIx = 0
      ∧ (ringAt t (ringSel s)).open_ = 0 ∧ (∀ i, i < 8 → readByte t (g.cons + i) = 0)
      ∧ SameMemoryOutside g.cons 8 s t ∧ SameBut [.regs, .mem, .sys, .mov, .lnt] s t)) ∧
  (∀ (s : State) (v : Word), ringIndexOk (ringSel s) = true →
    ((ringAt s (ringSel s)).st = .on ∨ (ringAt s (ringSel s)).st = .error ∨ (ringAt s (ringSel s)).st = .draining) →
    Answers (.ringEnable v) s (fun t => ringAt t (ringSel s) = ringAt s (ringSel s)
      ∧ SameRegsBut (noteRegs Ev.SYS_RING_BUSY) s t ∧ SameBut notes s t)) ∧
  (∀ (s : State) (v : Word), ringIndexOk (ringSel s) = true → ((ringAt s (ringSel s)).st = .on ∨ (ringAt s (ringSel s)).st = .error) →
    Answers (.ringDisable v) s (fun t => ringAt t (ringSel s) = { ringAt s (ringSel s) with st := .draining } ∧ SameBut [.sys] s t)) ∧
  (∀ (s : State) (ix : Nat), ix < 32 → (ringAt s ix).st = .draining → (ringAt s ix).open_ = 0 → (ringAt s ix).formed = [] →
    Answers (.ringDrainEnd ix) s (fun t => ringAt t ix = { ringAt s ix with st := .off } ∧ SameBut [.sys] s t)) ∧
  (∀ (s : State) (ix : Nat), (ringAt s ix).st ≠ .draining → Answers (.ringDrainEnd ix) s (fun t => t = s))

/-- PROFILE_WRITE and GPIO_EDGE (R444, R471): the profile follows bit 0 while CC.EN = 0 and the unit is not sealed, for the next Identify
and log page, and HIF_CFG.LEGACY mirrors it; with CC.EN = 1 the write is discarded and SYS_PROFILE_LOCKED raised; a selected edge sets its
event bit and raises source 71 + g, one not selected only moves the pin. -/
def Obligations.ProfileAndGpio : Prop :=
  (∀ (s : State) (v : Word), s.hif.ccEn = false → s.sys.isSealed = false →
    Answers (.profileWrite v) s (fun t => t.sys.legacy = bitAt v.toNat 0 ∧ bits (loadReg HIF_CFG t).1.toNat 3 3 = b2n (bitAt v.toNat 0)
      ∧ (∀ cns nsid, identifyBytes t cns nsid = identifyBytes { s with sys := { s.sys with legacy := bitAt v.toNat 0 } } cns nsid)
      ∧ (∀ lid, pageSize t lid = pageSize { s with sys := { s.sys with legacy := bitAt v.toNat 0 } } lid) ∧ SameBut notes s t)) ∧
  (∀ (s : State) (v : Word), s.hif.ccEn = true →
    Answers (.profileWrite v) s (fun t => t = raise Ev.SYS_PROFILE_LOCKED (le 4 v.toNat) s ∧ t.sys.legacy = s.sys.legacy
      ∧ (loadReg HIF_CFG t).1 = (loadReg HIF_CFG s).1 ∧ SameBut notes s t)) ∧
  (∀ (s : State) (v : Word), s.hif.ccEn = false → s.sys.isSealed = true →
    Answers (.profileWrite v) s (fun t => t.sys.legacy = s.sys.legacy ∧ SameBut notes s t)) ∧
  (∀ (s : State) (g : Nat) (hi : Bool), g < 16 → bitAt s.sys.gpioIn g ≠ hi → bitAt (rg s SYS_GPIO_EDGE) (2 * g + (1 - b2n hi)) = true →
    Answers (.gpioEdge g hi) s (fun t => bitAt t.sys.gpioIn g = hi ∧ bitAt (rg t SYS_GPIO_EVENT) g = true ∧ 71 + g ∈ t.sys.irq
      ∧ SameRegsBut [SYS_GPIO_EVENT] s t ∧ SameBut [.regs, .sys] s t)) ∧
  (∀ (s : State) (g : Nat) (hi : Bool), g < 16 → bitAt s.sys.gpioIn g ≠ hi → bitAt (rg s SYS_GPIO_EDGE) (2 * g + (1 - b2n hi)) = false →
    Answers (.gpioEdge g hi) s (fun t => bitAt t.sys.gpioIn g = hi ∧ t.sys.irq = s.sys.irq ∧ SameBut [.sys] s t))

/-! ### Clocks, thermal management, power loss (13_clocks_thermal_power.md) -/

/-- Gates (R389-R392): a gate that software controls and that is Off turns On, its parent first; one that is On with every child Off drains;
an owned gate and a parent whose child is not Off are refused, and no gate changes; a Draining gate ends Off, and carries out a latched
request; a lock that returns and a new ACLK change no gate. -/
def Obligations.Gates : Prop :=
  (∀ (s : State) (v : Word), gateOwned (bits v.toNat 4 0) = false → bits v.toNat 4 0 ≠ 31 → gateState s (bits v.toNat 4 0) = .off →
    Answers (.gateOn v) s (fun t => gateState t (bits v.toNat 4 0) = .on ∧ rg t CLK_GATE_RESULT = 0
      ∧ (∀ p, gateParent (bits v.toNat 4 0) = some p → gateState t p ≠ .off ∧ gateState t p ≠ .draining)
      ∧ (∀ g, g ≠ bits v.toNat 4 0 → gateParent (bits v.toNat 4 0) ≠ some g → gateState t g = gateState s g)
      ∧ SameBut (.clk :: notes) s t)) ∧
  (∀ (s : State) (v : Word), gateOwned (bits v.toNat 4 0) = false → bits v.toNat 4 0 ≠ 31 → gateState s (bits v.toNat 4 0) = .on →
    (∀ c, c ∈ gateChildren (bits v.toNat 4 0) → gateState s c = .off) →
    Answers (.gateOff v) s (fun t => gateState t (bits v.toNat 4 0) = .draining ∧ rg t CLK_GATE_RESULT = 0
      ∧ (∀ g, g ≠ bits v.toNat 4 0 → gateState t g = gateState s g) ∧ SameBut (.clk :: notes) s t)) ∧
  (∀ (s : State) (v : Word), (gateOwned (bits v.toNat 4 0) = true ∨ ∃ c, c ∈ gateChildren (bits v.toNat 4 0) ∧ gateState s c ≠ .off) →
    Answers (.gateOff v) s (fun t => t.clk = s.clk
      ∧ rg t CLK_GATE_RESULT = (if gateOwned (bits v.toNat 4 0) = true then Ev.CLK_GATE_OWNED else Ev.CLK_PARENT_BUSY)
      ∧ SameBut notes s t)) ∧
  (∀ (s : State) (g : Nat), gateOwned g = false → gateState s g = .draining →
    Answers (.gateDrainEnd g) s (fun t => gateState t g = .off ∧ (∀ k, k ≠ g → gateState t k = gateState s k) ∧ SameBut [.clk] s t)) ∧
  (∀ (s : State) (g : Nat), gateOwned g = false → gateState s g = .pending →
    Answers (.gateDrainEnd g) s (fun t => gateState t g = .on ∧ SameBut (.clk :: notes) s t)) ∧
  (∀ (s : State) (i : Nat), ∃ t, exec (.pllRelocked i) s = .next t ∧ (∀ g, gateState t g = gateState s g) ∧ i ∉ t.clk.unlocked
    ∧ SameBut (.clk :: notes) s t) ∧
  (∀ (s : State) (v : Word), ∃ t, exec (.aclkFreqWrite v) s = .next t ∧ (∀ g, gateState t g = gateState s g)
    ∧ fld t CLK_ACLK 12 8 = Nat.min (fld t CLK_ACLK 4 0) (aclkCap s) ∧ SameBut notes s t)

/-- The crystal and the PLLs (R387, R389, R390): the loss of the crystal sends the unit to Halt and ends the trimming of fleet time, which
runs on; the loss of a lock of TB, F, L or H sends it to Halt, of A it stalls the application cores, of FL m it stops the channels of port
m, while what the dies do runs on; a lock that returns releases them; a lock lost twice and a PLL with its lock change nothing. FREQ sets
the requested ACLK and NOW the lower of it and the throttle cap; a reserved FREQ is discarded. -/
def Obligations.CrystalAndPlls : Prop :=
  (∀ s : State, s.clk.xtalOk = true → s.clk.xtalLost = false →
    ∃ t, exec .xtalLost s = .next t ∧ t.clk = { s.clk with xtalLost := true } ∧ t.cst = { s.cst with mode := .halt }
      ∧ t.tck = { s.tck with ppsErrPpb := 0 } ∧ rg t TCK_RATE_TRIM = 0
      ∧ (s.cst.mode ≠ .halt → t.hif.cfs = true ∧ t.sec.keyStore = false ∧ t.lnt.frozen = true)
      ∧ SameBut [.regs, .sys, .clk, .tck, .hif, .sec, .cst, .lnt] s t) ∧
  (∀ s : State, (s.clk.xtalOk = false ∨ s.clk.xtalLost = true) → exec .xtalLost s = .next s) ∧
  (∀ (s : State) (i : Nat), i ≤ 13 → i ∉ s.clk.unlocked → s.clk.xtalOk = true →
    ∃ t, exec (.pllUnlock i) s = .next t
      ∧ (∀ k, k ∈ t.clk.unlocked ↔ k = i ∨ k ∈ s.clk.unlocked) ∧ (∀ ch, chanStopped t ch = (decide (5 + ch / 4 = i) || chanStopped s ch))
      ∧ rg t CLK_UNLOCK_CNT = Nat.min (rg s CLK_UNLOCK_CNT + 1) 0xFFFFFFFF
      ∧ t.cst.mode = (if i = 0 ∨ i = 1 ∨ i = 3 ∨ i = 4 then .halt else s.cst.mode)
      ∧ t.clk.coresStalled = (s.clk.coresStalled || i = 2)
      ∧ SameBut [.regs, .sys, .clk, .hif, .sec, .cst, .lnt] s t ∧ (i = 2 ∨ 5 ≤ i → SameBut (.clk :: notes) s t)) ∧
  (∀ (s : State) (i : Nat), (13 < i ∨ i ∈ s.clk.unlocked ∨ s.clk.xtalOk = false) → exec (.pllUnlock i) s = .next s) ∧
  (∀ (s : State) (i : Nat), i ∈ s.clk.unlocked →
    ∃ t, exec (.pllRelocked i) s = .next t
      ∧ (∀ k, k ∈ t.clk.unlocked ↔ k ≠ i ∧ k ∈ s.clk.unlocked) ∧ (∀ ch, chanStopped t ch = (decide (5 + ch / 4 ≠ i) && chanStopped s ch))
      ∧ t.clk.coresStalled = (s.clk.coresStalled && i ≠ 2) ∧ t.cst.mode = s.cst.mode
      ∧ SameRegsBut (noteRegs Ev.CLK_PLL_RELOCKED) s t ∧ SameBut (.clk :: notes) s t) ∧
  (∀ (s : State) (i : Nat), i ∉ s.clk.unlocked → exec (.pllRelocked i) s = .next s) ∧
  (∀ (s : State) (v : Word), 6 ≤ bits v.toNat 4 0 → bits v.toNat 4 0 ≤ 24 →
    ∃ t, exec (.aclkFreqWrite v) s = .next t ∧ fld t CLK_ACLK 4 0 = bits v.toNat 4 0
      ∧ fld t CLK_ACLK 12 8 = Nat.min (bits v.toNat 4 0) (aclkCap s)
      ∧ SameRegsBut (CLK_ACLK :: SYS_DISCARD_CNT :: noteRegs Ev.SYS_WRITE_IGNORED) s t ∧ SameBut notes s t) ∧
  (∀ (s : State) (v : Word), (bits v.toNat 4 0 < 6 ∨ 24 < bits v.toNat 4 0) →
    ∃ t, exec (.aclkFreqWrite v) s = .next t ∧ fld t CLK_ACLK 4 0 = fld s CLK_ACLK 4 0
      ∧ rg t SYS_DISCARD_CNT = Nat.min (rg s SYS_DISCARD_CNT + 1) 0xFFFFFFFF
      ∧ SameRegsBut (CLK_ACLK :: SYS_DISCARD_CNT :: noteRegs Ev.SYS_RESERVED_ENCODING) s t ∧ SameBut notes s t)

/-- THM_SAMPLE (R393): sixteen readings join the sensors' last eight samples, and the controller hot spot is the highest mean of the sensors
in use; before PORESET_L has risen nothing is sampled. -/
def Obligations.ThermalSample : Prop :=
  (∀ (s : State) (rs : List Int), rs.length = 16 → s.cst.begun = true →
    Answers (.thmSample rs) s (fun t => (∀ i, i < 16 → (sensorAt t i).last = (rs.getD i 0 :: (sensorAt s i).last).take 8)
      ∧ (t.thm.hotSensor, t.thm.hot) = hotNow t ∧ (s.thm.tripped = true → t.thm.tripped = true)
      ∧ SameBut [.regs, .sys, .thm, .tck, .hif, .stm, .flc, .sec, .cst, .lnt, .out] s t)) ∧
  (∀ (s : State) (rs : List Int), (rs.length ≠ 16 ∨ s.cst.begun = false) → Answers (.thmSample rs) s (fun t => t = s))

/-- Thermal shutdown (R402, Table 13.4): once the comparator has tripped, the end of the wait takes power from every carrier, sets CFS and
gates the clocks of the cores, and an erase that runs stands suspended; before a trip nothing happens. -/
def Obligations.ThermalShutdown : Prop :=
  (∀ s : State, s.thm.tripped = true → s.thm.powerOff = false →
    Answers .thermalShutdownPowerOff s (fun t => t.thm.powerOff = true ∧ t.hif.cfs = true ∧ t.clk.coresStalled = true
      ∧ (∀ p ∈ t.mbr.ports, p.powered = false) ∧ t.mbr.ports.length = s.mbr.ports.length
      ∧ (∀ g, g < 10 → gateState t g = .off)
      ∧ (∀ p ∈ t.flc.targets, ∀ b, p.2.op = .erase b → p.2.suspended ≠ none) ∧ t.flc = { s.flc with targets := t.flc.targets }
      ∧ SameBut [.clk, .thm, .hif, .flc, .mbr] s t)) ∧
  (∀ s : State, s.thm.tripped = false → Answers .thermalShutdownPowerOff s (fun t => t = s))

/-- PFAIL_L (R407, R408): its fall raises THM_PFAIL and source 68 and stops new flash operations; 1.5 ms later MEM takes no MRAM write; its
return lifts both. -/
def Obligations.PowerLoss : Prop :=
  (∀ s : State, Answers .pfailFall s (fun t => t.thm.pfail = true ∧ t.thm.mramCut = false ∧ 68 ∈ t.sys.irq
      ∧ rg t THM_PFAIL_CNT = Nat.min (rg s THM_PFAIL_CNT + 1) 0xFFFFFFFF
      ∧ SameRegsBut (THM_PFAIL_CNT :: noteRegs Ev.THM_PFAIL) s t ∧ SameBut (.thm :: notes) s t)) ∧
  (∀ s : State, s.thm.pfail = true →
    Answers .pfailMramCutoff s (fun t => t.thm = { s.thm with mramCut := true } ∧ SameBut [.thm] s t)) ∧
  (∀ s : State, s.thm.pfail = true →
    Answers .pfailCleared s (fun t => t.thm = { s.thm with pfail := false, mramCut := false } ∧ SameRegsBut (noteRegs Ev.THM_PFAIL_CLEARED) s t
      ∧ SameBut (.thm :: notes) s t)) ∧
  (∀ s : State, s.thm.pfail = false → Answers .pfailMramCutoff s (fun t => t = s) ∧ Answers .pfailCleared s (fun t => t = s))

/-! ### HIF: the link, the controller, queues, I/O commands (03_host_interface.md) -/

/-- Controller resets (R61, R81): CC.EN falling, an FLR, PERST, a hot reset and a link-down all begin one; PERST, a hot reset and a
link-down take the link down too, and a link-down is counted; once the started writes have ended the queues are deleted and CSTS.RDY
is clear; an event while CC.EN and CSTS.RDY are 0 and nothing runs is at its end at once. -/
def Obligations.ControllerResets : Prop :=
  (∀ s : State, s.hif.ccEn = true → s.hif.resetting = false →
    (s.hif.idePhase ≠ 2 → Answers .controllerReset s (fun t => ResetBegun t ∧ t.map = s.map ∧ t.mem = s.mem
      ∧ SameBut [.regs, .sys, .tck, .hif, .stm, .flc, .flt, .sec, .cst, .lnt] s t))
    ∧ Answers .functionLevelReset s (fun t => ResetBegun t ∧ t.map = s.map ∧ t.mem = s.mem
      ∧ SameBut [.regs, .sys, .tck, .hif, .stm, .flc, .flt, .sec, .cst, .lnt] s t)
    ∧ Answers .pciePerst s (fun t => ResetBegun t ∧ t.hif.linkUp = false ∧ t.hif.linkWidth = 0
      ∧ SameBut [.regs, .sys, .tck, .hif, .stm, .flc, .flt, .sec, .cst, .lnt] s t)
    ∧ Answers .hotReset s (fun t => ResetBegun t ∧ t.hif.linkUp = false ∧ t.hif.linkWidth = 0
      ∧ SameBut [.regs, .sys, .tck, .hif, .stm, .flc, .flt, .sec, .cst, .lnt] s t)) ∧
  (∀ s : State, s.hif.ccEn = true → s.hif.resetting = false → s.hif.linkUp = true →
    Answers .linkDown s (fun t => ResetBegun t ∧ t.hif.linkUp = false ∧ t.hif.linkSpeed = 0
      ∧ rg t HIF_LINK_DOWN_CNT = Nat.min (rg s HIF_LINK_DOWN_CNT + 1) 0xFFFFFFFF
      ∧ SameBut [.regs, .sys, .tck, .hif, .stm, .flc, .flt, .sec, .cst, .lnt] s t)) ∧
  (∀ s : State, s.hif.resetting = true → hostSlots s = [] →
    Answers .controllerResetDone s (fun t => t.hif.resetting = false ∧ t.hif.rdy = false ∧ t.hif.sqs = [] ∧ t.hif.cqs = [] ∧ t.hif.features = []
      ∧ t.hif.shadow = false ∧ t.hif.pba = [] ∧ t.hif.d3hot = false ∧ SameRegsBut (noteRegs Ev.HIF_CTRL_RESET) s t ∧ SameBut (.hif :: notes) s t)) ∧
  (∀ s : State, s.hif.ccEn = false → s.hif.rdy = false → s.hif.resetting = false → hostSlots s = [] →
    Answers .functionLevelReset s (fun t => t.hif.resetting = false ∧ t.hif.ccEn = false ∧ t.hif.sqs = [] ∧ t.hif.cqs = []
      ∧ SameBut [.regs, .sys, .tck, .hif, .stm, .flc, .flt, .sec, .cst, .lnt] s t)) ∧
  (∀ s : State, s.hif.linkUp = false → Answers .linkDown s (fun t => t = s))

/-- CC_EN_SET, LINK_UP, CC_SHUTDOWN and SHUTDOWN_DONE (R363, R60, R82): CSTS.RDY follows CC.EN once the unit is ready; the link shows the
width and rate it trained to; a shutdown stops fetching, and it ends once the checkpoint that it started is complete, and not before. -/
def Obligations.EnableAndShutdown : Prop :=
  (∀ s : State, s.hif.ccEn = false → s.hif.resetting = false → s.hif.retry = false → s.hif.idePhase ≠ 2 →
    Answers .ccEnSet s (fun t => t.hif.ccEn = true ∧ t.hif.rdy = s.hif.ready
      ∧ mget t.hif.sqs 0 = some { depth := 4096, cq := 0 } ∧ (∀ k, k ≠ 0 → mget t.hif.sqs k = mget s.hif.sqs k)
      ∧ mget t.hif.cqs 0 = some { depth := 4096, vector := 0, free := 4095 } ∧ SameBut [.hif] s t)) ∧
  (∀ (s : State) (w sp : Nat) (fl : Bool), w ∈ [1, 2, 4, 8, 16] → 3 ≤ sp → sp ≤ 6 →
    Answers (.linkUp w sp fl) s (fun t => t.hif = { s.hif with linkUp := true, linkWidth := w, linkSpeed := sp, linkFlit := fl || decide (sp = 6) }
      ∧ SameBut [.hif] s t)) ∧
  (∀ (s : State) (shn : Nat), shn = 1 ∨ shn = 2 → s.hif.ccEn = true → s.hif.idePhase ≠ 2 → s.hif.shn = 0 →
    Answers (.ccShutdown shn) s (fun t => t.hif = { s.hif with shn := shn, shst := 1 } ∧ (∀ q, fetchable t q = false) ∧ SameBut [.hif] s t)) ∧
  (∀ s : State, s.hif.shst = 1 → s.hif.shutGen ≠ 0 → s.hif.shutGen ≤ s.map.ckpt.gen → s.thm.mramCut = false →
    Answers .shutdownDone s (fun t => t.hif = { s.hif with shst := 2 } ∧ t.map = s.map
      ∧ SameRegsBut (noteRegs Ev.HIF_SHUTDOWN_DONE) s t ∧ SameBut (.hif :: notes) s t)) ∧
  (∀ s : State, (s.hif.shst ≠ 1 ∨ s.hif.shutGen = 0 ∨ s.map.ckpt.gen < s.hif.shutGen) → Answers .shutdownDone s (fun t => t = s))

/-- Link encryption (R95, R96): LOAD puts the staged key into the named set and clears what was staged; IDE_EN = 1 with keys in the active set
makes the stream Secure and without them leaves it off; an integrity failure makes it Insecure and is counted; IDE_EN = 0 turns it
off. -/
def Obligations.LinkEncryption : Prop :=
  (∀ (s : State) (v : Word), bits v.toNat 2 2 ∈ s.hif.ideRx → bits v.toNat 2 2 ∈ s.hif.ideTx → s.hif.idePhase = 0 →
    Answers (.ideEnable v) s (fun t => t.hif.idePhase = 1 ∧ fld t HIF_IDE_CFG 0 0 = 1 ∧ SameBut (.hif :: notes) s t)) ∧
  (∀ (s : State) (v : Word), (bits v.toNat 2 2 ∉ s.hif.ideRx ∨ bits v.toNat 2 2 ∉ s.hif.ideTx) → s.hif.idePhase = 0 →
    Answers (.ideEnable v) s (fun t => t.hif = s.hif ∧ fld t HIF_IDE_CFG 0 0 = 0 ∧ SameBut notes s t)) ∧
  (∀ (s : State) (v : Word), s.hif.idePhase ≤ 1 →
    Answers (.ideDisable v) s (fun t => t.hif.idePhase = 0 ∧ fld t HIF_IDE_CFG 0 0 = 0 ∧ SameBut (.hif :: notes) s t)) ∧
  (∀ s : State, s.hif.idePhase = 1 →
    Answers .ideIntegrityFail s (fun t => t.hif.idePhase = 2 ∧ rg t HIF_IDE_ERR_CNT = Nat.min (rg s HIF_IDE_ERR_CNT + 1) 0xFFFFFFFF
      ∧ (∀ q, fetchable t q = false) ∧ SameBut (.hif :: notes) s t)) ∧
  (∀ (s : State) (v : Word), bitAt v.toNat 4 = false →
    Answers (.ideKeyLoad v) s (fun t => bits v.toNat 3 3 ∈ t.hif.ideRx ∧ t.hif.ideTx = s.hif.ideTx ∧ t.hif.ideStaged = []
      ∧ (∀ k, k ∈ s.hif.ideRx → k ∈ t.hif.ideRx) ∧ SameBut (.hif :: notes) s t))

/-- Doorbells (R66, R70): a tail within the queue's depth is taken, from the shadow entry where HIF has one for the queue; a CQ head frees
the entries up to it, and CQEs held back go into them in order; with shadow doorbells the sweep does the same; a CQ that stays full raises
HIF_CQ_STALL once. -/
def Obligations.Doorbells : Prop :=
  (∀ (s : State) (sq tail entry : Nat) (q : Sq), s.hif.ccEn = true → s.hif.idePhase ≠ 2 → mget s.hif.sqs sq = some q →
    (if s.hif.shadow = true ∧ sq ≠ 0 then entry else tail) < q.depth →
    Answers (.sqTailDoorbell sq ⟨tail, entry⟩) s (fun t => (∃ q', mget t.hif.sqs sq = some q'
      ∧ q'.tail = (if s.hif.shadow = true ∧ sq ≠ 0 then entry else tail) ∧ q'.head = q.head ∧ q'.depth = q.depth ∧ q'.cq = q.cq
      ∧ q'.look = q.look) ∧ (∀ k, k ≠ sq → mget t.hif.sqs k = mget s.hif.sqs k) ∧ SameBut [.hif] s t)) ∧
  (∀ (s : State) (cq head written entry : Nat) (q : Cq), s.hif.ccEn = true → s.hif.idePhase ≠ 2 → mget s.hif.cqs cq = some q →
    head = (if s.hif.shadow = true ∧ cq ≠ 0 then entry else written) → head < q.depth → cqesIssue s = true →
    s.hif.cmdCnt + q.held.length < 2 ^ 64 → q.held.length ≤ Nat.min (q.depth - 1) (q.free + (head + q.depth - q.head) % q.depth) →
    (∀ c ∈ q.held, c.sct = 0 ∧ c.sc = 0) →
    Answers (.cqHeadDoorbell cq ⟨written, entry⟩) s (fun t => t.out = s.out ++ q.held.flatMap (cqeOut s cq)
      ∧ (∃ q', mget t.hif.cqs cq = some q' ∧ q'.held = [] ∧ q'.head = head
        ∧ q'.free = Nat.min (q.depth - 1) (q.free + (head + q.depth - q.head) % q.depth) - q.held.length)
      ∧ t.hif.cmdCnt = s.hif.cmdCnt + q.held.length ∧ SameBut [.hif, .out] s t)) ∧
  (∀ (s : State) (sq tail : Nat) (q : Sq), s.hif.ccEn = true → s.hif.idePhase ≠ 2 → s.hif.shadow = true → sq ≠ 0 → mget s.hif.sqs sq = some q →
    tail < q.depth → (∀ p ∈ s.hif.cqs, p.2.held = []) →
    Answers (.shadowDoorbellSweep [(sq, tail)] []) s (fun t => mget t.hif.sqs sq = some { q with tail := tail, eventIdx := (tail + q.depth / 2) % q.depth }
      ∧ SameBut [.hif] s t)) ∧
  (∀ (s : State) (cq : Nat) (q : Cq), mget s.hif.cqs cq = some q → q.free = 0 → q.stalled = false →
    Answers (.hifCqStall cq) s (fun t => mget t.hif.cqs cq = some { q with stalled := true }
      ∧ rg t HIF_CQ_STALL_CNT = Nat.min (rg s HIF_CQ_STALL_CNT + 1) 0xFFFFFFFF ∧ SameBut (.hif :: notes) s t)) ∧
  (∀ (s : State) (cq : Nat) (q : Cq), mget s.hif.cqs cq = some q → (0 < q.free ∨ q.stalled = true) →
    Answers (.hifCqStall cq) s (fun t => t = s))

/-- Fetched commands (R67, R68, R74, R77): a Flush completes without flash access; a command takes the next slot and, where the order does
not let it start, waits there; a lookahead proceeds when a slot frees; an SQ whose lookahead is occupied is skipped. -/
def Obligations.FetchAndFlush : Prop :=
  (∀ (s : State) (h : IoHdr) (q : Sq), Fetches s (ioOf h .flush) → mget s.hif.sqs h.sq = some q → CqRoom q.cq s →
    mayStart s s.hif.nextCmd (ioOf h .flush) = true → nsActive s h.nsid = true → mget s.hif.slots s.hif.nextCmd = none →
    Answers (.flush h) s (fun t => t.out = s.out ++ cqeOut s q.cq { sq := h.sq, cid := h.cid, sct := 0, sc := 0, dw0 := 0 }
      ∧ mget t.hif.slots s.hif.nextCmd = none ∧ t.hif.nextCmd = s.hif.nextCmd + 1 ∧ t.hif.rr.1 = h.sq
      ∧ SameBut [.hif, .out] s t)) ∧
  (∀ (s : State) (h : IoHdr) (q : Sq) (c : IoCmd), mget s.hif.sqs h.sq = some q → q.look = some c →
    Answers (.flush h) s (fun t => t = s)) ∧
  (∀ (s : State) (sq : Nat) (q : Sq) (c : IoCmd), mget s.hif.sqs sq = some q → q.look = some c → fetchable s sq = true → slotFree s c = true →
    mayStart s s.hif.nextCmd c = false →
    Answers (.lookaheadRelease sq) s (fun t => mget t.hif.slots s.hif.nextCmd = some { cmd := c } ∧ t.hif.nextCmd = s.hif.nextCmd + 1
      ∧ mget t.hif.sqs sq = some { q with look := none } ∧ SameBut [.hif] s t)) ∧
  (∀ (s : State) (id : Nat) (sl : Slot) (q : Sq), mget s.hif.slots id = some sl → sl.started = false → mayStart s id sl.cmd = true →
    s.cst.mode.io = true → s.hif.shn = 0 → sl.cmd.sq < 65536 → sl.cmd.kind = .flush → sl.cmd.ord = true → sl.cmd.active = true →
    mhas s.map.dir sl.cmd.nsid = true →
    sl.status = 0 → sl.silent = false → mget s.hif.sqs sl.cmd.sq = some q → CqRoom q.cq s →
    Answers (.orderedCommandStart id) s (fun t =>
      t.out = s.out ++ cqeOut s q.cq { sq := sl.cmd.sq, cid := sl.cmd.cid, sct := 0, sc := 0, dw0 := 0 }
      ∧ mget t.hif.slots id = none ∧ rg t HIF_ORD_CNT = Nat.min (rg s HIF_ORD_CNT + 1) 0xFFFFFFFF ∧ SameRegsBut [HIF_ORD_CNT] s t
      ∧ SameBut [.regs, .hif, .out] s t))

/-- Writes, Write Zeroes and Deallocate (R69, R71, R80): a Write within its namespace takes a slot, selects its stream and is handed to STM;
an unmap is accepted at once where the index has room, and its zero entries hide what lies below; a range beyond the namespace is
refused with LBA Out of Range. -/
def Obligations.WritesAndUnmaps : Prop :=
  (∀ (s : State) (h : IoHdr) (slba nlb : Nat) (data : List Block) (c : IoCmd),
    c = { ioOf h .write with slba := slba, nlb := nlb, data := data } → Fetches s c → mayStart s s.hif.nextCmd c = true →
    mget s.hif.slots s.hif.nextCmd = none → nsActive s h.nsid = true → nlb ≤ 256 → rangeOk s h.nsid slba nlb = true → isProxy s h.nsid = false →
    Answers (.write h slba nlb 0 0 data) s (fun t =>
      (∃ sl, mget t.hif.slots s.hif.nextCmd = some sl ∧ sl.cmd = { c with active := true } ∧ sl.started = true ∧ sl.stream = 0 ∧ sl.accept = 0
        ∧ sl.handed = s.hif.nextHand)
      ∧ t.hif.nextCmd = s.hif.nextCmd + 1 ∧ t.hif.nextAccept = s.hif.nextAccept ∧ SameBut [.hif, .stm] s t)) ∧
  (∀ (s : State) (h : IoHdr) (slba nlb : Nat) (c : IoCmd),
    c = { ioOf h .writeZeroes with slba := slba, nlb := nlb } → Fetches s c → mayStart s s.hif.nextCmd c = true →
    mget s.hif.slots s.hif.nextCmd = none → nsActive s h.nsid = true → nlb ≤ 65536 → rangeOk s h.nsid slba nlb = true → isProxy s h.nsid = false →
    indexRoom s c = true → IndexUnclaimed s →
    Answers (.writeZeroes h slba nlb) s (fun t =>
      (∃ sl, mget t.hif.slots s.hif.nextCmd = some sl ∧ sl.cmd = { c with active := true } ∧ sl.started = true ∧ sl.accept = s.hif.nextAccept)
      ∧ mget t.hif.index (idxKey s.hif.nextCmd 0) = some { accept := s.hif.nextAccept, nsid := h.nsid, slba := slba, nlb := nlb, zero := true, entered := true }
      ∧ t.hif.nextAccept = s.hif.nextAccept + 1 ∧ SameBut [.hif] s t)) ∧
  (∀ (s : State) (h : IoHdr) (ranges : List (Nat × Nat)) (c : IoCmd),
    c = { ioOf h .dsm with dtype := 1, ranges := ranges } → Fetches s c → mayStart s s.hif.nextCmd c = true →
    mget s.hif.slots s.hif.nextCmd = none → nsActive s h.nsid = true → ranges.length ≤ 256 → (∀ p ∈ ranges, rangeOk s h.nsid p.1 p.2 = true) →
    isProxy s h.nsid = false → indexRoom s c = true → IndexUnclaimed s →
    Answers (.datasetManagement h true ranges) s (fun t =>
      (∃ sl, mget t.hif.slots s.hif.nextCmd = some sl ∧ sl.cmd = { c with active := true } ∧ sl.started = true ∧ sl.accept = s.hif.nextAccept)
      ∧ t.hif.nextAccept = s.hif.nextAccept + 1 ∧ SameBut [.hif] s t)) ∧
  (∀ (s : State) (h : IoHdr) (slba nlb : Nat) (q : Sq) (c : IoCmd),
    c = { ioOf h .writeZeroes with slba := slba, nlb := nlb } → Fetches s c → mget s.hif.sqs h.sq = some q → CqRoom q.cq s →
    mayStart s s.hif.nextCmd c = true → mget s.hif.slots s.hif.nextCmd = none → nsActive s h.nsid = true → nlb ≤ 65536 →
    rangeOk s h.nsid slba nlb = false →
    Answers (.writeZeroes h slba nlb) s (fun t => t.out = s.out ++ cqeOut s q.cq { sq := h.sq, cid := h.cid, sct := 0, sc := 0x80, dw0 := 0 }
      ∧ t.hif.nextAccept = s.hif.nextAccept ∧ t.hif.index = s.hif.index ∧ SameBut [.hif, .lnt, .out] s t))

/-- Reads (R144, R79): each LBA of a Read that is Unmapped reads as zeros, with nothing read from flash; when every codeword is there the data
goes to the host buffer and the CQE follows; a Read that recovery could not save ends with its status, and its data is a free
value. -/
def Obligations.Reads : Prop :=
  (∀ (s : State) (h : IoHdr) (slba nlb : Nat) (c : IoCmd), NotFleet s →
    c = { ioOf h .read with slba := slba, nlb := nlb } → Fetches s c → mayStart s s.hif.nextCmd c = true →
    mget s.hif.slots s.hif.nextCmd = none → nsActive s h.nsid = true → nlb ≤ 256 → rangeOk s h.nsid slba nlb = true → isProxy s h.nsid = false →
    (∀ i, i < nlb → resolve s h.nsid (slba + i) = .zeros) →
    Answers (.read h slba nlb) s (fun t =>
      (∃ sl, mget t.hif.slots s.hif.nextCmd = some sl ∧ sl.cmd = { c with active := true } ∧ sl.started = true ∧ sl.status = 0 ∧ (∀ i, i < nlb → mget sl.got i = some 0))
      ∧ t.hif.nextCmd = s.hif.nextCmd + 1 ∧ t.map.segs = s.map.segs ∧ t.map.dir = s.map.dir
      ∧ SameRegsBut [MAP_CACHE_HIT_CNT, MAP_CACHE_MISS_CNT] s t ∧ SameBut [.regs, .hif, .map] s t)) ∧
  (∀ (s : State) (id : Nat) (sl : Slot) (q : Sq), mget s.hif.slots id = some sl → sl.cmd.kind = .read → sl.started = true →
    readWaits s id = false → s.cst.mode ≠ .halt → sl.status = 0 → sl.silent = false → sl.cmd.ord = false →
    mget s.hif.sqs sl.cmd.sq = some q → CqRoom q.cq s →
    Answers (.readCompletion id) s (fun t =>
      t.out = s.out ++ .hostData sl.cmd.sq sl.cmd.cid ((List.range sl.cmd.nlb).map (fun i => mgetD sl.got i 0))
        :: cqeOut s q.cq { sq := sl.cmd.sq, cid := sl.cmd.cid, sct := 0, sc := 0, dw0 := 0 }
      ∧ mget t.hif.slots id = none ∧ SameBut [.regs, .hif, .bnd, .mbr, .lnt, .out] s t)) ∧
  (∀ (s : State) (id : Nat) (sl : Slot), mget s.hif.slots id = some sl → sl.cmd.kind = .read → sl.started = true → readWaits s id = false →
    s.cst.mode ≠ .halt → sl.status ≠ 0 → s.hif.idePhase ≠ 2 →
    Answers (.readCompletion id) s (fun t => mget t.hif.slots id = none ∧ t.freeCtr = s.freeCtr + sl.cmd.nlb
      ∧ (∃ l, t.out = s.out ++ .hostData sl.cmd.sq sl.cmd.cid
          ((List.range sl.cmd.nlb).map (fun i => Config.undefinedBlock (s.freeCtr + i))) :: l)
      ∧ SameBut [.regs, .hif, .bnd, .mbr, .lnt, .out, .freeCtr] s t)) ∧
  (∀ (s : State) (id : Nat), readWaits s id = true → Answers (.readCompletion id) s (fun t => t = s))

/-- A Write's way to staging (R69, R78, R115, R145): the next acceptance number, its staging and its index claim; its last byte enters its
LBAs in the index. -/
def Obligations.WriteAcceptance : Prop :=
  (∀ (s : State) (id : Nat) (sl : Slot), mget s.hif.slots id = some sl → waitsAccept sl = true → s.cst.mode.runs = true →
    sl.cmd.kind = .write → mayAccept s id sl = true →
    Answers (.writeAccepted id) s (fun t =>
      (∃ sl', mget t.hif.slots id = some sl' ∧ sl'.accept = s.hif.nextAccept ∧ sl'.cmd = sl.cmd ∧ sl'.staged = sl.staged)
      ∧ mget t.hif.index (idxKey id 0) = some { accept := s.hif.nextAccept, nsid := sl.cmd.nsid, slba := sl.cmd.slba, nlb := sl.cmd.nlb, zero := false, data := sl.cmd.data }
      ∧ t.hif.nextAccept = s.hif.nextAccept + 1 ∧ SameBut [.regs, .mem, .sys, .hif, .stm, .lnt] s t)) ∧
  (∀ (s : State) (id : Nat) (sl : Slot) (e : IdxEntry), NotFleet s → mget s.hif.slots id = some sl → sl.cmd.kind = .write → sl.accept ≠ 0 →
    sl.staged = false → s.cst.mode.runs = true → mget s.hif.index (idxKey id 0) = some e →
    Answers (.stagingComplete id) s (fun t =>
      (∃ sl', mget t.hif.slots id = some sl' ∧ sl'.staged = true ∧ sl'.cmd = sl.cmd ∧ sl'.accept = sl.accept)
      ∧ mget t.hif.index (idxKey id 0) = some { e with entered := true } ∧ t.out = s.out
      ∧ SameBut [.tck, .hif, .map, .bnd] s t)) ∧
  (∀ (s : State) (id : Nat), mget s.hif.slots id = none →
    Answers (.writeAccepted id) s (fun t => t = s) ∧ Answers (.stagingComplete id) s (fun t => t = s))

/-- I/O queues (R65, R75): created with a free identifier and a depth of 2 to 65,536, an SQ on a CQ that exists; an identifier in use is
refused and changes no queue; an SQ is deleted with its commands, a CQ only where no SQ uses it. -/
def Obligations.IoQueues : Prop :=
  (∀ (s : State) (cid qid depth cq : Nat), AdminServes s → 1 ≤ qid → qid ≤ 32768 → mhas s.hif.sqs qid = false → 2 ≤ depth → depth ≤ 65536 →
    cq ≠ 0 → mhas s.hif.cqs cq = true →
    Answers (.createIoSq cid qid depth cq true) s (fun t => mget t.hif.sqs qid = some { depth := depth, cq := cq }
      ∧ (∀ k, k ≠ qid → k ≠ 0 → mget t.hif.sqs k = mget s.hif.sqs k) ∧ t.out = s.out ++ adminCqe s cid 0 0 0 ∧ SameBut [.hif, .out] s t)) ∧
  (∀ (s : State) (cid qid depth cq : Nat), AdminServes s → mhas s.hif.sqs qid = true →
    Answers (.createIoSq cid qid depth cq true) s (fun t => (∀ k, k ≠ 0 → mget t.hif.sqs k = mget s.hif.sqs k) ∧ t.out = s.out ++ adminCqe s cid 1 1 0
      ∧ SameBut [.hif, .lnt, .out] s t)) ∧
  (∀ (s : State) (cid qid depth vec : Nat), AdminServes s → 1 ≤ qid → qid ≤ 32768 → mhas s.hif.cqs qid = false → 2 ≤ depth → depth ≤ 65536 →
    vec < 2048 →
    Answers (.createIoCq cid qid depth vec true) s (fun t => mget t.hif.cqs qid = some { depth := depth, vector := vec, free := depth - 1 }
      ∧ t.out = s.out ++ adminCqe s cid 0 0 0 ∧ SameBut [.hif, .out] s t)) ∧
  (∀ (s : State) (cid qid : Nat), AdminServes s → qid ≠ 0 → mhas s.hif.sqs qid = true →
    Answers (.deleteIoSq cid qid) s (fun t => mget t.hif.sqs qid = none
      ∧ (∀ k, k ≠ qid → k ≠ 0 → mget t.hif.sqs k = mget s.hif.sqs k)
      ∧ t.out = s.out ++ adminCqe s cid 0 0 0
      ∧ (∀ p ∈ hostSlots t, p.2.cmd.sq = qid → p.2.silent = true ∧ p.2.started = true)
      ∧ SameBut [.regs, .sys, .tck, .hif, .stm, .flc, .flt, .lnt, .out] s t)) ∧
  (∀ (s : State) (cid qid : Nat), AdminServes s → qid ≠ 0 → mhas s.hif.cqs qid = true → (∀ p ∈ s.hif.sqs, p.2.cq ≠ qid) →
    Answers (.deleteIoCq cid qid) s (fun t => mget t.hif.cqs qid = none ∧ t.out = s.out ++ adminCqe s cid 0 0 0 ∧ SameBut [.hif, .out] s t))

/-- Admin commands that read (R63, R64, R72, R92, R93, R383): each gives its data and completes; RAE = 0 lets the page's event be raised
again; the Timestamp is fleet time divided by 1,000,000; in Beacon and Commissioning an opcode that R383 does not accept is refused. -/
def Obligations.AdminReads : Prop :=
  (∀ (s : State) (cid cns nsid : Nat) (bytes : List Byte), adminOpen s = true → CqRoom 0 s → identifyBytes s cns nsid = some bytes →
    Answers (.identify cid cns nsid) s (fun t => t.out = s.out ++ .adminData cid bytes :: adminCqe s cid 0 0 0 ∧ SameBut [.hif, .out, .freeCtr] s t)) ∧
  (∀ (s : State) (cid lid offset len size : Nat) (rae : Bool), AdminServes s → pageSize s lid = some size → offset % 4 = 0 → offset ≤ size →
    Answers (.getLogPage cid lid offset len rae) s (fun t => t.out = s.out ++ .adminData cid (pageBytes s lid offset len) :: adminCqe s cid 0 0 0
      ∧ (rae = true → t.hif.masked = s.hif.masked) ∧ (rae = false → ∀ m, m ∈ t.hif.masked ↔ m ∈ s.hif.masked ∧ m.2 ≠ lid)
      ∧ SameBut [.hif, .out, .freeCtr] s t)) ∧
  (∀ (s : State) (cid dw11 : Nat), AdminServes s →
    Answers (.getFeatures cid ⟨0x0E, dw11⟩) s (fun t => t.out = s.out ++ .adminData cid (le 6 (s.tck.fleet / 1000000) ++ [0, 0]) :: adminCqe s cid 0 0 0
      ∧ SameBut [.hif, .out] s t)) ∧
  (∀ (s : State) (cid fid dw11 : Nat), AdminServes s → fid ∈ [1, 2, 5, 8, 0x0A, 0x0B] →
    Answers (.getFeatures cid ⟨fid, dw11⟩) s (fun t => t.out = s.out ++ adminCqe s cid 0 0 (mgetD s.hif.features fid 0) ∧ t.hif.features = s.hif.features
      ∧ SameBut [.hif, .out] s t)) ∧
  (∀ (s : State) (cid dw11 : Nat), AdminServes s →
    Answers (.getFeatures cid ⟨4, dw11⟩) s (fun t =>
      t.out = s.out ++ (if bits dw11 19 16 < 8 ∧ bits dw11 21 20 < 2 then
          adminCqe s cid 0 0 (mgetD s.hif.features (0x400 + 16 * bits dw11 21 20 + bits dw11 19 16) 0)
        else adminCqe s cid 0 2 0)
      ∧ t.hif.features = s.hif.features ∧ SameBut [.hif, .lnt, .out] s t)) ∧
  (∀ (s : State) (cid nsid : Nat), AdminServes s → nsActive s nsid = true →
    Answers (.directiveReceive cid nsid 1 2) s (fun t =>
      t.out = s.out ++ .adminData cid (padTo 131072 (le 2 (openOf s nsid).length ++ (openOf s nsid).flatMap (le 2))) :: adminCqe s cid 0 0 0
      ∧ t.stm = s.stm ∧ SameBut [.hif, .out, .freeCtr] s t)
    ∧ Answers (.directiveReceive cid nsid 1 3) s (fun t => t.out = s.out ++ adminCqe s cid 0 0 (boundTo s nsid).length ∧ SameBut [.hif, .out] s t)
    ∧ Answers (.directiveSend cid nsid 1 2 0) s (fun t => t.out = s.out ++ adminCqe s cid 0 0 0 ∧ SameBut [.hif, .out] s t)) ∧
  (∀ (s : State) (cid fid dw11 value nsze : Nat), adminOpen s = true → adminFull s = false → CqRoom 0 s →
    Answers (.getFeatures cid ⟨fid, dw11⟩) s (fun t => t.out = s.out ++ adminCqe s cid 0 1 0 ∧ SameBut [.hif, .lnt, .out] s t)
    ∧ Answers (.setFeatures cid fid value) s (fun t => t.out = s.out ++ adminCqe s cid 0 1 0 ∧ t.hif.features = s.hif.features
      ∧ SameBut [.hif, .lnt, .out] s t)
    ∧ Answers (.namespaceCreate cid nsze nsze) s (fun t => t.out = s.out ++ adminCqe s cid 0 1 0 ∧ SameBut [.hif, .lnt, .out] s t))

/-- Features, events, Abort, the shadow buffer and self-tests (R64, R66, R84, R86-R88, R93): a feature keeps the value it is set to; an event
request waits, or reports the oldest event that waited; Abort ends a waiting request with Command Abort Requested and says in DW0
bit 0 where there is nothing it could end; one self-test runs at a time, its flash reads wait in the D queue, and its end, with the first
failing segment, is the newest of the results and comes after its reads unless a segment has failed. -/
def Obligations.AdminSettings : Prop :=
  (∀ (s : State) (cid fid value : Nat), AdminServes s → fid ∈ [1, 8, 0x0A, 0x0B] →
    Answers (.setFeatures cid fid value) s (fun t => mget t.hif.features fid = some value
      ∧ (∀ k, k ≠ fid → mget t.hif.features k = mget s.hif.features k) ∧ t.out = s.out ++ adminCqe s cid 0 0 0 ∧ SameBut [.hif, .out] s t)) ∧
  (∀ (s : State) (cid n m : Nat), AdminServes s → n < 65535 → m < 65535 →
    Answers (.setFeatures cid 7 (n + 65536 * m)) s (fun t => t.out = s.out ++ adminCqe s cid 0 0 (Nat.min 32767 n + 65536 * Nat.min 32767 m)
      ∧ SameBut [.hif, .out] s t)) ∧
  (∀ (s : State) (cid : Nat), AdminServes s → s.hif.aers.length < 16 → s.hif.events = [] →
    Answers (.asynchronousEventRequest cid) s (fun t => t.hif = { s.hif with aers := s.hif.aers ++ [cid], sqs := t.hif.sqs } ∧ SameBut [.hif] s t)) ∧
  (∀ (s : State) (cid : Nat) (e : Nat × Nat) (rest : List (Nat × Nat)), AdminServes s → s.hif.aers = [] → s.hif.events = e :: rest →
    e.1 / 256 ≠ 1 → e.1 / 256 ≠ 2 → (e.1 / 256, e.2) ∉ s.hif.masked →
    Answers (.asynchronousEventRequest cid) s (fun t => t.hif.events = rest ∧ t.hif.aers = []
      ∧ t.out = s.out ++ .aen cid (e.1 / 256) (e.1 % 256) e.2 :: adminCqe s cid 0 0 (e.1 / 256 + e.1 % 256 * 256 + e.2 * 65536)
      ∧ SameBut [.hif, .out] s t)) ∧
  (∀ (s : State) (cid target : Nat) (q : Cq), AdminServes s → target ∈ s.hif.aers → mget s.hif.cqs 0 = some q → 2 ≤ q.free →
    Answers (.abort cid 0 target) s (fun t => t.out = s.out ++ adminCqe s target 0 7 0 ++ adminCqe s cid 0 0 0
      ∧ t.hif.aers = dropFrom s.hif.aers target ∧ SameBut [.hif, .lnt, .out] s t)) ∧
  (∀ (s : State) (cid sq target : Nat), AdminServes s → sq ≠ 0 → (∀ p ∈ s.hif.slots, p.2.cmd.sq = sq → p.2.cmd.cid = target → p.2.started = true) →
    (∀ q, mget s.hif.sqs sq = some q → q.look = none) →
    Answers (.abort cid sq target) s (fun t => t.out = s.out ++ adminCqe s cid 0 0 1 ∧ t.hif.slots = s.hif.slots ∧ SameBut [.hif, .out] s t)) ∧
  (∀ (s : State) (cid : Nat), AdminServes s → fld s HIF_CFG 2 2 = 1 →
    Answers (.doorbellBufferConfig cid) s (fun t => t.hif.shadow = true ∧ t.out = s.out ++ adminCqe s cid 0 0 0 ∧ SameBut [.hif, .out] s t)) ∧
  (∀ (s : State) (cid : Nat), AdminServes s → fld s HIF_CFG 2 2 = 0 →
    Answers (.doorbellBufferConfig cid) s (fun t => t.hif.shadow = s.hif.shadow ∧ t.out = s.out ++ adminCqe s cid 0 2 0 ∧ SameBut [.hif, .lnt, .out] s t)) ∧
  (∀ (s : State) (cid nsid : Nat), AdminServes s → s.hif.selfTest = none → nsid = 0 ∨ nsid = 0xFFFFFFFF ∨ nsActive s nsid = true →
    Answers (.selfTestShort cid nsid) s (fun t => t.hif.selfTest = some { extended := false, nsid := nsid } ∧ t.out = s.out ++ adminCqe s cid 0 0 0
      ∧ t.flc = { s.flc with reads := t.flc.reads, nextRead := s.flc.nextRead + (systemReads s).length } ∧ SameBut [.hif, .flc, .out] s t)
    ∧ Answers (.selfTestExtended cid nsid) s (fun t => t.hif.selfTest = some { extended := true, nsid := nsid, read := (closedReads s nsid).length }
      ∧ t.out = s.out ++ adminCqe s cid 0 0 0
      ∧ t.flc = { s.flc with reads := t.flc.reads, nextRead := s.flc.nextRead + (systemReads s).length + (closedReads s nsid).length }
      ∧ SameBut [.hif, .flc, .out] s t)) ∧
  (∀ (s : State) (cid nsid : Nat), AdminServes s → s.hif.selfTest ≠ none →
    Answers (.selfTestShort cid nsid) s (fun t => t.hif.selfTest = s.hif.selfTest ∧ t.out = s.out ++ adminCqe s cid 1 0x1D 0 ∧ SameBut [.hif, .lnt, .out] s t)) ∧
  (∀ (s : State) (cid : Nat) (x : SelfTest), AdminServes s → s.hif.selfTest = some x →
    Answers (.selfTestAbort cid) s (fun t => t.hif.selfTest = none ∧ t.out = s.out ++ adminCqe s cid 0 0 0
      ∧ t.hif.selfResults = ((1, if x.extended then 2 else 1, 0) :: s.hif.selfResults).take 20
      ∧ (∀ p ∈ t.flc.reads, p.1 ∈ s.flc.reads.map (·.1)) ∧ t.stm.streams = s.stm.streams
      ∧ SameBut [.regs, .sys, .tck, .hif, .stm, .flc, .lnt, .out] s t)) ∧
  (∀ (s : State) (x : SelfTest) (seen : SelfTestSeen), s.hif.selfTest = some x → seen.corrected < 16 → 100 * x.recovered ≤ x.read →
    (failedSeg x seen = none → ∀ p ∈ s.flc.reads, ∀ n, p.2.use ≠ .selfTest n) →
    Answers (.selfTestEnd seen) s (fun t => t.hif.selfTest = none
      ∧ t.hif.selfResults = ((if failedSeg x seen = none then 0 else 7, if x.extended then 2 else 1, (failedSeg x seen).getD 0)
          :: s.hif.selfResults).take 20
      ∧ (∀ p ∈ t.flc.reads, p.1 ∈ s.flc.reads.map (·.1) ∧ ∀ n, p.2.use ≠ .selfTest n) ∧ t.stm.streams = s.stm.streams
      ∧ SameBut [.regs, .sys, .tck, .hif, .stm, .flc, .lnt] s t)) ∧
  (∀ (s : State) (x : SelfTest) (seen : SelfTestSeen), s.hif.selfTest = some x → failedSeg x seen = none →
    (∃ p ∈ s.flc.reads, ∃ n, p.2.use = .selfTest n) → Answers (.selfTestEnd seen) s (fun t => t = s)) ∧
  (∀ (s : State) (seen : SelfTestSeen), s.hif.selfTest = none → Answers (.selfTestEnd seen) s (fun t => t = s))

/-- Namespaces (R85, R129, R131, R132, R153, R472): Create takes the lowest free NSID and free groups of 64 segments, gives a key of its own
and leaves the namespace detached; a size that is no whole number of segments is refused; a record that the ring has no room for
makes its command wait; Attach and Detach change one namespace; Delete takes it out of the directory; Format waits in Quiesce for the started
commands, and with SES 1 draws a new key. -/
def Obligations.Namespaces : Prop :=
  (∀ (s : State) (cid nsze nsid : Nat), AdminServes s → nsze ≠ 0 → nsze % 4096 = 0 → freeNsid s = some nsid →
    segsAlloc s.map.dir + nsze / 4096 ≤ s.map.segLimit → (groupsUsed s.map.dir).length + cdiv (nsze / 4096) 64 ≤ 262144 →
    s.thm.mramCut = false → ringRoom s (recsBytes (cdiv (nsze / 4096) 64)) = true → s.map.durable = s.map.lsn → (∀ r ∈ s.map.log, r.lsn < s.map.lsn) → s.hif.aers = [] →
    Answers (.namespaceCreate cid nsze nsze) s (fun t => t.out = s.out ++ adminCqe s cid 0 0 nsid
      ∧ (∃ n, mget t.map.dir nsid = some n ∧ n.attached = false ∧ n.key = s.sec.draws ∧ n.segs = nsze / 4096
        ∧ n.groups.length = cdiv (nsze / 4096) 64 ∧ n.groups.Nodup ∧ ∀ g ∈ n.groups, g ∉ groupsUsed s.map.dir)
      ∧ (∀ k, k ≠ nsid → mget t.map.dir k = mget s.map.dir k)
      ∧ (∀ g, (mget t.map.segs g).map (·.kind) = (mget s.map.segs g).map (·.kind)) ∧ t.sec.draws = s.sec.draws + 1
      ∧ SameBut [.regs, .sys, .hif, .map, .bnd, .sec, .cst, .lnt, .out] s t)) ∧
  (∀ (s : State) (cid nsze : Nat), AdminServes s → nsze % 4096 ≠ 0 →
    Answers (.namespaceCreate cid nsze nsze) s (fun t => t.out = s.out ++ adminCqe s cid 0 2 0 ∧ t.map = s.map ∧ SameBut [.hif, .lnt, .out] s t)) ∧
  (∀ (s : State) (cid nsze nsid : Nat), AdminServes s → nsze ≠ 0 → nsze % 4096 = 0 → freeNsid s = some nsid →
    segsAlloc s.map.dir + nsze / 4096 ≤ s.map.segLimit → (groupsUsed s.map.dir).length + cdiv (nsze / 4096) 64 ≤ 262144 →
    (s.thm.mramCut = true ∨ ringRoom s (recsBytes (cdiv (nsze / 4096) 64)) = false) →
    Answers (.namespaceCreate cid nsze nsze) s (fun t => t.out = s.out ∧ t.map.dir = s.map.dir ∧ (s.thm.mramCut = false → t.map.logFull = true)
      ∧ t.hif = { s.hif with adminHeld := s.hif.adminHeld ++ [.create cid nsze], sqs := t.hif.sqs } ∧ SameBut [.regs, .sys, .hif, .map, .lnt] s t)) ∧
  (∀ (s : State) (cid nsid : Nat) (n : Ns), AdminServes s → mget s.map.dir nsid = some n → nsid ≠ 0xFFFFFFFF → n.groups = [] ∨ n.proxyOf = none →
    (s.map.dir.map (·.1)).Nodup → s.thm.mramCut = false → ringRoom s (recsBytes n.groups.length) = true → s.map.durable = s.map.lsn →
    (∀ r ∈ s.map.log, r.lsn < s.map.lsn) → s.hif.aers = [] → (∀ p ∈ s.hif.sqs, p.2.cq ≠ 0) →
    Answers (.namespaceDelete cid nsid) s (fun t => mget t.map.dir nsid = none ∧ (∃ l, t.out = s.out ++ l ++ adminCqe s cid 0 0 0)
      ∧ (∀ p ∈ hostSlots t, p.2.cmd.nsid ≠ nsid) ∧ (∀ g, g / 64 ∈ n.groups → (segAt t.map.segs g).kind = .unmapped)
      ∧ (∀ g, g / 64 ∉ n.groups → mget t.map.segs g = mget s.map.segs g))) ∧
  (∀ (s : State) (cid nsid : Nat) (n : Ns), AdminServes s → mget s.map.dir nsid = some n →
    (n.attached = false → Answers (.namespaceAttach cid nsid [1]) s (fun t => mget t.map.dir nsid = some { n with attached := true }
      ∧ (∀ k, k ≠ nsid → mget t.map.dir k = mget s.map.dir k) ∧ t.map.segs = s.map.segs ∧ t.out = s.out ++ adminCqe s cid 0 0 0
      ∧ SameBut [.hif, .map, .out] s t)) ∧
    (n.attached = true → Answers (.namespaceDetach cid nsid [1]) s (fun t => mget t.map.dir nsid = some { n with attached := false }
      ∧ (∀ k, k ≠ nsid → mget t.map.dir k = mget s.map.dir k) ∧ t.map.segs = s.map.segs ∧ t.out = s.out ++ adminCqe s cid 0 0 0
      ∧ SameBut [.hif, .map, .out] s t))) ∧
  (∀ (s : State) (cid nsid ses : Nat), AdminServes s → ses ≤ 2 → nsActive s nsid = true → sliceCovered s = false → s.cst.mode.io = true →
    s.hif.format = none → (∃ p ∈ s.hif.slots, p.2.started = true) →
    Answers (.formatNvm cid nsid ses 0) s (fun t => t.cst.mode = .quiesce ∧ t.hif.format = some (cid, nsid, ses) ∧ t.hif.selfTest = none
      ∧ t.out = s.out ∧ t.map.dir = s.map.dir ∧ t.map.segs = s.map.segs)) ∧
  (∀ (s : State) (cid nsid : Nat) (n : Ns), AdminServes s → nsActive s nsid = true → nsid ≠ 0xFFFFFFFF → mget s.map.dir nsid = some n →
    sliceCovered s = false → s.cst.mode.io = true → s.hif.format = none → s.hif.formatQuiet = false → (∀ p ∈ s.hif.slots, p.2.started = false) → mappedSegs s n = [] →
    Answers (.formatNvm cid nsid 1 0) s (fun t => mget t.map.dir nsid = some { n with key := s.sec.draws } ∧ t.hif.format = none
      ∧ t.cst.mode.io = true ∧ t.out = s.out ++ adminCqe s cid 0 0 0 ∧ t.map.segs = s.map.segs)) ∧
  (∀ (s : State) (cid nsid ses : Nat), AdminServes s → ses ≤ 2 → nsActive s nsid = true → sliceCovered s = false → s.cst.mode.io = false →
    Answers (.formatNvm cid nsid ses 0) s (fun t => t.out = s.out ++ adminCqe s cid 0 0x0C 0 ∧ t.map = s.map ∧ SameBut [.hif, .lnt, .out] s t))

/-- The vendor management commands (R11, R89-R91): with HOST_MGMT_EN = 1 and the block code of its own opcode, each is passed on to HIF's
internal ring with its tag and body; with HOST_MGMT_EN = 0 it is refused and counted. -/
def Obligations.VendorCommands : Prop :=
  (∀ (s : State) (c : Instr) (src : Src) (tag op : Nat) (fs : List (Nat × Nat × Nat)), descOf c = some (src, tag, op, fs) →
    mayBegin s src tag op fs = false → Answers c s (fun t => t = s)) ∧
  ∀ (s : State) (v : Vend), AdminServes s →
    ((fld s HIF_CFG 1 1 = 1 → v.nsid = 0 → v.prp2 = 0 → v.rsv = false → v.flags = 0 → v.rspec = 0 →
      ∀ p ∈ [(Instr.streamManage v, 0x03), (.memberManage v, 0x07), (.fleetManage v, 0x08), (.lanternControl v, 0x10)], v.opcode / 256 = p.2 →
        Answers p.1 s (fun t => t.sys = { s.sys with
            hifRings := s.sys.hifRings ++ [{ src := .admin v.cid, opcode := v.opcode, tag := v.cid, body := v.body }] } ∧ t.hif = { s.hif with sqs := t.hif.sqs } ∧ SameBut [.sys, .hif] s t)) ∧
    (fld s HIF_CFG 1 1 = 0 → ∀ c ∈ [Instr.streamManage v, .memberManage v, .fleetManage v, .lanternControl v],
      Answers c s (fun t => t.sys.hifRings = s.sys.hifRings ∧ rg t HIF_MGMT_REFUSED_CNT = Nat.min (rg s HIF_MGMT_REFUSED_CNT + 1) 0xFFFFFFFF
        ∧ SameRegsBut (HIF_MGMT_REFUSED_CNT :: noteRegs Ev.HIF_MGMT_DISABLED) s t ∧ SameBut [.regs, .sys, .hif, .lnt, .out] s t)))

/-- Firmware (R371, R377, R378, Table 12.11): a piece joins the download buffer, or waits while a host's commit reads it; a store runs in a
slot that takes the image until COMMIT_END, which stores an image that passes every check and the read-back, an OS image once its pages are
written, and refuses one that fails a check and changes no slot; marking Pending needs a stored image; an activation's end makes the new
image Active. -/
def Obligations.FirmwareUpdate : Prop :=
  (∀ (s : State) (cid offset : Nat) (piece : List Byte), adminOpen s = true → CqRoom 0 s → offset % 4096 = 0 → offset + piece.length ≤ 0x8000000 →
    (s.cst.commit = none → Answers (.firmwareImageDownload cid offset piece) s (fun t =>
      t.cst = { s.cst with buffer := s.cst.buffer ++ [(offset, piece)] } ∧ t.out = s.out ++ adminCqe s cid 0 0 0 ∧ SameBut [.hif, .cst, .out] s t)) ∧
    (∀ (c : Commit) (k : Nat), s.cst.commit = some c → c.src = .host k → Answers (.firmwareImageDownload cid offset piece) s (fun t =>
      t.cst = { s.cst with downloads := s.cst.downloads ++ [(cid, offset, piece)] } ∧ SameBut [.hif, .cst] s t))) ∧
  (∀ (s : State) (cid slot : Nat) (i : Image), adminOpen s = true → s.cst.commit = none → s.cst.waiting = [] → i = commitImage s (.host cid) →
    i.formatOk = true → 1 ≤ i.kind → i.kind ≤ 3 → slotTakes s (commitSlot s slot i.kind) i.kind = true →
    ∀ p ∈ [(Instr.commitStore (.host cid) slot, 0), (.commitStorePending (.host cid) slot, 1), (.commitActivate (.host cid) slot, 3)],
      Answers p.1 s (fun t => t.cst.commit = some { src := .host cid, action := p.2, slot := commitSlot s slot i.kind, img := some i }
        ∧ t.cst.slots = s.cst.slots ∧ rg t CST_UPD_RESULT = 0 ∧ SameRegsBut [CST_UPD_RESULT] s t ∧ t.bnd = { s.bnd with sysTodo := t.bnd.sysTodo }
        ∧ SameBut [.regs, .hif, .bnd, .cst] s t)) ∧
  (∀ (s : State) (cid slot : Nat), adminOpen s = true → CqRoom 0 s → s.cst.commit = none → s.cst.waiting = [] → 2 ≤ slot → slot ≤ 5 →
    s.cst.slots.length = 5 → slotRuns s slot = false → slotPends s slot = false → (slotAt s slot).st = .committed ∨ (slotAt s slot).st = .confirmed →
    Answers (.commitMarkPending (.host cid) slot) s (fun t => (slotAt t slot).st = .pending ∧ (slotAt t slot).img = (slotAt s slot).img
      ∧ t.out = s.out ++ adminCqe s cid 0 0 0 ∧ rg t CST_UPD_RESULT = 0x80000000 ∧ SameRegsBut [CST_UPD_RESULT] s t
      ∧ SameBut [.regs, .hif, .cst, .out] s t)) ∧
  (∀ (s : State) (cid : Nat) (c : Commit) (i : Image) (chk : Crypt), CqRoom 0 s → s.cst.commit = some c → c.src = .host cid → c.action = 0 →
    c.img = some i → 1 ≤ c.slot → c.slot ≤ 5 → s.cst.slots.length = 5 → imageCheck s c.slot s.cst.settingsFmt i chk = 0 → commitWrites s = false →
    s.cst.mode ≠ .beacon → s.cst.mode ≠ .commissioning →
    s.cst.waiting = [] → s.cst.downloads = [] → s.cst.actDue = false →
    Answers (.commitEnd chk true) s (fun t => slotAt t c.slot = { st := .committed, img := some i }
      ∧ (∀ k, 1 ≤ k → k ≤ 5 → k ≠ c.slot → slotAt t k = slotAt s k) ∧ t.cst.commit = none ∧ t.out = s.out ++ adminCqe s cid 0 0 0
      ∧ rg t CST_UPD_RESULT = 0x80000000 ∧ SameBut [.regs, .sys, .hif, .bnd, .cst, .lnt, .out] s t)) ∧
  (∀ (s : State) (chk : Crypt) (verified : Bool), commitCheck s chk = 0 → commitWrites s = true → Answers (.commitEnd chk verified) s (fun t => t = s)) ∧
  (∀ (s : State) (cid : Nat) (c : Commit) (i : Image) (chk : Crypt) (verified : Bool), CqRoom 0 s → s.cst.commit = some c → c.src = .host cid →
    c.img = some i → imageCheck s c.slot s.cst.settingsFmt i chk ≠ 0 → s.cst.waiting = [] → s.cst.downloads = [] → s.cst.actDue = false →
    Answers (.commitEnd chk verified) s (fun t => t.cst.slots = s.cst.slots ∧ t.cst.commit = none ∧ t.out = s.out ++ adminCqe s cid 1 7 0
      ∧ rg t CST_UPD_RESULT = 0x80000000 + imageCheck s c.slot s.cst.settingsFmt i chk
      ∧ SameBut [.regs, .sys, .hif, .bnd, .cst, .lnt, .out] s t)) ∧
  (∀ (s : State) (x : Nat), s.cst.actRunning = true → s.cst.actStage = 3 → (∀ n, n < 10 → (pairAt s n).st ≠ .restarting) → s.cst.actDue = false →
    s.cst.actSlots = [x] → 2 ≤ x → x ≤ 5 → s.cst.slots.length = 5 →
    Answers .activationDone s (fun t => (slotAt t x).st = .active ∧ (slotAt t x).img = (slotAt s x).img ∧ t.cst.actRunning = false ∧ t.cst.actSlots = []
      ∧ t.hif.pp = false ∧ (s.cst.mode = .quiesce → t.cst.mode.io = true) ∧ SameBut [.regs, .sys, .hif, .cst, .lnt] s t)) ∧
  (∀ s : State, s.cst.actRunning = false → Answers .activationDone s (fun t => t = s))

/-- Boot confirmation, the watchdog and the Code Store's banks (R331, R367, R369, R370, R374): CONFIRM clears BOOT_COUNT and marks the running
images Confirmed; a program of a code word that is already programmed is refused and counted; an erase makes its sector's code words
programmable again, and goes on where a read suspended it once no read has come for 2 us or 1 ms has passed. -/
def Obligations.CodeStore : Prop :=
  (∀ (s : State) (v : Word), s.cpx.appsOn ≠ [] →
    Answers (.bootConfirm v) s (fun t => t.cst.bootCount = 0 ∧ t.cst.confirmed = true ∧ t.cst.mode = s.cst.mode
      ∧ (s.cst.slots.length = 5 → 1 ≤ s.cst.osSlot → s.cst.osSlot ≤ 5 → (slotAt s s.cst.osSlot).st = .active → (slotAt t s.cst.osSlot).st = .confirmed)
      ∧ (slotAt t s.cst.osSlot).img = (slotAt s s.cst.osSlot).img ∧ SameBut [.regs, .sys, .cst, .lnt] s t)) ∧
  (∀ (s : State) (v : Word), Answers (.osWatchdogWrite v) s (fun t => t.cpx.wdogArmed = decide (rg t CPX_OS_WDOG ≠ 0)
    ∧ t.cpx.pairs = s.cpx.pairs ∧ SameBut [.regs, .sys, .cpx, .lnt] s t)) ∧
  (∀ (s : State) (bank word : Nat), bank < 13 → word < 32768 → s.cst.mode ≠ .dark → (bankAt s bank).erase = none →
    cwProgrammed s bank word = false →
    Answers (.cstProgramDone bank word true) s (fun t => bank * 32768 + word ∈ t.cst.programmed ∧ (∀ k ∈ s.cst.programmed, k ∈ t.cst.programmed)
      ∧ rg t CST_PROG_CNT = Nat.min (rg s CST_PROG_CNT + 1) 0xFFFFFFFF ∧ SameRegsBut [CST_PROG_CNT] s t ∧ SameBut [.regs, .cst] s t)) ∧
  (∀ (s : State) (bank word : Nat) (ok : Bool), bank < 13 → word < 32768 → s.cst.mode ≠ .dark → (bankAt s bank).erase = none →
    cwProgrammed s bank word = true →
    Answers (.cstProgramDone bank word ok) s (fun t => t.cst = s.cst ∧ rg t CST_REFUSE_CNT = Nat.min (rg s CST_REFUSE_CNT + 1) 0xFFFFFFFF
      ∧ SameRegsBut (CST_REFUSE_CNT :: noteRegs Ev.CST_DOUBLE_PROGRAM) s t ∧ SameBut notes s t)) ∧
  (∀ (s : State) (bank sector : Nat), bank < 13 → sector < 16 → s.cst.mode ≠ .dark → (bankAt s bank).suspended = false → (bankAt s bank).prog = none →
    (bankAt s bank).erase = some sector →
    Answers (.cstEraseDone bank sector true) s (fun t => (∀ w, w / 2048 = sector → w < 32768 → bank * 32768 + w ∉ t.cst.programmed)
      ∧ (bankAt t bank).erase = none ∧ (∀ k, k ≠ bank → bankAt t k = bankAt s k) ∧ rg t CST_ERASE_CNT = Nat.min (rg s CST_ERASE_CNT + 1) 0xFFFFFFFF
      ∧ SameRegsBut [CST_ERASE_CNT] s t ∧ SameBut [.regs, .cst] s t)) ∧
  (∀ (s : State) (bank : Nat), (bankAt s bank).suspended = true → (bankAt s bank).prog = none →
    ((bankAt s bank).lastReq + 2000 ≤ s.tck.now ∨ (bankAt s bank).suspendedAt + 1000000 ≤ s.tck.now) →
    Answers (.cstEraseResume bank) s (fun t => (bankAt t bank).suspended = false ∧ (bankAt t bank).erase = (bankAt s bank).erase
      ∧ (∀ k, k ≠ bank → bankAt t k = bankAt s k) ∧ SameBut [.cst] s t)) ∧
  (∀ (s : State) (bank : Nat), ((bankAt s bank).suspended = false ∨ (bankAt s bank).prog ≠ none
      ∨ (s.tck.now < (bankAt s bank).lastReq + 2000 ∧ s.tck.now < (bankAt s bank).suspendedAt + 1000000)) →
    Answers (.cstEraseResume bank) s (fun t => t = s)) ∧
  (∀ s : State, s.cpx.wdogArmed = false → Answers .cpxOsWatchdog s (fun t => t = s)) ∧
  (∀ s : State, s.cpx.wdogArmed = true →
    (bitAt (rg s CPX_CFG) 0 = false → Answers .cpxOsWatchdog s (fun t => SameRegsBut (noteRegs Ev.CPX_OS_WATCHDOG) s t ∧ SameBut notes s t)) ∧
    (bitAt (rg s CPX_CFG) 0 = true → s.cst.mode ≠ .dark → s.cst.mode ≠ .beacon → s.thm.pfail = false → s.thm.tripped = false →
      Answers .cpxOsWatchdog s (fun t => t.sys.lastReset = 2 ∧ bitAt (rg t SYS_RESET_CAUSE) 9 = true ∧ t.hif = s.hif
        ∧ (s.cpx.appsOn = [] → t.mem = s.mem ∧ t.cst = s.cst) ∧ SameBut [.regs, .mem, .sys, .clk, .cpx, .cst, .lnt, .freeCtr] s t))) ∧
  (∀ s : State, fld s CST_CFG 31 16 ≠ 0 → s.cpx.appsOn ≠ [] → s.cst.confirmed = false → s.cst.mode ≠ .halt →
    (s.cst.startAt + fld s CST_CFG 31 16 * 1000000000 ≤ s.tck.now → Answers .cstBootFailed s (fun t => t.cst.mode = .dark ∧ t.sys.lastReset = 1
      ∧ bitAt (rg t SYS_RESET_CAUSE) 2 = true ∧ t.sec.keyStore = false ∧ t.mem = [] ∧ t.out = s.out ∧ t.pending = s.pending)) ∧
    (s.tck.now < s.cst.startAt + fld s CST_CFG 31 16 * 1000000000 → Answers .cstBootFailed s (fun t => t = s)))

/-- The OTP row and the security version (R298, R302, R323, R324): each provisioning command runs in its own lifecycle before the seal, moves
the lifecycle on and leaves 0 in SEC_PROV_RESULT; in any other lifecycle, or after the seal, it is refused and burns nothing; an
advance of the security version that every running image allows raises it, and any other is refused. -/
def Obligations.Provisioning : Prop :=
  (∀ s : State, s.cst.mode ≠ .dark → s.cst.mode ≠ .halt → s.sys.isSealed = false → Memory.wf s.mem = true →
    (lifecycleOf s = some .blank → s.sec.trngOk = true → provArgOk s 96 = true →
      Answers .genSecret s (fun t => t.sec.otpSecret = some s.sec.draws ∧ lifecycleOf t = some .keyed ∧ t.sec.provResult = 0
        ∧ readBytes t s.sec.provArg 96 = idKey s.sec.draws ∧ SameMemoryOutside s.sec.provArg 96 s t
        ∧ rg t CST_PROG_CNT = Nat.min (rg s CST_PROG_CNT + 1) 0xFFFFFFFF ∧ SameBut [.regs, .mem, .sec] s t)) ∧
    (lifecycleOf s = some .keyed → provArgOk s 4 = true → leNat (readBytes s s.sec.provArg 4) ≤ 8192 →
      provArgOk s (4 + leNat (readBytes s s.sec.provArg 4)) = true →
      Answers .writeDaymark s (fun t => lifecycleOf t = some .provisioned ∧ t.sec.provResult = 0
        ∧ t.sec.certs = readBytes s (s.sec.provArg + 4) (leNat (readBytes s s.sec.provArg 4)) ∧ t.sec.otpSecret = s.sec.otpSecret
        ∧ SameBut [.regs, .sec] s t)) ∧
    (lifecycleOf s = some .provisioned → provArgOk s 96 = true →
      Answers .setOwner s (fun t => lifecycleOf t = some .commissioned ∧ t.sec.provResult = 0
        ∧ t.sec.otpOwner = some (Config.sha384 (readBytes s s.sec.provArg 96)) ∧ t.sec.otpTime = s.tck.fleet
        ∧ t.sec.otpSecret = s.sec.otpSecret ∧ SameBut [.regs, .sec] s t))) ∧
  (∀ (s : State) (p : Instr × Lifecycle), s.cst.mode ≠ .dark → s.cst.mode ≠ .halt → p ∈ [(Instr.genSecret, .blank), (.writeDaymark, .keyed), (.setOwner, .provisioned)] →
    (lifecycleOf s ≠ some p.2 ∨ s.sys.isSealed = true) →
    Answers p.1 s (fun t => t.sec = { s.sec with provResult := Ev.SEC_PROV_REFUSED } ∧ SameRegsBut (noteRegs Ev.SEC_PROV_REFUSED) s t
      ∧ SameBut (.sec :: notes) s t)) ∧
  (∀ (s : State) (v : Word), secver s < bits v.toNat 6 0 → bits v.toNat 6 0 ≤ 64 → (∀ x ∈ runningSecvers s, bits v.toNat 6 0 ≤ x) → s.cst.mode ≠ .dark →
    Answers (.secverAdvance v) s (fun t => bits v.toNat 6 0 ≤ secver t ∧ t.sec.mramSecver = bits v.toNat 6 0
      ∧ (∀ i, i < 64 → s.sec.steps.getD i false = true → t.sec.steps.getD i false = true) ∧ SameBut (.sec :: notes) s t)) ∧
  (∀ (s : State) (v : Word), bits v.toNat 6 0 ≤ secver s → Answers (.secverAdvance v) s (fun t => t.sec = s.sec ∧ SameBut notes s t))

/-- Cipher lanes and the TRNG (R302, R309-R311): enabling a lane that is Off puts it under test, disabling one that is On drains it; a drain
ends in Off, or carries out the request latched meanwhile; a test that passes turns the lane On with its mismatch counter cleared, one that
fails retires it; a TRNG that fails gives nothing until cold reset. -/
def Obligations.CipherLanes : Prop :=
  (∀ (s : State) (l : Nat), l < 8 → s.sec.lanes.length = 8 → s.cst.mode.runs = true → bitAt (rg s SEC_LANE_CTL) l = false → (laneAt s l).st = .off →
    (∀ k, k < 8 → k ≠ l → (laneAt s k).st ≠ .retired) →
    Answers (.laneEnable l) s (fun t => (laneAt t l).st = .testing ∧ bitAt (rg t SEC_LANE_CTL) l = true ∧ (∀ k, k ≠ l → laneAt t k = laneAt s k)
      ∧ SameBut (.sec :: notes) s t)) ∧
  (∀ (s : State) (l : Nat), l < 8 → s.sec.lanes.length = 8 → s.cst.mode.runs = true → bitAt (rg s SEC_LANE_CTL) l = true → (laneAt s l).st = .on →
    (∀ k, k < 8 → k ≠ l → (laneAt s k).st ≠ .retired) →
    Answers (.laneDisable l) s (fun t => (laneAt t l).st = .draining ∧ bitAt (rg t SEC_LANE_CTL) l = false ∧ (∀ k, k ≠ l → laneAt t k = laneAt s k)
      ∧ SameBut (.sec :: notes) s t)) ∧
  (∀ (s : State) (l k : Nat), (laneAt s l).st = .draining → (laneAt s l).carrying = false → k < 8 → k ≠ l → (laneAt s k).st = .on →
    s.sec.lanes.length = 8 →
    ((laneAt s l).pending = none → Answers (.laneDrainEnd l) s (fun t => (laneAt t l).st = .off ∧ (∀ j, j ≠ l → laneAt t j = laneAt s j) ∧ SameBut [.sec] s t)) ∧
    ((laneAt s l).pending = some true → Answers (.laneDrainEnd l) s (fun t => (laneAt t l).st = .testing ∧ (laneAt t l).pending = none
      ∧ (∀ j, j ≠ l → laneAt t j = laneAt s j) ∧ SameBut [.sec] s t))) ∧
  (∀ (s : State) (l : Nat), l < 8 → s.sec.lanes.length = 8 → (laneAt s l).st = .testing → (laneAt s l).pending = none → (laneAt s l).carrying = false →
    Answers (.laneTestEnd l true) s (fun t => (laneAt t l).st = .on ∧ l ∉ t.sec.laneRetired ∧ rg t (SEC_LANEl_MISMATCH_CNT l) = 0
      ∧ (∀ j, j ≠ l → laneAt t j = laneAt s j) ∧ SameBut [.regs, .sec, .cst] s t)) ∧
  (∀ (s : State) (l k : Nat), l < 8 → s.sec.lanes.length = 8 → (laneAt s l).st = .testing → (laneAt s l).pending = none → (laneAt s l).carrying = false →
    k < 8 → k ≠ l → (laneAt s k).st = .on →
    Answers (.laneTestEnd l false) s (fun t => (laneAt t l).st = .retired ∧ l ∈ t.sec.laneRetired ∧ (∀ j, j ≠ l → laneAt t j = laneAt s j)
      ∧ t.cst.mode = s.cst.mode ∧ SameBut [.regs, .sys, .sec, .cst, .lnt] s t)) ∧
  (∀ s : State, s.sec.trngOk = true →
    Answers .secTrngFail s (fun t => t.sec = { s.sec with trngOk := false, trngDead := true } ∧ SameRegsBut (noteRegs Ev.SEC_TRNG_FAIL) s t
      ∧ SameBut (.sec :: notes) s t)) ∧
  (∀ s : State, s.sec.trngOk = false → Answers .secTrngFail s (fun t => t = s))

/-- Debug unlock (R317-R319): a challenge is new at each read and void 60 s later or once answered; a response that fails counts, and the
eighth locks; a vendor unlock first renews every namespace key, empties the map and disables the identity key. -/
def Obligations.DebugUnlock : Prop :=
  (∀ s : State, s.sec.lockout = false → s.sec.trngOk = true →
    Answers .tapChallengeRead s (fun t => t.out = s.out ++ [.challenge s.sec.draws] ∧ t.sec = { s.sec with challenge := some s.tck.now, draws := s.sec.draws + 1 }
      ∧ SameBut [.sec, .out] s t)) ∧
  (∀ s : State, s.sec.lockout = true → Answers .tapChallengeRead s (fun t => t.out = s.out ∧ t.sec.challenge = none ∧ SameBut [.sec] s t)) ∧
  (∀ (s : State) (c : Nat), s.sec.challenge = some c → s.tck.now < c + 60000000000 → s.sec.lockout = false →
    Answers (.tapResponse 1 true true) s (fun t => t.sec = { s.sec with challenge := none, unlock := 1 } ∧ SameRegsBut (noteRegs Ev.SEC_UNLOCKED) s t
      ∧ SameBut (.sec :: notes) s t)) ∧
  (∀ (s : State) (c : Nat), s.sec.challenge = some c → s.tck.now < c + 60000000000 → s.sec.lockout = false →
    s.cst.mode = .quiesce ∨ s.cst.mode = .halt ∨ s.cst.mode = .beacon →
    Answers (.tapResponse 2 true true) s (fun t => t.sec.unlock = 2 ∧ t.sec.challenge = none ∧ t.sec.keyStore = false ∧ t.sec.idDisabled = true
      ∧ t.map.segs = [] ∧ t.map.log = [] ∧ t.flt.fnk = 0 ∧ (∀ p ∈ t.map.dir, s.sec.draws ≤ p.2.key) ∧ t.map.dir.map (·.1) = s.map.dir.map (·.1))) ∧
  (∀ (s : State) (level : Nat) (keyOk sigOk : Bool), s.sec.lockout = false →
    (keyOk = false ∨ sigOk = false ∨ s.sec.challenge = none ∨ (∃ c, s.sec.challenge = some c ∧ c + 60000000000 ≤ s.tck.now)) →
    Answers (.tapResponse level keyOk sigOk) s (fun t => t.sec.unlock = s.sec.unlock ∧ t.sec.challenge = none ∧ t.map = s.map
      ∧ rg t SEC_UNLOCK_FAIL_CNT = Nat.min (rg s SEC_UNLOCK_FAIL_CNT + 1) 0xFFFFFFFF
      ∧ t.sec.lockout = decide (8 ≤ rg s SEC_UNLOCK_FAIL_CNT + 1) ∧ SameBut (.sec :: notes) s t)) ∧
  (∀ s : State, Answers .challengeExpiry s (fun t => t.sec = { s.sec with challenge := none } ∧ SameBut [.sec] s t))

/-- Sanitize (R320-R322, Table 10.10): refused while the group's parity covers the slice; else the unit enters Quiesce and the command
completes at once; with no started command left, every key is renewed and the map is empty; its end, once the checkpoint is complete, leaves
Quiesce, and a block erase leaves every band erased but those that hold images. -/
def Obligations.Sanitize : Prop :=
  (∀ (s : State) (cid : Nat) (p : Instr × Nat), p ∈ [(Instr.sanitizeCryptoErase cid, 1), (.sanitizeBlockErase cid, 2)] → AdminServes s →
    sliceCovered s = false → s.sec.sanitize = 0 → s.cst.mode.io = true → s.hif.format = none → (∃ x ∈ s.hif.slots, x.2.started = true) →
    Answers p.1 s (fun t => t.cst.mode = .quiesce ∧ t.sec.sanitize = p.2 ∧ t.sec.sanitizeStep = 1 ∧ t.hif.sanitizeLog = 2
      ∧ t.out = s.out ++ adminCqe s cid 0 0 0 ∧ t.map.segs = s.map.segs)) ∧
  (∀ (s : State) (cid : Nat) (p : Instr × Nat), p ∈ [(Instr.sanitizeCryptoErase cid, 1), (.sanitizeBlockErase cid, 2)] → AdminServes s →
    sliceCovered s = false → s.sec.sanitize = 0 → s.cst.mode.io = true → s.hif.format = none → (∀ x ∈ s.hif.slots, x.2.started = false) →
    s.thm.mramCut = false →
    Answers p.1 s (fun t => t.cst.mode = .quiesce ∧ t.sec.sanitize = p.2 ∧ t.sec.sanitizeStep = 4 ∧ t.map.segs = [] ∧ t.map.pool = [] ∧ t.map.log = []
      ∧ t.flt.fnk = 0 ∧ (∀ x ∈ t.map.dir, s.sec.draws ≤ x.2.key) ∧ t.out = s.out ++ adminCqe s cid 0 0 0)) ∧
  (∀ (s : State) (cid : Nat), AdminServes s → sliceCovered s = true → ∀ c ∈ [Instr.sanitizeCryptoErase cid, .sanitizeBlockErase cid],
    s.sec.sanitize = 0 → Answers c s (fun t => t.sec.sanitize = 0 ∧ t.map = s.map ∧ t.cst.mode = s.cst.mode ∧ SameBut [.regs, .sys, .hif, .lnt, .out] s t)) ∧
  (∀ s : State, s.sec.sanitizeStep = 4 → s.cst.mode = .quiesce → s.map.running = none →
    (s.sec.sanitize = 1 → Answers .sanitizeEnd s (fun t => t.sec = { s.sec with sanitize := 0, sanitizeStep := 0 } ∧ t.hif.sanitizeLog = 1 ∧ t.cst.mode.io = true
      ∧ SameBut [.regs, .sys, .hif, .sec, .cst, .lnt] s t)) ∧
    (s.sec.sanitize = 2 → Answers .sanitizeEnd s (fun t => t.sec.sanitize = 0 ∧ t.cst.mode.io = true
      ∧ (∀ p ∈ t.bnd.bands, p.2.st = .retired ∨ (p.2.st = .free ∧ p.2.erasedAll = true)
          ∨ (p.1 < s.bnd.sysBands ∧ ∃ e ∈ t.bnd.sysAt, e.2.band = p.1))
      ∧ (∀ p ∈ t.bnd.pages, p.2.band < s.bnd.sysBands) ∧ t.map.dir = s.map.dir ∧ t.map.running ≠ none))) ∧
  (∀ s : State, s.sec.sanitizeStep = 4 → s.map.running ≠ none → Answers .sanitizeEnd s (fun t => t = s)) ∧
  (∀ s : State, s.sec.sanitize = 0 → Answers .sanitizeEnd s (fun t => t = s))

/-- SPDM (R314-R316, R319, R370): a Security Send hands its request to SEC, and a request that was not collected is replaced; the response
is formed from one snapshot and goes to the Security Receive that waits, or to the next; a Receive that waited too long ends with Command
Sequence Error; with the identity key disabled nothing is signed; the certificate chain waits for its bank. -/
def Obligations.Spdm : Prop :=
  (∀ (s : State) (cid : Nat) (r : SpdmReq), adminOpen s = true → CqRoom 0 s → s.cst.mode ≠ .dark → fld s SEC_CFG 0 0 = 1 →
    Answers (.securitySend cid 0xE8 r) s (fun t => t.sec = { s.sec with spdm := .forming r } ∧ t.out = s.out ++ adminCqe s cid 0 0 0
      ∧ SameBut [.hif, .sec, .out] s t)) ∧
  (∀ (s : State) (cid : Nat), adminOpen s = true → CqRoom 0 s → fld s SEC_CFG 0 0 = 1 →
    (∀ b, s.sec.spdm = .ready b → Answers (.securityReceive cid 0xE8) s (fun t => t.sec = { s.sec with spdm := .idle, spdmWait := none }
      ∧ t.out = s.out ++ .spdm cid b :: adminCqe s cid 0 0 0 ∧ SameBut [.hif, .sec, .out] s t)) ∧
    (∀ r, s.sec.spdm = .forming r → s.sec.spdmWait = none → Answers (.securityReceive cid 0xE8) s (fun t =>
      t.sec = { s.sec with spdmWait := some cid } ∧ SameBut [.hif, .sec] s t)) ∧
    Answers (.securityReceive cid 0) s (fun t => t.out = s.out ++ .adminData cid [0, 0, 0, 0, 0, 0, 0, 2, 0, 0xE8] :: adminCqe s cid 0 0 0
      ∧ SameBut [.hif, .out] s t)) ∧
  (∀ (s : State) (cid : Nat), CqRoom 0 s → s.sec.spdmWait = some cid →
    Answers (.spdmReceiveTimeout cid) s (fun t => t.sec = { s.sec with spdmWait := none } ∧ t.out = s.out ++ adminCqe s cid 0 0x0C 0
      ∧ SameBut [.hif, .sec, .lnt, .out] s t)) ∧
  (∀ (s : State) (r : SpdmReq), s.sec.spdm = .forming r → chainWaits s r = true → Answers .spdmResponseReady s (fun t => t = s)) ∧
  (∀ (s : State) (r : SpdmReq), s.sec.spdm = .forming r → chainWaits s r = false →
    (s.sec.spdmWait = none → Answers .spdmResponseReady s (fun t => t.sec = { s.sec with spdm := .ready (spdmResponse s r) } ∧ t.freeCtr = s.freeCtr + 1
      ∧ SameBut [.sec, .freeCtr] s t)) ∧
    (∀ cid, s.sec.spdmWait = some cid → CqRoom 0 s → Answers .spdmResponseReady s (fun t => t.sec = { s.sec with spdm := .idle, spdmWait := none }
      ∧ t.out = s.out ++ .spdm cid (spdmResponse s r) :: adminCqe s cid 0 0 0 ∧ SameBut [.hif, .sec, .out, .freeCtr] s t))) ∧
  (∀ (s : State) (slot ix : Nat), s.sec.idDisabled = true →
    spdmResponse s (.challenge slot) = spdmError 5 0 ∧ spdmResponse s (.getMeasurements ix true) = spdmError 5 0) ∧
  (∀ (s : State) (slot off len ix code : Nat) (sg : Bool), fld s SEC_CFG 0 0 = 1 → s.cst.mode ≠ .dark → s.cst.mode ≠ .halt →
    (∀ p ∈ [(Instr.getVersion, SpdmReq.getVersion), (.getCapabilities, .getCapabilities), (.negotiateAlgorithms, .negotiateAlgorithms),
        (.getDigests, .getDigests), (.challenge slot, .challenge slot), (.getMeasurements ix sg, .getMeasurements ix sg),
        (.spdmUnsupportedRequest code, .unsupported code)],
      Answers p.1 s (fun t => t.sec = { s.sec with spdm := .forming p.2 } ∧ SameBut [.sec] s t)) ∧
    Answers (.getCertificate slot off len) s (fun t => t.sec = { s.sec with spdm := .forming (.getCertificate slot off len) }
      ∧ SameBut [.regs, .sys, .sec, .cst, .lnt] s t))

/-- What targets report (R46, R162, R177, R180, R182, R184, R185, R187, R245, R389): a program unit that passes makes its transferred pages
passed; a block whose last target passes is Erased and its channel leaves the band's erase; a suspend ordered stops the operation; a sense
that ends makes its read ready for a slot; the result of a carrier that no longer speaks is dropped and counted; an operation past the
profile maximum is counted once; nothing is collected in a held tick, from a channel that stands still, or past the eighth transfer of a
tick. -/
def Obligations.TargetStatuses : Prop :=
  (∀ (s : State) (ch target b unit : Nat) (o : TOp), tgtAt s ch target = some o → o.op = .prog b unit → o.suspended = none → o.nested = none →
    portSpeaks s (ch / 4) = true → collects s ch = true → s.mbr.rebuild = none →
    Answers (.programStatus ch target true) s (fun t => tgtAt t ch target = none
      ∧ (∀ k p, mget s.bnd.pages k = some p → p.band = b → p.ch = ch → p.unit s = unit → p.st = .transferred →
          ∃ p', mget t.bnd.pages k = some p' ∧ p'.st = .passed ∧ p'.lbas = p.lbas)
      ∧ SameBut [.regs, .flc, .bnd] s t)) ∧
  (∀ (s : State) (ch target b : Nat) (chs : List Nat) (o : TOp), tgtAt s ch target = some o → o.op = .erase b → o.suspended = none → o.nested = none →
    portSpeaks s (ch / 4) = true → collects s ch = true → (blkOf s ch b).st = .erasing → mget s.bnd.erasing b = some chs → dropFrom chs ch ≠ [] →
    (∀ i x, i < s.flc.profile.tpb → setOf s b * s.flc.profile.tpb + i ≠ target → tgtAt s ch (setOf s b * s.flc.profile.tpb + i) = some x → x.op ≠ .erase b) →
    Answers (.eraseStatus ch target true) s (fun t => tgtAt t ch target = none
      ∧ blkOf t ch b = { blkOf s ch b with st := .erased, ptr := 0, refine := 0 } ∧ mget t.bnd.erasing b = some (dropFrom chs ch)
      ∧ SameBut [.flc, .bnd] s t)) ∧
  (∀ (s : State) (ch target : Nat) (o : TOp), tgtAt s ch target = some o → o.ordered = true → collects s ch = true → s.tck.senses = [] →
    Answers (.suspendStatus ch target) s (fun t =>
      tgtAt t ch target = some { o with ordered := false, suspended := some s.tck.now, busy := o.busy + (s.tck.now - o.since)
                                        count := o.count + 1, progIn := false }
      ∧ (∀ k, k ≠ tgtKey ch target → mget t.flc.targets k = mget s.flc.targets k)
      ∧ mget t.flc.dqUse ch = some (mgetD s.flc.dqUse ch 0 + 1) ∧ SameBut [.flc] s t)) ∧
  (∀ (s : State) (rid key : Nat) (o : TOp) (r : Rd), senseTarget s rid = some key → mget s.flc.targets key = some o → o.nested = none →
    portSpeaks s (key / 128) = true → collects s (key / 32) = true → mget s.flc.reads rid = some r → r.phase = .sensing → r.sense = rid →
    Answers (.senseComplete rid) s (fun t => mget t.flc.reads rid = some { r with phase := .ready } ∧ mget t.flc.targets key = none
      ∧ (∀ k, k ≠ key → mget t.flc.targets k = mget s.flc.targets k) ∧ SameBut [.flc] s t)) ∧
  (∀ (s : State) (ch target b unit : Nat) (o : TOp) (pass : Bool), tgtAt s ch target = some o → o.op = .prog b unit → o.suspended = none → o.nested = none →
    portSpeaks s (ch / 4) = false → collects s ch = true →
    Answers (.programStatus ch target pass) s (fun t => tgtAt t ch target = none ∧ t.bnd = s.bnd
      ∧ rg t MBR_STALE_DROP_CNT = Nat.min (rg s MBR_STALE_DROP_CNT + 1) 0xFFFFFFFF ∧ SameBut [.regs, .sys, .flc, .mbr, .lnt] s t)) ∧
  (∀ (s : State) (ch target busy : Nat) (o : TOp) (a : ArrayOp) (said : Bool), tgtAt s ch target = some o → runningOp s o = some (a, busy, said) →
    (said = false → maxBusy s ch target a < busy → Answers (.flcOpOvertime ch target) s (fun t =>
      tgtAt t ch target = some (if o.nested = none then { o with overtime := true } else { o with nestedOver := true })
      ∧ rg t (FLC_OVERTIME_CNT ch) = Nat.min (rg s (FLC_OVERTIME_CNT ch) + 1) 0xFFFFFFFF
      ∧ (∀ k, k ≠ tgtKey ch target → mget t.flc.targets k = mget s.flc.targets k) ∧ SameBut [.regs, .sys, .flc, .mbr, .lnt] s t)) ∧
    (said = true ∨ busy ≤ maxBusy s ch target a → Answers (.flcOpOvertime ch target) s (fun t => t = s))) ∧
  (∀ (s : State) (ch target : Nat) (pass : Bool), collects s ch = false →
    ∀ c ∈ [Instr.programStatus ch target pass, .eraseStatus ch target pass, .suspendStatus ch target], Answers c s (fun t => t = s)) ∧
  (∀ (s : State) (ch target : Nat), tgtAt s ch target = none → ∀ c ∈ [Instr.programStatus ch target true, .programStatus ch target false,
    .eraseStatus ch target true, .eraseStatus ch target false, .suspendStatus ch target, .flcOpOvertime ch target], Answers c s (fun t => t = s))

/-- Codeword reads (R190-R192, R247, R305, R312, R196): a codeword that decodes gives its block to the Read it serves; one that fails is
sensed again with a shift from its own one bits, and after the last retry claims a soft-queue entry and is sensed for the soft decoder; an
erased one, one that the soft decoder fails and one whose tag fails go to reconstruction; a read past its deadline is reconstructed where
the row can spare it. -/
def Obligations.CodewordReads : Prop :=
  (∀ (s : State) (rid id ix : Nat) (r : Rd) (p : Page) (b : Block) (sl : Slot) (raw : Raw) (words : List WordSeen), NotFleet s → s.stm.fog = false →
    Carries s rid r p words → PlainRead s rid r → r.use = .host id ix → r.strobe = 0 → r.attempt = 0 → rid ∉ s.stm.softq →
    readsErased s raw = false → raw.pass = true → authentic s r (readPlace s r) false (readCw s r) = some b → mget s.hif.slots id = some sl →
    Answers (.readTransfer rid raw.ones raw.pass { tampered := false, mismatch := [], katFail := [] } words) s (fun t =>
      mget t.flc.reads rid = none ∧ (∃ sl', mget t.hif.slots id = some sl' ∧ mget sl'.got ix = some b ∧ sl'.status = sl.status ∧ sl'.cmd = sl.cmd)
      ∧ (∀ k, k ≠ rid → mget t.flc.reads k = mget s.flc.reads k) ∧ SameBut [.regs, .tck, .hif, .stm, .flc, .bnd, .mbr] s t)) ∧
  (∀ (s : State) (rid : Nat) (r : Rd) (p : Page) (lane : LaneSeen) (raw : Raw) (words : List WordSeen) (pf : Profile), NotFleet s →
    Carries s rid r p words → PlainRead s rid r → r.strobe = 0 → pf = pfAt s p.ch (targetOf s p.band (p.unit s)) →
    (readsErased s raw = false → raw.pass = false →
      (r.attempt < pf.retryMax → Answers (.readTransfer rid raw.ones raw.pass lane words) s (fun t =>
        mget t.flc.reads rid = some { r with phase := .waiting, attempt := r.attempt + 1
                                             shift := clampShift ((if r.attempt = 0 then refineOf s p else r.shift)
                                               + shiftStep pf.balanceGain raw.ones) }
        ∧ SameBut [.regs, .tck, .flc, .bnd, .mbr] s t)) ∧
      (pf.retryMax ≤ r.attempt → s.stm.softq.length < 4095 → Answers (.readTransfer rid raw.ones raw.pass lane words) s (fun t =>
        mget t.flc.reads rid = some { r with phase := .waiting, strobe := 1 } ∧ t.stm.softq = s.stm.softq ++ [rid] ∧ t.stm.fog = s.stm.fog
        ∧ SameBut [.regs, .tck, .stm, .flc, .bnd, .mbr] s t)) ∧
      (pf.retryMax ≤ r.attempt → 4096 ≤ s.stm.softq.length → Answers (.readTransfer rid raw.ones raw.pass lane words) s (fun t =>
        (mget t.flc.reads rid = some { r with phase := .recon } ∨ mget t.flc.reads rid = some { r with phase := .fog })
        ∧ t.stm = s.stm ∧ SameBut [.regs, .tck, .flc, .bnd, .mbr] s t))) ∧
    (readsErased s raw = true → Answers (.readTransfer rid raw.ones raw.pass lane words) s (fun t => mget t.flc.reads rid = some { r with phase := .recon }
      ∧ SameBut [.regs, .sys, .tck, .flc, .bnd, .mbr, .lnt] s t))) ∧
  (∀ (s : State) (rid : Nat) (r : Rd) (p : Page) (lane : LaneSeen) (raw : Raw) (words : List WordSeen), NotFleet s → Carries s rid r p words →
    (r.strobe = 1 → (∀ src tag mode dest x, r.use ≠ .raw src tag mode dest x) → Answers (.readTransfer rid raw.ones raw.pass lane words) s (fun t =>
      mget t.flc.reads rid = some { r with phase := .waiting, strobe := 2 } ∧ SameBut [.regs, .tck, .flc, .bnd, .mbr] s t)) ∧
    (r.strobe = 2 → (∀ src tag mode dest x, r.use ≠ .raw src tag mode dest x) → Answers (.readTransfer rid raw.ones raw.pass lane words) s (fun t =>
      (∃ r', mget t.flc.reads rid = some r' ∧ r'.phase = .softq) ∧ t.stm = s.stm ∧ SameBut [.regs, .tck, .flc, .bnd, .mbr] s t))) ∧
  (∀ (s : State) (rid : Nat) (r : Rd) (p : Page) (raw : Raw) (words : List WordSeen), NotFleet s → Carries s rid r p words → r.strobe = 0 →
    readsErased s raw = false → raw.pass = true → decrypts r = true →
    Answers (.readTransfer rid raw.ones raw.pass { tampered := true, mismatch := [], katFail := [] } words) s (fun t =>
      mget t.flc.reads rid = some { r with phase := .recon, tagFailed := true } ∧ t.hif = s.hif
      ∧ SameBut [.regs, .sys, .tck, .flc, .bnd, .mbr, .lnt] s t)) ∧
  (∀ (s : State) (rid id ix : Nat) (r : Rd) (p : Page) (sl : Slot), NotFleet s → s.stm.fog = false → s.tck.holding = false →
    mget s.flc.reads rid = some r → mget s.bnd.pages r.page = some p → r.use = .host id ix → mget s.hif.slots id = some sl →
    (∃ d ∈ s.flc.decoders, d.2 = rid) → (∀ q ∈ s.flc.reads, survives rid q.2 = false ∧ q.2.phase ≠ .fog) →
    (∀ b, authentic s r (readPlace s r) false (readCw s r) = some b →
      Answers (.softDecodeDone rid true { tampered := false, mismatch := [], katFail := [] }) s (fun t =>
        mget t.flc.reads rid = none ∧ (∃ sl', mget t.hif.slots id = some sl' ∧ mget sl'.got ix = some b) ∧ t.stm.softq = dropFrom s.stm.softq rid
        ∧ rg t FLC_G_SOFT_OK_CNT = Nat.min (rg s FLC_G_SOFT_OK_CNT + 1) 0xFFFFFFFF
        ∧ SameBut [.regs, .sys, .tck, .hif, .stm, .flc, .bnd, .mbr, .lnt] s t)) ∧
    (∀ lane, Answers (.softDecodeDone rid false lane) s (fun t => mget t.flc.reads rid = some { r with phase := .recon }
      ∧ t.stm.softq = dropFrom s.stm.softq rid ∧ SameBut [.regs, .sys, .stm, .flc, .lnt] s t))) ∧
  (∀ (s : State) (rid : Nat) (r : Rd) (p : Page) (lane : LaneSeen), NotFleet s → s.stm.fog = false →
    mget s.flc.reads rid = some r → r.late = false → r.issued ≠ 0 → r.phase ≠ .recon → r.issued + 1000 * fld s MBR_READ_DEADLINE 15 0 ≤ s.tck.now →
    PlainRead s rid r → mget s.bnd.pages r.page = some p →
    (1 + (rowOffer s r p).erased.length ≤ parityCount s → Answers (.readDeadline rid lane.tampered (lane.mismatch, lane.katFail)) s (fun t =>
      mget t.flc.reads rid = some { r with late := true, phase := .recon }
      ∧ rg t MBR_DEADLINE_CNT = Nat.min (rg s MBR_DEADLINE_CNT + 1) 0xFFFFFFFF ∧ t.hif = s.hif
      ∧ SameBut [.regs, .sys, .stm, .flc, .mbr, .lnt] s t)) ∧
    (parityCount s < 1 + (rowOffer s r p).erased.length → Answers (.readDeadline rid lane.tampered (lane.mismatch, lane.katFail)) s (fun t =>
      mget t.flc.reads rid = some { r with late := true } ∧ t.hif = s.hif ∧ SameBut [.flc] s t))) ∧
  (∀ (s : State) (rid : Nat) (raw : Raw) (lane : LaneSeen) (words : List WordSeen) (pass : Bool), NotFleet s → mget s.flc.reads rid = none →
    ∀ c ∈ [Instr.readTransfer rid raw.ones raw.pass lane words, .softDecodeDone rid pass lane, .readDeadline rid lane.tampered (lane.mismatch, lane.katFail)], Answers c s (fun t => t = s)) ∧
  (∀ (s : State) (rid : Nat) (raw : Raw) (lane : LaneSeen) (words : List WordSeen), NotFleet s → s.tck.holding = true →
    Answers (.readTransfer rid raw.ones raw.pass lane words) s (fun t => t = s))

/-- Raw reads, die temperatures, channel training (R46, R162, R193, R243, R261, R389, R397): RAW_READ queues one codeword read in class M,
whose transfer writes the codeword at its address and nothing elsewhere; a die temperature is taken for the targets that are fitted, a
carrier's for carriers with power; a training that passes makes the band's set the one in use, and a failure counts. -/
def Obligations.RawReadAndTraining : Prop :=
  (∀ (s : State) (src : Src) (tag port chpos target mode block page plane cw dest destLo destHi : Nat),
    Begins (.rawRead src tag port chpos target mode block page plane cw destLo destHi) s → dest = destLo + 2 ^ 32 * destHi → port < 9 → chpos < 4 → target < 32 → mode < 2 → plane < 4 →
    plane < s.flc.profile.planes → cw < 4 → dest % 64 = 0 → dest + (if mode = 0 then 4608 else 4128) ≤ osTop s →
    (portAt s port).powered = true → (portAt s port).st ∈ [PortSt.present, .active, .spare, .fenced] →
    bitAt (mgetD s.flc.fitted (4 * port + chpos) 0) target = true →
    block < (pfAt s (4 * port + chpos) target).blocks → page < s.flc.profile.ppb →
    (physBlk s (4 * port + chpos) (target / Nat.max 1 s.flc.profile.tpb) block).st ≠ .retired → tgtAt s (4 * port + chpos) target = none →
    Answers (.rawRead src tag port chpos target mode block page plane cw destLo destHi) s (fun t =>
      (∃ x r, mget t.flc.reads s.flc.nextRead = some r ∧ r.use = .raw src tag mode dest x ∧ r.cls = .m ∧ r.cw = cw ∧ r.phase = .waiting
        ∧ x.ch = 4 * port + chpos ∧ x.target = target ∧ x.block = block ∧ x.plane = plane ∧ x.page = page)
      ∧ t.flc = { s.flc with reads := t.flc.reads, nextRead := s.flc.nextRead + 1 }
      ∧ (∀ k, k ≠ s.flc.nextRead → mget t.flc.reads k = mget s.flc.reads k) ∧ SameBut [.sys, .flc] s t)) ∧
  (∀ (s : State) (rid tag mode dest ch tgt : Nat) (src : Src) (x : RawPlace) (r : Rd) (raw : Raw) (lane : LaneSeen), NotFleet s → Memory.wf s.mem = true →
    s.tck.holding = false → s.cst.mode ≠ .halt → mget s.flc.reads rid = some r → r.phase = .ready → r.use = .raw src tag mode dest x →
    readTarget s r = some (ch, tgt) → chanStopped s ch = false → mayTransfer s rid r ch = true → rid ∉ s.stm.softq →
    (∀ q ∈ s.flc.reads, survives rid q.2 = false) → (∀ cid, src = .admin cid → s.sys.taken.any (takenBy src tag) = true) →
    (mode = 0 → Answers (.readTransfer rid raw.ones raw.pass lane []) s (fun t =>
      (∀ i, i < 4608 → readByte t (dest + i) = (bitsToBytes (rawBits s x r.cw) 4608).getD i 0) ∧ SameMemoryOutside dest 4608 s t
      ∧ t.freeCtr = s.freeCtr + 1 ∧ Formed src tag 0 (memberBody s (x.ch / 4) false) [] s t ∧ mget t.flc.reads rid = none
      ∧ SameBut [.regs, .mem, .sys, .tck, .stm, .flc, .out, .freeCtr] s t)) ∧
    (mode ≠ 0 → readsErased s raw = false → raw.pass = true → Answers (.readTransfer rid raw.ones raw.pass lane []) s (fun t =>
      (∀ i, i < 4128 → readByte t (dest + i) = (bitsToBytes (rawDecoded s x r.cw) 4128).getD i 0) ∧ SameMemoryOutside dest 4128 s t
      ∧ Formed src tag 0 (memberBody s (x.ch / 4) false) [] s t ∧ mget t.flc.reads rid = none
      ∧ SameBut [.regs, .mem, .sys, .tck, .stm, .flc, .out, .freeCtr] s t)) ∧
    (mode ≠ 0 → readsErased s raw = false → raw.pass = false → Answers (.readTransfer rid raw.ones raw.pass lane []) s (fun t =>
      Formed src tag Ev.FLC_UNCORRECTABLE [] [] s t ∧ mget t.flc.reads rid = none
      ∧ SameBut [.regs, .sys, .tck, .stm, .flc, .lnt, .out] s t))) ∧
  (∀ (s : State) (k : Nat) (v : Int), bitAt (mgetD s.flc.fitted (k / 32) 0) (k % 32) = true → chanStopped s (k / 32) = false → dqRoom s (k / 32) = true →
    Answers (.dieTempRead ⟨[(k, v)], []⟩) s (fun t => mget t.flc.dieTemps k = some v ∧ (∀ j, j ≠ k → mget t.flc.dieTemps j = mget s.flc.dieTemps j)
      ∧ t.flc = { s.flc with dieTemps := t.flc.dieTemps, dqUse := t.flc.dqUse } ∧ SameBut [.flc] s t)) ∧
  (∀ (s : State) (m : Nat) (v : Int), m < s.mbr.ports.length → (portAt s m).powered = true →
    Answers (.dieTempRead ⟨[], [(m, v)]⟩) s (fun t => portAt t m = { portAt s m with temp := v } ∧ (∀ k, k ≠ m → portAt t k = portAt s k)
      ∧ SameBut [.mbr] s t)) ∧
  (∀ (s : State) (ch : Nat), ch < 36 → chanStopped s ch = false → s.thm.band ∉ mgetD s.flc.trained ch [] → bitAt (rg s (FLC_CFG ch)) 0 = true →
    Answers (.channelTrainingDone ch true) s (fun t => mget t.flc.trainSet ch = some s.thm.band ∧ s.thm.band ∈ mgetD t.flc.trained ch []
      ∧ mget t.thm.trainFails ch = none ∧ SameBut [.thm, .flc] s t) ∧
    Answers (.channelTrainingDone ch false) s (fun t => mget t.thm.trainFails ch = some (mgetD s.thm.trainFails ch 0 + 1) ∧ t.flc = s.flc
      ∧ SameBut (.thm :: notes) s t)) ∧
  (∀ (s : State) (ch : Nat) (pass : Bool), (s.thm.band ∈ mgetD s.flc.trained ch [] ∨ chanStopped s ch = true) →
    Answers (.channelTrainingDone ch pass) s (fun t => t = s))

/-- MAP's records and checkpoints (R20, R139, R146, R151-R153, R181, R283): a Write whose pages have passed appends one WRITE record that
maps its LBA where its codeword lies; the next record in LSN order becomes durable and is applied; the CQE follows; a checkpoint holds the
map as it started and frees the ring below it; a run that waited too long is given up, a unit that waited too long is padded; a fleet write
reads its old data first. -/
def Obligations.MapRecords : Prop :=
  (∀ (s : State) (id : Nat) (sl : Slot), s.cst.mode.runs = true → s.map.replayed = true → mget s.hif.slots id = some sl → sl.cmd.kind = .write →
    sl.cmd.nlb = 1 → sl.placed = true → sl.formed = false → pagesPassed s id = true → s.map.runs = [] →
    (∀ g, gsnOf s.map.dir sl.cmd.nsid (sl.cmd.slba / 4096) = some g → (segAt (formedView s).segs g).kind ≠ .lost) →
    poolGives s (streamAt s sl.stream).holds 1 = true → ringUsed s + 128 ≤ ringBytes →
    Answers (.mapRecordForm id) s (fun t => (∃ r ∈ t.map.log, r.ty = .write ∧ t.map.lsn = r.lsn + 1 ∧ s.map.lsn ≤ r.lsn ∧ r.lsn ≤ s.map.lsn + 1 ∧ r.accept = sl.accept ∧ r.cmd = id
        ∧ (∀ g l, gsnOf s.map.dir sl.cmd.nsid (sl.cmd.slba / 4096) = some g → ownLocs s id = [(sl.cmd.slba, l)] →
            newerFormed s sl.accept sl.cmd.nsid sl.cmd.slba = false → RunOp.granularSet g (sl.cmd.slba % 4096) 1 l ∈ r.ops))
      ∧ (∀ x ∈ t.map.log, x ∈ s.map.log ∨ s.map.lsn ≤ x.lsn) ∧ t.map.durable = s.map.durable ∧ t.map.segs = s.map.segs
      ∧ mget t.hif.slots id = some { sl with formed := true, lsn := t.map.lsn } ∧ SameBut [.regs, .sys, .hif, .map, .lnt] s t)) ∧
  (∀ (s : State) (r : MapRec), s.thm.mramCut = false → s.map.log.find? (fun r => r.lsn = s.map.durable) = some r →
    Answers .mapRecordDurable s (fun t => t.map.durable = s.map.durable + 1 ∧ t.map.segs = (applyRec (dOf s) (viewOf s) r).segs
      ∧ t.map.pool = (applyRec (dOf s) (viewOf s) r).pool ∧ t.map.dir = (applyRec (dOf s) (viewOf s) r).dir ∧ t.map.log = s.map.log
      ∧ SameBut [.regs, .hif, .map, .bnd, .mbr] s t)) ∧
  (∀ (s : State) (id : Nat) (sl : Slot) (q : Sq), NotFleet s → s.flt.journal = [] → s.cst.mode.runs = true → mget s.hif.slots id = some sl → sl.cmd.kind = .write →
    sl.cmd.sq < 65536 → sl.formed = true → sl.lsn ≤ s.map.durable → rowsMet s id = true → sl.silent = false → sl.status = 0 → sl.cmd.ord = false →
    mget s.hif.sqs sl.cmd.sq = some q → CqRoom q.cq s →
    Answers (.writeCompletion id) s (fun t => mget t.hif.slots id = none
      ∧ t.out = s.out ++ cqeOut s q.cq { sq := sl.cmd.sq, cid := sl.cmd.cid, sct := 0, sc := 0, dw0 := 0 }
      ∧ mgetD t.stm.staged sl.acct 0 = mgetD s.stm.staged sl.acct 0 - (if sl.accept = 0 then 0 else sl.cmd.bytes)
      ∧ t.map = s.map ∧ SameBut [.regs, .hif, .stm, .bnd, .mbr, .lnt, .out] s t)) ∧
  (∀ (s : State) (id : Nat) (sl : Slot), mget s.hif.slots id = some sl → s.map.durable < sl.lsn → Answers (.writeCompletion id) s (fun t => t = s)) ∧
  (∀ s : State, s.map.replayed = true → s.map.running = none → s.cst.mode.runs = true → s.cst.actRunning = false →
    Answers .checkpointStart s (fun t => (∃ c, t.map.running = some c ∧ c.replayLsn = s.map.lsn ∧ c.replayAt = ringTail s ∧ c.gen = s.map.ckpt.gen + 1 ∧ c.stage = 0)
      ∧ t.map.segs = s.map.segs ∧ t.map.log = s.map.log ∧ t.map.ckpt = s.map.ckpt ∧ SameBut [.map] s t)) ∧
  (∀ (s : State) (c : Ckpt), s.map.running = some c → s.thm.mramCut = false → s.cst.mode.runs = true →
    (c.stage = 5 → c.replayLsn ≤ s.map.durable → ckptWritten s = true →
      Answers .checkpointEnd s (fun t => t.map.running = none ∧ t.map.ckpt.segs = c.segs ∧ t.map.ckpt.pool = c.pool ∧ t.map.ckpt.dir = c.dir
        ∧ t.map.ckpt.replayLsn = c.replayLsn ∧ t.map.ckpt.gen = c.gen ∧ t.map.older = some s.map.ckpt ∧ t.map.inB = !s.map.inB
        ∧ t.map.freeLsn = c.replayLsn ∧ t.map.log = s.map.log ∧ t.map.segs = s.map.segs
        ∧ rg t MAP_CKPT_CNT = Nat.min (rg s MAP_CKPT_CNT + 1) 0xFFFFFFFF ∧ SameRegsBut [MAP_CKPT_CNT] s t ∧ SameBut [.regs, .map, .bnd] s t)) ∧
    ((c.stage < 5 ∨ s.map.durable < c.replayLsn ∨ ckptWritten s = false) → Answers .checkpointEnd s (fun t => t = s))) ∧
  (∀ s : State, s.map.running ≠ none → s.map.ckptLate = false →
    Answers .mapCkptLate s (fun t => t.map = { s.map with ckptLate := true } ∧ SameRegsBut (noteRegs Ev.MAP_CKPT_LATE) s t ∧ SameBut (.map :: notes) s t)) ∧
  (∀ s : State, s.map.running = none → ∀ c ∈ [Instr.checkpointEnd, .mapCkptLate], Answers c s (fun t => t = s)) ∧
  (∀ (s : State) (gsn : Nat) (r : Run), mget s.map.runs gsn = some r →
    (fld s MAP_CFG 7 0 ≤ s.tck.tick - r.since → Answers (.extentRunGivenUp gsn) s (fun t => (∀ x, mget t.map.runs gsn = some x → x.live = false)
      ∧ (r.live = true → r.apps = [] → mget t.map.runs gsn = none) ∧ t.map.segs = s.map.segs
      ∧ SameBut [.tck, .map, .bnd] s t)) ∧
    (s.tck.tick - r.since < fld s MAP_CFG 7 0 → Answers (.extentRunGivenUp gsn) s (fun t => t = s))) ∧
  (∀ (s : State) (band unit ch since : Nat), (bandAt s band).st = .open_ → (openAt s band).closeAt = none → unitWait s band unit ch = some since →
    s.cst.mode.runs = true → s.map.runs = [] →
    (fld s FLC_G_CFG 23 16 ≤ s.tck.tick - since → unitGaps s band unit ch ≠ [] → Answers (.padWaitExpired band ⟨unit, ch⟩) s (fun t =>
      (∀ x ∈ unitGaps s band unit ch, deadPlace s band x.1 x.2.1 x.2.2.1 = false → ∃ p, pageAt t band x.1 x.2.1 x.2.2.1 = some p ∧ p.src = .pad)
      ∧ t.map = s.map ∧ SameBut [.regs, .tck, .bnd] s t)) ∧
    (s.tck.tick - since < fld s FLC_G_CFG 23 16 ∨ unitGaps s band unit ch = [] →
      Answers (.padWaitExpired band ⟨unit, ch⟩) s (fun t => t = s))) ∧
  (∀ (s : State) (id : Nat) (sl : Slot) (l : Loc), s.hif.slots = [(id, sl)] → fleetCmd s sl.cmd = true → sl.cmd.kind = .write → sl.cmd.nlb = 1 →
    sl.fleetReady = false → sl.accept ≠ 0 → sl.got = [] → sl.status = 0 → (∃ e ∈ s.hif.index, e.1 / 1024 = id ∧ e.2.entered = true) →
    (∀ e ∈ s.hif.index, e.2.entered = true) → s.flt.journal = [] → s.flt.serving = [] → s.flt.gathers = [] →
    (∀ r ∈ s.flc.reads, ∀ ix, r.2.use ≠ .fleetOld id ix) → s.cst.mode.runs = true → s.flt.fstate = .member → s.flt.m ≤ 3 →
    resolveAt s sl.accept sl.cmd.nsid sl.cmd.slba = .flash l →
    Answers (.fleetWriteStart id) s (fun t => (∃ r, mget t.flc.reads s.flc.nextRead = some r ∧ r.use = .fleetOld id 0 ∧ r.nsid = sl.cmd.nsid
        ∧ r.lba = sl.cmd.slba ∧ r.cw = l.cw) ∧ t.hif = s.hif ∧ t.flt = s.flt ∧ t.map.segs = s.map.segs
        ∧ SameRegsBut [MAP_CACHE_HIT_CNT, MAP_CACHE_MISS_CNT] s t ∧ SameBut [.regs, .flc, .map] s t))

/-- A carrier comes, is qualified, and goes (R229, R244, R246, R258, R259, Tables 8.7 and 8.11): insertion powers its port; a fault sample
ends the power sequence or takes the power back; a blank carrier waits for admission, one whose record says Active is Fenced; qualification
admits it as a Spare or removes its power; an Active or Rebuilding carrier that is removed, faults or times out is Failed with its cause and
a new generation; the end of a power sequence carries out what was latched. -/
def Obligations.MemberArrival : Prop :=
  (∀ (s : State) (m : Nat), m < 9 → s.mbr.ports.length = 9 → (portAt s m).st = .absent → s.cst.mode.runs = true →
    Answers (.memberPresenceDebounced m) s (fun t =>
      portAt t m = { portAt s m with st := .present, inserted := true, powered := true, fault := false, seq := .up }
      ∧ (∀ k, k ≠ m → portAt t k = portAt s k) ∧ SameBut [.regs, .sys, .tck, .hif, .stm, .mbr, .lnt, .out] s t)) ∧
  (∀ (s : State) (m : Nat), m < 9 → s.mbr.ports.length = 9 → (portAt s m).powered = true → (portAt s m).seq = .up →
    Answers (.memberFaultSample m false) s (fun t => portAt t m = { portAt s m with fault := false, seq := .none, training := decide ((portAt s m).st = .spare) }
      ∧ (∀ k, k ≠ m → portAt t k = portAt s k) ∧ SameBut [.mbr] s t) ∧
    Answers (.memberFaultSample m true) s (fun t => portAt t m = { portAt s m with fault := true, powered := false, training := false, seq := .down }
      ∧ (∀ k, k ≠ m → portAt t k = portAt s k) ∧ SameRegsBut (noteRegs Ev.MBR_MEMBER_FAULT) s t ∧ SameBut (.mbr :: notes) s t)) ∧
  (∀ (s : State) (m serial : Nat), m < 9 → s.mbr.ports.length = 9 → (portAt s m).st = .present → (portAt s m).powered = true →
    Answers (.memberIdentityRead m serial none) s (fun t =>
      portAt t m = (if bitAt (rg s MBR_CFG) 1 then { portAt s m with serial := serial, memb := none, admission := .auto, training := true }
        else { portAt s m with serial := serial, memb := none })
      ∧ (∀ k, k ≠ m → portAt t k = portAt s k) ∧ SameBut [.mbr] s t) ∧
    (∀ r : MembRec, r.ours = true → r.gen = (portAt s m).gen → r.port = m → r.position ≠ 0xFF → Answers (.memberIdentityRead m serial (some r)) s (fun t =>
      portAt t m = { portAt s m with serial := serial, memb := some r, st := .fenced } ∧ (∀ k, k ≠ m → portAt t k = portAt s k)
      ∧ SameBut [.regs, .sys, .tck, .hif, .stm, .mbr, .lnt, .out] s t))) ∧
  (∀ (s : State) (m : Nat) (seen : QualifySeen), m < 9 → s.mbr.ports.length = 9 → (portAt s m).st = .present → (portAt s m).powered = true →
    (portAt s m).admission = .auto → s.mbr.formatted = false →
    (seen.untrained = [] → (∀ a ∈ seen.targets, a.chpos < 4) → (∃ a ∈ seen.targets, Identified s m a) → seen.erasesOk = true →
      Answers (.memberQualifyDone m seen) s (fun t =>
        (portAt t m).st = .spare ∧ (portAt t m).admission = .none ∧ (portAt t m).answers = seen.targets ∧ (∀ k, k ≠ m → portAt t k = portAt s k)
        ∧ (∀ a ∈ seen.targets, Identified s m a → bitAt (mgetD t.flc.fitted (4 * m + a.chpos) 0) a.target = true)
        ∧ SameBut [.regs, .sys, .tck, .hif, .stm, .flc, .bnd, .mbr, .cst, .lnt, .out] s t)) ∧
    (seen.untrained ≠ [] → Answers (.memberQualifyDone m seen) s (fun t =>
      (portAt t m).st = .present ∧ (portAt t m).admission = .none ∧ (portAt t m).powered = false ∧ (portAt t m).seq = .down
      ∧ (∀ k, k ≠ m → portAt t k = portAt s k) ∧ SameBut (.flc :: .mbr :: notes) s t))) ∧
  (∀ (s : State) (m : Nat), m < 9 → s.mbr.ports.length = 9 → (portAt s m).inserted = true → (portAt s m).admission = .none →
    ((portAt s m).st = .spare → Answers (.memberRemoved m) s (fun t => (portAt t m).st = .absent ∧ (portAt t m).inserted = false
      ∧ (portAt t m).powered = false ∧ (∀ k, k ≠ m → portAt t k = portAt s k) ∧ SameBut [.regs, .sys, .tck, .hif, .stm, .mbr, .lnt, .out] s t)) ∧
    ((portAt s m).st = .active → Answers (.memberRemoved m) s (fun t => (portAt t m).st = .failed ∧ (portAt t m).cause = 2
      ∧ (portAt t m).gen = (portAt s m).gen + 1 ∧ (portAt t m).position = none ∧ (portAt t m).powered = false))) ∧
  (∀ (s : State) (m : Nat), m < 9 → s.mbr.ports.length = 9 → (portAt s m).powered = true → (portAt s m).fault = false →
    (portAt s m).st = .active ∨ (portAt s m).st = .rebuilding ∨ (portAt s m).st = .spare →
    Answers (.memberFault m) s (fun t => (portAt t m).st = .failed ∧ (portAt t m).cause = 3 ∧ (portAt t m).gen = (portAt s m).gen + 1
      ∧ (portAt t m).powered = false)) ∧
  (∀ (s : State) (m : Nat), m < 9 → s.mbr.ports.length = 9 → (portAt s m).st = .active ∨ (portAt s m).st = .rebuilding ∨ (portAt s m).st = .spare →
    (∃ x ∈ s.flc.targets, x.1 / 128 = m ∧ ∃ a busy seen, runningOp s x.2 = some (a, busy, seen)
      ∧ maxBusy s (x.1 / 32) (x.1 % 32) a + 1000000 * fld s MBR_TIMEOUT 7 0 < busy) →
    Answers (.memberTimeout m) s (fun t => (portAt t m).st = .failed ∧ (portAt t m).cause = 1 ∧ (portAt t m).gen = (portAt s m).gen + 1)) ∧
  (∀ (s : State) (m : Nat), m < 9 → s.mbr.ports.length = 9 → (portAt s m).seq ≠ .none →
    ((portAt s m).pending = none → (portAt s m).inserted = true → Answers (.powerSequenceEnd m) s (fun t =>
      portAt t m = { portAt s m with seq := .none } ∧ (∀ k, k ≠ m → portAt t k = portAt s k) ∧ SameBut [.mbr] s t)) ∧
    ((portAt s m).pending = some false → (portAt s m).inserted = true → (portAt s m).powered = true → Answers (.powerSequenceEnd m) s (fun t =>
      portAt t m = { portAt s m with seq := .down, pending := none, powered := false, training := false } ∧ (∀ k, k ≠ m → portAt t k = portAt s k)
      ∧ SameBut (.mbr :: notes) s t))) ∧
  (∀ (s : State) (m : Nat), (portAt s m).st = .absent → (portAt s m).powered = false → (portAt s m).inserted = false → (portAt s m).seq = .none →
    ∀ c ∈ [Instr.memberFaultSample m true, .memberRemoved m, .memberFault m, .memberTimeout m, .powerSequenceEnd m], Answers c s (fun t => t = s))

/-- MEMBER_MANAGE (R232, R251, R259-R261, Table 8.13): QUERY tells the port's state; ADMIT and READMIT_BLANK put the port under
qualification and complete when it ends; FAIL declares the carrier Failed with cause 0x4; POWER_ON and POWER_OFF run the power sequences and
keep the state; REBUILD takes a Spare for a position without a carrier; FORMAT_UNIT sets the geometry and leaves no band, page or mapping; a
port beyond 8 is refused. -/
def Obligations.MemberManage : Prop :=
  (∀ (s : State) (src : Src) (tag m : Nat), m < 9 → s.mbr.ports.length = 9 →
    (Begins (.memberQuery src tag m) s → Answers (.memberQuery src tag m) s (fun t => Formed src tag 0 (memberBody s m false) (match src with | .admin _ => portEntry s m | _ => []) s t
      ∧ SameBut [.sys, .out] s t)) ∧
    ((portAt s m).powered = true → (portAt s m).admission = .none →
      ((portAt s m).st = .present → Begins (.memberAdmit src tag m) s → Answers (.memberAdmit src tag m) s (fun t =>
        portAt t m = { portAt s m with admission := .request src tag, training := true }
        ∧ (∀ k, k ≠ m → portAt t k = portAt s k) ∧ SameBut [.sys, .mbr] s t)) ∧
      ((portAt s m).st = .fenced → Begins (.readmitBlank src tag m) s → Answers (.readmitBlank src tag m) s (fun t =>
        portAt t m = { portAt s m with admission := .request src tag, training := true }
        ∧ (∀ k, k ≠ m → portAt t k = portAt s k) ∧ SameBut [.sys, .mbr] s t))) ∧
    ((portAt s m).st = .active ∨ (portAt s m).st = .rebuilding ∨ (portAt s m).st = .spare → Begins (.fail src tag m) s → Answers (.fail src tag m) s (fun t =>
      (portAt t m).st = .failed ∧ (portAt t m).cause = 4 ∧ (portAt t m).gen = (portAt s m).gen + 1)) ∧
    ((portAt s m).st = .spare → (portAt s m).powered = false → (portAt s m).seq = .none → (portAt s m).pending = none →
      Begins (.powerOn src tag m) s → Answers (.powerOn src tag m) s (fun t =>
      portAt t m = { portAt s m with powered := true, fault := false, seq := .up } ∧ (∀ k, k ≠ m → portAt t k = portAt s k)
      ∧ Formed src tag 0 (memberBody t m false) [] s t ∧ SameBut [.sys, .mbr, .out] s t)) ∧
    ((portAt s m).st = .spare → (portAt s m).powered = true → (portAt s m).seq = .none → (portAt s m).pending = none →
      Begins (.powerOff src tag m) s → Answers (.powerOff src tag m) s (fun t =>
      portAt t m = { portAt s m with powered := false, training := false, seq := .down } ∧ (∀ k, k ≠ m → portAt t k = portAt s k)
      ∧ Formed src tag 0 (memberBody t m false) [] s t ∧ SameBut [.sys, .mbr, .out] s t)) ∧
    ((portAt s m).st = .spare → (portAt s m).seq = .up → (portAt s m).pending = none → Begins (.powerOff src tag m) s → Answers (.powerOff src tag m) s (fun t =>
      portAt t m = { portAt s m with pending := some false } ∧ Formed src tag 0 (memberBody t m true) [] s t ∧ SameBut [.sys, .mbr, .out] s t)) ∧
    (∀ position, position < 9 → position < positions s → (portAt s m).st = .spare → posPort s position = none → s.mbr.rebuild = none →
      s.mbr.formatted = true → Begins (.rebuild src tag m position) s → Answers (.rebuild src tag m position) s (fun t => (portAt t m).st = .rebuilding ∧ (portAt t m).position = some position
        ∧ (∃ r, t.mbr.rebuild = some r ∧ r.position = position ∧ r.port = m) ∧ mget t.mbr.posOf position = some m))) ∧
  (∀ (s : State) (src : Src) (tag geometry : Nat) (seen : List (Nat × QualifySeen)), s.cst.mode = .commissioning → geometry < 4 → hasSpare geometry = false →
    s.map.dir = [] → s.mbr.ports.length = 9 → (∀ m, m < 9 → (portAt s m).st = .present) →
    Begins (.formatUnit src tag geometry 15 seen) s → Answers (.formatUnit src tag geometry 15 seen) s (fun t => t.mbr.formatted = true ∧ t.mbr.geometry = geometry ∧ t.map.segs = [] ∧ t.map.pool = []
      ∧ t.bnd.bands = [] ∧ t.bnd.pages = [] ∧ t.bnd.ready = true ∧ t.mbr.rebuild = none
      ∧ (∀ m, m < 9 → (portAt t m).st = .active ∧ (portAt t m).gen = 1 ∧ (portAt t m).position = some m ∧ posPort t m = some m)
      ∧ SameBut [.regs, .sys, .tck, .hif, .stm, .map, .flc, .bnd, .mbr, .cst, .lnt, .out] s t)) ∧
  (∀ (s : State) (src : Src) (tag m : Nat), 9 ≤ m →
    ∀ c ∈ [Instr.memberQuery src tag m, .memberAdmit src tag m, .readmitBlank src tag m, .fail src tag m, .powerOn src tag m, .powerOff src tag m,
        .rebuild src tag m 0],
      Begins c s → Answers c s (fun t => Formed src tag Ev.MBR_PARAM_RANGE [] [] s t ∧ t.mbr = s.mbr ∧ SameBut [.regs, .sys, .lnt, .out] s t)) ∧
  (∀ (s : State) (src : Src) (tag geometry sparePort : Nat) (seen : List (Nat × QualifySeen)), geometry < 4 → sparePort < 9 → s.map.dir ≠ [] →
    Begins (.formatUnit src tag geometry sparePort seen) s → Answers (.formatUnit src tag geometry sparePort seen) s (fun t => Formed src tag Ev.MBR_FORMAT_REFUSED [] [] s t ∧ t.mbr = s.mbr ∧ t.bnd = s.bnd
      ∧ SameBut [.regs, .sys, .lnt, .out] s t))

/-- STREAM_MANAGE (R101, R103, R111-R113, R118, R123, R124, Tables 4.2 and 4.5): OPEN binds a Closed stream to a namespace; RESERVE admits
it, its completion waiting for the table that holds its slots, or refuses it, counted; RELEASE and CLOSE leave it Releasing, and when no
Write of it runs it is Open or Closed with its rate gone; a marker ring takes effect at the next frame, which MARK opens; queries change
nothing; an identifier outside 1 to 4,095 is refused. -/
def Obligations.StreamManage : Prop :=
  (∀ (s : State) (src : Src) (tag i : Nat), 1 ≤ i → i ≤ 4095 →
    (∀ nsid, (streamAt s i).st = .closed → mhas s.map.dir nsid = true → Begins (.open_ src tag i nsid) s → Answers (.open_ src tag i nsid) s (fun t =>
      streamAt t i = { st := .open_, nsid := nsid, fleet := fleetStream s i nsid } ∧ (∀ k, k ≠ i → streamAt t k = streamAt s k)
      ∧ Formed src tag 0 [1] [] s t ∧ SameBut [.sys, .stm, .out] s t)) ∧
    (∀ rate minRate burst, (streamAt s i).st = .open_ → reserveRange rate minRate burst = true → reserveCheck s i rate burst = 0 →
      s.stm.fNum ≤ s.stm.fDen → rateSum (holders s) + rate ≤ cKeep s → (∀ p ∈ s.stm.streams, p.2.fleet = false) →
      Begins (.reserve src tag i rate minRate burst) s → Answers (.reserve src tag i rate minRate burst) s (fun t => (streamAt t i).st = .admitted ∧ (streamAt t i).rate = rate
        ∧ (streamAt t i).minRate = minRate ∧ (streamAt t i).burst = burst ∧ (streamAt t i).reserved = true
        ∧ t.stm.waitTable = s.stm.waitTable ++ [(src, tag, i)] ∧ t.sys.rings = s.sys.rings ∧ t.sys.hifFormed = s.sys.hifFormed
        ∧ SameBut [.regs, .sys, .tck, .hif, .stm, .lnt, .out] s t)) ∧
    (∀ rate minRate burst, (streamAt s i).st = .open_ → reserveRange rate minRate burst = true → reserveCheck s i rate burst ≠ 0 →
      Begins (.reserve src tag i rate minRate burst) s → Answers (.reserve src tag i rate minRate burst) s (fun t => t.stm = s.stm ∧ Formed src tag (reserveCheck s i rate burst) [1] [] s t
        ∧ rg t STM_ADMIT_REFUSED_CNT = Nat.min (rg s STM_ADMIT_REFUSED_CNT + 1) 0xFFFFFFFF ∧ SameBut [.regs, .sys, .lnt, .out] s t)) ∧
    ((streamAt s i).st = .admitted → Begins (.release src tag i) s → Answers (.release src tag i) s (fun t =>
      streamAt t i = { streamAt s i with st := .releasing, toClosed := false, reserved := true } ∧ (∀ k, k ≠ i → streamAt t k = streamAt s k)
      ∧ (∀ (id : Nat) (sl : Slot), mget s.hif.slots id = some sl → sl.cmd.kind = .write → sl.started = true → sl.stream = i →
          mget t.hif.slots id = some { sl with reserved := true })
      ∧ Formed src tag 0 [3] [] s t ∧ SameBut [.sys, .tck, .hif, .stm, .map, .bnd, .out] s t)) ∧
    ((streamAt s i).st = .open_ → Begins (.close src tag i) s → Answers (.close src tag i) s (fun t =>
      streamAt t i = { streamAt s i with st := .releasing, toClosed := true, reserved := false } ∧ (∀ k, k ≠ i → streamAt t k = streamAt s k)
      ∧ Formed src tag 0 [3] [] s t ∧ SameBut [.sys, .stm, .out] s t)) ∧
    ((streamAt s i).st = .closed → Begins (.close src tag i) s → Answers (.close src tag i) s (fun t => t.stm = s.stm ∧ Formed src tag Ev.STM_STATE_CONFLICT [0] [] s t
      ∧ SameBut [.regs, .sys, .lnt, .out] s t)) ∧
    ((streamAt s i).st = .releasing → (streamAt s i).latch = none → (streamAt s i).reserved = false → releaseBusy s i = false →
      (∀ p ∈ s.bnd.opens, ¬((bandAt s p.1).kind = 1 ∧ (bandAt s p.1).stream = i)) → s.cst.mode.runs = true → Answers (.releasingEnd i) s (fun t => (streamAt t i).st = (if (streamAt s i).toClosed then .closed else .open_) ∧ (streamAt t i).rate = 0
        ∧ (streamAt t i).toClosed = false ∧ SameBut [.regs, .sys, .tck, .hif, .stm, .lnt, .out] s t)) ∧
    ((streamAt s i).st = .releasing → releaseBusy s i = true ∨ (∃ p ∈ s.bnd.opens, (bandAt s p.1).kind = 1 ∧ (bandAt s p.1).stream = i) → Answers (.releasingEnd i) s (fun t => t = s)) ∧
    (∀ mode base entries prod cons, (streamAt s i).st = .open_ →
      (Begins (.setMarkers src tag i 0 base entries prod cons) s → Answers (.setMarkers src tag i 0 base entries prod cons) s (fun t =>
        streamAt t i = { streamAt s i with mkMode := 0, mkFrame := none, mkNew := none } ∧ Formed src tag 0 [1] [] s t ∧ SameBut [.sys, .stm, .out] s t)) ∧
      (1 ≤ mode → mode ≤ 3 → base % 64 = 0 → ringEntriesOk entries = true → prod % 8 = 0 → cons % 8 = 0 → base + 32 * entries ≤ osTop s →
        prod + 8 ≤ osTop s → cons + 8 ≤ osTop s →
        Begins (.setMarkers src tag i mode base entries prod cons) s → Answers (.setMarkers src tag i mode base entries prod cons) s (fun t =>
          streamAt t i = { streamAt s i with mkNew := some (mode, base, entries, prod, cons) } ∧ Formed src tag 0 [1] [] s t
          ∧ SameBut [.sys, .stm, .out] s t))) ∧
    (∀ frame, (streamAt s i).st = .open_ → (streamAt s i).mkNew = none → (streamAt s i).mkFrame = none → markerMode true (streamAt s i).mkMode = true →
      Begins (.mark src tag i frame) s → Answers (.mark src tag i frame) s (fun t => streamAt t i = { streamAt s i with mkFrame := some (frame, s.tck.fleet, true) }
        ∧ Formed src tag 0 [1] [] s t ∧ SameBut [.sys, .stm, .out] s t)) ∧
    (Begins (.streamQuery src tag i) s → Answers (.streamQuery src tag i) s (fun t => Formed src tag 0 (stmBody s i ++ [0, 0, 0] ++ le 4 (streamAt s i).effRate
        ++ le 4 (cdiv (streamStaged s i) 1048576)) (streamEntry s i) s t ∧ SameBut [.sys, .out] s t))) ∧
  (∀ (s : State) (src : Src) (tag : Nat), Begins (.queryCeiling src tag) s →
    Answers (.queryCeiling src tag) s (fun t => Formed src tag 0 (le 4 (cAdm s) ++ le 4 (cKeep s) ++ le 4 (cFleet s) ++ le 4 (rateSum (holders s))
      ++ le 4 (scale65536 s)) [] s t ∧ SameBut [.sys, .out] s t)) ∧
  (∀ (s : State) (src : Src) (tag i nsid frame : Nat), i = 0 ∨ 4095 < i →
    ∀ c ∈ [Instr.open_ src tag i nsid, .release src tag i, .close src tag i, .mark src tag i frame],
      Begins c s → Answers c s (fun t => t.stm = s.stm ∧ Formed src tag Ev.STM_STREAM_ID_INVALID (stmBody s i) [] s t ∧ SameBut [.regs, .sys, .lnt, .out] s t))

/-- Ledger pairs (R334-R339): a fault of the standby leaves the pair Single, a fault of the primary waits for the next edge in a gap of the
plan; a restart that ends makes the pair Paired and its port available; the coordinator's failure leads to Halt, a member's Fails its port
with cause 0x5; a repair restarts a Single pair. -/
def Obligations.LedgerPairs : Prop :=
  (∀ (s : State) (n : Nat) (cause : LedgerCause), (cause = .word ∨ ∃ k, cause = .traps k ∧ fld s CPX_CFG 15 8 < k) → n < 10 → s.cpx.pairs.length = 10 → s.cst.mode.runs = true → (pairAt s n).st = .paired → (pairAt s n).primary < 2 →
    Answers (.ledgerFault n (1 - (pairAt s n).primary) cause) s (fun t => pairAt t n = { pairAt s n with st := .single }
      ∧ (∀ k, k ≠ n → pairAt t k = pairAt s k) ∧ rg t (CPX_Ln_FAULT_CNT n) = Nat.min (rg s (CPX_Ln_FAULT_CNT n) + 1) 0xFFFFFFFF
      ∧ SameBut (.cpx :: notes) s t) ∧
    Answers (.ledgerFault n (pairAt s n).primary cause) s (fun t => (pairAt s n).primary ∈ (pairAt t n).flagged ∧ (pairAt t n).st = .paired
      ∧ 1 ≤ t.tck.gap ∧ (∀ k, k ≠ n → pairAt t k = pairAt s k) ∧ SameBut (.tck :: .cpx :: notes) s t)) ∧
  (∀ (s : State) (n : Nat), n < 10 → s.cpx.pairs.length = 10 → s.mbr.ports.length = 9 → (pairAt s n).st = .restarting →
    Answers (.ledgerRestartEnd n) s (fun t => pairAt t n = { pairAt s n with st := .paired, primary := 0 } ∧ (∀ k, k ≠ n → pairAt t k = pairAt s k)
      ∧ (n < 9 → (portAt t n).unavailable = false) ∧ SameBut (.mbr :: .cpx :: notes) s t)) ∧
  (∀ s : State, s.cpx.pairs.length = 10 → (pairAt s 9).st = .restarting → Answers (.ledgerRestartTimeout 9) s (fun t => (pairAt t 9).st = .failed ∧ t.cst.mode = .halt)) ∧
  (∀ (s : State) (n : Nat), n < 9 → s.cpx.pairs.length = 10 → s.mbr.ports.length = 9 → (pairAt s n).st = .restarting → (portAt s n).st = .active →
    Answers (.ledgerRestartTimeout n) s (fun t => (pairAt t n).st = .failed ∧ (portAt t n).st = .failed ∧ (portAt t n).cause = 5)) ∧
  (∀ (s : State) (v : Word), bits v.toNat 3 0 < 10 → s.cpx.pairs.length = 10 → s.cst.mode.runs = true → (pairAt s (bits v.toNat 3 0)).st = .single →
    Answers (.ledgerRepair v) s (fun t => (pairAt t (bits v.toNat 3 0)).st = .restarting ∧ (∀ k, k ≠ bits v.toNat 3 0 → pairAt t k = pairAt s k)
      ∧ SameBut (.flc :: .mbr :: .cpx :: notes) s t)) ∧
  (∀ (s : State) (n core k : Nat), k ≤ fld s CPX_CFG 15 8 → Answers (.ledgerFault n core (.traps k)) s (fun t => t = s)) ∧
  (∀ (s : State) (n core : Nat) (cause : LedgerCause), 10 ≤ n → Answers (.ledgerFault n core cause) s (fun t => t = s) ∧ Answers (.ledgerRestartEnd n) s (fun t => t = s)
    ∧ Answers (.ledgerRestartTimeout n) s (fun t => t = s))

/-- The Mover and MEM (R328, R351-R355): a channel that is not enabled keeps the descriptor it takes; an enabled idle one copies the bytes
of a good descriptor and nothing elsewhere; its end is counted and frees the channel; a store of fewer than 8 bytes to protected memory
faults and writes nothing. -/
def Obligations.Mover : Prop :=
  (∀ (s : State) (ch : Nat) (desc : List Byte) (words : List WordSeen), ch < 64 → bitAt (rg s (MOV_CHn_CFG ch)) 0 = false →
    Answers (.transfer ch ⟨desc, words⟩) s (fun t => (movAt t ch).taken = (movAt s ch).taken ++ [((movAt s ch).count, padTo 64 desc, words)]
      ∧ (movAt t ch).count = (movAt s ch).count + 1 ∧ (movAt t ch).busy = (movAt s ch).busy ∧ (∀ k, k ≠ ch → movAt t k = movAt s k) ∧ SameBut [.mov] s t)) ∧
  (∀ (s : State) (ch src dst len : Nat) (desc : List Byte) (words : List WordSeen), (∀ w ∈ words, ∃ d, decodeWord w.addr w.code = .clean d) → 32 ≤ ch → ch < 64 → bitAt (rg s (MOV_CHn_CFG ch)) 0 = true → (movAt s ch).busy = false →
    (movAt s ch).taken = [] → s.tck.holding = false → s.cst.mode ≠ .dark → s.cst.mode ≠ .beacon → Memory.wf s.mem = true → descBad ch (padTo 64 desc) = none →
    fieldAt (padTo 64 desc) 8 8 = src → fieldAt (padTo 64 desc) 16 8 = dst → fieldAt (padTo 64 desc) 24 4 = len → fieldAt (padTo 64 desc) 28 1 = 0 →
    len ≤ 4096 → src + len ≤ 0x0CC0000000 → dst + len ≤ 0x0CC0000000 →
    Answers (.transfer ch ⟨desc, words⟩) s (fun t => (∀ i, i < len → readByte t (dst + i) = readByte s (src + i)) ∧ SameMemoryOutside dst len s t
      ∧ (movAt t ch).busy = true ∧ (movAt t ch).bad = none ∧ (movAt t ch).taken = [] ∧ SameBut [.mem, .mov, .freeCtr] s t)) ∧
  (∀ (s : State) (ch : Nat), ch < 64 → (movAt s ch).busy = true → (movAt s ch).bad = none → (movAt s ch).taken = [] → bits (movAt s ch).event 7 6 = 0 →
    (32 ≤ ch ∨ mget s.sys.rings (32 + ch) = none) →
    Answers (.moverDescriptorEnd ch) s (fun t => (movAt t ch).busy = false ∧ (movAt t ch).count = (movAt s ch).count
      ∧ rg t MOV_DESC_CNT = Nat.min (rg s MOV_DESC_CNT + 1) 0xFFFFFFFF ∧ SameRegsBut [MOV_DESC_CNT] s t ∧ SameBut [.regs, .mov] s t)) ∧
  (∀ (s : State) (ch : Nat), (movAt s ch).busy = false → Answers (.moverDescriptorEnd ch) s (fun t => t = s)) ∧
  (∀ (s : State) (addr width : Nat), width < 8 → protectedMem addr = true →
    Answers (.memSubwordStore addr width) s (fun t => t.out = s.out ++ [.accessFault addr] ∧ SameMemory s t
      ∧ SameRegsBut (noteRegs Ev.MEM_SUBWORD_STORE) s t ∧ SameBut (.out :: notes) s t)) ∧
  (∀ (s : State) (addr width : Nat), 8 ≤ width ∨ protectedMem addr = false → Answers (.memSubwordStore addr width) s (fun t => t = s))

/-- The filter and the sessions (R268-R271, Table 9.4): a frame of no known unit, with a bad tag, or of a handshake with a session is
dropped and counted; a SEQ seen before is dropped as a replay; an older epoch is counted; HELLO, HELLO_REPLY and CONFIRM carry the handshake
to its session; a timeout ends an attempt, a retry and a rekey begin one, and the old session expires. -/
def Obligations.FleetFilterAndSessions : Prop :=
  (∀ (s : State) (f : Tfp), s.cst.mode.runs = true → peerOf s f.src = none ∨ f.tagOk = false →
    ∀ c ∈ [Instr.confirm f { secvers := [], rosterHash := 0, sliceSegs := 0 }, .heartbeat f 0 false 0, .suspect f [], .epochAccept f 1,
        .epochCommit f 1 [], .epochQuery f, .intentAck f 1 0, .busy f 1, .mirrorAck f 0 1, .done f 1, .retire f 0 1, .resolve f 1,
        .resolveReply f 0 1 true, .readReq f 0 0 1 0, .readData f 0 0 0 none, .activate f 0 0, .activateAck f, .activateCommit f,
        .activateCancel f, .fnsKey f 0, .fnsKeyAck f],
      Answers c s (fun t => rg t FLT_FILTER_DROP_CNT = Nat.min (rg s FLT_FILTER_DROP_CNT + 1) 0xFFFFFFFF
        ∧ SameRegsBut [FLT_FILTER_DROP_CNT] s t ∧ SameBut [.regs] s t)) ∧
  (∀ (s : State) (f : Tfp) (p : Nat), InSession s f p → seqOk (peerAt s p).seqHigh (peerAt s p).seqSeen f.seq = false →
    ∀ c ∈ [Instr.heartbeat f 0 false 0, .suspect f [], .epochAccept f 1, .epochQuery f, .intentAck f 1 0, .done f 1, .retire f 0 1,
        .readReq f 0 0 1 0, .activate f 0 0, .fnsKey f 0],
      Answers c s (fun t => rg t FLT_REPLAY_DROP_CNT = Nat.min (rg s FLT_REPLAY_DROP_CNT + 1) 0xFFFFFFFF
        ∧ SameRegsBut [FLT_REPLAY_DROP_CNT] s t ∧ SameBut [.regs] s t)) ∧
  (∀ (s : State) (f : Tfp) (p : Nat), PassesFilter s f p → f.epoch < s.flt.epoch →
    ∀ c ∈ [Instr.heartbeat f 0 false 0, .suspect f [], .epochAccept f 1, .intentAck f 1 0, .done f 1, .retire f 0 1, .readReq f 0 0 1 0,
        .activate f 0 0, .fnsKey f 0],
      Answers c s (fun t => rg t FLT_STALE_EPOCH_CNT = Nat.min (rg s FLT_STALE_EPOCH_CNT + 1) 0xFFFFFFFF ∧ t.flt = (Heard s f p).flt
        ∧ SameRegsBut [FLT_STALE_EPOCH_CNT] s t ∧ SameBut [.regs, .flt] s t)) ∧
  (∀ (s : State) (port : Nat), s.cst.mode.runs = true →
    (port = 0 → s.flt.ports.1.st = .up → Answers (.arpNdpFrame port true) s (fun t => t.out = s.out ++ [.arp port] ∧ SameBut [.out] s t)) ∧
    Answers (.arpNdpFrame port false) s (fun t => rg t FLT_FILTER_DROP_CNT = Nat.min (rg s FLT_FILTER_DROP_CNT + 1) 0xFFFFFFFF
      ∧ SameRegsBut [FLT_FILTER_DROP_CNT] s t ∧ SameBut [.regs] s t)) ∧
  (∀ (s : State) (f : Tfp) (h : HsChecks), s.cst.mode.runs = true → f.session ≠ 0 →
    ∀ c ∈ [Instr.hello f h, .helloReply f h], Answers c s (fun t =>
      rg t FLT_FILTER_DROP_CNT = Nat.min (rg s FLT_FILTER_DROP_CNT + 1) 0xFFFFFFFF ∧ SameRegsBut [FLT_FILTER_DROP_CNT] s t ∧ SameBut [.regs] s t)) ∧
  (∀ (s : State) (f : Tfp) (h : HsChecks) (p : Nat), s.cst.mode.runs = true → headOk s f = true → f.session = 0 → f.whole = true →
    (if s.flt.hsSecond = s.tck.now / 1000000000 then s.flt.hsCount else 0) < fld s FLT_HS_RATE 15 0 → hsOpenTo s = true → s.tck.timeSet = true →
    posOfUnit s f.src = some p →
    (h.certOk = true → h.sigOk = true → h.idOk = true → f.src ≤ s.flt.unitId → Answers (.hello f h) s (fun t =>
      peerAt t p = { peerAt s p with hsOpen := true, newSession := 0 } ∧ (∀ q, q ≠ p → peerAt t q = peerAt s q)
      ∧ t.out = s.out ++ [.handshake (portFor s 0x02 0) f.src 2] ∧ SameBut [.flt, .out] s t)) ∧
    (h.certOk = false → Answers (.hello f h) s (fun t =>
      peerAt t p = { peerAt s p with hsOpen := false, newSession := 0, hsFails := (peerAt s p).hsFails + 1 }
      ∧ (∀ q, q ≠ p → peerAt t q = peerAt s q) ∧ SameRegsBut (noteRegs Ev.FLT_HANDSHAKE_FAIL) s t ∧ SameBut (.flt :: notes) s t)) ∧
    ((peerAt s p).hsOpen = true → h.certOk = true → h.sigOk = true → h.idOk = true → (∀ v ∈ h.secvers, fld s FLT_MIN_SECVER 5 0 ≤ v) → s.flt.nextSession ≠ 0 →
      Answers (.helloReply f h) s (fun t => (peerAt t p).newSession = s.flt.nextSession ∧ (peerAt t p).session = (peerAt s p).session
        ∧ t.flt.nextSession = s.flt.nextSession + 1 ∧ (∃ body, t.out = s.out ++ [.tfp (portFor s 0x03 0) p 0x03 s.flt.nextMsg 0 0 body])
        ∧ (∃ m ∈ t.flt.msgs, m.id = s.flt.nextMsg ∧ m.peer = p ∧ m.kind = 0x03) ∧ (∀ q, q ≠ p → peerAt t q = peerAt s q)
        ∧ SameBut [.flt, .out] s t)) ∧
    ((peerAt s p).hsOpen = true → h.certOk = true → h.sigOk = true → h.idOk = true → (∃ v ∈ h.secvers, v < fld s FLT_MIN_SECVER 5 0) →
      Answers (.helloReply f h) s (fun t => (peerAt t p).hsOpen = false ∧ (peerAt t p).session = (peerAt s p).session
        ∧ (∀ q, q ≠ p → peerAt t q = peerAt s q) ∧ SameRegsBut (noteRegs Ev.FLT_HANDSHAKE_FAIL) s t ∧ SameBut (.flt :: notes) s t))) ∧
  (∀ (s : State) (f : Tfp) (b : ConfirmBody) (p : Nat), s.cst.mode.runs = true → peerOf s f.src = some p → headOk s f = true → f.session ≠ 0 →
    f.session ≠ (peerAt s p).session → f.tagOk = true → f.whole = true → (peerAt s p).hsOpen = true → (peerAt s p).newSession = 0 →
    (∀ v ∈ b.secvers, fld s FLT_MIN_SECVER 5 0 ≤ v) → s.flt.fstate = .member → s.flt.journal = [] → s.flt.candidate = none →
    Answers (.confirm f b) s (fun t => (peerAt t p).session = f.session ∧ (peerAt t p).oldSession = (peerAt s p).session ∧ (peerAt t p).seqHigh = f.seq
      ∧ (peerAt t p).hsOpen = false ∧ (peerAt t p).confirmed = true ∧ (peerAt t p).sliceSegs = b.sliceSegs ∧ (∀ q, q ≠ p → peerAt t q = peerAt s q)
      ∧ rg t FLT_SESSION_CNT = Nat.min (rg s FLT_SESSION_CNT + 1) 0xFFFFFFFF ∧ (∃ body, t.out = s.out ++ [.tfp (portFor s 0x03 0) p 0x03 s.flt.nextMsg f.msgId 0 body])
      ∧ SameRegsBut (FLT_SESSION_CNT :: noteRegs Ev.FLT_SESSION_OPEN) s t ∧ SameBut (.flt :: .out :: notes) s t)) ∧
  (∀ (s : State) (p : Nat), s.cst.mode.runs = true → hsOpenTo s = true → s.tck.timeSet = true → portUp s = true → liveAt s p = true →
    (peerAt s p).hsOpen = false → p ≠ s.flt.position → unitAt s p ≠ 0xFFFF → s.flt.unitId < unitAt s p →
    ∀ c ∈ [if (peerAt s p).session = 0 then Instr.handshakeRetry p else .sessionRekey p], Answers c s (fun t =>
      peerAt t p = { peerAt s p with hsOpen := true, newSession := 0 } ∧ (∀ q, q ≠ p → peerAt t q = peerAt s q)
      ∧ t.out = s.out ++ [.handshake (portFor s 0x01 0) (unitAt s p) 1] ∧ SameBut [.flt, .out] s t)) ∧
  (∀ (s : State) (p : Nat),
    ((peerAt s p).hsOpen = true → Answers (.handshakeTimeout p) s (fun t =>
      peerAt t p = { peerAt s p with hsOpen := false, newSession := 0, hsFails := (peerAt s p).hsFails + 1 }
      ∧ (∀ q, q ≠ p → peerAt t q = peerAt s q) ∧ (∀ m ∈ s.flt.msgs, m.kind ≠ 0x03 → m ∈ t.flt.msgs) ∧ SameBut [.flt] s t)) ∧
    ((peerAt s p).hsOpen = false → Answers (.handshakeTimeout p) s (fun t => t = s)) ∧
    ((peerAt s p).oldSession ≠ 0 → Answers (.oldSessionExpiry p) s (fun t =>
      peerAt t p = { peerAt s p with oldSession := 0, oldHigh := 0, oldSeen := [] } ∧ (∀ q, q ≠ p → peerAt t q = peerAt s q) ∧ SameBut [.flt] s t)))

/-- Heartbeats, suspicion and epochs (R273-R278): a heartbeat updates the sender's credit and slice; every live peer with a session is sent
one; a silent peer is suspected and reported to the leader, who proposes its removal; a proposal is recorded and accepted once; an
acceptance short of a majority is counted; a commit brings the epoch and the roster, and fences a unit that it leaves out; a message is sent
again until its answer comes. -/
def Obligations.FleetEpochs : Prop :=
  (∀ (s : State) (f : Tfp) (p : Nat), Passes s f p →
    (∀ credit activating segs, leads s = false → s.flt.journal = [] → Answers (.heartbeat f credit activating segs) s (fun t =>
      peerAt t p = { peerAt (Heard s f p) p with credit := credit, activating := activating, actHeard := s.tck.now, sliceSegs := segs }
      ∧ (∀ q, q ≠ p → peerAt t q = peerAt s q) ∧ SameBut [.flt] s t)) ∧
    (∀ q, q ≠ p → q ≠ s.flt.position → liveAt s q = true → silentHalf s q = true → s.flt.proposal = none → leads s = true → inGroup s = true →
      2 ≤ s.flt.roster.length → Answers (.suspect f [q]) s (fun t =>
        t.flt.proposal = some { epoch := s.flt.epoch + 1, change := { removed := [q], added := none }, accepts := [s.flt.position], own := true }
        ∧ t.flt.epoch = s.flt.epoch ∧ t.flt.roster = s.flt.roster ∧ SameBut [.flt, .out] s t)) ∧
    (leads s = false → liveAt s (leaderPos s) = true → leaderPos s ≠ s.flt.position → ∀ l, Answers (.suspect f l) s (fun t =>
      t.flt = (Heard s f p).flt ∧ SameBut [.flt] s t)) ∧
    (∀ epoch c, s.flt.epoch < epoch → inGroup s = true → s.flt.proposal = none → s.flt.position ∉ c.removed → s.thm.mramCut = false →
      (∀ q ∈ c.removed, q ≠ p ∧ silentHalf s q = true) →
      (s.flt.recorded = none ∨ s.flt.recorded = some (epoch, c) → Answers (.epochPropose f epoch c) s (fun t => t.flt.recorded = some (epoch, c)
        ∧ t.flt.epoch = s.flt.epoch ∧ t.out = s.out ++ [.tfp (portFor s 0x13 0) p 0x13 s.flt.nextMsg f.msgId epoch [epoch]] ∧ SameBut [.flt, .out] s t)) ∧
      (∀ c', c' ≠ c → s.flt.recorded = some (epoch, c') → Answers (.epochPropose f epoch c) s (fun t => t.flt = (Heard s f p).flt ∧ SameBut [.flt] s t))) ∧
    (∀ q : Proposal, s.flt.proposal = some q → q.own = true → (addTo q.accepts p).length < s.flt.roster.length / 2 + 1 →
      Answers (.epochAccept f q.epoch) s (fun t => t.flt.proposal = some { q with accepts := addTo q.accepts p } ∧ t.flt.epoch = s.flt.epoch
        ∧ t.flt.roster = s.flt.roster ∧ SameBut [.flt] s t)) ∧
    Answers (.epochQuery f) s (fun t => t.flt.epoch = s.flt.epoch ∧ t.flt.roster = s.flt.roster
      ∧ t.out = s.out ++ [.tfp (portFor s 0x14 0) p 0x14 s.flt.nextMsg f.msgId 0 (msgBody s p 0x14 0 0)] ∧ SameBut [.flt, .out] s t)) ∧
  (∀ (s : State) (f : Tfp) (p epoch : Nat) (roster : List RosterEntry), PassesFilter s f p → f.whole = true →
    (s.flt.epoch < epoch → inGroup s = true → (∀ e ∈ roster, e.unitId ≠ s.flt.unitId) → Answers (.epochCommit f epoch roster) s (fun t =>
      t.flt.fstate = .fenced ∧ t.flt.epoch = epoch ∧ t.flt.roster = roster ∧ t.flt.peers = [] ∧ t.flt.proposal = none)) ∧
    (s.flt.epoch < epoch → s.flt.fstate = .member → (∃ e ∈ roster, e.unitId = s.flt.unitId) → (∀ e ∈ s.flt.roster, ∃ x ∈ roster, x.unitId = e.unitId) →
      s.flt.journal = [] → s.flt.act = none → s.flt.pendingDeclare = none → NotFleet s → (∀ q, (peerAt s q).suspected = false) →
      Answers (.epochCommit f epoch roster) s (fun t => t.flt.epoch = epoch ∧ t.flt.roster = roster ∧ t.flt.fstate = .member
        ∧ SameBut [.regs, .sys, .hif, .flt, .cst, .lnt, .out] s t)) ∧
    (epoch ≤ s.flt.epoch → Answers (.epochCommit f epoch roster) s (fun t => t.flt.epoch = s.flt.epoch ∧ t.flt.roster = s.flt.roster
      ∧ t.flt.fstate = s.flt.fstate ∧ SameBut [.flt] s t))) ∧
  (∀ s : State, s.cst.mode.runs = true → inGroup s = true → portUp s = true → Answers .heartbeatSend s (fun t =>
    (∀ p ∈ livePeers s, (peerAt s p).session ≠ 0 → ∃ id body, Out.tfp (portFor s 0x10 0) p 0x10 id 0 0 body ∈ t.out) ∧ t.flt.msgs = s.flt.msgs
    ∧ t.flt.epoch = s.flt.epoch ∧ SameBut [.flt, .out] s t)) ∧
  (∀ (s : State) (q : Nat), s.cst.mode.runs = true → inGroup s = true → s.flt.fstate ≠ .isolated → q ∈ livePeers s → (livePeers s).Nodup →
    2 ≤ (livePeers s).length → (∀ r ∈ livePeers s, (peerAt s r).suspected = false) → (peerAt s q).activating = false →
    (peerAt s q).heardNow + suspectNs s ≤ s.tck.now → liveAt s (leaderPos s) = true → leaderPos s ≠ s.flt.position → leaderPos s ≠ q →
    portUp s = true → (peerAt s (leaderPos s)).session ≠ 0 →
    Answers (.peerSuspect q) s (fun t => (peerAt t q).suspected = true ∧ t.flt.fstate = s.flt.fstate
      ∧ (∃ body, t.out = s.out ++ [.tfp (portFor s 0x11 0) (leaderPos s) 0x11 s.flt.nextMsg 0 0 body]) ∧ SameRegsBut (noteRegs Ev.FLT_PEER_SUSPECT) s t
      ∧ SameBut (.flt :: .out :: notes) s t)) ∧
  (∀ (s : State) (q : Nat), (peerAt s q).suspected = true → Answers (.peerSuspect q) s (fun t => t = s)) ∧
  (∀ (s : State) (q : Proposal), s.cst.mode.runs = true → s.flt.proposal = some q → q.own = true → 2 ≤ s.flt.roster.length →
    Answers .epochProposeRetry s (fun t =>
      t.flt.proposal = some { epoch := q.epoch + 1, change := q.change, accepts := [s.flt.position], own := true } ∧ t.flt.epoch = s.flt.epoch
      ∧ SameBut [.flt, .out] s t)) ∧
  (∀ (s : State) (m : Msg), s.cst.mode.runs = true → s.flt.msgs.find? (fun x => x.id = m.id) = some m →
    (carries s m.peer m.kind = false → Answers (.retransmit m.id) s (fun t => t = s)) ∧
    (carries s m.peer m.kind = true → Answers (.retransmit m.id) s (fun t =>
      t.out = s.out ++ [.tfp (portFor s m.kind (msgStripe s m.kind m.seqNo)) m.peer m.kind m.id 0 m.seqNo (msgBody s m.peer m.kind m.seqNo m.part)]
      ∧ t.flt.msgs = s.flt.msgs ∧ rg t FLT_RETX_CNT = Nat.min (rg s FLT_RETX_CNT + 1) 0xFFFFFFFF ∧ SameRegsBut [FLT_RETX_CNT] s t
      ∧ SameBut [.regs, .flt, .out] s t)) ∧
    Answers (.windowExpired m.id) s (fun t => (peerAt t m.peer).expired = (peerAt s m.peer).expired + 1 ∧ t.flt.msgs = s.flt.msgs
      ∧ rg t FLT_WINDOW_EXPIRE_CNT = Nat.min (rg s FLT_WINDOW_EXPIRE_CNT + 1) 0xFFFFFFFF
      ∧ SameRegsBut (FLT_WINDOW_EXPIRE_CNT :: noteRegs Ev.FLT_WINDOW_EXPIRED) s t ∧ SameBut (.flt :: notes) s t)) ∧
  (∀ (s : State) (id : Nat), s.flt.msgs.find? (fun x => x.id = id) = none →
    Answers (.retransmit id) s (fun t => t = s) ∧ Answers (.windowExpired id) s (fun t => t = s))

/-- The keeper protocol (R274, R282-R287, Tables 9.5 and 9.6): an intent is journalled and mirrored at its relief, or answered BUSY on a
locked stripe; its acknowledgement lets the data unit program; MIRROR, MIRROR_ACK, DONE, RETIRE and RESOLVE carry the entries to their end;
READ_REQ is answered with the element and READ_DATA hands one in; a resync asks for k elements. -/
def Obligations.KeeperProtocol : Prop :=
  (∀ (s : State) (f : Tfp) (p : Nat), Passes s f p →
    (∀ b : IntentBody, s.flt.slice ≠ none → kOf s ≤ posElem s b.stripe s.flt.position → posElem s b.stripe p = b.index → b.index < kOf s →
      b.delta.length = b.count → b.offset + b.count ≤ 4096 → s.thm.mramCut = false →
      (∀ j ∈ s.flt.journal, ¬(j.role = .keeper ∧ j.writer = f.src ∧ j.seqNo = b.seqNo)) →
      (b.count * 4096 ≤ keepFree s → s.flt.journal.length < 65536 → b.stripe ∉ s.flt.locks → s.flt.resolving = [] → notRebuilt s b.stripe = false →
        (∀ j ∈ s.flt.journal, j.role = .keeper → j.acked = true) →
        reliefPos s b.stripe (posElem s b.stripe s.flt.position - kOf s) ≠ s.flt.position →
        (peerAt s (reliefPos s b.stripe (posElem s b.stripe s.flt.position - kOf s))).session ≠ 0 → Answers (.intent f b) s (fun t =>
          t.flt.journal = s.flt.journal ++ [{ role := .keeper, st := .intended, writer := f.src, seqNo := b.seqNo, stripe := b.stripe
                                              offset := b.offset, count := b.count, index := b.index
                                              keeperJ := posElem s b.stripe s.flt.position - kOf s, epoch := s.flt.epoch, delta := some b.delta }]
          ∧ (∃ body, Said (reliefPos s b.stripe (posElem s b.stripe s.flt.position - kOf s)) 0x22 s.flt.nextMsg 0 b.seqNo body s t)
          ∧ SameBut [.flt, .out] s t)) ∧
      (b.stripe ∈ s.flt.locks → Answers (.intent f b) s (fun t => t.flt.journal = s.flt.journal
        ∧ Said p 0x26 s.flt.nextMsg f.msgId b.seqNo [b.seqNo] s t ∧ rg t FLT_BUSY_CNT = Nat.min (rg s FLT_BUSY_CNT + 1) 0xFFFFFFFF
        ∧ SameRegsBut (FLT_BUSY_CNT :: noteRegs Ev.FLT_KEEPER_BUSY) s t ∧ SameBut (.flt :: .out :: notes) s t))) ∧
    (∀ (j : Journal) (sl : Slot) (credit : Nat), s.flt.journal = [j] → j.role = .own → elemPos s j.stripe (kOf s + j.keeperJ) = p → j.acked = false →
      mget s.hif.slots j.cmd = some sl → Answers (.intentAck f j.seqNo credit) s (fun t => t.flt.journal = [{ j with acked := true }]
        ∧ (peerAt t p).credit = credit ∧ (∃ sl', mget t.hif.slots j.cmd = some sl' ∧ sl'.fleetReady = true ∧ sl'.cmd = sl.cmd)
        ∧ SameBut [.regs, .sys, .tck, .hif, .map, .bnd, .flt, .lnt, .out] s t)) ∧
    (∀ seqNo, (∃ m ∈ s.flt.msgs, m.kind = 0x20 ∧ m.seqNo = seqNo ∧ m.peer = p) → Answers (.busy f seqNo) s (fun t =>
      seqNo ∈ t.flt.resends ∧ (∀ m ∈ t.flt.msgs, ¬(m.kind = 0x20 ∧ m.seqNo = seqNo ∧ m.peer = p)) ∧ t.flt.journal = s.flt.journal
      ∧ SameBut [.flt] s t)) ∧
    (∀ (keeperIndex writer : Nat) (b : IntentBody), (∀ j ∈ s.flt.journal, j.writer ≠ writer) → b.delta.length = b.count → b.count * 4096 ≤ keepFree s →
      s.flt.journal.length < 65536 → s.thm.mramCut = false → Answers (.mirror f keeperIndex writer b) s (fun t =>
        t.flt.journal = s.flt.journal ++ [{ role := .relief, st := .intended, writer := writer, seqNo := b.seqNo, stripe := b.stripe
                                            offset := b.offset, count := b.count, index := b.index, keeperJ := keeperIndex, epoch := s.flt.epoch
                                            delta := some b.delta }]
        ∧ Said p 0x23 s.flt.nextMsg f.msgId b.seqNo [writer, b.seqNo] s t ∧ SameBut [.flt, .out] s t)) ∧
    (∀ (j : Journal) (w : Nat), s.flt.journal = [j] → j.role = .keeper → reliefPos s j.stripe j.keeperJ = p → j.acked = false → j.delta ≠ none →
      s.flt.resolving = [] → posOfUnit s j.writer = some w → (peerAt s w).session ≠ 0 → Answers (.mirrorAck f j.writer j.seqNo) s (fun t =>
        t.flt.journal = [{ j with mirrored := true, acked := true }] ∧ (∃ body, Said w 0x21 s.flt.nextMsg 0 j.seqNo body s t)
        ∧ rg t FLT_INTENT_CNT = Nat.min (rg s FLT_INTENT_CNT + 1) 0xFFFFFFFF ∧ SameRegsBut [FLT_INTENT_CNT] s t ∧ SameBut [.regs, .flt, .out] s t)) ∧
    (∀ j : Journal, s.flt.journal = [j] → j.role = .keeper → j.writer = f.src → j.st = .intended → j.delta = none → s.hif.slots = [] →
      s.flt.serving = [] → s.thm.mramCut = false → Answers (.done f j.seqNo) s (fun t => t.flt.journal = [{ j with st := .done }] ∧ SameBut [.flt] s t)) ∧
    (∀ j : Journal, s.flt.journal = [j] →
      (j.role = .own → elemPos s j.stripe (kOf s + j.keeperJ) = p → Answers (.retire f j.writer j.seqNo) s (fun t =>
        t.flt.journal = [] ∧ SameBut [.flt] s t)) ∧
      (j.role = .keeper → ∀ w n, Answers (.retire f w n) s (fun t => t.flt.journal = [j] ∧ SameBut [.flt] s t)) ∧
      (j.role = .own → Answers (.resolve f j.seqNo) s (fun t => t.flt.journal = [j]
        ∧ Said p 0x31 s.flt.nextMsg f.msgId j.seqNo [s.flt.unitId, j.seqNo, b2n (decide (j.st = .programmed))] s t
        ∧ SameBut [.flt, .out] s t)) ∧
      (j.role = .keeper → j.writer = f.src → s.thm.mramCut = false → Answers (.resolveReply f j.writer j.seqNo false) s (fun t => t.flt.journal = []
        ∧ t.flt.resolving = dropFrom s.flt.resolving j.seqNo ∧ (∃ port id body, Out.tfp port p 0x25 id 0 j.seqNo body ∈ t.out) ∧ SameBut [.flt, .out] s t)) ∧
      (j.role = .keeper → j.writer = f.src → j.delta = none → s.hif.slots = [] → s.flt.serving = [] → s.thm.mramCut = false →
        Answers (.resolveReply f j.writer j.seqNo true) s (fun t => t.flt.journal = [{ j with st := .done }]
          ∧ t.flt.resolving = dropFrom s.flt.resolving j.seqNo ∧ SameBut [.flt] s t))) ∧
    (∀ stripe offset count element, s.flt.slice = none ∨ 4096 < offset + count → Answers (.readReq f stripe offset count element) s (fun t =>
      t.out = s.out ++ [.tfpData (portFor s 0x41 stripe) p f.msgId none] ∧ SameBut [.flt, .out] s t)) ∧
    (∀ nsid stripe offset count element, s.flt.slice = some nsid → posElem s stripe s.flt.position = element → kOf s ≤ element → 0 < count →
      offset + count ≤ 4096 → stripe < s.flt.sliceSegs → staleElem s stripe element = false → notRebuilt s stripe = false → p ≠ s.flt.position →
      (∀ i, i < count → resolve s nsid (elemLba s stripe + offset + i) = .zeros) → s.flt.journal = [] → s.hif.slots = [] → s.flt.serving = [] →
      Answers (.readReq f stripe offset count element) s (fun t => t.out = s.out ++ [.tfpData (portFor s 0x41 stripe) p f.msgId (some (List.replicate count 0))]
        ∧ t.flt.serving = [] ∧ t.map.segs = s.map.segs ∧ SameRegsBut [MAP_CACHE_HIT_CNT, MAP_CACHE_MISS_CNT] s t ∧ SameBut [.regs, .map, .flt, .out] s t)) ∧
    (∀ (m : Msg) (g : Gather) (bs : List Block), answeredBy f s = some m → m.kind = 0x40 → m.peer = p → mget s.flt.gathers m.seqNo = some g →
      m.part ∈ g.asked → m.part ∉ g.bad → g.got = [] → bs.length = g.count → 1 < kOf s → s.flt.journal = [] → s.hif.slots = [] →
      s.flt.serving = [] → Answers (.readData f g.stripe g.offset m.part (some bs)) s (fun t =>
        mget t.flt.gathers m.seqNo = some { g with got := [(m.part, bs)] } ∧ (∀ k, k ≠ m.seqNo → mget t.flt.gathers k = mget s.flt.gathers k)
        ∧ (∀ x ∈ t.flt.msgs, x.id ≠ m.id) ∧ SameBut [.flt] s t))) ∧
  (∀ (s : State) (f : Tfp) (p keeperIndex writer seqNo : Nat) (b : IntentBody) (c : Change) (done : Bool), Passes s f p → s.thm.mramCut = true →
    ∀ m ∈ [Instr.epochPropose f seqNo c, .intent f b, .mirror f keeperIndex writer b, .done f seqNo, .resolveReply f writer seqNo done],
      Answers m s (fun t => t.flt = (Heard s f p).flt ∧ SameBut [.flt] s t)) ∧
  (∀ (s : State) (seqNo : Nat), s.cst.mode.runs = true → Answers (.intentResend seqNo) s (fun t => t.flt.resends = dropFrom s.flt.resends seqNo
    ∧ t.flt.journal = s.flt.journal ∧ SameBut [.flt, .out] s t)) ∧
  (∀ (s : State) (stripe element : Nat), s.cst.mode.runs = true → inGroup s = true → s.flt.slice ≠ none → kOf s ≤ element →
    (stripe, element - kOf s, false) ∈ s.flt.stale → elemPos s stripe element = s.flt.position → stripe ∈ s.flt.locks → s.flt.resyncs = [] →
    s.flt.journal = [] → s.hif.slots = [] → s.flt.serving = [] → s.flt.gathers = [] → kOf s ≤ 32 → 0 < kOf s →
    kOf s ≤ (usable s stripe element []).length → (∀ e ∈ usable s stripe element [], elemPos s stripe e ≠ s.flt.position) →
    Answers (.resyncReadStart stripe element) s (fun t =>
      t.flt.resyncs = [(s.flt.gather, { stripe := stripe, element := element, rebuild := false })] ∧ t.flt.locks = s.flt.locks
      ∧ (∃ g, mget t.flt.gathers (s.flt.gather + 1) = some g ∧ g.stripe = stripe ∧ g.want = element ∧ g.asked.length = kOf s)
      ∧ SameBut [.flt, .out] s t)) ∧
  (∀ (s : State) (stripe element : Nat), stripe ∉ s.flt.locks → Answers (.resyncReadStart stripe element) s (fun t => t = s))

/-- FLEET_MANAGE, activation and the fleet key (R269, R278, R279, R288-R290, R292, R313, Table 9.7): a unit without a certificate refuses;
ENROLL takes unit and group from the certificate; FORM and REPLACE begin the handshakes; BIND binds a slice; PROXY_CREATE makes a namespace
and PROXY_DELETE drops it; DECLARE proposes a removal that a timeout gives up; RESYNC locks what is Stale; an activation is armed on every
unit, committed and cancelled; FNS_KEY brings the key. -/
def Obligations.FleetManage : Prop :=
  (∀ (s : State) (src : Src) (tag : Nat),
    (Begins (.fleetQuery src tag) s → Answers (.fleetQuery src tag) s (fun t => Formed src tag 0 (fltBody s) [] s t ∧ SameBut [.sys, .out] s t)) ∧
    (s.flt.fstate = .none → ∀ c ∈ [Instr.form src tag 0 3 1 0, .bind src tag 1 1, .proxyCreate src tag 0, .proxyDelete src tag 1, .replace src tag 0 0,
        .declare src tag 0, .resync src tag, .fleetActivate src tag 0 0, .cancelActivate src tag],
      Begins c s → Answers c s (fun t => Formed src tag Ev.FLT_NOT_ENROLLED (fltBody s) [] s t ∧ SameBut [.regs, .sys, .lnt, .out] s t)) ∧
    (∀ certAddr sigOk idOk, fltAddrOk s certAddr 512 = true → s.tck.timeSet = true → s.flt.fstate = .none ∨ s.flt.fstate = .enrolled →
      Begins (.enroll src tag certAddr sigOk idOk) s →
      (sigOk = false → Answers (.enroll src tag certAddr sigOk idOk) s (fun t => Formed src tag Ev.FLT_CERT_INVALID (fltBody s) [] s t
        ∧ SameBut [.regs, .sys, .lnt, .out] s t)) ∧
      (∀ c, readBytes s certAddr 512 = c → sigOk = true → idOk = true → s.sec.otpOwner ≠ none → fieldAt c 0 2 = 1 → fieldAt c 8 16 = s.sec.serial →
        fieldAt c 72 8 ≤ s.tck.fleet → s.tck.fleet ≤ fieldAt c 80 8 → fieldAt c 6 2 = 0 → fieldAt c 88 328 = 0 → fieldAt c 2 2 < 16384 →
        fieldAt c 4 2 < 512 → Answers (.enroll src tag certAddr sigOk idOk) s (fun t =>
          t.flt = { s.flt with fstate := .enrolled, unitId := fieldAt c 2 2, group := fieldAt c 4 2, certSerial := fieldAt c 8 16 }
          ∧ Formed src tag 0 (fltBody t) [] s t ∧ SameBut [.sys, .flt, .out] s t))) ∧
    (∀ n m rosterAddr me, s.flt.fstate = .enrolled → 3 ≤ n → n ≤ 32 → 1 ≤ m → m ≤ 4 → m + 2 ≤ n → fltAddrOk s rosterAddr (48 * n) = true →
      rosterOk (parseRoster s rosterAddr n) n = true → (parseRoster s rosterAddr n).find? (fun e => e.unitId = s.flt.unitId) = some me →
      Begins (.form src tag s.flt.group n m rosterAddr) s → Answers (.form src tag s.flt.group n m rosterAddr) s (fun t => t.flt.fstate = .forming ∧ t.flt.n = n ∧ t.flt.m = m
        ∧ t.flt.position = me.position ∧ t.flt.roster = parseRoster s rosterAddr n ∧ t.flt.epoch = 0 ∧ t.flt.pendingForm = some (src, tag)
        ∧ SameBut [.sys, .flt, .out] s t)) ∧
    (∀ group n m rosterAddr, s.flt.fstate = .enrolled → n < 3 ∨ 32 < n → Begins (.form src tag group n m rosterAddr) s →
      Answers (.form src tag group n m rosterAddr) s (fun t =>
      Formed src tag Ev.FLT_PARAM_RANGE (fltBody s) [] s t ∧ SameBut [.regs, .sys, .lnt, .out] s t)) ∧
    (∀ nsid keep, s.flt.fstate = .member → s.flt.slice = none → 1 ≤ nsid → nsid ≤ 1024 → 1 ≤ keep → keep ≤ 4095 →
      Begins (.bind src tag nsid keep) s →
      (∀ x : Ns, mget s.map.dir nsid = some x → x.proxyOf = none → nsHolds s x = false → x.segs % Nat.max 1 s.flt.n = 0 →
        (∀ q ∈ livePeers s, (peerAt s q).sliceSegs = 0 ∨ (peerAt s q).sliceSegs = x.segs) → (streamAt s keep).st = .admitted →
        (streamAt s keep).nsid = nsid → s.flt.replacing = false → Answers (.bind src tag nsid keep) s (fun t => t.flt.slice = some nsid
          ∧ t.flt.keepStream = keep ∧ t.flt.sliceSegs = x.segs ∧ t.flt.fstate = .member
          ∧ mget t.map.dir nsid = some { x with fleet := some (s.flt.n, s.flt.m, s.flt.position) }
          ∧ (∀ k, k ≠ nsid → mget t.map.dir k = mget s.map.dir k) ∧ (streamAt t keep).fleet = false
          ∧ (∀ i, i ≠ 0 → i ≠ keep → (streamAt s i).nsid = nsid → (streamAt s i).st ≠ .closed → (streamAt t i).fleet = true)
          ∧ SameBut [.regs, .sys, .tck, .hif, .stm, .map, .flt, .sec, .cst, .lnt, .out] s t)) ∧
      (mget s.map.dir nsid = none → Answers (.bind src tag nsid keep) s (fun t => Formed src tag Ev.FLT_BIND_REFUSED (fltBody s) [] s t
        ∧ SameBut [.regs, .sys, .lnt, .out] s t))) ∧
    (∀ position nsid, s.flt.fstate = .member → position < s.flt.n → liveAt s position = false → s.flt.slice ≠ none → freeNsid s = some nsid →
      Begins (.proxyCreate src tag position) s → Answers (.proxyCreate src tag position) s (fun t =>
        mget t.map.dir nsid = some { groups := [], segs := s.flt.sliceSegs, proxyOf := some position, fleet := some (s.flt.n, s.flt.m, position) }
        ∧ (∀ k, k ≠ nsid → mget t.map.dir k = mget s.map.dir k) ∧ SameBut [.regs, .sys, .hif, .map, .lnt, .out] s t)) ∧
    (∀ nsid x, s.flt.fstate ≠ .none → mget s.map.dir nsid = some x → x.proxyOf ≠ none → x.groups = [] →
      Begins (.proxyDelete src tag nsid) s → Answers (.proxyDelete src tag nsid) s (fun t => mget t.map.dir nsid = none)) ∧
    (∀ nsid x, s.flt.fstate ≠ .none → mget s.map.dir nsid = some x → x.proxyOf = none →
      Begins (.proxyDelete src tag nsid) s → Answers (.proxyDelete src tag nsid) s (fun t =>
      Formed src tag Ev.FLT_STATE_CONFLICT (fltBody s) [] s t ∧ SameBut [.regs, .sys, .lnt, .out] s t)) ∧
    (∀ position rosterAddr others, s.flt.fstate = .enrolled ∨ s.flt.fstate = .fenced → s.flt.slice = none → position ≤ 31 →
      fltAddrOk s rosterAddr 1536 = true →
      others = ((parseRoster s rosterAddr 32).takeWhile (fun e => !(e.unitId = 0 && e.position = 0 && e.addrA = 0 && e.addrB = 0))).filter
        (fun e => e.unitId ≠ s.flt.unitId) → others ≠ [] → (∀ e ∈ others, e.position ≠ position) →
      rosterOk others (Nat.max s.flt.n (((position :: others.map (·.position)).foldl Nat.max 0) + 1)) = true →
      Begins (.replace src tag position rosterAddr) s → Answers (.replace src tag position rosterAddr) s (fun t => t.flt.fstate = .forming ∧ t.flt.replacing = true ∧ t.flt.position = position
        ∧ t.flt.roster = others ∧ t.flt.epoch = 0 ∧ t.flt.journal = [] ∧ t.flt.fnk = 0
        ∧ (∃ r, Formed src tag 0 (fltBody t) [] r t ∧ r.sys.rings = s.sys.rings ∧ r.sys.hifFormed = s.sys.hifFormed) ∧ SameBut [.sys, .flt, .out] s t)) ∧
    (∀ position, inGroup s = true → leads s = true → position < s.flt.n → liveAt s position = true → position ≠ s.flt.position →
      s.flt.proposal = none → s.flt.pendingDeclare = none → 2 ≤ s.flt.roster.length →
      Begins (.declare src tag position) s → Answers (.declare src tag position) s (fun t =>
        t.flt.pendingDeclare = some (src, tag, position)
        ∧ t.flt.proposal = some { epoch := s.flt.epoch + 1, change := { removed := [position], added := none }, accepts := [s.flt.position], own := true }
        ∧ t.flt.epoch = s.flt.epoch ∧ SameBut [.sys, .flt, .out] s t)) ∧
    (inGroup s = true → Begins (.resync src tag) s → Answers (.resync src tag) s (fun t => (∀ x ∈ s.flt.stale, x.2.2 = false → elemPos s x.1 (kOf s + x.2.1) = s.flt.position →
        x.1 ∈ t.flt.locks) ∧ (∀ n ∈ s.flt.locks, n ∈ t.flt.locks) ∧ Formed src tag 0 (fltBody s) [] s t ∧ SameBut [.sys, .flt, .out] s t)) ∧
    (∀ actTime digest, s.tck.fleet + 1000000000 ≤ actTime → inGroup s = true → leads s = true → s.flt.act = none → holdsImage s digest ≠ none →
      mhas s.tck.alarms 3 = false → livePeers s ≠ [] →
      Begins (.fleetActivate src tag actTime digest) s → Answers (.fleetActivate src tag actTime digest) s (fun t =>
        t.flt.act = some { time := actTime, digest := digest, leader := true } ∧ mget t.tck.alarms 3 = some (actTime, .flt)
        ∧ SameBut [.regs, .sys, .tck, .flt, .lnt, .out] s t)) ∧
    (∀ a : FleetAct, s.flt.fstate ≠ .none → s.flt.act = some a → a.leader = true → Begins (.cancelActivate src tag) s → Answers (.cancelActivate src tag) s (fun t => t.flt.act = none
      ∧ t.tck.alarms = s.tck.alarms.filter (fun x => x.2.2 ≠ .flt) ∧ SameBut [.regs, .sys, .tck, .flt, .lnt, .out] s t))) ∧
  (∀ (s : State) (src : Src) (tag position : Nat), s.flt.pendingDeclare = some (src, tag, position) →
    (∀ cid, src = .admin cid → s.sys.taken.any (takenBy src tag) = true) → Answers .declareTimeout s (fun t =>
    t.flt.pendingDeclare = none ∧ t.flt.proposal = none ∧ t.flt.epoch = s.flt.epoch ∧ Formed src tag Ev.FLT_STATE_CONFLICT (fltBody s) [] s t
    ∧ SameBut [.regs, .sys, .flt, .lnt, .out] s t)) ∧
  (∀ (s : State) (f : Tfp) (p : Nat), Passes s f p →
    (∀ actTime digest, s.flt.act = none → holdsImage s digest ≠ none → s.tck.fleet < actTime → mhas s.tck.alarms 3 = false →
      Answers (.activate f actTime digest) s (fun t => t.flt.act = some { time := actTime, digest := digest, leader := false }
        ∧ mget t.tck.alarms 3 = some (actTime, .flt) ∧ t.out = s.out ++ [.tfp (portFor s 0x51 0) p 0x51 s.flt.nextMsg f.msgId 0 []]
        ∧ SameRegsBut (noteRegs Ev.FLT_ACTIVATION_ARMED) s t ∧ SameBut (.tck :: .flt :: .out :: notes) s t)) ∧
    (∀ a : FleetAct, s.flt.act = some a → a.leader = true → a.commit = false → Answers (.activateAck f) s (fun t =>
      t.flt.act = some { a with acks := addTo a.acks p, commit := (livePeers s).all (addTo a.acks p).contains } ∧ SameBut [.flt, .out] s t)) ∧
    (∀ a : FleetAct, s.flt.act = some a → a.leader = false →
      Answers (.activateCommit f) s (fun t => t.flt.act = some { a with commit := true } ∧ SameBut [.flt] s t) ∧
      Answers (.activateCancel f) s (fun t => t.flt.act = none ∧ t.tck.alarms = s.tck.alarms.filter (fun x => x.2.2 ≠ .flt)
        ∧ SameRegsBut (noteRegs Ev.FLT_ACTIVATION_CANCELLED) s t ∧ SameBut (.tck :: .flt :: notes) s t)) ∧
    (∀ key, Answers (.fnsKey f key) s (fun t => t.flt.fnk = key ∧ t.out = s.out ++ [.tfp (portFor s 0x61 0) p 0x61 s.flt.nextMsg f.msgId 0 []]
      ∧ SameBut [.regs, .flt, .sec, .cst, .out] s t)) ∧
    Answers (.fnsKeyAck f) s (fun t => p ∈ t.flt.fnkHeld ∧ t.flt.fnk = s.flt.fnk ∧ SameBut [.flt] s t)) ∧
  (∀ (s : State) (a : FleetAct), s.cst.mode.runs = true → s.flt.act = some a →
    (a.commit = false → a.leader = false → a.time ≤ s.tck.fleet + 100000000 → Answers .activationDeadline s (fun t => t.flt.act = none
      ∧ t.tck.alarms = s.tck.alarms.filter (fun x => x.2.2 ≠ .flt) ∧ SameRegsBut (noteRegs Ev.FLT_ACTIVATION_CANCELLED) s t
      ∧ SameBut (.tck :: .flt :: notes) s t)) ∧
    (a.commit = true → Answers .activationDeadline s (fun t => t = s)))

/-- Fleet ports (R259, R266, R294): setting PORT_EN starts an Off port's link, clearing it drains an Up one; a request against a running
sequence is latched and carried out at its end; a link that is lost starts again; a started link is Up. -/
def Obligations.FleetPorts : Prop :=
  (∀ (s : State) (p : Nat), p < 2 → s.cst.mode.runs = true → bits (rg s FLT_CFG) 31 16 ≠ 0 → 10 ≤ bits (rg s FLT_CFG) 15 8 →
    bits (rg s FLT_CFG) 15 8 ≤ 200 → (fport s p).pending = none → (fport s p).starting = false →
    (bitAt (rg s FLT_CFG) p = false → (fport s p).st = .off → Answers (.portEnable p) s (fun t => fport t p = { fport s p with starting := true }
      ∧ fport t (1 - p) = fport s (1 - p) ∧ bitAt (rg t FLT_CFG) p = true ∧ bitAt (rg t FLT_CFG) (1 - p) = bitAt (rg s FLT_CFG) (1 - p)
      ∧ SameRegsBut [FLT_CFG] s t ∧ SameBut [.regs, .flt] s t)) ∧
    (bitAt (rg s FLT_CFG) p = false → (fport s p).st = .draining → Answers (.portEnable p) s (fun t => fport t p = { fport s p with pending := some true }
      ∧ fport t (1 - p) = fport s (1 - p) ∧ bitAt (rg t FLT_CFG) p = true ∧ SameRegsBut [FLT_CFG] s t ∧ SameBut [.regs, .flt] s t)) ∧
    (bitAt (rg s FLT_CFG) p = true → (fport s p).st = .up → Answers (.portDisable p) s (fun t => fport t p = { fport s p with st := .draining }
      ∧ fport t (1 - p) = fport s (1 - p) ∧ bitAt (rg t FLT_CFG) p = false ∧ SameBut [.regs, .sys, .tck, .hif, .stm, .flt, .lnt, .out] s t))) ∧
  (∀ (s : State) (p : Nat), p < 2 →
    ((fport s p).st = .draining → (fport s p).pending = none → Answers (.portDrainEnd p) s (fun t => fport t p = { fport s p with st := .off, lost := false }
      ∧ fport t (1 - p) = fport s (1 - p) ∧ SameBut [.flt] s t)) ∧
    ((fport s p).st = .draining → (fport s p).pending = some true → (fport s p).starting = false → Answers (.portDrainEnd p) s (fun t =>
      fport t p = { fport s p with st := .off, lost := false, starting := true, pending := none } ∧ fport t (1 - p) = fport s (1 - p)
      ∧ SameRegsBut (noteRegs Ev.FLT_PENDING_DONE) s t ∧ SameBut (.flt :: notes) s t)) ∧
    ((fport s p).st = .up → Answers (.fltPortDown p) s (fun t => fport t p = { fport s p with st := .off, starting := true, lost := true }
      ∧ fport t (1 - p) = fport s (1 - p) ∧ SameBut [.regs, .sys, .tck, .hif, .stm, .flt, .lnt, .out] s t)) ∧
    ((fport s p).starting = true → (fport s p).pending = none → Answers (.fleetPortLinkUp p) s (fun t =>
      fport t p = { fport s p with st := .up, starting := false, lost := false } ∧ fport t (1 - p) = fport s (1 - p)
      ∧ SameBut [.regs, .sys, .tck, .hif, .stm, .flt, .lnt, .out] s t))) ∧
  (∀ (s : State) (p : Nat), 2 ≤ p → ∀ c ∈ [Instr.portEnable p, .portDisable p, .portDrainEnd p, .fltPortDown p, .fleetPortLinkUp p],
    Answers c s (fun t => t = s))

/-- The Beacon protocol (R380-R383, Tables 12.13, 12.14): each request of a new sequence number is carried out and answered, one with the
last number is answered again; a transfer is begun, filled and ended by one peer; an image that fails its checks is erased and one that
passes is Active; the Commissioning messages read and write registers and take descriptors; other modes stay silent; an idle transfer is
discarded. -/
def Obligations.BeaconProtocol : Prop :=
  (∀ (s : State) (peer n : Nat), beaconServes s = true → s.cst.lastSeq ≠ some (peer, n) →
    Answers (.discover peer n) s (fun t => t.out = s.out ++ [.beacon peer n 0 (announce s)]
      ∧ t.cst = { s.cst with lastSeq := some (peer, n), lastAnswer := (0, announce s) } ∧ SameBut [.cst, .out] s t) ∧
    (∀ slot manifest, s.cst.transfer = none →
      ((parseImage manifest).formatOk = true → beaconSlot s slot (parseImage manifest).kind = true → Answers (.begin_ peer n slot manifest) s (fun t =>
        t.cst.transfer = some { peer := peer, slot := slot, img := parseImage manifest, pieces := [], at_ := t.tck.now }
        ∧ t.out = s.out ++ [.beacon peer n 0 []] ∧ ((parseImage manifest).kind ≠ 3 → SameBut [.cst, .out] s t)
        ∧ SameBut [.regs, .sys, .tck, .map, .flc, .bnd, .mbr, .cst, .lnt, .out, .freeCtr] s t)) ∧
      ((parseImage manifest).formatOk = false → Answers (.begin_ peer n slot manifest) s (fun t => t.cst.transfer = none
        ∧ t.out = s.out ++ [.beacon peer n Ev.CST_IMAGE_FORMAT []] ∧ SameRegsBut (noteRegs Ev.CST_IMAGE_FORMAT) s t
        ∧ SameBut (.cst :: .out :: notes) s t))) ∧
    (∀ (x : Transfer) slot manifest, s.cst.transfer = some x → x.peer ≠ peer → Answers (.begin_ peer n slot manifest) s (fun t =>
      t.cst.transfer = some x ∧ t.out = s.out ++ [.beacon peer n Ev.CST_BUSY []] ∧ SameBut (.cst :: .out :: notes) s t)) ∧
    (∀ (x : Transfer) offset piece, s.cst.transfer = some x → x.peer = peer → offset + piece.length ≤ slotBytes x.slot →
      (pieceClash x.pieces offset piece = false → x.pieces ≠ [] → Answers (.data peer n offset piece) s (fun t =>
        t.cst.transfer = some { x with pieces := x.pieces ++ [(offset, piece)], at_ := s.tck.now } ∧ t.out = s.out ++ [.beacon peer n 0 []]
        ∧ rg t CST_PROG_CNT = Nat.min (rg s CST_PROG_CNT + cdiv piece.length 32) 0xFFFFFFFF ∧ t.cst.slots = s.cst.slots
        ∧ SameRegsBut [CST_PROG_CNT] s t ∧ SameBut [.regs, .cst, .out] s t)) ∧
      (pieceClash x.pieces offset piece = false → x.pieces = [] → 1 ≤ x.slot → x.slot ≤ 5 → s.cst.slots.length = 5 →
        Answers (.data peer n offset piece) s (fun t => t.cst.transfer = some { x with pieces := [(offset, piece)], at_ := s.tck.now } ∧ slotAt t x.slot = {}
          ∧ (∀ k, k ≠ x.slot → 1 ≤ k → slotAt t k = slotAt s k) ∧ SameRegsBut [CST_PROG_CNT, CST_ERASE_CNT] s t
          ∧ SameBut [.regs, .cst, .out] s t)) ∧
      (pieceClash x.pieces offset piece = true → Answers (.data peer n offset piece) s (fun t => t.cst.transfer = some x
        ∧ t.out = s.out ++ [.beacon peer n Ev.CST_DOUBLE_PROGRAM []] ∧ t.cst.slots = s.cst.slots ∧ SameBut (.cst :: .out :: notes) s t))) ∧
    (∀ (x : Transfer) (chk : Crypt) (i : Image), s.cst.transfer = some x → x.peer = peer → 1 ≤ x.slot → x.slot ≤ 5 → s.cst.slots.length = 5 →
      i = parseImage ((List.range (1024 + x.img.len)).map (bufferByte x.pieces)) →
      (imageCheck s x.slot s.cst.settingsFmt i chk = 0 → 4 ≤ x.slot → x.queued = false → Answers (.end_ peer n chk) s (fun t =>
        t.cst = { s.cst with transfer := some { x with queued := true, at_ := s.tck.now } } ∧ t.out = s.out ∧ SameBut [.bnd, .cst] s t)) ∧
      (imageCheck s x.slot s.cst.settingsFmt i chk = 0 → x.slot < 4 ∨ x.queued = true → imageWaits s x.slot = true →
        Answers (.end_ peer n chk) s (fun t => t = s)) ∧
      (imageCheck s x.slot s.cst.settingsFmt i chk = 0 → x.slot < 4 ∨ x.queued = true → imageWaits s x.slot = false → Answers (.end_ peer n chk) s (fun t => t.cst.transfer = none ∧ t.cst.bootCount = 0
        ∧ slotAt t x.slot = { st := .active, img := some i }
        ∧ (∀ k, 1 ≤ k → k ≤ 5 → k ≠ x.slot → slotKind k = slotKind x.slot → (slotAt t k).st ≠ .active) ∧ t.out = s.out ++ [.beacon peer n 0 []]
        ∧ SameBut [.bnd, .cst, .out] s t)) ∧
      (imageCheck s x.slot s.cst.settingsFmt i chk ≠ 0 → Answers (.end_ peer n chk) s (fun t => t.cst.transfer = none ∧ slotAt t x.slot = {}
        ∧ (∀ k, k ≠ x.slot → 1 ≤ k → slotAt t k = slotAt s k)
        ∧ t.out = s.out ++ [.beacon peer n (imageCheck s x.slot s.cst.settingsFmt i chk) []] ∧ SameBut (.bnd :: .cst :: .out :: notes) s t))) ∧
    (∀ offset len, len ≤ 1024 → Answers (.lanternRead peer n offset len) s (fun t => t.out = s.out ++ [.beacon peer n 0 (lntRegion s offset len)]
      ∧ t.lnt = s.lnt ∧ SameBut [.cst, .out] s t)) ∧
    Answers (.restart peer n) s (fun t => t.cst.mode = .dark ∧ t.sys.lastReset = 1 ∧ bitAt (rg t SYS_RESET_CAUSE) 1 = true
      ∧ t.out = s.out ++ [.beacon peer n 0 []] ∧ t.sec.keyStore = false ∧ t.mem = [] ∧ t.tck = {} ∧ t.pending = s.pending) ∧
    (∀ off v, s.cst.mode = .commissioning → inSpan off = true → off % 4 = 0 →
      Answers (.regRead peer n off) s (fun t => t.out = s.out ++ [.beacon peer n 0 (le 4 (loadReg off s).1.toNat)] ∧ t.regs = s.regs
        ∧ SameBut [.latch, .sec, .cst, .freeCtr, .out] s t) ∧
      Answers (.regWrite peer n off v) s (fun t => t.out = (storeReg off v s).out ++ [.beacon peer n 0 []] ∧ t.cst.lastSeq = some (peer, n)
        ∧ SameBut [.cst, .out] (storeReg off v s) t)) ∧
    (∀ off v, s.cst.mode ≠ .commissioning → ∀ c ∈ [Instr.regRead peer n off, .regWrite peer n off v, .ring peer n []], Answers c s (fun t =>
      t.out = s.out ++ [.beacon peer n Ev.SYS_MALFORMED []] ∧ SameBut (.cst :: .out :: notes) s t)) ∧
    (∀ desc, s.cst.mode = .commissioning →
      (fieldAt (padTo 64 desc) 1 1 = 8 → descCheck 8 (padTo 64 desc) = 0 → Answers (.ring peer n desc) s (fun t => t.sys.taken = s.sys.taken ++
        [{ src := .beldy, opcode := fieldAt (padTo 64 desc) 0 2, tag := fieldAt (padTo 64 desc) 4 4, body := (padTo 64 desc).drop 8 }]
        ∧ t.cst.lastSeq = some (peer, n) ∧ t.out = s.out ∧ SameBut [.sys, .cst] s t)) ∧
      (fieldAt (padTo 64 desc) 1 1 = 5 → Answers (.ring peer n desc) s (fun t => t.out = s.out ++ [.beacon peer n Ev.SYS_OPCODE_UNKNOWN []]
        ∧ t.sys.taken = s.sys.taken ∧ SameBut (.cst :: .out :: notes) s t)))) ∧
  (∀ (s : State) (peer n offset len : Nat) (chk : Crypt) (piece : List Byte),
    (beaconServes s = true → s.cst.lastSeq = some (peer, n) → ∀ c ∈ [Instr.discover peer n, .begin_ peer n 1 piece, .data peer n offset piece,
        .end_ peer n chk, .lanternRead peer n offset len, .restart peer n, .regRead peer n offset, .regWrite peer n offset 0],
      Answers c s (fun t => t.out = s.out ++ [.beacon peer n s.cst.lastAnswer.1 s.cst.lastAnswer.2] ∧ SameBut [.out] s t)) ∧
    (beaconServes s = false → ∀ c ∈ [Instr.discover peer n, .begin_ peer n 1 piece, .data peer n offset piece, .end_ peer n chk,
        .lanternRead peer n offset len, .restart peer n, .regRead peer n offset, .regWrite peer n offset 0, .ring peer n piece],
      Answers c s (fun t => t = s))) ∧
  (∀ (s : State) (x : Transfer), s.cst.transfer = some x →
    (x.at_ + 10000000000 ≤ s.tck.now → Answers .beaconTransferIdle s (fun t => t.cst = { s.cst with transfer := none } ∧ SameBut [.bnd, .cst] s t)) ∧
    (s.tck.now < x.at_ + 10000000000 → Answers .beaconTransferIdle s (fun t => t = s))) ∧
  (∀ s : State, s.cst.transfer = none → Answers .beaconTransferIdle s (fun t => t = s))

/-- The Lantern and health (R413-R419, R424, R426, R427, Tables 14.1, 14.5, 14.7): QUERY tells SEQ and drops; FREEZE writes its record and
LNT_FROZEN and stops; THAW and MARK write theirs and CLEAR empties the slots; READ copies records; a drop is recorded once there is room;
warnings are raised once; the temperature history counts a second. -/
def Obligations.LanternAndHealth : Prop :=
  (∀ (s : State) (src : Src) (tag : Nat),
    (Begins (.lanternQuery src tag) s → Answers (.lanternQuery src tag) s (fun t => Formed src tag 0 (le 4 s.lnt.newest ++ le 4 s.lnt.frozenSeq ++ le 4 (rg s LNT_DROP_CNT)) [] s t
      ∧ SameBut [.sys, .out] s t)) ∧
    (s.lnt.frozen = true → (∀ detail, ∀ c ∈ [Instr.freeze src tag, .lanternMark src tag detail, .clear src tag], Begins c s → Answers c s (fun t =>
      Formed src tag Ev.LNT_STATE_CONFLICT [] [] s t ∧ t.lnt.recs = s.lnt.recs ∧ t.lnt.frozen = true ∧ SameBut [.regs, .sys, .lnt, .out] s t))) ∧
    (s.lnt.frozen = false → Begins (.thaw src tag) s → Answers (.thaw src tag) s (fun t => Formed src tag Ev.LNT_STATE_CONFLICT [] [] s t ∧ t.lnt.frozen = false
      ∧ SameBut [.regs, .sys, .lnt, .out] s t)) ∧
    (s.lnt.frozen = false → s.lnt.accepting = true → s.thm.mramCut = false → s.lnt.queue.length < 64 →
      (Begins (.freeze src tag) s → Answers (.freeze src tag) s (fun t => t.lnt.frozen = true ∧ t.lnt.frozenSeq = nextSeq s.lnt.seq ∧ t.lnt.seq = nextSeq (nextSeq s.lnt.seq)
        ∧ t.lnt.recs = mput (mput s.lnt.recs (s.lnt.seq % 16384) { newRec s Ev.LNT_FREEZE_REQUEST [] with seq := s.lnt.seq })
            (nextSeq s.lnt.seq % 16384) { newRec s Ev.LNT_FROZEN (le 4 s.lnt.seq) with seq := nextSeq s.lnt.seq }
        ∧ Formed src tag 0 [] [] s t ∧ SameBut [.regs, .sys, .lnt, .out] s t)) ∧
      (∀ detail, Begins (.lanternMark src tag detail) s → Answers (.lanternMark src tag detail) s (fun t => t.lnt.seq = nextSeq s.lnt.seq ∧ t.lnt.newest = s.lnt.seq
        ∧ t.lnt.recs = mput s.lnt.recs (s.lnt.seq % 16384) { newRec s Ev.LNT_MARK detail with seq := s.lnt.seq } ∧ Formed src tag 0 [] [] s t
        ∧ SameBut [.regs, .sys, .lnt, .out] s t)) ∧
      (s.cst.mode ≠ .halt → Begins (.clear src tag) s → Answers (.clear src tag) s (fun t =>
        t.lnt.recs = [(s.lnt.seq % 16384, { newRec s Ev.LNT_CLEARED [] with seq := s.lnt.seq })] ∧ t.lnt.seq = nextSeq s.lnt.seq
        ∧ Formed src tag 0 [] [] s t ∧ SameBut [.regs, .sys, .lnt, .out] s t))) ∧
    (s.lnt.frozen = true → s.cst.mode ≠ .halt → s.lnt.accepting = true → s.thm.mramCut = false → s.lnt.queue.length < 64 →
      Begins (.thaw src tag) s → Answers (.thaw src tag) s (fun t => t.lnt.frozen = false ∧ t.lnt.frozenSeq = 0
        ∧ t.lnt.recs = mput s.lnt.recs (s.lnt.seq % 16384) { newRec s Ev.LNT_THAWED (le 4 (rg s LNT_DROP_CNT)) with seq := s.lnt.seq }
        ∧ Formed src tag 0 [] [] s t ∧ SameBut [.regs, .sys, .lnt, .out] s t)) ∧
    (s.lnt.frozen = true → s.cst.mode = .halt → Begins (.thaw src tag) s → Answers (.thaw src tag) s (fun t => Formed src tag Ev.LNT_STATE_CONFLICT [] [] s t
      ∧ t.lnt.frozen = true))) ∧
  (∀ (s : State) (tag seq count dest : Nat), 1 ≤ count →
    (∀ cid, count ≤ 62 → Begins (.lanternControlRead (.admin cid) tag seq count 0) s → Answers (.lanternControlRead (.admin cid) tag seq count 0) s (fun t =>
      Formed (.admin cid) tag 0 (le 2 count) ((List.range count).flatMap (fun i => lntRecord s ((seq + i) % 2 ^ 32))) s t ∧ SameBut [.sys] s t)) ∧
    (∀ ix, count ≤ 16384 → dest % 64 = 0 → osCanWrite s dest (64 * count) = true → Memory.wf s.mem = true →
      Begins (.lanternControlRead (.ring ix) tag seq count dest) s → Answers (.lanternControlRead (.ring ix) tag seq count dest) s (fun t =>
        (∀ i j, i < count → j < 64 → readByte t (dest + 64 * i + j) = (lntRecord s ((seq + i) % 2 ^ 32)).getD j 0)
        ∧ SameMemoryOutside dest (64 * count) s t ∧ Memory.wf t.mem = true ∧ Formed (.ring ix) tag 0 (le 2 count) [] s t ∧ SameBut [.mem, .sys] s t))) ∧
  (∀ s : State, s.lnt.accepting = true → s.thm.mramCut = false → s.lnt.frozen = false → s.lnt.queue.length < 64 → s.lnt.dropped ≠ 0 →
    Answers .lntDropped s (fun t => t.lnt.dropped = 0
      ∧ mget t.lnt.recs (s.lnt.seq % 16384) = some { newRec s Ev.LNT_DROPPED (le 4 s.lnt.dropped) with seq := s.lnt.seq }
      ∧ SameRegsBut (noteRegs Ev.LNT_DROPPED) s t ∧ SameBut notes s t)) ∧
  (∀ s : State, s.lnt.dropped = 0 → Answers .lntDropped s (fun t => t = s)) ∧
  (∀ s : State, 5 ∈ s.lnt.raised → 6 ∈ s.lnt.raised → Answers .earlyWarningHourly s (fun t => t.lnt.raised = s.lnt.raised ∧ SameBut [.lnt] s t)) ∧
  (∀ (s : State) (p : Port), s.mbr.ports[0]? = some p → 100 + mgetD s.lnt.hourDeadline 0 0 ≤ p.deadlines → 5 ∉ s.lnt.raised →
    Answers .earlyWarningHourly s (fun t => 5 ∈ t.lnt.raised ∧ bitAt (rg t LNT_WARN) 5 = true ∧ mgetD t.lnt.hourDeadline 0 0 = p.deadlines
      ∧ SameBut notes s t)) ∧
  (∀ (s : State) (r : Rebuild), s.mbr.rebuild = some r → r.done ≠ 0 → 7 ∉ s.lnt.raised →
    (r.done * 86400000000000 < r.marked.length * (s.tck.now - r.startNow) → Answers .earlyWarningMinute s (fun t => t.lnt.raised = s.lnt.raised ++ [7]
      ∧ bitAt (rg t LNT_WARN) 7 = true ∧ SameRegsBut (LNT_WARN :: noteRegs 0x1017) s t ∧ SameBut notes s t)) ∧
    (r.marked.length * (s.tck.now - r.startNow) ≤ r.done * 86400000000000 → Answers .earlyWarningMinute s (fun t => t = s))) ∧
  (∀ s : State, s.mbr.rebuild = none → Answers .earlyWarningMinute s (fun t => t = s)) ∧
  (∀ s : State, s.cst.mode ≠ .dark → Answers .tempHistorySecond s (fun t =>
    mgetD t.lnt.ctrlHist (histBin (tNow s)) 0 = mgetD s.lnt.ctrlHist (histBin (tNow s)) 0 + 1
    ∧ (∀ k, k ≠ histBin (tNow s) → mget t.lnt.ctrlHist k = mget s.lnt.ctrlHist k) ∧ mgetD t.lnt.smart 7 0 = mgetD s.lnt.smart 7 0 + 1
    ∧ (tNow s < 95 → mget t.lnt.smart 10 = mget s.lnt.smart 10) ∧ t.lnt.recs = s.lnt.recs ∧ SameBut [.lnt] s t)) ∧
  (∀ s : State, s.cst.mode = .dark → Answers .tempHistorySecond s (fun t => t = s))

/-- A step takes the command at the front of the queue: it is that command's effect on the state with the rest of the queue, and an empty
queue idles (the model's choice, log entry 2). -/
def Obligations.StepRunsFront : Prop :=
  (∀ (s : State) (c : Instr) (rest : List Instr), s.pending = c :: rest → Machine.step s = exec c { s with pending := rest }) ∧
  (∀ s : State, s.pending = [] → Machine.step s = .next s)

/-- What reset leaves (R12, R13, R298, R360, R413, R436, R441): the canonical forms hold, no command waits, the unit is in Dark with nothing
sealed, no key and no command of the host, the Lantern counts from 1, and registers read their reset values. -/
def Obligations.ResetState : Prop :=
  Canonical State.reset ∧ State.reset.pending = [] ∧ State.reset.cst.mode = .dark ∧ State.reset.sys.isSealed = false
    ∧ State.reset.sec.keyStore = false ∧ State.reset.hif.slots = [] ∧ State.reset.hif.ccEn = false ∧ State.reset.mem = []
    ∧ State.reset.lnt.seq = 1 ∧ State.reset.out = [] ∧ lifecycleOf State.reset = some .blank
    ∧ rg State.reset SYS_RESET_CAUSE = 1 ∧ rg State.reset FLT_CFG = 0x1BE42800 ∧ rg State.reset FLT_HB = 0x0014000A
    ∧ rg State.reset MBR_READ_DEADLINE = 2000 ∧ rg State.reset LNT_DROP_CNT = 0

/-- Every step keeps the canonical form of the memory and of the register file, in every state, not only in those a run reaches. -/
def Obligations.StepKeepsCanonical : Prop :=
  ∀ s t : State, Canonical s → Machine.step s = .next t → Canonical t

/-- Every command answers a next state and leaves the queue as it is: no command faults, none is refused, and none sends another (the model's
choice, log entries 1 and 2). -/
def Obligations.CommandsLeaveQueue : Prop :=
  ∀ (c : Instr) (s : State), Answers c s (fun t => t.pending = s.pending)

/-- The OTP row is programmed once (R296, R302, R323): whatever step is taken, a device secret, an owner, a Daymark, the LIFECYCLE word and a
security version step that have been programmed stay as they are, and the security version never falls. -/
def Obligations.OtpFusesStay : Prop :=
  ∀ s t : State, Machine.step s = .next t →
    (∀ x, s.sec.otpSecret = some x → t.sec.otpSecret = some x) ∧ (∀ x, s.sec.otpOwner = some x → t.sec.otpOwner = some x)
      ∧ (s.sec.otpDaymark = true → t.sec.otpDaymark = true) ∧ (s.sec.otpLifecycle = true → t.sec.otpLifecycle = true)
      ∧ (∀ i, i < 64 → s.sec.steps.getD i false = true → t.sec.steps.getD i false = true) ∧ secver s ≤ secver t
end

