-- ==== Sys2Proof/Laws/FramesCore.lean ====
section
/-! SUPPORT. Frames of the shared operations: which parts of the state each one leaves as they are (setup registers, memory, events, clocks, the Lantern, the map, streams). -/

namespace Sys2Proof.Machine

set_option linter.unusedTactic false
set_option linter.unreachableTactic false
set_option linter.unusedSimpArgs false


@[simp] theorem forAll_pending {α : Type} (l : List α) (f : α → State → State) (s : State) (h : ∀ x s, (f x s).pending = s.pending) :
    (forAll l f s).pending = s.pending := by
  unfold forAll
  induction l generalizing s with
  | nil => rfl
  | cons x xs ih => simp only [List.foldl_cons]; rw [ih, h]
@[simp] theorem doIf_pending (c : Bool) (f : State → State) (s : State) (h : (f s).pending = s.pending) :
    (doIf c f s).pending = s.pending := by
  unfold doIf; split <;> simp [h]
@[simp] theorem ite_pending (c : Prop) [Decidable c] (a b : State) : (if c then a else b).pending = if c then a.pending else b.pending := by
  split <;> rfl

@[simp] theorem forAll_regs {α : Type} (l : List α) (f : α → State → State) (s : State) (h : ∀ x s, (f x s).regs = s.regs) :
    (forAll l f s).regs = s.regs := by
  unfold forAll
  induction l generalizing s with
  | nil => rfl
  | cons x xs ih => simp only [List.foldl_cons]; rw [ih, h]
@[simp] theorem doIf_regs (c : Bool) (f : State → State) (s : State) (h : (f s).regs = s.regs) :
    (doIf c f s).regs = s.regs := by
  unfold doIf; split <;> simp [h]
@[simp] theorem ite_regs (c : Prop) [Decidable c] (a b : State) : (if c then a else b).regs = if c then a.regs else b.regs := by
  split <;> rfl

@[simp] theorem forAll_latch {α : Type} (l : List α) (f : α → State → State) (s : State) (h : ∀ x s, (f x s).latch = s.latch) :
    (forAll l f s).latch = s.latch := by
  unfold forAll
  induction l generalizing s with
  | nil => rfl
  | cons x xs ih => simp only [List.foldl_cons]; rw [ih, h]
@[simp] theorem doIf_latch (c : Bool) (f : State → State) (s : State) (h : (f s).latch = s.latch) :
    (doIf c f s).latch = s.latch := by
  unfold doIf; split <;> simp [h]
@[simp] theorem ite_latch (c : Prop) [Decidable c] (a b : State) : (if c then a else b).latch = if c then a.latch else b.latch := by
  split <;> rfl

@[simp] theorem forAll_mem {α : Type} (l : List α) (f : α → State → State) (s : State) (h : ∀ x s, (f x s).mem = s.mem) :
    (forAll l f s).mem = s.mem := by
  unfold forAll
  induction l generalizing s with
  | nil => rfl
  | cons x xs ih => simp only [List.foldl_cons]; rw [ih, h]
@[simp] theorem doIf_mem (c : Bool) (f : State → State) (s : State) (h : (f s).mem = s.mem) :
    (doIf c f s).mem = s.mem := by
  unfold doIf; split <;> simp [h]
@[simp] theorem ite_mem (c : Prop) [Decidable c] (a b : State) : (if c then a else b).mem = if c then a.mem else b.mem := by
  split <;> rfl

@[simp] theorem forAll_sys {α : Type} (l : List α) (f : α → State → State) (s : State) (h : ∀ x s, (f x s).sys = s.sys) :
    (forAll l f s).sys = s.sys := by
  unfold forAll
  induction l generalizing s with
  | nil => rfl
  | cons x xs ih => simp only [List.foldl_cons]; rw [ih, h]
@[simp] theorem doIf_sys (c : Bool) (f : State → State) (s : State) (h : (f s).sys = s.sys) :
    (doIf c f s).sys = s.sys := by
  unfold doIf; split <;> simp [h]
@[simp] theorem ite_sys (c : Prop) [Decidable c] (a b : State) : (if c then a else b).sys = if c then a.sys else b.sys := by
  split <;> rfl

@[simp] theorem forAll_clk {α : Type} (l : List α) (f : α → State → State) (s : State) (h : ∀ x s, (f x s).clk = s.clk) :
    (forAll l f s).clk = s.clk := by
  unfold forAll
  induction l generalizing s with
  | nil => rfl
  | cons x xs ih => simp only [List.foldl_cons]; rw [ih, h]
@[simp] theorem doIf_clk (c : Bool) (f : State → State) (s : State) (h : (f s).clk = s.clk) :
    (doIf c f s).clk = s.clk := by
  unfold doIf; split <;> simp [h]
@[simp] theorem ite_clk (c : Prop) [Decidable c] (a b : State) : (if c then a else b).clk = if c then a.clk else b.clk := by
  split <;> rfl

@[simp] theorem forAll_thm {α : Type} (l : List α) (f : α → State → State) (s : State) (h : ∀ x s, (f x s).thm = s.thm) :
    (forAll l f s).thm = s.thm := by
  unfold forAll
  induction l generalizing s with
  | nil => rfl
  | cons x xs ih => simp only [List.foldl_cons]; rw [ih, h]
@[simp] theorem doIf_thm (c : Bool) (f : State → State) (s : State) (h : (f s).thm = s.thm) :
    (doIf c f s).thm = s.thm := by
  unfold doIf; split <;> simp [h]
@[simp] theorem ite_thm (c : Prop) [Decidable c] (a b : State) : (if c then a else b).thm = if c then a.thm else b.thm := by
  split <;> rfl

@[simp] theorem forAll_tck {α : Type} (l : List α) (f : α → State → State) (s : State) (h : ∀ x s, (f x s).tck = s.tck) :
    (forAll l f s).tck = s.tck := by
  unfold forAll
  induction l generalizing s with
  | nil => rfl
  | cons x xs ih => simp only [List.foldl_cons]; rw [ih, h]
@[simp] theorem doIf_tck (c : Bool) (f : State → State) (s : State) (h : (f s).tck = s.tck) :
    (doIf c f s).tck = s.tck := by
  unfold doIf; split <;> simp [h]
@[simp] theorem ite_tck (c : Prop) [Decidable c] (a b : State) : (if c then a else b).tck = if c then a.tck else b.tck := by
  split <;> rfl

@[simp] theorem forAll_hif {α : Type} (l : List α) (f : α → State → State) (s : State) (h : ∀ x s, (f x s).hif = s.hif) :
    (forAll l f s).hif = s.hif := by
  unfold forAll
  induction l generalizing s with
  | nil => rfl
  | cons x xs ih => simp only [List.foldl_cons]; rw [ih, h]
@[simp] theorem doIf_hif (c : Bool) (f : State → State) (s : State) (h : (f s).hif = s.hif) :
    (doIf c f s).hif = s.hif := by
  unfold doIf; split <;> simp [h]
@[simp] theorem ite_hif (c : Prop) [Decidable c] (a b : State) : (if c then a else b).hif = if c then a.hif else b.hif := by
  split <;> rfl

@[simp] theorem forAll_stm {α : Type} (l : List α) (f : α → State → State) (s : State) (h : ∀ x s, (f x s).stm = s.stm) :
    (forAll l f s).stm = s.stm := by
  unfold forAll
  induction l generalizing s with
  | nil => rfl
  | cons x xs ih => simp only [List.foldl_cons]; rw [ih, h]
@[simp] theorem doIf_stm (c : Bool) (f : State → State) (s : State) (h : (f s).stm = s.stm) :
    (doIf c f s).stm = s.stm := by
  unfold doIf; split <;> simp [h]
@[simp] theorem ite_stm (c : Prop) [Decidable c] (a b : State) : (if c then a else b).stm = if c then a.stm else b.stm := by
  split <;> rfl

@[simp] theorem forAll_map {α : Type} (l : List α) (f : α → State → State) (s : State) (h : ∀ x s, (f x s).map = s.map) :
    (forAll l f s).map = s.map := by
  unfold forAll
  induction l generalizing s with
  | nil => rfl
  | cons x xs ih => simp only [List.foldl_cons]; rw [ih, h]
@[simp] theorem doIf_map (c : Bool) (f : State → State) (s : State) (h : (f s).map = s.map) :
    (doIf c f s).map = s.map := by
  unfold doIf; split <;> simp [h]
@[simp] theorem ite_map (c : Prop) [Decidable c] (a b : State) : (if c then a else b).map = if c then a.map else b.map := by
  split <;> rfl

@[simp] theorem forAll_flc {α : Type} (l : List α) (f : α → State → State) (s : State) (h : ∀ x s, (f x s).flc = s.flc) :
    (forAll l f s).flc = s.flc := by
  unfold forAll
  induction l generalizing s with
  | nil => rfl
  | cons x xs ih => simp only [List.foldl_cons]; rw [ih, h]
@[simp] theorem doIf_flc (c : Bool) (f : State → State) (s : State) (h : (f s).flc = s.flc) :
    (doIf c f s).flc = s.flc := by
  unfold doIf; split <;> simp [h]
@[simp] theorem ite_flc (c : Prop) [Decidable c] (a b : State) : (if c then a else b).flc = if c then a.flc else b.flc := by
  split <;> rfl

@[simp] theorem forAll_bnd {α : Type} (l : List α) (f : α → State → State) (s : State) (h : ∀ x s, (f x s).bnd = s.bnd) :
    (forAll l f s).bnd = s.bnd := by
  unfold forAll
  induction l generalizing s with
  | nil => rfl
  | cons x xs ih => simp only [List.foldl_cons]; rw [ih, h]
@[simp] theorem doIf_bnd (c : Bool) (f : State → State) (s : State) (h : (f s).bnd = s.bnd) :
    (doIf c f s).bnd = s.bnd := by
  unfold doIf; split <;> simp [h]
@[simp] theorem ite_bnd (c : Prop) [Decidable c] (a b : State) : (if c then a else b).bnd = if c then a.bnd else b.bnd := by
  split <;> rfl

@[simp] theorem forAll_mbr {α : Type} (l : List α) (f : α → State → State) (s : State) (h : ∀ x s, (f x s).mbr = s.mbr) :
    (forAll l f s).mbr = s.mbr := by
  unfold forAll
  induction l generalizing s with
  | nil => rfl
  | cons x xs ih => simp only [List.foldl_cons]; rw [ih, h]
@[simp] theorem doIf_mbr (c : Bool) (f : State → State) (s : State) (h : (f s).mbr = s.mbr) :
    (doIf c f s).mbr = s.mbr := by
  unfold doIf; split <;> simp [h]
@[simp] theorem ite_mbr (c : Prop) [Decidable c] (a b : State) : (if c then a else b).mbr = if c then a.mbr else b.mbr := by
  split <;> rfl

@[simp] theorem forAll_flt {α : Type} (l : List α) (f : α → State → State) (s : State) (h : ∀ x s, (f x s).flt = s.flt) :
    (forAll l f s).flt = s.flt := by
  unfold forAll
  induction l generalizing s with
  | nil => rfl
  | cons x xs ih => simp only [List.foldl_cons]; rw [ih, h]
@[simp] theorem doIf_flt (c : Bool) (f : State → State) (s : State) (h : (f s).flt = s.flt) :
    (doIf c f s).flt = s.flt := by
  unfold doIf; split <;> simp [h]
@[simp] theorem ite_flt (c : Prop) [Decidable c] (a b : State) : (if c then a else b).flt = if c then a.flt else b.flt := by
  split <;> rfl

@[simp] theorem forAll_sec {α : Type} (l : List α) (f : α → State → State) (s : State) (h : ∀ x s, (f x s).sec = s.sec) :
    (forAll l f s).sec = s.sec := by
  unfold forAll
  induction l generalizing s with
  | nil => rfl
  | cons x xs ih => simp only [List.foldl_cons]; rw [ih, h]
@[simp] theorem doIf_sec (c : Bool) (f : State → State) (s : State) (h : (f s).sec = s.sec) :
    (doIf c f s).sec = s.sec := by
  unfold doIf; split <;> simp [h]
@[simp] theorem ite_sec (c : Prop) [Decidable c] (a b : State) : (if c then a else b).sec = if c then a.sec else b.sec := by
  split <;> rfl

@[simp] theorem forAll_cpx {α : Type} (l : List α) (f : α → State → State) (s : State) (h : ∀ x s, (f x s).cpx = s.cpx) :
    (forAll l f s).cpx = s.cpx := by
  unfold forAll
  induction l generalizing s with
  | nil => rfl
  | cons x xs ih => simp only [List.foldl_cons]; rw [ih, h]
@[simp] theorem doIf_cpx (c : Bool) (f : State → State) (s : State) (h : (f s).cpx = s.cpx) :
    (doIf c f s).cpx = s.cpx := by
  unfold doIf; split <;> simp [h]
@[simp] theorem ite_cpx (c : Prop) [Decidable c] (a b : State) : (if c then a else b).cpx = if c then a.cpx else b.cpx := by
  split <;> rfl

@[simp] theorem forAll_memc {α : Type} (l : List α) (f : α → State → State) (s : State) (h : ∀ x s, (f x s).memc = s.memc) :
    (forAll l f s).memc = s.memc := by
  unfold forAll
  induction l generalizing s with
  | nil => rfl
  | cons x xs ih => simp only [List.foldl_cons]; rw [ih, h]
@[simp] theorem doIf_memc (c : Bool) (f : State → State) (s : State) (h : (f s).memc = s.memc) :
    (doIf c f s).memc = s.memc := by
  unfold doIf; split <;> simp [h]
@[simp] theorem ite_memc (c : Prop) [Decidable c] (a b : State) : (if c then a else b).memc = if c then a.memc else b.memc := by
  split <;> rfl

@[simp] theorem forAll_mov {α : Type} (l : List α) (f : α → State → State) (s : State) (h : ∀ x s, (f x s).mov = s.mov) :
    (forAll l f s).mov = s.mov := by
  unfold forAll
  induction l generalizing s with
  | nil => rfl
  | cons x xs ih => simp only [List.foldl_cons]; rw [ih, h]
@[simp] theorem doIf_mov (c : Bool) (f : State → State) (s : State) (h : (f s).mov = s.mov) :
    (doIf c f s).mov = s.mov := by
  unfold doIf; split <;> simp [h]
@[simp] theorem ite_mov (c : Prop) [Decidable c] (a b : State) : (if c then a else b).mov = if c then a.mov else b.mov := by
  split <;> rfl

@[simp] theorem forAll_cst {α : Type} (l : List α) (f : α → State → State) (s : State) (h : ∀ x s, (f x s).cst = s.cst) :
    (forAll l f s).cst = s.cst := by
  unfold forAll
  induction l generalizing s with
  | nil => rfl
  | cons x xs ih => simp only [List.foldl_cons]; rw [ih, h]
@[simp] theorem doIf_cst (c : Bool) (f : State → State) (s : State) (h : (f s).cst = s.cst) :
    (doIf c f s).cst = s.cst := by
  unfold doIf; split <;> simp [h]
@[simp] theorem ite_cst (c : Prop) [Decidable c] (a b : State) : (if c then a else b).cst = if c then a.cst else b.cst := by
  split <;> rfl

@[simp] theorem forAll_lnt {α : Type} (l : List α) (f : α → State → State) (s : State) (h : ∀ x s, (f x s).lnt = s.lnt) :
    (forAll l f s).lnt = s.lnt := by
  unfold forAll
  induction l generalizing s with
  | nil => rfl
  | cons x xs ih => simp only [List.foldl_cons]; rw [ih, h]
@[simp] theorem doIf_lnt (c : Bool) (f : State → State) (s : State) (h : (f s).lnt = s.lnt) :
    (doIf c f s).lnt = s.lnt := by
  unfold doIf; split <;> simp [h]
@[simp] theorem ite_lnt (c : Prop) [Decidable c] (a b : State) : (if c then a else b).lnt = if c then a.lnt else b.lnt := by
  split <;> rfl

@[simp] theorem forAll_out {α : Type} (l : List α) (f : α → State → State) (s : State) (h : ∀ x s, (f x s).out = s.out) :
    (forAll l f s).out = s.out := by
  unfold forAll
  induction l generalizing s with
  | nil => rfl
  | cons x xs ih => simp only [List.foldl_cons]; rw [ih, h]
@[simp] theorem doIf_out (c : Bool) (f : State → State) (s : State) (h : (f s).out = s.out) :
    (doIf c f s).out = s.out := by
  unfold doIf; split <;> simp [h]
@[simp] theorem ite_out (c : Prop) [Decidable c] (a b : State) : (if c then a else b).out = if c then a.out else b.out := by
  split <;> rfl

@[simp] theorem forAll_freeCtr {α : Type} (l : List α) (f : α → State → State) (s : State) (h : ∀ x s, (f x s).freeCtr = s.freeCtr) :
    (forAll l f s).freeCtr = s.freeCtr := by
  unfold forAll
  induction l generalizing s with
  | nil => rfl
  | cons x xs ih => simp only [List.foldl_cons]; rw [ih, h]
@[simp] theorem doIf_freeCtr (c : Bool) (f : State → State) (s : State) (h : (f s).freeCtr = s.freeCtr) :
    (doIf c f s).freeCtr = s.freeCtr := by
  unfold doIf; split <;> simp [h]
@[simp] theorem ite_freeCtr (c : Prop) [Decidable c] (a b : State) : (if c then a else b).freeCtr = if c then a.freeCtr else b.freeCtr := by
  split <;> rfl


/-! ### Regs -/

@[simp] theorem setReg_frame (a0 : ℕ) (a1 : Word) (s : State) :
    (setReg a0 a1 s).pending = s.pending ∧ (setReg a0 a1 s).latch = s.latch ∧ (setReg a0 a1 s).mem = s.mem ∧ (setReg a0 a1 s).sys = s.sys ∧ (setReg a0 a1 s).clk = s.clk ∧ (setReg a0 a1 s).thm = s.thm ∧ (setReg a0 a1 s).tck = s.tck ∧ (setReg a0 a1 s).hif = s.hif ∧ (setReg a0 a1 s).stm = s.stm ∧ (setReg a0 a1 s).map = s.map ∧ (setReg a0 a1 s).flc = s.flc ∧ (setReg a0 a1 s).bnd = s.bnd ∧ (setReg a0 a1 s).mbr = s.mbr ∧ (setReg a0 a1 s).flt = s.flt ∧ (setReg a0 a1 s).sec = s.sec ∧ (setReg a0 a1 s).cpx = s.cpx ∧ (setReg a0 a1 s).memc = s.memc ∧ (setReg a0 a1 s).mov = s.mov ∧ (setReg a0 a1 s).cst = s.cst ∧ (setReg a0 a1 s).lnt = s.lnt ∧ (setReg a0 a1 s).out = s.out ∧ (setReg a0 a1 s).freeCtr = s.freeCtr := by
  unfold setReg
  try dsimp only
  first
    | (simp; done)
    | ((repeat' split) <;> simp; done)
    | (and_intros <;> (repeat' (first | (simp; done) | split)))

@[simp] theorem bumpBy_frame (a0 : ℕ) (a1 : ℕ) (s : State) :
    (bumpBy a0 a1 s).pending = s.pending ∧ (bumpBy a0 a1 s).latch = s.latch ∧ (bumpBy a0 a1 s).mem = s.mem ∧ (bumpBy a0 a1 s).sys = s.sys ∧ (bumpBy a0 a1 s).clk = s.clk ∧ (bumpBy a0 a1 s).thm = s.thm ∧ (bumpBy a0 a1 s).tck = s.tck ∧ (bumpBy a0 a1 s).hif = s.hif ∧ (bumpBy a0 a1 s).stm = s.stm ∧ (bumpBy a0 a1 s).map = s.map ∧ (bumpBy a0 a1 s).flc = s.flc ∧ (bumpBy a0 a1 s).bnd = s.bnd ∧ (bumpBy a0 a1 s).mbr = s.mbr ∧ (bumpBy a0 a1 s).flt = s.flt ∧ (bumpBy a0 a1 s).sec = s.sec ∧ (bumpBy a0 a1 s).cpx = s.cpx ∧ (bumpBy a0 a1 s).memc = s.memc ∧ (bumpBy a0 a1 s).mov = s.mov ∧ (bumpBy a0 a1 s).cst = s.cst ∧ (bumpBy a0 a1 s).lnt = s.lnt ∧ (bumpBy a0 a1 s).out = s.out ∧ (bumpBy a0 a1 s).freeCtr = s.freeCtr := by
  unfold bumpBy
  try dsimp only
  first
    | (simp; done)
    | ((repeat' split) <;> simp; done)
    | (and_intros <;> (repeat' (first | (simp; done) | split)))

@[simp] theorem bump_frame (a0 : ℕ) (s : State) :
    (bump a0 s).pending = s.pending ∧ (bump a0 s).latch = s.latch ∧ (bump a0 s).mem = s.mem ∧ (bump a0 s).sys = s.sys ∧ (bump a0 s).clk = s.clk ∧ (bump a0 s).thm = s.thm ∧ (bump a0 s).tck = s.tck ∧ (bump a0 s).hif = s.hif ∧ (bump a0 s).stm = s.stm ∧ (bump a0 s).map = s.map ∧ (bump a0 s).flc = s.flc ∧ (bump a0 s).bnd = s.bnd ∧ (bump a0 s).mbr = s.mbr ∧ (bump a0 s).flt = s.flt ∧ (bump a0 s).sec = s.sec ∧ (bump a0 s).cpx = s.cpx ∧ (bump a0 s).memc = s.memc ∧ (bump a0 s).mov = s.mov ∧ (bump a0 s).cst = s.cst ∧ (bump a0 s).lnt = s.lnt ∧ (bump a0 s).out = s.out ∧ (bump a0 s).freeCtr = s.freeCtr := by
  unfold bump
  try dsimp only
  first
    | (simp; done)
    | ((repeat' split) <;> simp; done)
    | (and_intros <;> (repeat' (first | (simp; done) | split)))

/-! ### Ops -/

@[simp] theorem writeByte_frame (a0 : ℕ) (a1 : Byte) (s : State) :
    (writeByte a0 a1 s).pending = s.pending ∧ (writeByte a0 a1 s).regs = s.regs ∧ (writeByte a0 a1 s).latch = s.latch ∧ (writeByte a0 a1 s).sys = s.sys ∧ (writeByte a0 a1 s).clk = s.clk ∧ (writeByte a0 a1 s).thm = s.thm ∧ (writeByte a0 a1 s).tck = s.tck ∧ (writeByte a0 a1 s).hif = s.hif ∧ (writeByte a0 a1 s).stm = s.stm ∧ (writeByte a0 a1 s).map = s.map ∧ (writeByte a0 a1 s).flc = s.flc ∧ (writeByte a0 a1 s).bnd = s.bnd ∧ (writeByte a0 a1 s).mbr = s.mbr ∧ (writeByte a0 a1 s).flt = s.flt ∧ (writeByte a0 a1 s).sec = s.sec ∧ (writeByte a0 a1 s).cpx = s.cpx ∧ (writeByte a0 a1 s).memc = s.memc ∧ (writeByte a0 a1 s).mov = s.mov ∧ (writeByte a0 a1 s).cst = s.cst ∧ (writeByte a0 a1 s).lnt = s.lnt ∧ (writeByte a0 a1 s).out = s.out ∧ (writeByte a0 a1 s).freeCtr = s.freeCtr := by
  unfold writeByte
  try dsimp only
  first
    | (simp; done)
    | ((repeat' split) <;> simp; done)
    | (and_intros <;> (repeat' (first | (simp; done) | split)))

@[simp] theorem writeBytes_frame (a0 : ℕ) (a1 : List Byte) (s : State) :
    (writeBytes a0 a1 s).pending = s.pending ∧ (writeBytes a0 a1 s).regs = s.regs ∧ (writeBytes a0 a1 s).latch = s.latch ∧ (writeBytes a0 a1 s).sys = s.sys ∧ (writeBytes a0 a1 s).clk = s.clk ∧ (writeBytes a0 a1 s).thm = s.thm ∧ (writeBytes a0 a1 s).tck = s.tck ∧ (writeBytes a0 a1 s).hif = s.hif ∧ (writeBytes a0 a1 s).stm = s.stm ∧ (writeBytes a0 a1 s).map = s.map ∧ (writeBytes a0 a1 s).flc = s.flc ∧ (writeBytes a0 a1 s).bnd = s.bnd ∧ (writeBytes a0 a1 s).mbr = s.mbr ∧ (writeBytes a0 a1 s).flt = s.flt ∧ (writeBytes a0 a1 s).sec = s.sec ∧ (writeBytes a0 a1 s).cpx = s.cpx ∧ (writeBytes a0 a1 s).memc = s.memc ∧ (writeBytes a0 a1 s).mov = s.mov ∧ (writeBytes a0 a1 s).cst = s.cst ∧ (writeBytes a0 a1 s).lnt = s.lnt ∧ (writeBytes a0 a1 s).out = s.out ∧ (writeBytes a0 a1 s).freeCtr = s.freeCtr := by
  induction a1 generalizing a0 s with
  | nil => simp [writeBytes]
  | cons b bs ih => simp [writeBytes, ih]

@[simp] theorem settingsEntry_frame (s : State) :
    (settingsEntry s).pending = s.pending ∧ (settingsEntry s).regs = s.regs ∧ (settingsEntry s).latch = s.latch ∧ (settingsEntry s).mem = s.mem ∧ (settingsEntry s).sys = s.sys ∧ (settingsEntry s).clk = s.clk ∧ (settingsEntry s).thm = s.thm ∧ (settingsEntry s).tck = s.tck ∧ (settingsEntry s).hif = s.hif ∧ (settingsEntry s).stm = s.stm ∧ (settingsEntry s).map = s.map ∧ (settingsEntry s).flc = s.flc ∧ (settingsEntry s).bnd = s.bnd ∧ (settingsEntry s).mbr = s.mbr ∧ (settingsEntry s).flt = s.flt ∧ (settingsEntry s).sec = s.sec ∧ (settingsEntry s).cpx = s.cpx ∧ (settingsEntry s).memc = s.memc ∧ (settingsEntry s).mov = s.mov ∧ (settingsEntry s).lnt = s.lnt ∧ (settingsEntry s).out = s.out ∧ (settingsEntry s).freeCtr = s.freeCtr := by
  unfold settingsEntry
  try dsimp only
  first
    | (simp; done)
    | ((repeat' split) <;> simp; done)
    | (and_intros <;> (repeat' (first | (simp; done) | split)))

@[simp] theorem emit_frame (a0 : Out) (s : State) :
    (emit a0 s).pending = s.pending ∧ (emit a0 s).regs = s.regs ∧ (emit a0 s).latch = s.latch ∧ (emit a0 s).mem = s.mem ∧ (emit a0 s).sys = s.sys ∧ (emit a0 s).clk = s.clk ∧ (emit a0 s).thm = s.thm ∧ (emit a0 s).tck = s.tck ∧ (emit a0 s).hif = s.hif ∧ (emit a0 s).stm = s.stm ∧ (emit a0 s).map = s.map ∧ (emit a0 s).flc = s.flc ∧ (emit a0 s).bnd = s.bnd ∧ (emit a0 s).mbr = s.mbr ∧ (emit a0 s).flt = s.flt ∧ (emit a0 s).sec = s.sec ∧ (emit a0 s).cpx = s.cpx ∧ (emit a0 s).memc = s.memc ∧ (emit a0 s).mov = s.mov ∧ (emit a0 s).cst = s.cst ∧ (emit a0 s).lnt = s.lnt ∧ (emit a0 s).freeCtr = s.freeCtr := by
  unfold emit
  try dsimp only
  first
    | (simp; done)
    | ((repeat' split) <;> simp; done)
    | (and_intros <;> (repeat' (first | (simp; done) | split)))

@[simp] theorem hostEmit_frame (a0 : Out) (s : State) :
    (hostEmit a0 s).pending = s.pending ∧ (hostEmit a0 s).regs = s.regs ∧ (hostEmit a0 s).latch = s.latch ∧ (hostEmit a0 s).mem = s.mem ∧ (hostEmit a0 s).sys = s.sys ∧ (hostEmit a0 s).clk = s.clk ∧ (hostEmit a0 s).thm = s.thm ∧ (hostEmit a0 s).tck = s.tck ∧ (hostEmit a0 s).hif = s.hif ∧ (hostEmit a0 s).stm = s.stm ∧ (hostEmit a0 s).map = s.map ∧ (hostEmit a0 s).flc = s.flc ∧ (hostEmit a0 s).bnd = s.bnd ∧ (hostEmit a0 s).mbr = s.mbr ∧ (hostEmit a0 s).flt = s.flt ∧ (hostEmit a0 s).sec = s.sec ∧ (hostEmit a0 s).cpx = s.cpx ∧ (hostEmit a0 s).memc = s.memc ∧ (hostEmit a0 s).mov = s.mov ∧ (hostEmit a0 s).cst = s.cst ∧ (hostEmit a0 s).lnt = s.lnt ∧ (hostEmit a0 s).freeCtr = s.freeCtr := by
  unfold hostEmit
  try dsimp only
  first
    | (simp; done)
    | ((repeat' split) <;> simp; done)
    | (and_intros <;> (repeat' (first | (simp; done) | split)))

@[simp] theorem irqRaise_frame (a0 : ℕ) (s : State) :
    (irqRaise a0 s).pending = s.pending ∧ (irqRaise a0 s).regs = s.regs ∧ (irqRaise a0 s).latch = s.latch ∧ (irqRaise a0 s).mem = s.mem ∧ (irqRaise a0 s).clk = s.clk ∧ (irqRaise a0 s).thm = s.thm ∧ (irqRaise a0 s).tck = s.tck ∧ (irqRaise a0 s).hif = s.hif ∧ (irqRaise a0 s).stm = s.stm ∧ (irqRaise a0 s).map = s.map ∧ (irqRaise a0 s).flc = s.flc ∧ (irqRaise a0 s).bnd = s.bnd ∧ (irqRaise a0 s).mbr = s.mbr ∧ (irqRaise a0 s).flt = s.flt ∧ (irqRaise a0 s).sec = s.sec ∧ (irqRaise a0 s).cpx = s.cpx ∧ (irqRaise a0 s).memc = s.memc ∧ (irqRaise a0 s).mov = s.mov ∧ (irqRaise a0 s).cst = s.cst ∧ (irqRaise a0 s).lnt = s.lnt ∧ (irqRaise a0 s).out = s.out ∧ (irqRaise a0 s).freeCtr = s.freeCtr := by
  unfold irqRaise
  try dsimp only
  first
    | (simp; done)
    | ((repeat' split) <;> simp; done)
    | (and_intros <;> (repeat' (first | (simp; done) | split)))

@[simp] theorem drawFree_frame (s : State) :
    (drawFree s).pending = s.pending ∧ (drawFree s).regs = s.regs ∧ (drawFree s).latch = s.latch ∧ (drawFree s).mem = s.mem ∧ (drawFree s).sys = s.sys ∧ (drawFree s).clk = s.clk ∧ (drawFree s).thm = s.thm ∧ (drawFree s).tck = s.tck ∧ (drawFree s).hif = s.hif ∧ (drawFree s).stm = s.stm ∧ (drawFree s).map = s.map ∧ (drawFree s).flc = s.flc ∧ (drawFree s).bnd = s.bnd ∧ (drawFree s).mbr = s.mbr ∧ (drawFree s).flt = s.flt ∧ (drawFree s).sec = s.sec ∧ (drawFree s).cpx = s.cpx ∧ (drawFree s).memc = s.memc ∧ (drawFree s).mov = s.mov ∧ (drawFree s).cst = s.cst ∧ (drawFree s).lnt = s.lnt ∧ (drawFree s).out = s.out := by
  unfold drawFree
  try dsimp only
  first
    | (simp; done)
    | ((repeat' split) <;> simp; done)
    | (and_intros <;> (repeat' (first | (simp; done) | split)))

@[simp] theorem lntStore_frame (a0 : LntRec) (s : State) :
    (lntStore a0 s).pending = s.pending ∧ (lntStore a0 s).latch = s.latch ∧ (lntStore a0 s).mem = s.mem ∧ (lntStore a0 s).sys = s.sys ∧ (lntStore a0 s).clk = s.clk ∧ (lntStore a0 s).thm = s.thm ∧ (lntStore a0 s).tck = s.tck ∧ (lntStore a0 s).hif = s.hif ∧ (lntStore a0 s).stm = s.stm ∧ (lntStore a0 s).map = s.map ∧ (lntStore a0 s).flc = s.flc ∧ (lntStore a0 s).bnd = s.bnd ∧ (lntStore a0 s).mbr = s.mbr ∧ (lntStore a0 s).flt = s.flt ∧ (lntStore a0 s).sec = s.sec ∧ (lntStore a0 s).cpx = s.cpx ∧ (lntStore a0 s).memc = s.memc ∧ (lntStore a0 s).mov = s.mov ∧ (lntStore a0 s).cst = s.cst ∧ (lntStore a0 s).out = s.out ∧ (lntStore a0 s).freeCtr = s.freeCtr := by
  unfold lntStore
  try dsimp only
  first
    | (simp; done)
    | ((repeat' split) <;> simp; done)
    | (and_intros <;> (repeat' (first | (simp; done) | split)))

@[simp] theorem lntTake_frame (a0 : LntRec) (s : State) :
    (lntTake a0 s).pending = s.pending ∧ (lntTake a0 s).latch = s.latch ∧ (lntTake a0 s).mem = s.mem ∧ (lntTake a0 s).sys = s.sys ∧ (lntTake a0 s).clk = s.clk ∧ (lntTake a0 s).thm = s.thm ∧ (lntTake a0 s).tck = s.tck ∧ (lntTake a0 s).hif = s.hif ∧ (lntTake a0 s).stm = s.stm ∧ (lntTake a0 s).map = s.map ∧ (lntTake a0 s).flc = s.flc ∧ (lntTake a0 s).bnd = s.bnd ∧ (lntTake a0 s).mbr = s.mbr ∧ (lntTake a0 s).flt = s.flt ∧ (lntTake a0 s).sec = s.sec ∧ (lntTake a0 s).cpx = s.cpx ∧ (lntTake a0 s).memc = s.memc ∧ (lntTake a0 s).mov = s.mov ∧ (lntTake a0 s).cst = s.cst ∧ (lntTake a0 s).out = s.out ∧ (lntTake a0 s).freeCtr = s.freeCtr := by
  unfold lntTake
  try dsimp only
  first
    | (simp; done)
    | ((repeat' split) <;> simp; done)
    | (and_intros <;> (repeat' (first | (simp; done) | split)))

@[simp] theorem lntDrop_frame (a0 : Bool) (s : State) :
    (lntDrop a0 s).pending = s.pending ∧ (lntDrop a0 s).latch = s.latch ∧ (lntDrop a0 s).mem = s.mem ∧ (lntDrop a0 s).sys = s.sys ∧ (lntDrop a0 s).clk = s.clk ∧ (lntDrop a0 s).thm = s.thm ∧ (lntDrop a0 s).tck = s.tck ∧ (lntDrop a0 s).hif = s.hif ∧ (lntDrop a0 s).stm = s.stm ∧ (lntDrop a0 s).map = s.map ∧ (lntDrop a0 s).flc = s.flc ∧ (lntDrop a0 s).bnd = s.bnd ∧ (lntDrop a0 s).mbr = s.mbr ∧ (lntDrop a0 s).flt = s.flt ∧ (lntDrop a0 s).sec = s.sec ∧ (lntDrop a0 s).cpx = s.cpx ∧ (lntDrop a0 s).memc = s.memc ∧ (lntDrop a0 s).mov = s.mov ∧ (lntDrop a0 s).cst = s.cst ∧ (lntDrop a0 s).out = s.out ∧ (lntDrop a0 s).freeCtr = s.freeCtr := by
  unfold lntDrop
  try dsimp only
  first
    | (simp; done)
    | ((repeat' split) <;> simp; done)
    | (and_intros <;> (repeat' (first | (simp; done) | split)))

@[simp] theorem lntOffer_frame (a0 : LntRec) (s : State) :
    (lntOffer a0 s).pending = s.pending ∧ (lntOffer a0 s).latch = s.latch ∧ (lntOffer a0 s).mem = s.mem ∧ (lntOffer a0 s).sys = s.sys ∧ (lntOffer a0 s).clk = s.clk ∧ (lntOffer a0 s).thm = s.thm ∧ (lntOffer a0 s).tck = s.tck ∧ (lntOffer a0 s).hif = s.hif ∧ (lntOffer a0 s).stm = s.stm ∧ (lntOffer a0 s).map = s.map ∧ (lntOffer a0 s).flc = s.flc ∧ (lntOffer a0 s).bnd = s.bnd ∧ (lntOffer a0 s).mbr = s.mbr ∧ (lntOffer a0 s).flt = s.flt ∧ (lntOffer a0 s).sec = s.sec ∧ (lntOffer a0 s).cpx = s.cpx ∧ (lntOffer a0 s).memc = s.memc ∧ (lntOffer a0 s).mov = s.mov ∧ (lntOffer a0 s).cst = s.cst ∧ (lntOffer a0 s).out = s.out ∧ (lntOffer a0 s).freeCtr = s.freeCtr := by
  unfold lntOffer
  try dsimp only
  first
    | (simp; done)
    | ((repeat' split) <;> simp; done)
    | (and_intros <;> (repeat' (first | (simp; done) | split)))

@[simp] theorem noteCode_frame (a0 : ℕ) (s : State) :
    (noteCode a0 s).pending = s.pending ∧ (noteCode a0 s).latch = s.latch ∧ (noteCode a0 s).mem = s.mem ∧ (noteCode a0 s).clk = s.clk ∧ (noteCode a0 s).thm = s.thm ∧ (noteCode a0 s).tck = s.tck ∧ (noteCode a0 s).hif = s.hif ∧ (noteCode a0 s).stm = s.stm ∧ (noteCode a0 s).map = s.map ∧ (noteCode a0 s).flc = s.flc ∧ (noteCode a0 s).bnd = s.bnd ∧ (noteCode a0 s).mbr = s.mbr ∧ (noteCode a0 s).flt = s.flt ∧ (noteCode a0 s).sec = s.sec ∧ (noteCode a0 s).cpx = s.cpx ∧ (noteCode a0 s).memc = s.memc ∧ (noteCode a0 s).mov = s.mov ∧ (noteCode a0 s).cst = s.cst ∧ (noteCode a0 s).lnt = s.lnt ∧ (noteCode a0 s).out = s.out ∧ (noteCode a0 s).freeCtr = s.freeCtr := by
  unfold noteCode
  try dsimp only
  first
    | (simp; done)
    | ((repeat' split) <;> simp; done)
    | (and_intros <;> (repeat' (first | (simp; done) | split)))

@[simp] theorem raiseQuiet_frame (a0 : ℕ) (s : State) :
    (raiseQuiet a0 s).pending = s.pending ∧ (raiseQuiet a0 s).latch = s.latch ∧ (raiseQuiet a0 s).mem = s.mem ∧ (raiseQuiet a0 s).clk = s.clk ∧ (raiseQuiet a0 s).thm = s.thm ∧ (raiseQuiet a0 s).tck = s.tck ∧ (raiseQuiet a0 s).hif = s.hif ∧ (raiseQuiet a0 s).stm = s.stm ∧ (raiseQuiet a0 s).map = s.map ∧ (raiseQuiet a0 s).flc = s.flc ∧ (raiseQuiet a0 s).bnd = s.bnd ∧ (raiseQuiet a0 s).mbr = s.mbr ∧ (raiseQuiet a0 s).flt = s.flt ∧ (raiseQuiet a0 s).sec = s.sec ∧ (raiseQuiet a0 s).cpx = s.cpx ∧ (raiseQuiet a0 s).memc = s.memc ∧ (raiseQuiet a0 s).mov = s.mov ∧ (raiseQuiet a0 s).cst = s.cst ∧ (raiseQuiet a0 s).lnt = s.lnt ∧ (raiseQuiet a0 s).out = s.out ∧ (raiseQuiet a0 s).freeCtr = s.freeCtr := by
  unfold raiseQuiet
  try dsimp only
  first
    | (simp; done)
    | ((repeat' split) <;> simp; done)
    | (and_intros <;> (repeat' (first | (simp; done) | split)))

@[simp] theorem raise_frame (a0 : ℕ) (a1 : List Byte) (s : State) :
    (raise a0 a1 s).pending = s.pending ∧ (raise a0 a1 s).latch = s.latch ∧ (raise a0 a1 s).mem = s.mem ∧ (raise a0 a1 s).clk = s.clk ∧ (raise a0 a1 s).thm = s.thm ∧ (raise a0 a1 s).tck = s.tck ∧ (raise a0 a1 s).hif = s.hif ∧ (raise a0 a1 s).stm = s.stm ∧ (raise a0 a1 s).map = s.map ∧ (raise a0 a1 s).flc = s.flc ∧ (raise a0 a1 s).bnd = s.bnd ∧ (raise a0 a1 s).mbr = s.mbr ∧ (raise a0 a1 s).flt = s.flt ∧ (raise a0 a1 s).sec = s.sec ∧ (raise a0 a1 s).cpx = s.cpx ∧ (raise a0 a1 s).memc = s.memc ∧ (raise a0 a1 s).mov = s.mov ∧ (raise a0 a1 s).cst = s.cst ∧ (raise a0 a1 s).out = s.out ∧ (raise a0 a1 s).freeCtr = s.freeCtr := by
  unfold raise
  try dsimp only
  first
    | (simp; done)
    | ((repeat' split) <;> simp; done)
    | (and_intros <;> (repeat' (first | (simp; done) | split)))

@[simp] theorem lntFreeze_frame (a0 : ℕ) (s : State) :
    (lntFreeze a0 s).pending = s.pending ∧ (lntFreeze a0 s).latch = s.latch ∧ (lntFreeze a0 s).mem = s.mem ∧ (lntFreeze a0 s).clk = s.clk ∧ (lntFreeze a0 s).thm = s.thm ∧ (lntFreeze a0 s).tck = s.tck ∧ (lntFreeze a0 s).hif = s.hif ∧ (lntFreeze a0 s).stm = s.stm ∧ (lntFreeze a0 s).map = s.map ∧ (lntFreeze a0 s).flc = s.flc ∧ (lntFreeze a0 s).bnd = s.bnd ∧ (lntFreeze a0 s).mbr = s.mbr ∧ (lntFreeze a0 s).flt = s.flt ∧ (lntFreeze a0 s).sec = s.sec ∧ (lntFreeze a0 s).cpx = s.cpx ∧ (lntFreeze a0 s).memc = s.memc ∧ (lntFreeze a0 s).mov = s.mov ∧ (lntFreeze a0 s).cst = s.cst ∧ (lntFreeze a0 s).out = s.out ∧ (lntFreeze a0 s).freeCtr = s.freeCtr := by
  unfold lntFreeze
  try dsimp only
  first
    | (simp; done)
    | ((repeat' split) <;> simp; done)
    | (and_intros <;> (repeat' (first | (simp; done) | split)))

@[simp] theorem raiseFreeze_frame (a0 : ℕ) (a1 : List Byte) (s : State) :
    (raiseFreeze a0 a1 s).pending = s.pending ∧ (raiseFreeze a0 a1 s).latch = s.latch ∧ (raiseFreeze a0 a1 s).mem = s.mem ∧ (raiseFreeze a0 a1 s).clk = s.clk ∧ (raiseFreeze a0 a1 s).thm = s.thm ∧ (raiseFreeze a0 a1 s).tck = s.tck ∧ (raiseFreeze a0 a1 s).hif = s.hif ∧ (raiseFreeze a0 a1 s).stm = s.stm ∧ (raiseFreeze a0 a1 s).map = s.map ∧ (raiseFreeze a0 a1 s).flc = s.flc ∧ (raiseFreeze a0 a1 s).bnd = s.bnd ∧ (raiseFreeze a0 a1 s).mbr = s.mbr ∧ (raiseFreeze a0 a1 s).flt = s.flt ∧ (raiseFreeze a0 a1 s).sec = s.sec ∧ (raiseFreeze a0 a1 s).cpx = s.cpx ∧ (raiseFreeze a0 a1 s).memc = s.memc ∧ (raiseFreeze a0 a1 s).mov = s.mov ∧ (raiseFreeze a0 a1 s).cst = s.cst ∧ (raiseFreeze a0 a1 s).out = s.out ∧ (raiseFreeze a0 a1 s).freeCtr = s.freeCtr := by
  unfold raiseFreeze
  try dsimp only
  first
    | (simp; done)
    | ((repeat' split) <;> simp; done)
    | (and_intros <;> (repeat' (first | (simp; done) | split)))

@[simp] theorem lntStart_frame (a0 : Mode) (s : State) :
    (lntStart a0 s).pending = s.pending ∧ (lntStart a0 s).latch = s.latch ∧ (lntStart a0 s).mem = s.mem ∧ (lntStart a0 s).clk = s.clk ∧ (lntStart a0 s).thm = s.thm ∧ (lntStart a0 s).tck = s.tck ∧ (lntStart a0 s).hif = s.hif ∧ (lntStart a0 s).stm = s.stm ∧ (lntStart a0 s).map = s.map ∧ (lntStart a0 s).flc = s.flc ∧ (lntStart a0 s).bnd = s.bnd ∧ (lntStart a0 s).mbr = s.mbr ∧ (lntStart a0 s).flt = s.flt ∧ (lntStart a0 s).sec = s.sec ∧ (lntStart a0 s).cpx = s.cpx ∧ (lntStart a0 s).memc = s.memc ∧ (lntStart a0 s).mov = s.mov ∧ (lntStart a0 s).cst = s.cst ∧ (lntStart a0 s).out = s.out ∧ (lntStart a0 s).freeCtr = s.freeCtr := by
  unfold lntStart
  try dsimp only
  first
    | (simp; done)
    | ((repeat' split) <;> simp; done)
    | (and_intros <;> (repeat' (first | (simp; done) | split)))

@[simp] theorem enterMode_frame (a0 : Mode) (s : State) :
    (enterMode a0 s).pending = s.pending ∧ (enterMode a0 s).latch = s.latch ∧ (enterMode a0 s).mem = s.mem ∧ (enterMode a0 s).clk = s.clk ∧ (enterMode a0 s).thm = s.thm ∧ (enterMode a0 s).tck = s.tck ∧ (enterMode a0 s).hif = s.hif ∧ (enterMode a0 s).stm = s.stm ∧ (enterMode a0 s).map = s.map ∧ (enterMode a0 s).flc = s.flc ∧ (enterMode a0 s).bnd = s.bnd ∧ (enterMode a0 s).mbr = s.mbr ∧ (enterMode a0 s).flt = s.flt ∧ (enterMode a0 s).sec = s.sec ∧ (enterMode a0 s).cpx = s.cpx ∧ (enterMode a0 s).memc = s.memc ∧ (enterMode a0 s).mov = s.mov ∧ (enterMode a0 s).out = s.out ∧ (enterMode a0 s).freeCtr = s.freeCtr := by
  unfold enterMode
  try dsimp only
  first
    | (simp; done)
    | ((repeat' split) <;> simp; done)
    | (and_intros <;> (repeat' (first | (simp; done) | split)))

@[simp] theorem enterHalt_frame (s : State) :
    (enterHalt s).pending = s.pending ∧ (enterHalt s).latch = s.latch ∧ (enterHalt s).mem = s.mem ∧ (enterHalt s).clk = s.clk ∧ (enterHalt s).thm = s.thm ∧ (enterHalt s).tck = s.tck ∧ (enterHalt s).stm = s.stm ∧ (enterHalt s).map = s.map ∧ (enterHalt s).flc = s.flc ∧ (enterHalt s).bnd = s.bnd ∧ (enterHalt s).mbr = s.mbr ∧ (enterHalt s).flt = s.flt ∧ (enterHalt s).cpx = s.cpx ∧ (enterHalt s).memc = s.memc ∧ (enterHalt s).mov = s.mov ∧ (enterHalt s).out = s.out ∧ (enterHalt s).freeCtr = s.freeCtr := by
  unfold enterHalt
  try dsimp only
  first
    | (simp; done)
    | ((repeat' split) <;> simp; done)
    | (and_intros <;> (repeat' (first | (simp; done) | split)))

@[simp] theorem haltWith_frame (a0 : ℕ) (a1 : List Byte) (s : State) :
    (haltWith a0 a1 s).pending = s.pending ∧ (haltWith a0 a1 s).latch = s.latch ∧ (haltWith a0 a1 s).mem = s.mem ∧ (haltWith a0 a1 s).clk = s.clk ∧ (haltWith a0 a1 s).thm = s.thm ∧ (haltWith a0 a1 s).tck = s.tck ∧ (haltWith a0 a1 s).stm = s.stm ∧ (haltWith a0 a1 s).map = s.map ∧ (haltWith a0 a1 s).flc = s.flc ∧ (haltWith a0 a1 s).bnd = s.bnd ∧ (haltWith a0 a1 s).mbr = s.mbr ∧ (haltWith a0 a1 s).flt = s.flt ∧ (haltWith a0 a1 s).cpx = s.cpx ∧ (haltWith a0 a1 s).memc = s.memc ∧ (haltWith a0 a1 s).mov = s.mov ∧ (haltWith a0 a1 s).out = s.out ∧ (haltWith a0 a1 s).freeCtr = s.freeCtr := by
  unfold haltWith
  try dsimp only
  first
    | (simp; done)
    | ((repeat' split) <;> simp; done)
    | (and_intros <;> (repeat' (first | (simp; done) | split)))

@[simp] theorem smartAdd_frame (a0 : ℕ) (a1 : ℕ) (s : State) :
    (smartAdd a0 a1 s).pending = s.pending ∧ (smartAdd a0 a1 s).regs = s.regs ∧ (smartAdd a0 a1 s).latch = s.latch ∧ (smartAdd a0 a1 s).mem = s.mem ∧ (smartAdd a0 a1 s).sys = s.sys ∧ (smartAdd a0 a1 s).clk = s.clk ∧ (smartAdd a0 a1 s).thm = s.thm ∧ (smartAdd a0 a1 s).tck = s.tck ∧ (smartAdd a0 a1 s).hif = s.hif ∧ (smartAdd a0 a1 s).stm = s.stm ∧ (smartAdd a0 a1 s).map = s.map ∧ (smartAdd a0 a1 s).flc = s.flc ∧ (smartAdd a0 a1 s).bnd = s.bnd ∧ (smartAdd a0 a1 s).mbr = s.mbr ∧ (smartAdd a0 a1 s).flt = s.flt ∧ (smartAdd a0 a1 s).sec = s.sec ∧ (smartAdd a0 a1 s).cpx = s.cpx ∧ (smartAdd a0 a1 s).memc = s.memc ∧ (smartAdd a0 a1 s).mov = s.mov ∧ (smartAdd a0 a1 s).cst = s.cst ∧ (smartAdd a0 a1 s).out = s.out ∧ (smartAdd a0 a1 s).freeCtr = s.freeCtr := by
  unfold smartAdd
  try dsimp only
  first
    | (simp; done)
    | ((repeat' split) <;> simp; done)
    | (and_intros <;> (repeat' (first | (simp; done) | split)))

@[simp] theorem interrupt_frame (a0 : ℕ) (s : State) :
    (interrupt a0 s).pending = s.pending ∧ (interrupt a0 s).regs = s.regs ∧ (interrupt a0 s).latch = s.latch ∧ (interrupt a0 s).mem = s.mem ∧ (interrupt a0 s).sys = s.sys ∧ (interrupt a0 s).clk = s.clk ∧ (interrupt a0 s).thm = s.thm ∧ (interrupt a0 s).tck = s.tck ∧ (interrupt a0 s).stm = s.stm ∧ (interrupt a0 s).map = s.map ∧ (interrupt a0 s).flc = s.flc ∧ (interrupt a0 s).bnd = s.bnd ∧ (interrupt a0 s).mbr = s.mbr ∧ (interrupt a0 s).flt = s.flt ∧ (interrupt a0 s).sec = s.sec ∧ (interrupt a0 s).cpx = s.cpx ∧ (interrupt a0 s).memc = s.memc ∧ (interrupt a0 s).mov = s.mov ∧ (interrupt a0 s).cst = s.cst ∧ (interrupt a0 s).lnt = s.lnt ∧ (interrupt a0 s).freeCtr = s.freeCtr := by
  unfold interrupt
  try dsimp only
  first
    | (simp; done)
    | ((repeat' split) <;> simp; done)
    | (and_intros <;> (repeat' (first | (simp; done) | split)))

@[simp] theorem writeCqe_frame (a0 : ℕ) (a1 : Cqe) (s : State) :
    (writeCqe a0 a1 s).pending = s.pending ∧ (writeCqe a0 a1 s).regs = s.regs ∧ (writeCqe a0 a1 s).latch = s.latch ∧ (writeCqe a0 a1 s).mem = s.mem ∧ (writeCqe a0 a1 s).sys = s.sys ∧ (writeCqe a0 a1 s).clk = s.clk ∧ (writeCqe a0 a1 s).thm = s.thm ∧ (writeCqe a0 a1 s).tck = s.tck ∧ (writeCqe a0 a1 s).stm = s.stm ∧ (writeCqe a0 a1 s).map = s.map ∧ (writeCqe a0 a1 s).flc = s.flc ∧ (writeCqe a0 a1 s).bnd = s.bnd ∧ (writeCqe a0 a1 s).mbr = s.mbr ∧ (writeCqe a0 a1 s).flt = s.flt ∧ (writeCqe a0 a1 s).sec = s.sec ∧ (writeCqe a0 a1 s).cpx = s.cpx ∧ (writeCqe a0 a1 s).memc = s.memc ∧ (writeCqe a0 a1 s).mov = s.mov ∧ (writeCqe a0 a1 s).cst = s.cst ∧ (writeCqe a0 a1 s).freeCtr = s.freeCtr := by
  unfold writeCqe
  try dsimp only
  first
    | (simp; done)
    | ((repeat' split) <;> simp; done)
    | (and_intros <;> (repeat' (first | (simp; done) | split)))

@[simp] theorem postCqe_frame (a0 : ℕ) (a1 : Cqe) (s : State) :
    (postCqe a0 a1 s).pending = s.pending ∧ (postCqe a0 a1 s).regs = s.regs ∧ (postCqe a0 a1 s).latch = s.latch ∧ (postCqe a0 a1 s).mem = s.mem ∧ (postCqe a0 a1 s).sys = s.sys ∧ (postCqe a0 a1 s).clk = s.clk ∧ (postCqe a0 a1 s).thm = s.thm ∧ (postCqe a0 a1 s).tck = s.tck ∧ (postCqe a0 a1 s).stm = s.stm ∧ (postCqe a0 a1 s).map = s.map ∧ (postCqe a0 a1 s).flc = s.flc ∧ (postCqe a0 a1 s).bnd = s.bnd ∧ (postCqe a0 a1 s).mbr = s.mbr ∧ (postCqe a0 a1 s).flt = s.flt ∧ (postCqe a0 a1 s).sec = s.sec ∧ (postCqe a0 a1 s).cpx = s.cpx ∧ (postCqe a0 a1 s).memc = s.memc ∧ (postCqe a0 a1 s).mov = s.mov ∧ (postCqe a0 a1 s).cst = s.cst ∧ (postCqe a0 a1 s).freeCtr = s.freeCtr := by
  unfold postCqe
  try dsimp only
  first
    | (simp; done)
    | ((repeat' split) <;> simp; done)
    | (and_intros <;> (repeat' (first | (simp; done) | split)))

@[simp] theorem drainCq_frame (a0 : ℕ) (s : State) :
    (drainCq a0 s).pending = s.pending ∧ (drainCq a0 s).regs = s.regs ∧ (drainCq a0 s).latch = s.latch ∧ (drainCq a0 s).mem = s.mem ∧ (drainCq a0 s).sys = s.sys ∧ (drainCq a0 s).clk = s.clk ∧ (drainCq a0 s).thm = s.thm ∧ (drainCq a0 s).tck = s.tck ∧ (drainCq a0 s).stm = s.stm ∧ (drainCq a0 s).map = s.map ∧ (drainCq a0 s).flc = s.flc ∧ (drainCq a0 s).bnd = s.bnd ∧ (drainCq a0 s).mbr = s.mbr ∧ (drainCq a0 s).flt = s.flt ∧ (drainCq a0 s).sec = s.sec ∧ (drainCq a0 s).cpx = s.cpx ∧ (drainCq a0 s).memc = s.memc ∧ (drainCq a0 s).mov = s.mov ∧ (drainCq a0 s).cst = s.cst ∧ (drainCq a0 s).freeCtr = s.freeCtr := by
  unfold drainCq
  try dsimp only
  first
    | (simp; done)
    | ((repeat' split) <;> simp; done)
    | (and_intros <;> (repeat' (first | (simp; done) | split)))

@[simp] theorem drainCqs_frame (s : State) :
    (drainCqs s).pending = s.pending ∧ (drainCqs s).regs = s.regs ∧ (drainCqs s).latch = s.latch ∧ (drainCqs s).mem = s.mem ∧ (drainCqs s).sys = s.sys ∧ (drainCqs s).clk = s.clk ∧ (drainCqs s).thm = s.thm ∧ (drainCqs s).tck = s.tck ∧ (drainCqs s).stm = s.stm ∧ (drainCqs s).map = s.map ∧ (drainCqs s).flc = s.flc ∧ (drainCqs s).bnd = s.bnd ∧ (drainCqs s).mbr = s.mbr ∧ (drainCqs s).flt = s.flt ∧ (drainCqs s).sec = s.sec ∧ (drainCqs s).cpx = s.cpx ∧ (drainCqs s).memc = s.memc ∧ (drainCqs s).mov = s.mov ∧ (drainCqs s).cst = s.cst ∧ (drainCqs s).freeCtr = s.freeCtr := by
  unfold drainCqs
  try dsimp only
  first
    | (simp; done)
    | ((repeat' split) <;> simp; done)
    | (and_intros <;> (repeat' (first | (simp; done) | split)))

@[simp] theorem adminDone_frame (a0 : ℕ) (a1 : ℕ) (a2 : ℕ) (a3 : ℕ) (s : State) :
    (adminDone a0 a1 a2 a3 s).pending = s.pending ∧ (adminDone a0 a1 a2 a3 s).regs = s.regs ∧ (adminDone a0 a1 a2 a3 s).latch = s.latch ∧ (adminDone a0 a1 a2 a3 s).mem = s.mem ∧ (adminDone a0 a1 a2 a3 s).sys = s.sys ∧ (adminDone a0 a1 a2 a3 s).clk = s.clk ∧ (adminDone a0 a1 a2 a3 s).thm = s.thm ∧ (adminDone a0 a1 a2 a3 s).tck = s.tck ∧ (adminDone a0 a1 a2 a3 s).stm = s.stm ∧ (adminDone a0 a1 a2 a3 s).map = s.map ∧ (adminDone a0 a1 a2 a3 s).flc = s.flc ∧ (adminDone a0 a1 a2 a3 s).bnd = s.bnd ∧ (adminDone a0 a1 a2 a3 s).mbr = s.mbr ∧ (adminDone a0 a1 a2 a3 s).flt = s.flt ∧ (adminDone a0 a1 a2 a3 s).sec = s.sec ∧ (adminDone a0 a1 a2 a3 s).cpx = s.cpx ∧ (adminDone a0 a1 a2 a3 s).memc = s.memc ∧ (adminDone a0 a1 a2 a3 s).mov = s.mov ∧ (adminDone a0 a1 a2 a3 s).cst = s.cst ∧ (adminDone a0 a1 a2 a3 s).freeCtr = s.freeCtr := by
  unfold adminDone
  try dsimp only
  first
    | (simp; done)
    | ((repeat' split) <;> simp; done)
    | (and_intros <;> (repeat' (first | (simp; done) | split)))

@[simp] theorem adminOk_frame (a0 : ℕ) (s : State) :
    (adminOk a0 s).pending = s.pending ∧ (adminOk a0 s).regs = s.regs ∧ (adminOk a0 s).latch = s.latch ∧ (adminOk a0 s).mem = s.mem ∧ (adminOk a0 s).sys = s.sys ∧ (adminOk a0 s).clk = s.clk ∧ (adminOk a0 s).thm = s.thm ∧ (adminOk a0 s).tck = s.tck ∧ (adminOk a0 s).stm = s.stm ∧ (adminOk a0 s).map = s.map ∧ (adminOk a0 s).flc = s.flc ∧ (adminOk a0 s).bnd = s.bnd ∧ (adminOk a0 s).mbr = s.mbr ∧ (adminOk a0 s).flt = s.flt ∧ (adminOk a0 s).sec = s.sec ∧ (adminOk a0 s).cpx = s.cpx ∧ (adminOk a0 s).memc = s.memc ∧ (adminOk a0 s).mov = s.mov ∧ (adminOk a0 s).cst = s.cst ∧ (adminOk a0 s).freeCtr = s.freeCtr := by
  unfold adminOk
  try dsimp only
  first
    | (simp; done)
    | ((repeat' split) <;> simp; done)
    | (and_intros <;> (repeat' (first | (simp; done) | split)))

@[simp] theorem adminErr_frame (a0 : ℕ) (a1 : ℕ) (a2 : ℕ) (s : State) :
    (adminErr a0 a1 a2 s).pending = s.pending ∧ (adminErr a0 a1 a2 s).regs = s.regs ∧ (adminErr a0 a1 a2 s).latch = s.latch ∧ (adminErr a0 a1 a2 s).mem = s.mem ∧ (adminErr a0 a1 a2 s).sys = s.sys ∧ (adminErr a0 a1 a2 s).clk = s.clk ∧ (adminErr a0 a1 a2 s).thm = s.thm ∧ (adminErr a0 a1 a2 s).tck = s.tck ∧ (adminErr a0 a1 a2 s).stm = s.stm ∧ (adminErr a0 a1 a2 s).map = s.map ∧ (adminErr a0 a1 a2 s).flc = s.flc ∧ (adminErr a0 a1 a2 s).bnd = s.bnd ∧ (adminErr a0 a1 a2 s).mbr = s.mbr ∧ (adminErr a0 a1 a2 s).flt = s.flt ∧ (adminErr a0 a1 a2 s).sec = s.sec ∧ (adminErr a0 a1 a2 s).cpx = s.cpx ∧ (adminErr a0 a1 a2 s).memc = s.memc ∧ (adminErr a0 a1 a2 s).mov = s.mov ∧ (adminErr a0 a1 a2 s).cst = s.cst ∧ (adminErr a0 a1 a2 s).freeCtr = s.freeCtr := by
  unfold adminErr
  try dsimp only
  first
    | (simp; done)
    | ((repeat' split) <;> simp; done)
    | (and_intros <;> (repeat' (first | (simp; done) | split)))

@[simp] theorem adminNm_frame (a0 : ℕ) (a1 : ℕ) (s : State) :
    (adminNm a0 a1 s).pending = s.pending ∧ (adminNm a0 a1 s).regs = s.regs ∧ (adminNm a0 a1 s).latch = s.latch ∧ (adminNm a0 a1 s).mem = s.mem ∧ (adminNm a0 a1 s).sys = s.sys ∧ (adminNm a0 a1 s).clk = s.clk ∧ (adminNm a0 a1 s).thm = s.thm ∧ (adminNm a0 a1 s).tck = s.tck ∧ (adminNm a0 a1 s).stm = s.stm ∧ (adminNm a0 a1 s).map = s.map ∧ (adminNm a0 a1 s).flc = s.flc ∧ (adminNm a0 a1 s).bnd = s.bnd ∧ (adminNm a0 a1 s).mbr = s.mbr ∧ (adminNm a0 a1 s).flt = s.flt ∧ (adminNm a0 a1 s).sec = s.sec ∧ (adminNm a0 a1 s).cpx = s.cpx ∧ (adminNm a0 a1 s).memc = s.memc ∧ (adminNm a0 a1 s).mov = s.mov ∧ (adminNm a0 a1 s).cst = s.cst ∧ (adminNm a0 a1 s).freeCtr = s.freeCtr := by
  unfold adminNm
  try dsimp only
  first
    | (simp; done)
    | ((repeat' split) <;> simp; done)
    | (and_intros <;> (repeat' (first | (simp; done) | split)))

@[simp] theorem asyncEvent_frame (a0 : ℕ) (a1 : ℕ) (a2 : ℕ) (s : State) :
    (asyncEvent a0 a1 a2 s).pending = s.pending ∧ (asyncEvent a0 a1 a2 s).regs = s.regs ∧ (asyncEvent a0 a1 a2 s).latch = s.latch ∧ (asyncEvent a0 a1 a2 s).mem = s.mem ∧ (asyncEvent a0 a1 a2 s).sys = s.sys ∧ (asyncEvent a0 a1 a2 s).clk = s.clk ∧ (asyncEvent a0 a1 a2 s).thm = s.thm ∧ (asyncEvent a0 a1 a2 s).tck = s.tck ∧ (asyncEvent a0 a1 a2 s).stm = s.stm ∧ (asyncEvent a0 a1 a2 s).map = s.map ∧ (asyncEvent a0 a1 a2 s).flc = s.flc ∧ (asyncEvent a0 a1 a2 s).bnd = s.bnd ∧ (asyncEvent a0 a1 a2 s).mbr = s.mbr ∧ (asyncEvent a0 a1 a2 s).flt = s.flt ∧ (asyncEvent a0 a1 a2 s).sec = s.sec ∧ (asyncEvent a0 a1 a2 s).cpx = s.cpx ∧ (asyncEvent a0 a1 a2 s).memc = s.memc ∧ (asyncEvent a0 a1 a2 s).mov = s.mov ∧ (asyncEvent a0 a1 a2 s).cst = s.cst ∧ (asyncEvent a0 a1 a2 s).freeCtr = s.freeCtr := by
  unfold asyncEvent
  try dsimp only
  first
    | (simp; done)
    | ((repeat' split) <;> simp; done)
    | (and_intros <;> (repeat' (first | (simp; done) | split)))

@[simp] theorem complete_frame (a0 : Src) (a1 : ℕ) (a2 : ℕ) (a3 : List Byte) (a4 : List Byte) (s : State) :
    (complete a0 a1 a2 a3 a4 s).pending = s.pending ∧ (complete a0 a1 a2 a3 a4 s).latch = s.latch ∧ (complete a0 a1 a2 a3 a4 s).mem = s.mem ∧ (complete a0 a1 a2 a3 a4 s).clk = s.clk ∧ (complete a0 a1 a2 a3 a4 s).thm = s.thm ∧ (complete a0 a1 a2 a3 a4 s).tck = s.tck ∧ (complete a0 a1 a2 a3 a4 s).hif = s.hif ∧ (complete a0 a1 a2 a3 a4 s).stm = s.stm ∧ (complete a0 a1 a2 a3 a4 s).map = s.map ∧ (complete a0 a1 a2 a3 a4 s).flc = s.flc ∧ (complete a0 a1 a2 a3 a4 s).bnd = s.bnd ∧ (complete a0 a1 a2 a3 a4 s).mbr = s.mbr ∧ (complete a0 a1 a2 a3 a4 s).flt = s.flt ∧ (complete a0 a1 a2 a3 a4 s).sec = s.sec ∧ (complete a0 a1 a2 a3 a4 s).cpx = s.cpx ∧ (complete a0 a1 a2 a3 a4 s).memc = s.memc ∧ (complete a0 a1 a2 a3 a4 s).mov = s.mov ∧ (complete a0 a1 a2 a3 a4 s).cst = s.cst ∧ (complete a0 a1 a2 a3 a4 s).freeCtr = s.freeCtr := by
  unfold complete
  try dsimp only
  first
    | (simp; done)
    | ((repeat' split) <;> simp; done)
    | (and_intros <;> (repeat' (first | (simp; done) | split)))

@[simp] theorem completeOk_frame (a0 : Src) (a1 : ℕ) (s : State) :
    (completeOk a0 a1 s).pending = s.pending ∧ (completeOk a0 a1 s).latch = s.latch ∧ (completeOk a0 a1 s).mem = s.mem ∧ (completeOk a0 a1 s).clk = s.clk ∧ (completeOk a0 a1 s).thm = s.thm ∧ (completeOk a0 a1 s).tck = s.tck ∧ (completeOk a0 a1 s).hif = s.hif ∧ (completeOk a0 a1 s).stm = s.stm ∧ (completeOk a0 a1 s).map = s.map ∧ (completeOk a0 a1 s).flc = s.flc ∧ (completeOk a0 a1 s).bnd = s.bnd ∧ (completeOk a0 a1 s).mbr = s.mbr ∧ (completeOk a0 a1 s).flt = s.flt ∧ (completeOk a0 a1 s).sec = s.sec ∧ (completeOk a0 a1 s).cpx = s.cpx ∧ (completeOk a0 a1 s).memc = s.memc ∧ (completeOk a0 a1 s).mov = s.mov ∧ (completeOk a0 a1 s).cst = s.cst ∧ (completeOk a0 a1 s).freeCtr = s.freeCtr := by
  unfold completeOk
  try dsimp only
  first
    | (simp; done)
    | ((repeat' split) <;> simp; done)
    | (and_intros <;> (repeat' (first | (simp; done) | split)))

@[simp] theorem completeErr_frame (a0 : Src) (a1 : ℕ) (a2 : ℕ) (s : State) :
    (completeErr a0 a1 a2 s).pending = s.pending ∧ (completeErr a0 a1 a2 s).latch = s.latch ∧ (completeErr a0 a1 a2 s).mem = s.mem ∧ (completeErr a0 a1 a2 s).clk = s.clk ∧ (completeErr a0 a1 a2 s).thm = s.thm ∧ (completeErr a0 a1 a2 s).tck = s.tck ∧ (completeErr a0 a1 a2 s).hif = s.hif ∧ (completeErr a0 a1 a2 s).stm = s.stm ∧ (completeErr a0 a1 a2 s).map = s.map ∧ (completeErr a0 a1 a2 s).flc = s.flc ∧ (completeErr a0 a1 a2 s).bnd = s.bnd ∧ (completeErr a0 a1 a2 s).mbr = s.mbr ∧ (completeErr a0 a1 a2 s).flt = s.flt ∧ (completeErr a0 a1 a2 s).sec = s.sec ∧ (completeErr a0 a1 a2 s).cpx = s.cpx ∧ (completeErr a0 a1 a2 s).memc = s.memc ∧ (completeErr a0 a1 a2 s).mov = s.mov ∧ (completeErr a0 a1 a2 s).cst = s.cst ∧ (completeErr a0 a1 a2 s).freeCtr = s.freeCtr := by
  unfold completeErr
  try dsimp only
  first
    | (simp; done)
    | ((repeat' split) <;> simp; done)
    | (and_intros <;> (repeat' (first | (simp; done) | split)))

/-! ### Stores -/

@[simp] theorem discardStore_frame (a0 : ℕ) (a1 : Word) (s : State) :
    (discardStore a0 a1 s).pending = s.pending ∧ (discardStore a0 a1 s).latch = s.latch ∧ (discardStore a0 a1 s).mem = s.mem ∧ (discardStore a0 a1 s).clk = s.clk ∧ (discardStore a0 a1 s).thm = s.thm ∧ (discardStore a0 a1 s).tck = s.tck ∧ (discardStore a0 a1 s).hif = s.hif ∧ (discardStore a0 a1 s).stm = s.stm ∧ (discardStore a0 a1 s).map = s.map ∧ (discardStore a0 a1 s).flc = s.flc ∧ (discardStore a0 a1 s).bnd = s.bnd ∧ (discardStore a0 a1 s).mbr = s.mbr ∧ (discardStore a0 a1 s).flt = s.flt ∧ (discardStore a0 a1 s).sec = s.sec ∧ (discardStore a0 a1 s).cpx = s.cpx ∧ (discardStore a0 a1 s).memc = s.memc ∧ (discardStore a0 a1 s).mov = s.mov ∧ (discardStore a0 a1 s).cst = s.cst ∧ (discardStore a0 a1 s).out = s.out ∧ (discardStore a0 a1 s).freeCtr = s.freeCtr := by
  unfold discardStore
  try dsimp only
  first
    | (simp; done)
    | ((repeat' split) <;> simp; done)
    | (and_intros <;> (repeat' (first | (simp; done) | split)))

@[simp] theorem ignoreStore_frame (s : State) :
    (ignoreStore s).pending = s.pending ∧ (ignoreStore s).latch = s.latch ∧ (ignoreStore s).mem = s.mem ∧ (ignoreStore s).clk = s.clk ∧ (ignoreStore s).thm = s.thm ∧ (ignoreStore s).tck = s.tck ∧ (ignoreStore s).hif = s.hif ∧ (ignoreStore s).stm = s.stm ∧ (ignoreStore s).map = s.map ∧ (ignoreStore s).flc = s.flc ∧ (ignoreStore s).bnd = s.bnd ∧ (ignoreStore s).mbr = s.mbr ∧ (ignoreStore s).flt = s.flt ∧ (ignoreStore s).sec = s.sec ∧ (ignoreStore s).cpx = s.cpx ∧ (ignoreStore s).memc = s.memc ∧ (ignoreStore s).mov = s.mov ∧ (ignoreStore s).cst = s.cst ∧ (ignoreStore s).lnt = s.lnt ∧ (ignoreStore s).out = s.out ∧ (ignoreStore s).freeCtr = s.freeCtr := by
  unfold ignoreStore
  try dsimp only
  first
    | (simp; done)
    | ((repeat' split) <;> simp; done)
    | (and_intros <;> (repeat' (first | (simp; done) | split)))

@[simp] theorem sealedWrite_frame (a0 : ℕ) (a1 : Word) (s : State) :
    (sealedWrite a0 a1 s).pending = s.pending ∧ (sealedWrite a0 a1 s).latch = s.latch ∧ (sealedWrite a0 a1 s).mem = s.mem ∧ (sealedWrite a0 a1 s).clk = s.clk ∧ (sealedWrite a0 a1 s).thm = s.thm ∧ (sealedWrite a0 a1 s).tck = s.tck ∧ (sealedWrite a0 a1 s).hif = s.hif ∧ (sealedWrite a0 a1 s).stm = s.stm ∧ (sealedWrite a0 a1 s).map = s.map ∧ (sealedWrite a0 a1 s).flc = s.flc ∧ (sealedWrite a0 a1 s).bnd = s.bnd ∧ (sealedWrite a0 a1 s).mbr = s.mbr ∧ (sealedWrite a0 a1 s).flt = s.flt ∧ (sealedWrite a0 a1 s).sec = s.sec ∧ (sealedWrite a0 a1 s).cpx = s.cpx ∧ (sealedWrite a0 a1 s).memc = s.memc ∧ (sealedWrite a0 a1 s).mov = s.mov ∧ (sealedWrite a0 a1 s).cst = s.cst ∧ (sealedWrite a0 a1 s).out = s.out ∧ (sealedWrite a0 a1 s).freeCtr = s.freeCtr := by
  unfold sealedWrite
  try dsimp only
  first
    | (simp; done)
    | ((repeat' split) <;> simp; done)
    | (and_intros <;> (repeat' (first | (simp; done) | split)))

@[simp] theorem countStore_frame (a0 : RegDef) (a1 : ℕ) (a2 : ℕ) (a3 : Word) (s : State) :
    (countStore a0 a1 a2 a3 s).pending = s.pending ∧ (countStore a0 a1 a2 a3 s).latch = s.latch ∧ (countStore a0 a1 a2 a3 s).mem = s.mem ∧ (countStore a0 a1 a2 a3 s).clk = s.clk ∧ (countStore a0 a1 a2 a3 s).thm = s.thm ∧ (countStore a0 a1 a2 a3 s).tck = s.tck ∧ (countStore a0 a1 a2 a3 s).hif = s.hif ∧ (countStore a0 a1 a2 a3 s).stm = s.stm ∧ (countStore a0 a1 a2 a3 s).map = s.map ∧ (countStore a0 a1 a2 a3 s).flc = s.flc ∧ (countStore a0 a1 a2 a3 s).bnd = s.bnd ∧ (countStore a0 a1 a2 a3 s).mbr = s.mbr ∧ (countStore a0 a1 a2 a3 s).flt = s.flt ∧ (countStore a0 a1 a2 a3 s).sec = s.sec ∧ (countStore a0 a1 a2 a3 s).cpx = s.cpx ∧ (countStore a0 a1 a2 a3 s).memc = s.memc ∧ (countStore a0 a1 a2 a3 s).mov = s.mov ∧ (countStore a0 a1 a2 a3 s).cst = s.cst ∧ (countStore a0 a1 a2 a3 s).out = s.out ∧ (countStore a0 a1 a2 a3 s).freeCtr = s.freeCtr := by
  unfold countStore
  try dsimp only
  first
    | (simp; done)
    | ((repeat' split) <;> simp; done)
    | (and_intros <;> (repeat' (first | (simp; done) | split)))

@[simp] theorem storeSeen_frame (a0 : ℕ) (a1 : ℕ) (a2 : Word) (s : State) :
    (storeSeen a0 a1 a2 s).pending = s.pending ∧ (storeSeen a0 a1 a2 s).latch = s.latch ∧ (storeSeen a0 a1 a2 s).mem = s.mem ∧ (storeSeen a0 a1 a2 s).clk = s.clk ∧ (storeSeen a0 a1 a2 s).thm = s.thm ∧ (storeSeen a0 a1 a2 s).tck = s.tck ∧ (storeSeen a0 a1 a2 s).hif = s.hif ∧ (storeSeen a0 a1 a2 s).stm = s.stm ∧ (storeSeen a0 a1 a2 s).map = s.map ∧ (storeSeen a0 a1 a2 s).flc = s.flc ∧ (storeSeen a0 a1 a2 s).bnd = s.bnd ∧ (storeSeen a0 a1 a2 s).mbr = s.mbr ∧ (storeSeen a0 a1 a2 s).flt = s.flt ∧ (storeSeen a0 a1 a2 s).sec = s.sec ∧ (storeSeen a0 a1 a2 s).cpx = s.cpx ∧ (storeSeen a0 a1 a2 s).memc = s.memc ∧ (storeSeen a0 a1 a2 s).mov = s.mov ∧ (storeSeen a0 a1 a2 s).cst = s.cst ∧ (storeSeen a0 a1 a2 s).out = s.out ∧ (storeSeen a0 a1 a2 s).freeCtr = s.freeCtr := by
  unfold storeSeen
  try dsimp only
  first
    | (simp; done)
    | ((repeat' split) <;> simp; done)
    | (and_intros <;> (repeat' (first | (simp; done) | split)))

@[simp] theorem storeFile_frame (a0 : ℕ) (a1 : Word) (s : State) :
    (storeFile a0 a1 s).pending = s.pending ∧ (storeFile a0 a1 s).latch = s.latch ∧ (storeFile a0 a1 s).mem = s.mem ∧ (storeFile a0 a1 s).clk = s.clk ∧ (storeFile a0 a1 s).thm = s.thm ∧ (storeFile a0 a1 s).tck = s.tck ∧ (storeFile a0 a1 s).hif = s.hif ∧ (storeFile a0 a1 s).stm = s.stm ∧ (storeFile a0 a1 s).map = s.map ∧ (storeFile a0 a1 s).flc = s.flc ∧ (storeFile a0 a1 s).bnd = s.bnd ∧ (storeFile a0 a1 s).mbr = s.mbr ∧ (storeFile a0 a1 s).flt = s.flt ∧ (storeFile a0 a1 s).sec = s.sec ∧ (storeFile a0 a1 s).cpx = s.cpx ∧ (storeFile a0 a1 s).memc = s.memc ∧ (storeFile a0 a1 s).mov = s.mov ∧ (storeFile a0 a1 s).cst = s.cst ∧ (storeFile a0 a1 s).out = s.out ∧ (storeFile a0 a1 s).freeCtr = s.freeCtr := by
  unfold storeFile
  try dsimp only
  first
    | (simp; done)
    | ((repeat' split) <;> simp; done)
    | (and_intros <;> (repeat' (first | (simp; done) | split)))

@[simp] theorem storeWoSeen_frame (a0 : ℕ) (a1 : ℕ) (a2 : Word) (s : State) :
    (storeWoSeen a0 a1 a2 s).pending = s.pending ∧ (storeWoSeen a0 a1 a2 s).latch = s.latch ∧ (storeWoSeen a0 a1 a2 s).mem = s.mem ∧ (storeWoSeen a0 a1 a2 s).clk = s.clk ∧ (storeWoSeen a0 a1 a2 s).thm = s.thm ∧ (storeWoSeen a0 a1 a2 s).tck = s.tck ∧ (storeWoSeen a0 a1 a2 s).hif = s.hif ∧ (storeWoSeen a0 a1 a2 s).stm = s.stm ∧ (storeWoSeen a0 a1 a2 s).map = s.map ∧ (storeWoSeen a0 a1 a2 s).flc = s.flc ∧ (storeWoSeen a0 a1 a2 s).bnd = s.bnd ∧ (storeWoSeen a0 a1 a2 s).mbr = s.mbr ∧ (storeWoSeen a0 a1 a2 s).flt = s.flt ∧ (storeWoSeen a0 a1 a2 s).sec = s.sec ∧ (storeWoSeen a0 a1 a2 s).cpx = s.cpx ∧ (storeWoSeen a0 a1 a2 s).memc = s.memc ∧ (storeWoSeen a0 a1 a2 s).mov = s.mov ∧ (storeWoSeen a0 a1 a2 s).cst = s.cst ∧ (storeWoSeen a0 a1 a2 s).out = s.out ∧ (storeWoSeen a0 a1 a2 s).freeCtr = s.freeCtr := by
  unfold storeWoSeen
  try dsimp only
  first
    | (simp; done)
    | ((repeat' split) <;> simp; done)
    | (and_intros <;> (repeat' (first | (simp; done) | split)))

@[simp] theorem storeWo_frame (a0 : ℕ) (a1 : Word) (s : State) :
    (storeWo a0 a1 s).pending = s.pending ∧ (storeWo a0 a1 s).latch = s.latch ∧ (storeWo a0 a1 s).mem = s.mem ∧ (storeWo a0 a1 s).clk = s.clk ∧ (storeWo a0 a1 s).thm = s.thm ∧ (storeWo a0 a1 s).tck = s.tck ∧ (storeWo a0 a1 s).hif = s.hif ∧ (storeWo a0 a1 s).stm = s.stm ∧ (storeWo a0 a1 s).map = s.map ∧ (storeWo a0 a1 s).flc = s.flc ∧ (storeWo a0 a1 s).bnd = s.bnd ∧ (storeWo a0 a1 s).mbr = s.mbr ∧ (storeWo a0 a1 s).flt = s.flt ∧ (storeWo a0 a1 s).sec = s.sec ∧ (storeWo a0 a1 s).cpx = s.cpx ∧ (storeWo a0 a1 s).memc = s.memc ∧ (storeWo a0 a1 s).mov = s.mov ∧ (storeWo a0 a1 s).cst = s.cst ∧ (storeWo a0 a1 s).out = s.out ∧ (storeWo a0 a1 s).freeCtr = s.freeCtr := by
  unfold storeWo
  try dsimp only
  first
    | (simp; done)
    | ((repeat' split) <;> simp; done)
    | (and_intros <;> (repeat' (first | (simp; done) | split)))

/-! ### Clocks -/

@[simp] theorem setGate_frame (a0 : ℕ) (a1 : GateSt) (s : State) :
    (setGate a0 a1 s).pending = s.pending ∧ (setGate a0 a1 s).regs = s.regs ∧ (setGate a0 a1 s).latch = s.latch ∧ (setGate a0 a1 s).mem = s.mem ∧ (setGate a0 a1 s).sys = s.sys ∧ (setGate a0 a1 s).thm = s.thm ∧ (setGate a0 a1 s).tck = s.tck ∧ (setGate a0 a1 s).hif = s.hif ∧ (setGate a0 a1 s).stm = s.stm ∧ (setGate a0 a1 s).map = s.map ∧ (setGate a0 a1 s).flc = s.flc ∧ (setGate a0 a1 s).bnd = s.bnd ∧ (setGate a0 a1 s).mbr = s.mbr ∧ (setGate a0 a1 s).flt = s.flt ∧ (setGate a0 a1 s).sec = s.sec ∧ (setGate a0 a1 s).cpx = s.cpx ∧ (setGate a0 a1 s).memc = s.memc ∧ (setGate a0 a1 s).mov = s.mov ∧ (setGate a0 a1 s).cst = s.cst ∧ (setGate a0 a1 s).lnt = s.lnt ∧ (setGate a0 a1 s).out = s.out ∧ (setGate a0 a1 s).freeCtr = s.freeCtr := by
  unfold setGate
  try dsimp only
  first
    | (simp; done)
    | ((repeat' split) <;> simp; done)
    | (and_intros <;> (repeat' (first | (simp; done) | split)))

@[simp] theorem gateResult_frame (a0 : ℕ) (a1 : ℕ) (s : State) :
    (gateResult a0 a1 s).pending = s.pending ∧ (gateResult a0 a1 s).latch = s.latch ∧ (gateResult a0 a1 s).mem = s.mem ∧ (gateResult a0 a1 s).clk = s.clk ∧ (gateResult a0 a1 s).thm = s.thm ∧ (gateResult a0 a1 s).tck = s.tck ∧ (gateResult a0 a1 s).hif = s.hif ∧ (gateResult a0 a1 s).stm = s.stm ∧ (gateResult a0 a1 s).map = s.map ∧ (gateResult a0 a1 s).flc = s.flc ∧ (gateResult a0 a1 s).bnd = s.bnd ∧ (gateResult a0 a1 s).mbr = s.mbr ∧ (gateResult a0 a1 s).flt = s.flt ∧ (gateResult a0 a1 s).sec = s.sec ∧ (gateResult a0 a1 s).cpx = s.cpx ∧ (gateResult a0 a1 s).memc = s.memc ∧ (gateResult a0 a1 s).mov = s.mov ∧ (gateResult a0 a1 s).cst = s.cst ∧ (gateResult a0 a1 s).out = s.out ∧ (gateResult a0 a1 s).freeCtr = s.freeCtr := by
  unfold gateResult
  try dsimp only
  first
    | (simp; done)
    | ((repeat' split) <;> simp; done)
    | (and_intros <;> (repeat' (first | (simp; done) | split)))

@[simp] theorem gateOnReq_frame (a0 : ℕ) (s : State) :
    (gateOnReq a0 s).pending = s.pending ∧ (gateOnReq a0 s).latch = s.latch ∧ (gateOnReq a0 s).mem = s.mem ∧ (gateOnReq a0 s).thm = s.thm ∧ (gateOnReq a0 s).tck = s.tck ∧ (gateOnReq a0 s).hif = s.hif ∧ (gateOnReq a0 s).stm = s.stm ∧ (gateOnReq a0 s).map = s.map ∧ (gateOnReq a0 s).flc = s.flc ∧ (gateOnReq a0 s).bnd = s.bnd ∧ (gateOnReq a0 s).mbr = s.mbr ∧ (gateOnReq a0 s).flt = s.flt ∧ (gateOnReq a0 s).sec = s.sec ∧ (gateOnReq a0 s).cpx = s.cpx ∧ (gateOnReq a0 s).memc = s.memc ∧ (gateOnReq a0 s).mov = s.mov ∧ (gateOnReq a0 s).cst = s.cst ∧ (gateOnReq a0 s).out = s.out ∧ (gateOnReq a0 s).freeCtr = s.freeCtr := by
  unfold gateOnReq
  try dsimp only
  first
    | (simp; done)
    | ((repeat' split) <;> simp; done)
    | (and_intros <;> (repeat' (first | (simp; done) | split)))

@[simp] theorem gateOffReq_frame (a0 : ℕ) (s : State) :
    (gateOffReq a0 s).pending = s.pending ∧ (gateOffReq a0 s).latch = s.latch ∧ (gateOffReq a0 s).mem = s.mem ∧ (gateOffReq a0 s).thm = s.thm ∧ (gateOffReq a0 s).tck = s.tck ∧ (gateOffReq a0 s).hif = s.hif ∧ (gateOffReq a0 s).stm = s.stm ∧ (gateOffReq a0 s).map = s.map ∧ (gateOffReq a0 s).flc = s.flc ∧ (gateOffReq a0 s).bnd = s.bnd ∧ (gateOffReq a0 s).mbr = s.mbr ∧ (gateOffReq a0 s).flt = s.flt ∧ (gateOffReq a0 s).sec = s.sec ∧ (gateOffReq a0 s).cpx = s.cpx ∧ (gateOffReq a0 s).memc = s.memc ∧ (gateOffReq a0 s).mov = s.mov ∧ (gateOffReq a0 s).cst = s.cst ∧ (gateOffReq a0 s).out = s.out ∧ (gateOffReq a0 s).freeCtr = s.freeCtr := by
  unfold gateOffReq
  try dsimp only
  first
    | (simp; done)
    | ((repeat' split) <;> simp; done)
    | (and_intros <;> (repeat' (first | (simp; done) | split)))

@[simp] theorem storeGate_frame (a0 : Word) (s : State) :
    (storeGate a0 s).pending = s.pending ∧ (storeGate a0 s).latch = s.latch ∧ (storeGate a0 s).mem = s.mem ∧ (storeGate a0 s).thm = s.thm ∧ (storeGate a0 s).tck = s.tck ∧ (storeGate a0 s).hif = s.hif ∧ (storeGate a0 s).stm = s.stm ∧ (storeGate a0 s).map = s.map ∧ (storeGate a0 s).flc = s.flc ∧ (storeGate a0 s).bnd = s.bnd ∧ (storeGate a0 s).mbr = s.mbr ∧ (storeGate a0 s).flt = s.flt ∧ (storeGate a0 s).sec = s.sec ∧ (storeGate a0 s).cpx = s.cpx ∧ (storeGate a0 s).memc = s.memc ∧ (storeGate a0 s).mov = s.mov ∧ (storeGate a0 s).cst = s.cst ∧ (storeGate a0 s).out = s.out ∧ (storeGate a0 s).freeCtr = s.freeCtr := by
  unfold storeGate
  try dsimp only
  first
    | (simp; done)
    | ((repeat' split) <;> simp; done)
    | (and_intros <;> (repeat' (first | (simp; done) | split)))

@[simp] theorem aclkUpdate_frame (s : State) :
    (aclkUpdate s).pending = s.pending ∧ (aclkUpdate s).latch = s.latch ∧ (aclkUpdate s).mem = s.mem ∧ (aclkUpdate s).sys = s.sys ∧ (aclkUpdate s).clk = s.clk ∧ (aclkUpdate s).thm = s.thm ∧ (aclkUpdate s).tck = s.tck ∧ (aclkUpdate s).hif = s.hif ∧ (aclkUpdate s).stm = s.stm ∧ (aclkUpdate s).map = s.map ∧ (aclkUpdate s).flc = s.flc ∧ (aclkUpdate s).bnd = s.bnd ∧ (aclkUpdate s).mbr = s.mbr ∧ (aclkUpdate s).flt = s.flt ∧ (aclkUpdate s).sec = s.sec ∧ (aclkUpdate s).cpx = s.cpx ∧ (aclkUpdate s).memc = s.memc ∧ (aclkUpdate s).mov = s.mov ∧ (aclkUpdate s).cst = s.cst ∧ (aclkUpdate s).lnt = s.lnt ∧ (aclkUpdate s).out = s.out ∧ (aclkUpdate s).freeCtr = s.freeCtr := by
  unfold aclkUpdate
  try dsimp only
  first
    | (simp; done)
    | ((repeat' split) <;> simp; done)
    | (and_intros <;> (repeat' (first | (simp; done) | split)))

/-! ### Lantern -/

@[simp] theorem lntThaw_frame (s : State) :
    (lntThaw s).pending = s.pending ∧ (lntThaw s).latch = s.latch ∧ (lntThaw s).mem = s.mem ∧ (lntThaw s).clk = s.clk ∧ (lntThaw s).thm = s.thm ∧ (lntThaw s).tck = s.tck ∧ (lntThaw s).hif = s.hif ∧ (lntThaw s).stm = s.stm ∧ (lntThaw s).map = s.map ∧ (lntThaw s).flc = s.flc ∧ (lntThaw s).bnd = s.bnd ∧ (lntThaw s).mbr = s.mbr ∧ (lntThaw s).flt = s.flt ∧ (lntThaw s).sec = s.sec ∧ (lntThaw s).cpx = s.cpx ∧ (lntThaw s).memc = s.memc ∧ (lntThaw s).mov = s.mov ∧ (lntThaw s).cst = s.cst ∧ (lntThaw s).out = s.out ∧ (lntThaw s).freeCtr = s.freeCtr := by
  unfold lntThaw
  try dsimp only
  first
    | (simp; done)
    | ((repeat' split) <;> simp; done)
    | (and_intros <;> (repeat' (first | (simp; done) | split)))

@[simp] theorem lntFlush_frame (s : State) :
    (lntFlush s).pending = s.pending ∧ (lntFlush s).latch = s.latch ∧ (lntFlush s).mem = s.mem ∧ (lntFlush s).sys = s.sys ∧ (lntFlush s).clk = s.clk ∧ (lntFlush s).thm = s.thm ∧ (lntFlush s).tck = s.tck ∧ (lntFlush s).hif = s.hif ∧ (lntFlush s).stm = s.stm ∧ (lntFlush s).map = s.map ∧ (lntFlush s).flc = s.flc ∧ (lntFlush s).bnd = s.bnd ∧ (lntFlush s).mbr = s.mbr ∧ (lntFlush s).flt = s.flt ∧ (lntFlush s).sec = s.sec ∧ (lntFlush s).cpx = s.cpx ∧ (lntFlush s).memc = s.memc ∧ (lntFlush s).mov = s.mov ∧ (lntFlush s).cst = s.cst ∧ (lntFlush s).out = s.out ∧ (lntFlush s).freeCtr = s.freeCtr := by
  unfold lntFlush
  try dsimp only
  first
    | (simp; done)
    | ((repeat' split) <;> simp; done)
    | (and_intros <;> (repeat' (first | (simp; done) | split)))

@[simp] theorem warn_frame (a0 : ℕ) (a1 : List Byte) (s : State) :
    (warn a0 a1 s).pending = s.pending ∧ (warn a0 a1 s).latch = s.latch ∧ (warn a0 a1 s).mem = s.mem ∧ (warn a0 a1 s).clk = s.clk ∧ (warn a0 a1 s).thm = s.thm ∧ (warn a0 a1 s).tck = s.tck ∧ (warn a0 a1 s).hif = s.hif ∧ (warn a0 a1 s).stm = s.stm ∧ (warn a0 a1 s).map = s.map ∧ (warn a0 a1 s).flc = s.flc ∧ (warn a0 a1 s).bnd = s.bnd ∧ (warn a0 a1 s).mbr = s.mbr ∧ (warn a0 a1 s).flt = s.flt ∧ (warn a0 a1 s).sec = s.sec ∧ (warn a0 a1 s).cpx = s.cpx ∧ (warn a0 a1 s).memc = s.memc ∧ (warn a0 a1 s).mov = s.mov ∧ (warn a0 a1 s).cst = s.cst ∧ (warn a0 a1 s).out = s.out ∧ (warn a0 a1 s).freeCtr = s.freeCtr := by
  unfold warn
  try dsimp only
  first
    | (simp; done)
    | ((repeat' split) <;> simp; done)
    | (and_intros <;> (repeat' (first | (simp; done) | split)))

/-! ### SegMap -/

@[simp] theorem withView_frame (a0 : MapView) (s : State) :
    (withView a0 s).pending = s.pending ∧ (withView a0 s).regs = s.regs ∧ (withView a0 s).latch = s.latch ∧ (withView a0 s).mem = s.mem ∧ (withView a0 s).sys = s.sys ∧ (withView a0 s).clk = s.clk ∧ (withView a0 s).thm = s.thm ∧ (withView a0 s).tck = s.tck ∧ (withView a0 s).hif = s.hif ∧ (withView a0 s).stm = s.stm ∧ (withView a0 s).flc = s.flc ∧ (withView a0 s).bnd = s.bnd ∧ (withView a0 s).mbr = s.mbr ∧ (withView a0 s).flt = s.flt ∧ (withView a0 s).sec = s.sec ∧ (withView a0 s).cpx = s.cpx ∧ (withView a0 s).memc = s.memc ∧ (withView a0 s).mov = s.mov ∧ (withView a0 s).cst = s.cst ∧ (withView a0 s).lnt = s.lnt ∧ (withView a0 s).out = s.out ∧ (withView a0 s).freeCtr = s.freeCtr := by
  unfold withView
  try dsimp only
  first
    | (simp; done)
    | ((repeat' split) <;> simp; done)
    | (and_intros <;> (repeat' (first | (simp; done) | split)))

@[simp] theorem cacheLook_frame (a0 : ℕ) (a1 : ℕ) (s : State) :
    (cacheLook a0 a1 s).pending = s.pending ∧ (cacheLook a0 a1 s).latch = s.latch ∧ (cacheLook a0 a1 s).mem = s.mem ∧ (cacheLook a0 a1 s).sys = s.sys ∧ (cacheLook a0 a1 s).clk = s.clk ∧ (cacheLook a0 a1 s).thm = s.thm ∧ (cacheLook a0 a1 s).tck = s.tck ∧ (cacheLook a0 a1 s).hif = s.hif ∧ (cacheLook a0 a1 s).stm = s.stm ∧ (cacheLook a0 a1 s).flc = s.flc ∧ (cacheLook a0 a1 s).bnd = s.bnd ∧ (cacheLook a0 a1 s).mbr = s.mbr ∧ (cacheLook a0 a1 s).flt = s.flt ∧ (cacheLook a0 a1 s).sec = s.sec ∧ (cacheLook a0 a1 s).cpx = s.cpx ∧ (cacheLook a0 a1 s).memc = s.memc ∧ (cacheLook a0 a1 s).mov = s.mov ∧ (cacheLook a0 a1 s).cst = s.cst ∧ (cacheLook a0 a1 s).lnt = s.lnt ∧ (cacheLook a0 a1 s).out = s.out ∧ (cacheLook a0 a1 s).freeCtr = s.freeCtr := by
  unfold cacheLook
  try dsimp only
  first
    | (simp; done)
    | ((repeat' split) <;> simp; done)
    | (and_intros <;> (repeat' (first | (simp; done) | split)))

@[simp] theorem cacheFor_frame (a0 : ℕ) (a1 : ℕ) (a2 : ℕ) (s : State) :
    (cacheFor a0 a1 a2 s).pending = s.pending ∧ (cacheFor a0 a1 a2 s).latch = s.latch ∧ (cacheFor a0 a1 a2 s).mem = s.mem ∧ (cacheFor a0 a1 a2 s).sys = s.sys ∧ (cacheFor a0 a1 a2 s).clk = s.clk ∧ (cacheFor a0 a1 a2 s).thm = s.thm ∧ (cacheFor a0 a1 a2 s).tck = s.tck ∧ (cacheFor a0 a1 a2 s).hif = s.hif ∧ (cacheFor a0 a1 a2 s).stm = s.stm ∧ (cacheFor a0 a1 a2 s).flc = s.flc ∧ (cacheFor a0 a1 a2 s).bnd = s.bnd ∧ (cacheFor a0 a1 a2 s).mbr = s.mbr ∧ (cacheFor a0 a1 a2 s).flt = s.flt ∧ (cacheFor a0 a1 a2 s).sec = s.sec ∧ (cacheFor a0 a1 a2 s).cpx = s.cpx ∧ (cacheFor a0 a1 a2 s).memc = s.memc ∧ (cacheFor a0 a1 a2 s).mov = s.mov ∧ (cacheFor a0 a1 a2 s).cst = s.cst ∧ (cacheFor a0 a1 a2 s).lnt = s.lnt ∧ (cacheFor a0 a1 a2 s).out = s.out ∧ (cacheFor a0 a1 a2 s).freeCtr = s.freeCtr := by
  unfold cacheFor
  try dsimp only
  first
    | (simp; done)
    | ((repeat' split) <;> simp; done)
    | (and_intros <;> (repeat' (first | (simp; done) | split)))

@[simp] theorem putRec_frame (a0 : MapRec) (s : State) :
    (putRec a0 s).pending = s.pending ∧ (putRec a0 s).regs = s.regs ∧ (putRec a0 s).latch = s.latch ∧ (putRec a0 s).mem = s.mem ∧ (putRec a0 s).sys = s.sys ∧ (putRec a0 s).clk = s.clk ∧ (putRec a0 s).thm = s.thm ∧ (putRec a0 s).tck = s.tck ∧ (putRec a0 s).hif = s.hif ∧ (putRec a0 s).stm = s.stm ∧ (putRec a0 s).flc = s.flc ∧ (putRec a0 s).bnd = s.bnd ∧ (putRec a0 s).mbr = s.mbr ∧ (putRec a0 s).flt = s.flt ∧ (putRec a0 s).sec = s.sec ∧ (putRec a0 s).cpx = s.cpx ∧ (putRec a0 s).memc = s.memc ∧ (putRec a0 s).mov = s.mov ∧ (putRec a0 s).cst = s.cst ∧ (putRec a0 s).lnt = s.lnt ∧ (putRec a0 s).out = s.out ∧ (putRec a0 s).freeCtr = s.freeCtr := by
  unfold putRec
  try dsimp only
  first
    | (simp; done)
    | ((repeat' split) <;> simp; done)
    | (and_intros <;> (repeat' (first | (simp; done) | split)))

theorem appendRec_frame {a0 : RecTy} {a1 : ℕ} {a2 : ℕ} {a3 : List RunOp} {a4 : List (ℕ × ℕ)} {a5 : Bool} {s : State} {t : State} (h : appendRec a0 a1 a2 a3 a4 a5 s = some t) :
    t.pending = s.pending ∧ t.latch = s.latch ∧ t.mem = s.mem ∧ t.sys = s.sys ∧ t.clk = s.clk ∧ t.thm = s.thm ∧ t.tck = s.tck ∧ t.stm = s.stm ∧ t.flc = s.flc ∧ t.bnd = s.bnd ∧ t.mbr = s.mbr ∧ t.flt = s.flt ∧ t.sec = s.sec ∧ t.cpx = s.cpx ∧ t.memc = s.memc ∧ t.mov = s.mov ∧ t.cst = s.cst ∧ t.lnt = s.lnt ∧ t.out = s.out ∧ t.freeCtr = s.freeCtr := by
  unfold appendRec at h
  try dsimp only at h
  (repeat' split at h) <;> simp at h <;> (try (obtain ⟨h1, h2⟩ := h)) <;> (first | subst h | subst h2 | skip) <;>
    first | (simp_all; done) | (have h' := takeSlot_frame (by assumption); simp_all; done) | (obtain ⟨u, hu, h'⟩ := h; have h3 := placePage_frame hu; simp_all; done) | (obtain ⟨u, hu, h'⟩ := h1; have h3 := placePage_frame hu; simp_all; done)

@[simp] theorem noteLogFull_frame (s : State) :
    (noteLogFull s).pending = s.pending ∧ (noteLogFull s).latch = s.latch ∧ (noteLogFull s).mem = s.mem ∧ (noteLogFull s).clk = s.clk ∧ (noteLogFull s).thm = s.thm ∧ (noteLogFull s).tck = s.tck ∧ (noteLogFull s).hif = s.hif ∧ (noteLogFull s).stm = s.stm ∧ (noteLogFull s).flc = s.flc ∧ (noteLogFull s).bnd = s.bnd ∧ (noteLogFull s).mbr = s.mbr ∧ (noteLogFull s).flt = s.flt ∧ (noteLogFull s).sec = s.sec ∧ (noteLogFull s).cpx = s.cpx ∧ (noteLogFull s).memc = s.memc ∧ (noteLogFull s).mov = s.mov ∧ (noteLogFull s).cst = s.cst ∧ (noteLogFull s).out = s.out ∧ (noteLogFull s).freeCtr = s.freeCtr := by
  unfold noteLogFull
  try dsimp only
  first
    | (simp; done)
    | ((repeat' split) <;> simp; done)
    | (and_intros <;> (repeat' (first | (simp; done) | split)))

@[simp] theorem ckptBegin_frame (s : State) :
    (ckptBegin s).pending = s.pending ∧ (ckptBegin s).regs = s.regs ∧ (ckptBegin s).latch = s.latch ∧ (ckptBegin s).mem = s.mem ∧ (ckptBegin s).sys = s.sys ∧ (ckptBegin s).clk = s.clk ∧ (ckptBegin s).thm = s.thm ∧ (ckptBegin s).tck = s.tck ∧ (ckptBegin s).hif = s.hif ∧ (ckptBegin s).stm = s.stm ∧ (ckptBegin s).flc = s.flc ∧ (ckptBegin s).bnd = s.bnd ∧ (ckptBegin s).mbr = s.mbr ∧ (ckptBegin s).flt = s.flt ∧ (ckptBegin s).sec = s.sec ∧ (ckptBegin s).cpx = s.cpx ∧ (ckptBegin s).memc = s.memc ∧ (ckptBegin s).mov = s.mov ∧ (ckptBegin s).cst = s.cst ∧ (ckptBegin s).lnt = s.lnt ∧ (ckptBegin s).out = s.out ∧ (ckptBegin s).freeCtr = s.freeCtr := by
  unfold ckptBegin
  try dsimp only
  first
    | (simp; done)
    | ((repeat' split) <;> simp; done)
    | (and_intros <;> (repeat' (first | (simp; done) | split)))

@[simp] theorem ckptFinish_frame (a0 : Bool) (s : State) :
    (ckptFinish a0 s).pending = s.pending ∧ (ckptFinish a0 s).latch = s.latch ∧ (ckptFinish a0 s).mem = s.mem ∧ (ckptFinish a0 s).sys = s.sys ∧ (ckptFinish a0 s).clk = s.clk ∧ (ckptFinish a0 s).thm = s.thm ∧ (ckptFinish a0 s).tck = s.tck ∧ (ckptFinish a0 s).hif = s.hif ∧ (ckptFinish a0 s).stm = s.stm ∧ (ckptFinish a0 s).flc = s.flc ∧ (ckptFinish a0 s).mbr = s.mbr ∧ (ckptFinish a0 s).flt = s.flt ∧ (ckptFinish a0 s).sec = s.sec ∧ (ckptFinish a0 s).cpx = s.cpx ∧ (ckptFinish a0 s).memc = s.memc ∧ (ckptFinish a0 s).mov = s.mov ∧ (ckptFinish a0 s).cst = s.cst ∧ (ckptFinish a0 s).lnt = s.lnt ∧ (ckptFinish a0 s).out = s.out ∧ (ckptFinish a0 s).freeCtr = s.freeCtr := by
  unfold ckptFinish
  try dsimp only
  first
    | (simp; done)
    | ((repeat' split) <;> simp; done)
    | (and_intros <;> (repeat' (first | (simp; done) | split)))

@[simp] theorem mapReplay_frame (s : State) :
    (mapReplay s).pending = s.pending ∧ (mapReplay s).latch = s.latch ∧ (mapReplay s).mem = s.mem ∧ (mapReplay s).clk = s.clk ∧ (mapReplay s).thm = s.thm ∧ (mapReplay s).tck = s.tck ∧ (mapReplay s).stm = s.stm ∧ (mapReplay s).mbr = s.mbr ∧ (mapReplay s).flt = s.flt ∧ (mapReplay s).cpx = s.cpx ∧ (mapReplay s).memc = s.memc ∧ (mapReplay s).mov = s.mov ∧ (mapReplay s).out = s.out ∧ (mapReplay s).freeCtr = s.freeCtr := by
  unfold mapReplay
  try dsimp only
  first
    | (simp; done)
    | ((repeat' split) <;> simp; done)
    | (and_intros <;> (repeat' (first | (simp; done) | split)))

/-! ### Geo -/

@[simp] theorem setPort_frame (a0 : ℕ) (a1 : Port → Port) (s : State) :
    (setPort a0 a1 s).pending = s.pending ∧ (setPort a0 a1 s).regs = s.regs ∧ (setPort a0 a1 s).latch = s.latch ∧ (setPort a0 a1 s).mem = s.mem ∧ (setPort a0 a1 s).sys = s.sys ∧ (setPort a0 a1 s).clk = s.clk ∧ (setPort a0 a1 s).thm = s.thm ∧ (setPort a0 a1 s).tck = s.tck ∧ (setPort a0 a1 s).hif = s.hif ∧ (setPort a0 a1 s).stm = s.stm ∧ (setPort a0 a1 s).map = s.map ∧ (setPort a0 a1 s).flc = s.flc ∧ (setPort a0 a1 s).bnd = s.bnd ∧ (setPort a0 a1 s).flt = s.flt ∧ (setPort a0 a1 s).sec = s.sec ∧ (setPort a0 a1 s).cpx = s.cpx ∧ (setPort a0 a1 s).memc = s.memc ∧ (setPort a0 a1 s).mov = s.mov ∧ (setPort a0 a1 s).cst = s.cst ∧ (setPort a0 a1 s).lnt = s.lnt ∧ (setPort a0 a1 s).out = s.out ∧ (setPort a0 a1 s).freeCtr = s.freeCtr := by
  unfold setPort
  try dsimp only
  first
    | (simp; done)
    | ((repeat' split) <;> simp; done)
    | (and_intros <;> (repeat' (first | (simp; done) | split)))

@[simp] theorem modeCheck_frame (s : State) :
    (modeCheck s).pending = s.pending ∧ (modeCheck s).latch = s.latch ∧ (modeCheck s).mem = s.mem ∧ (modeCheck s).clk = s.clk ∧ (modeCheck s).thm = s.thm ∧ (modeCheck s).tck = s.tck ∧ (modeCheck s).hif = s.hif ∧ (modeCheck s).stm = s.stm ∧ (modeCheck s).map = s.map ∧ (modeCheck s).flc = s.flc ∧ (modeCheck s).bnd = s.bnd ∧ (modeCheck s).mbr = s.mbr ∧ (modeCheck s).flt = s.flt ∧ (modeCheck s).sec = s.sec ∧ (modeCheck s).cpx = s.cpx ∧ (modeCheck s).memc = s.memc ∧ (modeCheck s).mov = s.mov ∧ (modeCheck s).out = s.out ∧ (modeCheck s).freeCtr = s.freeCtr := by
  unfold modeCheck
  try dsimp only
  first
    | (simp; done)
    | ((repeat' split) <;> simp; done)
    | (and_intros <;> (repeat' (first | (simp; done) | split)))

@[simp] theorem setBlk_frame (a0 : ℕ) (a1 : ℕ) (a2 : Blk → Blk) (s : State) :
    (setBlk a0 a1 a2 s).pending = s.pending ∧ (setBlk a0 a1 a2 s).regs = s.regs ∧ (setBlk a0 a1 a2 s).latch = s.latch ∧ (setBlk a0 a1 a2 s).mem = s.mem ∧ (setBlk a0 a1 a2 s).sys = s.sys ∧ (setBlk a0 a1 a2 s).clk = s.clk ∧ (setBlk a0 a1 a2 s).thm = s.thm ∧ (setBlk a0 a1 a2 s).tck = s.tck ∧ (setBlk a0 a1 a2 s).hif = s.hif ∧ (setBlk a0 a1 a2 s).stm = s.stm ∧ (setBlk a0 a1 a2 s).map = s.map ∧ (setBlk a0 a1 a2 s).bnd = s.bnd ∧ (setBlk a0 a1 a2 s).mbr = s.mbr ∧ (setBlk a0 a1 a2 s).flt = s.flt ∧ (setBlk a0 a1 a2 s).sec = s.sec ∧ (setBlk a0 a1 a2 s).cpx = s.cpx ∧ (setBlk a0 a1 a2 s).memc = s.memc ∧ (setBlk a0 a1 a2 s).mov = s.mov ∧ (setBlk a0 a1 a2 s).cst = s.cst ∧ (setBlk a0 a1 a2 s).lnt = s.lnt ∧ (setBlk a0 a1 a2 s).out = s.out ∧ (setBlk a0 a1 a2 s).freeCtr = s.freeCtr := by
  unfold setBlk
  try dsimp only
  first
    | (simp; done)
    | ((repeat' split) <;> simp; done)
    | (and_intros <;> (repeat' (first | (simp; done) | split)))

@[simp] theorem setBand_frame (a0 : ℕ) (a1 : Band → Band) (s : State) :
    (setBand a0 a1 s).pending = s.pending ∧ (setBand a0 a1 s).regs = s.regs ∧ (setBand a0 a1 s).latch = s.latch ∧ (setBand a0 a1 s).mem = s.mem ∧ (setBand a0 a1 s).sys = s.sys ∧ (setBand a0 a1 s).clk = s.clk ∧ (setBand a0 a1 s).thm = s.thm ∧ (setBand a0 a1 s).tck = s.tck ∧ (setBand a0 a1 s).hif = s.hif ∧ (setBand a0 a1 s).stm = s.stm ∧ (setBand a0 a1 s).map = s.map ∧ (setBand a0 a1 s).flc = s.flc ∧ (setBand a0 a1 s).mbr = s.mbr ∧ (setBand a0 a1 s).flt = s.flt ∧ (setBand a0 a1 s).sec = s.sec ∧ (setBand a0 a1 s).cpx = s.cpx ∧ (setBand a0 a1 s).memc = s.memc ∧ (setBand a0 a1 s).mov = s.mov ∧ (setBand a0 a1 s).cst = s.cst ∧ (setBand a0 a1 s).lnt = s.lnt ∧ (setBand a0 a1 s).out = s.out ∧ (setBand a0 a1 s).freeCtr = s.freeCtr := by
  unfold setBand
  try dsimp only
  first
    | (simp; done)
    | ((repeat' split) <;> simp; done)
    | (and_intros <;> (repeat' (first | (simp; done) | split)))

/-! ### SysPages -/

@[simp] theorem imageQueue_frame (a0 : ℕ) (a1 : List Byte) (s : State) :
    (imageQueue a0 a1 s).pending = s.pending ∧ (imageQueue a0 a1 s).regs = s.regs ∧ (imageQueue a0 a1 s).latch = s.latch ∧ (imageQueue a0 a1 s).mem = s.mem ∧ (imageQueue a0 a1 s).sys = s.sys ∧ (imageQueue a0 a1 s).clk = s.clk ∧ (imageQueue a0 a1 s).thm = s.thm ∧ (imageQueue a0 a1 s).tck = s.tck ∧ (imageQueue a0 a1 s).hif = s.hif ∧ (imageQueue a0 a1 s).stm = s.stm ∧ (imageQueue a0 a1 s).map = s.map ∧ (imageQueue a0 a1 s).flc = s.flc ∧ (imageQueue a0 a1 s).mbr = s.mbr ∧ (imageQueue a0 a1 s).flt = s.flt ∧ (imageQueue a0 a1 s).sec = s.sec ∧ (imageQueue a0 a1 s).cpx = s.cpx ∧ (imageQueue a0 a1 s).memc = s.memc ∧ (imageQueue a0 a1 s).mov = s.mov ∧ (imageQueue a0 a1 s).cst = s.cst ∧ (imageQueue a0 a1 s).lnt = s.lnt ∧ (imageQueue a0 a1 s).out = s.out ∧ (imageQueue a0 a1 s).freeCtr = s.freeCtr := by
  unfold imageQueue
  try dsimp only
  first
    | (simp; done)
    | ((repeat' split) <;> simp; done)
    | (and_intros <;> (repeat' (first | (simp; done) | split)))

@[simp] theorem imageSettle_frame (a0 : ℕ) (a1 : Bool) (s : State) :
    (imageSettle a0 a1 s).pending = s.pending ∧ (imageSettle a0 a1 s).regs = s.regs ∧ (imageSettle a0 a1 s).latch = s.latch ∧ (imageSettle a0 a1 s).mem = s.mem ∧ (imageSettle a0 a1 s).sys = s.sys ∧ (imageSettle a0 a1 s).clk = s.clk ∧ (imageSettle a0 a1 s).thm = s.thm ∧ (imageSettle a0 a1 s).tck = s.tck ∧ (imageSettle a0 a1 s).hif = s.hif ∧ (imageSettle a0 a1 s).stm = s.stm ∧ (imageSettle a0 a1 s).map = s.map ∧ (imageSettle a0 a1 s).flc = s.flc ∧ (imageSettle a0 a1 s).mbr = s.mbr ∧ (imageSettle a0 a1 s).flt = s.flt ∧ (imageSettle a0 a1 s).sec = s.sec ∧ (imageSettle a0 a1 s).cpx = s.cpx ∧ (imageSettle a0 a1 s).memc = s.memc ∧ (imageSettle a0 a1 s).mov = s.mov ∧ (imageSettle a0 a1 s).cst = s.cst ∧ (imageSettle a0 a1 s).lnt = s.lnt ∧ (imageSettle a0 a1 s).out = s.out ∧ (imageSettle a0 a1 s).freeCtr = s.freeCtr := by
  unfold imageSettle
  try dsimp only
  first
    | (simp; done)
    | ((repeat' split) <;> simp; done)
    | (and_intros <;> (repeat' (first | (simp; done) | split)))

@[simp] theorem sysBack_frame (a0 : ℕ) (s : State) :
    (sysBack a0 s).pending = s.pending ∧ (sysBack a0 s).regs = s.regs ∧ (sysBack a0 s).latch = s.latch ∧ (sysBack a0 s).mem = s.mem ∧ (sysBack a0 s).sys = s.sys ∧ (sysBack a0 s).clk = s.clk ∧ (sysBack a0 s).thm = s.thm ∧ (sysBack a0 s).tck = s.tck ∧ (sysBack a0 s).hif = s.hif ∧ (sysBack a0 s).stm = s.stm ∧ (sysBack a0 s).flc = s.flc ∧ (sysBack a0 s).mbr = s.mbr ∧ (sysBack a0 s).flt = s.flt ∧ (sysBack a0 s).sec = s.sec ∧ (sysBack a0 s).cpx = s.cpx ∧ (sysBack a0 s).memc = s.memc ∧ (sysBack a0 s).mov = s.mov ∧ (sysBack a0 s).cst = s.cst ∧ (sysBack a0 s).lnt = s.lnt ∧ (sysBack a0 s).out = s.out ∧ (sysBack a0 s).freeCtr = s.freeCtr := by
  unfold sysBack
  try dsimp only
  first
    | (simp; done)
    | ((repeat' split) <;> simp; done)
    | (and_intros <;> (repeat' (first | (simp; done) | split)))

/-! ### StmCore -/

@[simp] theorem setStream_frame (a0 : ℕ) (a1 : Stream → Stream) (s : State) :
    (setStream a0 a1 s).pending = s.pending ∧ (setStream a0 a1 s).regs = s.regs ∧ (setStream a0 a1 s).latch = s.latch ∧ (setStream a0 a1 s).mem = s.mem ∧ (setStream a0 a1 s).sys = s.sys ∧ (setStream a0 a1 s).clk = s.clk ∧ (setStream a0 a1 s).thm = s.thm ∧ (setStream a0 a1 s).tck = s.tck ∧ (setStream a0 a1 s).hif = s.hif ∧ (setStream a0 a1 s).map = s.map ∧ (setStream a0 a1 s).flc = s.flc ∧ (setStream a0 a1 s).bnd = s.bnd ∧ (setStream a0 a1 s).mbr = s.mbr ∧ (setStream a0 a1 s).flt = s.flt ∧ (setStream a0 a1 s).sec = s.sec ∧ (setStream a0 a1 s).cpx = s.cpx ∧ (setStream a0 a1 s).memc = s.memc ∧ (setStream a0 a1 s).mov = s.mov ∧ (setStream a0 a1 s).cst = s.cst ∧ (setStream a0 a1 s).lnt = s.lnt ∧ (setStream a0 a1 s).out = s.out ∧ (setStream a0 a1 s).freeCtr = s.freeCtr := by
  unfold setStream
  try dsimp only
  first
    | (simp; done)
    | ((repeat' split) <;> simp; done)
    | (and_intros <;> (repeat' (first | (simp; done) | split)))

@[simp] theorem wantTable_frame (s : State) :
    (wantTable s).pending = s.pending ∧ (wantTable s).regs = s.regs ∧ (wantTable s).latch = s.latch ∧ (wantTable s).mem = s.mem ∧ (wantTable s).sys = s.sys ∧ (wantTable s).clk = s.clk ∧ (wantTable s).thm = s.thm ∧ (wantTable s).hif = s.hif ∧ (wantTable s).stm = s.stm ∧ (wantTable s).map = s.map ∧ (wantTable s).flc = s.flc ∧ (wantTable s).bnd = s.bnd ∧ (wantTable s).mbr = s.mbr ∧ (wantTable s).flt = s.flt ∧ (wantTable s).sec = s.sec ∧ (wantTable s).cpx = s.cpx ∧ (wantTable s).memc = s.memc ∧ (wantTable s).mov = s.mov ∧ (wantTable s).cst = s.cst ∧ (wantTable s).lnt = s.lnt ∧ (wantTable s).out = s.out ∧ (wantTable s).freeCtr = s.freeCtr := by
  unfold wantTable
  try dsimp only
  first
    | (simp; done)
    | ((repeat' split) <;> simp; done)
    | (and_intros <;> (repeat' (first | (simp; done) | split)))

@[simp] theorem dropStream_frame (a0 : ℕ) (s : State) :
    (dropStream a0 s).pending = s.pending ∧ (dropStream a0 s).latch = s.latch ∧ (dropStream a0 s).mem = s.mem ∧ (dropStream a0 s).clk = s.clk ∧ (dropStream a0 s).thm = s.thm ∧ (dropStream a0 s).tck = s.tck ∧ (dropStream a0 s).hif = s.hif ∧ (dropStream a0 s).map = s.map ∧ (dropStream a0 s).flc = s.flc ∧ (dropStream a0 s).bnd = s.bnd ∧ (dropStream a0 s).mbr = s.mbr ∧ (dropStream a0 s).flt = s.flt ∧ (dropStream a0 s).sec = s.sec ∧ (dropStream a0 s).cpx = s.cpx ∧ (dropStream a0 s).memc = s.memc ∧ (dropStream a0 s).mov = s.mov ∧ (dropStream a0 s).cst = s.cst ∧ (dropStream a0 s).freeCtr = s.freeCtr := by
  unfold dropStream
  try dsimp only
  first
    | (simp; done)
    | ((repeat' split) <;> simp; done)
    | (and_intros <;> (repeat' (first | (simp; done) | split)))

@[simp] theorem rescale_frame (s : State) :
    (rescale s).pending = s.pending ∧ (rescale s).latch = s.latch ∧ (rescale s).mem = s.mem ∧ (rescale s).clk = s.clk ∧ (rescale s).thm = s.thm ∧ (rescale s).map = s.map ∧ (rescale s).flc = s.flc ∧ (rescale s).bnd = s.bnd ∧ (rescale s).mbr = s.mbr ∧ (rescale s).flt = s.flt ∧ (rescale s).sec = s.sec ∧ (rescale s).cpx = s.cpx ∧ (rescale s).memc = s.memc ∧ (rescale s).mov = s.mov ∧ (rescale s).cst = s.cst ∧ (rescale s).freeCtr = s.freeCtr := by
  unfold rescale
  try dsimp only
  first
    | (simp; done)
    | ((repeat' split) <;> simp; done)
    | (and_intros <;> (repeat' (first | (simp; done) | split)))

@[simp] theorem addStaged_frame (a0 : ℕ) (a1 : ℕ) (s : State) :
    (addStaged a0 a1 s).pending = s.pending ∧ (addStaged a0 a1 s).regs = s.regs ∧ (addStaged a0 a1 s).latch = s.latch ∧ (addStaged a0 a1 s).mem = s.mem ∧ (addStaged a0 a1 s).sys = s.sys ∧ (addStaged a0 a1 s).clk = s.clk ∧ (addStaged a0 a1 s).thm = s.thm ∧ (addStaged a0 a1 s).tck = s.tck ∧ (addStaged a0 a1 s).hif = s.hif ∧ (addStaged a0 a1 s).map = s.map ∧ (addStaged a0 a1 s).flc = s.flc ∧ (addStaged a0 a1 s).bnd = s.bnd ∧ (addStaged a0 a1 s).mbr = s.mbr ∧ (addStaged a0 a1 s).flt = s.flt ∧ (addStaged a0 a1 s).sec = s.sec ∧ (addStaged a0 a1 s).cpx = s.cpx ∧ (addStaged a0 a1 s).memc = s.memc ∧ (addStaged a0 a1 s).mov = s.mov ∧ (addStaged a0 a1 s).cst = s.cst ∧ (addStaged a0 a1 s).lnt = s.lnt ∧ (addStaged a0 a1 s).out = s.out ∧ (addStaged a0 a1 s).freeCtr = s.freeCtr := by
  unfold addStaged
  try dsimp only
  first
    | (simp; done)
    | ((repeat' split) <;> simp; done)
    | (and_intros <;> (repeat' (first | (simp; done) | split)))

@[simp] theorem subStaged_frame (a0 : ℕ) (a1 : ℕ) (s : State) :
    (subStaged a0 a1 s).pending = s.pending ∧ (subStaged a0 a1 s).regs = s.regs ∧ (subStaged a0 a1 s).latch = s.latch ∧ (subStaged a0 a1 s).mem = s.mem ∧ (subStaged a0 a1 s).sys = s.sys ∧ (subStaged a0 a1 s).clk = s.clk ∧ (subStaged a0 a1 s).thm = s.thm ∧ (subStaged a0 a1 s).tck = s.tck ∧ (subStaged a0 a1 s).hif = s.hif ∧ (subStaged a0 a1 s).map = s.map ∧ (subStaged a0 a1 s).flc = s.flc ∧ (subStaged a0 a1 s).bnd = s.bnd ∧ (subStaged a0 a1 s).mbr = s.mbr ∧ (subStaged a0 a1 s).flt = s.flt ∧ (subStaged a0 a1 s).sec = s.sec ∧ (subStaged a0 a1 s).cpx = s.cpx ∧ (subStaged a0 a1 s).memc = s.memc ∧ (subStaged a0 a1 s).mov = s.mov ∧ (subStaged a0 a1 s).cst = s.cst ∧ (subStaged a0 a1 s).lnt = s.lnt ∧ (subStaged a0 a1 s).out = s.out ∧ (subStaged a0 a1 s).freeCtr = s.freeCtr := by
  unfold subStaged
  try dsimp only
  first
    | (simp; done)
    | ((repeat' split) <;> simp; done)
    | (and_intros <;> (repeat' (first | (simp; done) | split)))

@[simp] theorem writeMarker_frame (a0 : ℕ) (a1 : ℕ) (a2 : ℕ) (s : State) :
    (writeMarker a0 a1 a2 s).pending = s.pending ∧ (writeMarker a0 a1 a2 s).latch = s.latch ∧ (writeMarker a0 a1 a2 s).clk = s.clk ∧ (writeMarker a0 a1 a2 s).thm = s.thm ∧ (writeMarker a0 a1 a2 s).tck = s.tck ∧ (writeMarker a0 a1 a2 s).hif = s.hif ∧ (writeMarker a0 a1 a2 s).map = s.map ∧ (writeMarker a0 a1 a2 s).flc = s.flc ∧ (writeMarker a0 a1 a2 s).bnd = s.bnd ∧ (writeMarker a0 a1 a2 s).mbr = s.mbr ∧ (writeMarker a0 a1 a2 s).flt = s.flt ∧ (writeMarker a0 a1 a2 s).sec = s.sec ∧ (writeMarker a0 a1 a2 s).cpx = s.cpx ∧ (writeMarker a0 a1 a2 s).memc = s.memc ∧ (writeMarker a0 a1 a2 s).mov = s.mov ∧ (writeMarker a0 a1 a2 s).cst = s.cst ∧ (writeMarker a0 a1 a2 s).out = s.out ∧ (writeMarker a0 a1 a2 s).freeCtr = s.freeCtr := by
  unfold writeMarker
  try dsimp only
  first
    | (simp; done)
    | ((repeat' split) <;> simp; done)
    | (and_intros <;> (repeat' (first | (simp; done) | split)))

@[simp] theorem openFrame_frame (a0 : ℕ) (a1 : ℕ) (a2 : Bool) (s : State) :
    (openFrame a0 a1 a2 s).pending = s.pending ∧ (openFrame a0 a1 a2 s).latch = s.latch ∧ (openFrame a0 a1 a2 s).clk = s.clk ∧ (openFrame a0 a1 a2 s).thm = s.thm ∧ (openFrame a0 a1 a2 s).tck = s.tck ∧ (openFrame a0 a1 a2 s).hif = s.hif ∧ (openFrame a0 a1 a2 s).map = s.map ∧ (openFrame a0 a1 a2 s).flc = s.flc ∧ (openFrame a0 a1 a2 s).bnd = s.bnd ∧ (openFrame a0 a1 a2 s).mbr = s.mbr ∧ (openFrame a0 a1 a2 s).flt = s.flt ∧ (openFrame a0 a1 a2 s).sec = s.sec ∧ (openFrame a0 a1 a2 s).cpx = s.cpx ∧ (openFrame a0 a1 a2 s).memc = s.memc ∧ (openFrame a0 a1 a2 s).mov = s.mov ∧ (openFrame a0 a1 a2 s).cst = s.cst ∧ (openFrame a0 a1 a2 s).out = s.out ∧ (openFrame a0 a1 a2 s).freeCtr = s.freeCtr := by
  unfold openFrame
  try dsimp only
  first
    | (simp; done)
    | ((repeat' split) <;> simp; done)
    | (and_intros <;> (repeat' (first | (simp; done) | split)))

end Sys2Proof.Machine
end

