-- ==== Sys2Proof/Laws/FramesFlash.lean ====
section
/-! SUPPORT. Frames of the shared operations: which parts of the state each one leaves as they are (bands, placing, members, ledger pairs, lanes, targets, reads and records). -/

namespace Sys2Proof.Machine

set_option linter.unusedTactic false
set_option linter.unreachableTactic false
set_option linter.unusedSimpArgs false

/-! ### Bands -/

@[simp] theorem lowerSegLimit_frame (s : State) :
    (lowerSegLimit s).pending = s.pending ∧ (lowerSegLimit s).latch = s.latch ∧ (lowerSegLimit s).mem = s.mem ∧ (lowerSegLimit s).clk = s.clk ∧ (lowerSegLimit s).thm = s.thm ∧ (lowerSegLimit s).tck = s.tck ∧ (lowerSegLimit s).hif = s.hif ∧ (lowerSegLimit s).stm = s.stm ∧ (lowerSegLimit s).flc = s.flc ∧ (lowerSegLimit s).bnd = s.bnd ∧ (lowerSegLimit s).mbr = s.mbr ∧ (lowerSegLimit s).flt = s.flt ∧ (lowerSegLimit s).sec = s.sec ∧ (lowerSegLimit s).cpx = s.cpx ∧ (lowerSegLimit s).memc = s.memc ∧ (lowerSegLimit s).mov = s.mov ∧ (lowerSegLimit s).cst = s.cst ∧ (lowerSegLimit s).out = s.out ∧ (lowerSegLimit s).freeCtr = s.freeCtr := by
  unfold lowerSegLimit
  try dsimp only
  first
    | (simp; done)
    | ((repeat' split) <;> simp; done)
    | (and_intros <;> (repeat' (first | (simp; done) | split)))

@[simp] theorem retireBlocks_frame (a0 : ℕ) (s : State) :
    (retireBlocks a0 s).pending = s.pending ∧ (retireBlocks a0 s).regs = s.regs ∧ (retireBlocks a0 s).latch = s.latch ∧ (retireBlocks a0 s).mem = s.mem ∧ (retireBlocks a0 s).sys = s.sys ∧ (retireBlocks a0 s).clk = s.clk ∧ (retireBlocks a0 s).thm = s.thm ∧ (retireBlocks a0 s).tck = s.tck ∧ (retireBlocks a0 s).hif = s.hif ∧ (retireBlocks a0 s).stm = s.stm ∧ (retireBlocks a0 s).map = s.map ∧ (retireBlocks a0 s).bnd = s.bnd ∧ (retireBlocks a0 s).mbr = s.mbr ∧ (retireBlocks a0 s).flt = s.flt ∧ (retireBlocks a0 s).sec = s.sec ∧ (retireBlocks a0 s).cpx = s.cpx ∧ (retireBlocks a0 s).memc = s.memc ∧ (retireBlocks a0 s).mov = s.mov ∧ (retireBlocks a0 s).cst = s.cst ∧ (retireBlocks a0 s).lnt = s.lnt ∧ (retireBlocks a0 s).out = s.out ∧ (retireBlocks a0 s).freeCtr = s.freeCtr := by
  unfold retireBlocks
  try dsimp only
  first
    | (simp; done)
    | ((repeat' split) <;> simp; done)
    | (and_intros <;> (repeat' (first | (simp; done) | split)))

@[simp] theorem retireBand_frame (a0 : ℕ) (s : State) :
    (retireBand a0 s).pending = s.pending ∧ (retireBand a0 s).latch = s.latch ∧ (retireBand a0 s).mem = s.mem ∧ (retireBand a0 s).clk = s.clk ∧ (retireBand a0 s).thm = s.thm ∧ (retireBand a0 s).tck = s.tck ∧ (retireBand a0 s).hif = s.hif ∧ (retireBand a0 s).stm = s.stm ∧ (retireBand a0 s).mbr = s.mbr ∧ (retireBand a0 s).flt = s.flt ∧ (retireBand a0 s).sec = s.sec ∧ (retireBand a0 s).cpx = s.cpx ∧ (retireBand a0 s).memc = s.memc ∧ (retireBand a0 s).mov = s.mov ∧ (retireBand a0 s).cst = s.cst ∧ (retireBand a0 s).out = s.out ∧ (retireBand a0 s).freeCtr = s.freeCtr := by
  unfold retireBand
  try dsimp only
  first
    | (simp; done)
    | ((repeat' split) <;> simp; done)
    | (and_intros <;> (repeat' (first | (simp; done) | split)))

@[simp] theorem replaceBlk_frame (a0 : ℕ) (a1 : ℕ) (s : State) :
    (replaceBlk a0 a1 s).pending = s.pending ∧ (replaceBlk a0 a1 s).latch = s.latch ∧ (replaceBlk a0 a1 s).mem = s.mem ∧ (replaceBlk a0 a1 s).clk = s.clk ∧ (replaceBlk a0 a1 s).thm = s.thm ∧ (replaceBlk a0 a1 s).tck = s.tck ∧ (replaceBlk a0 a1 s).hif = s.hif ∧ (replaceBlk a0 a1 s).stm = s.stm ∧ (replaceBlk a0 a1 s).mbr = s.mbr ∧ (replaceBlk a0 a1 s).flt = s.flt ∧ (replaceBlk a0 a1 s).sec = s.sec ∧ (replaceBlk a0 a1 s).cpx = s.cpx ∧ (replaceBlk a0 a1 s).memc = s.memc ∧ (replaceBlk a0 a1 s).mov = s.mov ∧ (replaceBlk a0 a1 s).out = s.out ∧ (replaceBlk a0 a1 s).freeCtr = s.freeCtr := by
  unfold replaceBlk
  try dsimp only
  first
    | (simp; done)
    | ((repeat' split) <;> simp; done)
    | (and_intros <;> (repeat' (first | (simp; done) | split)))

@[simp] theorem queueErase_frame (a0 : ℕ) (a1 : ℕ) (s : State) :
    (queueErase a0 a1 s).pending = s.pending ∧ (queueErase a0 a1 s).regs = s.regs ∧ (queueErase a0 a1 s).latch = s.latch ∧ (queueErase a0 a1 s).mem = s.mem ∧ (queueErase a0 a1 s).sys = s.sys ∧ (queueErase a0 a1 s).clk = s.clk ∧ (queueErase a0 a1 s).thm = s.thm ∧ (queueErase a0 a1 s).hif = s.hif ∧ (queueErase a0 a1 s).stm = s.stm ∧ (queueErase a0 a1 s).map = s.map ∧ (queueErase a0 a1 s).flc = s.flc ∧ (queueErase a0 a1 s).bnd = s.bnd ∧ (queueErase a0 a1 s).mbr = s.mbr ∧ (queueErase a0 a1 s).flt = s.flt ∧ (queueErase a0 a1 s).sec = s.sec ∧ (queueErase a0 a1 s).cpx = s.cpx ∧ (queueErase a0 a1 s).memc = s.memc ∧ (queueErase a0 a1 s).mov = s.mov ∧ (queueErase a0 a1 s).cst = s.cst ∧ (queueErase a0 a1 s).lnt = s.lnt ∧ (queueErase a0 a1 s).out = s.out ∧ (queueErase a0 a1 s).freeCtr = s.freeCtr := by
  unfold queueErase
  try dsimp only
  first
    | (simp; done)
    | ((repeat' split) <;> simp; done)
    | (and_intros <;> (repeat' (first | (simp; done) | split)))

@[simp] theorem startErase_frame (a0 : ℕ) (a1 : List ℕ) (s : State) :
    (startErase a0 a1 s).pending = s.pending ∧ (startErase a0 a1 s).regs = s.regs ∧ (startErase a0 a1 s).latch = s.latch ∧ (startErase a0 a1 s).mem = s.mem ∧ (startErase a0 a1 s).sys = s.sys ∧ (startErase a0 a1 s).clk = s.clk ∧ (startErase a0 a1 s).thm = s.thm ∧ (startErase a0 a1 s).hif = s.hif ∧ (startErase a0 a1 s).stm = s.stm ∧ (startErase a0 a1 s).map = s.map ∧ (startErase a0 a1 s).flc = s.flc ∧ (startErase a0 a1 s).mbr = s.mbr ∧ (startErase a0 a1 s).flt = s.flt ∧ (startErase a0 a1 s).sec = s.sec ∧ (startErase a0 a1 s).cpx = s.cpx ∧ (startErase a0 a1 s).memc = s.memc ∧ (startErase a0 a1 s).mov = s.mov ∧ (startErase a0 a1 s).cst = s.cst ∧ (startErase a0 a1 s).lnt = s.lnt ∧ (startErase a0 a1 s).out = s.out ∧ (startErase a0 a1 s).freeCtr = s.freeCtr := by
  unfold startErase
  try dsimp only
  first
    | (simp; done)
    | ((repeat' split) <;> simp; done)
    | (and_intros <;> (repeat' (first | (simp; done) | split)))

@[simp] theorem wearCheck_frame (s : State) :
    (wearCheck s).pending = s.pending ∧ (wearCheck s).latch = s.latch ∧ (wearCheck s).mem = s.mem ∧ (wearCheck s).clk = s.clk ∧ (wearCheck s).thm = s.thm ∧ (wearCheck s).tck = s.tck ∧ (wearCheck s).hif = s.hif ∧ (wearCheck s).stm = s.stm ∧ (wearCheck s).map = s.map ∧ (wearCheck s).flc = s.flc ∧ (wearCheck s).mbr = s.mbr ∧ (wearCheck s).flt = s.flt ∧ (wearCheck s).sec = s.sec ∧ (wearCheck s).cpx = s.cpx ∧ (wearCheck s).memc = s.memc ∧ (wearCheck s).mov = s.mov ∧ (wearCheck s).cst = s.cst ∧ (wearCheck s).out = s.out ∧ (wearCheck s).freeCtr = s.freeCtr := by
  unfold wearCheck
  try dsimp only
  first
    | (simp; done)
    | ((repeat' split) <;> simp; done)
    | (and_intros <;> (repeat' (first | (simp; done) | split)))

@[simp] theorem armed_frame (a0 : ℕ) (s : State) :
    (armed a0 s).pending = s.pending ∧ (armed a0 s).regs = s.regs ∧ (armed a0 s).latch = s.latch ∧ (armed a0 s).mem = s.mem ∧ (armed a0 s).sys = s.sys ∧ (armed a0 s).clk = s.clk ∧ (armed a0 s).thm = s.thm ∧ (armed a0 s).tck = s.tck ∧ (armed a0 s).hif = s.hif ∧ (armed a0 s).stm = s.stm ∧ (armed a0 s).map = s.map ∧ (armed a0 s).flc = s.flc ∧ (armed a0 s).mbr = s.mbr ∧ (armed a0 s).flt = s.flt ∧ (armed a0 s).sec = s.sec ∧ (armed a0 s).cpx = s.cpx ∧ (armed a0 s).memc = s.memc ∧ (armed a0 s).mov = s.mov ∧ (armed a0 s).cst = s.cst ∧ (armed a0 s).lnt = s.lnt ∧ (armed a0 s).out = s.out ∧ (armed a0 s).freeCtr = s.freeCtr := by
  unfold armed
  try dsimp only
  first
    | (simp; done)
    | ((repeat' split) <;> simp; done)
    | (and_intros <;> (repeat' (first | (simp; done) | split)))

@[simp] theorem armBand_frame (a0 : ℕ) (s : State) :
    (armBand a0 s).pending = s.pending ∧ (armBand a0 s).regs = s.regs ∧ (armBand a0 s).latch = s.latch ∧ (armBand a0 s).mem = s.mem ∧ (armBand a0 s).sys = s.sys ∧ (armBand a0 s).clk = s.clk ∧ (armBand a0 s).thm = s.thm ∧ (armBand a0 s).hif = s.hif ∧ (armBand a0 s).stm = s.stm ∧ (armBand a0 s).map = s.map ∧ (armBand a0 s).flc = s.flc ∧ (armBand a0 s).mbr = s.mbr ∧ (armBand a0 s).flt = s.flt ∧ (armBand a0 s).sec = s.sec ∧ (armBand a0 s).cpx = s.cpx ∧ (armBand a0 s).memc = s.memc ∧ (armBand a0 s).mov = s.mov ∧ (armBand a0 s).cst = s.cst ∧ (armBand a0 s).lnt = s.lnt ∧ (armBand a0 s).out = s.out ∧ (armBand a0 s).freeCtr = s.freeCtr := by
  unfold armBand
  try dsimp only
  first
    | (simp; done)
    | ((repeat' split) <;> simp; done)
    | (and_intros <;> (repeat' (first | (simp; done) | split)))

@[simp] theorem armStep_frame (s : State) :
    (armStep s).pending = s.pending ∧ (armStep s).regs = s.regs ∧ (armStep s).latch = s.latch ∧ (armStep s).mem = s.mem ∧ (armStep s).sys = s.sys ∧ (armStep s).clk = s.clk ∧ (armStep s).thm = s.thm ∧ (armStep s).hif = s.hif ∧ (armStep s).stm = s.stm ∧ (armStep s).map = s.map ∧ (armStep s).flc = s.flc ∧ (armStep s).mbr = s.mbr ∧ (armStep s).flt = s.flt ∧ (armStep s).sec = s.sec ∧ (armStep s).cpx = s.cpx ∧ (armStep s).memc = s.memc ∧ (armStep s).mov = s.mov ∧ (armStep s).cst = s.cst ∧ (armStep s).lnt = s.lnt ∧ (armStep s).out = s.out ∧ (armStep s).freeCtr = s.freeCtr := by
  unfold armStep
  try dsimp only
  first
    | (simp; done)
    | ((repeat' split) <;> simp; done)
    | (and_intros <;> (repeat' (first | (simp; done) | split)))

@[simp] theorem openBand_frame (a0 : ℕ) (a1 : ℕ) (s : State) :
    (openBand a0 a1 s).pending = s.pending ∧ (openBand a0 a1 s).latch = s.latch ∧ (openBand a0 a1 s).mem = s.mem ∧ (openBand a0 a1 s).clk = s.clk ∧ (openBand a0 a1 s).thm = s.thm ∧ (openBand a0 a1 s).tck = s.tck ∧ (openBand a0 a1 s).hif = s.hif ∧ (openBand a0 a1 s).stm = s.stm ∧ (openBand a0 a1 s).map = s.map ∧ (openBand a0 a1 s).flc = s.flc ∧ (openBand a0 a1 s).mbr = s.mbr ∧ (openBand a0 a1 s).flt = s.flt ∧ (openBand a0 a1 s).sec = s.sec ∧ (openBand a0 a1 s).cpx = s.cpx ∧ (openBand a0 a1 s).memc = s.memc ∧ (openBand a0 a1 s).mov = s.mov ∧ (openBand a0 a1 s).cst = s.cst ∧ (openBand a0 a1 s).out = s.out ∧ (openBand a0 a1 s).freeCtr = s.freeCtr := by
  unfold openBand
  try dsimp only
  first
    | (simp; done)
    | ((repeat' split) <;> simp; done)
    | (and_intros <;> (repeat' (first | (simp; done) | split)))

@[simp] theorem setOpen_frame (a0 : ℕ) (a1 : OpenBand → OpenBand) (s : State) :
    (setOpen a0 a1 s).pending = s.pending ∧ (setOpen a0 a1 s).regs = s.regs ∧ (setOpen a0 a1 s).latch = s.latch ∧ (setOpen a0 a1 s).mem = s.mem ∧ (setOpen a0 a1 s).sys = s.sys ∧ (setOpen a0 a1 s).clk = s.clk ∧ (setOpen a0 a1 s).thm = s.thm ∧ (setOpen a0 a1 s).tck = s.tck ∧ (setOpen a0 a1 s).hif = s.hif ∧ (setOpen a0 a1 s).stm = s.stm ∧ (setOpen a0 a1 s).map = s.map ∧ (setOpen a0 a1 s).flc = s.flc ∧ (setOpen a0 a1 s).mbr = s.mbr ∧ (setOpen a0 a1 s).flt = s.flt ∧ (setOpen a0 a1 s).sec = s.sec ∧ (setOpen a0 a1 s).cpx = s.cpx ∧ (setOpen a0 a1 s).memc = s.memc ∧ (setOpen a0 a1 s).mov = s.mov ∧ (setOpen a0 a1 s).cst = s.cst ∧ (setOpen a0 a1 s).lnt = s.lnt ∧ (setOpen a0 a1 s).out = s.out ∧ (setOpen a0 a1 s).freeCtr = s.freeCtr := by
  unfold setOpen
  try dsimp only
  first
    | (simp; done)
    | ((repeat' split) <;> simp; done)
    | (and_intros <;> (repeat' (first | (simp; done) | split)))

@[simp] theorem openStep_frame (s : State) :
    (openStep s).pending = s.pending ∧ (openStep s).latch = s.latch ∧ (openStep s).mem = s.mem ∧ (openStep s).clk = s.clk ∧ (openStep s).thm = s.thm ∧ (openStep s).tck = s.tck ∧ (openStep s).hif = s.hif ∧ (openStep s).stm = s.stm ∧ (openStep s).map = s.map ∧ (openStep s).flc = s.flc ∧ (openStep s).mbr = s.mbr ∧ (openStep s).flt = s.flt ∧ (openStep s).sec = s.sec ∧ (openStep s).cpx = s.cpx ∧ (openStep s).memc = s.memc ∧ (openStep s).mov = s.mov ∧ (openStep s).cst = s.cst ∧ (openStep s).out = s.out ∧ (openStep s).freeCtr = s.freeCtr := by
  unfold openStep
  try dsimp only
  first
    | (simp; done)
    | ((repeat' split) <;> simp; done)
    | (and_intros <;> (repeat' (first | (simp; done) | split)))

@[simp] theorem freeCheck_frame (s : State) :
    (freeCheck s).pending = s.pending ∧ (freeCheck s).latch = s.latch ∧ (freeCheck s).mem = s.mem ∧ (freeCheck s).clk = s.clk ∧ (freeCheck s).thm = s.thm ∧ (freeCheck s).tck = s.tck ∧ (freeCheck s).hif = s.hif ∧ (freeCheck s).stm = s.stm ∧ (freeCheck s).map = s.map ∧ (freeCheck s).flc = s.flc ∧ (freeCheck s).mbr = s.mbr ∧ (freeCheck s).flt = s.flt ∧ (freeCheck s).sec = s.sec ∧ (freeCheck s).cpx = s.cpx ∧ (freeCheck s).memc = s.memc ∧ (freeCheck s).mov = s.mov ∧ (freeCheck s).cst = s.cst ∧ (freeCheck s).out = s.out ∧ (freeCheck s).freeCtr = s.freeCtr := by
  unfold freeCheck
  try dsimp only
  first
    | (simp; done)
    | ((repeat' split) <;> simp; done)
    | (and_intros <;> (repeat' (first | (simp; done) | split)))

@[simp] theorem toAwaiting_frame (a0 : ℕ) (s : State) :
    (toAwaiting a0 s).pending = s.pending ∧ (toAwaiting a0 s).regs = s.regs ∧ (toAwaiting a0 s).latch = s.latch ∧ (toAwaiting a0 s).mem = s.mem ∧ (toAwaiting a0 s).sys = s.sys ∧ (toAwaiting a0 s).clk = s.clk ∧ (toAwaiting a0 s).thm = s.thm ∧ (toAwaiting a0 s).tck = s.tck ∧ (toAwaiting a0 s).hif = s.hif ∧ (toAwaiting a0 s).stm = s.stm ∧ (toAwaiting a0 s).map = s.map ∧ (toAwaiting a0 s).flc = s.flc ∧ (toAwaiting a0 s).flt = s.flt ∧ (toAwaiting a0 s).sec = s.sec ∧ (toAwaiting a0 s).cpx = s.cpx ∧ (toAwaiting a0 s).memc = s.memc ∧ (toAwaiting a0 s).mov = s.mov ∧ (toAwaiting a0 s).cst = s.cst ∧ (toAwaiting a0 s).lnt = s.lnt ∧ (toAwaiting a0 s).out = s.out ∧ (toAwaiting a0 s).freeCtr = s.freeCtr := by
  unfold toAwaiting
  try dsimp only
  first
    | (simp; done)
    | ((repeat' split) <;> simp; done)
    | (and_intros <;> (repeat' (first | (simp; done) | split)))

@[simp] theorem enterAwait_frame (a0 : ℕ) (s : State) :
    (enterAwait a0 s).pending = s.pending ∧ (enterAwait a0 s).latch = s.latch ∧ (enterAwait a0 s).mem = s.mem ∧ (enterAwait a0 s).sys = s.sys ∧ (enterAwait a0 s).clk = s.clk ∧ (enterAwait a0 s).thm = s.thm ∧ (enterAwait a0 s).tck = s.tck ∧ (enterAwait a0 s).hif = s.hif ∧ (enterAwait a0 s).stm = s.stm ∧ (enterAwait a0 s).map = s.map ∧ (enterAwait a0 s).flc = s.flc ∧ (enterAwait a0 s).flt = s.flt ∧ (enterAwait a0 s).sec = s.sec ∧ (enterAwait a0 s).cpx = s.cpx ∧ (enterAwait a0 s).memc = s.memc ∧ (enterAwait a0 s).mov = s.mov ∧ (enterAwait a0 s).cst = s.cst ∧ (enterAwait a0 s).lnt = s.lnt ∧ (enterAwait a0 s).out = s.out ∧ (enterAwait a0 s).freeCtr = s.freeCtr := by
  unfold enterAwait
  try dsimp only
  first
    | (simp; done)
    | ((repeat' split) <;> simp; done)
    | (and_intros <;> (repeat' (first | (simp; done) | split)))

@[simp] theorem awaitStep_frame (s : State) :
    (awaitStep s).pending = s.pending ∧ (awaitStep s).latch = s.latch ∧ (awaitStep s).mem = s.mem ∧ (awaitStep s).sys = s.sys ∧ (awaitStep s).clk = s.clk ∧ (awaitStep s).thm = s.thm ∧ (awaitStep s).tck = s.tck ∧ (awaitStep s).hif = s.hif ∧ (awaitStep s).stm = s.stm ∧ (awaitStep s).map = s.map ∧ (awaitStep s).flc = s.flc ∧ (awaitStep s).flt = s.flt ∧ (awaitStep s).sec = s.sec ∧ (awaitStep s).cpx = s.cpx ∧ (awaitStep s).memc = s.memc ∧ (awaitStep s).mov = s.mov ∧ (awaitStep s).cst = s.cst ∧ (awaitStep s).lnt = s.lnt ∧ (awaitStep s).out = s.out ∧ (awaitStep s).freeCtr = s.freeCtr := by
  unfold awaitStep
  try dsimp only
  first
    | (simp; done)
    | ((repeat' split) <;> simp; done)
    | (and_intros <;> (repeat' (first | (simp; done) | split)))

@[simp] theorem eraseStep_frame (s : State) :
    (eraseStep s).pending = s.pending ∧ (eraseStep s).latch = s.latch ∧ (eraseStep s).mem = s.mem ∧ (eraseStep s).clk = s.clk ∧ (eraseStep s).thm = s.thm ∧ (eraseStep s).hif = s.hif ∧ (eraseStep s).stm = s.stm ∧ (eraseStep s).mbr = s.mbr ∧ (eraseStep s).flt = s.flt ∧ (eraseStep s).sec = s.sec ∧ (eraseStep s).cpx = s.cpx ∧ (eraseStep s).memc = s.memc ∧ (eraseStep s).mov = s.mov ∧ (eraseStep s).out = s.out ∧ (eraseStep s).freeCtr = s.freeCtr := by
  unfold eraseStep
  try dsimp only
  first
    | (simp; done)
    | ((repeat' split) <;> simp; done)
    | (and_intros <;> (repeat' (first | (simp; done) | split)))

@[simp] theorem dropPages_frame (a0 : ℕ) (s : State) :
    (dropPages a0 s).pending = s.pending ∧ (dropPages a0 s).regs = s.regs ∧ (dropPages a0 s).latch = s.latch ∧ (dropPages a0 s).mem = s.mem ∧ (dropPages a0 s).sys = s.sys ∧ (dropPages a0 s).clk = s.clk ∧ (dropPages a0 s).thm = s.thm ∧ (dropPages a0 s).tck = s.tck ∧ (dropPages a0 s).hif = s.hif ∧ (dropPages a0 s).stm = s.stm ∧ (dropPages a0 s).map = s.map ∧ (dropPages a0 s).flc = s.flc ∧ (dropPages a0 s).mbr = s.mbr ∧ (dropPages a0 s).flt = s.flt ∧ (dropPages a0 s).sec = s.sec ∧ (dropPages a0 s).cpx = s.cpx ∧ (dropPages a0 s).memc = s.memc ∧ (dropPages a0 s).mov = s.mov ∧ (dropPages a0 s).cst = s.cst ∧ (dropPages a0 s).lnt = s.lnt ∧ (dropPages a0 s).out = s.out ∧ (dropPages a0 s).freeCtr = s.freeCtr := by
  unfold dropPages
  try dsimp only
  first
    | (simp; done)
    | ((repeat' split) <;> simp; done)
    | (and_intros <;> (repeat' (first | (simp; done) | split)))

@[simp] theorem eraseDone_frame (a0 : ℕ) (s : State) :
    (eraseDone a0 s).pending = s.pending ∧ (eraseDone a0 s).latch = s.latch ∧ (eraseDone a0 s).mem = s.mem ∧ (eraseDone a0 s).clk = s.clk ∧ (eraseDone a0 s).thm = s.thm ∧ (eraseDone a0 s).tck = s.tck ∧ (eraseDone a0 s).hif = s.hif ∧ (eraseDone a0 s).stm = s.stm ∧ (eraseDone a0 s).map = s.map ∧ (eraseDone a0 s).mbr = s.mbr ∧ (eraseDone a0 s).flt = s.flt ∧ (eraseDone a0 s).sec = s.sec ∧ (eraseDone a0 s).cpx = s.cpx ∧ (eraseDone a0 s).memc = s.memc ∧ (eraseDone a0 s).mov = s.mov ∧ (eraseDone a0 s).cst = s.cst ∧ (eraseDone a0 s).out = s.out ∧ (eraseDone a0 s).freeCtr = s.freeCtr := by
  unfold eraseDone
  try dsimp only
  first
    | (simp; done)
    | ((repeat' split) <;> simp; done)
    | (and_intros <;> (repeat' (first | (simp; done) | split)))

@[simp] theorem erasePassed_frame (a0 : ℕ) (a1 : ℕ) (s : State) :
    (erasePassed a0 a1 s).pending = s.pending ∧ (erasePassed a0 a1 s).latch = s.latch ∧ (erasePassed a0 a1 s).mem = s.mem ∧ (erasePassed a0 a1 s).clk = s.clk ∧ (erasePassed a0 a1 s).thm = s.thm ∧ (erasePassed a0 a1 s).tck = s.tck ∧ (erasePassed a0 a1 s).hif = s.hif ∧ (erasePassed a0 a1 s).stm = s.stm ∧ (erasePassed a0 a1 s).map = s.map ∧ (erasePassed a0 a1 s).mbr = s.mbr ∧ (erasePassed a0 a1 s).flt = s.flt ∧ (erasePassed a0 a1 s).sec = s.sec ∧ (erasePassed a0 a1 s).cpx = s.cpx ∧ (erasePassed a0 a1 s).memc = s.memc ∧ (erasePassed a0 a1 s).mov = s.mov ∧ (erasePassed a0 a1 s).cst = s.cst ∧ (erasePassed a0 a1 s).out = s.out ∧ (erasePassed a0 a1 s).freeCtr = s.freeCtr := by
  unfold erasePassed
  try dsimp only
  first
    | (simp; done)
    | ((repeat' split) <;> simp; done)
    | (and_intros <;> (repeat' (first | (simp; done) | split)))

@[simp] theorem erasedStep_frame (s : State) :
    (erasedStep s).pending = s.pending ∧ (erasedStep s).latch = s.latch ∧ (erasedStep s).mem = s.mem ∧ (erasedStep s).clk = s.clk ∧ (erasedStep s).thm = s.thm ∧ (erasedStep s).tck = s.tck ∧ (erasedStep s).hif = s.hif ∧ (erasedStep s).stm = s.stm ∧ (erasedStep s).map = s.map ∧ (erasedStep s).mbr = s.mbr ∧ (erasedStep s).flt = s.flt ∧ (erasedStep s).sec = s.sec ∧ (erasedStep s).cpx = s.cpx ∧ (erasedStep s).memc = s.memc ∧ (erasedStep s).mov = s.mov ∧ (erasedStep s).cst = s.cst ∧ (erasedStep s).out = s.out ∧ (erasedStep s).freeCtr = s.freeCtr := by
  unfold erasedStep
  try dsimp only
  first
    | (simp; done)
    | ((repeat' split) <;> simp; done)
    | (and_intros <;> (repeat' (first | (simp; done) | split)))

@[simp] theorem eraseFailed_frame (a0 : ℕ) (a1 : ℕ) (s : State) :
    (eraseFailed a0 a1 s).pending = s.pending ∧ (eraseFailed a0 a1 s).latch = s.latch ∧ (eraseFailed a0 a1 s).mem = s.mem ∧ (eraseFailed a0 a1 s).clk = s.clk ∧ (eraseFailed a0 a1 s).thm = s.thm ∧ (eraseFailed a0 a1 s).hif = s.hif ∧ (eraseFailed a0 a1 s).stm = s.stm ∧ (eraseFailed a0 a1 s).mbr = s.mbr ∧ (eraseFailed a0 a1 s).flt = s.flt ∧ (eraseFailed a0 a1 s).sec = s.sec ∧ (eraseFailed a0 a1 s).cpx = s.cpx ∧ (eraseFailed a0 a1 s).memc = s.memc ∧ (eraseFailed a0 a1 s).mov = s.mov ∧ (eraseFailed a0 a1 s).out = s.out ∧ (eraseFailed a0 a1 s).freeCtr = s.freeCtr := by
  unfold eraseFailed
  try dsimp only
  first
    | (simp; done)
    | ((repeat' split) <;> simp; done)
    | (and_intros <;> (repeat' (first | (simp; done) | split)))

/-! ### Place -/

@[simp] theorem queueOp_frame (a0 : Bool) (a1 : Op) (s : State) :
    (queueOp a0 a1 s).pending = s.pending ∧ (queueOp a0 a1 s).regs = s.regs ∧ (queueOp a0 a1 s).latch = s.latch ∧ (queueOp a0 a1 s).mem = s.mem ∧ (queueOp a0 a1 s).sys = s.sys ∧ (queueOp a0 a1 s).clk = s.clk ∧ (queueOp a0 a1 s).thm = s.thm ∧ (queueOp a0 a1 s).hif = s.hif ∧ (queueOp a0 a1 s).stm = s.stm ∧ (queueOp a0 a1 s).map = s.map ∧ (queueOp a0 a1 s).flc = s.flc ∧ (queueOp a0 a1 s).bnd = s.bnd ∧ (queueOp a0 a1 s).mbr = s.mbr ∧ (queueOp a0 a1 s).flt = s.flt ∧ (queueOp a0 a1 s).sec = s.sec ∧ (queueOp a0 a1 s).cpx = s.cpx ∧ (queueOp a0 a1 s).memc = s.memc ∧ (queueOp a0 a1 s).mov = s.mov ∧ (queueOp a0 a1 s).cst = s.cst ∧ (queueOp a0 a1 s).lnt = s.lnt ∧ (queueOp a0 a1 s).out = s.out ∧ (queueOp a0 a1 s).freeCtr = s.freeCtr := by
  unfold queueOp
  try dsimp only
  first
    | (simp; done)
    | ((repeat' split) <;> simp; done)
    | (and_intros <;> (repeat' (first | (simp; done) | split)))

@[simp] theorem touchUnit_frame (a0 : ℕ) (a1 : ℕ) (a2 : ℕ) (s : State) :
    (touchUnit a0 a1 a2 s).pending = s.pending ∧ (touchUnit a0 a1 a2 s).regs = s.regs ∧ (touchUnit a0 a1 a2 s).latch = s.latch ∧ (touchUnit a0 a1 a2 s).mem = s.mem ∧ (touchUnit a0 a1 a2 s).sys = s.sys ∧ (touchUnit a0 a1 a2 s).clk = s.clk ∧ (touchUnit a0 a1 a2 s).thm = s.thm ∧ (touchUnit a0 a1 a2 s).tck = s.tck ∧ (touchUnit a0 a1 a2 s).hif = s.hif ∧ (touchUnit a0 a1 a2 s).stm = s.stm ∧ (touchUnit a0 a1 a2 s).map = s.map ∧ (touchUnit a0 a1 a2 s).flc = s.flc ∧ (touchUnit a0 a1 a2 s).mbr = s.mbr ∧ (touchUnit a0 a1 a2 s).flt = s.flt ∧ (touchUnit a0 a1 a2 s).sec = s.sec ∧ (touchUnit a0 a1 a2 s).cpx = s.cpx ∧ (touchUnit a0 a1 a2 s).memc = s.memc ∧ (touchUnit a0 a1 a2 s).mov = s.mov ∧ (touchUnit a0 a1 a2 s).cst = s.cst ∧ (touchUnit a0 a1 a2 s).lnt = s.lnt ∧ (touchUnit a0 a1 a2 s).out = s.out ∧ (touchUnit a0 a1 a2 s).freeCtr = s.freeCtr := by
  unfold touchUnit
  try dsimp only
  first
    | (simp; done)
    | ((repeat' split) <;> simp; done)
    | (and_intros <;> (repeat' (first | (simp; done) | split)))

@[simp] theorem putAt_frame (a0 : Bool) (a1 : Page) (s : State) :
    (putAt a0 a1 s).pending = s.pending ∧ (putAt a0 a1 s).regs = s.regs ∧ (putAt a0 a1 s).latch = s.latch ∧ (putAt a0 a1 s).mem = s.mem ∧ (putAt a0 a1 s).sys = s.sys ∧ (putAt a0 a1 s).clk = s.clk ∧ (putAt a0 a1 s).thm = s.thm ∧ (putAt a0 a1 s).hif = s.hif ∧ (putAt a0 a1 s).stm = s.stm ∧ (putAt a0 a1 s).map = s.map ∧ (putAt a0 a1 s).flc = s.flc ∧ (putAt a0 a1 s).mbr = s.mbr ∧ (putAt a0 a1 s).flt = s.flt ∧ (putAt a0 a1 s).sec = s.sec ∧ (putAt a0 a1 s).cpx = s.cpx ∧ (putAt a0 a1 s).memc = s.memc ∧ (putAt a0 a1 s).mov = s.mov ∧ (putAt a0 a1 s).cst = s.cst ∧ (putAt a0 a1 s).lnt = s.lnt ∧ (putAt a0 a1 s).out = s.out ∧ (putAt a0 a1 s).freeCtr = s.freeCtr := by
  unfold putAt
  try dsimp only
  first
    | (simp; done)
    | ((repeat' split) <;> simp; done)
    | (and_intros <;> (repeat' (first | (simp; done) | split)))

@[simp] theorem putSlot_frame (a0 : ℕ) (a1 : ℕ) (a2 : Page) (s : State) :
    (putSlot a0 a1 a2 s).pending = s.pending ∧ (putSlot a0 a1 a2 s).regs = s.regs ∧ (putSlot a0 a1 a2 s).latch = s.latch ∧ (putSlot a0 a1 a2 s).mem = s.mem ∧ (putSlot a0 a1 a2 s).sys = s.sys ∧ (putSlot a0 a1 a2 s).clk = s.clk ∧ (putSlot a0 a1 a2 s).thm = s.thm ∧ (putSlot a0 a1 a2 s).hif = s.hif ∧ (putSlot a0 a1 a2 s).stm = s.stm ∧ (putSlot a0 a1 a2 s).map = s.map ∧ (putSlot a0 a1 a2 s).flc = s.flc ∧ (putSlot a0 a1 a2 s).mbr = s.mbr ∧ (putSlot a0 a1 a2 s).flt = s.flt ∧ (putSlot a0 a1 a2 s).sec = s.sec ∧ (putSlot a0 a1 a2 s).cpx = s.cpx ∧ (putSlot a0 a1 a2 s).memc = s.memc ∧ (putSlot a0 a1 a2 s).mov = s.mov ∧ (putSlot a0 a1 a2 s).cst = s.cst ∧ (putSlot a0 a1 a2 s).lnt = s.lnt ∧ (putSlot a0 a1 a2 s).out = s.out ∧ (putSlot a0 a1 a2 s).freeCtr = s.freeCtr := by
  unfold putSlot
  try dsimp only
  first
    | (simp; done)
    | ((repeat' split) <;> simp; done)
    | (and_intros <;> (repeat' (first | (simp; done) | split)))

theorem takeSlot_frame {a0 : ℕ} {s : State} {k : Nat} {t : State} (h : takeSlot a0 s = some (k, t)) :
    t.pending = s.pending ∧ t.regs = s.regs ∧ t.latch = s.latch ∧ t.mem = s.mem ∧ t.sys = s.sys ∧ t.clk = s.clk ∧ t.thm = s.thm ∧ t.tck = s.tck ∧ t.hif = s.hif ∧ t.stm = s.stm ∧ t.map = s.map ∧ t.flc = s.flc ∧ t.mbr = s.mbr ∧ t.flt = s.flt ∧ t.sec = s.sec ∧ t.cpx = s.cpx ∧ t.memc = s.memc ∧ t.mov = s.mov ∧ t.cst = s.cst ∧ t.lnt = s.lnt ∧ t.out = s.out ∧ t.freeCtr = s.freeCtr := by
  unfold takeSlot at h
  try dsimp only at h
  (repeat' split at h) <;> simp at h <;> (try (obtain ⟨h1, h2⟩ := h)) <;> (first | subst h | subst h2 | skip) <;>
    first | (simp_all; done) | (have h' := takeSlot_frame (by assumption); simp_all; done) | (obtain ⟨u, hu, h'⟩ := h; have h3 := placePage_frame hu; simp_all; done) | (obtain ⟨u, hu, h'⟩ := h1; have h3 := placePage_frame hu; simp_all; done)

theorem placePage_frame {a0 : ℕ} {a1 : Bool} {a2 : Page} {s : State} {t : State} (h : placePage a0 a1 a2 s = some t) :
    t.pending = s.pending ∧ t.regs = s.regs ∧ t.latch = s.latch ∧ t.mem = s.mem ∧ t.sys = s.sys ∧ t.clk = s.clk ∧ t.thm = s.thm ∧ t.hif = s.hif ∧ t.stm = s.stm ∧ t.map = s.map ∧ t.flc = s.flc ∧ t.mbr = s.mbr ∧ t.flt = s.flt ∧ t.sec = s.sec ∧ t.cpx = s.cpx ∧ t.memc = s.memc ∧ t.mov = s.mov ∧ t.cst = s.cst ∧ t.lnt = s.lnt ∧ t.out = s.out ∧ t.freeCtr = s.freeCtr := by
  unfold placePage at h
  try dsimp only at h
  (repeat' split at h) <;> simp at h <;> (try (obtain ⟨h1, h2⟩ := h)) <;> (first | subst h | subst h2 | skip) <;>
    first | (simp_all; done) | (have h' := takeSlot_frame (by assumption); simp_all; done) | (obtain ⟨u, hu, h'⟩ := h; have h3 := placePage_frame hu; simp_all; done) | (obtain ⟨u, hu, h'⟩ := h1; have h3 := placePage_frame hu; simp_all; done)

@[simp] theorem placePage_getD (k : Nat) (b : Bool) (p : Page) (s : State) :
    ((placePage k b p s).getD s).pending = s.pending ∧ ((placePage k b p s).getD s).regs = s.regs ∧ ((placePage k b p s).getD s).latch = s.latch ∧ ((placePage k b p s).getD s).mem = s.mem ∧ ((placePage k b p s).getD s).sys = s.sys ∧ ((placePage k b p s).getD s).clk = s.clk ∧ ((placePage k b p s).getD s).thm = s.thm ∧ ((placePage k b p s).getD s).hif = s.hif ∧ ((placePage k b p s).getD s).stm = s.stm ∧ ((placePage k b p s).getD s).map = s.map ∧ ((placePage k b p s).getD s).flc = s.flc ∧ ((placePage k b p s).getD s).mbr = s.mbr ∧ ((placePage k b p s).getD s).flt = s.flt ∧ ((placePage k b p s).getD s).sec = s.sec ∧ ((placePage k b p s).getD s).cpx = s.cpx ∧ ((placePage k b p s).getD s).memc = s.memc ∧ ((placePage k b p s).getD s).mov = s.mov ∧ ((placePage k b p s).getD s).cst = s.cst ∧ ((placePage k b p s).getD s).lnt = s.lnt ∧ ((placePage k b p s).getD s).out = s.out ∧ ((placePage k b p s).getD s).freeCtr = s.freeCtr := by
  cases h : placePage k b p s with
  | none => simp
  | some t => have h' := placePage_frame h; simp [h']

theorem slotAfter_frame {b : ℕ} {s : State} {x : ℕ × State} (h : slotAfter b s = some x) :
    x.2.pending = s.pending ∧ x.2.regs = s.regs ∧ x.2.latch = s.latch ∧ x.2.mem = s.mem ∧ x.2.sys = s.sys ∧ x.2.clk = s.clk ∧ x.2.thm = s.thm ∧ x.2.tck = s.tck ∧ x.2.hif = s.hif ∧ x.2.stm = s.stm ∧ x.2.map = s.map ∧ x.2.flc = s.flc ∧ x.2.mbr = s.mbr ∧ x.2.flt = s.flt ∧ x.2.sec = s.sec ∧ x.2.cpx = s.cpx ∧ x.2.memc = s.memc ∧ x.2.mov = s.mov ∧ x.2.cst = s.cst ∧ x.2.lnt = s.lnt ∧ x.2.out = s.out ∧ x.2.freeCtr = s.freeCtr := by
  unfold slotAfter at h
  split at h
  · cases h
    and_intros <;> rfl
  · cases h

theorem orphanStep_pending (s : State) : (orphanStep s).pending = s.pending := by
  unfold orphanStep
  refine (forAll_pending _ _ _ (fun x s => ?_)).trans rfl
  extract_lets kind q after
  split
  · rename_i t h
    split at h
    · simp only [after] at h
      split at h
      · obtain ⟨y, hy, rfl⟩ := Option.map_eq_some_iff.1 h
        simp [slotAfter_frame hy]
      · cases h
    · simp [placePage_frame h]
  · rfl

theorem orphanStep_regs (s : State) : (orphanStep s).regs = s.regs := by
  unfold orphanStep
  refine (forAll_regs _ _ _ (fun x s => ?_)).trans rfl
  extract_lets kind q after
  split
  · rename_i t h
    split at h
    · simp only [after] at h
      split at h
      · obtain ⟨y, hy, rfl⟩ := Option.map_eq_some_iff.1 h
        simp [slotAfter_frame hy]
      · cases h
    · simp [placePage_frame h]
  · rfl

theorem orphanStep_latch (s : State) : (orphanStep s).latch = s.latch := by
  unfold orphanStep
  refine (forAll_latch _ _ _ (fun x s => ?_)).trans rfl
  extract_lets kind q after
  split
  · rename_i t h
    split at h
    · simp only [after] at h
      split at h
      · obtain ⟨y, hy, rfl⟩ := Option.map_eq_some_iff.1 h
        simp [slotAfter_frame hy]
      · cases h
    · simp [placePage_frame h]
  · rfl

theorem orphanStep_mem (s : State) : (orphanStep s).mem = s.mem := by
  unfold orphanStep
  refine (forAll_mem _ _ _ (fun x s => ?_)).trans rfl
  extract_lets kind q after
  split
  · rename_i t h
    split at h
    · simp only [after] at h
      split at h
      · obtain ⟨y, hy, rfl⟩ := Option.map_eq_some_iff.1 h
        simp [slotAfter_frame hy]
      · cases h
    · simp [placePage_frame h]
  · rfl

theorem orphanStep_sys (s : State) : (orphanStep s).sys = s.sys := by
  unfold orphanStep
  refine (forAll_sys _ _ _ (fun x s => ?_)).trans rfl
  extract_lets kind q after
  split
  · rename_i t h
    split at h
    · simp only [after] at h
      split at h
      · obtain ⟨y, hy, rfl⟩ := Option.map_eq_some_iff.1 h
        simp [slotAfter_frame hy]
      · cases h
    · simp [placePage_frame h]
  · rfl

theorem orphanStep_clk (s : State) : (orphanStep s).clk = s.clk := by
  unfold orphanStep
  refine (forAll_clk _ _ _ (fun x s => ?_)).trans rfl
  extract_lets kind q after
  split
  · rename_i t h
    split at h
    · simp only [after] at h
      split at h
      · obtain ⟨y, hy, rfl⟩ := Option.map_eq_some_iff.1 h
        simp [slotAfter_frame hy]
      · cases h
    · simp [placePage_frame h]
  · rfl

theorem orphanStep_thm (s : State) : (orphanStep s).thm = s.thm := by
  unfold orphanStep
  refine (forAll_thm _ _ _ (fun x s => ?_)).trans rfl
  extract_lets kind q after
  split
  · rename_i t h
    split at h
    · simp only [after] at h
      split at h
      · obtain ⟨y, hy, rfl⟩ := Option.map_eq_some_iff.1 h
        simp [slotAfter_frame hy]
      · cases h
    · simp [placePage_frame h]
  · rfl

theorem orphanStep_hif (s : State) : (orphanStep s).hif = s.hif := by
  unfold orphanStep
  refine (forAll_hif _ _ _ (fun x s => ?_)).trans rfl
  extract_lets kind q after
  split
  · rename_i t h
    split at h
    · simp only [after] at h
      split at h
      · obtain ⟨y, hy, rfl⟩ := Option.map_eq_some_iff.1 h
        simp [slotAfter_frame hy]
      · cases h
    · simp [placePage_frame h]
  · rfl

theorem orphanStep_stm (s : State) : (orphanStep s).stm = s.stm := by
  unfold orphanStep
  refine (forAll_stm _ _ _ (fun x s => ?_)).trans rfl
  extract_lets kind q after
  split
  · rename_i t h
    split at h
    · simp only [after] at h
      split at h
      · obtain ⟨y, hy, rfl⟩ := Option.map_eq_some_iff.1 h
        simp [slotAfter_frame hy]
      · cases h
    · simp [placePage_frame h]
  · rfl

theorem orphanStep_map (s : State) : (orphanStep s).map = s.map := by
  unfold orphanStep
  refine (forAll_map _ _ _ (fun x s => ?_)).trans rfl
  extract_lets kind q after
  split
  · rename_i t h
    split at h
    · simp only [after] at h
      split at h
      · obtain ⟨y, hy, rfl⟩ := Option.map_eq_some_iff.1 h
        simp [slotAfter_frame hy]
      · cases h
    · simp [placePage_frame h]
  · rfl

theorem orphanStep_flc (s : State) : (orphanStep s).flc = s.flc := by
  unfold orphanStep
  refine (forAll_flc _ _ _ (fun x s => ?_)).trans rfl
  extract_lets kind q after
  split
  · rename_i t h
    split at h
    · simp only [after] at h
      split at h
      · obtain ⟨y, hy, rfl⟩ := Option.map_eq_some_iff.1 h
        simp [slotAfter_frame hy]
      · cases h
    · simp [placePage_frame h]
  · rfl

theorem orphanStep_mbr (s : State) : (orphanStep s).mbr = s.mbr := by
  unfold orphanStep
  refine (forAll_mbr _ _ _ (fun x s => ?_)).trans rfl
  extract_lets kind q after
  split
  · rename_i t h
    split at h
    · simp only [after] at h
      split at h
      · obtain ⟨y, hy, rfl⟩ := Option.map_eq_some_iff.1 h
        simp [slotAfter_frame hy]
      · cases h
    · simp [placePage_frame h]
  · rfl

theorem orphanStep_flt (s : State) : (orphanStep s).flt = s.flt := by
  unfold orphanStep
  refine (forAll_flt _ _ _ (fun x s => ?_)).trans rfl
  extract_lets kind q after
  split
  · rename_i t h
    split at h
    · simp only [after] at h
      split at h
      · obtain ⟨y, hy, rfl⟩ := Option.map_eq_some_iff.1 h
        simp [slotAfter_frame hy]
      · cases h
    · simp [placePage_frame h]
  · rfl

theorem orphanStep_sec (s : State) : (orphanStep s).sec = s.sec := by
  unfold orphanStep
  refine (forAll_sec _ _ _ (fun x s => ?_)).trans rfl
  extract_lets kind q after
  split
  · rename_i t h
    split at h
    · simp only [after] at h
      split at h
      · obtain ⟨y, hy, rfl⟩ := Option.map_eq_some_iff.1 h
        simp [slotAfter_frame hy]
      · cases h
    · simp [placePage_frame h]
  · rfl

theorem orphanStep_cpx (s : State) : (orphanStep s).cpx = s.cpx := by
  unfold orphanStep
  refine (forAll_cpx _ _ _ (fun x s => ?_)).trans rfl
  extract_lets kind q after
  split
  · rename_i t h
    split at h
    · simp only [after] at h
      split at h
      · obtain ⟨y, hy, rfl⟩ := Option.map_eq_some_iff.1 h
        simp [slotAfter_frame hy]
      · cases h
    · simp [placePage_frame h]
  · rfl

theorem orphanStep_memc (s : State) : (orphanStep s).memc = s.memc := by
  unfold orphanStep
  refine (forAll_memc _ _ _ (fun x s => ?_)).trans rfl
  extract_lets kind q after
  split
  · rename_i t h
    split at h
    · simp only [after] at h
      split at h
      · obtain ⟨y, hy, rfl⟩ := Option.map_eq_some_iff.1 h
        simp [slotAfter_frame hy]
      · cases h
    · simp [placePage_frame h]
  · rfl

theorem orphanStep_mov (s : State) : (orphanStep s).mov = s.mov := by
  unfold orphanStep
  refine (forAll_mov _ _ _ (fun x s => ?_)).trans rfl
  extract_lets kind q after
  split
  · rename_i t h
    split at h
    · simp only [after] at h
      split at h
      · obtain ⟨y, hy, rfl⟩ := Option.map_eq_some_iff.1 h
        simp [slotAfter_frame hy]
      · cases h
    · simp [placePage_frame h]
  · rfl

theorem orphanStep_cst (s : State) : (orphanStep s).cst = s.cst := by
  unfold orphanStep
  refine (forAll_cst _ _ _ (fun x s => ?_)).trans rfl
  extract_lets kind q after
  split
  · rename_i t h
    split at h
    · simp only [after] at h
      split at h
      · obtain ⟨y, hy, rfl⟩ := Option.map_eq_some_iff.1 h
        simp [slotAfter_frame hy]
      · cases h
    · simp [placePage_frame h]
  · rfl

theorem orphanStep_lnt (s : State) : (orphanStep s).lnt = s.lnt := by
  unfold orphanStep
  refine (forAll_lnt _ _ _ (fun x s => ?_)).trans rfl
  extract_lets kind q after
  split
  · rename_i t h
    split at h
    · simp only [after] at h
      split at h
      · obtain ⟨y, hy, rfl⟩ := Option.map_eq_some_iff.1 h
        simp [slotAfter_frame hy]
      · cases h
    · simp [placePage_frame h]
  · rfl

theorem orphanStep_out (s : State) : (orphanStep s).out = s.out := by
  unfold orphanStep
  refine (forAll_out _ _ _ (fun x s => ?_)).trans rfl
  extract_lets kind q after
  split
  · rename_i t h
    split at h
    · simp only [after] at h
      split at h
      · obtain ⟨y, hy, rfl⟩ := Option.map_eq_some_iff.1 h
        simp [slotAfter_frame hy]
      · cases h
    · simp [placePage_frame h]
  · rfl

theorem orphanStep_freeCtr (s : State) : (orphanStep s).freeCtr = s.freeCtr := by
  unfold orphanStep
  refine (forAll_freeCtr _ _ _ (fun x s => ?_)).trans rfl
  extract_lets kind q after
  split
  · rename_i t h
    split at h
    · simp only [after] at h
      split at h
      · obtain ⟨y, hy, rfl⟩ := Option.map_eq_some_iff.1 h
        simp [slotAfter_frame hy]
      · cases h
    · simp [placePage_frame h]
  · rfl

@[simp] theorem orphanStep_frame (s : State) :
    (orphanStep s).pending = s.pending ∧ (orphanStep s).regs = s.regs ∧ (orphanStep s).latch = s.latch ∧ (orphanStep s).mem = s.mem ∧ (orphanStep s).sys = s.sys ∧ (orphanStep s).clk = s.clk ∧ (orphanStep s).thm = s.thm ∧ (orphanStep s).hif = s.hif ∧ (orphanStep s).stm = s.stm ∧ (orphanStep s).map = s.map ∧ (orphanStep s).flc = s.flc ∧ (orphanStep s).mbr = s.mbr ∧ (orphanStep s).flt = s.flt ∧ (orphanStep s).sec = s.sec ∧ (orphanStep s).cpx = s.cpx ∧ (orphanStep s).memc = s.memc ∧ (orphanStep s).mov = s.mov ∧ (orphanStep s).cst = s.cst ∧ (orphanStep s).lnt = s.lnt ∧ (orphanStep s).out = s.out ∧ (orphanStep s).freeCtr = s.freeCtr :=
  ⟨orphanStep_pending s, orphanStep_regs s, orphanStep_latch s, orphanStep_mem s, orphanStep_sys s, orphanStep_clk s, orphanStep_thm s, orphanStep_hif s, orphanStep_stm s, orphanStep_map s, orphanStep_flc s, orphanStep_mbr s, orphanStep_flt s, orphanStep_sec s, orphanStep_cpx s, orphanStep_memc s, orphanStep_mov s, orphanStep_cst s, orphanStep_lnt s, orphanStep_out s, orphanStep_freeCtr s⟩

theorem giveUpRun_pending (a0 : ℕ) (s : State) : (giveUpRun a0 s).pending = s.pending := by
  unfold giveUpRun
  try dsimp only
  first
    | (simp; done)
    | ((repeat' split) <;> simp; done)
    | (repeat' (first | (simp; done) | split))

theorem giveUpRun_regs (a0 : ℕ) (s : State) : (giveUpRun a0 s).regs = s.regs := by
  unfold giveUpRun
  try dsimp only
  first
    | (simp; done)
    | ((repeat' split) <;> simp; done)
    | (repeat' (first | (simp; done) | split))

theorem giveUpRun_latch (a0 : ℕ) (s : State) : (giveUpRun a0 s).latch = s.latch := by
  unfold giveUpRun
  try dsimp only
  first
    | (simp; done)
    | ((repeat' split) <;> simp; done)
    | (repeat' (first | (simp; done) | split))

theorem giveUpRun_mem (a0 : ℕ) (s : State) : (giveUpRun a0 s).mem = s.mem := by
  unfold giveUpRun
  try dsimp only
  first
    | (simp; done)
    | ((repeat' split) <;> simp; done)
    | (repeat' (first | (simp; done) | split))

theorem giveUpRun_sys (a0 : ℕ) (s : State) : (giveUpRun a0 s).sys = s.sys := by
  unfold giveUpRun
  try dsimp only
  first
    | (simp; done)
    | ((repeat' split) <;> simp; done)
    | (repeat' (first | (simp; done) | split))

theorem giveUpRun_clk (a0 : ℕ) (s : State) : (giveUpRun a0 s).clk = s.clk := by
  unfold giveUpRun
  try dsimp only
  first
    | (simp; done)
    | ((repeat' split) <;> simp; done)
    | (repeat' (first | (simp; done) | split))

theorem giveUpRun_thm (a0 : ℕ) (s : State) : (giveUpRun a0 s).thm = s.thm := by
  unfold giveUpRun
  try dsimp only
  first
    | (simp; done)
    | ((repeat' split) <;> simp; done)
    | (repeat' (first | (simp; done) | split))

theorem giveUpRun_hif (a0 : ℕ) (s : State) : (giveUpRun a0 s).hif = s.hif := by
  unfold giveUpRun
  try dsimp only
  first
    | (simp; done)
    | ((repeat' split) <;> simp; done)
    | (repeat' (first | (simp; done) | split))

theorem giveUpRun_stm (a0 : ℕ) (s : State) : (giveUpRun a0 s).stm = s.stm := by
  unfold giveUpRun
  try dsimp only
  first
    | (simp; done)
    | ((repeat' split) <;> simp; done)
    | (repeat' (first | (simp; done) | split))

theorem giveUpRun_flc (a0 : ℕ) (s : State) : (giveUpRun a0 s).flc = s.flc := by
  unfold giveUpRun
  try dsimp only
  first
    | (simp; done)
    | ((repeat' split) <;> simp; done)
    | (repeat' (first | (simp; done) | split))

theorem giveUpRun_mbr (a0 : ℕ) (s : State) : (giveUpRun a0 s).mbr = s.mbr := by
  unfold giveUpRun
  try dsimp only
  first
    | (simp; done)
    | ((repeat' split) <;> simp; done)
    | (repeat' (first | (simp; done) | split))

theorem giveUpRun_flt (a0 : ℕ) (s : State) : (giveUpRun a0 s).flt = s.flt := by
  unfold giveUpRun
  try dsimp only
  first
    | (simp; done)
    | ((repeat' split) <;> simp; done)
    | (repeat' (first | (simp; done) | split))

theorem giveUpRun_sec (a0 : ℕ) (s : State) : (giveUpRun a0 s).sec = s.sec := by
  unfold giveUpRun
  try dsimp only
  first
    | (simp; done)
    | ((repeat' split) <;> simp; done)
    | (repeat' (first | (simp; done) | split))

theorem giveUpRun_cpx (a0 : ℕ) (s : State) : (giveUpRun a0 s).cpx = s.cpx := by
  unfold giveUpRun
  try dsimp only
  first
    | (simp; done)
    | ((repeat' split) <;> simp; done)
    | (repeat' (first | (simp; done) | split))

theorem giveUpRun_memc (a0 : ℕ) (s : State) : (giveUpRun a0 s).memc = s.memc := by
  unfold giveUpRun
  try dsimp only
  first
    | (simp; done)
    | ((repeat' split) <;> simp; done)
    | (repeat' (first | (simp; done) | split))

theorem giveUpRun_mov (a0 : ℕ) (s : State) : (giveUpRun a0 s).mov = s.mov := by
  unfold giveUpRun
  try dsimp only
  first
    | (simp; done)
    | ((repeat' split) <;> simp; done)
    | (repeat' (first | (simp; done) | split))

theorem giveUpRun_cst (a0 : ℕ) (s : State) : (giveUpRun a0 s).cst = s.cst := by
  unfold giveUpRun
  try dsimp only
  first
    | (simp; done)
    | ((repeat' split) <;> simp; done)
    | (repeat' (first | (simp; done) | split))

theorem giveUpRun_lnt (a0 : ℕ) (s : State) : (giveUpRun a0 s).lnt = s.lnt := by
  unfold giveUpRun
  try dsimp only
  first
    | (simp; done)
    | ((repeat' split) <;> simp; done)
    | (repeat' (first | (simp; done) | split))

theorem giveUpRun_out (a0 : ℕ) (s : State) : (giveUpRun a0 s).out = s.out := by
  unfold giveUpRun
  try dsimp only
  first
    | (simp; done)
    | ((repeat' split) <;> simp; done)
    | (repeat' (first | (simp; done) | split))

theorem giveUpRun_freeCtr (a0 : ℕ) (s : State) : (giveUpRun a0 s).freeCtr = s.freeCtr := by
  unfold giveUpRun
  try dsimp only
  first
    | (simp; done)
    | ((repeat' split) <;> simp; done)
    | (repeat' (first | (simp; done) | split))

@[simp] theorem giveUpRun_frame (a0 : ℕ) (s : State) :
    (giveUpRun a0 s).pending = s.pending ∧ (giveUpRun a0 s).regs = s.regs ∧ (giveUpRun a0 s).latch = s.latch ∧ (giveUpRun a0 s).mem = s.mem ∧ (giveUpRun a0 s).sys = s.sys ∧ (giveUpRun a0 s).clk = s.clk ∧ (giveUpRun a0 s).thm = s.thm ∧ (giveUpRun a0 s).hif = s.hif ∧ (giveUpRun a0 s).stm = s.stm ∧ (giveUpRun a0 s).flc = s.flc ∧ (giveUpRun a0 s).mbr = s.mbr ∧ (giveUpRun a0 s).flt = s.flt ∧ (giveUpRun a0 s).sec = s.sec ∧ (giveUpRun a0 s).cpx = s.cpx ∧ (giveUpRun a0 s).memc = s.memc ∧ (giveUpRun a0 s).mov = s.mov ∧ (giveUpRun a0 s).cst = s.cst ∧ (giveUpRun a0 s).lnt = s.lnt ∧ (giveUpRun a0 s).out = s.out ∧ (giveUpRun a0 s).freeCtr = s.freeCtr :=
  ⟨giveUpRun_pending a0 s, giveUpRun_regs a0 s, giveUpRun_latch a0 s, giveUpRun_mem a0 s, giveUpRun_sys a0 s, giveUpRun_clk a0 s, giveUpRun_thm a0 s, giveUpRun_hif a0 s, giveUpRun_stm a0 s, giveUpRun_flc a0 s, giveUpRun_mbr a0 s, giveUpRun_flt a0 s, giveUpRun_sec a0 s, giveUpRun_cpx a0 s, giveUpRun_memc a0 s, giveUpRun_mov a0 s, giveUpRun_cst a0 s, giveUpRun_lnt a0 s, giveUpRun_out a0 s, giveUpRun_freeCtr a0 s⟩

@[simp] theorem dropApp_frame (a0 : ℕ) (s : State) :
    (dropApp a0 s).pending = s.pending ∧ (dropApp a0 s).regs = s.regs ∧ (dropApp a0 s).latch = s.latch ∧ (dropApp a0 s).mem = s.mem ∧ (dropApp a0 s).sys = s.sys ∧ (dropApp a0 s).clk = s.clk ∧ (dropApp a0 s).thm = s.thm ∧ (dropApp a0 s).tck = s.tck ∧ (dropApp a0 s).hif = s.hif ∧ (dropApp a0 s).stm = s.stm ∧ (dropApp a0 s).flc = s.flc ∧ (dropApp a0 s).bnd = s.bnd ∧ (dropApp a0 s).mbr = s.mbr ∧ (dropApp a0 s).flt = s.flt ∧ (dropApp a0 s).sec = s.sec ∧ (dropApp a0 s).cpx = s.cpx ∧ (dropApp a0 s).memc = s.memc ∧ (dropApp a0 s).mov = s.mov ∧ (dropApp a0 s).cst = s.cst ∧ (dropApp a0 s).lnt = s.lnt ∧ (dropApp a0 s).out = s.out ∧ (dropApp a0 s).freeCtr = s.freeCtr := by
  unfold dropApp
  try dsimp only
  first
    | (simp; done)
    | ((repeat' split) <;> simp; done)
    | (and_intros <;> (repeat' (first | (simp; done) | split)))

theorem moveBacklog_pending (a0 : ℕ) (s : State) : (moveBacklog a0 s).pending = s.pending := by
  unfold moveBacklog
  try dsimp only
  first
    | (simp; done)
    | ((repeat' split) <;> simp; done)
    | (repeat' (first | (simp; done) | split))

theorem moveBacklog_regs (a0 : ℕ) (s : State) : (moveBacklog a0 s).regs = s.regs := by
  unfold moveBacklog
  try dsimp only
  first
    | (simp; done)
    | ((repeat' split) <;> simp; done)
    | (repeat' (first | (simp; done) | split))

theorem moveBacklog_latch (a0 : ℕ) (s : State) : (moveBacklog a0 s).latch = s.latch := by
  unfold moveBacklog
  try dsimp only
  first
    | (simp; done)
    | ((repeat' split) <;> simp; done)
    | (repeat' (first | (simp; done) | split))

theorem moveBacklog_mem (a0 : ℕ) (s : State) : (moveBacklog a0 s).mem = s.mem := by
  unfold moveBacklog
  try dsimp only
  first
    | (simp; done)
    | ((repeat' split) <;> simp; done)
    | (repeat' (first | (simp; done) | split))

theorem moveBacklog_sys (a0 : ℕ) (s : State) : (moveBacklog a0 s).sys = s.sys := by
  unfold moveBacklog
  try dsimp only
  first
    | (simp; done)
    | ((repeat' split) <;> simp; done)
    | (repeat' (first | (simp; done) | split))

theorem moveBacklog_clk (a0 : ℕ) (s : State) : (moveBacklog a0 s).clk = s.clk := by
  unfold moveBacklog
  try dsimp only
  first
    | (simp; done)
    | ((repeat' split) <;> simp; done)
    | (repeat' (first | (simp; done) | split))

theorem moveBacklog_thm (a0 : ℕ) (s : State) : (moveBacklog a0 s).thm = s.thm := by
  unfold moveBacklog
  try dsimp only
  first
    | (simp; done)
    | ((repeat' split) <;> simp; done)
    | (repeat' (first | (simp; done) | split))

theorem moveBacklog_hif (a0 : ℕ) (s : State) : (moveBacklog a0 s).hif = s.hif := by
  unfold moveBacklog
  try dsimp only
  first
    | (simp; done)
    | ((repeat' split) <;> simp; done)
    | (repeat' (first | (simp; done) | split))

theorem moveBacklog_stm (a0 : ℕ) (s : State) : (moveBacklog a0 s).stm = s.stm := by
  unfold moveBacklog
  try dsimp only
  first
    | (simp; done)
    | ((repeat' split) <;> simp; done)
    | (repeat' (first | (simp; done) | split))

theorem moveBacklog_flc (a0 : ℕ) (s : State) : (moveBacklog a0 s).flc = s.flc := by
  unfold moveBacklog
  try dsimp only
  first
    | (simp; done)
    | ((repeat' split) <;> simp; done)
    | (repeat' (first | (simp; done) | split))

theorem moveBacklog_mbr (a0 : ℕ) (s : State) : (moveBacklog a0 s).mbr = s.mbr := by
  unfold moveBacklog
  try dsimp only
  first
    | (simp; done)
    | ((repeat' split) <;> simp; done)
    | (repeat' (first | (simp; done) | split))

theorem moveBacklog_flt (a0 : ℕ) (s : State) : (moveBacklog a0 s).flt = s.flt := by
  unfold moveBacklog
  try dsimp only
  first
    | (simp; done)
    | ((repeat' split) <;> simp; done)
    | (repeat' (first | (simp; done) | split))

theorem moveBacklog_sec (a0 : ℕ) (s : State) : (moveBacklog a0 s).sec = s.sec := by
  unfold moveBacklog
  try dsimp only
  first
    | (simp; done)
    | ((repeat' split) <;> simp; done)
    | (repeat' (first | (simp; done) | split))

theorem moveBacklog_cpx (a0 : ℕ) (s : State) : (moveBacklog a0 s).cpx = s.cpx := by
  unfold moveBacklog
  try dsimp only
  first
    | (simp; done)
    | ((repeat' split) <;> simp; done)
    | (repeat' (first | (simp; done) | split))

theorem moveBacklog_memc (a0 : ℕ) (s : State) : (moveBacklog a0 s).memc = s.memc := by
  unfold moveBacklog
  try dsimp only
  first
    | (simp; done)
    | ((repeat' split) <;> simp; done)
    | (repeat' (first | (simp; done) | split))

theorem moveBacklog_mov (a0 : ℕ) (s : State) : (moveBacklog a0 s).mov = s.mov := by
  unfold moveBacklog
  try dsimp only
  first
    | (simp; done)
    | ((repeat' split) <;> simp; done)
    | (repeat' (first | (simp; done) | split))

theorem moveBacklog_cst (a0 : ℕ) (s : State) : (moveBacklog a0 s).cst = s.cst := by
  unfold moveBacklog
  try dsimp only
  first
    | (simp; done)
    | ((repeat' split) <;> simp; done)
    | (repeat' (first | (simp; done) | split))

theorem moveBacklog_lnt (a0 : ℕ) (s : State) : (moveBacklog a0 s).lnt = s.lnt := by
  unfold moveBacklog
  try dsimp only
  first
    | (simp; done)
    | ((repeat' split) <;> simp; done)
    | (repeat' (first | (simp; done) | split))

theorem moveBacklog_out (a0 : ℕ) (s : State) : (moveBacklog a0 s).out = s.out := by
  unfold moveBacklog
  try dsimp only
  first
    | (simp; done)
    | ((repeat' split) <;> simp; done)
    | (repeat' (first | (simp; done) | split))

theorem moveBacklog_freeCtr (a0 : ℕ) (s : State) : (moveBacklog a0 s).freeCtr = s.freeCtr := by
  unfold moveBacklog
  try dsimp only
  first
    | (simp; done)
    | ((repeat' split) <;> simp; done)
    | (repeat' (first | (simp; done) | split))

@[simp] theorem moveBacklog_frame (a0 : ℕ) (s : State) :
    (moveBacklog a0 s).pending = s.pending ∧ (moveBacklog a0 s).regs = s.regs ∧ (moveBacklog a0 s).latch = s.latch ∧ (moveBacklog a0 s).mem = s.mem ∧ (moveBacklog a0 s).sys = s.sys ∧ (moveBacklog a0 s).clk = s.clk ∧ (moveBacklog a0 s).thm = s.thm ∧ (moveBacklog a0 s).hif = s.hif ∧ (moveBacklog a0 s).stm = s.stm ∧ (moveBacklog a0 s).flc = s.flc ∧ (moveBacklog a0 s).mbr = s.mbr ∧ (moveBacklog a0 s).flt = s.flt ∧ (moveBacklog a0 s).sec = s.sec ∧ (moveBacklog a0 s).cpx = s.cpx ∧ (moveBacklog a0 s).memc = s.memc ∧ (moveBacklog a0 s).mov = s.mov ∧ (moveBacklog a0 s).cst = s.cst ∧ (moveBacklog a0 s).lnt = s.lnt ∧ (moveBacklog a0 s).out = s.out ∧ (moveBacklog a0 s).freeCtr = s.freeCtr :=
  ⟨moveBacklog_pending a0 s, moveBacklog_regs a0 s, moveBacklog_latch a0 s, moveBacklog_mem a0 s, moveBacklog_sys a0 s, moveBacklog_clk a0 s, moveBacklog_thm a0 s, moveBacklog_hif a0 s, moveBacklog_stm a0 s, moveBacklog_flc a0 s, moveBacklog_mbr a0 s, moveBacklog_flt a0 s, moveBacklog_sec a0 s, moveBacklog_cpx a0 s, moveBacklog_memc a0 s, moveBacklog_mov a0 s, moveBacklog_cst a0 s, moveBacklog_lnt a0 s, moveBacklog_out a0 s, moveBacklog_freeCtr a0 s⟩

theorem reissue_pending (a0 : Bool) (a1 : ℕ) (s : State) : (reissue a0 a1 s).pending = s.pending := by
  unfold reissue
  try dsimp only
  first
    | (simp; done)
    | ((repeat' split) <;> simp; done)
    | (repeat' (first | (simp; done) | split))

theorem reissue_latch (a0 : Bool) (a1 : ℕ) (s : State) : (reissue a0 a1 s).latch = s.latch := by
  unfold reissue
  try dsimp only
  first
    | (simp; done)
    | ((repeat' split) <;> simp; done)
    | (repeat' (first | (simp; done) | split))

theorem reissue_mem (a0 : Bool) (a1 : ℕ) (s : State) : (reissue a0 a1 s).mem = s.mem := by
  unfold reissue
  try dsimp only
  first
    | (simp; done)
    | ((repeat' split) <;> simp; done)
    | (repeat' (first | (simp; done) | split))

theorem reissue_clk (a0 : Bool) (a1 : ℕ) (s : State) : (reissue a0 a1 s).clk = s.clk := by
  unfold reissue
  try dsimp only
  first
    | (simp; done)
    | ((repeat' split) <;> simp; done)
    | (repeat' (first | (simp; done) | split))

theorem reissue_thm (a0 : Bool) (a1 : ℕ) (s : State) : (reissue a0 a1 s).thm = s.thm := by
  unfold reissue
  try dsimp only
  first
    | (simp; done)
    | ((repeat' split) <;> simp; done)
    | (repeat' (first | (simp; done) | split))

theorem reissue_hif (a0 : Bool) (a1 : ℕ) (s : State) : (reissue a0 a1 s).hif = s.hif := by
  unfold reissue
  try dsimp only
  first
    | (simp; done)
    | ((repeat' split) <;> simp; done)
    | (repeat' (first | (simp; done) | split))

theorem reissue_stm (a0 : Bool) (a1 : ℕ) (s : State) : (reissue a0 a1 s).stm = s.stm := by
  unfold reissue
  try dsimp only
  first
    | (simp; done)
    | ((repeat' split) <;> simp; done)
    | (repeat' (first | (simp; done) | split))

theorem reissue_flc (a0 : Bool) (a1 : ℕ) (s : State) : (reissue a0 a1 s).flc = s.flc := by
  unfold reissue
  try dsimp only
  first
    | (simp; done)
    | ((repeat' split) <;> simp; done)
    | (repeat' (first | (simp; done) | split))

theorem reissue_mbr (a0 : Bool) (a1 : ℕ) (s : State) : (reissue a0 a1 s).mbr = s.mbr := by
  unfold reissue
  try dsimp only
  first
    | (simp; done)
    | ((repeat' split) <;> simp; done)
    | (repeat' (first | (simp; done) | split))

theorem reissue_flt (a0 : Bool) (a1 : ℕ) (s : State) : (reissue a0 a1 s).flt = s.flt := by
  unfold reissue
  try dsimp only
  first
    | (simp; done)
    | ((repeat' split) <;> simp; done)
    | (repeat' (first | (simp; done) | split))

theorem reissue_sec (a0 : Bool) (a1 : ℕ) (s : State) : (reissue a0 a1 s).sec = s.sec := by
  unfold reissue
  try dsimp only
  first
    | (simp; done)
    | ((repeat' split) <;> simp; done)
    | (repeat' (first | (simp; done) | split))

theorem reissue_cpx (a0 : Bool) (a1 : ℕ) (s : State) : (reissue a0 a1 s).cpx = s.cpx := by
  unfold reissue
  try dsimp only
  first
    | (simp; done)
    | ((repeat' split) <;> simp; done)
    | (repeat' (first | (simp; done) | split))

theorem reissue_memc (a0 : Bool) (a1 : ℕ) (s : State) : (reissue a0 a1 s).memc = s.memc := by
  unfold reissue
  try dsimp only
  first
    | (simp; done)
    | ((repeat' split) <;> simp; done)
    | (repeat' (first | (simp; done) | split))

theorem reissue_mov (a0 : Bool) (a1 : ℕ) (s : State) : (reissue a0 a1 s).mov = s.mov := by
  unfold reissue
  try dsimp only
  first
    | (simp; done)
    | ((repeat' split) <;> simp; done)
    | (repeat' (first | (simp; done) | split))

theorem reissue_cst (a0 : Bool) (a1 : ℕ) (s : State) : (reissue a0 a1 s).cst = s.cst := by
  unfold reissue
  try dsimp only
  first
    | (simp; done)
    | ((repeat' split) <;> simp; done)
    | (repeat' (first | (simp; done) | split))

theorem reissue_out (a0 : Bool) (a1 : ℕ) (s : State) : (reissue a0 a1 s).out = s.out := by
  unfold reissue
  try dsimp only
  first
    | (simp; done)
    | ((repeat' split) <;> simp; done)
    | (repeat' (first | (simp; done) | split))

theorem reissue_freeCtr (a0 : Bool) (a1 : ℕ) (s : State) : (reissue a0 a1 s).freeCtr = s.freeCtr := by
  unfold reissue
  try dsimp only
  first
    | (simp; done)
    | ((repeat' split) <;> simp; done)
    | (repeat' (first | (simp; done) | split))

@[simp] theorem reissue_frame (a0 : Bool) (a1 : ℕ) (s : State) :
    (reissue a0 a1 s).pending = s.pending ∧ (reissue a0 a1 s).latch = s.latch ∧ (reissue a0 a1 s).mem = s.mem ∧ (reissue a0 a1 s).clk = s.clk ∧ (reissue a0 a1 s).thm = s.thm ∧ (reissue a0 a1 s).hif = s.hif ∧ (reissue a0 a1 s).stm = s.stm ∧ (reissue a0 a1 s).flc = s.flc ∧ (reissue a0 a1 s).mbr = s.mbr ∧ (reissue a0 a1 s).flt = s.flt ∧ (reissue a0 a1 s).sec = s.sec ∧ (reissue a0 a1 s).cpx = s.cpx ∧ (reissue a0 a1 s).memc = s.memc ∧ (reissue a0 a1 s).mov = s.mov ∧ (reissue a0 a1 s).cst = s.cst ∧ (reissue a0 a1 s).out = s.out ∧ (reissue a0 a1 s).freeCtr = s.freeCtr :=
  ⟨reissue_pending a0 a1 s, reissue_latch a0 a1 s, reissue_mem a0 a1 s, reissue_clk a0 a1 s, reissue_thm a0 a1 s, reissue_hif a0 a1 s, reissue_stm a0 a1 s, reissue_flc a0 a1 s, reissue_mbr a0 a1 s, reissue_flt a0 a1 s, reissue_sec a0 a1 s, reissue_cpx a0 a1 s, reissue_memc a0 a1 s, reissue_mov a0 a1 s, reissue_cst a0 a1 s, reissue_out a0 a1 s, reissue_freeCtr a0 a1 s⟩

@[simp] theorem padAt_frame (a0 : Cls) (a1 : ℕ) (a2 : ℕ) (a3 : ℕ) (a4 : ℕ) (s : State) :
    (padAt a0 a1 a2 a3 a4 s).pending = s.pending ∧ (padAt a0 a1 a2 a3 a4 s).latch = s.latch ∧ (padAt a0 a1 a2 a3 a4 s).mem = s.mem ∧ (padAt a0 a1 a2 a3 a4 s).sys = s.sys ∧ (padAt a0 a1 a2 a3 a4 s).clk = s.clk ∧ (padAt a0 a1 a2 a3 a4 s).thm = s.thm ∧ (padAt a0 a1 a2 a3 a4 s).hif = s.hif ∧ (padAt a0 a1 a2 a3 a4 s).stm = s.stm ∧ (padAt a0 a1 a2 a3 a4 s).map = s.map ∧ (padAt a0 a1 a2 a3 a4 s).flc = s.flc ∧ (padAt a0 a1 a2 a3 a4 s).mbr = s.mbr ∧ (padAt a0 a1 a2 a3 a4 s).flt = s.flt ∧ (padAt a0 a1 a2 a3 a4 s).sec = s.sec ∧ (padAt a0 a1 a2 a3 a4 s).cpx = s.cpx ∧ (padAt a0 a1 a2 a3 a4 s).memc = s.memc ∧ (padAt a0 a1 a2 a3 a4 s).mov = s.mov ∧ (padAt a0 a1 a2 a3 a4 s).cst = s.cst ∧ (padAt a0 a1 a2 a3 a4 s).lnt = s.lnt ∧ (padAt a0 a1 a2 a3 a4 s).out = s.out ∧ (padAt a0 a1 a2 a3 a4 s).freeCtr = s.freeCtr := by
  unfold padAt
  try dsimp only
  first
    | (simp; done)
    | ((repeat' split) <;> simp; done)
    | (and_intros <;> (repeat' (first | (simp; done) | split)))

@[simp] theorem padRows_frame (a0 : ℕ) (a1 : ℕ) (a2 : ℕ) (s : State) :
    (padRows a0 a1 a2 s).pending = s.pending ∧ (padRows a0 a1 a2 s).latch = s.latch ∧ (padRows a0 a1 a2 s).mem = s.mem ∧ (padRows a0 a1 a2 s).sys = s.sys ∧ (padRows a0 a1 a2 s).clk = s.clk ∧ (padRows a0 a1 a2 s).thm = s.thm ∧ (padRows a0 a1 a2 s).hif = s.hif ∧ (padRows a0 a1 a2 s).stm = s.stm ∧ (padRows a0 a1 a2 s).map = s.map ∧ (padRows a0 a1 a2 s).flc = s.flc ∧ (padRows a0 a1 a2 s).mbr = s.mbr ∧ (padRows a0 a1 a2 s).flt = s.flt ∧ (padRows a0 a1 a2 s).sec = s.sec ∧ (padRows a0 a1 a2 s).cpx = s.cpx ∧ (padRows a0 a1 a2 s).memc = s.memc ∧ (padRows a0 a1 a2 s).mov = s.mov ∧ (padRows a0 a1 a2 s).cst = s.cst ∧ (padRows a0 a1 a2 s).lnt = s.lnt ∧ (padRows a0 a1 a2 s).out = s.out ∧ (padRows a0 a1 a2 s).freeCtr = s.freeCtr := by
  unfold padRows
  try dsimp only
  first
    | (simp; done)
    | ((repeat' split) <;> simp; done)
    | (and_intros <;> (repeat' (first | (simp; done) | split)))

@[simp] theorem parityAt_frame (a0 : ℕ) (a1 : ℕ) (a2 : ℕ) (a3 : ℕ) (a4 : Bool) (s : State) :
    (parityAt a0 a1 a2 a3 a4 s).pending = s.pending ∧ (parityAt a0 a1 a2 a3 a4 s).regs = s.regs ∧ (parityAt a0 a1 a2 a3 a4 s).latch = s.latch ∧ (parityAt a0 a1 a2 a3 a4 s).mem = s.mem ∧ (parityAt a0 a1 a2 a3 a4 s).sys = s.sys ∧ (parityAt a0 a1 a2 a3 a4 s).clk = s.clk ∧ (parityAt a0 a1 a2 a3 a4 s).thm = s.thm ∧ (parityAt a0 a1 a2 a3 a4 s).hif = s.hif ∧ (parityAt a0 a1 a2 a3 a4 s).stm = s.stm ∧ (parityAt a0 a1 a2 a3 a4 s).map = s.map ∧ (parityAt a0 a1 a2 a3 a4 s).flc = s.flc ∧ (parityAt a0 a1 a2 a3 a4 s).mbr = s.mbr ∧ (parityAt a0 a1 a2 a3 a4 s).flt = s.flt ∧ (parityAt a0 a1 a2 a3 a4 s).sec = s.sec ∧ (parityAt a0 a1 a2 a3 a4 s).cpx = s.cpx ∧ (parityAt a0 a1 a2 a3 a4 s).memc = s.memc ∧ (parityAt a0 a1 a2 a3 a4 s).mov = s.mov ∧ (parityAt a0 a1 a2 a3 a4 s).cst = s.cst ∧ (parityAt a0 a1 a2 a3 a4 s).lnt = s.lnt ∧ (parityAt a0 a1 a2 a3 a4 s).out = s.out ∧ (parityAt a0 a1 a2 a3 a4 s).freeCtr = s.freeCtr := by
  unfold parityAt
  try dsimp only
  first
    | (simp; done)
    | ((repeat' split) <;> simp; done)
    | (and_intros <;> (repeat' (first | (simp; done) | split)))

@[simp] theorem dropData_frame (a0 : ℕ) (s : State) :
    (dropData a0 s).pending = s.pending ∧ (dropData a0 s).regs = s.regs ∧ (dropData a0 s).latch = s.latch ∧ (dropData a0 s).mem = s.mem ∧ (dropData a0 s).sys = s.sys ∧ (dropData a0 s).clk = s.clk ∧ (dropData a0 s).thm = s.thm ∧ (dropData a0 s).tck = s.tck ∧ (dropData a0 s).hif = s.hif ∧ (dropData a0 s).stm = s.stm ∧ (dropData a0 s).map = s.map ∧ (dropData a0 s).mbr = s.mbr ∧ (dropData a0 s).flt = s.flt ∧ (dropData a0 s).sec = s.sec ∧ (dropData a0 s).cpx = s.cpx ∧ (dropData a0 s).memc = s.memc ∧ (dropData a0 s).mov = s.mov ∧ (dropData a0 s).cst = s.cst ∧ (dropData a0 s).lnt = s.lnt ∧ (dropData a0 s).out = s.out ∧ (dropData a0 s).freeCtr = s.freeCtr := by
  unfold dropData
  try dsimp only
  first
    | (simp; done)
    | ((repeat' split) <;> simp; done)
    | (and_intros <;> (repeat' (first | (simp; done) | split)))

@[simp] theorem parityStep_frame (a0 : ℕ) (a1 : ℕ) (s : State) :
    (parityStep a0 a1 s).pending = s.pending ∧ (parityStep a0 a1 s).regs = s.regs ∧ (parityStep a0 a1 s).latch = s.latch ∧ (parityStep a0 a1 s).mem = s.mem ∧ (parityStep a0 a1 s).sys = s.sys ∧ (parityStep a0 a1 s).clk = s.clk ∧ (parityStep a0 a1 s).thm = s.thm ∧ (parityStep a0 a1 s).hif = s.hif ∧ (parityStep a0 a1 s).stm = s.stm ∧ (parityStep a0 a1 s).map = s.map ∧ (parityStep a0 a1 s).flc = s.flc ∧ (parityStep a0 a1 s).mbr = s.mbr ∧ (parityStep a0 a1 s).flt = s.flt ∧ (parityStep a0 a1 s).sec = s.sec ∧ (parityStep a0 a1 s).cpx = s.cpx ∧ (parityStep a0 a1 s).memc = s.memc ∧ (parityStep a0 a1 s).mov = s.mov ∧ (parityStep a0 a1 s).cst = s.cst ∧ (parityStep a0 a1 s).lnt = s.lnt ∧ (parityStep a0 a1 s).out = s.out ∧ (parityStep a0 a1 s).freeCtr = s.freeCtr := by
  unfold parityStep
  try dsimp only
  first
    | (simp; done)
    | ((repeat' split) <;> simp; done)
    | (and_intros <;> (repeat' (first | (simp; done) | split)))

@[simp] theorem dropPage_frame (a0 : ℕ) (s : State) :
    (dropPage a0 s).pending = s.pending ∧ (dropPage a0 s).regs = s.regs ∧ (dropPage a0 s).latch = s.latch ∧ (dropPage a0 s).mem = s.mem ∧ (dropPage a0 s).sys = s.sys ∧ (dropPage a0 s).clk = s.clk ∧ (dropPage a0 s).thm = s.thm ∧ (dropPage a0 s).tck = s.tck ∧ (dropPage a0 s).hif = s.hif ∧ (dropPage a0 s).stm = s.stm ∧ (dropPage a0 s).map = s.map ∧ (dropPage a0 s).flc = s.flc ∧ (dropPage a0 s).mbr = s.mbr ∧ (dropPage a0 s).flt = s.flt ∧ (dropPage a0 s).sec = s.sec ∧ (dropPage a0 s).cpx = s.cpx ∧ (dropPage a0 s).memc = s.memc ∧ (dropPage a0 s).mov = s.mov ∧ (dropPage a0 s).cst = s.cst ∧ (dropPage a0 s).lnt = s.lnt ∧ (dropPage a0 s).out = s.out ∧ (dropPage a0 s).freeCtr = s.freeCtr := by
  unfold dropPage
  try dsimp only
  first
    | (simp; done)
    | ((repeat' split) <;> simp; done)
    | (and_intros <;> (repeat' (first | (simp; done) | split)))

theorem closeEarly_pending (a0 : ℕ) (s : State) : (closeEarly a0 s).pending = s.pending := by
  unfold closeEarly
  try dsimp only
  first
    | (simp; done)
    | ((repeat' split) <;> simp; done)
    | (repeat' (first | (simp; done) | split))

theorem closeEarly_latch (a0 : ℕ) (s : State) : (closeEarly a0 s).latch = s.latch := by
  unfold closeEarly
  try dsimp only
  first
    | (simp; done)
    | ((repeat' split) <;> simp; done)
    | (repeat' (first | (simp; done) | split))

theorem closeEarly_mem (a0 : ℕ) (s : State) : (closeEarly a0 s).mem = s.mem := by
  unfold closeEarly
  try dsimp only
  first
    | (simp; done)
    | ((repeat' split) <;> simp; done)
    | (repeat' (first | (simp; done) | split))

theorem closeEarly_clk (a0 : ℕ) (s : State) : (closeEarly a0 s).clk = s.clk := by
  unfold closeEarly
  try dsimp only
  first
    | (simp; done)
    | ((repeat' split) <;> simp; done)
    | (repeat' (first | (simp; done) | split))

theorem closeEarly_thm (a0 : ℕ) (s : State) : (closeEarly a0 s).thm = s.thm := by
  unfold closeEarly
  try dsimp only
  first
    | (simp; done)
    | ((repeat' split) <;> simp; done)
    | (repeat' (first | (simp; done) | split))

theorem closeEarly_hif (a0 : ℕ) (s : State) : (closeEarly a0 s).hif = s.hif := by
  unfold closeEarly
  try dsimp only
  first
    | (simp; done)
    | ((repeat' split) <;> simp; done)
    | (repeat' (first | (simp; done) | split))

theorem closeEarly_stm (a0 : ℕ) (s : State) : (closeEarly a0 s).stm = s.stm := by
  unfold closeEarly
  try dsimp only
  first
    | (simp; done)
    | ((repeat' split) <;> simp; done)
    | (repeat' (first | (simp; done) | split))

theorem closeEarly_flc (a0 : ℕ) (s : State) : (closeEarly a0 s).flc = s.flc := by
  unfold closeEarly
  try dsimp only
  first
    | (simp; done)
    | ((repeat' split) <;> simp; done)
    | (repeat' (first | (simp; done) | split))

theorem closeEarly_mbr (a0 : ℕ) (s : State) : (closeEarly a0 s).mbr = s.mbr := by
  unfold closeEarly
  try dsimp only
  first
    | (simp; done)
    | ((repeat' split) <;> simp; done)
    | (repeat' (first | (simp; done) | split))

theorem closeEarly_flt (a0 : ℕ) (s : State) : (closeEarly a0 s).flt = s.flt := by
  unfold closeEarly
  try dsimp only
  first
    | (simp; done)
    | ((repeat' split) <;> simp; done)
    | (repeat' (first | (simp; done) | split))

theorem closeEarly_sec (a0 : ℕ) (s : State) : (closeEarly a0 s).sec = s.sec := by
  unfold closeEarly
  try dsimp only
  first
    | (simp; done)
    | ((repeat' split) <;> simp; done)
    | (repeat' (first | (simp; done) | split))

theorem closeEarly_cpx (a0 : ℕ) (s : State) : (closeEarly a0 s).cpx = s.cpx := by
  unfold closeEarly
  try dsimp only
  first
    | (simp; done)
    | ((repeat' split) <;> simp; done)
    | (repeat' (first | (simp; done) | split))

theorem closeEarly_memc (a0 : ℕ) (s : State) : (closeEarly a0 s).memc = s.memc := by
  unfold closeEarly
  try dsimp only
  first
    | (simp; done)
    | ((repeat' split) <;> simp; done)
    | (repeat' (first | (simp; done) | split))

theorem closeEarly_mov (a0 : ℕ) (s : State) : (closeEarly a0 s).mov = s.mov := by
  unfold closeEarly
  try dsimp only
  first
    | (simp; done)
    | ((repeat' split) <;> simp; done)
    | (repeat' (first | (simp; done) | split))

theorem closeEarly_cst (a0 : ℕ) (s : State) : (closeEarly a0 s).cst = s.cst := by
  unfold closeEarly
  try dsimp only
  first
    | (simp; done)
    | ((repeat' split) <;> simp; done)
    | (repeat' (first | (simp; done) | split))

theorem closeEarly_out (a0 : ℕ) (s : State) : (closeEarly a0 s).out = s.out := by
  unfold closeEarly
  try dsimp only
  first
    | (simp; done)
    | ((repeat' split) <;> simp; done)
    | (repeat' (first | (simp; done) | split))

theorem closeEarly_freeCtr (a0 : ℕ) (s : State) : (closeEarly a0 s).freeCtr = s.freeCtr := by
  unfold closeEarly
  try dsimp only
  first
    | (simp; done)
    | ((repeat' split) <;> simp; done)
    | (repeat' (first | (simp; done) | split))

@[simp] theorem closeEarly_frame (a0 : ℕ) (s : State) :
    (closeEarly a0 s).pending = s.pending ∧ (closeEarly a0 s).latch = s.latch ∧ (closeEarly a0 s).mem = s.mem ∧ (closeEarly a0 s).clk = s.clk ∧ (closeEarly a0 s).thm = s.thm ∧ (closeEarly a0 s).hif = s.hif ∧ (closeEarly a0 s).stm = s.stm ∧ (closeEarly a0 s).flc = s.flc ∧ (closeEarly a0 s).mbr = s.mbr ∧ (closeEarly a0 s).flt = s.flt ∧ (closeEarly a0 s).sec = s.sec ∧ (closeEarly a0 s).cpx = s.cpx ∧ (closeEarly a0 s).memc = s.memc ∧ (closeEarly a0 s).mov = s.mov ∧ (closeEarly a0 s).cst = s.cst ∧ (closeEarly a0 s).out = s.out ∧ (closeEarly a0 s).freeCtr = s.freeCtr :=
  ⟨closeEarly_pending a0 s, closeEarly_latch a0 s, closeEarly_mem a0 s, closeEarly_clk a0 s, closeEarly_thm a0 s, closeEarly_hif a0 s, closeEarly_stm a0 s, closeEarly_flc a0 s, closeEarly_mbr a0 s, closeEarly_flt a0 s, closeEarly_sec a0 s, closeEarly_cpx a0 s, closeEarly_memc a0 s, closeEarly_mov a0 s, closeEarly_cst a0 s, closeEarly_out a0 s, closeEarly_freeCtr a0 s⟩

@[simp] theorem finishBand_frame (a0 : ℕ) (s : State) :
    (finishBand a0 s).pending = s.pending ∧ (finishBand a0 s).latch = s.latch ∧ (finishBand a0 s).mem = s.mem ∧ (finishBand a0 s).sys = s.sys ∧ (finishBand a0 s).clk = s.clk ∧ (finishBand a0 s).thm = s.thm ∧ (finishBand a0 s).tck = s.tck ∧ (finishBand a0 s).hif = s.hif ∧ (finishBand a0 s).stm = s.stm ∧ (finishBand a0 s).map = s.map ∧ (finishBand a0 s).mbr = s.mbr ∧ (finishBand a0 s).flt = s.flt ∧ (finishBand a0 s).sec = s.sec ∧ (finishBand a0 s).cpx = s.cpx ∧ (finishBand a0 s).memc = s.memc ∧ (finishBand a0 s).mov = s.mov ∧ (finishBand a0 s).cst = s.cst ∧ (finishBand a0 s).lnt = s.lnt ∧ (finishBand a0 s).out = s.out ∧ (finishBand a0 s).freeCtr = s.freeCtr := by
  unfold finishBand
  try dsimp only
  first
    | (simp; done)
    | ((repeat' split) <;> simp; done)
    | (and_intros <;> (repeat' (first | (simp; done) | split)))

theorem closeStep_pending (s : State) : (closeStep s).pending = s.pending := by
  unfold closeStep
  try dsimp only
  first
    | (simp; done)
    | ((repeat' split) <;> simp; done)
    | (repeat' (first | (simp; done) | split))

theorem closeStep_latch (s : State) : (closeStep s).latch = s.latch := by
  unfold closeStep
  try dsimp only
  first
    | (simp; done)
    | ((repeat' split) <;> simp; done)
    | (repeat' (first | (simp; done) | split))

theorem closeStep_mem (s : State) : (closeStep s).mem = s.mem := by
  unfold closeStep
  try dsimp only
  first
    | (simp; done)
    | ((repeat' split) <;> simp; done)
    | (repeat' (first | (simp; done) | split))

theorem closeStep_clk (s : State) : (closeStep s).clk = s.clk := by
  unfold closeStep
  try dsimp only
  first
    | (simp; done)
    | ((repeat' split) <;> simp; done)
    | (repeat' (first | (simp; done) | split))

theorem closeStep_thm (s : State) : (closeStep s).thm = s.thm := by
  unfold closeStep
  try dsimp only
  first
    | (simp; done)
    | ((repeat' split) <;> simp; done)
    | (repeat' (first | (simp; done) | split))

theorem closeStep_hif (s : State) : (closeStep s).hif = s.hif := by
  unfold closeStep
  try dsimp only
  first
    | (simp; done)
    | ((repeat' split) <;> simp; done)
    | (repeat' (first | (simp; done) | split))

theorem closeStep_stm (s : State) : (closeStep s).stm = s.stm := by
  unfold closeStep
  try dsimp only
  first
    | (simp; done)
    | ((repeat' split) <;> simp; done)
    | (repeat' (first | (simp; done) | split))

theorem closeStep_mbr (s : State) : (closeStep s).mbr = s.mbr := by
  unfold closeStep
  try dsimp only
  first
    | (simp; done)
    | ((repeat' split) <;> simp; done)
    | (repeat' (first | (simp; done) | split))

theorem closeStep_flt (s : State) : (closeStep s).flt = s.flt := by
  unfold closeStep
  try dsimp only
  first
    | (simp; done)
    | ((repeat' split) <;> simp; done)
    | (repeat' (first | (simp; done) | split))

theorem closeStep_sec (s : State) : (closeStep s).sec = s.sec := by
  unfold closeStep
  try dsimp only
  first
    | (simp; done)
    | ((repeat' split) <;> simp; done)
    | (repeat' (first | (simp; done) | split))

theorem closeStep_cpx (s : State) : (closeStep s).cpx = s.cpx := by
  unfold closeStep
  try dsimp only
  first
    | (simp; done)
    | ((repeat' split) <;> simp; done)
    | (repeat' (first | (simp; done) | split))

theorem closeStep_memc (s : State) : (closeStep s).memc = s.memc := by
  unfold closeStep
  try dsimp only
  first
    | (simp; done)
    | ((repeat' split) <;> simp; done)
    | (repeat' (first | (simp; done) | split))

theorem closeStep_mov (s : State) : (closeStep s).mov = s.mov := by
  unfold closeStep
  try dsimp only
  first
    | (simp; done)
    | ((repeat' split) <;> simp; done)
    | (repeat' (first | (simp; done) | split))

theorem closeStep_cst (s : State) : (closeStep s).cst = s.cst := by
  unfold closeStep
  try dsimp only
  first
    | (simp; done)
    | ((repeat' split) <;> simp; done)
    | (repeat' (first | (simp; done) | split))

theorem closeStep_out (s : State) : (closeStep s).out = s.out := by
  unfold closeStep
  try dsimp only
  first
    | (simp; done)
    | ((repeat' split) <;> simp; done)
    | (repeat' (first | (simp; done) | split))

theorem closeStep_freeCtr (s : State) : (closeStep s).freeCtr = s.freeCtr := by
  unfold closeStep
  try dsimp only
  first
    | (simp; done)
    | ((repeat' split) <;> simp; done)
    | (repeat' (first | (simp; done) | split))

@[simp] theorem closeStep_frame (s : State) :
    (closeStep s).pending = s.pending ∧ (closeStep s).latch = s.latch ∧ (closeStep s).mem = s.mem ∧ (closeStep s).clk = s.clk ∧ (closeStep s).thm = s.thm ∧ (closeStep s).hif = s.hif ∧ (closeStep s).stm = s.stm ∧ (closeStep s).mbr = s.mbr ∧ (closeStep s).flt = s.flt ∧ (closeStep s).sec = s.sec ∧ (closeStep s).cpx = s.cpx ∧ (closeStep s).memc = s.memc ∧ (closeStep s).mov = s.mov ∧ (closeStep s).cst = s.cst ∧ (closeStep s).out = s.out ∧ (closeStep s).freeCtr = s.freeCtr :=
  ⟨closeStep_pending s, closeStep_latch s, closeStep_mem s, closeStep_clk s, closeStep_thm s, closeStep_hif s, closeStep_stm s, closeStep_mbr s, closeStep_flt s, closeStep_sec s, closeStep_cpx s, closeStep_memc s, closeStep_mov s, closeStep_cst s, closeStep_out s, closeStep_freeCtr s⟩

theorem holdParity_pending (a0 : ℕ) (a1 : ℕ) (a2 : ℕ) (a3 : ℕ) (s : State) : (holdParity a0 a1 a2 a3 s).pending = s.pending := by
  unfold holdParity
  try dsimp only
  first
    | (simp; done)
    | ((repeat' split) <;> simp; done)
    | (repeat' (first | (simp; done) | split))

theorem holdParity_latch (a0 : ℕ) (a1 : ℕ) (a2 : ℕ) (a3 : ℕ) (s : State) : (holdParity a0 a1 a2 a3 s).latch = s.latch := by
  unfold holdParity
  try dsimp only
  first
    | (simp; done)
    | ((repeat' split) <;> simp; done)
    | (repeat' (first | (simp; done) | split))

theorem holdParity_mem (a0 : ℕ) (a1 : ℕ) (a2 : ℕ) (a3 : ℕ) (s : State) : (holdParity a0 a1 a2 a3 s).mem = s.mem := by
  unfold holdParity
  try dsimp only
  first
    | (simp; done)
    | ((repeat' split) <;> simp; done)
    | (repeat' (first | (simp; done) | split))

theorem holdParity_clk (a0 : ℕ) (a1 : ℕ) (a2 : ℕ) (a3 : ℕ) (s : State) : (holdParity a0 a1 a2 a3 s).clk = s.clk := by
  unfold holdParity
  try dsimp only
  first
    | (simp; done)
    | ((repeat' split) <;> simp; done)
    | (repeat' (first | (simp; done) | split))

theorem holdParity_thm (a0 : ℕ) (a1 : ℕ) (a2 : ℕ) (a3 : ℕ) (s : State) : (holdParity a0 a1 a2 a3 s).thm = s.thm := by
  unfold holdParity
  try dsimp only
  first
    | (simp; done)
    | ((repeat' split) <;> simp; done)
    | (repeat' (first | (simp; done) | split))

theorem holdParity_hif (a0 : ℕ) (a1 : ℕ) (a2 : ℕ) (a3 : ℕ) (s : State) : (holdParity a0 a1 a2 a3 s).hif = s.hif := by
  unfold holdParity
  try dsimp only
  first
    | (simp; done)
    | ((repeat' split) <;> simp; done)
    | (repeat' (first | (simp; done) | split))

theorem holdParity_stm (a0 : ℕ) (a1 : ℕ) (a2 : ℕ) (a3 : ℕ) (s : State) : (holdParity a0 a1 a2 a3 s).stm = s.stm := by
  unfold holdParity
  try dsimp only
  first
    | (simp; done)
    | ((repeat' split) <;> simp; done)
    | (repeat' (first | (simp; done) | split))

theorem holdParity_flc (a0 : ℕ) (a1 : ℕ) (a2 : ℕ) (a3 : ℕ) (s : State) : (holdParity a0 a1 a2 a3 s).flc = s.flc := by
  unfold holdParity
  try dsimp only
  first
    | (simp; done)
    | ((repeat' split) <;> simp; done)
    | (repeat' (first | (simp; done) | split))

theorem holdParity_flt (a0 : ℕ) (a1 : ℕ) (a2 : ℕ) (a3 : ℕ) (s : State) : (holdParity a0 a1 a2 a3 s).flt = s.flt := by
  unfold holdParity
  try dsimp only
  first
    | (simp; done)
    | ((repeat' split) <;> simp; done)
    | (repeat' (first | (simp; done) | split))

theorem holdParity_sec (a0 : ℕ) (a1 : ℕ) (a2 : ℕ) (a3 : ℕ) (s : State) : (holdParity a0 a1 a2 a3 s).sec = s.sec := by
  unfold holdParity
  try dsimp only
  first
    | (simp; done)
    | ((repeat' split) <;> simp; done)
    | (repeat' (first | (simp; done) | split))

theorem holdParity_cpx (a0 : ℕ) (a1 : ℕ) (a2 : ℕ) (a3 : ℕ) (s : State) : (holdParity a0 a1 a2 a3 s).cpx = s.cpx := by
  unfold holdParity
  try dsimp only
  first
    | (simp; done)
    | ((repeat' split) <;> simp; done)
    | (repeat' (first | (simp; done) | split))

theorem holdParity_memc (a0 : ℕ) (a1 : ℕ) (a2 : ℕ) (a3 : ℕ) (s : State) : (holdParity a0 a1 a2 a3 s).memc = s.memc := by
  unfold holdParity
  try dsimp only
  first
    | (simp; done)
    | ((repeat' split) <;> simp; done)
    | (repeat' (first | (simp; done) | split))

theorem holdParity_mov (a0 : ℕ) (a1 : ℕ) (a2 : ℕ) (a3 : ℕ) (s : State) : (holdParity a0 a1 a2 a3 s).mov = s.mov := by
  unfold holdParity
  try dsimp only
  first
    | (simp; done)
    | ((repeat' split) <;> simp; done)
    | (repeat' (first | (simp; done) | split))

theorem holdParity_cst (a0 : ℕ) (a1 : ℕ) (a2 : ℕ) (a3 : ℕ) (s : State) : (holdParity a0 a1 a2 a3 s).cst = s.cst := by
  unfold holdParity
  try dsimp only
  first
    | (simp; done)
    | ((repeat' split) <;> simp; done)
    | (repeat' (first | (simp; done) | split))

theorem holdParity_out (a0 : ℕ) (a1 : ℕ) (a2 : ℕ) (a3 : ℕ) (s : State) : (holdParity a0 a1 a2 a3 s).out = s.out := by
  unfold holdParity
  try dsimp only
  first
    | (simp; done)
    | ((repeat' split) <;> simp; done)
    | (repeat' (first | (simp; done) | split))

theorem holdParity_freeCtr (a0 : ℕ) (a1 : ℕ) (a2 : ℕ) (a3 : ℕ) (s : State) : (holdParity a0 a1 a2 a3 s).freeCtr = s.freeCtr := by
  unfold holdParity
  try dsimp only
  first
    | (simp; done)
    | ((repeat' split) <;> simp; done)
    | (repeat' (first | (simp; done) | split))

@[simp] theorem holdParity_frame (a0 : ℕ) (a1 : ℕ) (a2 : ℕ) (a3 : ℕ) (s : State) :
    (holdParity a0 a1 a2 a3 s).pending = s.pending ∧ (holdParity a0 a1 a2 a3 s).latch = s.latch ∧ (holdParity a0 a1 a2 a3 s).mem = s.mem ∧ (holdParity a0 a1 a2 a3 s).clk = s.clk ∧ (holdParity a0 a1 a2 a3 s).thm = s.thm ∧ (holdParity a0 a1 a2 a3 s).hif = s.hif ∧ (holdParity a0 a1 a2 a3 s).stm = s.stm ∧ (holdParity a0 a1 a2 a3 s).flc = s.flc ∧ (holdParity a0 a1 a2 a3 s).flt = s.flt ∧ (holdParity a0 a1 a2 a3 s).sec = s.sec ∧ (holdParity a0 a1 a2 a3 s).cpx = s.cpx ∧ (holdParity a0 a1 a2 a3 s).memc = s.memc ∧ (holdParity a0 a1 a2 a3 s).mov = s.mov ∧ (holdParity a0 a1 a2 a3 s).cst = s.cst ∧ (holdParity a0 a1 a2 a3 s).out = s.out ∧ (holdParity a0 a1 a2 a3 s).freeCtr = s.freeCtr :=
  ⟨holdParity_pending a0 a1 a2 a3 s, holdParity_latch a0 a1 a2 a3 s, holdParity_mem a0 a1 a2 a3 s, holdParity_clk a0 a1 a2 a3 s, holdParity_thm a0 a1 a2 a3 s, holdParity_hif a0 a1 a2 a3 s, holdParity_stm a0 a1 a2 a3 s, holdParity_flc a0 a1 a2 a3 s, holdParity_flt a0 a1 a2 a3 s, holdParity_sec a0 a1 a2 a3 s, holdParity_cpx a0 a1 a2 a3 s, holdParity_memc a0 a1 a2 a3 s, holdParity_mov a0 a1 a2 a3 s, holdParity_cst a0 a1 a2 a3 s, holdParity_out a0 a1 a2 a3 s, holdParity_freeCtr a0 a1 a2 a3 s⟩

theorem bandFail_pending (a0 : ℕ) (a1 : ℕ) (a2 : ℕ) (s : State) : (bandFail a0 a1 a2 s).pending = s.pending := by
  unfold bandFail
  try dsimp only
  first
    | (simp; done)
    | ((repeat' split) <;> simp; done)
    | (repeat' (first | (simp; done) | split))

theorem bandFail_latch (a0 : ℕ) (a1 : ℕ) (a2 : ℕ) (s : State) : (bandFail a0 a1 a2 s).latch = s.latch := by
  unfold bandFail
  try dsimp only
  first
    | (simp; done)
    | ((repeat' split) <;> simp; done)
    | (repeat' (first | (simp; done) | split))

theorem bandFail_mem (a0 : ℕ) (a1 : ℕ) (a2 : ℕ) (s : State) : (bandFail a0 a1 a2 s).mem = s.mem := by
  unfold bandFail
  try dsimp only
  first
    | (simp; done)
    | ((repeat' split) <;> simp; done)
    | (repeat' (first | (simp; done) | split))

theorem bandFail_clk (a0 : ℕ) (a1 : ℕ) (a2 : ℕ) (s : State) : (bandFail a0 a1 a2 s).clk = s.clk := by
  unfold bandFail
  try dsimp only
  first
    | (simp; done)
    | ((repeat' split) <;> simp; done)
    | (repeat' (first | (simp; done) | split))

theorem bandFail_thm (a0 : ℕ) (a1 : ℕ) (a2 : ℕ) (s : State) : (bandFail a0 a1 a2 s).thm = s.thm := by
  unfold bandFail
  try dsimp only
  first
    | (simp; done)
    | ((repeat' split) <;> simp; done)
    | (repeat' (first | (simp; done) | split))

theorem bandFail_hif (a0 : ℕ) (a1 : ℕ) (a2 : ℕ) (s : State) : (bandFail a0 a1 a2 s).hif = s.hif := by
  unfold bandFail
  try dsimp only
  first
    | (simp; done)
    | ((repeat' split) <;> simp; done)
    | (repeat' (first | (simp; done) | split))

theorem bandFail_stm (a0 : ℕ) (a1 : ℕ) (a2 : ℕ) (s : State) : (bandFail a0 a1 a2 s).stm = s.stm := by
  unfold bandFail
  try dsimp only
  first
    | (simp; done)
    | ((repeat' split) <;> simp; done)
    | (repeat' (first | (simp; done) | split))

theorem bandFail_flt (a0 : ℕ) (a1 : ℕ) (a2 : ℕ) (s : State) : (bandFail a0 a1 a2 s).flt = s.flt := by
  unfold bandFail
  try dsimp only
  first
    | (simp; done)
    | ((repeat' split) <;> simp; done)
    | (repeat' (first | (simp; done) | split))

theorem bandFail_sec (a0 : ℕ) (a1 : ℕ) (a2 : ℕ) (s : State) : (bandFail a0 a1 a2 s).sec = s.sec := by
  unfold bandFail
  try dsimp only
  first
    | (simp; done)
    | ((repeat' split) <;> simp; done)
    | (repeat' (first | (simp; done) | split))

theorem bandFail_cpx (a0 : ℕ) (a1 : ℕ) (a2 : ℕ) (s : State) : (bandFail a0 a1 a2 s).cpx = s.cpx := by
  unfold bandFail
  try dsimp only
  first
    | (simp; done)
    | ((repeat' split) <;> simp; done)
    | (repeat' (first | (simp; done) | split))

theorem bandFail_memc (a0 : ℕ) (a1 : ℕ) (a2 : ℕ) (s : State) : (bandFail a0 a1 a2 s).memc = s.memc := by
  unfold bandFail
  try dsimp only
  first
    | (simp; done)
    | ((repeat' split) <;> simp; done)
    | (repeat' (first | (simp; done) | split))

theorem bandFail_mov (a0 : ℕ) (a1 : ℕ) (a2 : ℕ) (s : State) : (bandFail a0 a1 a2 s).mov = s.mov := by
  unfold bandFail
  try dsimp only
  first
    | (simp; done)
    | ((repeat' split) <;> simp; done)
    | (repeat' (first | (simp; done) | split))

theorem bandFail_cst (a0 : ℕ) (a1 : ℕ) (a2 : ℕ) (s : State) : (bandFail a0 a1 a2 s).cst = s.cst := by
  unfold bandFail
  try dsimp only
  first
    | (simp; done)
    | ((repeat' split) <;> simp; done)
    | (repeat' (first | (simp; done) | split))

theorem bandFail_out (a0 : ℕ) (a1 : ℕ) (a2 : ℕ) (s : State) : (bandFail a0 a1 a2 s).out = s.out := by
  unfold bandFail
  try dsimp only
  first
    | (simp; done)
    | ((repeat' split) <;> simp; done)
    | (repeat' (first | (simp; done) | split))

theorem bandFail_freeCtr (a0 : ℕ) (a1 : ℕ) (a2 : ℕ) (s : State) : (bandFail a0 a1 a2 s).freeCtr = s.freeCtr := by
  unfold bandFail
  try dsimp only
  first
    | (simp; done)
    | ((repeat' split) <;> simp; done)
    | (repeat' (first | (simp; done) | split))

@[simp] theorem bandFail_frame (a0 : ℕ) (a1 : ℕ) (a2 : ℕ) (s : State) :
    (bandFail a0 a1 a2 s).pending = s.pending ∧ (bandFail a0 a1 a2 s).latch = s.latch ∧ (bandFail a0 a1 a2 s).mem = s.mem ∧ (bandFail a0 a1 a2 s).clk = s.clk ∧ (bandFail a0 a1 a2 s).thm = s.thm ∧ (bandFail a0 a1 a2 s).hif = s.hif ∧ (bandFail a0 a1 a2 s).stm = s.stm ∧ (bandFail a0 a1 a2 s).flt = s.flt ∧ (bandFail a0 a1 a2 s).sec = s.sec ∧ (bandFail a0 a1 a2 s).cpx = s.cpx ∧ (bandFail a0 a1 a2 s).memc = s.memc ∧ (bandFail a0 a1 a2 s).mov = s.mov ∧ (bandFail a0 a1 a2 s).cst = s.cst ∧ (bandFail a0 a1 a2 s).out = s.out ∧ (bandFail a0 a1 a2 s).freeCtr = s.freeCtr :=
  ⟨bandFail_pending a0 a1 a2 s, bandFail_latch a0 a1 a2 s, bandFail_mem a0 a1 a2 s, bandFail_clk a0 a1 a2 s, bandFail_thm a0 a1 a2 s, bandFail_hif a0 a1 a2 s, bandFail_stm a0 a1 a2 s, bandFail_flt a0 a1 a2 s, bandFail_sec a0 a1 a2 s, bandFail_cpx a0 a1 a2 s, bandFail_memc a0 a1 a2 s, bandFail_mov a0 a1 a2 s, bandFail_cst a0 a1 a2 s, bandFail_out a0 a1 a2 s, bandFail_freeCtr a0 a1 a2 s⟩

theorem bandsLose_pending (a0 : ℕ) (s : State) : (bandsLose a0 s).pending = s.pending := by
  unfold bandsLose
  try dsimp only
  first
    | (simp; done)
    | ((repeat' split) <;> simp; done)
    | (repeat' (first | (simp; done) | split))

theorem bandsLose_latch (a0 : ℕ) (s : State) : (bandsLose a0 s).latch = s.latch := by
  unfold bandsLose
  try dsimp only
  first
    | (simp; done)
    | ((repeat' split) <;> simp; done)
    | (repeat' (first | (simp; done) | split))

theorem bandsLose_mem (a0 : ℕ) (s : State) : (bandsLose a0 s).mem = s.mem := by
  unfold bandsLose
  try dsimp only
  first
    | (simp; done)
    | ((repeat' split) <;> simp; done)
    | (repeat' (first | (simp; done) | split))

theorem bandsLose_clk (a0 : ℕ) (s : State) : (bandsLose a0 s).clk = s.clk := by
  unfold bandsLose
  try dsimp only
  first
    | (simp; done)
    | ((repeat' split) <;> simp; done)
    | (repeat' (first | (simp; done) | split))

theorem bandsLose_thm (a0 : ℕ) (s : State) : (bandsLose a0 s).thm = s.thm := by
  unfold bandsLose
  try dsimp only
  first
    | (simp; done)
    | ((repeat' split) <;> simp; done)
    | (repeat' (first | (simp; done) | split))

theorem bandsLose_hif (a0 : ℕ) (s : State) : (bandsLose a0 s).hif = s.hif := by
  unfold bandsLose
  try dsimp only
  first
    | (simp; done)
    | ((repeat' split) <;> simp; done)
    | (repeat' (first | (simp; done) | split))

theorem bandsLose_stm (a0 : ℕ) (s : State) : (bandsLose a0 s).stm = s.stm := by
  unfold bandsLose
  try dsimp only
  first
    | (simp; done)
    | ((repeat' split) <;> simp; done)
    | (repeat' (first | (simp; done) | split))

theorem bandsLose_flc (a0 : ℕ) (s : State) : (bandsLose a0 s).flc = s.flc := by
  unfold bandsLose
  try dsimp only
  first
    | (simp; done)
    | ((repeat' split) <;> simp; done)
    | (repeat' (first | (simp; done) | split))

theorem bandsLose_mbr (a0 : ℕ) (s : State) : (bandsLose a0 s).mbr = s.mbr := by
  unfold bandsLose
  try dsimp only
  first
    | (simp; done)
    | ((repeat' split) <;> simp; done)
    | (repeat' (first | (simp; done) | split))

theorem bandsLose_flt (a0 : ℕ) (s : State) : (bandsLose a0 s).flt = s.flt := by
  unfold bandsLose
  try dsimp only
  first
    | (simp; done)
    | ((repeat' split) <;> simp; done)
    | (repeat' (first | (simp; done) | split))

theorem bandsLose_sec (a0 : ℕ) (s : State) : (bandsLose a0 s).sec = s.sec := by
  unfold bandsLose
  try dsimp only
  first
    | (simp; done)
    | ((repeat' split) <;> simp; done)
    | (repeat' (first | (simp; done) | split))

theorem bandsLose_cpx (a0 : ℕ) (s : State) : (bandsLose a0 s).cpx = s.cpx := by
  unfold bandsLose
  try dsimp only
  first
    | (simp; done)
    | ((repeat' split) <;> simp; done)
    | (repeat' (first | (simp; done) | split))

theorem bandsLose_memc (a0 : ℕ) (s : State) : (bandsLose a0 s).memc = s.memc := by
  unfold bandsLose
  try dsimp only
  first
    | (simp; done)
    | ((repeat' split) <;> simp; done)
    | (repeat' (first | (simp; done) | split))

theorem bandsLose_mov (a0 : ℕ) (s : State) : (bandsLose a0 s).mov = s.mov := by
  unfold bandsLose
  try dsimp only
  first
    | (simp; done)
    | ((repeat' split) <;> simp; done)
    | (repeat' (first | (simp; done) | split))

theorem bandsLose_cst (a0 : ℕ) (s : State) : (bandsLose a0 s).cst = s.cst := by
  unfold bandsLose
  try dsimp only
  first
    | (simp; done)
    | ((repeat' split) <;> simp; done)
    | (repeat' (first | (simp; done) | split))

theorem bandsLose_out (a0 : ℕ) (s : State) : (bandsLose a0 s).out = s.out := by
  unfold bandsLose
  try dsimp only
  first
    | (simp; done)
    | ((repeat' split) <;> simp; done)
    | (repeat' (first | (simp; done) | split))

theorem bandsLose_freeCtr (a0 : ℕ) (s : State) : (bandsLose a0 s).freeCtr = s.freeCtr := by
  unfold bandsLose
  try dsimp only
  first
    | (simp; done)
    | ((repeat' split) <;> simp; done)
    | (repeat' (first | (simp; done) | split))

@[simp] theorem bandsLose_frame (a0 : ℕ) (s : State) :
    (bandsLose a0 s).pending = s.pending ∧ (bandsLose a0 s).latch = s.latch ∧ (bandsLose a0 s).mem = s.mem ∧ (bandsLose a0 s).clk = s.clk ∧ (bandsLose a0 s).thm = s.thm ∧ (bandsLose a0 s).hif = s.hif ∧ (bandsLose a0 s).stm = s.stm ∧ (bandsLose a0 s).flc = s.flc ∧ (bandsLose a0 s).mbr = s.mbr ∧ (bandsLose a0 s).flt = s.flt ∧ (bandsLose a0 s).sec = s.sec ∧ (bandsLose a0 s).cpx = s.cpx ∧ (bandsLose a0 s).memc = s.memc ∧ (bandsLose a0 s).mov = s.mov ∧ (bandsLose a0 s).cst = s.cst ∧ (bandsLose a0 s).out = s.out ∧ (bandsLose a0 s).freeCtr = s.freeCtr :=
  ⟨bandsLose_pending a0 s, bandsLose_latch a0 s, bandsLose_mem a0 s, bandsLose_clk a0 s, bandsLose_thm a0 s, bandsLose_hif a0 s, bandsLose_stm a0 s, bandsLose_flc a0 s, bandsLose_mbr a0 s, bandsLose_flt a0 s, bandsLose_sec a0 s, bandsLose_cpx a0 s, bandsLose_memc a0 s, bandsLose_mov a0 s, bandsLose_cst a0 s, bandsLose_out a0 s, bandsLose_freeCtr a0 s⟩

@[simp] theorem runPages_frame (a0 : ℕ) (a1 : ℕ) (a2 : ℕ) (s : State) :
    (runPages a0 a1 a2 s).pending = s.pending ∧ (runPages a0 a1 a2 s).regs = s.regs ∧ (runPages a0 a1 a2 s).latch = s.latch ∧ (runPages a0 a1 a2 s).mem = s.mem ∧ (runPages a0 a1 a2 s).sys = s.sys ∧ (runPages a0 a1 a2 s).clk = s.clk ∧ (runPages a0 a1 a2 s).thm = s.thm ∧ (runPages a0 a1 a2 s).hif = s.hif ∧ (runPages a0 a1 a2 s).stm = s.stm ∧ (runPages a0 a1 a2 s).flc = s.flc ∧ (runPages a0 a1 a2 s).mbr = s.mbr ∧ (runPages a0 a1 a2 s).flt = s.flt ∧ (runPages a0 a1 a2 s).sec = s.sec ∧ (runPages a0 a1 a2 s).cpx = s.cpx ∧ (runPages a0 a1 a2 s).memc = s.memc ∧ (runPages a0 a1 a2 s).mov = s.mov ∧ (runPages a0 a1 a2 s).cst = s.cst ∧ (runPages a0 a1 a2 s).lnt = s.lnt ∧ (runPages a0 a1 a2 s).out = s.out ∧ (runPages a0 a1 a2 s).freeCtr = s.freeCtr := by
  induction a2 generalizing s with
  | zero => simp [runPages]
  | succ fuel ih =>
  unfold runPages
  try dsimp only
  and_intros
  · repeat' (first | (simp; done) | (simp [*]; done) | (have h := appendRec_frame (by assumption); simp [h, *]; done) | (have h := takeSlot_frame (by assumption); simp [h, *]; done) | (have h := placePage_frame (by assumption); simp [h, *]; done) | split | (refine (forAll_pending _ _ _ (fun x s => ?_)).trans ?_; try dsimp only) | (refine adminCmd_pending _ _ _ _ ?_; try dsimp only) | simp)
  · repeat' (first | (simp; done) | (simp [*]; done) | (have h := appendRec_frame (by assumption); simp [h, *]; done) | (have h := takeSlot_frame (by assumption); simp [h, *]; done) | (have h := placePage_frame (by assumption); simp [h, *]; done) | split | (refine (forAll_regs _ _ _ (fun x s => ?_)).trans ?_; try dsimp only) | (refine adminCmd_regs _ _ _ _ ?_; try dsimp only) | simp)
  · repeat' (first | (simp; done) | (simp [*]; done) | (have h := appendRec_frame (by assumption); simp [h, *]; done) | (have h := takeSlot_frame (by assumption); simp [h, *]; done) | (have h := placePage_frame (by assumption); simp [h, *]; done) | split | (refine (forAll_latch _ _ _ (fun x s => ?_)).trans ?_; try dsimp only) | (refine adminCmd_latch _ _ _ _ ?_; try dsimp only) | simp)
  · repeat' (first | (simp; done) | (simp [*]; done) | (have h := appendRec_frame (by assumption); simp [h, *]; done) | (have h := takeSlot_frame (by assumption); simp [h, *]; done) | (have h := placePage_frame (by assumption); simp [h, *]; done) | split | (refine (forAll_mem _ _ _ (fun x s => ?_)).trans ?_; try dsimp only) | (refine adminCmd_mem _ _ _ _ ?_; try dsimp only) | simp)
  · repeat' (first | (simp; done) | (simp [*]; done) | (have h := appendRec_frame (by assumption); simp [h, *]; done) | (have h := takeSlot_frame (by assumption); simp [h, *]; done) | (have h := placePage_frame (by assumption); simp [h, *]; done) | split | (refine (forAll_sys _ _ _ (fun x s => ?_)).trans ?_; try dsimp only) | (refine adminCmd_sys _ _ _ _ ?_; try dsimp only) | simp)
  · repeat' (first | (simp; done) | (simp [*]; done) | (have h := appendRec_frame (by assumption); simp [h, *]; done) | (have h := takeSlot_frame (by assumption); simp [h, *]; done) | (have h := placePage_frame (by assumption); simp [h, *]; done) | split | (refine (forAll_clk _ _ _ (fun x s => ?_)).trans ?_; try dsimp only) | (refine adminCmd_clk _ _ _ _ ?_; try dsimp only) | simp)
  · repeat' (first | (simp; done) | (simp [*]; done) | (have h := appendRec_frame (by assumption); simp [h, *]; done) | (have h := takeSlot_frame (by assumption); simp [h, *]; done) | (have h := placePage_frame (by assumption); simp [h, *]; done) | split | (refine (forAll_thm _ _ _ (fun x s => ?_)).trans ?_; try dsimp only) | (refine adminCmd_thm _ _ _ _ ?_; try dsimp only) | simp)
  · repeat' (first | (simp; done) | (simp [*]; done) | (have h := appendRec_frame (by assumption); simp [h, *]; done) | (have h := takeSlot_frame (by assumption); simp [h, *]; done) | (have h := placePage_frame (by assumption); simp [h, *]; done) | split | (refine (forAll_hif _ _ _ (fun x s => ?_)).trans ?_; try dsimp only) | simp)
  · repeat' (first | (simp; done) | (simp [*]; done) | (have h := appendRec_frame (by assumption); simp [h, *]; done) | (have h := takeSlot_frame (by assumption); simp [h, *]; done) | (have h := placePage_frame (by assumption); simp [h, *]; done) | split | (refine (forAll_stm _ _ _ (fun x s => ?_)).trans ?_; try dsimp only) | (refine adminCmd_stm _ _ _ _ ?_; try dsimp only) | simp)
  · repeat' (first | (simp; done) | (simp [*]; done) | (have h := appendRec_frame (by assumption); simp [h, *]; done) | (have h := takeSlot_frame (by assumption); simp [h, *]; done) | (have h := placePage_frame (by assumption); simp [h, *]; done) | split | (refine (forAll_flc _ _ _ (fun x s => ?_)).trans ?_; try dsimp only) | (refine adminCmd_flc _ _ _ _ ?_; try dsimp only) | simp)
  · repeat' (first | (simp; done) | (simp [*]; done) | (have h := appendRec_frame (by assumption); simp [h, *]; done) | (have h := takeSlot_frame (by assumption); simp [h, *]; done) | (have h := placePage_frame (by assumption); simp [h, *]; done) | split | (refine (forAll_mbr _ _ _ (fun x s => ?_)).trans ?_; try dsimp only) | (refine adminCmd_mbr _ _ _ _ ?_; try dsimp only) | simp)
  · repeat' (first | (simp; done) | (simp [*]; done) | (have h := appendRec_frame (by assumption); simp [h, *]; done) | (have h := takeSlot_frame (by assumption); simp [h, *]; done) | (have h := placePage_frame (by assumption); simp [h, *]; done) | split | (refine (forAll_flt _ _ _ (fun x s => ?_)).trans ?_; try dsimp only) | (refine adminCmd_flt _ _ _ _ ?_; try dsimp only) | simp)
  · repeat' (first | (simp; done) | (simp [*]; done) | (have h := appendRec_frame (by assumption); simp [h, *]; done) | (have h := takeSlot_frame (by assumption); simp [h, *]; done) | (have h := placePage_frame (by assumption); simp [h, *]; done) | split | (refine (forAll_sec _ _ _ (fun x s => ?_)).trans ?_; try dsimp only) | (refine adminCmd_sec _ _ _ _ ?_; try dsimp only) | simp)
  · repeat' (first | (simp; done) | (simp [*]; done) | (have h := appendRec_frame (by assumption); simp [h, *]; done) | (have h := takeSlot_frame (by assumption); simp [h, *]; done) | (have h := placePage_frame (by assumption); simp [h, *]; done) | split | (refine (forAll_cpx _ _ _ (fun x s => ?_)).trans ?_; try dsimp only) | (refine adminCmd_cpx _ _ _ _ ?_; try dsimp only) | simp)
  · repeat' (first | (simp; done) | (simp [*]; done) | (have h := appendRec_frame (by assumption); simp [h, *]; done) | (have h := takeSlot_frame (by assumption); simp [h, *]; done) | (have h := placePage_frame (by assumption); simp [h, *]; done) | split | (refine (forAll_memc _ _ _ (fun x s => ?_)).trans ?_; try dsimp only) | (refine adminCmd_memc _ _ _ _ ?_; try dsimp only) | simp)
  · repeat' (first | (simp; done) | (simp [*]; done) | (have h := appendRec_frame (by assumption); simp [h, *]; done) | (have h := takeSlot_frame (by assumption); simp [h, *]; done) | (have h := placePage_frame (by assumption); simp [h, *]; done) | split | (refine (forAll_mov _ _ _ (fun x s => ?_)).trans ?_; try dsimp only) | (refine adminCmd_mov _ _ _ _ ?_; try dsimp only) | simp)
  · repeat' (first | (simp; done) | (simp [*]; done) | (have h := appendRec_frame (by assumption); simp [h, *]; done) | (have h := takeSlot_frame (by assumption); simp [h, *]; done) | (have h := placePage_frame (by assumption); simp [h, *]; done) | split | (refine (forAll_cst _ _ _ (fun x s => ?_)).trans ?_; try dsimp only) | (refine adminCmd_cst _ _ _ _ ?_; try dsimp only) | simp)
  · repeat' (first | (simp; done) | (simp [*]; done) | (have h := appendRec_frame (by assumption); simp [h, *]; done) | (have h := takeSlot_frame (by assumption); simp [h, *]; done) | (have h := placePage_frame (by assumption); simp [h, *]; done) | split | (refine (forAll_lnt _ _ _ (fun x s => ?_)).trans ?_; try dsimp only) | simp)
  · repeat' (first | (simp; done) | (simp [*]; done) | (have h := appendRec_frame (by assumption); simp [h, *]; done) | (have h := takeSlot_frame (by assumption); simp [h, *]; done) | (have h := placePage_frame (by assumption); simp [h, *]; done) | split | (refine (forAll_out _ _ _ (fun x s => ?_)).trans ?_; try dsimp only) | simp)
  · repeat' (first | (simp; done) | (simp [*]; done) | (have h := appendRec_frame (by assumption); simp [h, *]; done) | (have h := takeSlot_frame (by assumption); simp [h, *]; done) | (have h := placePage_frame (by assumption); simp [h, *]; done) | split | (refine (forAll_freeCtr _ _ _ (fun x s => ?_)).trans ?_; try dsimp only) | (refine adminCmd_freeCtr _ _ _ _ ?_; try dsimp only) | simp)

@[simp] theorem runAppend_frame (a0 : ℕ) (a1 : ℕ) (a2 : ℕ) (a3 : ℕ) (a4 : ℕ) (s : State) :
    (runAppend a0 a1 a2 a3 a4 s).pending = s.pending ∧ (runAppend a0 a1 a2 a3 a4 s).regs = s.regs ∧ (runAppend a0 a1 a2 a3 a4 s).latch = s.latch ∧ (runAppend a0 a1 a2 a3 a4 s).mem = s.mem ∧ (runAppend a0 a1 a2 a3 a4 s).sys = s.sys ∧ (runAppend a0 a1 a2 a3 a4 s).clk = s.clk ∧ (runAppend a0 a1 a2 a3 a4 s).thm = s.thm ∧ (runAppend a0 a1 a2 a3 a4 s).hif = s.hif ∧ (runAppend a0 a1 a2 a3 a4 s).stm = s.stm ∧ (runAppend a0 a1 a2 a3 a4 s).flc = s.flc ∧ (runAppend a0 a1 a2 a3 a4 s).mbr = s.mbr ∧ (runAppend a0 a1 a2 a3 a4 s).flt = s.flt ∧ (runAppend a0 a1 a2 a3 a4 s).sec = s.sec ∧ (runAppend a0 a1 a2 a3 a4 s).cpx = s.cpx ∧ (runAppend a0 a1 a2 a3 a4 s).memc = s.memc ∧ (runAppend a0 a1 a2 a3 a4 s).mov = s.mov ∧ (runAppend a0 a1 a2 a3 a4 s).cst = s.cst ∧ (runAppend a0 a1 a2 a3 a4 s).lnt = s.lnt ∧ (runAppend a0 a1 a2 a3 a4 s).out = s.out ∧ (runAppend a0 a1 a2 a3 a4 s).freeCtr = s.freeCtr := by
  unfold runAppend
  try dsimp only
  first
    | (simp; done)
    | ((repeat' split) <;> simp; done)
    | (and_intros <;> (repeat' (first | (simp; done) | split)))

theorem placePart_x0 {id : Nat} {sl : Slot} {s t : State} {k : Nat} (h : placePart id sl s = some (k, t)) : t.pending = s.pending := by
  unfold placePart at h
  simp only at h
  have go : ∀ {kind : Nat} {be : Bool} {p : Page} {f : Nat} {u : State}, (placePage kind be p u).map (fun s => (f, s)) = some (k, t) →
      t.pending = u.pending ∧ t.regs = u.regs ∧ t.latch = u.latch ∧ t.mem = u.mem ∧ t.sys = u.sys ∧ t.clk = u.clk ∧ t.thm = u.thm ∧ t.hif = u.hif ∧ t.stm = u.stm ∧ t.flc = u.flc ∧ t.mbr = u.mbr ∧ t.flt = u.flt ∧ t.sec = u.sec ∧ t.cpx = u.cpx ∧ t.memc = u.memc ∧ t.mov = u.mov ∧ t.cst = u.cst ∧ t.lnt = u.lnt ∧ t.out = u.out ∧ t.freeCtr = u.freeCtr := by
    intro kind be p f u hh
    cases hp : placePage kind be p u with
    | none => simp [hp] at hh
    | some w => simp [hp] at hh; obtain ⟨_, rfl⟩ := hh; have := placePage_frame hp; simp [this]
  (repeat' split at h) <;> first
    | (simp at h; done)
    | (have := go h; simp [this]; done)
    | (simp at h; obtain ⟨_, rfl⟩ := h; simp; done)

theorem placePart_x1 {id : Nat} {sl : Slot} {s t : State} {k : Nat} (h : placePart id sl s = some (k, t)) : t.regs = s.regs := by
  unfold placePart at h
  simp only at h
  have go : ∀ {kind : Nat} {be : Bool} {p : Page} {f : Nat} {u : State}, (placePage kind be p u).map (fun s => (f, s)) = some (k, t) →
      t.pending = u.pending ∧ t.regs = u.regs ∧ t.latch = u.latch ∧ t.mem = u.mem ∧ t.sys = u.sys ∧ t.clk = u.clk ∧ t.thm = u.thm ∧ t.hif = u.hif ∧ t.stm = u.stm ∧ t.flc = u.flc ∧ t.mbr = u.mbr ∧ t.flt = u.flt ∧ t.sec = u.sec ∧ t.cpx = u.cpx ∧ t.memc = u.memc ∧ t.mov = u.mov ∧ t.cst = u.cst ∧ t.lnt = u.lnt ∧ t.out = u.out ∧ t.freeCtr = u.freeCtr := by
    intro kind be p f u hh
    cases hp : placePage kind be p u with
    | none => simp [hp] at hh
    | some w => simp [hp] at hh; obtain ⟨_, rfl⟩ := hh; have := placePage_frame hp; simp [this]
  (repeat' split at h) <;> first
    | (simp at h; done)
    | (have := go h; simp [this]; done)
    | (simp at h; obtain ⟨_, rfl⟩ := h; simp; done)

theorem placePart_x2 {id : Nat} {sl : Slot} {s t : State} {k : Nat} (h : placePart id sl s = some (k, t)) : t.latch = s.latch := by
  unfold placePart at h
  simp only at h
  have go : ∀ {kind : Nat} {be : Bool} {p : Page} {f : Nat} {u : State}, (placePage kind be p u).map (fun s => (f, s)) = some (k, t) →
      t.pending = u.pending ∧ t.regs = u.regs ∧ t.latch = u.latch ∧ t.mem = u.mem ∧ t.sys = u.sys ∧ t.clk = u.clk ∧ t.thm = u.thm ∧ t.hif = u.hif ∧ t.stm = u.stm ∧ t.flc = u.flc ∧ t.mbr = u.mbr ∧ t.flt = u.flt ∧ t.sec = u.sec ∧ t.cpx = u.cpx ∧ t.memc = u.memc ∧ t.mov = u.mov ∧ t.cst = u.cst ∧ t.lnt = u.lnt ∧ t.out = u.out ∧ t.freeCtr = u.freeCtr := by
    intro kind be p f u hh
    cases hp : placePage kind be p u with
    | none => simp [hp] at hh
    | some w => simp [hp] at hh; obtain ⟨_, rfl⟩ := hh; have := placePage_frame hp; simp [this]
  (repeat' split at h) <;> first
    | (simp at h; done)
    | (have := go h; simp [this]; done)
    | (simp at h; obtain ⟨_, rfl⟩ := h; simp; done)

theorem placePart_x3 {id : Nat} {sl : Slot} {s t : State} {k : Nat} (h : placePart id sl s = some (k, t)) : t.mem = s.mem := by
  unfold placePart at h
  simp only at h
  have go : ∀ {kind : Nat} {be : Bool} {p : Page} {f : Nat} {u : State}, (placePage kind be p u).map (fun s => (f, s)) = some (k, t) →
      t.pending = u.pending ∧ t.regs = u.regs ∧ t.latch = u.latch ∧ t.mem = u.mem ∧ t.sys = u.sys ∧ t.clk = u.clk ∧ t.thm = u.thm ∧ t.hif = u.hif ∧ t.stm = u.stm ∧ t.flc = u.flc ∧ t.mbr = u.mbr ∧ t.flt = u.flt ∧ t.sec = u.sec ∧ t.cpx = u.cpx ∧ t.memc = u.memc ∧ t.mov = u.mov ∧ t.cst = u.cst ∧ t.lnt = u.lnt ∧ t.out = u.out ∧ t.freeCtr = u.freeCtr := by
    intro kind be p f u hh
    cases hp : placePage kind be p u with
    | none => simp [hp] at hh
    | some w => simp [hp] at hh; obtain ⟨_, rfl⟩ := hh; have := placePage_frame hp; simp [this]
  (repeat' split at h) <;> first
    | (simp at h; done)
    | (have := go h; simp [this]; done)
    | (simp at h; obtain ⟨_, rfl⟩ := h; simp; done)

theorem placePart_x4 {id : Nat} {sl : Slot} {s t : State} {k : Nat} (h : placePart id sl s = some (k, t)) : t.sys = s.sys := by
  unfold placePart at h
  simp only at h
  have go : ∀ {kind : Nat} {be : Bool} {p : Page} {f : Nat} {u : State}, (placePage kind be p u).map (fun s => (f, s)) = some (k, t) →
      t.pending = u.pending ∧ t.regs = u.regs ∧ t.latch = u.latch ∧ t.mem = u.mem ∧ t.sys = u.sys ∧ t.clk = u.clk ∧ t.thm = u.thm ∧ t.hif = u.hif ∧ t.stm = u.stm ∧ t.flc = u.flc ∧ t.mbr = u.mbr ∧ t.flt = u.flt ∧ t.sec = u.sec ∧ t.cpx = u.cpx ∧ t.memc = u.memc ∧ t.mov = u.mov ∧ t.cst = u.cst ∧ t.lnt = u.lnt ∧ t.out = u.out ∧ t.freeCtr = u.freeCtr := by
    intro kind be p f u hh
    cases hp : placePage kind be p u with
    | none => simp [hp] at hh
    | some w => simp [hp] at hh; obtain ⟨_, rfl⟩ := hh; have := placePage_frame hp; simp [this]
  (repeat' split at h) <;> first
    | (simp at h; done)
    | (have := go h; simp [this]; done)
    | (simp at h; obtain ⟨_, rfl⟩ := h; simp; done)

theorem placePart_x5 {id : Nat} {sl : Slot} {s t : State} {k : Nat} (h : placePart id sl s = some (k, t)) : t.clk = s.clk := by
  unfold placePart at h
  simp only at h
  have go : ∀ {kind : Nat} {be : Bool} {p : Page} {f : Nat} {u : State}, (placePage kind be p u).map (fun s => (f, s)) = some (k, t) →
      t.pending = u.pending ∧ t.regs = u.regs ∧ t.latch = u.latch ∧ t.mem = u.mem ∧ t.sys = u.sys ∧ t.clk = u.clk ∧ t.thm = u.thm ∧ t.hif = u.hif ∧ t.stm = u.stm ∧ t.flc = u.flc ∧ t.mbr = u.mbr ∧ t.flt = u.flt ∧ t.sec = u.sec ∧ t.cpx = u.cpx ∧ t.memc = u.memc ∧ t.mov = u.mov ∧ t.cst = u.cst ∧ t.lnt = u.lnt ∧ t.out = u.out ∧ t.freeCtr = u.freeCtr := by
    intro kind be p f u hh
    cases hp : placePage kind be p u with
    | none => simp [hp] at hh
    | some w => simp [hp] at hh; obtain ⟨_, rfl⟩ := hh; have := placePage_frame hp; simp [this]
  (repeat' split at h) <;> first
    | (simp at h; done)
    | (have := go h; simp [this]; done)
    | (simp at h; obtain ⟨_, rfl⟩ := h; simp; done)

theorem placePart_x6 {id : Nat} {sl : Slot} {s t : State} {k : Nat} (h : placePart id sl s = some (k, t)) : t.thm = s.thm := by
  unfold placePart at h
  simp only at h
  have go : ∀ {kind : Nat} {be : Bool} {p : Page} {f : Nat} {u : State}, (placePage kind be p u).map (fun s => (f, s)) = some (k, t) →
      t.pending = u.pending ∧ t.regs = u.regs ∧ t.latch = u.latch ∧ t.mem = u.mem ∧ t.sys = u.sys ∧ t.clk = u.clk ∧ t.thm = u.thm ∧ t.hif = u.hif ∧ t.stm = u.stm ∧ t.flc = u.flc ∧ t.mbr = u.mbr ∧ t.flt = u.flt ∧ t.sec = u.sec ∧ t.cpx = u.cpx ∧ t.memc = u.memc ∧ t.mov = u.mov ∧ t.cst = u.cst ∧ t.lnt = u.lnt ∧ t.out = u.out ∧ t.freeCtr = u.freeCtr := by
    intro kind be p f u hh
    cases hp : placePage kind be p u with
    | none => simp [hp] at hh
    | some w => simp [hp] at hh; obtain ⟨_, rfl⟩ := hh; have := placePage_frame hp; simp [this]
  (repeat' split at h) <;> first
    | (simp at h; done)
    | (have := go h; simp [this]; done)
    | (simp at h; obtain ⟨_, rfl⟩ := h; simp; done)

theorem placePart_x7 {id : Nat} {sl : Slot} {s t : State} {k : Nat} (h : placePart id sl s = some (k, t)) : t.hif = s.hif := by
  unfold placePart at h
  simp only at h
  have go : ∀ {kind : Nat} {be : Bool} {p : Page} {f : Nat} {u : State}, (placePage kind be p u).map (fun s => (f, s)) = some (k, t) →
      t.pending = u.pending ∧ t.regs = u.regs ∧ t.latch = u.latch ∧ t.mem = u.mem ∧ t.sys = u.sys ∧ t.clk = u.clk ∧ t.thm = u.thm ∧ t.hif = u.hif ∧ t.stm = u.stm ∧ t.flc = u.flc ∧ t.mbr = u.mbr ∧ t.flt = u.flt ∧ t.sec = u.sec ∧ t.cpx = u.cpx ∧ t.memc = u.memc ∧ t.mov = u.mov ∧ t.cst = u.cst ∧ t.lnt = u.lnt ∧ t.out = u.out ∧ t.freeCtr = u.freeCtr := by
    intro kind be p f u hh
    cases hp : placePage kind be p u with
    | none => simp [hp] at hh
    | some w => simp [hp] at hh; obtain ⟨_, rfl⟩ := hh; have := placePage_frame hp; simp [this]
  (repeat' split at h) <;> first
    | (simp at h; done)
    | (have := go h; simp [this]; done)
    | (simp at h; obtain ⟨_, rfl⟩ := h; simp; done)

theorem placePart_x8 {id : Nat} {sl : Slot} {s t : State} {k : Nat} (h : placePart id sl s = some (k, t)) : t.stm = s.stm := by
  unfold placePart at h
  simp only at h
  have go : ∀ {kind : Nat} {be : Bool} {p : Page} {f : Nat} {u : State}, (placePage kind be p u).map (fun s => (f, s)) = some (k, t) →
      t.pending = u.pending ∧ t.regs = u.regs ∧ t.latch = u.latch ∧ t.mem = u.mem ∧ t.sys = u.sys ∧ t.clk = u.clk ∧ t.thm = u.thm ∧ t.hif = u.hif ∧ t.stm = u.stm ∧ t.flc = u.flc ∧ t.mbr = u.mbr ∧ t.flt = u.flt ∧ t.sec = u.sec ∧ t.cpx = u.cpx ∧ t.memc = u.memc ∧ t.mov = u.mov ∧ t.cst = u.cst ∧ t.lnt = u.lnt ∧ t.out = u.out ∧ t.freeCtr = u.freeCtr := by
    intro kind be p f u hh
    cases hp : placePage kind be p u with
    | none => simp [hp] at hh
    | some w => simp [hp] at hh; obtain ⟨_, rfl⟩ := hh; have := placePage_frame hp; simp [this]
  (repeat' split at h) <;> first
    | (simp at h; done)
    | (have := go h; simp [this]; done)
    | (simp at h; obtain ⟨_, rfl⟩ := h; simp; done)

theorem placePart_x9 {id : Nat} {sl : Slot} {s t : State} {k : Nat} (h : placePart id sl s = some (k, t)) : t.flc = s.flc := by
  unfold placePart at h
  simp only at h
  have go : ∀ {kind : Nat} {be : Bool} {p : Page} {f : Nat} {u : State}, (placePage kind be p u).map (fun s => (f, s)) = some (k, t) →
      t.pending = u.pending ∧ t.regs = u.regs ∧ t.latch = u.latch ∧ t.mem = u.mem ∧ t.sys = u.sys ∧ t.clk = u.clk ∧ t.thm = u.thm ∧ t.hif = u.hif ∧ t.stm = u.stm ∧ t.flc = u.flc ∧ t.mbr = u.mbr ∧ t.flt = u.flt ∧ t.sec = u.sec ∧ t.cpx = u.cpx ∧ t.memc = u.memc ∧ t.mov = u.mov ∧ t.cst = u.cst ∧ t.lnt = u.lnt ∧ t.out = u.out ∧ t.freeCtr = u.freeCtr := by
    intro kind be p f u hh
    cases hp : placePage kind be p u with
    | none => simp [hp] at hh
    | some w => simp [hp] at hh; obtain ⟨_, rfl⟩ := hh; have := placePage_frame hp; simp [this]
  (repeat' split at h) <;> first
    | (simp at h; done)
    | (have := go h; simp [this]; done)
    | (simp at h; obtain ⟨_, rfl⟩ := h; simp; done)

theorem placePart_x10 {id : Nat} {sl : Slot} {s t : State} {k : Nat} (h : placePart id sl s = some (k, t)) : t.mbr = s.mbr := by
  unfold placePart at h
  simp only at h
  have go : ∀ {kind : Nat} {be : Bool} {p : Page} {f : Nat} {u : State}, (placePage kind be p u).map (fun s => (f, s)) = some (k, t) →
      t.pending = u.pending ∧ t.regs = u.regs ∧ t.latch = u.latch ∧ t.mem = u.mem ∧ t.sys = u.sys ∧ t.clk = u.clk ∧ t.thm = u.thm ∧ t.hif = u.hif ∧ t.stm = u.stm ∧ t.flc = u.flc ∧ t.mbr = u.mbr ∧ t.flt = u.flt ∧ t.sec = u.sec ∧ t.cpx = u.cpx ∧ t.memc = u.memc ∧ t.mov = u.mov ∧ t.cst = u.cst ∧ t.lnt = u.lnt ∧ t.out = u.out ∧ t.freeCtr = u.freeCtr := by
    intro kind be p f u hh
    cases hp : placePage kind be p u with
    | none => simp [hp] at hh
    | some w => simp [hp] at hh; obtain ⟨_, rfl⟩ := hh; have := placePage_frame hp; simp [this]
  (repeat' split at h) <;> first
    | (simp at h; done)
    | (have := go h; simp [this]; done)
    | (simp at h; obtain ⟨_, rfl⟩ := h; simp; done)

theorem placePart_x11 {id : Nat} {sl : Slot} {s t : State} {k : Nat} (h : placePart id sl s = some (k, t)) : t.flt = s.flt := by
  unfold placePart at h
  simp only at h
  have go : ∀ {kind : Nat} {be : Bool} {p : Page} {f : Nat} {u : State}, (placePage kind be p u).map (fun s => (f, s)) = some (k, t) →
      t.pending = u.pending ∧ t.regs = u.regs ∧ t.latch = u.latch ∧ t.mem = u.mem ∧ t.sys = u.sys ∧ t.clk = u.clk ∧ t.thm = u.thm ∧ t.hif = u.hif ∧ t.stm = u.stm ∧ t.flc = u.flc ∧ t.mbr = u.mbr ∧ t.flt = u.flt ∧ t.sec = u.sec ∧ t.cpx = u.cpx ∧ t.memc = u.memc ∧ t.mov = u.mov ∧ t.cst = u.cst ∧ t.lnt = u.lnt ∧ t.out = u.out ∧ t.freeCtr = u.freeCtr := by
    intro kind be p f u hh
    cases hp : placePage kind be p u with
    | none => simp [hp] at hh
    | some w => simp [hp] at hh; obtain ⟨_, rfl⟩ := hh; have := placePage_frame hp; simp [this]
  (repeat' split at h) <;> first
    | (simp at h; done)
    | (have := go h; simp [this]; done)
    | (simp at h; obtain ⟨_, rfl⟩ := h; simp; done)

theorem placePart_x12 {id : Nat} {sl : Slot} {s t : State} {k : Nat} (h : placePart id sl s = some (k, t)) : t.sec = s.sec := by
  unfold placePart at h
  simp only at h
  have go : ∀ {kind : Nat} {be : Bool} {p : Page} {f : Nat} {u : State}, (placePage kind be p u).map (fun s => (f, s)) = some (k, t) →
      t.pending = u.pending ∧ t.regs = u.regs ∧ t.latch = u.latch ∧ t.mem = u.mem ∧ t.sys = u.sys ∧ t.clk = u.clk ∧ t.thm = u.thm ∧ t.hif = u.hif ∧ t.stm = u.stm ∧ t.flc = u.flc ∧ t.mbr = u.mbr ∧ t.flt = u.flt ∧ t.sec = u.sec ∧ t.cpx = u.cpx ∧ t.memc = u.memc ∧ t.mov = u.mov ∧ t.cst = u.cst ∧ t.lnt = u.lnt ∧ t.out = u.out ∧ t.freeCtr = u.freeCtr := by
    intro kind be p f u hh
    cases hp : placePage kind be p u with
    | none => simp [hp] at hh
    | some w => simp [hp] at hh; obtain ⟨_, rfl⟩ := hh; have := placePage_frame hp; simp [this]
  (repeat' split at h) <;> first
    | (simp at h; done)
    | (have := go h; simp [this]; done)
    | (simp at h; obtain ⟨_, rfl⟩ := h; simp; done)

theorem placePart_x13 {id : Nat} {sl : Slot} {s t : State} {k : Nat} (h : placePart id sl s = some (k, t)) : t.cpx = s.cpx := by
  unfold placePart at h
  simp only at h
  have go : ∀ {kind : Nat} {be : Bool} {p : Page} {f : Nat} {u : State}, (placePage kind be p u).map (fun s => (f, s)) = some (k, t) →
      t.pending = u.pending ∧ t.regs = u.regs ∧ t.latch = u.latch ∧ t.mem = u.mem ∧ t.sys = u.sys ∧ t.clk = u.clk ∧ t.thm = u.thm ∧ t.hif = u.hif ∧ t.stm = u.stm ∧ t.flc = u.flc ∧ t.mbr = u.mbr ∧ t.flt = u.flt ∧ t.sec = u.sec ∧ t.cpx = u.cpx ∧ t.memc = u.memc ∧ t.mov = u.mov ∧ t.cst = u.cst ∧ t.lnt = u.lnt ∧ t.out = u.out ∧ t.freeCtr = u.freeCtr := by
    intro kind be p f u hh
    cases hp : placePage kind be p u with
    | none => simp [hp] at hh
    | some w => simp [hp] at hh; obtain ⟨_, rfl⟩ := hh; have := placePage_frame hp; simp [this]
  (repeat' split at h) <;> first
    | (simp at h; done)
    | (have := go h; simp [this]; done)
    | (simp at h; obtain ⟨_, rfl⟩ := h; simp; done)

theorem placePart_x14 {id : Nat} {sl : Slot} {s t : State} {k : Nat} (h : placePart id sl s = some (k, t)) : t.memc = s.memc := by
  unfold placePart at h
  simp only at h
  have go : ∀ {kind : Nat} {be : Bool} {p : Page} {f : Nat} {u : State}, (placePage kind be p u).map (fun s => (f, s)) = some (k, t) →
      t.pending = u.pending ∧ t.regs = u.regs ∧ t.latch = u.latch ∧ t.mem = u.mem ∧ t.sys = u.sys ∧ t.clk = u.clk ∧ t.thm = u.thm ∧ t.hif = u.hif ∧ t.stm = u.stm ∧ t.flc = u.flc ∧ t.mbr = u.mbr ∧ t.flt = u.flt ∧ t.sec = u.sec ∧ t.cpx = u.cpx ∧ t.memc = u.memc ∧ t.mov = u.mov ∧ t.cst = u.cst ∧ t.lnt = u.lnt ∧ t.out = u.out ∧ t.freeCtr = u.freeCtr := by
    intro kind be p f u hh
    cases hp : placePage kind be p u with
    | none => simp [hp] at hh
    | some w => simp [hp] at hh; obtain ⟨_, rfl⟩ := hh; have := placePage_frame hp; simp [this]
  (repeat' split at h) <;> first
    | (simp at h; done)
    | (have := go h; simp [this]; done)
    | (simp at h; obtain ⟨_, rfl⟩ := h; simp; done)

theorem placePart_x15 {id : Nat} {sl : Slot} {s t : State} {k : Nat} (h : placePart id sl s = some (k, t)) : t.mov = s.mov := by
  unfold placePart at h
  simp only at h
  have go : ∀ {kind : Nat} {be : Bool} {p : Page} {f : Nat} {u : State}, (placePage kind be p u).map (fun s => (f, s)) = some (k, t) →
      t.pending = u.pending ∧ t.regs = u.regs ∧ t.latch = u.latch ∧ t.mem = u.mem ∧ t.sys = u.sys ∧ t.clk = u.clk ∧ t.thm = u.thm ∧ t.hif = u.hif ∧ t.stm = u.stm ∧ t.flc = u.flc ∧ t.mbr = u.mbr ∧ t.flt = u.flt ∧ t.sec = u.sec ∧ t.cpx = u.cpx ∧ t.memc = u.memc ∧ t.mov = u.mov ∧ t.cst = u.cst ∧ t.lnt = u.lnt ∧ t.out = u.out ∧ t.freeCtr = u.freeCtr := by
    intro kind be p f u hh
    cases hp : placePage kind be p u with
    | none => simp [hp] at hh
    | some w => simp [hp] at hh; obtain ⟨_, rfl⟩ := hh; have := placePage_frame hp; simp [this]
  (repeat' split at h) <;> first
    | (simp at h; done)
    | (have := go h; simp [this]; done)
    | (simp at h; obtain ⟨_, rfl⟩ := h; simp; done)

theorem placePart_x16 {id : Nat} {sl : Slot} {s t : State} {k : Nat} (h : placePart id sl s = some (k, t)) : t.cst = s.cst := by
  unfold placePart at h
  simp only at h
  have go : ∀ {kind : Nat} {be : Bool} {p : Page} {f : Nat} {u : State}, (placePage kind be p u).map (fun s => (f, s)) = some (k, t) →
      t.pending = u.pending ∧ t.regs = u.regs ∧ t.latch = u.latch ∧ t.mem = u.mem ∧ t.sys = u.sys ∧ t.clk = u.clk ∧ t.thm = u.thm ∧ t.hif = u.hif ∧ t.stm = u.stm ∧ t.flc = u.flc ∧ t.mbr = u.mbr ∧ t.flt = u.flt ∧ t.sec = u.sec ∧ t.cpx = u.cpx ∧ t.memc = u.memc ∧ t.mov = u.mov ∧ t.cst = u.cst ∧ t.lnt = u.lnt ∧ t.out = u.out ∧ t.freeCtr = u.freeCtr := by
    intro kind be p f u hh
    cases hp : placePage kind be p u with
    | none => simp [hp] at hh
    | some w => simp [hp] at hh; obtain ⟨_, rfl⟩ := hh; have := placePage_frame hp; simp [this]
  (repeat' split at h) <;> first
    | (simp at h; done)
    | (have := go h; simp [this]; done)
    | (simp at h; obtain ⟨_, rfl⟩ := h; simp; done)

theorem placePart_x17 {id : Nat} {sl : Slot} {s t : State} {k : Nat} (h : placePart id sl s = some (k, t)) : t.lnt = s.lnt := by
  unfold placePart at h
  simp only at h
  have go : ∀ {kind : Nat} {be : Bool} {p : Page} {f : Nat} {u : State}, (placePage kind be p u).map (fun s => (f, s)) = some (k, t) →
      t.pending = u.pending ∧ t.regs = u.regs ∧ t.latch = u.latch ∧ t.mem = u.mem ∧ t.sys = u.sys ∧ t.clk = u.clk ∧ t.thm = u.thm ∧ t.hif = u.hif ∧ t.stm = u.stm ∧ t.flc = u.flc ∧ t.mbr = u.mbr ∧ t.flt = u.flt ∧ t.sec = u.sec ∧ t.cpx = u.cpx ∧ t.memc = u.memc ∧ t.mov = u.mov ∧ t.cst = u.cst ∧ t.lnt = u.lnt ∧ t.out = u.out ∧ t.freeCtr = u.freeCtr := by
    intro kind be p f u hh
    cases hp : placePage kind be p u with
    | none => simp [hp] at hh
    | some w => simp [hp] at hh; obtain ⟨_, rfl⟩ := hh; have := placePage_frame hp; simp [this]
  (repeat' split at h) <;> first
    | (simp at h; done)
    | (have := go h; simp [this]; done)
    | (simp at h; obtain ⟨_, rfl⟩ := h; simp; done)

theorem placePart_x18 {id : Nat} {sl : Slot} {s t : State} {k : Nat} (h : placePart id sl s = some (k, t)) : t.out = s.out := by
  unfold placePart at h
  simp only at h
  have go : ∀ {kind : Nat} {be : Bool} {p : Page} {f : Nat} {u : State}, (placePage kind be p u).map (fun s => (f, s)) = some (k, t) →
      t.pending = u.pending ∧ t.regs = u.regs ∧ t.latch = u.latch ∧ t.mem = u.mem ∧ t.sys = u.sys ∧ t.clk = u.clk ∧ t.thm = u.thm ∧ t.hif = u.hif ∧ t.stm = u.stm ∧ t.flc = u.flc ∧ t.mbr = u.mbr ∧ t.flt = u.flt ∧ t.sec = u.sec ∧ t.cpx = u.cpx ∧ t.memc = u.memc ∧ t.mov = u.mov ∧ t.cst = u.cst ∧ t.lnt = u.lnt ∧ t.out = u.out ∧ t.freeCtr = u.freeCtr := by
    intro kind be p f u hh
    cases hp : placePage kind be p u with
    | none => simp [hp] at hh
    | some w => simp [hp] at hh; obtain ⟨_, rfl⟩ := hh; have := placePage_frame hp; simp [this]
  (repeat' split at h) <;> first
    | (simp at h; done)
    | (have := go h; simp [this]; done)
    | (simp at h; obtain ⟨_, rfl⟩ := h; simp; done)

theorem placePart_x19 {id : Nat} {sl : Slot} {s t : State} {k : Nat} (h : placePart id sl s = some (k, t)) : t.freeCtr = s.freeCtr := by
  unfold placePart at h
  simp only at h
  have go : ∀ {kind : Nat} {be : Bool} {p : Page} {f : Nat} {u : State}, (placePage kind be p u).map (fun s => (f, s)) = some (k, t) →
      t.pending = u.pending ∧ t.regs = u.regs ∧ t.latch = u.latch ∧ t.mem = u.mem ∧ t.sys = u.sys ∧ t.clk = u.clk ∧ t.thm = u.thm ∧ t.hif = u.hif ∧ t.stm = u.stm ∧ t.flc = u.flc ∧ t.mbr = u.mbr ∧ t.flt = u.flt ∧ t.sec = u.sec ∧ t.cpx = u.cpx ∧ t.memc = u.memc ∧ t.mov = u.mov ∧ t.cst = u.cst ∧ t.lnt = u.lnt ∧ t.out = u.out ∧ t.freeCtr = u.freeCtr := by
    intro kind be p f u hh
    cases hp : placePage kind be p u with
    | none => simp [hp] at hh
    | some w => simp [hp] at hh; obtain ⟨_, rfl⟩ := hh; have := placePage_frame hp; simp [this]
  (repeat' split at h) <;> first
    | (simp at h; done)
    | (have := go h; simp [this]; done)
    | (simp at h; obtain ⟨_, rfl⟩ := h; simp; done)

@[simp] theorem placePart_frame {id : Nat} {sl : Slot} {s t : State} {k : Nat} (h : placePart id sl s = some (k, t)) :
    t.pending = s.pending ∧ t.regs = s.regs ∧ t.latch = s.latch ∧ t.mem = s.mem ∧ t.sys = s.sys ∧ t.clk = s.clk ∧ t.thm = s.thm ∧ t.hif = s.hif ∧ t.stm = s.stm ∧ t.flc = s.flc ∧ t.mbr = s.mbr ∧ t.flt = s.flt ∧ t.sec = s.sec ∧ t.cpx = s.cpx ∧ t.memc = s.memc ∧ t.mov = s.mov ∧ t.cst = s.cst ∧ t.lnt = s.lnt ∧ t.out = s.out ∧ t.freeCtr = s.freeCtr :=
  ⟨placePart_x0 h, placePart_x1 h, placePart_x2 h, placePart_x3 h, placePart_x4 h, placePart_x5 h, placePart_x6 h, placePart_x7 h, placePart_x8 h, placePart_x9 h, placePart_x10 h, placePart_x11 h, placePart_x12 h, placePart_x13 h, placePart_x14 h, placePart_x15 h, placePart_x16 h, placePart_x17 h, placePart_x18 h, placePart_x19 h⟩

theorem placeLoop_pending (a0 : ℕ) (a1 : ℕ) (s : State) : (placeLoop a0 a1 s).pending = s.pending := by
  induction a0 generalizing s with
  | zero => simp [placeLoop]
  | succ fuel ih =>
  unfold placeLoop
  try dsimp only
  repeat' (first | (simp; done) | (simp [*]; done) | (have h := appendRec_frame (by assumption); simp [h, *]; done) | (have h := takeSlot_frame (by assumption); simp [h, *]; done) | (have h := placePage_frame (by assumption); simp [h, *]; done) | (have h := placePart_frame (by assumption); simp [h, *]; done) | split | (refine (forAll_pending _ _ _ (fun x s => ?_)).trans ?_; try dsimp only) | (refine adminCmd_pending _ _ _ _ ?_; try dsimp only) | simp)

theorem placeLoop_regs (a0 : ℕ) (a1 : ℕ) (s : State) : (placeLoop a0 a1 s).regs = s.regs := by
  induction a0 generalizing s with
  | zero => simp [placeLoop]
  | succ fuel ih =>
  unfold placeLoop
  try dsimp only
  repeat' (first | (simp; done) | (simp [*]; done) | (have h := appendRec_frame (by assumption); simp [h, *]; done) | (have h := takeSlot_frame (by assumption); simp [h, *]; done) | (have h := placePage_frame (by assumption); simp [h, *]; done) | (have h := placePart_frame (by assumption); simp [h, *]; done) | split | (refine (forAll_regs _ _ _ (fun x s => ?_)).trans ?_; try dsimp only) | (refine adminCmd_regs _ _ _ _ ?_; try dsimp only) | simp)

theorem placeLoop_latch (a0 : ℕ) (a1 : ℕ) (s : State) : (placeLoop a0 a1 s).latch = s.latch := by
  induction a0 generalizing s with
  | zero => simp [placeLoop]
  | succ fuel ih =>
  unfold placeLoop
  try dsimp only
  repeat' (first | (simp; done) | (simp [*]; done) | (have h := appendRec_frame (by assumption); simp [h, *]; done) | (have h := takeSlot_frame (by assumption); simp [h, *]; done) | (have h := placePage_frame (by assumption); simp [h, *]; done) | (have h := placePart_frame (by assumption); simp [h, *]; done) | split | (refine (forAll_latch _ _ _ (fun x s => ?_)).trans ?_; try dsimp only) | (refine adminCmd_latch _ _ _ _ ?_; try dsimp only) | simp)

theorem placeLoop_mem (a0 : ℕ) (a1 : ℕ) (s : State) : (placeLoop a0 a1 s).mem = s.mem := by
  induction a0 generalizing s with
  | zero => simp [placeLoop]
  | succ fuel ih =>
  unfold placeLoop
  try dsimp only
  repeat' (first | (simp; done) | (simp [*]; done) | (have h := appendRec_frame (by assumption); simp [h, *]; done) | (have h := takeSlot_frame (by assumption); simp [h, *]; done) | (have h := placePage_frame (by assumption); simp [h, *]; done) | (have h := placePart_frame (by assumption); simp [h, *]; done) | split | (refine (forAll_mem _ _ _ (fun x s => ?_)).trans ?_; try dsimp only) | (refine adminCmd_mem _ _ _ _ ?_; try dsimp only) | simp)

theorem placeLoop_sys (a0 : ℕ) (a1 : ℕ) (s : State) : (placeLoop a0 a1 s).sys = s.sys := by
  induction a0 generalizing s with
  | zero => simp [placeLoop]
  | succ fuel ih =>
  unfold placeLoop
  try dsimp only
  repeat' (first | (simp; done) | (simp [*]; done) | (have h := appendRec_frame (by assumption); simp [h, *]; done) | (have h := takeSlot_frame (by assumption); simp [h, *]; done) | (have h := placePage_frame (by assumption); simp [h, *]; done) | (have h := placePart_frame (by assumption); simp [h, *]; done) | split | (refine (forAll_sys _ _ _ (fun x s => ?_)).trans ?_; try dsimp only) | (refine adminCmd_sys _ _ _ _ ?_; try dsimp only) | simp)

theorem placeLoop_clk (a0 : ℕ) (a1 : ℕ) (s : State) : (placeLoop a0 a1 s).clk = s.clk := by
  induction a0 generalizing s with
  | zero => simp [placeLoop]
  | succ fuel ih =>
  unfold placeLoop
  try dsimp only
  repeat' (first | (simp; done) | (simp [*]; done) | (have h := appendRec_frame (by assumption); simp [h, *]; done) | (have h := takeSlot_frame (by assumption); simp [h, *]; done) | (have h := placePage_frame (by assumption); simp [h, *]; done) | (have h := placePart_frame (by assumption); simp [h, *]; done) | split | (refine (forAll_clk _ _ _ (fun x s => ?_)).trans ?_; try dsimp only) | (refine adminCmd_clk _ _ _ _ ?_; try dsimp only) | simp)

theorem placeLoop_thm (a0 : ℕ) (a1 : ℕ) (s : State) : (placeLoop a0 a1 s).thm = s.thm := by
  induction a0 generalizing s with
  | zero => simp [placeLoop]
  | succ fuel ih =>
  unfold placeLoop
  try dsimp only
  repeat' (first | (simp; done) | (simp [*]; done) | (have h := appendRec_frame (by assumption); simp [h, *]; done) | (have h := takeSlot_frame (by assumption); simp [h, *]; done) | (have h := placePage_frame (by assumption); simp [h, *]; done) | (have h := placePart_frame (by assumption); simp [h, *]; done) | split | (refine (forAll_thm _ _ _ (fun x s => ?_)).trans ?_; try dsimp only) | (refine adminCmd_thm _ _ _ _ ?_; try dsimp only) | simp)

theorem placeLoop_stm (a0 : ℕ) (a1 : ℕ) (s : State) : (placeLoop a0 a1 s).stm = s.stm := by
  induction a0 generalizing s with
  | zero => simp [placeLoop]
  | succ fuel ih =>
  unfold placeLoop
  try dsimp only
  repeat' (first | (simp; done) | (simp [*]; done) | (have h := appendRec_frame (by assumption); simp [h, *]; done) | (have h := takeSlot_frame (by assumption); simp [h, *]; done) | (have h := placePage_frame (by assumption); simp [h, *]; done) | (have h := placePart_frame (by assumption); simp [h, *]; done) | split | (refine (forAll_stm _ _ _ (fun x s => ?_)).trans ?_; try dsimp only) | (refine adminCmd_stm _ _ _ _ ?_; try dsimp only) | simp)

theorem placeLoop_flc (a0 : ℕ) (a1 : ℕ) (s : State) : (placeLoop a0 a1 s).flc = s.flc := by
  induction a0 generalizing s with
  | zero => simp [placeLoop]
  | succ fuel ih =>
  unfold placeLoop
  try dsimp only
  repeat' (first | (simp; done) | (simp [*]; done) | (have h := appendRec_frame (by assumption); simp [h, *]; done) | (have h := takeSlot_frame (by assumption); simp [h, *]; done) | (have h := placePage_frame (by assumption); simp [h, *]; done) | (have h := placePart_frame (by assumption); simp [h, *]; done) | split | (refine (forAll_flc _ _ _ (fun x s => ?_)).trans ?_; try dsimp only) | (refine adminCmd_flc _ _ _ _ ?_; try dsimp only) | simp)

theorem placeLoop_mbr (a0 : ℕ) (a1 : ℕ) (s : State) : (placeLoop a0 a1 s).mbr = s.mbr := by
  induction a0 generalizing s with
  | zero => simp [placeLoop]
  | succ fuel ih =>
  unfold placeLoop
  try dsimp only
  repeat' (first | (simp; done) | (simp [*]; done) | (have h := appendRec_frame (by assumption); simp [h, *]; done) | (have h := takeSlot_frame (by assumption); simp [h, *]; done) | (have h := placePage_frame (by assumption); simp [h, *]; done) | (have h := placePart_frame (by assumption); simp [h, *]; done) | split | (refine (forAll_mbr _ _ _ (fun x s => ?_)).trans ?_; try dsimp only) | (refine adminCmd_mbr _ _ _ _ ?_; try dsimp only) | simp)

theorem placeLoop_flt (a0 : ℕ) (a1 : ℕ) (s : State) : (placeLoop a0 a1 s).flt = s.flt := by
  induction a0 generalizing s with
  | zero => simp [placeLoop]
  | succ fuel ih =>
  unfold placeLoop
  try dsimp only
  repeat' (first | (simp; done) | (simp [*]; done) | (have h := appendRec_frame (by assumption); simp [h, *]; done) | (have h := takeSlot_frame (by assumption); simp [h, *]; done) | (have h := placePage_frame (by assumption); simp [h, *]; done) | (have h := placePart_frame (by assumption); simp [h, *]; done) | split | (refine (forAll_flt _ _ _ (fun x s => ?_)).trans ?_; try dsimp only) | (refine adminCmd_flt _ _ _ _ ?_; try dsimp only) | simp)

theorem placeLoop_sec (a0 : ℕ) (a1 : ℕ) (s : State) : (placeLoop a0 a1 s).sec = s.sec := by
  induction a0 generalizing s with
  | zero => simp [placeLoop]
  | succ fuel ih =>
  unfold placeLoop
  try dsimp only
  repeat' (first | (simp; done) | (simp [*]; done) | (have h := appendRec_frame (by assumption); simp [h, *]; done) | (have h := takeSlot_frame (by assumption); simp [h, *]; done) | (have h := placePage_frame (by assumption); simp [h, *]; done) | (have h := placePart_frame (by assumption); simp [h, *]; done) | split | (refine (forAll_sec _ _ _ (fun x s => ?_)).trans ?_; try dsimp only) | (refine adminCmd_sec _ _ _ _ ?_; try dsimp only) | simp)

theorem placeLoop_cpx (a0 : ℕ) (a1 : ℕ) (s : State) : (placeLoop a0 a1 s).cpx = s.cpx := by
  induction a0 generalizing s with
  | zero => simp [placeLoop]
  | succ fuel ih =>
  unfold placeLoop
  try dsimp only
  repeat' (first | (simp; done) | (simp [*]; done) | (have h := appendRec_frame (by assumption); simp [h, *]; done) | (have h := takeSlot_frame (by assumption); simp [h, *]; done) | (have h := placePage_frame (by assumption); simp [h, *]; done) | (have h := placePart_frame (by assumption); simp [h, *]; done) | split | (refine (forAll_cpx _ _ _ (fun x s => ?_)).trans ?_; try dsimp only) | (refine adminCmd_cpx _ _ _ _ ?_; try dsimp only) | simp)

theorem placeLoop_memc (a0 : ℕ) (a1 : ℕ) (s : State) : (placeLoop a0 a1 s).memc = s.memc := by
  induction a0 generalizing s with
  | zero => simp [placeLoop]
  | succ fuel ih =>
  unfold placeLoop
  try dsimp only
  repeat' (first | (simp; done) | (simp [*]; done) | (have h := appendRec_frame (by assumption); simp [h, *]; done) | (have h := takeSlot_frame (by assumption); simp [h, *]; done) | (have h := placePage_frame (by assumption); simp [h, *]; done) | (have h := placePart_frame (by assumption); simp [h, *]; done) | split | (refine (forAll_memc _ _ _ (fun x s => ?_)).trans ?_; try dsimp only) | (refine adminCmd_memc _ _ _ _ ?_; try dsimp only) | simp)

theorem placeLoop_mov (a0 : ℕ) (a1 : ℕ) (s : State) : (placeLoop a0 a1 s).mov = s.mov := by
  induction a0 generalizing s with
  | zero => simp [placeLoop]
  | succ fuel ih =>
  unfold placeLoop
  try dsimp only
  repeat' (first | (simp; done) | (simp [*]; done) | (have h := appendRec_frame (by assumption); simp [h, *]; done) | (have h := takeSlot_frame (by assumption); simp [h, *]; done) | (have h := placePage_frame (by assumption); simp [h, *]; done) | (have h := placePart_frame (by assumption); simp [h, *]; done) | split | (refine (forAll_mov _ _ _ (fun x s => ?_)).trans ?_; try dsimp only) | (refine adminCmd_mov _ _ _ _ ?_; try dsimp only) | simp)

theorem placeLoop_cst (a0 : ℕ) (a1 : ℕ) (s : State) : (placeLoop a0 a1 s).cst = s.cst := by
  induction a0 generalizing s with
  | zero => simp [placeLoop]
  | succ fuel ih =>
  unfold placeLoop
  try dsimp only
  repeat' (first | (simp; done) | (simp [*]; done) | (have h := appendRec_frame (by assumption); simp [h, *]; done) | (have h := takeSlot_frame (by assumption); simp [h, *]; done) | (have h := placePage_frame (by assumption); simp [h, *]; done) | (have h := placePart_frame (by assumption); simp [h, *]; done) | split | (refine (forAll_cst _ _ _ (fun x s => ?_)).trans ?_; try dsimp only) | (refine adminCmd_cst _ _ _ _ ?_; try dsimp only) | simp)

theorem placeLoop_lnt (a0 : ℕ) (a1 : ℕ) (s : State) : (placeLoop a0 a1 s).lnt = s.lnt := by
  induction a0 generalizing s with
  | zero => simp [placeLoop]
  | succ fuel ih =>
  unfold placeLoop
  try dsimp only
  repeat' (first | (simp; done) | (simp [*]; done) | (have h := appendRec_frame (by assumption); simp [h, *]; done) | (have h := takeSlot_frame (by assumption); simp [h, *]; done) | (have h := placePage_frame (by assumption); simp [h, *]; done) | (have h := placePart_frame (by assumption); simp [h, *]; done) | split | (refine (forAll_lnt _ _ _ (fun x s => ?_)).trans ?_; try dsimp only) | simp)

theorem placeLoop_out (a0 : ℕ) (a1 : ℕ) (s : State) : (placeLoop a0 a1 s).out = s.out := by
  induction a0 generalizing s with
  | zero => simp [placeLoop]
  | succ fuel ih =>
  unfold placeLoop
  try dsimp only
  repeat' (first | (simp; done) | (simp [*]; done) | (have h := appendRec_frame (by assumption); simp [h, *]; done) | (have h := takeSlot_frame (by assumption); simp [h, *]; done) | (have h := placePage_frame (by assumption); simp [h, *]; done) | (have h := placePart_frame (by assumption); simp [h, *]; done) | split | (refine (forAll_out _ _ _ (fun x s => ?_)).trans ?_; try dsimp only) | simp)

theorem placeLoop_freeCtr (a0 : ℕ) (a1 : ℕ) (s : State) : (placeLoop a0 a1 s).freeCtr = s.freeCtr := by
  induction a0 generalizing s with
  | zero => simp [placeLoop]
  | succ fuel ih =>
  unfold placeLoop
  try dsimp only
  repeat' (first | (simp; done) | (simp [*]; done) | (have h := appendRec_frame (by assumption); simp [h, *]; done) | (have h := takeSlot_frame (by assumption); simp [h, *]; done) | (have h := placePage_frame (by assumption); simp [h, *]; done) | (have h := placePart_frame (by assumption); simp [h, *]; done) | split | (refine (forAll_freeCtr _ _ _ (fun x s => ?_)).trans ?_; try dsimp only) | (refine adminCmd_freeCtr _ _ _ _ ?_; try dsimp only) | simp)

@[simp] theorem placeLoop_frame (a0 : ℕ) (a1 : ℕ) (s : State) :
    (placeLoop a0 a1 s).pending = s.pending ∧ (placeLoop a0 a1 s).regs = s.regs ∧ (placeLoop a0 a1 s).latch = s.latch ∧ (placeLoop a0 a1 s).mem = s.mem ∧ (placeLoop a0 a1 s).sys = s.sys ∧ (placeLoop a0 a1 s).clk = s.clk ∧ (placeLoop a0 a1 s).thm = s.thm ∧ (placeLoop a0 a1 s).stm = s.stm ∧ (placeLoop a0 a1 s).flc = s.flc ∧ (placeLoop a0 a1 s).mbr = s.mbr ∧ (placeLoop a0 a1 s).flt = s.flt ∧ (placeLoop a0 a1 s).sec = s.sec ∧ (placeLoop a0 a1 s).cpx = s.cpx ∧ (placeLoop a0 a1 s).memc = s.memc ∧ (placeLoop a0 a1 s).mov = s.mov ∧ (placeLoop a0 a1 s).cst = s.cst ∧ (placeLoop a0 a1 s).lnt = s.lnt ∧ (placeLoop a0 a1 s).out = s.out ∧ (placeLoop a0 a1 s).freeCtr = s.freeCtr :=
  ⟨placeLoop_pending a0 a1 s, placeLoop_regs a0 a1 s, placeLoop_latch a0 a1 s, placeLoop_mem a0 a1 s, placeLoop_sys a0 a1 s, placeLoop_clk a0 a1 s, placeLoop_thm a0 a1 s, placeLoop_stm a0 a1 s, placeLoop_flc a0 a1 s, placeLoop_mbr a0 a1 s, placeLoop_flt a0 a1 s, placeLoop_sec a0 a1 s, placeLoop_cpx a0 a1 s, placeLoop_memc a0 a1 s, placeLoop_mov a0 a1 s, placeLoop_cst a0 a1 s, placeLoop_lnt a0 a1 s, placeLoop_out a0 a1 s, placeLoop_freeCtr a0 a1 s⟩

theorem placeWrite_pending (a0 : ℕ) (s : State) : (placeWrite a0 s).pending = s.pending := by
  unfold placeWrite
  try dsimp only
  first
    | (simp; done)
    | ((repeat' split) <;> simp; done)
    | (repeat' (first | (simp; done) | split))

theorem placeWrite_regs (a0 : ℕ) (s : State) : (placeWrite a0 s).regs = s.regs := by
  unfold placeWrite
  try dsimp only
  first
    | (simp; done)
    | ((repeat' split) <;> simp; done)
    | (repeat' (first | (simp; done) | split))

theorem placeWrite_latch (a0 : ℕ) (s : State) : (placeWrite a0 s).latch = s.latch := by
  unfold placeWrite
  try dsimp only
  first
    | (simp; done)
    | ((repeat' split) <;> simp; done)
    | (repeat' (first | (simp; done) | split))

theorem placeWrite_mem (a0 : ℕ) (s : State) : (placeWrite a0 s).mem = s.mem := by
  unfold placeWrite
  try dsimp only
  first
    | (simp; done)
    | ((repeat' split) <;> simp; done)
    | (repeat' (first | (simp; done) | split))

theorem placeWrite_sys (a0 : ℕ) (s : State) : (placeWrite a0 s).sys = s.sys := by
  unfold placeWrite
  try dsimp only
  first
    | (simp; done)
    | ((repeat' split) <;> simp; done)
    | (repeat' (first | (simp; done) | split))

theorem placeWrite_clk (a0 : ℕ) (s : State) : (placeWrite a0 s).clk = s.clk := by
  unfold placeWrite
  try dsimp only
  first
    | (simp; done)
    | ((repeat' split) <;> simp; done)
    | (repeat' (first | (simp; done) | split))

theorem placeWrite_thm (a0 : ℕ) (s : State) : (placeWrite a0 s).thm = s.thm := by
  unfold placeWrite
  try dsimp only
  first
    | (simp; done)
    | ((repeat' split) <;> simp; done)
    | (repeat' (first | (simp; done) | split))

theorem placeWrite_stm (a0 : ℕ) (s : State) : (placeWrite a0 s).stm = s.stm := by
  unfold placeWrite
  try dsimp only
  first
    | (simp; done)
    | ((repeat' split) <;> simp; done)
    | (repeat' (first | (simp; done) | split))

theorem placeWrite_flc (a0 : ℕ) (s : State) : (placeWrite a0 s).flc = s.flc := by
  unfold placeWrite
  try dsimp only
  first
    | (simp; done)
    | ((repeat' split) <;> simp; done)
    | (repeat' (first | (simp; done) | split))

theorem placeWrite_mbr (a0 : ℕ) (s : State) : (placeWrite a0 s).mbr = s.mbr := by
  unfold placeWrite
  try dsimp only
  first
    | (simp; done)
    | ((repeat' split) <;> simp; done)
    | (repeat' (first | (simp; done) | split))

theorem placeWrite_flt (a0 : ℕ) (s : State) : (placeWrite a0 s).flt = s.flt := by
  unfold placeWrite
  try dsimp only
  first
    | (simp; done)
    | ((repeat' split) <;> simp; done)
    | (repeat' (first | (simp; done) | split))

theorem placeWrite_sec (a0 : ℕ) (s : State) : (placeWrite a0 s).sec = s.sec := by
  unfold placeWrite
  try dsimp only
  first
    | (simp; done)
    | ((repeat' split) <;> simp; done)
    | (repeat' (first | (simp; done) | split))

theorem placeWrite_cpx (a0 : ℕ) (s : State) : (placeWrite a0 s).cpx = s.cpx := by
  unfold placeWrite
  try dsimp only
  first
    | (simp; done)
    | ((repeat' split) <;> simp; done)
    | (repeat' (first | (simp; done) | split))

theorem placeWrite_memc (a0 : ℕ) (s : State) : (placeWrite a0 s).memc = s.memc := by
  unfold placeWrite
  try dsimp only
  first
    | (simp; done)
    | ((repeat' split) <;> simp; done)
    | (repeat' (first | (simp; done) | split))

theorem placeWrite_mov (a0 : ℕ) (s : State) : (placeWrite a0 s).mov = s.mov := by
  unfold placeWrite
  try dsimp only
  first
    | (simp; done)
    | ((repeat' split) <;> simp; done)
    | (repeat' (first | (simp; done) | split))

theorem placeWrite_cst (a0 : ℕ) (s : State) : (placeWrite a0 s).cst = s.cst := by
  unfold placeWrite
  try dsimp only
  first
    | (simp; done)
    | ((repeat' split) <;> simp; done)
    | (repeat' (first | (simp; done) | split))

theorem placeWrite_lnt (a0 : ℕ) (s : State) : (placeWrite a0 s).lnt = s.lnt := by
  unfold placeWrite
  try dsimp only
  first
    | (simp; done)
    | ((repeat' split) <;> simp; done)
    | (repeat' (first | (simp; done) | split))

theorem placeWrite_out (a0 : ℕ) (s : State) : (placeWrite a0 s).out = s.out := by
  unfold placeWrite
  try dsimp only
  first
    | (simp; done)
    | ((repeat' split) <;> simp; done)
    | (repeat' (first | (simp; done) | split))

theorem placeWrite_freeCtr (a0 : ℕ) (s : State) : (placeWrite a0 s).freeCtr = s.freeCtr := by
  unfold placeWrite
  try dsimp only
  first
    | (simp; done)
    | ((repeat' split) <;> simp; done)
    | (repeat' (first | (simp; done) | split))

@[simp] theorem placeWrite_frame (a0 : ℕ) (s : State) :
    (placeWrite a0 s).pending = s.pending ∧ (placeWrite a0 s).regs = s.regs ∧ (placeWrite a0 s).latch = s.latch ∧ (placeWrite a0 s).mem = s.mem ∧ (placeWrite a0 s).sys = s.sys ∧ (placeWrite a0 s).clk = s.clk ∧ (placeWrite a0 s).thm = s.thm ∧ (placeWrite a0 s).stm = s.stm ∧ (placeWrite a0 s).flc = s.flc ∧ (placeWrite a0 s).mbr = s.mbr ∧ (placeWrite a0 s).flt = s.flt ∧ (placeWrite a0 s).sec = s.sec ∧ (placeWrite a0 s).cpx = s.cpx ∧ (placeWrite a0 s).memc = s.memc ∧ (placeWrite a0 s).mov = s.mov ∧ (placeWrite a0 s).cst = s.cst ∧ (placeWrite a0 s).lnt = s.lnt ∧ (placeWrite a0 s).out = s.out ∧ (placeWrite a0 s).freeCtr = s.freeCtr :=
  ⟨placeWrite_pending a0 s, placeWrite_regs a0 s, placeWrite_latch a0 s, placeWrite_mem a0 s, placeWrite_sys a0 s, placeWrite_clk a0 s, placeWrite_thm a0 s, placeWrite_stm a0 s, placeWrite_flc a0 s, placeWrite_mbr a0 s, placeWrite_flt a0 s, placeWrite_sec a0 s, placeWrite_cpx a0 s, placeWrite_memc a0 s, placeWrite_mov a0 s, placeWrite_cst a0 s, placeWrite_lnt a0 s, placeWrite_out a0 s, placeWrite_freeCtr a0 s⟩

theorem placeAll_pending (s : State) : (placeAll s).pending = s.pending := by
  unfold placeAll
  try dsimp only
  first
    | (simp; done)
    | ((repeat' split) <;> simp; done)
    | (repeat' (first | (simp; done) | split))

theorem placeAll_regs (s : State) : (placeAll s).regs = s.regs := by
  unfold placeAll
  try dsimp only
  first
    | (simp; done)
    | ((repeat' split) <;> simp; done)
    | (repeat' (first | (simp; done) | split))

theorem placeAll_latch (s : State) : (placeAll s).latch = s.latch := by
  unfold placeAll
  try dsimp only
  first
    | (simp; done)
    | ((repeat' split) <;> simp; done)
    | (repeat' (first | (simp; done) | split))

theorem placeAll_mem (s : State) : (placeAll s).mem = s.mem := by
  unfold placeAll
  try dsimp only
  first
    | (simp; done)
    | ((repeat' split) <;> simp; done)
    | (repeat' (first | (simp; done) | split))

theorem placeAll_sys (s : State) : (placeAll s).sys = s.sys := by
  unfold placeAll
  try dsimp only
  first
    | (simp; done)
    | ((repeat' split) <;> simp; done)
    | (repeat' (first | (simp; done) | split))

theorem placeAll_clk (s : State) : (placeAll s).clk = s.clk := by
  unfold placeAll
  try dsimp only
  first
    | (simp; done)
    | ((repeat' split) <;> simp; done)
    | (repeat' (first | (simp; done) | split))

theorem placeAll_thm (s : State) : (placeAll s).thm = s.thm := by
  unfold placeAll
  try dsimp only
  first
    | (simp; done)
    | ((repeat' split) <;> simp; done)
    | (repeat' (first | (simp; done) | split))

theorem placeAll_stm (s : State) : (placeAll s).stm = s.stm := by
  unfold placeAll
  try dsimp only
  first
    | (simp; done)
    | ((repeat' split) <;> simp; done)
    | (repeat' (first | (simp; done) | split))

theorem placeAll_flc (s : State) : (placeAll s).flc = s.flc := by
  unfold placeAll
  try dsimp only
  first
    | (simp; done)
    | ((repeat' split) <;> simp; done)
    | (repeat' (first | (simp; done) | split))

theorem placeAll_mbr (s : State) : (placeAll s).mbr = s.mbr := by
  unfold placeAll
  try dsimp only
  first
    | (simp; done)
    | ((repeat' split) <;> simp; done)
    | (repeat' (first | (simp; done) | split))

theorem placeAll_flt (s : State) : (placeAll s).flt = s.flt := by
  unfold placeAll
  try dsimp only
  first
    | (simp; done)
    | ((repeat' split) <;> simp; done)
    | (repeat' (first | (simp; done) | split))

theorem placeAll_sec (s : State) : (placeAll s).sec = s.sec := by
  unfold placeAll
  try dsimp only
  first
    | (simp; done)
    | ((repeat' split) <;> simp; done)
    | (repeat' (first | (simp; done) | split))

theorem placeAll_cpx (s : State) : (placeAll s).cpx = s.cpx := by
  unfold placeAll
  try dsimp only
  first
    | (simp; done)
    | ((repeat' split) <;> simp; done)
    | (repeat' (first | (simp; done) | split))

theorem placeAll_memc (s : State) : (placeAll s).memc = s.memc := by
  unfold placeAll
  try dsimp only
  first
    | (simp; done)
    | ((repeat' split) <;> simp; done)
    | (repeat' (first | (simp; done) | split))

theorem placeAll_mov (s : State) : (placeAll s).mov = s.mov := by
  unfold placeAll
  try dsimp only
  first
    | (simp; done)
    | ((repeat' split) <;> simp; done)
    | (repeat' (first | (simp; done) | split))

theorem placeAll_cst (s : State) : (placeAll s).cst = s.cst := by
  unfold placeAll
  try dsimp only
  first
    | (simp; done)
    | ((repeat' split) <;> simp; done)
    | (repeat' (first | (simp; done) | split))

theorem placeAll_lnt (s : State) : (placeAll s).lnt = s.lnt := by
  unfold placeAll
  try dsimp only
  first
    | (simp; done)
    | ((repeat' split) <;> simp; done)
    | (repeat' (first | (simp; done) | split))

theorem placeAll_out (s : State) : (placeAll s).out = s.out := by
  unfold placeAll
  try dsimp only
  first
    | (simp; done)
    | ((repeat' split) <;> simp; done)
    | (repeat' (first | (simp; done) | split))

theorem placeAll_freeCtr (s : State) : (placeAll s).freeCtr = s.freeCtr := by
  unfold placeAll
  try dsimp only
  first
    | (simp; done)
    | ((repeat' split) <;> simp; done)
    | (repeat' (first | (simp; done) | split))

@[simp] theorem placeAll_frame (s : State) :
    (placeAll s).pending = s.pending ∧ (placeAll s).regs = s.regs ∧ (placeAll s).latch = s.latch ∧ (placeAll s).mem = s.mem ∧ (placeAll s).sys = s.sys ∧ (placeAll s).clk = s.clk ∧ (placeAll s).thm = s.thm ∧ (placeAll s).stm = s.stm ∧ (placeAll s).flc = s.flc ∧ (placeAll s).mbr = s.mbr ∧ (placeAll s).flt = s.flt ∧ (placeAll s).sec = s.sec ∧ (placeAll s).cpx = s.cpx ∧ (placeAll s).memc = s.memc ∧ (placeAll s).mov = s.mov ∧ (placeAll s).cst = s.cst ∧ (placeAll s).lnt = s.lnt ∧ (placeAll s).out = s.out ∧ (placeAll s).freeCtr = s.freeCtr :=
  ⟨placeAll_pending s, placeAll_regs s, placeAll_latch s, placeAll_mem s, placeAll_sys s, placeAll_clk s, placeAll_thm s, placeAll_stm s, placeAll_flc s, placeAll_mbr s, placeAll_flt s, placeAll_sec s, placeAll_cpx s, placeAll_memc s, placeAll_mov s, placeAll_cst s, placeAll_lnt s, placeAll_out s, placeAll_freeCtr s⟩

/-! ### Members -/

@[simp] theorem memberChanged_frame (s : State) :
    (memberChanged s).pending = s.pending ∧ (memberChanged s).latch = s.latch ∧ (memberChanged s).mem = s.mem ∧ (memberChanged s).clk = s.clk ∧ (memberChanged s).thm = s.thm ∧ (memberChanged s).map = s.map ∧ (memberChanged s).flc = s.flc ∧ (memberChanged s).bnd = s.bnd ∧ (memberChanged s).mbr = s.mbr ∧ (memberChanged s).flt = s.flt ∧ (memberChanged s).sec = s.sec ∧ (memberChanged s).cpx = s.cpx ∧ (memberChanged s).memc = s.memc ∧ (memberChanged s).mov = s.mov ∧ (memberChanged s).cst = s.cst ∧ (memberChanged s).freeCtr = s.freeCtr := by
  unfold memberChanged
  try dsimp only
  first
    | (simp; done)
    | ((repeat' split) <;> simp; done)
    | (and_intros <;> (repeat' (first | (simp; done) | split)))

@[simp] theorem memberRecord_frame (s : State) :
    (memberRecord s).pending = s.pending ∧ (memberRecord s).regs = s.regs ∧ (memberRecord s).latch = s.latch ∧ (memberRecord s).mem = s.mem ∧ (memberRecord s).sys = s.sys ∧ (memberRecord s).clk = s.clk ∧ (memberRecord s).thm = s.thm ∧ (memberRecord s).tck = s.tck ∧ (memberRecord s).hif = s.hif ∧ (memberRecord s).stm = s.stm ∧ (memberRecord s).map = s.map ∧ (memberRecord s).flc = s.flc ∧ (memberRecord s).bnd = s.bnd ∧ (memberRecord s).mbr = s.mbr ∧ (memberRecord s).flt = s.flt ∧ (memberRecord s).sec = s.sec ∧ (memberRecord s).cpx = s.cpx ∧ (memberRecord s).memc = s.memc ∧ (memberRecord s).mov = s.mov ∧ (memberRecord s).lnt = s.lnt ∧ (memberRecord s).out = s.out ∧ (memberRecord s).freeCtr = s.freeCtr := by
  unfold memberRecord
  try dsimp only
  first
    | (simp; done)
    | ((repeat' split) <;> simp; done)
    | (and_intros <;> (repeat' (first | (simp; done) | split)))

theorem startRebuild_pending (a0 : ℕ) (a1 : ℕ) (s : State) : (startRebuild a0 a1 s).pending = s.pending := by
  unfold startRebuild
  try dsimp only
  first
    | (simp; done)
    | ((repeat' split) <;> simp; done)
    | (repeat' (first | (simp; done) | split))

theorem startRebuild_latch (a0 : ℕ) (a1 : ℕ) (s : State) : (startRebuild a0 a1 s).latch = s.latch := by
  unfold startRebuild
  try dsimp only
  first
    | (simp; done)
    | ((repeat' split) <;> simp; done)
    | (repeat' (first | (simp; done) | split))

theorem startRebuild_mem (a0 : ℕ) (a1 : ℕ) (s : State) : (startRebuild a0 a1 s).mem = s.mem := by
  unfold startRebuild
  try dsimp only
  first
    | (simp; done)
    | ((repeat' split) <;> simp; done)
    | (repeat' (first | (simp; done) | split))

theorem startRebuild_clk (a0 : ℕ) (a1 : ℕ) (s : State) : (startRebuild a0 a1 s).clk = s.clk := by
  unfold startRebuild
  try dsimp only
  first
    | (simp; done)
    | ((repeat' split) <;> simp; done)
    | (repeat' (first | (simp; done) | split))

theorem startRebuild_thm (a0 : ℕ) (a1 : ℕ) (s : State) : (startRebuild a0 a1 s).thm = s.thm := by
  unfold startRebuild
  try dsimp only
  first
    | (simp; done)
    | ((repeat' split) <;> simp; done)
    | (repeat' (first | (simp; done) | split))

theorem startRebuild_flc (a0 : ℕ) (a1 : ℕ) (s : State) : (startRebuild a0 a1 s).flc = s.flc := by
  unfold startRebuild
  try dsimp only
  first
    | (simp; done)
    | ((repeat' split) <;> simp; done)
    | (repeat' (first | (simp; done) | split))

theorem startRebuild_flt (a0 : ℕ) (a1 : ℕ) (s : State) : (startRebuild a0 a1 s).flt = s.flt := by
  unfold startRebuild
  try dsimp only
  first
    | (simp; done)
    | ((repeat' split) <;> simp; done)
    | (repeat' (first | (simp; done) | split))

theorem startRebuild_sec (a0 : ℕ) (a1 : ℕ) (s : State) : (startRebuild a0 a1 s).sec = s.sec := by
  unfold startRebuild
  try dsimp only
  first
    | (simp; done)
    | ((repeat' split) <;> simp; done)
    | (repeat' (first | (simp; done) | split))

theorem startRebuild_cpx (a0 : ℕ) (a1 : ℕ) (s : State) : (startRebuild a0 a1 s).cpx = s.cpx := by
  unfold startRebuild
  try dsimp only
  first
    | (simp; done)
    | ((repeat' split) <;> simp; done)
    | (repeat' (first | (simp; done) | split))

theorem startRebuild_memc (a0 : ℕ) (a1 : ℕ) (s : State) : (startRebuild a0 a1 s).memc = s.memc := by
  unfold startRebuild
  try dsimp only
  first
    | (simp; done)
    | ((repeat' split) <;> simp; done)
    | (repeat' (first | (simp; done) | split))

theorem startRebuild_mov (a0 : ℕ) (a1 : ℕ) (s : State) : (startRebuild a0 a1 s).mov = s.mov := by
  unfold startRebuild
  try dsimp only
  first
    | (simp; done)
    | ((repeat' split) <;> simp; done)
    | (repeat' (first | (simp; done) | split))

theorem startRebuild_freeCtr (a0 : ℕ) (a1 : ℕ) (s : State) : (startRebuild a0 a1 s).freeCtr = s.freeCtr := by
  unfold startRebuild
  try dsimp only
  first
    | (simp; done)
    | ((repeat' split) <;> simp; done)
    | (repeat' (first | (simp; done) | split))

@[simp] theorem startRebuild_frame (a0 : ℕ) (a1 : ℕ) (s : State) :
    (startRebuild a0 a1 s).pending = s.pending ∧ (startRebuild a0 a1 s).latch = s.latch ∧ (startRebuild a0 a1 s).mem = s.mem ∧ (startRebuild a0 a1 s).clk = s.clk ∧ (startRebuild a0 a1 s).thm = s.thm ∧ (startRebuild a0 a1 s).flc = s.flc ∧ (startRebuild a0 a1 s).flt = s.flt ∧ (startRebuild a0 a1 s).sec = s.sec ∧ (startRebuild a0 a1 s).cpx = s.cpx ∧ (startRebuild a0 a1 s).memc = s.memc ∧ (startRebuild a0 a1 s).mov = s.mov ∧ (startRebuild a0 a1 s).freeCtr = s.freeCtr :=
  ⟨startRebuild_pending a0 a1 s, startRebuild_latch a0 a1 s, startRebuild_mem a0 a1 s, startRebuild_clk a0 a1 s, startRebuild_thm a0 a1 s, startRebuild_flc a0 a1 s, startRebuild_flt a0 a1 s, startRebuild_sec a0 a1 s, startRebuild_cpx a0 a1 s, startRebuild_memc a0 a1 s, startRebuild_mov a0 a1 s, startRebuild_freeCtr a0 a1 s⟩

theorem autoRebuild_pending (s : State) : (autoRebuild s).pending = s.pending := by
  unfold autoRebuild
  try dsimp only
  first
    | (simp; done)
    | ((repeat' split) <;> simp; done)
    | (repeat' (first | (simp; done) | split))

theorem autoRebuild_latch (s : State) : (autoRebuild s).latch = s.latch := by
  unfold autoRebuild
  try dsimp only
  first
    | (simp; done)
    | ((repeat' split) <;> simp; done)
    | (repeat' (first | (simp; done) | split))

theorem autoRebuild_mem (s : State) : (autoRebuild s).mem = s.mem := by
  unfold autoRebuild
  try dsimp only
  first
    | (simp; done)
    | ((repeat' split) <;> simp; done)
    | (repeat' (first | (simp; done) | split))

theorem autoRebuild_clk (s : State) : (autoRebuild s).clk = s.clk := by
  unfold autoRebuild
  try dsimp only
  first
    | (simp; done)
    | ((repeat' split) <;> simp; done)
    | (repeat' (first | (simp; done) | split))

theorem autoRebuild_thm (s : State) : (autoRebuild s).thm = s.thm := by
  unfold autoRebuild
  try dsimp only
  first
    | (simp; done)
    | ((repeat' split) <;> simp; done)
    | (repeat' (first | (simp; done) | split))

theorem autoRebuild_flc (s : State) : (autoRebuild s).flc = s.flc := by
  unfold autoRebuild
  try dsimp only
  first
    | (simp; done)
    | ((repeat' split) <;> simp; done)
    | (repeat' (first | (simp; done) | split))

theorem autoRebuild_flt (s : State) : (autoRebuild s).flt = s.flt := by
  unfold autoRebuild
  try dsimp only
  first
    | (simp; done)
    | ((repeat' split) <;> simp; done)
    | (repeat' (first | (simp; done) | split))

theorem autoRebuild_sec (s : State) : (autoRebuild s).sec = s.sec := by
  unfold autoRebuild
  try dsimp only
  first
    | (simp; done)
    | ((repeat' split) <;> simp; done)
    | (repeat' (first | (simp; done) | split))

theorem autoRebuild_cpx (s : State) : (autoRebuild s).cpx = s.cpx := by
  unfold autoRebuild
  try dsimp only
  first
    | (simp; done)
    | ((repeat' split) <;> simp; done)
    | (repeat' (first | (simp; done) | split))

theorem autoRebuild_memc (s : State) : (autoRebuild s).memc = s.memc := by
  unfold autoRebuild
  try dsimp only
  first
    | (simp; done)
    | ((repeat' split) <;> simp; done)
    | (repeat' (first | (simp; done) | split))

theorem autoRebuild_mov (s : State) : (autoRebuild s).mov = s.mov := by
  unfold autoRebuild
  try dsimp only
  first
    | (simp; done)
    | ((repeat' split) <;> simp; done)
    | (repeat' (first | (simp; done) | split))

theorem autoRebuild_freeCtr (s : State) : (autoRebuild s).freeCtr = s.freeCtr := by
  unfold autoRebuild
  try dsimp only
  first
    | (simp; done)
    | ((repeat' split) <;> simp; done)
    | (repeat' (first | (simp; done) | split))

@[simp] theorem autoRebuild_frame (s : State) :
    (autoRebuild s).pending = s.pending ∧ (autoRebuild s).latch = s.latch ∧ (autoRebuild s).mem = s.mem ∧ (autoRebuild s).clk = s.clk ∧ (autoRebuild s).thm = s.thm ∧ (autoRebuild s).flc = s.flc ∧ (autoRebuild s).flt = s.flt ∧ (autoRebuild s).sec = s.sec ∧ (autoRebuild s).cpx = s.cpx ∧ (autoRebuild s).memc = s.memc ∧ (autoRebuild s).mov = s.mov ∧ (autoRebuild s).freeCtr = s.freeCtr :=
  ⟨autoRebuild_pending s, autoRebuild_latch s, autoRebuild_mem s, autoRebuild_clk s, autoRebuild_thm s, autoRebuild_flc s, autoRebuild_flt s, autoRebuild_sec s, autoRebuild_cpx s, autoRebuild_memc s, autoRebuild_mov s, autoRebuild_freeCtr s⟩

@[simp] theorem readsLose_frame (a0 : ℕ) (s : State) :
    (readsLose a0 s).pending = s.pending ∧ (readsLose a0 s).regs = s.regs ∧ (readsLose a0 s).latch = s.latch ∧ (readsLose a0 s).mem = s.mem ∧ (readsLose a0 s).sys = s.sys ∧ (readsLose a0 s).clk = s.clk ∧ (readsLose a0 s).thm = s.thm ∧ (readsLose a0 s).tck = s.tck ∧ (readsLose a0 s).hif = s.hif ∧ (readsLose a0 s).stm = s.stm ∧ (readsLose a0 s).map = s.map ∧ (readsLose a0 s).bnd = s.bnd ∧ (readsLose a0 s).mbr = s.mbr ∧ (readsLose a0 s).flt = s.flt ∧ (readsLose a0 s).sec = s.sec ∧ (readsLose a0 s).cpx = s.cpx ∧ (readsLose a0 s).memc = s.memc ∧ (readsLose a0 s).mov = s.mov ∧ (readsLose a0 s).cst = s.cst ∧ (readsLose a0 s).lnt = s.lnt ∧ (readsLose a0 s).out = s.out ∧ (readsLose a0 s).freeCtr = s.freeCtr := by
  unfold readsLose
  try dsimp only
  first
    | (simp; done)
    | ((repeat' split) <;> simp; done)
    | (and_intros <;> (repeat' (first | (simp; done) | split)))

@[simp] theorem powerDown_frame (a0 : ℕ) (s : State) :
    (powerDown a0 s).pending = s.pending ∧ (powerDown a0 s).regs = s.regs ∧ (powerDown a0 s).latch = s.latch ∧ (powerDown a0 s).mem = s.mem ∧ (powerDown a0 s).sys = s.sys ∧ (powerDown a0 s).clk = s.clk ∧ (powerDown a0 s).thm = s.thm ∧ (powerDown a0 s).tck = s.tck ∧ (powerDown a0 s).hif = s.hif ∧ (powerDown a0 s).stm = s.stm ∧ (powerDown a0 s).map = s.map ∧ (powerDown a0 s).flc = s.flc ∧ (powerDown a0 s).bnd = s.bnd ∧ (powerDown a0 s).flt = s.flt ∧ (powerDown a0 s).sec = s.sec ∧ (powerDown a0 s).cpx = s.cpx ∧ (powerDown a0 s).memc = s.memc ∧ (powerDown a0 s).mov = s.mov ∧ (powerDown a0 s).cst = s.cst ∧ (powerDown a0 s).lnt = s.lnt ∧ (powerDown a0 s).out = s.out ∧ (powerDown a0 s).freeCtr = s.freeCtr := by
  unfold powerDown
  try dsimp only
  first
    | (simp; done)
    | ((repeat' split) <;> simp; done)
    | (and_intros <;> (repeat' (first | (simp; done) | split)))

theorem declareFailed_pending (a0 : ℕ) (a1 : ℕ) (s : State) : (declareFailed a0 a1 s).pending = s.pending := by
  unfold declareFailed
  try dsimp only
  first
    | (simp; done)
    | ((repeat' split) <;> simp; done)
    | (repeat' (first | (simp; done) | split))

theorem declareFailed_latch (a0 : ℕ) (a1 : ℕ) (s : State) : (declareFailed a0 a1 s).latch = s.latch := by
  unfold declareFailed
  try dsimp only
  first
    | (simp; done)
    | ((repeat' split) <;> simp; done)
    | (repeat' (first | (simp; done) | split))

theorem declareFailed_mem (a0 : ℕ) (a1 : ℕ) (s : State) : (declareFailed a0 a1 s).mem = s.mem := by
  unfold declareFailed
  try dsimp only
  first
    | (simp; done)
    | ((repeat' split) <;> simp; done)
    | (repeat' (first | (simp; done) | split))

theorem declareFailed_clk (a0 : ℕ) (a1 : ℕ) (s : State) : (declareFailed a0 a1 s).clk = s.clk := by
  unfold declareFailed
  try dsimp only
  first
    | (simp; done)
    | ((repeat' split) <;> simp; done)
    | (repeat' (first | (simp; done) | split))

theorem declareFailed_thm (a0 : ℕ) (a1 : ℕ) (s : State) : (declareFailed a0 a1 s).thm = s.thm := by
  unfold declareFailed
  try dsimp only
  first
    | (simp; done)
    | ((repeat' split) <;> simp; done)
    | (repeat' (first | (simp; done) | split))

theorem declareFailed_flt (a0 : ℕ) (a1 : ℕ) (s : State) : (declareFailed a0 a1 s).flt = s.flt := by
  unfold declareFailed
  try dsimp only
  first
    | (simp; done)
    | ((repeat' split) <;> simp; done)
    | (repeat' (first | (simp; done) | split))

theorem declareFailed_sec (a0 : ℕ) (a1 : ℕ) (s : State) : (declareFailed a0 a1 s).sec = s.sec := by
  unfold declareFailed
  try dsimp only
  first
    | (simp; done)
    | ((repeat' split) <;> simp; done)
    | (repeat' (first | (simp; done) | split))

theorem declareFailed_cpx (a0 : ℕ) (a1 : ℕ) (s : State) : (declareFailed a0 a1 s).cpx = s.cpx := by
  unfold declareFailed
  try dsimp only
  first
    | (simp; done)
    | ((repeat' split) <;> simp; done)
    | (repeat' (first | (simp; done) | split))

theorem declareFailed_memc (a0 : ℕ) (a1 : ℕ) (s : State) : (declareFailed a0 a1 s).memc = s.memc := by
  unfold declareFailed
  try dsimp only
  first
    | (simp; done)
    | ((repeat' split) <;> simp; done)
    | (repeat' (first | (simp; done) | split))

theorem declareFailed_mov (a0 : ℕ) (a1 : ℕ) (s : State) : (declareFailed a0 a1 s).mov = s.mov := by
  unfold declareFailed
  try dsimp only
  first
    | (simp; done)
    | ((repeat' split) <;> simp; done)
    | (repeat' (first | (simp; done) | split))

theorem declareFailed_freeCtr (a0 : ℕ) (a1 : ℕ) (s : State) : (declareFailed a0 a1 s).freeCtr = s.freeCtr := by
  unfold declareFailed
  try dsimp only
  first
    | (simp; done)
    | ((repeat' split) <;> simp; done)
    | (repeat' (first | (simp; done) | split))

@[simp] theorem declareFailed_frame (a0 : ℕ) (a1 : ℕ) (s : State) :
    (declareFailed a0 a1 s).pending = s.pending ∧ (declareFailed a0 a1 s).latch = s.latch ∧ (declareFailed a0 a1 s).mem = s.mem ∧ (declareFailed a0 a1 s).clk = s.clk ∧ (declareFailed a0 a1 s).thm = s.thm ∧ (declareFailed a0 a1 s).flt = s.flt ∧ (declareFailed a0 a1 s).sec = s.sec ∧ (declareFailed a0 a1 s).cpx = s.cpx ∧ (declareFailed a0 a1 s).memc = s.memc ∧ (declareFailed a0 a1 s).mov = s.mov ∧ (declareFailed a0 a1 s).freeCtr = s.freeCtr :=
  ⟨declareFailed_pending a0 a1 s, declareFailed_latch a0 a1 s, declareFailed_mem a0 a1 s, declareFailed_clk a0 a1 s, declareFailed_thm a0 a1 s, declareFailed_flt a0 a1 s, declareFailed_sec a0 a1 s, declareFailed_cpx a0 a1 s, declareFailed_memc a0 a1 s, declareFailed_mov a0 a1 s, declareFailed_freeCtr a0 a1 s⟩

theorem enterSpare_pending (a0 : ℕ) (s : State) : (enterSpare a0 s).pending = s.pending := by
  unfold enterSpare
  try dsimp only
  first
    | (simp; done)
    | ((repeat' split) <;> simp; done)
    | (repeat' (first | (simp; done) | split))

theorem enterSpare_latch (a0 : ℕ) (s : State) : (enterSpare a0 s).latch = s.latch := by
  unfold enterSpare
  try dsimp only
  first
    | (simp; done)
    | ((repeat' split) <;> simp; done)
    | (repeat' (first | (simp; done) | split))

theorem enterSpare_mem (a0 : ℕ) (s : State) : (enterSpare a0 s).mem = s.mem := by
  unfold enterSpare
  try dsimp only
  first
    | (simp; done)
    | ((repeat' split) <;> simp; done)
    | (repeat' (first | (simp; done) | split))

theorem enterSpare_clk (a0 : ℕ) (s : State) : (enterSpare a0 s).clk = s.clk := by
  unfold enterSpare
  try dsimp only
  first
    | (simp; done)
    | ((repeat' split) <;> simp; done)
    | (repeat' (first | (simp; done) | split))

theorem enterSpare_thm (a0 : ℕ) (s : State) : (enterSpare a0 s).thm = s.thm := by
  unfold enterSpare
  try dsimp only
  first
    | (simp; done)
    | ((repeat' split) <;> simp; done)
    | (repeat' (first | (simp; done) | split))

theorem enterSpare_flc (a0 : ℕ) (s : State) : (enterSpare a0 s).flc = s.flc := by
  unfold enterSpare
  try dsimp only
  first
    | (simp; done)
    | ((repeat' split) <;> simp; done)
    | (repeat' (first | (simp; done) | split))

theorem enterSpare_flt (a0 : ℕ) (s : State) : (enterSpare a0 s).flt = s.flt := by
  unfold enterSpare
  try dsimp only
  first
    | (simp; done)
    | ((repeat' split) <;> simp; done)
    | (repeat' (first | (simp; done) | split))

theorem enterSpare_sec (a0 : ℕ) (s : State) : (enterSpare a0 s).sec = s.sec := by
  unfold enterSpare
  try dsimp only
  first
    | (simp; done)
    | ((repeat' split) <;> simp; done)
    | (repeat' (first | (simp; done) | split))

theorem enterSpare_cpx (a0 : ℕ) (s : State) : (enterSpare a0 s).cpx = s.cpx := by
  unfold enterSpare
  try dsimp only
  first
    | (simp; done)
    | ((repeat' split) <;> simp; done)
    | (repeat' (first | (simp; done) | split))

theorem enterSpare_memc (a0 : ℕ) (s : State) : (enterSpare a0 s).memc = s.memc := by
  unfold enterSpare
  try dsimp only
  first
    | (simp; done)
    | ((repeat' split) <;> simp; done)
    | (repeat' (first | (simp; done) | split))

theorem enterSpare_mov (a0 : ℕ) (s : State) : (enterSpare a0 s).mov = s.mov := by
  unfold enterSpare
  try dsimp only
  first
    | (simp; done)
    | ((repeat' split) <;> simp; done)
    | (repeat' (first | (simp; done) | split))

theorem enterSpare_freeCtr (a0 : ℕ) (s : State) : (enterSpare a0 s).freeCtr = s.freeCtr := by
  unfold enterSpare
  try dsimp only
  first
    | (simp; done)
    | ((repeat' split) <;> simp; done)
    | (repeat' (first | (simp; done) | split))

@[simp] theorem enterSpare_frame (a0 : ℕ) (s : State) :
    (enterSpare a0 s).pending = s.pending ∧ (enterSpare a0 s).latch = s.latch ∧ (enterSpare a0 s).mem = s.mem ∧ (enterSpare a0 s).clk = s.clk ∧ (enterSpare a0 s).thm = s.thm ∧ (enterSpare a0 s).flc = s.flc ∧ (enterSpare a0 s).flt = s.flt ∧ (enterSpare a0 s).sec = s.sec ∧ (enterSpare a0 s).cpx = s.cpx ∧ (enterSpare a0 s).memc = s.memc ∧ (enterSpare a0 s).mov = s.mov ∧ (enterSpare a0 s).freeCtr = s.freeCtr :=
  ⟨enterSpare_pending a0 s, enterSpare_latch a0 s, enterSpare_mem a0 s, enterSpare_clk a0 s, enterSpare_thm a0 s, enterSpare_flc a0 s, enterSpare_flt a0 s, enterSpare_sec a0 s, enterSpare_cpx a0 s, enterSpare_memc a0 s, enterSpare_mov a0 s, enterSpare_freeCtr a0 s⟩

@[simp] theorem enterFenced_frame (a0 : ℕ) (s : State) :
    (enterFenced a0 s).pending = s.pending ∧ (enterFenced a0 s).latch = s.latch ∧ (enterFenced a0 s).mem = s.mem ∧ (enterFenced a0 s).clk = s.clk ∧ (enterFenced a0 s).thm = s.thm ∧ (enterFenced a0 s).map = s.map ∧ (enterFenced a0 s).flc = s.flc ∧ (enterFenced a0 s).bnd = s.bnd ∧ (enterFenced a0 s).flt = s.flt ∧ (enterFenced a0 s).sec = s.sec ∧ (enterFenced a0 s).cpx = s.cpx ∧ (enterFenced a0 s).memc = s.memc ∧ (enterFenced a0 s).mov = s.mov ∧ (enterFenced a0 s).cst = s.cst ∧ (enterFenced a0 s).freeCtr = s.freeCtr := by
  unfold enterFenced
  try dsimp only
  first
    | (simp; done)
    | ((repeat' split) <;> simp; done)
    | (and_intros <;> (repeat' (first | (simp; done) | split)))

theorem rebuildEnd_pending (s : State) : (rebuildEnd s).pending = s.pending := by
  unfold rebuildEnd
  try dsimp only
  first
    | (simp; done)
    | ((repeat' split) <;> simp; done)
    | (repeat' (first | (simp; done) | split))

theorem rebuildEnd_latch (s : State) : (rebuildEnd s).latch = s.latch := by
  unfold rebuildEnd
  try dsimp only
  first
    | (simp; done)
    | ((repeat' split) <;> simp; done)
    | (repeat' (first | (simp; done) | split))

theorem rebuildEnd_mem (s : State) : (rebuildEnd s).mem = s.mem := by
  unfold rebuildEnd
  try dsimp only
  first
    | (simp; done)
    | ((repeat' split) <;> simp; done)
    | (repeat' (first | (simp; done) | split))

theorem rebuildEnd_clk (s : State) : (rebuildEnd s).clk = s.clk := by
  unfold rebuildEnd
  try dsimp only
  first
    | (simp; done)
    | ((repeat' split) <;> simp; done)
    | (repeat' (first | (simp; done) | split))

theorem rebuildEnd_thm (s : State) : (rebuildEnd s).thm = s.thm := by
  unfold rebuildEnd
  try dsimp only
  first
    | (simp; done)
    | ((repeat' split) <;> simp; done)
    | (repeat' (first | (simp; done) | split))

theorem rebuildEnd_flc (s : State) : (rebuildEnd s).flc = s.flc := by
  unfold rebuildEnd
  try dsimp only
  first
    | (simp; done)
    | ((repeat' split) <;> simp; done)
    | (repeat' (first | (simp; done) | split))

theorem rebuildEnd_flt (s : State) : (rebuildEnd s).flt = s.flt := by
  unfold rebuildEnd
  try dsimp only
  first
    | (simp; done)
    | ((repeat' split) <;> simp; done)
    | (repeat' (first | (simp; done) | split))

theorem rebuildEnd_sec (s : State) : (rebuildEnd s).sec = s.sec := by
  unfold rebuildEnd
  try dsimp only
  first
    | (simp; done)
    | ((repeat' split) <;> simp; done)
    | (repeat' (first | (simp; done) | split))

theorem rebuildEnd_cpx (s : State) : (rebuildEnd s).cpx = s.cpx := by
  unfold rebuildEnd
  try dsimp only
  first
    | (simp; done)
    | ((repeat' split) <;> simp; done)
    | (repeat' (first | (simp; done) | split))

theorem rebuildEnd_memc (s : State) : (rebuildEnd s).memc = s.memc := by
  unfold rebuildEnd
  try dsimp only
  first
    | (simp; done)
    | ((repeat' split) <;> simp; done)
    | (repeat' (first | (simp; done) | split))

theorem rebuildEnd_mov (s : State) : (rebuildEnd s).mov = s.mov := by
  unfold rebuildEnd
  try dsimp only
  first
    | (simp; done)
    | ((repeat' split) <;> simp; done)
    | (repeat' (first | (simp; done) | split))

theorem rebuildEnd_freeCtr (s : State) : (rebuildEnd s).freeCtr = s.freeCtr := by
  unfold rebuildEnd
  try dsimp only
  first
    | (simp; done)
    | ((repeat' split) <;> simp; done)
    | (repeat' (first | (simp; done) | split))

@[simp] theorem rebuildEnd_frame (s : State) :
    (rebuildEnd s).pending = s.pending ∧ (rebuildEnd s).latch = s.latch ∧ (rebuildEnd s).mem = s.mem ∧ (rebuildEnd s).clk = s.clk ∧ (rebuildEnd s).thm = s.thm ∧ (rebuildEnd s).flc = s.flc ∧ (rebuildEnd s).flt = s.flt ∧ (rebuildEnd s).sec = s.sec ∧ (rebuildEnd s).cpx = s.cpx ∧ (rebuildEnd s).memc = s.memc ∧ (rebuildEnd s).mov = s.mov ∧ (rebuildEnd s).freeCtr = s.freeCtr :=
  ⟨rebuildEnd_pending s, rebuildEnd_latch s, rebuildEnd_mem s, rebuildEnd_clk s, rebuildEnd_thm s, rebuildEnd_flc s, rebuildEnd_flt s, rebuildEnd_sec s, rebuildEnd_cpx s, rebuildEnd_memc s, rebuildEnd_mov s, rebuildEnd_freeCtr s⟩

@[simp] theorem beginAdmission_frame (a0 : ℕ) (a1 : Admission) (s : State) :
    (beginAdmission a0 a1 s).pending = s.pending ∧ (beginAdmission a0 a1 s).regs = s.regs ∧ (beginAdmission a0 a1 s).latch = s.latch ∧ (beginAdmission a0 a1 s).mem = s.mem ∧ (beginAdmission a0 a1 s).sys = s.sys ∧ (beginAdmission a0 a1 s).clk = s.clk ∧ (beginAdmission a0 a1 s).thm = s.thm ∧ (beginAdmission a0 a1 s).tck = s.tck ∧ (beginAdmission a0 a1 s).hif = s.hif ∧ (beginAdmission a0 a1 s).stm = s.stm ∧ (beginAdmission a0 a1 s).map = s.map ∧ (beginAdmission a0 a1 s).flc = s.flc ∧ (beginAdmission a0 a1 s).bnd = s.bnd ∧ (beginAdmission a0 a1 s).flt = s.flt ∧ (beginAdmission a0 a1 s).sec = s.sec ∧ (beginAdmission a0 a1 s).cpx = s.cpx ∧ (beginAdmission a0 a1 s).memc = s.memc ∧ (beginAdmission a0 a1 s).mov = s.mov ∧ (beginAdmission a0 a1 s).cst = s.cst ∧ (beginAdmission a0 a1 s).lnt = s.lnt ∧ (beginAdmission a0 a1 s).out = s.out ∧ (beginAdmission a0 a1 s).freeCtr = s.freeCtr := by
  unfold beginAdmission
  try dsimp only
  first
    | (simp; done)
    | ((repeat' split) <;> simp; done)
    | (and_intros <;> (repeat' (first | (simp; done) | split)))

@[simp] theorem admissionDone_frame (a0 : ℕ) (a1 : ℕ) (a2 : Admission) (s : State) :
    (admissionDone a0 a1 a2 s).pending = s.pending ∧ (admissionDone a0 a1 a2 s).latch = s.latch ∧ (admissionDone a0 a1 a2 s).mem = s.mem ∧ (admissionDone a0 a1 a2 s).clk = s.clk ∧ (admissionDone a0 a1 a2 s).thm = s.thm ∧ (admissionDone a0 a1 a2 s).tck = s.tck ∧ (admissionDone a0 a1 a2 s).hif = s.hif ∧ (admissionDone a0 a1 a2 s).stm = s.stm ∧ (admissionDone a0 a1 a2 s).map = s.map ∧ (admissionDone a0 a1 a2 s).flc = s.flc ∧ (admissionDone a0 a1 a2 s).bnd = s.bnd ∧ (admissionDone a0 a1 a2 s).mbr = s.mbr ∧ (admissionDone a0 a1 a2 s).flt = s.flt ∧ (admissionDone a0 a1 a2 s).sec = s.sec ∧ (admissionDone a0 a1 a2 s).cpx = s.cpx ∧ (admissionDone a0 a1 a2 s).memc = s.memc ∧ (admissionDone a0 a1 a2 s).mov = s.mov ∧ (admissionDone a0 a1 a2 s).cst = s.cst ∧ (admissionDone a0 a1 a2 s).freeCtr = s.freeCtr := by
  unfold admissionDone
  try dsimp only
  first
    | (simp; done)
    | ((repeat' split) <;> simp; done)
    | (and_intros <;> (repeat' (first | (simp; done) | split)))

@[simp] theorem portBlank_frame (a0 : ℕ) (s : State) :
    (portBlank a0 s).pending = s.pending ∧ (portBlank a0 s).latch = s.latch ∧ (portBlank a0 s).mem = s.mem ∧ (portBlank a0 s).sys = s.sys ∧ (portBlank a0 s).clk = s.clk ∧ (portBlank a0 s).thm = s.thm ∧ (portBlank a0 s).tck = s.tck ∧ (portBlank a0 s).hif = s.hif ∧ (portBlank a0 s).stm = s.stm ∧ (portBlank a0 s).map = s.map ∧ (portBlank a0 s).flc = s.flc ∧ (portBlank a0 s).mbr = s.mbr ∧ (portBlank a0 s).flt = s.flt ∧ (portBlank a0 s).sec = s.sec ∧ (portBlank a0 s).cpx = s.cpx ∧ (portBlank a0 s).memc = s.memc ∧ (portBlank a0 s).mov = s.mov ∧ (portBlank a0 s).cst = s.cst ∧ (portBlank a0 s).lnt = s.lnt ∧ (portBlank a0 s).out = s.out ∧ (portBlank a0 s).freeCtr = s.freeCtr := by
  unfold portBlank
  try dsimp only
  first
    | (simp; done)
    | ((repeat' split) <;> simp; done)
    | (and_intros <;> (repeat' (first | (simp; done) | split)))

@[simp] theorem fitTarget_frame (a0 : ℕ) (a1 : TargetSeen) (s : State) :
    (fitTarget a0 a1 s).pending = s.pending ∧ (fitTarget a0 a1 s).latch = s.latch ∧ (fitTarget a0 a1 s).mem = s.mem ∧ (fitTarget a0 a1 s).clk = s.clk ∧ (fitTarget a0 a1 s).thm = s.thm ∧ (fitTarget a0 a1 s).tck = s.tck ∧ (fitTarget a0 a1 s).hif = s.hif ∧ (fitTarget a0 a1 s).stm = s.stm ∧ (fitTarget a0 a1 s).map = s.map ∧ (fitTarget a0 a1 s).bnd = s.bnd ∧ (fitTarget a0 a1 s).mbr = s.mbr ∧ (fitTarget a0 a1 s).flt = s.flt ∧ (fitTarget a0 a1 s).sec = s.sec ∧ (fitTarget a0 a1 s).cpx = s.cpx ∧ (fitTarget a0 a1 s).memc = s.memc ∧ (fitTarget a0 a1 s).mov = s.mov ∧ (fitTarget a0 a1 s).cst = s.cst ∧ (fitTarget a0 a1 s).out = s.out ∧ (fitTarget a0 a1 s).freeCtr = s.freeCtr := by
  unfold fitTarget
  try dsimp only
  first
    | (simp; done)
    | ((repeat' split) <;> simp; done)
    | (and_intros <;> (repeat' (first | (simp; done) | split)))

@[simp] theorem fitChannel_frame (a0 : ℕ) (s : State) :
    (fitChannel a0 s).pending = s.pending ∧ (fitChannel a0 s).latch = s.latch ∧ (fitChannel a0 s).mem = s.mem ∧ (fitChannel a0 s).clk = s.clk ∧ (fitChannel a0 s).thm = s.thm ∧ (fitChannel a0 s).tck = s.tck ∧ (fitChannel a0 s).hif = s.hif ∧ (fitChannel a0 s).stm = s.stm ∧ (fitChannel a0 s).map = s.map ∧ (fitChannel a0 s).bnd = s.bnd ∧ (fitChannel a0 s).mbr = s.mbr ∧ (fitChannel a0 s).flt = s.flt ∧ (fitChannel a0 s).sec = s.sec ∧ (fitChannel a0 s).cpx = s.cpx ∧ (fitChannel a0 s).memc = s.memc ∧ (fitChannel a0 s).mov = s.mov ∧ (fitChannel a0 s).cst = s.cst ∧ (fitChannel a0 s).out = s.out ∧ (fitChannel a0 s).freeCtr = s.freeCtr := by
  unfold fitChannel
  try dsimp only
  first
    | (simp; done)
    | ((repeat' split) <;> simp; done)
    | (and_intros <;> (repeat' (first | (simp; done) | split)))

@[simp] theorem fitPort_frame (a0 : ℕ) (a1 : List TargetSeen) (a2 : List ℕ) (s : State) :
    (fitPort a0 a1 a2 s).pending = s.pending ∧ (fitPort a0 a1 a2 s).latch = s.latch ∧ (fitPort a0 a1 a2 s).mem = s.mem ∧ (fitPort a0 a1 a2 s).clk = s.clk ∧ (fitPort a0 a1 a2 s).thm = s.thm ∧ (fitPort a0 a1 a2 s).tck = s.tck ∧ (fitPort a0 a1 a2 s).hif = s.hif ∧ (fitPort a0 a1 a2 s).stm = s.stm ∧ (fitPort a0 a1 a2 s).map = s.map ∧ (fitPort a0 a1 a2 s).bnd = s.bnd ∧ (fitPort a0 a1 a2 s).flt = s.flt ∧ (fitPort a0 a1 a2 s).sec = s.sec ∧ (fitPort a0 a1 a2 s).cpx = s.cpx ∧ (fitPort a0 a1 a2 s).memc = s.memc ∧ (fitPort a0 a1 a2 s).mov = s.mov ∧ (fitPort a0 a1 a2 s).cst = s.cst ∧ (fitPort a0 a1 a2 s).out = s.out ∧ (fitPort a0 a1 a2 s).freeCtr = s.freeCtr := by
  unfold fitPort
  try dsimp only
  first
    | (simp; done)
    | ((repeat' split) <;> simp; done)
    | (and_intros <;> (repeat' (first | (simp; done) | split)))

@[simp] theorem factoryPort_frame (a0 : ℕ) (a1 : List (ℕ × ℕ × ℕ)) (s : State) :
    (factoryPort a0 a1 s).pending = s.pending ∧ (factoryPort a0 a1 s).regs = s.regs ∧ (factoryPort a0 a1 s).latch = s.latch ∧ (factoryPort a0 a1 s).mem = s.mem ∧ (factoryPort a0 a1 s).sys = s.sys ∧ (factoryPort a0 a1 s).clk = s.clk ∧ (factoryPort a0 a1 s).thm = s.thm ∧ (factoryPort a0 a1 s).tck = s.tck ∧ (factoryPort a0 a1 s).hif = s.hif ∧ (factoryPort a0 a1 s).stm = s.stm ∧ (factoryPort a0 a1 s).map = s.map ∧ (factoryPort a0 a1 s).mbr = s.mbr ∧ (factoryPort a0 a1 s).flt = s.flt ∧ (factoryPort a0 a1 s).sec = s.sec ∧ (factoryPort a0 a1 s).cpx = s.cpx ∧ (factoryPort a0 a1 s).memc = s.memc ∧ (factoryPort a0 a1 s).mov = s.mov ∧ (factoryPort a0 a1 s).cst = s.cst ∧ (factoryPort a0 a1 s).lnt = s.lnt ∧ (factoryPort a0 a1 s).out = s.out ∧ (factoryPort a0 a1 s).freeCtr = s.freeCtr := by
  unfold factoryPort
  try dsimp only
  first
    | (simp; done)
    | ((repeat' split) <;> simp; done)
    | (and_intros <;> (repeat' (first | (simp; done) | split)))

@[simp] theorem powerUp_frame (a0 : ℕ) (s : State) :
    (powerUp a0 s).pending = s.pending ∧ (powerUp a0 s).latch = s.latch ∧ (powerUp a0 s).mem = s.mem ∧ (powerUp a0 s).clk = s.clk ∧ (powerUp a0 s).thm = s.thm ∧ (powerUp a0 s).map = s.map ∧ (powerUp a0 s).flc = s.flc ∧ (powerUp a0 s).bnd = s.bnd ∧ (powerUp a0 s).flt = s.flt ∧ (powerUp a0 s).sec = s.sec ∧ (powerUp a0 s).cpx = s.cpx ∧ (powerUp a0 s).memc = s.memc ∧ (powerUp a0 s).mov = s.mov ∧ (powerUp a0 s).cst = s.cst ∧ (powerUp a0 s).freeCtr = s.freeCtr := by
  unfold powerUp
  try dsimp only
  first
    | (simp; done)
    | ((repeat' split) <;> simp; done)
    | (and_intros <;> (repeat' (first | (simp; done) | split)))

@[simp] theorem powerLatch_frame (a0 : ℕ) (a1 : Bool) (s : State) :
    (powerLatch a0 a1 s).pending = s.pending ∧ (powerLatch a0 a1 s).latch = s.latch ∧ (powerLatch a0 a1 s).mem = s.mem ∧ (powerLatch a0 a1 s).clk = s.clk ∧ (powerLatch a0 a1 s).thm = s.thm ∧ (powerLatch a0 a1 s).tck = s.tck ∧ (powerLatch a0 a1 s).hif = s.hif ∧ (powerLatch a0 a1 s).stm = s.stm ∧ (powerLatch a0 a1 s).map = s.map ∧ (powerLatch a0 a1 s).flc = s.flc ∧ (powerLatch a0 a1 s).bnd = s.bnd ∧ (powerLatch a0 a1 s).flt = s.flt ∧ (powerLatch a0 a1 s).sec = s.sec ∧ (powerLatch a0 a1 s).cpx = s.cpx ∧ (powerLatch a0 a1 s).memc = s.memc ∧ (powerLatch a0 a1 s).mov = s.mov ∧ (powerLatch a0 a1 s).cst = s.cst ∧ (powerLatch a0 a1 s).out = s.out ∧ (powerLatch a0 a1 s).freeCtr = s.freeCtr := by
  unfold powerLatch
  try dsimp only
  first
    | (simp; done)
    | ((repeat' split) <;> simp; done)
    | (and_intros <;> (repeat' (first | (simp; done) | split)))

@[simp] theorem admitReq_frame (a0 : Src) (a1 : ℕ) (a2 : ℕ) (a3 : PortSt) (s : State) :
    (admitReq a0 a1 a2 a3 s).pending = s.pending ∧ (admitReq a0 a1 a2 a3 s).latch = s.latch ∧ (admitReq a0 a1 a2 a3 s).mem = s.mem ∧ (admitReq a0 a1 a2 a3 s).clk = s.clk ∧ (admitReq a0 a1 a2 a3 s).thm = s.thm ∧ (admitReq a0 a1 a2 a3 s).tck = s.tck ∧ (admitReq a0 a1 a2 a3 s).hif = s.hif ∧ (admitReq a0 a1 a2 a3 s).stm = s.stm ∧ (admitReq a0 a1 a2 a3 s).map = s.map ∧ (admitReq a0 a1 a2 a3 s).flc = s.flc ∧ (admitReq a0 a1 a2 a3 s).bnd = s.bnd ∧ (admitReq a0 a1 a2 a3 s).flt = s.flt ∧ (admitReq a0 a1 a2 a3 s).sec = s.sec ∧ (admitReq a0 a1 a2 a3 s).cpx = s.cpx ∧ (admitReq a0 a1 a2 a3 s).memc = s.memc ∧ (admitReq a0 a1 a2 a3 s).mov = s.mov ∧ (admitReq a0 a1 a2 a3 s).cst = s.cst ∧ (admitReq a0 a1 a2 a3 s).freeCtr = s.freeCtr := by
  unfold admitReq
  try dsimp only
  first
    | (simp; done)
    | ((repeat' split) <;> simp; done)
    | (and_intros <;> (repeat' (first | (simp; done) | split)))

/-! ### Pairs -/

@[simp] theorem setPair_frame (a0 : ℕ) (a1 : Pair → Pair) (s : State) :
    (setPair a0 a1 s).pending = s.pending ∧ (setPair a0 a1 s).regs = s.regs ∧ (setPair a0 a1 s).latch = s.latch ∧ (setPair a0 a1 s).mem = s.mem ∧ (setPair a0 a1 s).sys = s.sys ∧ (setPair a0 a1 s).clk = s.clk ∧ (setPair a0 a1 s).thm = s.thm ∧ (setPair a0 a1 s).tck = s.tck ∧ (setPair a0 a1 s).hif = s.hif ∧ (setPair a0 a1 s).stm = s.stm ∧ (setPair a0 a1 s).map = s.map ∧ (setPair a0 a1 s).flc = s.flc ∧ (setPair a0 a1 s).bnd = s.bnd ∧ (setPair a0 a1 s).mbr = s.mbr ∧ (setPair a0 a1 s).flt = s.flt ∧ (setPair a0 a1 s).sec = s.sec ∧ (setPair a0 a1 s).memc = s.memc ∧ (setPair a0 a1 s).mov = s.mov ∧ (setPair a0 a1 s).cst = s.cst ∧ (setPair a0 a1 s).lnt = s.lnt ∧ (setPair a0 a1 s).out = s.out ∧ (setPair a0 a1 s).freeCtr = s.freeCtr := by
  unfold setPair
  try dsimp only
  first
    | (simp; done)
    | ((repeat' split) <;> simp; done)
    | (and_intros <;> (repeat' (first | (simp; done) | split)))

theorem pairFail_pending (a0 : ℕ) (s : State) : (pairFail a0 s).pending = s.pending := by
  unfold pairFail
  try dsimp only
  first
    | (simp; done)
    | ((repeat' split) <;> simp; done)
    | (repeat' (first | (simp; done) | split))

theorem pairFail_latch (a0 : ℕ) (s : State) : (pairFail a0 s).latch = s.latch := by
  unfold pairFail
  try dsimp only
  first
    | (simp; done)
    | ((repeat' split) <;> simp; done)
    | (repeat' (first | (simp; done) | split))

theorem pairFail_mem (a0 : ℕ) (s : State) : (pairFail a0 s).mem = s.mem := by
  unfold pairFail
  try dsimp only
  first
    | (simp; done)
    | ((repeat' split) <;> simp; done)
    | (repeat' (first | (simp; done) | split))

theorem pairFail_clk (a0 : ℕ) (s : State) : (pairFail a0 s).clk = s.clk := by
  unfold pairFail
  try dsimp only
  first
    | (simp; done)
    | ((repeat' split) <;> simp; done)
    | (repeat' (first | (simp; done) | split))

theorem pairFail_thm (a0 : ℕ) (s : State) : (pairFail a0 s).thm = s.thm := by
  unfold pairFail
  try dsimp only
  first
    | (simp; done)
    | ((repeat' split) <;> simp; done)
    | (repeat' (first | (simp; done) | split))

theorem pairFail_flt (a0 : ℕ) (s : State) : (pairFail a0 s).flt = s.flt := by
  unfold pairFail
  try dsimp only
  first
    | (simp; done)
    | ((repeat' split) <;> simp; done)
    | (repeat' (first | (simp; done) | split))

theorem pairFail_memc (a0 : ℕ) (s : State) : (pairFail a0 s).memc = s.memc := by
  unfold pairFail
  try dsimp only
  first
    | (simp; done)
    | ((repeat' split) <;> simp; done)
    | (repeat' (first | (simp; done) | split))

theorem pairFail_mov (a0 : ℕ) (s : State) : (pairFail a0 s).mov = s.mov := by
  unfold pairFail
  try dsimp only
  first
    | (simp; done)
    | ((repeat' split) <;> simp; done)
    | (repeat' (first | (simp; done) | split))

theorem pairFail_freeCtr (a0 : ℕ) (s : State) : (pairFail a0 s).freeCtr = s.freeCtr := by
  unfold pairFail
  try dsimp only
  first
    | (simp; done)
    | ((repeat' split) <;> simp; done)
    | (repeat' (first | (simp; done) | split))

@[simp] theorem pairFail_frame (a0 : ℕ) (s : State) :
    (pairFail a0 s).pending = s.pending ∧ (pairFail a0 s).latch = s.latch ∧ (pairFail a0 s).mem = s.mem ∧ (pairFail a0 s).clk = s.clk ∧ (pairFail a0 s).thm = s.thm ∧ (pairFail a0 s).flt = s.flt ∧ (pairFail a0 s).memc = s.memc ∧ (pairFail a0 s).mov = s.mov ∧ (pairFail a0 s).freeCtr = s.freeCtr :=
  ⟨pairFail_pending a0 s, pairFail_latch a0 s, pairFail_mem a0 s, pairFail_clk a0 s, pairFail_thm a0 s, pairFail_flt a0 s, pairFail_memc a0 s, pairFail_mov a0 s, pairFail_freeCtr a0 s⟩

@[simp] theorem pairRestart_frame (a0 : ℕ) (s : State) :
    (pairRestart a0 s).pending = s.pending ∧ (pairRestart a0 s).latch = s.latch ∧ (pairRestart a0 s).mem = s.mem ∧ (pairRestart a0 s).clk = s.clk ∧ (pairRestart a0 s).thm = s.thm ∧ (pairRestart a0 s).tck = s.tck ∧ (pairRestart a0 s).hif = s.hif ∧ (pairRestart a0 s).stm = s.stm ∧ (pairRestart a0 s).map = s.map ∧ (pairRestart a0 s).bnd = s.bnd ∧ (pairRestart a0 s).flt = s.flt ∧ (pairRestart a0 s).sec = s.sec ∧ (pairRestart a0 s).memc = s.memc ∧ (pairRestart a0 s).mov = s.mov ∧ (pairRestart a0 s).cst = s.cst ∧ (pairRestart a0 s).out = s.out ∧ (pairRestart a0 s).freeCtr = s.freeCtr := by
  unfold pairRestart
  try dsimp only
  first
    | (simp; done)
    | ((repeat' split) <;> simp; done)
    | (and_intros <;> (repeat' (first | (simp; done) | split)))

theorem pairFault_pending (a0 : ℕ) (a1 : ℕ) (a2 : ℕ) (s : State) : (pairFault a0 a1 a2 s).pending = s.pending := by
  unfold pairFault
  try dsimp only
  first
    | (simp; done)
    | ((repeat' split) <;> simp; done)
    | (repeat' (first | (simp; done) | split))

theorem pairFault_latch (a0 : ℕ) (a1 : ℕ) (a2 : ℕ) (s : State) : (pairFault a0 a1 a2 s).latch = s.latch := by
  unfold pairFault
  try dsimp only
  first
    | (simp; done)
    | ((repeat' split) <;> simp; done)
    | (repeat' (first | (simp; done) | split))

theorem pairFault_mem (a0 : ℕ) (a1 : ℕ) (a2 : ℕ) (s : State) : (pairFault a0 a1 a2 s).mem = s.mem := by
  unfold pairFault
  try dsimp only
  first
    | (simp; done)
    | ((repeat' split) <;> simp; done)
    | (repeat' (first | (simp; done) | split))

theorem pairFault_clk (a0 : ℕ) (a1 : ℕ) (a2 : ℕ) (s : State) : (pairFault a0 a1 a2 s).clk = s.clk := by
  unfold pairFault
  try dsimp only
  first
    | (simp; done)
    | ((repeat' split) <;> simp; done)
    | (repeat' (first | (simp; done) | split))

theorem pairFault_thm (a0 : ℕ) (a1 : ℕ) (a2 : ℕ) (s : State) : (pairFault a0 a1 a2 s).thm = s.thm := by
  unfold pairFault
  try dsimp only
  first
    | (simp; done)
    | ((repeat' split) <;> simp; done)
    | (repeat' (first | (simp; done) | split))

theorem pairFault_flt (a0 : ℕ) (a1 : ℕ) (a2 : ℕ) (s : State) : (pairFault a0 a1 a2 s).flt = s.flt := by
  unfold pairFault
  try dsimp only
  first
    | (simp; done)
    | ((repeat' split) <;> simp; done)
    | (repeat' (first | (simp; done) | split))

theorem pairFault_memc (a0 : ℕ) (a1 : ℕ) (a2 : ℕ) (s : State) : (pairFault a0 a1 a2 s).memc = s.memc := by
  unfold pairFault
  try dsimp only
  first
    | (simp; done)
    | ((repeat' split) <;> simp; done)
    | (repeat' (first | (simp; done) | split))

theorem pairFault_mov (a0 : ℕ) (a1 : ℕ) (a2 : ℕ) (s : State) : (pairFault a0 a1 a2 s).mov = s.mov := by
  unfold pairFault
  try dsimp only
  first
    | (simp; done)
    | ((repeat' split) <;> simp; done)
    | (repeat' (first | (simp; done) | split))

theorem pairFault_freeCtr (a0 : ℕ) (a1 : ℕ) (a2 : ℕ) (s : State) : (pairFault a0 a1 a2 s).freeCtr = s.freeCtr := by
  unfold pairFault
  try dsimp only
  first
    | (simp; done)
    | ((repeat' split) <;> simp; done)
    | (repeat' (first | (simp; done) | split))

@[simp] theorem pairFault_frame (a0 : ℕ) (a1 : ℕ) (a2 : ℕ) (s : State) :
    (pairFault a0 a1 a2 s).pending = s.pending ∧ (pairFault a0 a1 a2 s).latch = s.latch ∧ (pairFault a0 a1 a2 s).mem = s.mem ∧ (pairFault a0 a1 a2 s).clk = s.clk ∧ (pairFault a0 a1 a2 s).thm = s.thm ∧ (pairFault a0 a1 a2 s).flt = s.flt ∧ (pairFault a0 a1 a2 s).memc = s.memc ∧ (pairFault a0 a1 a2 s).mov = s.mov ∧ (pairFault a0 a1 a2 s).freeCtr = s.freeCtr :=
  ⟨pairFault_pending a0 a1 a2 s, pairFault_latch a0 a1 a2 s, pairFault_mem a0 a1 a2 s, pairFault_clk a0 a1 a2 s, pairFault_thm a0 a1 a2 s, pairFault_flt a0 a1 a2 s, pairFault_memc a0 a1 a2 s, pairFault_mov a0 a1 a2 s, pairFault_freeCtr a0 a1 a2 s⟩

@[simp] theorem pairRefusal_frame (a0 : ℕ) (s : State) :
    (pairRefusal a0 s).pending = s.pending ∧ (pairRefusal a0 s).latch = s.latch ∧ (pairRefusal a0 s).mem = s.mem ∧ (pairRefusal a0 s).clk = s.clk ∧ (pairRefusal a0 s).thm = s.thm ∧ (pairRefusal a0 s).tck = s.tck ∧ (pairRefusal a0 s).hif = s.hif ∧ (pairRefusal a0 s).stm = s.stm ∧ (pairRefusal a0 s).map = s.map ∧ (pairRefusal a0 s).bnd = s.bnd ∧ (pairRefusal a0 s).flt = s.flt ∧ (pairRefusal a0 s).sec = s.sec ∧ (pairRefusal a0 s).memc = s.memc ∧ (pairRefusal a0 s).mov = s.mov ∧ (pairRefusal a0 s).cst = s.cst ∧ (pairRefusal a0 s).out = s.out ∧ (pairRefusal a0 s).freeCtr = s.freeCtr := by
  unfold pairRefusal
  try dsimp only
  first
    | (simp; done)
    | ((repeat' split) <;> simp; done)
    | (and_intros <;> (repeat' (first | (simp; done) | split)))

@[simp] theorem pairMismatch_frame (a0 : ℕ) (s : State) :
    (pairMismatch a0 s).pending = s.pending ∧ (pairMismatch a0 s).latch = s.latch ∧ (pairMismatch a0 s).mem = s.mem ∧ (pairMismatch a0 s).clk = s.clk ∧ (pairMismatch a0 s).thm = s.thm ∧ (pairMismatch a0 s).hif = s.hif ∧ (pairMismatch a0 s).stm = s.stm ∧ (pairMismatch a0 s).map = s.map ∧ (pairMismatch a0 s).flc = s.flc ∧ (pairMismatch a0 s).bnd = s.bnd ∧ (pairMismatch a0 s).mbr = s.mbr ∧ (pairMismatch a0 s).flt = s.flt ∧ (pairMismatch a0 s).sec = s.sec ∧ (pairMismatch a0 s).memc = s.memc ∧ (pairMismatch a0 s).mov = s.mov ∧ (pairMismatch a0 s).cst = s.cst ∧ (pairMismatch a0 s).out = s.out ∧ (pairMismatch a0 s).freeCtr = s.freeCtr := by
  unfold pairMismatch
  try dsimp only
  first
    | (simp; done)
    | ((repeat' split) <;> simp; done)
    | (and_intros <;> (repeat' (first | (simp; done) | split)))

theorem pairEdge_pending (a0 : ℕ) (s : State) : (pairEdge a0 s).pending = s.pending := by
  unfold pairEdge
  try dsimp only
  first
    | (simp; done)
    | ((repeat' split) <;> simp; done)
    | (repeat' (first | (simp; done) | split))

theorem pairEdge_latch (a0 : ℕ) (s : State) : (pairEdge a0 s).latch = s.latch := by
  unfold pairEdge
  try dsimp only
  first
    | (simp; done)
    | ((repeat' split) <;> simp; done)
    | (repeat' (first | (simp; done) | split))

theorem pairEdge_mem (a0 : ℕ) (s : State) : (pairEdge a0 s).mem = s.mem := by
  unfold pairEdge
  try dsimp only
  first
    | (simp; done)
    | ((repeat' split) <;> simp; done)
    | (repeat' (first | (simp; done) | split))

theorem pairEdge_clk (a0 : ℕ) (s : State) : (pairEdge a0 s).clk = s.clk := by
  unfold pairEdge
  try dsimp only
  first
    | (simp; done)
    | ((repeat' split) <;> simp; done)
    | (repeat' (first | (simp; done) | split))

theorem pairEdge_thm (a0 : ℕ) (s : State) : (pairEdge a0 s).thm = s.thm := by
  unfold pairEdge
  try dsimp only
  first
    | (simp; done)
    | ((repeat' split) <;> simp; done)
    | (repeat' (first | (simp; done) | split))

theorem pairEdge_flt (a0 : ℕ) (s : State) : (pairEdge a0 s).flt = s.flt := by
  unfold pairEdge
  try dsimp only
  first
    | (simp; done)
    | ((repeat' split) <;> simp; done)
    | (repeat' (first | (simp; done) | split))

theorem pairEdge_memc (a0 : ℕ) (s : State) : (pairEdge a0 s).memc = s.memc := by
  unfold pairEdge
  try dsimp only
  first
    | (simp; done)
    | ((repeat' split) <;> simp; done)
    | (repeat' (first | (simp; done) | split))

theorem pairEdge_mov (a0 : ℕ) (s : State) : (pairEdge a0 s).mov = s.mov := by
  unfold pairEdge
  try dsimp only
  first
    | (simp; done)
    | ((repeat' split) <;> simp; done)
    | (repeat' (first | (simp; done) | split))

theorem pairEdge_freeCtr (a0 : ℕ) (s : State) : (pairEdge a0 s).freeCtr = s.freeCtr := by
  unfold pairEdge
  try dsimp only
  first
    | (simp; done)
    | ((repeat' split) <;> simp; done)
    | (repeat' (first | (simp; done) | split))

@[simp] theorem pairEdge_frame (a0 : ℕ) (s : State) :
    (pairEdge a0 s).pending = s.pending ∧ (pairEdge a0 s).latch = s.latch ∧ (pairEdge a0 s).mem = s.mem ∧ (pairEdge a0 s).clk = s.clk ∧ (pairEdge a0 s).thm = s.thm ∧ (pairEdge a0 s).flt = s.flt ∧ (pairEdge a0 s).memc = s.memc ∧ (pairEdge a0 s).mov = s.mov ∧ (pairEdge a0 s).freeCtr = s.freeCtr :=
  ⟨pairEdge_pending a0 s, pairEdge_latch a0 s, pairEdge_mem a0 s, pairEdge_clk a0 s, pairEdge_thm a0 s, pairEdge_flt a0 s, pairEdge_memc a0 s, pairEdge_mov a0 s, pairEdge_freeCtr a0 s⟩

@[simp] theorem storeLedgerCtl_frame (a0 : Word) (s : State) :
    (storeLedgerCtl a0 s).pending = s.pending ∧ (storeLedgerCtl a0 s).latch = s.latch ∧ (storeLedgerCtl a0 s).mem = s.mem ∧ (storeLedgerCtl a0 s).clk = s.clk ∧ (storeLedgerCtl a0 s).thm = s.thm ∧ (storeLedgerCtl a0 s).tck = s.tck ∧ (storeLedgerCtl a0 s).hif = s.hif ∧ (storeLedgerCtl a0 s).stm = s.stm ∧ (storeLedgerCtl a0 s).map = s.map ∧ (storeLedgerCtl a0 s).bnd = s.bnd ∧ (storeLedgerCtl a0 s).flt = s.flt ∧ (storeLedgerCtl a0 s).sec = s.sec ∧ (storeLedgerCtl a0 s).memc = s.memc ∧ (storeLedgerCtl a0 s).mov = s.mov ∧ (storeLedgerCtl a0 s).cst = s.cst ∧ (storeLedgerCtl a0 s).out = s.out ∧ (storeLedgerCtl a0 s).freeCtr = s.freeCtr := by
  unfold storeLedgerCtl
  try dsimp only
  first
    | (simp; done)
    | ((repeat' split) <;> simp; done)
    | (and_intros <;> (repeat' (first | (simp; done) | split)))

/-! ### SecCore -/

@[simp] theorem setLane_frame (a0 : ℕ) (a1 : Lane → Lane) (s : State) :
    (setLane a0 a1 s).pending = s.pending ∧ (setLane a0 a1 s).regs = s.regs ∧ (setLane a0 a1 s).latch = s.latch ∧ (setLane a0 a1 s).mem = s.mem ∧ (setLane a0 a1 s).sys = s.sys ∧ (setLane a0 a1 s).clk = s.clk ∧ (setLane a0 a1 s).thm = s.thm ∧ (setLane a0 a1 s).tck = s.tck ∧ (setLane a0 a1 s).hif = s.hif ∧ (setLane a0 a1 s).stm = s.stm ∧ (setLane a0 a1 s).map = s.map ∧ (setLane a0 a1 s).flc = s.flc ∧ (setLane a0 a1 s).bnd = s.bnd ∧ (setLane a0 a1 s).mbr = s.mbr ∧ (setLane a0 a1 s).flt = s.flt ∧ (setLane a0 a1 s).cpx = s.cpx ∧ (setLane a0 a1 s).memc = s.memc ∧ (setLane a0 a1 s).mov = s.mov ∧ (setLane a0 a1 s).cst = s.cst ∧ (setLane a0 a1 s).lnt = s.lnt ∧ (setLane a0 a1 s).out = s.out ∧ (setLane a0 a1 s).freeCtr = s.freeCtr := by
  unfold setLane
  try dsimp only
  first
    | (simp; done)
    | ((repeat' split) <;> simp; done)
    | (and_intros <;> (repeat' (first | (simp; done) | split)))

@[simp] theorem setBank_frame (a0 : ℕ) (a1 : Bank → Bank) (s : State) :
    (setBank a0 a1 s).pending = s.pending ∧ (setBank a0 a1 s).regs = s.regs ∧ (setBank a0 a1 s).latch = s.latch ∧ (setBank a0 a1 s).mem = s.mem ∧ (setBank a0 a1 s).sys = s.sys ∧ (setBank a0 a1 s).clk = s.clk ∧ (setBank a0 a1 s).thm = s.thm ∧ (setBank a0 a1 s).tck = s.tck ∧ (setBank a0 a1 s).hif = s.hif ∧ (setBank a0 a1 s).stm = s.stm ∧ (setBank a0 a1 s).map = s.map ∧ (setBank a0 a1 s).flc = s.flc ∧ (setBank a0 a1 s).bnd = s.bnd ∧ (setBank a0 a1 s).mbr = s.mbr ∧ (setBank a0 a1 s).flt = s.flt ∧ (setBank a0 a1 s).sec = s.sec ∧ (setBank a0 a1 s).cpx = s.cpx ∧ (setBank a0 a1 s).memc = s.memc ∧ (setBank a0 a1 s).mov = s.mov ∧ (setBank a0 a1 s).lnt = s.lnt ∧ (setBank a0 a1 s).out = s.out ∧ (setBank a0 a1 s).freeCtr = s.freeCtr := by
  unfold setBank
  try dsimp only
  first
    | (simp; done)
    | ((repeat' split) <;> simp; done)
    | (and_intros <;> (repeat' (first | (simp; done) | split)))

@[simp] theorem bankRead_frame (a0 : ℕ) (a1 : ℕ) (s : State) :
    (bankRead a0 a1 s).pending = s.pending ∧ (bankRead a0 a1 s).latch = s.latch ∧ (bankRead a0 a1 s).mem = s.mem ∧ (bankRead a0 a1 s).clk = s.clk ∧ (bankRead a0 a1 s).thm = s.thm ∧ (bankRead a0 a1 s).tck = s.tck ∧ (bankRead a0 a1 s).hif = s.hif ∧ (bankRead a0 a1 s).stm = s.stm ∧ (bankRead a0 a1 s).map = s.map ∧ (bankRead a0 a1 s).flc = s.flc ∧ (bankRead a0 a1 s).bnd = s.bnd ∧ (bankRead a0 a1 s).mbr = s.mbr ∧ (bankRead a0 a1 s).flt = s.flt ∧ (bankRead a0 a1 s).sec = s.sec ∧ (bankRead a0 a1 s).cpx = s.cpx ∧ (bankRead a0 a1 s).memc = s.memc ∧ (bankRead a0 a1 s).mov = s.mov ∧ (bankRead a0 a1 s).out = s.out ∧ (bankRead a0 a1 s).freeCtr = s.freeCtr := by
  unfold bankRead
  try dsimp only
  first
    | (simp; done)
    | ((repeat' split) <;> simp; done)
    | (and_intros <;> (repeat' (first | (simp; done) | split)))

@[simp] theorem keepLines_frame (a0 : ℕ → Bool) (s : State) :
    (keepLines a0 s).pending = s.pending ∧ (keepLines a0 s).regs = s.regs ∧ (keepLines a0 s).latch = s.latch ∧ (keepLines a0 s).mem = s.mem ∧ (keepLines a0 s).sys = s.sys ∧ (keepLines a0 s).clk = s.clk ∧ (keepLines a0 s).thm = s.thm ∧ (keepLines a0 s).tck = s.tck ∧ (keepLines a0 s).hif = s.hif ∧ (keepLines a0 s).stm = s.stm ∧ (keepLines a0 s).map = s.map ∧ (keepLines a0 s).flc = s.flc ∧ (keepLines a0 s).bnd = s.bnd ∧ (keepLines a0 s).mbr = s.mbr ∧ (keepLines a0 s).flt = s.flt ∧ (keepLines a0 s).sec = s.sec ∧ (keepLines a0 s).cpx = s.cpx ∧ (keepLines a0 s).memc = s.memc ∧ (keepLines a0 s).mov = s.mov ∧ (keepLines a0 s).lnt = s.lnt ∧ (keepLines a0 s).out = s.out ∧ (keepLines a0 s).freeCtr = s.freeCtr := by
  unfold keepLines
  try dsimp only
  first
    | (simp; done)
    | ((repeat' split) <;> simp; done)
    | (and_intros <;> (repeat' (first | (simp; done) | split)))

@[simp] theorem eraseBank_frame (a0 : ℕ) (a1 : ℕ) (s : State) :
    (eraseBank a0 a1 s).pending = s.pending ∧ (eraseBank a0 a1 s).regs = s.regs ∧ (eraseBank a0 a1 s).latch = s.latch ∧ (eraseBank a0 a1 s).mem = s.mem ∧ (eraseBank a0 a1 s).sys = s.sys ∧ (eraseBank a0 a1 s).clk = s.clk ∧ (eraseBank a0 a1 s).thm = s.thm ∧ (eraseBank a0 a1 s).tck = s.tck ∧ (eraseBank a0 a1 s).hif = s.hif ∧ (eraseBank a0 a1 s).stm = s.stm ∧ (eraseBank a0 a1 s).map = s.map ∧ (eraseBank a0 a1 s).flc = s.flc ∧ (eraseBank a0 a1 s).bnd = s.bnd ∧ (eraseBank a0 a1 s).mbr = s.mbr ∧ (eraseBank a0 a1 s).flt = s.flt ∧ (eraseBank a0 a1 s).sec = s.sec ∧ (eraseBank a0 a1 s).cpx = s.cpx ∧ (eraseBank a0 a1 s).memc = s.memc ∧ (eraseBank a0 a1 s).mov = s.mov ∧ (eraseBank a0 a1 s).lnt = s.lnt ∧ (eraseBank a0 a1 s).out = s.out ∧ (eraseBank a0 a1 s).freeCtr = s.freeCtr := by
  unfold eraseBank
  try dsimp only
  first
    | (simp; done)
    | ((repeat' split) <;> simp; done)
    | (and_intros <;> (repeat' (first | (simp; done) | split)))

@[simp] theorem ledgerFetch_frame (a0 : ℕ) (a1 : ℕ) (s : State) :
    (ledgerFetch a0 a1 s).pending = s.pending ∧ (ledgerFetch a0 a1 s).regs = s.regs ∧ (ledgerFetch a0 a1 s).latch = s.latch ∧ (ledgerFetch a0 a1 s).mem = s.mem ∧ (ledgerFetch a0 a1 s).sys = s.sys ∧ (ledgerFetch a0 a1 s).clk = s.clk ∧ (ledgerFetch a0 a1 s).thm = s.thm ∧ (ledgerFetch a0 a1 s).tck = s.tck ∧ (ledgerFetch a0 a1 s).hif = s.hif ∧ (ledgerFetch a0 a1 s).stm = s.stm ∧ (ledgerFetch a0 a1 s).map = s.map ∧ (ledgerFetch a0 a1 s).flc = s.flc ∧ (ledgerFetch a0 a1 s).bnd = s.bnd ∧ (ledgerFetch a0 a1 s).mbr = s.mbr ∧ (ledgerFetch a0 a1 s).flt = s.flt ∧ (ledgerFetch a0 a1 s).sec = s.sec ∧ (ledgerFetch a0 a1 s).cpx = s.cpx ∧ (ledgerFetch a0 a1 s).memc = s.memc ∧ (ledgerFetch a0 a1 s).mov = s.mov ∧ (ledgerFetch a0 a1 s).lnt = s.lnt ∧ (ledgerFetch a0 a1 s).out = s.out ∧ (ledgerFetch a0 a1 s).freeCtr = s.freeCtr := by
  unfold ledgerFetch
  try dsimp only
  first
    | (simp; done)
    | ((repeat' split) <;> simp; done)
    | (and_intros <;> (repeat' (first | (simp; done) | split)))

@[simp] theorem keyRecord_frame (s : State) :
    (keyRecord s).pending = s.pending ∧ (keyRecord s).latch = s.latch ∧ (keyRecord s).mem = s.mem ∧ (keyRecord s).sys = s.sys ∧ (keyRecord s).clk = s.clk ∧ (keyRecord s).thm = s.thm ∧ (keyRecord s).tck = s.tck ∧ (keyRecord s).hif = s.hif ∧ (keyRecord s).stm = s.stm ∧ (keyRecord s).map = s.map ∧ (keyRecord s).flc = s.flc ∧ (keyRecord s).bnd = s.bnd ∧ (keyRecord s).mbr = s.mbr ∧ (keyRecord s).flt = s.flt ∧ (keyRecord s).cpx = s.cpx ∧ (keyRecord s).memc = s.memc ∧ (keyRecord s).mov = s.mov ∧ (keyRecord s).lnt = s.lnt ∧ (keyRecord s).out = s.out ∧ (keyRecord s).freeCtr = s.freeCtr := by
  unfold keyRecord
  try dsimp only
  first
    | (simp; done)
    | ((repeat' split) <;> simp; done)
    | (and_intros <;> (repeat' (first | (simp; done) | split)))

@[simp] theorem retireLane_frame (a0 : ℕ) (s : State) :
    (retireLane a0 s).pending = s.pending ∧ (retireLane a0 s).latch = s.latch ∧ (retireLane a0 s).mem = s.mem ∧ (retireLane a0 s).clk = s.clk ∧ (retireLane a0 s).thm = s.thm ∧ (retireLane a0 s).tck = s.tck ∧ (retireLane a0 s).stm = s.stm ∧ (retireLane a0 s).map = s.map ∧ (retireLane a0 s).flc = s.flc ∧ (retireLane a0 s).bnd = s.bnd ∧ (retireLane a0 s).mbr = s.mbr ∧ (retireLane a0 s).flt = s.flt ∧ (retireLane a0 s).cpx = s.cpx ∧ (retireLane a0 s).memc = s.memc ∧ (retireLane a0 s).mov = s.mov ∧ (retireLane a0 s).out = s.out ∧ (retireLane a0 s).freeCtr = s.freeCtr := by
  unfold retireLane
  try dsimp only
  first
    | (simp; done)
    | ((repeat' split) <;> simp; done)
    | (and_intros <;> (repeat' (first | (simp; done) | split)))

@[simp] theorem laneKat_frame (a0 : List ℕ) (s : State) :
    (laneKat a0 s).pending = s.pending ∧ (laneKat a0 s).latch = s.latch ∧ (laneKat a0 s).mem = s.mem ∧ (laneKat a0 s).clk = s.clk ∧ (laneKat a0 s).thm = s.thm ∧ (laneKat a0 s).tck = s.tck ∧ (laneKat a0 s).stm = s.stm ∧ (laneKat a0 s).map = s.map ∧ (laneKat a0 s).flc = s.flc ∧ (laneKat a0 s).bnd = s.bnd ∧ (laneKat a0 s).mbr = s.mbr ∧ (laneKat a0 s).flt = s.flt ∧ (laneKat a0 s).cpx = s.cpx ∧ (laneKat a0 s).memc = s.memc ∧ (laneKat a0 s).mov = s.mov ∧ (laneKat a0 s).out = s.out ∧ (laneKat a0 s).freeCtr = s.freeCtr := by
  unfold laneKat
  try dsimp only
  first
    | (simp; done)
    | ((repeat' split) <;> simp; done)
    | (and_intros <;> (repeat' (first | (simp; done) | split)))

@[simp] theorem laneMismatch_frame (a0 : ℕ) (s : State) :
    (laneMismatch a0 s).pending = s.pending ∧ (laneMismatch a0 s).latch = s.latch ∧ (laneMismatch a0 s).mem = s.mem ∧ (laneMismatch a0 s).clk = s.clk ∧ (laneMismatch a0 s).thm = s.thm ∧ (laneMismatch a0 s).tck = s.tck ∧ (laneMismatch a0 s).stm = s.stm ∧ (laneMismatch a0 s).map = s.map ∧ (laneMismatch a0 s).flc = s.flc ∧ (laneMismatch a0 s).bnd = s.bnd ∧ (laneMismatch a0 s).mbr = s.mbr ∧ (laneMismatch a0 s).flt = s.flt ∧ (laneMismatch a0 s).cpx = s.cpx ∧ (laneMismatch a0 s).memc = s.memc ∧ (laneMismatch a0 s).mov = s.mov ∧ (laneMismatch a0 s).out = s.out ∧ (laneMismatch a0 s).freeCtr = s.freeCtr := by
  unfold laneMismatch
  try dsimp only
  first
    | (simp; done)
    | ((repeat' split) <;> simp; done)
    | (and_intros <;> (repeat' (first | (simp; done) | split)))

@[simp] theorem laneSeen_frame (a0 : LaneSeen) (s : State) :
    (laneSeen a0 s).pending = s.pending ∧ (laneSeen a0 s).latch = s.latch ∧ (laneSeen a0 s).mem = s.mem ∧ (laneSeen a0 s).clk = s.clk ∧ (laneSeen a0 s).thm = s.thm ∧ (laneSeen a0 s).tck = s.tck ∧ (laneSeen a0 s).stm = s.stm ∧ (laneSeen a0 s).map = s.map ∧ (laneSeen a0 s).flc = s.flc ∧ (laneSeen a0 s).bnd = s.bnd ∧ (laneSeen a0 s).mbr = s.mbr ∧ (laneSeen a0 s).flt = s.flt ∧ (laneSeen a0 s).cpx = s.cpx ∧ (laneSeen a0 s).memc = s.memc ∧ (laneSeen a0 s).mov = s.mov ∧ (laneSeen a0 s).out = s.out ∧ (laneSeen a0 s).freeCtr = s.freeCtr := by
  unfold laneSeen
  try dsimp only
  first
    | (simp; done)
    | ((repeat' split) <;> simp; done)
    | (and_intros <;> (repeat' (first | (simp; done) | split)))

@[simp] theorem drawWseq_frame (s : State) :
    (drawWseq s).pending = s.pending ∧ (drawWseq s).latch = s.latch ∧ (drawWseq s).mem = s.mem ∧ (drawWseq s).clk = s.clk ∧ (drawWseq s).thm = s.thm ∧ (drawWseq s).tck = s.tck ∧ (drawWseq s).stm = s.stm ∧ (drawWseq s).map = s.map ∧ (drawWseq s).flc = s.flc ∧ (drawWseq s).bnd = s.bnd ∧ (drawWseq s).mbr = s.mbr ∧ (drawWseq s).flt = s.flt ∧ (drawWseq s).cpx = s.cpx ∧ (drawWseq s).memc = s.memc ∧ (drawWseq s).mov = s.mov ∧ (drawWseq s).out = s.out ∧ (drawWseq s).freeCtr = s.freeCtr := by
  unfold drawWseq
  try dsimp only
  first
    | (simp; done)
    | ((repeat' split) <;> simp; done)
    | (and_intros <;> (repeat' (first | (simp; done) | split)))

theorem fixItem_frame (x : SysCw) (s : State) :
    (fixItem x s).2.pending = s.pending ∧ (fixItem x s).2.regs = s.regs ∧ (fixItem x s).2.latch = s.latch ∧ (fixItem x s).2.mem = s.mem ∧ (fixItem x s).2.sys = s.sys ∧ (fixItem x s).2.clk = s.clk ∧ (fixItem x s).2.thm = s.thm ∧ (fixItem x s).2.tck = s.tck ∧ (fixItem x s).2.hif = s.hif ∧ (fixItem x s).2.stm = s.stm ∧ (fixItem x s).2.flc = s.flc ∧ (fixItem x s).2.mbr = s.mbr ∧ (fixItem x s).2.flt = s.flt ∧ (fixItem x s).2.sec = s.sec ∧ (fixItem x s).2.cpx = s.cpx ∧ (fixItem x s).2.memc = s.memc ∧ (fixItem x s).2.mov = s.mov ∧ (fixItem x s).2.cst = s.cst ∧ (fixItem x s).2.lnt = s.lnt ∧ (fixItem x s).2.out = s.out ∧ (fixItem x s).2.bnd = s.bnd := by
  unfold fixItem
  split
  · and_intros <;> rfl
  · simp

theorem fixItems_frame (l : List SysCw) (s : State) :
    (fixItems l s).2.pending = s.pending ∧ (fixItems l s).2.regs = s.regs ∧ (fixItems l s).2.latch = s.latch ∧ (fixItems l s).2.mem = s.mem ∧ (fixItems l s).2.sys = s.sys ∧ (fixItems l s).2.clk = s.clk ∧ (fixItems l s).2.thm = s.thm ∧ (fixItems l s).2.tck = s.tck ∧ (fixItems l s).2.hif = s.hif ∧ (fixItems l s).2.stm = s.stm ∧ (fixItems l s).2.flc = s.flc ∧ (fixItems l s).2.mbr = s.mbr ∧ (fixItems l s).2.flt = s.flt ∧ (fixItems l s).2.sec = s.sec ∧ (fixItems l s).2.cpx = s.cpx ∧ (fixItems l s).2.memc = s.memc ∧ (fixItems l s).2.mov = s.mov ∧ (fixItems l s).2.cst = s.cst ∧ (fixItems l s).2.lnt = s.lnt ∧ (fixItems l s).2.out = s.out ∧ (fixItems l s).2.bnd = s.bnd := by
  induction l generalizing s with
  | nil => simp [fixItems]
  | cons x xs ih =>
    unfold fixItems
    simp only [ih, fixItem_frame, and_self]

theorem sealPage_pending (a0 : ℕ) (s : State) : (sealPage a0 s).pending = s.pending := by
  unfold sealPage
  split
  · rfl
  split
  · rfl
  · dsimp only
    split <;> simp [fixItems_frame]

theorem sealPage_latch (a0 : ℕ) (s : State) : (sealPage a0 s).latch = s.latch := by
  unfold sealPage
  split
  · rfl
  split
  · rfl
  · dsimp only
    split <;> simp [fixItems_frame]

theorem sealPage_mem (a0 : ℕ) (s : State) : (sealPage a0 s).mem = s.mem := by
  unfold sealPage
  split
  · rfl
  split
  · rfl
  · dsimp only
    split <;> simp [fixItems_frame]

theorem sealPage_clk (a0 : ℕ) (s : State) : (sealPage a0 s).clk = s.clk := by
  unfold sealPage
  split
  · rfl
  split
  · rfl
  · dsimp only
    split <;> simp [fixItems_frame]

theorem sealPage_thm (a0 : ℕ) (s : State) : (sealPage a0 s).thm = s.thm := by
  unfold sealPage
  split
  · rfl
  split
  · rfl
  · dsimp only
    split <;> simp [fixItems_frame]

theorem sealPage_tck (a0 : ℕ) (s : State) : (sealPage a0 s).tck = s.tck := by
  unfold sealPage
  split
  · rfl
  split
  · rfl
  · dsimp only
    split <;> simp [fixItems_frame]

theorem sealPage_stm (a0 : ℕ) (s : State) : (sealPage a0 s).stm = s.stm := by
  unfold sealPage
  split
  · rfl
  split
  · rfl
  · dsimp only
    split <;> simp [fixItems_frame]

theorem sealPage_flc (a0 : ℕ) (s : State) : (sealPage a0 s).flc = s.flc := by
  unfold sealPage
  split
  · rfl
  split
  · rfl
  · dsimp only
    split <;> simp [fixItems_frame]

theorem sealPage_mbr (a0 : ℕ) (s : State) : (sealPage a0 s).mbr = s.mbr := by
  unfold sealPage
  split
  · rfl
  split
  · rfl
  · dsimp only
    split <;> simp [fixItems_frame]

theorem sealPage_flt (a0 : ℕ) (s : State) : (sealPage a0 s).flt = s.flt := by
  unfold sealPage
  split
  · rfl
  split
  · rfl
  · dsimp only
    split <;> simp [fixItems_frame]

theorem sealPage_cpx (a0 : ℕ) (s : State) : (sealPage a0 s).cpx = s.cpx := by
  unfold sealPage
  split
  · rfl
  split
  · rfl
  · dsimp only
    split <;> simp [fixItems_frame]

theorem sealPage_memc (a0 : ℕ) (s : State) : (sealPage a0 s).memc = s.memc := by
  unfold sealPage
  split
  · rfl
  split
  · rfl
  · dsimp only
    split <;> simp [fixItems_frame]

theorem sealPage_mov (a0 : ℕ) (s : State) : (sealPage a0 s).mov = s.mov := by
  unfold sealPage
  split
  · rfl
  split
  · rfl
  · dsimp only
    split <;> simp [fixItems_frame]

theorem sealPage_out (a0 : ℕ) (s : State) : (sealPage a0 s).out = s.out := by
  unfold sealPage
  split
  · rfl
  split
  · rfl
  · dsimp only
    split <;> simp [fixItems_frame]

@[simp] theorem sealPage_frame (a0 : ℕ) (s : State) :
    (sealPage a0 s).pending = s.pending ∧ (sealPage a0 s).latch = s.latch ∧ (sealPage a0 s).mem = s.mem ∧ (sealPage a0 s).clk = s.clk ∧ (sealPage a0 s).thm = s.thm ∧ (sealPage a0 s).tck = s.tck ∧ (sealPage a0 s).stm = s.stm ∧ (sealPage a0 s).flc = s.flc ∧ (sealPage a0 s).mbr = s.mbr ∧ (sealPage a0 s).flt = s.flt ∧ (sealPage a0 s).cpx = s.cpx ∧ (sealPage a0 s).memc = s.memc ∧ (sealPage a0 s).mov = s.mov ∧ (sealPage a0 s).out = s.out :=
  ⟨sealPage_pending a0 s, sealPage_latch a0 s, sealPage_mem a0 s, sealPage_clk a0 s, sealPage_thm a0 s, sealPage_tck a0 s, sealPage_stm a0 s, sealPage_flc a0 s, sealPage_mbr a0 s, sealPage_flt a0 s, sealPage_cpx a0 s, sealPage_memc a0 s, sealPage_mov a0 s, sealPage_out a0 s⟩

/-! ### Flash -/

@[simp] theorem setTgt_frame (a0 : ℕ) (a1 : ℕ) (a2 : Option TOp) (s : State) :
    (setTgt a0 a1 a2 s).pending = s.pending ∧ (setTgt a0 a1 a2 s).regs = s.regs ∧ (setTgt a0 a1 a2 s).latch = s.latch ∧ (setTgt a0 a1 a2 s).mem = s.mem ∧ (setTgt a0 a1 a2 s).sys = s.sys ∧ (setTgt a0 a1 a2 s).clk = s.clk ∧ (setTgt a0 a1 a2 s).thm = s.thm ∧ (setTgt a0 a1 a2 s).tck = s.tck ∧ (setTgt a0 a1 a2 s).hif = s.hif ∧ (setTgt a0 a1 a2 s).stm = s.stm ∧ (setTgt a0 a1 a2 s).map = s.map ∧ (setTgt a0 a1 a2 s).bnd = s.bnd ∧ (setTgt a0 a1 a2 s).mbr = s.mbr ∧ (setTgt a0 a1 a2 s).flt = s.flt ∧ (setTgt a0 a1 a2 s).sec = s.sec ∧ (setTgt a0 a1 a2 s).cpx = s.cpx ∧ (setTgt a0 a1 a2 s).memc = s.memc ∧ (setTgt a0 a1 a2 s).mov = s.mov ∧ (setTgt a0 a1 a2 s).cst = s.cst ∧ (setTgt a0 a1 a2 s).lnt = s.lnt ∧ (setTgt a0 a1 a2 s).out = s.out ∧ (setTgt a0 a1 a2 s).freeCtr = s.freeCtr := by
  unfold setTgt
  try dsimp only
  first
    | (simp; done)
    | ((repeat' split) <;> simp; done)
    | (and_intros <;> (repeat' (first | (simp; done) | split)))

@[simp] theorem dqTake_frame (a0 : ℕ) (s : State) :
    (dqTake a0 s).pending = s.pending ∧ (dqTake a0 s).regs = s.regs ∧ (dqTake a0 s).latch = s.latch ∧ (dqTake a0 s).mem = s.mem ∧ (dqTake a0 s).sys = s.sys ∧ (dqTake a0 s).clk = s.clk ∧ (dqTake a0 s).thm = s.thm ∧ (dqTake a0 s).tck = s.tck ∧ (dqTake a0 s).hif = s.hif ∧ (dqTake a0 s).stm = s.stm ∧ (dqTake a0 s).map = s.map ∧ (dqTake a0 s).bnd = s.bnd ∧ (dqTake a0 s).mbr = s.mbr ∧ (dqTake a0 s).flt = s.flt ∧ (dqTake a0 s).sec = s.sec ∧ (dqTake a0 s).cpx = s.cpx ∧ (dqTake a0 s).memc = s.memc ∧ (dqTake a0 s).mov = s.mov ∧ (dqTake a0 s).cst = s.cst ∧ (dqTake a0 s).lnt = s.lnt ∧ (dqTake a0 s).out = s.out ∧ (dqTake a0 s).freeCtr = s.freeCtr := by
  unfold dqTake
  try dsimp only
  first
    | (simp; done)
    | ((repeat' split) <;> simp; done)
    | (and_intros <;> (repeat' (first | (simp; done) | split)))

@[simp] theorem startOp_frame (a0 : ℕ) (a1 : ℕ) (a2 : ArrayOp) (s : State) :
    (startOp a0 a1 a2 s).pending = s.pending ∧ (startOp a0 a1 a2 s).regs = s.regs ∧ (startOp a0 a1 a2 s).latch = s.latch ∧ (startOp a0 a1 a2 s).mem = s.mem ∧ (startOp a0 a1 a2 s).sys = s.sys ∧ (startOp a0 a1 a2 s).clk = s.clk ∧ (startOp a0 a1 a2 s).thm = s.thm ∧ (startOp a0 a1 a2 s).tck = s.tck ∧ (startOp a0 a1 a2 s).hif = s.hif ∧ (startOp a0 a1 a2 s).stm = s.stm ∧ (startOp a0 a1 a2 s).map = s.map ∧ (startOp a0 a1 a2 s).bnd = s.bnd ∧ (startOp a0 a1 a2 s).mbr = s.mbr ∧ (startOp a0 a1 a2 s).flt = s.flt ∧ (startOp a0 a1 a2 s).sec = s.sec ∧ (startOp a0 a1 a2 s).cpx = s.cpx ∧ (startOp a0 a1 a2 s).memc = s.memc ∧ (startOp a0 a1 a2 s).mov = s.mov ∧ (startOp a0 a1 a2 s).cst = s.cst ∧ (startOp a0 a1 a2 s).lnt = s.lnt ∧ (startOp a0 a1 a2 s).out = s.out ∧ (startOp a0 a1 a2 s).freeCtr = s.freeCtr := by
  unfold startOp
  try dsimp only
  first
    | (simp; done)
    | ((repeat' split) <;> simp; done)
    | (and_intros <;> (repeat' (first | (simp; done) | split)))

@[simp] theorem endOp_frame (a0 : ℕ) (a1 : ℕ) (s : State) :
    (endOp a0 a1 s).pending = s.pending ∧ (endOp a0 a1 s).regs = s.regs ∧ (endOp a0 a1 s).latch = s.latch ∧ (endOp a0 a1 s).mem = s.mem ∧ (endOp a0 a1 s).sys = s.sys ∧ (endOp a0 a1 s).clk = s.clk ∧ (endOp a0 a1 s).thm = s.thm ∧ (endOp a0 a1 s).tck = s.tck ∧ (endOp a0 a1 s).hif = s.hif ∧ (endOp a0 a1 s).stm = s.stm ∧ (endOp a0 a1 s).map = s.map ∧ (endOp a0 a1 s).bnd = s.bnd ∧ (endOp a0 a1 s).mbr = s.mbr ∧ (endOp a0 a1 s).flt = s.flt ∧ (endOp a0 a1 s).sec = s.sec ∧ (endOp a0 a1 s).cpx = s.cpx ∧ (endOp a0 a1 s).memc = s.memc ∧ (endOp a0 a1 s).mov = s.mov ∧ (endOp a0 a1 s).cst = s.cst ∧ (endOp a0 a1 s).lnt = s.lnt ∧ (endOp a0 a1 s).out = s.out ∧ (endOp a0 a1 s).freeCtr = s.freeCtr := by
  unfold endOp
  try dsimp only
  first
    | (simp; done)
    | ((repeat' split) <;> simp; done)
    | (and_intros <;> (repeat' (first | (simp; done) | split)))

@[simp] theorem orderSuspend_frame (a0 : ℕ) (a1 : ℕ) (a2 : Bool) (s : State) :
    (orderSuspend a0 a1 a2 s).pending = s.pending ∧ (orderSuspend a0 a1 a2 s).latch = s.latch ∧ (orderSuspend a0 a1 a2 s).mem = s.mem ∧ (orderSuspend a0 a1 a2 s).sys = s.sys ∧ (orderSuspend a0 a1 a2 s).clk = s.clk ∧ (orderSuspend a0 a1 a2 s).thm = s.thm ∧ (orderSuspend a0 a1 a2 s).tck = s.tck ∧ (orderSuspend a0 a1 a2 s).hif = s.hif ∧ (orderSuspend a0 a1 a2 s).stm = s.stm ∧ (orderSuspend a0 a1 a2 s).map = s.map ∧ (orderSuspend a0 a1 a2 s).bnd = s.bnd ∧ (orderSuspend a0 a1 a2 s).mbr = s.mbr ∧ (orderSuspend a0 a1 a2 s).flt = s.flt ∧ (orderSuspend a0 a1 a2 s).sec = s.sec ∧ (orderSuspend a0 a1 a2 s).cpx = s.cpx ∧ (orderSuspend a0 a1 a2 s).memc = s.memc ∧ (orderSuspend a0 a1 a2 s).mov = s.mov ∧ (orderSuspend a0 a1 a2 s).cst = s.cst ∧ (orderSuspend a0 a1 a2 s).lnt = s.lnt ∧ (orderSuspend a0 a1 a2 s).out = s.out ∧ (orderSuspend a0 a1 a2 s).freeCtr = s.freeCtr := by
  unfold orderSuspend
  try dsimp only
  first
    | (simp; done)
    | ((repeat' split) <;> simp; done)
    | (and_intros <;> (repeat' (first | (simp; done) | split)))

@[simp] theorem refuseOp_frame (a0 : ℕ) (a1 : ℕ) (a2 : ℕ) (a3 : ℕ) (a4 : ℕ) (s : State) :
    (refuseOp a0 a1 a2 a3 a4 s).pending = s.pending ∧ (refuseOp a0 a1 a2 a3 a4 s).latch = s.latch ∧ (refuseOp a0 a1 a2 a3 a4 s).mem = s.mem ∧ (refuseOp a0 a1 a2 a3 a4 s).clk = s.clk ∧ (refuseOp a0 a1 a2 a3 a4 s).thm = s.thm ∧ (refuseOp a0 a1 a2 a3 a4 s).tck = s.tck ∧ (refuseOp a0 a1 a2 a3 a4 s).hif = s.hif ∧ (refuseOp a0 a1 a2 a3 a4 s).stm = s.stm ∧ (refuseOp a0 a1 a2 a3 a4 s).map = s.map ∧ (refuseOp a0 a1 a2 a3 a4 s).bnd = s.bnd ∧ (refuseOp a0 a1 a2 a3 a4 s).flt = s.flt ∧ (refuseOp a0 a1 a2 a3 a4 s).sec = s.sec ∧ (refuseOp a0 a1 a2 a3 a4 s).memc = s.memc ∧ (refuseOp a0 a1 a2 a3 a4 s).mov = s.mov ∧ (refuseOp a0 a1 a2 a3 a4 s).cst = s.cst ∧ (refuseOp a0 a1 a2 a3 a4 s).out = s.out ∧ (refuseOp a0 a1 a2 a3 a4 s).freeCtr = s.freeCtr := by
  unfold refuseOp
  try dsimp only
  first
    | (simp; done)
    | ((repeat' split) <;> simp; done)
    | (and_intros <;> (repeat' (first | (simp; done) | split)))

@[simp] theorem staleDrop_frame (a0 : ℕ) (a1 : ℕ) (s : State) :
    (staleDrop a0 a1 s).pending = s.pending ∧ (staleDrop a0 a1 s).latch = s.latch ∧ (staleDrop a0 a1 s).mem = s.mem ∧ (staleDrop a0 a1 s).clk = s.clk ∧ (staleDrop a0 a1 s).thm = s.thm ∧ (staleDrop a0 a1 s).tck = s.tck ∧ (staleDrop a0 a1 s).hif = s.hif ∧ (staleDrop a0 a1 s).stm = s.stm ∧ (staleDrop a0 a1 s).map = s.map ∧ (staleDrop a0 a1 s).bnd = s.bnd ∧ (staleDrop a0 a1 s).flt = s.flt ∧ (staleDrop a0 a1 s).sec = s.sec ∧ (staleDrop a0 a1 s).cpx = s.cpx ∧ (staleDrop a0 a1 s).memc = s.memc ∧ (staleDrop a0 a1 s).mov = s.mov ∧ (staleDrop a0 a1 s).cst = s.cst ∧ (staleDrop a0 a1 s).out = s.out ∧ (staleDrop a0 a1 s).freeCtr = s.freeCtr := by
  unfold staleDrop
  try dsimp only
  first
    | (simp; done)
    | ((repeat' split) <;> simp; done)
    | (and_intros <;> (repeat' (first | (simp; done) | split)))

@[simp] theorem stampUnit_frame (a0 : ℕ) (a1 : ℕ) (s : State) :
    (stampUnit a0 a1 s).pending = s.pending ∧ (stampUnit a0 a1 s).regs = s.regs ∧ (stampUnit a0 a1 s).latch = s.latch ∧ (stampUnit a0 a1 s).mem = s.mem ∧ (stampUnit a0 a1 s).sys = s.sys ∧ (stampUnit a0 a1 s).clk = s.clk ∧ (stampUnit a0 a1 s).thm = s.thm ∧ (stampUnit a0 a1 s).tck = s.tck ∧ (stampUnit a0 a1 s).hif = s.hif ∧ (stampUnit a0 a1 s).stm = s.stm ∧ (stampUnit a0 a1 s).map = s.map ∧ (stampUnit a0 a1 s).bnd = s.bnd ∧ (stampUnit a0 a1 s).mbr = s.mbr ∧ (stampUnit a0 a1 s).flt = s.flt ∧ (stampUnit a0 a1 s).sec = s.sec ∧ (stampUnit a0 a1 s).cpx = s.cpx ∧ (stampUnit a0 a1 s).memc = s.memc ∧ (stampUnit a0 a1 s).mov = s.mov ∧ (stampUnit a0 a1 s).cst = s.cst ∧ (stampUnit a0 a1 s).lnt = s.lnt ∧ (stampUnit a0 a1 s).out = s.out ∧ (stampUnit a0 a1 s).freeCtr = s.freeCtr := by
  unfold stampUnit
  try dsimp only
  first
    | (simp; done)
    | ((repeat' split) <;> simp; done)
    | (and_intros <;> (repeat' (first | (simp; done) | split)))

@[simp] theorem confirmUnit_frame (a0 : ℕ) (a1 : ℕ) (a2 : ℕ) (a3 : ℕ) (a4 : ℕ) (s : State) :
    (confirmUnit a0 a1 a2 a3 a4 s).pending = s.pending ∧ (confirmUnit a0 a1 a2 a3 a4 s).latch = s.latch ∧ (confirmUnit a0 a1 a2 a3 a4 s).mem = s.mem ∧ (confirmUnit a0 a1 a2 a3 a4 s).sys = s.sys ∧ (confirmUnit a0 a1 a2 a3 a4 s).clk = s.clk ∧ (confirmUnit a0 a1 a2 a3 a4 s).thm = s.thm ∧ (confirmUnit a0 a1 a2 a3 a4 s).tck = s.tck ∧ (confirmUnit a0 a1 a2 a3 a4 s).hif = s.hif ∧ (confirmUnit a0 a1 a2 a3 a4 s).stm = s.stm ∧ (confirmUnit a0 a1 a2 a3 a4 s).map = s.map ∧ (confirmUnit a0 a1 a2 a3 a4 s).bnd = s.bnd ∧ (confirmUnit a0 a1 a2 a3 a4 s).mbr = s.mbr ∧ (confirmUnit a0 a1 a2 a3 a4 s).flt = s.flt ∧ (confirmUnit a0 a1 a2 a3 a4 s).sec = s.sec ∧ (confirmUnit a0 a1 a2 a3 a4 s).cpx = s.cpx ∧ (confirmUnit a0 a1 a2 a3 a4 s).memc = s.memc ∧ (confirmUnit a0 a1 a2 a3 a4 s).mov = s.mov ∧ (confirmUnit a0 a1 a2 a3 a4 s).cst = s.cst ∧ (confirmUnit a0 a1 a2 a3 a4 s).lnt = s.lnt ∧ (confirmUnit a0 a1 a2 a3 a4 s).out = s.out ∧ (confirmUnit a0 a1 a2 a3 a4 s).freeCtr = s.freeCtr := by
  unfold confirmUnit
  try dsimp only
  first
    | (simp; done)
    | ((repeat' split) <;> simp; done)
    | (and_intros <;> (repeat' (first | (simp; done) | split)))

theorem refuseProg_pending (a0 : Page) (a1 : ℕ) (s : State) : (refuseProg a0 a1 s).pending = s.pending := by
  unfold refuseProg
  try dsimp only
  first
    | (simp; done)
    | ((repeat' split) <;> simp; done)
    | (repeat' (first | (simp; done) | split))

theorem refuseProg_latch (a0 : Page) (a1 : ℕ) (s : State) : (refuseProg a0 a1 s).latch = s.latch := by
  unfold refuseProg
  try dsimp only
  first
    | (simp; done)
    | ((repeat' split) <;> simp; done)
    | (repeat' (first | (simp; done) | split))

theorem refuseProg_mem (a0 : Page) (a1 : ℕ) (s : State) : (refuseProg a0 a1 s).mem = s.mem := by
  unfold refuseProg
  try dsimp only
  first
    | (simp; done)
    | ((repeat' split) <;> simp; done)
    | (repeat' (first | (simp; done) | split))

theorem refuseProg_clk (a0 : Page) (a1 : ℕ) (s : State) : (refuseProg a0 a1 s).clk = s.clk := by
  unfold refuseProg
  try dsimp only
  first
    | (simp; done)
    | ((repeat' split) <;> simp; done)
    | (repeat' (first | (simp; done) | split))

theorem refuseProg_thm (a0 : Page) (a1 : ℕ) (s : State) : (refuseProg a0 a1 s).thm = s.thm := by
  unfold refuseProg
  try dsimp only
  first
    | (simp; done)
    | ((repeat' split) <;> simp; done)
    | (repeat' (first | (simp; done) | split))

theorem refuseProg_hif (a0 : Page) (a1 : ℕ) (s : State) : (refuseProg a0 a1 s).hif = s.hif := by
  unfold refuseProg
  try dsimp only
  first
    | (simp; done)
    | ((repeat' split) <;> simp; done)
    | (repeat' (first | (simp; done) | split))

theorem refuseProg_stm (a0 : Page) (a1 : ℕ) (s : State) : (refuseProg a0 a1 s).stm = s.stm := by
  unfold refuseProg
  try dsimp only
  first
    | (simp; done)
    | ((repeat' split) <;> simp; done)
    | (repeat' (first | (simp; done) | split))

theorem refuseProg_flt (a0 : Page) (a1 : ℕ) (s : State) : (refuseProg a0 a1 s).flt = s.flt := by
  unfold refuseProg
  try dsimp only
  first
    | (simp; done)
    | ((repeat' split) <;> simp; done)
    | (repeat' (first | (simp; done) | split))

theorem refuseProg_sec (a0 : Page) (a1 : ℕ) (s : State) : (refuseProg a0 a1 s).sec = s.sec := by
  unfold refuseProg
  try dsimp only
  first
    | (simp; done)
    | ((repeat' split) <;> simp; done)
    | (repeat' (first | (simp; done) | split))

theorem refuseProg_memc (a0 : Page) (a1 : ℕ) (s : State) : (refuseProg a0 a1 s).memc = s.memc := by
  unfold refuseProg
  try dsimp only
  first
    | (simp; done)
    | ((repeat' split) <;> simp; done)
    | (repeat' (first | (simp; done) | split))

theorem refuseProg_mov (a0 : Page) (a1 : ℕ) (s : State) : (refuseProg a0 a1 s).mov = s.mov := by
  unfold refuseProg
  try dsimp only
  first
    | (simp; done)
    | ((repeat' split) <;> simp; done)
    | (repeat' (first | (simp; done) | split))

theorem refuseProg_cst (a0 : Page) (a1 : ℕ) (s : State) : (refuseProg a0 a1 s).cst = s.cst := by
  unfold refuseProg
  try dsimp only
  first
    | (simp; done)
    | ((repeat' split) <;> simp; done)
    | (repeat' (first | (simp; done) | split))

theorem refuseProg_out (a0 : Page) (a1 : ℕ) (s : State) : (refuseProg a0 a1 s).out = s.out := by
  unfold refuseProg
  try dsimp only
  first
    | (simp; done)
    | ((repeat' split) <;> simp; done)
    | (repeat' (first | (simp; done) | split))

theorem refuseProg_freeCtr (a0 : Page) (a1 : ℕ) (s : State) : (refuseProg a0 a1 s).freeCtr = s.freeCtr := by
  unfold refuseProg
  try dsimp only
  first
    | (simp; done)
    | ((repeat' split) <;> simp; done)
    | (repeat' (first | (simp; done) | split))

@[simp] theorem refuseProg_frame (a0 : Page) (a1 : ℕ) (s : State) :
    (refuseProg a0 a1 s).pending = s.pending ∧ (refuseProg a0 a1 s).latch = s.latch ∧ (refuseProg a0 a1 s).mem = s.mem ∧ (refuseProg a0 a1 s).clk = s.clk ∧ (refuseProg a0 a1 s).thm = s.thm ∧ (refuseProg a0 a1 s).hif = s.hif ∧ (refuseProg a0 a1 s).stm = s.stm ∧ (refuseProg a0 a1 s).flt = s.flt ∧ (refuseProg a0 a1 s).sec = s.sec ∧ (refuseProg a0 a1 s).memc = s.memc ∧ (refuseProg a0 a1 s).mov = s.mov ∧ (refuseProg a0 a1 s).cst = s.cst ∧ (refuseProg a0 a1 s).out = s.out ∧ (refuseProg a0 a1 s).freeCtr = s.freeCtr :=
  ⟨refuseProg_pending a0 a1 s, refuseProg_latch a0 a1 s, refuseProg_mem a0 a1 s, refuseProg_clk a0 a1 s, refuseProg_thm a0 a1 s, refuseProg_hif a0 a1 s, refuseProg_stm a0 a1 s, refuseProg_flt a0 a1 s, refuseProg_sec a0 a1 s, refuseProg_memc a0 a1 s, refuseProg_mov a0 a1 s, refuseProg_cst a0 a1 s, refuseProg_out a0 a1 s, refuseProg_freeCtr a0 a1 s⟩

@[simp] theorem beginUnit_frame (a0 : Page) (s : State) :
    (beginUnit a0 s).pending = s.pending ∧ (beginUnit a0 s).regs = s.regs ∧ (beginUnit a0 s).latch = s.latch ∧ (beginUnit a0 s).mem = s.mem ∧ (beginUnit a0 s).sys = s.sys ∧ (beginUnit a0 s).clk = s.clk ∧ (beginUnit a0 s).thm = s.thm ∧ (beginUnit a0 s).tck = s.tck ∧ (beginUnit a0 s).hif = s.hif ∧ (beginUnit a0 s).stm = s.stm ∧ (beginUnit a0 s).map = s.map ∧ (beginUnit a0 s).mbr = s.mbr ∧ (beginUnit a0 s).flt = s.flt ∧ (beginUnit a0 s).sec = s.sec ∧ (beginUnit a0 s).cpx = s.cpx ∧ (beginUnit a0 s).memc = s.memc ∧ (beginUnit a0 s).mov = s.mov ∧ (beginUnit a0 s).cst = s.cst ∧ (beginUnit a0 s).lnt = s.lnt ∧ (beginUnit a0 s).out = s.out ∧ (beginUnit a0 s).freeCtr = s.freeCtr := by
  unfold beginUnit
  try dsimp only
  first
    | (simp; done)
    | ((repeat' split) <;> simp; done)
    | (and_intros <;> (repeat' (first | (simp; done) | split)))

theorem pageDone_pending (a0 : ℕ) (a1 : Page) (s : State) : (pageDone a0 a1 s).pending = s.pending := by
  unfold pageDone
  try dsimp only
  first
    | (simp; done)
    | ((repeat' split) <;> simp; done)
    | (repeat' (first | (simp; done) | split))

theorem pageDone_latch (a0 : ℕ) (a1 : Page) (s : State) : (pageDone a0 a1 s).latch = s.latch := by
  unfold pageDone
  try dsimp only
  first
    | (simp; done)
    | ((repeat' split) <;> simp; done)
    | (repeat' (first | (simp; done) | split))

theorem pageDone_mem (a0 : ℕ) (a1 : Page) (s : State) : (pageDone a0 a1 s).mem = s.mem := by
  unfold pageDone
  try dsimp only
  first
    | (simp; done)
    | ((repeat' split) <;> simp; done)
    | (repeat' (first | (simp; done) | split))

theorem pageDone_clk (a0 : ℕ) (a1 : Page) (s : State) : (pageDone a0 a1 s).clk = s.clk := by
  unfold pageDone
  try dsimp only
  first
    | (simp; done)
    | ((repeat' split) <;> simp; done)
    | (repeat' (first | (simp; done) | split))

theorem pageDone_thm (a0 : ℕ) (a1 : Page) (s : State) : (pageDone a0 a1 s).thm = s.thm := by
  unfold pageDone
  try dsimp only
  first
    | (simp; done)
    | ((repeat' split) <;> simp; done)
    | (repeat' (first | (simp; done) | split))

theorem pageDone_stm (a0 : ℕ) (a1 : Page) (s : State) : (pageDone a0 a1 s).stm = s.stm := by
  unfold pageDone
  try dsimp only
  first
    | (simp; done)
    | ((repeat' split) <;> simp; done)
    | (repeat' (first | (simp; done) | split))

theorem pageDone_mbr (a0 : ℕ) (a1 : Page) (s : State) : (pageDone a0 a1 s).mbr = s.mbr := by
  unfold pageDone
  try dsimp only
  first
    | (simp; done)
    | ((repeat' split) <;> simp; done)
    | (repeat' (first | (simp; done) | split))

theorem pageDone_flt (a0 : ℕ) (a1 : Page) (s : State) : (pageDone a0 a1 s).flt = s.flt := by
  unfold pageDone
  try dsimp only
  first
    | (simp; done)
    | ((repeat' split) <;> simp; done)
    | (repeat' (first | (simp; done) | split))

theorem pageDone_cpx (a0 : ℕ) (a1 : Page) (s : State) : (pageDone a0 a1 s).cpx = s.cpx := by
  unfold pageDone
  try dsimp only
  first
    | (simp; done)
    | ((repeat' split) <;> simp; done)
    | (repeat' (first | (simp; done) | split))

theorem pageDone_memc (a0 : ℕ) (a1 : Page) (s : State) : (pageDone a0 a1 s).memc = s.memc := by
  unfold pageDone
  try dsimp only
  first
    | (simp; done)
    | ((repeat' split) <;> simp; done)
    | (repeat' (first | (simp; done) | split))

theorem pageDone_mov (a0 : ℕ) (a1 : Page) (s : State) : (pageDone a0 a1 s).mov = s.mov := by
  unfold pageDone
  try dsimp only
  first
    | (simp; done)
    | ((repeat' split) <;> simp; done)
    | (repeat' (first | (simp; done) | split))

theorem pageDone_out (a0 : ℕ) (a1 : Page) (s : State) : (pageDone a0 a1 s).out = s.out := by
  unfold pageDone
  try dsimp only
  first
    | (simp; done)
    | ((repeat' split) <;> simp; done)
    | (repeat' (first | (simp; done) | split))

@[simp] theorem pageDone_frame (a0 : ℕ) (a1 : Page) (s : State) :
    (pageDone a0 a1 s).pending = s.pending ∧ (pageDone a0 a1 s).latch = s.latch ∧ (pageDone a0 a1 s).mem = s.mem ∧ (pageDone a0 a1 s).clk = s.clk ∧ (pageDone a0 a1 s).thm = s.thm ∧ (pageDone a0 a1 s).stm = s.stm ∧ (pageDone a0 a1 s).mbr = s.mbr ∧ (pageDone a0 a1 s).flt = s.flt ∧ (pageDone a0 a1 s).cpx = s.cpx ∧ (pageDone a0 a1 s).memc = s.memc ∧ (pageDone a0 a1 s).mov = s.mov ∧ (pageDone a0 a1 s).out = s.out :=
  ⟨pageDone_pending a0 a1 s, pageDone_latch a0 a1 s, pageDone_mem a0 a1 s, pageDone_clk a0 a1 s, pageDone_thm a0 a1 s, pageDone_stm a0 a1 s, pageDone_mbr a0 a1 s, pageDone_flt a0 a1 s, pageDone_cpx a0 a1 s, pageDone_memc a0 a1 s, pageDone_mov a0 a1 s, pageDone_out a0 a1 s⟩

@[simp] theorem takeOp_frame (a0 : Op) (s : State) :
    (takeOp a0 s).pending = s.pending ∧ (takeOp a0 s).regs = s.regs ∧ (takeOp a0 s).latch = s.latch ∧ (takeOp a0 s).mem = s.mem ∧ (takeOp a0 s).sys = s.sys ∧ (takeOp a0 s).clk = s.clk ∧ (takeOp a0 s).thm = s.thm ∧ (takeOp a0 s).hif = s.hif ∧ (takeOp a0 s).stm = s.stm ∧ (takeOp a0 s).map = s.map ∧ (takeOp a0 s).flc = s.flc ∧ (takeOp a0 s).bnd = s.bnd ∧ (takeOp a0 s).mbr = s.mbr ∧ (takeOp a0 s).flt = s.flt ∧ (takeOp a0 s).sec = s.sec ∧ (takeOp a0 s).cpx = s.cpx ∧ (takeOp a0 s).memc = s.memc ∧ (takeOp a0 s).mov = s.mov ∧ (takeOp a0 s).cst = s.cst ∧ (takeOp a0 s).lnt = s.lnt ∧ (takeOp a0 s).out = s.out ∧ (takeOp a0 s).freeCtr = s.freeCtr := by
  unfold takeOp
  try dsimp only
  first
    | (simp; done)
    | ((repeat' split) <;> simp; done)
    | (and_intros <;> (repeat' (first | (simp; done) | split)))

theorem xferProg_pending (a0 : Op) (a1 : ℕ) (s : State) : (xferProg a0 a1 s).pending = s.pending := by
  unfold xferProg
  try dsimp only
  first
    | (simp; done)
    | ((repeat' split) <;> simp; done)
    | (repeat' (first | (simp; done) | split))

theorem xferProg_latch (a0 : Op) (a1 : ℕ) (s : State) : (xferProg a0 a1 s).latch = s.latch := by
  unfold xferProg
  try dsimp only
  first
    | (simp; done)
    | ((repeat' split) <;> simp; done)
    | (repeat' (first | (simp; done) | split))

theorem xferProg_mem (a0 : Op) (a1 : ℕ) (s : State) : (xferProg a0 a1 s).mem = s.mem := by
  unfold xferProg
  try dsimp only
  first
    | (simp; done)
    | ((repeat' split) <;> simp; done)
    | (repeat' (first | (simp; done) | split))

theorem xferProg_clk (a0 : Op) (a1 : ℕ) (s : State) : (xferProg a0 a1 s).clk = s.clk := by
  unfold xferProg
  try dsimp only
  first
    | (simp; done)
    | ((repeat' split) <;> simp; done)
    | (repeat' (first | (simp; done) | split))

theorem xferProg_thm (a0 : Op) (a1 : ℕ) (s : State) : (xferProg a0 a1 s).thm = s.thm := by
  unfold xferProg
  try dsimp only
  first
    | (simp; done)
    | ((repeat' split) <;> simp; done)
    | (repeat' (first | (simp; done) | split))

theorem xferProg_stm (a0 : Op) (a1 : ℕ) (s : State) : (xferProg a0 a1 s).stm = s.stm := by
  unfold xferProg
  try dsimp only
  first
    | (simp; done)
    | ((repeat' split) <;> simp; done)
    | (repeat' (first | (simp; done) | split))

theorem xferProg_flt (a0 : Op) (a1 : ℕ) (s : State) : (xferProg a0 a1 s).flt = s.flt := by
  unfold xferProg
  try dsimp only
  first
    | (simp; done)
    | ((repeat' split) <;> simp; done)
    | (repeat' (first | (simp; done) | split))

theorem xferProg_memc (a0 : Op) (a1 : ℕ) (s : State) : (xferProg a0 a1 s).memc = s.memc := by
  unfold xferProg
  try dsimp only
  first
    | (simp; done)
    | ((repeat' split) <;> simp; done)
    | (repeat' (first | (simp; done) | split))

theorem xferProg_mov (a0 : Op) (a1 : ℕ) (s : State) : (xferProg a0 a1 s).mov = s.mov := by
  unfold xferProg
  try dsimp only
  first
    | (simp; done)
    | ((repeat' split) <;> simp; done)
    | (repeat' (first | (simp; done) | split))

theorem xferProg_out (a0 : Op) (a1 : ℕ) (s : State) : (xferProg a0 a1 s).out = s.out := by
  unfold xferProg
  try dsimp only
  first
    | (simp; done)
    | ((repeat' split) <;> simp; done)
    | (repeat' (first | (simp; done) | split))

@[simp] theorem xferProg_frame (a0 : Op) (a1 : ℕ) (s : State) :
    (xferProg a0 a1 s).pending = s.pending ∧ (xferProg a0 a1 s).latch = s.latch ∧ (xferProg a0 a1 s).mem = s.mem ∧ (xferProg a0 a1 s).clk = s.clk ∧ (xferProg a0 a1 s).thm = s.thm ∧ (xferProg a0 a1 s).stm = s.stm ∧ (xferProg a0 a1 s).flt = s.flt ∧ (xferProg a0 a1 s).memc = s.memc ∧ (xferProg a0 a1 s).mov = s.mov ∧ (xferProg a0 a1 s).out = s.out :=
  ⟨xferProg_pending a0 a1 s, xferProg_latch a0 a1 s, xferProg_mem a0 a1 s, xferProg_clk a0 a1 s, xferProg_thm a0 a1 s, xferProg_stm a0 a1 s, xferProg_flt a0 a1 s, xferProg_memc a0 a1 s, xferProg_mov a0 a1 s, xferProg_out a0 a1 s⟩

@[simp] theorem xferErase_frame (a0 : Op) (a1 : ℕ) (s : State) :
    (xferErase a0 a1 s).pending = s.pending ∧ (xferErase a0 a1 s).latch = s.latch ∧ (xferErase a0 a1 s).mem = s.mem ∧ (xferErase a0 a1 s).clk = s.clk ∧ (xferErase a0 a1 s).thm = s.thm ∧ (xferErase a0 a1 s).hif = s.hif ∧ (xferErase a0 a1 s).stm = s.stm ∧ (xferErase a0 a1 s).map = s.map ∧ (xferErase a0 a1 s).bnd = s.bnd ∧ (xferErase a0 a1 s).flt = s.flt ∧ (xferErase a0 a1 s).sec = s.sec ∧ (xferErase a0 a1 s).memc = s.memc ∧ (xferErase a0 a1 s).mov = s.mov ∧ (xferErase a0 a1 s).cst = s.cst ∧ (xferErase a0 a1 s).out = s.out ∧ (xferErase a0 a1 s).freeCtr = s.freeCtr := by
  unfold xferErase
  try dsimp only
  first
    | (simp; done)
    | ((repeat' split) <;> simp; done)
    | (and_intros <;> (repeat' (first | (simp; done) | split)))

theorem xferSlot_pending (a0 : PlanItem) (s : State) : (xferSlot a0 s).pending = s.pending := by
  unfold xferSlot
  try dsimp only
  first
    | (simp; done)
    | ((repeat' split) <;> simp; done)
    | (repeat' (first | (simp; done) | split))

theorem xferSlot_latch (a0 : PlanItem) (s : State) : (xferSlot a0 s).latch = s.latch := by
  unfold xferSlot
  try dsimp only
  first
    | (simp; done)
    | ((repeat' split) <;> simp; done)
    | (repeat' (first | (simp; done) | split))

theorem xferSlot_mem (a0 : PlanItem) (s : State) : (xferSlot a0 s).mem = s.mem := by
  unfold xferSlot
  try dsimp only
  first
    | (simp; done)
    | ((repeat' split) <;> simp; done)
    | (repeat' (first | (simp; done) | split))

theorem xferSlot_clk (a0 : PlanItem) (s : State) : (xferSlot a0 s).clk = s.clk := by
  unfold xferSlot
  try dsimp only
  first
    | (simp; done)
    | ((repeat' split) <;> simp; done)
    | (repeat' (first | (simp; done) | split))

theorem xferSlot_thm (a0 : PlanItem) (s : State) : (xferSlot a0 s).thm = s.thm := by
  unfold xferSlot
  try dsimp only
  first
    | (simp; done)
    | ((repeat' split) <;> simp; done)
    | (repeat' (first | (simp; done) | split))

theorem xferSlot_stm (a0 : PlanItem) (s : State) : (xferSlot a0 s).stm = s.stm := by
  unfold xferSlot
  try dsimp only
  first
    | (simp; done)
    | ((repeat' split) <;> simp; done)
    | (repeat' (first | (simp; done) | split))

theorem xferSlot_flt (a0 : PlanItem) (s : State) : (xferSlot a0 s).flt = s.flt := by
  unfold xferSlot
  try dsimp only
  first
    | (simp; done)
    | ((repeat' split) <;> simp; done)
    | (repeat' (first | (simp; done) | split))

theorem xferSlot_memc (a0 : PlanItem) (s : State) : (xferSlot a0 s).memc = s.memc := by
  unfold xferSlot
  try dsimp only
  first
    | (simp; done)
    | ((repeat' split) <;> simp; done)
    | (repeat' (first | (simp; done) | split))

theorem xferSlot_mov (a0 : PlanItem) (s : State) : (xferSlot a0 s).mov = s.mov := by
  unfold xferSlot
  try dsimp only
  first
    | (simp; done)
    | ((repeat' split) <;> simp; done)
    | (repeat' (first | (simp; done) | split))

theorem xferSlot_out (a0 : PlanItem) (s : State) : (xferSlot a0 s).out = s.out := by
  unfold xferSlot
  try dsimp only
  first
    | (simp; done)
    | ((repeat' split) <;> simp; done)
    | (repeat' (first | (simp; done) | split))

@[simp] theorem xferSlot_frame (a0 : PlanItem) (s : State) :
    (xferSlot a0 s).pending = s.pending ∧ (xferSlot a0 s).latch = s.latch ∧ (xferSlot a0 s).mem = s.mem ∧ (xferSlot a0 s).clk = s.clk ∧ (xferSlot a0 s).thm = s.thm ∧ (xferSlot a0 s).stm = s.stm ∧ (xferSlot a0 s).flt = s.flt ∧ (xferSlot a0 s).memc = s.memc ∧ (xferSlot a0 s).mov = s.mov ∧ (xferSlot a0 s).out = s.out :=
  ⟨xferSlot_pending a0 s, xferSlot_latch a0 s, xferSlot_mem a0 s, xferSlot_clk a0 s, xferSlot_thm a0 s, xferSlot_stm a0 s, xferSlot_flt a0 s, xferSlot_memc a0 s, xferSlot_mov a0 s, xferSlot_out a0 s⟩

@[simp] theorem setRead_frame (a0 : ℕ) (a1 : Rd → Rd) (s : State) :
    (setRead a0 a1 s).pending = s.pending ∧ (setRead a0 a1 s).regs = s.regs ∧ (setRead a0 a1 s).latch = s.latch ∧ (setRead a0 a1 s).mem = s.mem ∧ (setRead a0 a1 s).sys = s.sys ∧ (setRead a0 a1 s).clk = s.clk ∧ (setRead a0 a1 s).thm = s.thm ∧ (setRead a0 a1 s).tck = s.tck ∧ (setRead a0 a1 s).hif = s.hif ∧ (setRead a0 a1 s).stm = s.stm ∧ (setRead a0 a1 s).map = s.map ∧ (setRead a0 a1 s).bnd = s.bnd ∧ (setRead a0 a1 s).mbr = s.mbr ∧ (setRead a0 a1 s).flt = s.flt ∧ (setRead a0 a1 s).sec = s.sec ∧ (setRead a0 a1 s).cpx = s.cpx ∧ (setRead a0 a1 s).memc = s.memc ∧ (setRead a0 a1 s).mov = s.mov ∧ (setRead a0 a1 s).cst = s.cst ∧ (setRead a0 a1 s).lnt = s.lnt ∧ (setRead a0 a1 s).out = s.out ∧ (setRead a0 a1 s).freeCtr = s.freeCtr := by
  unfold setRead
  try dsimp only
  first
    | (simp; done)
    | ((repeat' split) <;> simp; done)
    | (and_intros <;> (repeat' (first | (simp; done) | split)))

@[simp] theorem startSense_frame (a0 : ℕ) (a1 : Rd) (a2 : ℕ) (a3 : ℕ) (s : State) :
    (startSense a0 a1 a2 a3 s).pending = s.pending ∧ (startSense a0 a1 a2 a3 s).regs = s.regs ∧ (startSense a0 a1 a2 a3 s).latch = s.latch ∧ (startSense a0 a1 a2 a3 s).mem = s.mem ∧ (startSense a0 a1 a2 a3 s).sys = s.sys ∧ (startSense a0 a1 a2 a3 s).clk = s.clk ∧ (startSense a0 a1 a2 a3 s).thm = s.thm ∧ (startSense a0 a1 a2 a3 s).tck = s.tck ∧ (startSense a0 a1 a2 a3 s).hif = s.hif ∧ (startSense a0 a1 a2 a3 s).stm = s.stm ∧ (startSense a0 a1 a2 a3 s).map = s.map ∧ (startSense a0 a1 a2 a3 s).bnd = s.bnd ∧ (startSense a0 a1 a2 a3 s).mbr = s.mbr ∧ (startSense a0 a1 a2 a3 s).flt = s.flt ∧ (startSense a0 a1 a2 a3 s).sec = s.sec ∧ (startSense a0 a1 a2 a3 s).cpx = s.cpx ∧ (startSense a0 a1 a2 a3 s).memc = s.memc ∧ (startSense a0 a1 a2 a3 s).mov = s.mov ∧ (startSense a0 a1 a2 a3 s).cst = s.cst ∧ (startSense a0 a1 a2 a3 s).lnt = s.lnt ∧ (startSense a0 a1 a2 a3 s).out = s.out ∧ (startSense a0 a1 a2 a3 s).freeCtr = s.freeCtr := by
  unfold startSense
  try dsimp only
  first
    | (simp; done)
    | ((repeat' split) <;> simp; done)
    | (and_intros <;> (repeat' (first | (simp; done) | split)))

@[simp] theorem refuseRaw_frame (a0 : ℕ) (a1 : Rd) (s : State) :
    (refuseRaw a0 a1 s).pending = s.pending ∧ (refuseRaw a0 a1 s).latch = s.latch ∧ (refuseRaw a0 a1 s).mem = s.mem ∧ (refuseRaw a0 a1 s).clk = s.clk ∧ (refuseRaw a0 a1 s).thm = s.thm ∧ (refuseRaw a0 a1 s).tck = s.tck ∧ (refuseRaw a0 a1 s).hif = s.hif ∧ (refuseRaw a0 a1 s).stm = s.stm ∧ (refuseRaw a0 a1 s).map = s.map ∧ (refuseRaw a0 a1 s).bnd = s.bnd ∧ (refuseRaw a0 a1 s).flt = s.flt ∧ (refuseRaw a0 a1 s).sec = s.sec ∧ (refuseRaw a0 a1 s).memc = s.memc ∧ (refuseRaw a0 a1 s).mov = s.mov ∧ (refuseRaw a0 a1 s).cst = s.cst ∧ (refuseRaw a0 a1 s).freeCtr = s.freeCtr := by
  unfold refuseRaw
  try dsimp only
  first
    | (simp; done)
    | ((repeat' split) <;> simp; done)
    | (and_intros <;> (repeat' (first | (simp; done) | split)))

theorem setOffsets_frame {ch t : ℕ} {l : List ℤ} {s s' : State} (h : setOffsets ch t l s = some s') :
    s'.pending = s.pending ∧ s'.regs = s.regs ∧ s'.latch = s.latch ∧ s'.mem = s.mem ∧ s'.sys = s.sys ∧ s'.clk = s.clk ∧ s'.thm = s.thm ∧ s'.tck = s.tck ∧ s'.hif = s.hif ∧ s'.stm = s.stm ∧ s'.map = s.map ∧ s'.mbr = s.mbr ∧ s'.flt = s.flt ∧ s'.sec = s.sec ∧ s'.cpx = s.cpx ∧ s'.memc = s.memc ∧ s'.mov = s.mov ∧ s'.cst = s.cst ∧ s'.lnt = s.lnt ∧ s'.out = s.out ∧ s'.freeCtr = s.freeCtr ∧ s'.bnd = s.bnd := by
  unfold setOffsets at h
  split at h
  · cases h
    and_intros <;> rfl
  split at h
  · cases h
    simp
  · cases h

theorem issueSense_pending (a0 : ℕ) (s : State) : (issueSense a0 s).pending = s.pending := by
  unfold issueSense
  repeat' (first | (simp; done) | (have h := setOffsets_frame (by assumption); simp [h]; done) | split)

theorem issueSense_latch (a0 : ℕ) (s : State) : (issueSense a0 s).latch = s.latch := by
  unfold issueSense
  repeat' (first | (simp; done) | (have h := setOffsets_frame (by assumption); simp [h]; done) | split)

theorem issueSense_mem (a0 : ℕ) (s : State) : (issueSense a0 s).mem = s.mem := by
  unfold issueSense
  repeat' (first | (simp; done) | (have h := setOffsets_frame (by assumption); simp [h]; done) | split)

theorem issueSense_clk (a0 : ℕ) (s : State) : (issueSense a0 s).clk = s.clk := by
  unfold issueSense
  repeat' (first | (simp; done) | (have h := setOffsets_frame (by assumption); simp [h]; done) | split)

theorem issueSense_thm (a0 : ℕ) (s : State) : (issueSense a0 s).thm = s.thm := by
  unfold issueSense
  repeat' (first | (simp; done) | (have h := setOffsets_frame (by assumption); simp [h]; done) | split)

theorem issueSense_tck (a0 : ℕ) (s : State) : (issueSense a0 s).tck = s.tck := by
  unfold issueSense
  repeat' (first | (simp; done) | (have h := setOffsets_frame (by assumption); simp [h]; done) | split)

theorem issueSense_hif (a0 : ℕ) (s : State) : (issueSense a0 s).hif = s.hif := by
  unfold issueSense
  repeat' (first | (simp; done) | (have h := setOffsets_frame (by assumption); simp [h]; done) | split)

theorem issueSense_stm (a0 : ℕ) (s : State) : (issueSense a0 s).stm = s.stm := by
  unfold issueSense
  repeat' (first | (simp; done) | (have h := setOffsets_frame (by assumption); simp [h]; done) | split)

theorem issueSense_map (a0 : ℕ) (s : State) : (issueSense a0 s).map = s.map := by
  unfold issueSense
  repeat' (first | (simp; done) | (have h := setOffsets_frame (by assumption); simp [h]; done) | split)

theorem issueSense_bnd (a0 : ℕ) (s : State) : (issueSense a0 s).bnd = s.bnd := by
  unfold issueSense
  repeat' (first | (simp; done) | (have h := setOffsets_frame (by assumption); simp [h]; done) | split)

theorem issueSense_flt (a0 : ℕ) (s : State) : (issueSense a0 s).flt = s.flt := by
  unfold issueSense
  repeat' (first | (simp; done) | (have h := setOffsets_frame (by assumption); simp [h]; done) | split)

theorem issueSense_sec (a0 : ℕ) (s : State) : (issueSense a0 s).sec = s.sec := by
  unfold issueSense
  repeat' (first | (simp; done) | (have h := setOffsets_frame (by assumption); simp [h]; done) | split)

theorem issueSense_memc (a0 : ℕ) (s : State) : (issueSense a0 s).memc = s.memc := by
  unfold issueSense
  repeat' (first | (simp; done) | (have h := setOffsets_frame (by assumption); simp [h]; done) | split)

theorem issueSense_mov (a0 : ℕ) (s : State) : (issueSense a0 s).mov = s.mov := by
  unfold issueSense
  repeat' (first | (simp; done) | (have h := setOffsets_frame (by assumption); simp [h]; done) | split)

theorem issueSense_cst (a0 : ℕ) (s : State) : (issueSense a0 s).cst = s.cst := by
  unfold issueSense
  repeat' (first | (simp; done) | (have h := setOffsets_frame (by assumption); simp [h]; done) | split)

theorem issueSense_freeCtr (a0 : ℕ) (s : State) : (issueSense a0 s).freeCtr = s.freeCtr := by
  unfold issueSense
  repeat' (first | (simp; done) | (have h := setOffsets_frame (by assumption); simp [h]; done) | split)

@[simp] theorem issueSense_frame (a0 : ℕ) (s : State) :
    (issueSense a0 s).pending = s.pending ∧ (issueSense a0 s).latch = s.latch ∧ (issueSense a0 s).mem = s.mem ∧ (issueSense a0 s).clk = s.clk ∧ (issueSense a0 s).thm = s.thm ∧ (issueSense a0 s).tck = s.tck ∧ (issueSense a0 s).hif = s.hif ∧ (issueSense a0 s).stm = s.stm ∧ (issueSense a0 s).map = s.map ∧ (issueSense a0 s).bnd = s.bnd ∧ (issueSense a0 s).flt = s.flt ∧ (issueSense a0 s).sec = s.sec ∧ (issueSense a0 s).memc = s.memc ∧ (issueSense a0 s).mov = s.mov ∧ (issueSense a0 s).cst = s.cst ∧ (issueSense a0 s).freeCtr = s.freeCtr :=
  ⟨issueSense_pending a0 s, issueSense_latch a0 s, issueSense_mem a0 s, issueSense_clk a0 s, issueSense_thm a0 s, issueSense_tck a0 s, issueSense_hif a0 s, issueSense_stm a0 s, issueSense_map a0 s, issueSense_bnd a0 s, issueSense_flt a0 s, issueSense_sec a0 s, issueSense_memc a0 s, issueSense_mov a0 s, issueSense_cst a0 s, issueSense_freeCtr a0 s⟩

theorem resumeStep_pending (s : State) : (resumeStep s).pending = s.pending := by
  unfold resumeStep
  try dsimp only
  repeat' (first | (simp; done) | (have h := appendRec_frame (by assumption); simp [h]; done) | (have h := takeSlot_frame (by assumption); simp [h]; done) | (have h := placePage_frame (by assumption); simp [h]; done) | (have h := placePart_frame (by assumption); simp [h]; done) | split | (refine (forAll_pending _ _ _ (fun x s => ?_)).trans ?_; try dsimp only) | (refine adminCmd_pending _ _ _ _ ?_; try dsimp only) | simp)

theorem resumeStep_regs (s : State) : (resumeStep s).regs = s.regs := by
  unfold resumeStep
  try dsimp only
  repeat' (first | (simp; done) | (have h := appendRec_frame (by assumption); simp [h]; done) | (have h := takeSlot_frame (by assumption); simp [h]; done) | (have h := placePage_frame (by assumption); simp [h]; done) | (have h := placePart_frame (by assumption); simp [h]; done) | split | (refine (forAll_regs _ _ _ (fun x s => ?_)).trans ?_; try dsimp only) | (refine adminCmd_regs _ _ _ _ ?_; try dsimp only) | simp)

theorem resumeStep_latch (s : State) : (resumeStep s).latch = s.latch := by
  unfold resumeStep
  try dsimp only
  repeat' (first | (simp; done) | (have h := appendRec_frame (by assumption); simp [h]; done) | (have h := takeSlot_frame (by assumption); simp [h]; done) | (have h := placePage_frame (by assumption); simp [h]; done) | (have h := placePart_frame (by assumption); simp [h]; done) | split | (refine (forAll_latch _ _ _ (fun x s => ?_)).trans ?_; try dsimp only) | (refine adminCmd_latch _ _ _ _ ?_; try dsimp only) | simp)

theorem resumeStep_mem (s : State) : (resumeStep s).mem = s.mem := by
  unfold resumeStep
  try dsimp only
  repeat' (first | (simp; done) | (have h := appendRec_frame (by assumption); simp [h]; done) | (have h := takeSlot_frame (by assumption); simp [h]; done) | (have h := placePage_frame (by assumption); simp [h]; done) | (have h := placePart_frame (by assumption); simp [h]; done) | split | (refine (forAll_mem _ _ _ (fun x s => ?_)).trans ?_; try dsimp only) | (refine adminCmd_mem _ _ _ _ ?_; try dsimp only) | simp)

theorem resumeStep_sys (s : State) : (resumeStep s).sys = s.sys := by
  unfold resumeStep
  try dsimp only
  repeat' (first | (simp; done) | (have h := appendRec_frame (by assumption); simp [h]; done) | (have h := takeSlot_frame (by assumption); simp [h]; done) | (have h := placePage_frame (by assumption); simp [h]; done) | (have h := placePart_frame (by assumption); simp [h]; done) | split | (refine (forAll_sys _ _ _ (fun x s => ?_)).trans ?_; try dsimp only) | (refine adminCmd_sys _ _ _ _ ?_; try dsimp only) | simp)

theorem resumeStep_clk (s : State) : (resumeStep s).clk = s.clk := by
  unfold resumeStep
  try dsimp only
  repeat' (first | (simp; done) | (have h := appendRec_frame (by assumption); simp [h]; done) | (have h := takeSlot_frame (by assumption); simp [h]; done) | (have h := placePage_frame (by assumption); simp [h]; done) | (have h := placePart_frame (by assumption); simp [h]; done) | split | (refine (forAll_clk _ _ _ (fun x s => ?_)).trans ?_; try dsimp only) | (refine adminCmd_clk _ _ _ _ ?_; try dsimp only) | simp)

theorem resumeStep_thm (s : State) : (resumeStep s).thm = s.thm := by
  unfold resumeStep
  try dsimp only
  repeat' (first | (simp; done) | (have h := appendRec_frame (by assumption); simp [h]; done) | (have h := takeSlot_frame (by assumption); simp [h]; done) | (have h := placePage_frame (by assumption); simp [h]; done) | (have h := placePart_frame (by assumption); simp [h]; done) | split | (refine (forAll_thm _ _ _ (fun x s => ?_)).trans ?_; try dsimp only) | (refine adminCmd_thm _ _ _ _ ?_; try dsimp only) | simp)

theorem resumeStep_tck (s : State) : (resumeStep s).tck = s.tck := by
  unfold resumeStep
  try dsimp only
  repeat' (first | (simp; done) | (have h := appendRec_frame (by assumption); simp [h]; done) | (have h := takeSlot_frame (by assumption); simp [h]; done) | (have h := placePage_frame (by assumption); simp [h]; done) | (have h := placePart_frame (by assumption); simp [h]; done) | split | (refine (forAll_tck _ _ _ (fun x s => ?_)).trans ?_; try dsimp only) | (refine adminCmd_tck _ _ _ _ ?_; try dsimp only) | simp)

theorem resumeStep_hif (s : State) : (resumeStep s).hif = s.hif := by
  unfold resumeStep
  try dsimp only
  repeat' (first | (simp; done) | (have h := appendRec_frame (by assumption); simp [h]; done) | (have h := takeSlot_frame (by assumption); simp [h]; done) | (have h := placePage_frame (by assumption); simp [h]; done) | (have h := placePart_frame (by assumption); simp [h]; done) | split | (refine (forAll_hif _ _ _ (fun x s => ?_)).trans ?_; try dsimp only) | simp)

theorem resumeStep_stm (s : State) : (resumeStep s).stm = s.stm := by
  unfold resumeStep
  try dsimp only
  repeat' (first | (simp; done) | (have h := appendRec_frame (by assumption); simp [h]; done) | (have h := takeSlot_frame (by assumption); simp [h]; done) | (have h := placePage_frame (by assumption); simp [h]; done) | (have h := placePart_frame (by assumption); simp [h]; done) | split | (refine (forAll_stm _ _ _ (fun x s => ?_)).trans ?_; try dsimp only) | (refine adminCmd_stm _ _ _ _ ?_; try dsimp only) | simp)

theorem resumeStep_map (s : State) : (resumeStep s).map = s.map := by
  unfold resumeStep
  try dsimp only
  repeat' (first | (simp; done) | (have h := appendRec_frame (by assumption); simp [h]; done) | (have h := takeSlot_frame (by assumption); simp [h]; done) | (have h := placePage_frame (by assumption); simp [h]; done) | (have h := placePart_frame (by assumption); simp [h]; done) | split | (refine (forAll_map _ _ _ (fun x s => ?_)).trans ?_; try dsimp only) | (refine adminCmd_map _ _ _ _ ?_; try dsimp only) | simp)

theorem resumeStep_bnd (s : State) : (resumeStep s).bnd = s.bnd := by
  unfold resumeStep
  try dsimp only
  repeat' (first | (simp; done) | (have h := appendRec_frame (by assumption); simp [h]; done) | (have h := takeSlot_frame (by assumption); simp [h]; done) | (have h := placePage_frame (by assumption); simp [h]; done) | (have h := placePart_frame (by assumption); simp [h]; done) | split | (refine (forAll_bnd _ _ _ (fun x s => ?_)).trans ?_; try dsimp only) | (refine adminCmd_bnd _ _ _ _ ?_; try dsimp only) | simp)

theorem resumeStep_mbr (s : State) : (resumeStep s).mbr = s.mbr := by
  unfold resumeStep
  try dsimp only
  repeat' (first | (simp; done) | (have h := appendRec_frame (by assumption); simp [h]; done) | (have h := takeSlot_frame (by assumption); simp [h]; done) | (have h := placePage_frame (by assumption); simp [h]; done) | (have h := placePart_frame (by assumption); simp [h]; done) | split | (refine (forAll_mbr _ _ _ (fun x s => ?_)).trans ?_; try dsimp only) | (refine adminCmd_mbr _ _ _ _ ?_; try dsimp only) | simp)

theorem resumeStep_flt (s : State) : (resumeStep s).flt = s.flt := by
  unfold resumeStep
  try dsimp only
  repeat' (first | (simp; done) | (have h := appendRec_frame (by assumption); simp [h]; done) | (have h := takeSlot_frame (by assumption); simp [h]; done) | (have h := placePage_frame (by assumption); simp [h]; done) | (have h := placePart_frame (by assumption); simp [h]; done) | split | (refine (forAll_flt _ _ _ (fun x s => ?_)).trans ?_; try dsimp only) | (refine adminCmd_flt _ _ _ _ ?_; try dsimp only) | simp)

theorem resumeStep_sec (s : State) : (resumeStep s).sec = s.sec := by
  unfold resumeStep
  try dsimp only
  repeat' (first | (simp; done) | (have h := appendRec_frame (by assumption); simp [h]; done) | (have h := takeSlot_frame (by assumption); simp [h]; done) | (have h := placePage_frame (by assumption); simp [h]; done) | (have h := placePart_frame (by assumption); simp [h]; done) | split | (refine (forAll_sec _ _ _ (fun x s => ?_)).trans ?_; try dsimp only) | (refine adminCmd_sec _ _ _ _ ?_; try dsimp only) | simp)

theorem resumeStep_cpx (s : State) : (resumeStep s).cpx = s.cpx := by
  unfold resumeStep
  try dsimp only
  repeat' (first | (simp; done) | (have h := appendRec_frame (by assumption); simp [h]; done) | (have h := takeSlot_frame (by assumption); simp [h]; done) | (have h := placePage_frame (by assumption); simp [h]; done) | (have h := placePart_frame (by assumption); simp [h]; done) | split | (refine (forAll_cpx _ _ _ (fun x s => ?_)).trans ?_; try dsimp only) | (refine adminCmd_cpx _ _ _ _ ?_; try dsimp only) | simp)

theorem resumeStep_memc (s : State) : (resumeStep s).memc = s.memc := by
  unfold resumeStep
  try dsimp only
  repeat' (first | (simp; done) | (have h := appendRec_frame (by assumption); simp [h]; done) | (have h := takeSlot_frame (by assumption); simp [h]; done) | (have h := placePage_frame (by assumption); simp [h]; done) | (have h := placePart_frame (by assumption); simp [h]; done) | split | (refine (forAll_memc _ _ _ (fun x s => ?_)).trans ?_; try dsimp only) | (refine adminCmd_memc _ _ _ _ ?_; try dsimp only) | simp)

theorem resumeStep_mov (s : State) : (resumeStep s).mov = s.mov := by
  unfold resumeStep
  try dsimp only
  repeat' (first | (simp; done) | (have h := appendRec_frame (by assumption); simp [h]; done) | (have h := takeSlot_frame (by assumption); simp [h]; done) | (have h := placePage_frame (by assumption); simp [h]; done) | (have h := placePart_frame (by assumption); simp [h]; done) | split | (refine (forAll_mov _ _ _ (fun x s => ?_)).trans ?_; try dsimp only) | (refine adminCmd_mov _ _ _ _ ?_; try dsimp only) | simp)

theorem resumeStep_cst (s : State) : (resumeStep s).cst = s.cst := by
  unfold resumeStep
  try dsimp only
  repeat' (first | (simp; done) | (have h := appendRec_frame (by assumption); simp [h]; done) | (have h := takeSlot_frame (by assumption); simp [h]; done) | (have h := placePage_frame (by assumption); simp [h]; done) | (have h := placePart_frame (by assumption); simp [h]; done) | split | (refine (forAll_cst _ _ _ (fun x s => ?_)).trans ?_; try dsimp only) | (refine adminCmd_cst _ _ _ _ ?_; try dsimp only) | simp)

theorem resumeStep_lnt (s : State) : (resumeStep s).lnt = s.lnt := by
  unfold resumeStep
  try dsimp only
  repeat' (first | (simp; done) | (have h := appendRec_frame (by assumption); simp [h]; done) | (have h := takeSlot_frame (by assumption); simp [h]; done) | (have h := placePage_frame (by assumption); simp [h]; done) | (have h := placePart_frame (by assumption); simp [h]; done) | split | (refine (forAll_lnt _ _ _ (fun x s => ?_)).trans ?_; try dsimp only) | simp)

theorem resumeStep_out (s : State) : (resumeStep s).out = s.out := by
  unfold resumeStep
  try dsimp only
  repeat' (first | (simp; done) | (have h := appendRec_frame (by assumption); simp [h]; done) | (have h := takeSlot_frame (by assumption); simp [h]; done) | (have h := placePage_frame (by assumption); simp [h]; done) | (have h := placePart_frame (by assumption); simp [h]; done) | split | (refine (forAll_out _ _ _ (fun x s => ?_)).trans ?_; try dsimp only) | simp)

theorem resumeStep_freeCtr (s : State) : (resumeStep s).freeCtr = s.freeCtr := by
  unfold resumeStep
  try dsimp only
  repeat' (first | (simp; done) | (have h := appendRec_frame (by assumption); simp [h]; done) | (have h := takeSlot_frame (by assumption); simp [h]; done) | (have h := placePage_frame (by assumption); simp [h]; done) | (have h := placePart_frame (by assumption); simp [h]; done) | split | (refine (forAll_freeCtr _ _ _ (fun x s => ?_)).trans ?_; try dsimp only) | (refine adminCmd_freeCtr _ _ _ _ ?_; try dsimp only) | simp)

@[simp] theorem resumeStep_frame (s : State) :
    (resumeStep s).pending = s.pending ∧ (resumeStep s).regs = s.regs ∧ (resumeStep s).latch = s.latch ∧ (resumeStep s).mem = s.mem ∧ (resumeStep s).sys = s.sys ∧ (resumeStep s).clk = s.clk ∧ (resumeStep s).thm = s.thm ∧ (resumeStep s).tck = s.tck ∧ (resumeStep s).hif = s.hif ∧ (resumeStep s).stm = s.stm ∧ (resumeStep s).map = s.map ∧ (resumeStep s).bnd = s.bnd ∧ (resumeStep s).mbr = s.mbr ∧ (resumeStep s).flt = s.flt ∧ (resumeStep s).sec = s.sec ∧ (resumeStep s).cpx = s.cpx ∧ (resumeStep s).memc = s.memc ∧ (resumeStep s).mov = s.mov ∧ (resumeStep s).cst = s.cst ∧ (resumeStep s).lnt = s.lnt ∧ (resumeStep s).out = s.out ∧ (resumeStep s).freeCtr = s.freeCtr :=
  ⟨resumeStep_pending s, resumeStep_regs s, resumeStep_latch s, resumeStep_mem s, resumeStep_sys s, resumeStep_clk s, resumeStep_thm s, resumeStep_tck s, resumeStep_hif s, resumeStep_stm s, resumeStep_map s, resumeStep_bnd s, resumeStep_mbr s, resumeStep_flt s, resumeStep_sec s, resumeStep_cpx s, resumeStep_memc s, resumeStep_mov s, resumeStep_cst s, resumeStep_lnt s, resumeStep_out s, resumeStep_freeCtr s⟩

@[simp] theorem rebuildRestart_frame (a0 : ℕ) (s : State) :
    (rebuildRestart a0 s).pending = s.pending ∧ (rebuildRestart a0 s).regs = s.regs ∧ (rebuildRestart a0 s).latch = s.latch ∧ (rebuildRestart a0 s).mem = s.mem ∧ (rebuildRestart a0 s).sys = s.sys ∧ (rebuildRestart a0 s).clk = s.clk ∧ (rebuildRestart a0 s).thm = s.thm ∧ (rebuildRestart a0 s).hif = s.hif ∧ (rebuildRestart a0 s).stm = s.stm ∧ (rebuildRestart a0 s).map = s.map ∧ (rebuildRestart a0 s).flt = s.flt ∧ (rebuildRestart a0 s).sec = s.sec ∧ (rebuildRestart a0 s).cpx = s.cpx ∧ (rebuildRestart a0 s).memc = s.memc ∧ (rebuildRestart a0 s).mov = s.mov ∧ (rebuildRestart a0 s).cst = s.cst ∧ (rebuildRestart a0 s).lnt = s.lnt ∧ (rebuildRestart a0 s).out = s.out ∧ (rebuildRestart a0 s).freeCtr = s.freeCtr := by
  unfold rebuildRestart
  try dsimp only
  first
    | (simp; done)
    | ((repeat' split) <;> simp; done)
    | (and_intros <;> (repeat' (first | (simp; done) | split)))

@[simp] theorem rebuildUnit_frame (a0 : ℕ) (a1 : Rebuild) (s : State) :
    (rebuildUnit a0 a1 s).pending = s.pending ∧ (rebuildUnit a0 a1 s).regs = s.regs ∧ (rebuildUnit a0 a1 s).latch = s.latch ∧ (rebuildUnit a0 a1 s).mem = s.mem ∧ (rebuildUnit a0 a1 s).sys = s.sys ∧ (rebuildUnit a0 a1 s).clk = s.clk ∧ (rebuildUnit a0 a1 s).thm = s.thm ∧ (rebuildUnit a0 a1 s).tck = s.tck ∧ (rebuildUnit a0 a1 s).hif = s.hif ∧ (rebuildUnit a0 a1 s).stm = s.stm ∧ (rebuildUnit a0 a1 s).map = s.map ∧ (rebuildUnit a0 a1 s).mbr = s.mbr ∧ (rebuildUnit a0 a1 s).flt = s.flt ∧ (rebuildUnit a0 a1 s).sec = s.sec ∧ (rebuildUnit a0 a1 s).cpx = s.cpx ∧ (rebuildUnit a0 a1 s).memc = s.memc ∧ (rebuildUnit a0 a1 s).mov = s.mov ∧ (rebuildUnit a0 a1 s).cst = s.cst ∧ (rebuildUnit a0 a1 s).lnt = s.lnt ∧ (rebuildUnit a0 a1 s).out = s.out ∧ (rebuildUnit a0 a1 s).freeCtr = s.freeCtr := by
  unfold rebuildUnit
  try dsimp only
  first
    | (simp; done)
    | ((repeat' split) <;> simp; done)
    | (and_intros <;> (repeat' (first | (simp; done) | split)))

theorem rebuildStep_pending (s : State) : (rebuildStep s).pending = s.pending := by
  unfold rebuildStep
  try dsimp only
  first
    | (simp; done)
    | ((repeat' split) <;> simp; done)
    | (repeat' (first | (simp; done) | split))

theorem rebuildStep_latch (s : State) : (rebuildStep s).latch = s.latch := by
  unfold rebuildStep
  try dsimp only
  first
    | (simp; done)
    | ((repeat' split) <;> simp; done)
    | (repeat' (first | (simp; done) | split))

theorem rebuildStep_mem (s : State) : (rebuildStep s).mem = s.mem := by
  unfold rebuildStep
  try dsimp only
  first
    | (simp; done)
    | ((repeat' split) <;> simp; done)
    | (repeat' (first | (simp; done) | split))

theorem rebuildStep_clk (s : State) : (rebuildStep s).clk = s.clk := by
  unfold rebuildStep
  try dsimp only
  first
    | (simp; done)
    | ((repeat' split) <;> simp; done)
    | (repeat' (first | (simp; done) | split))

theorem rebuildStep_thm (s : State) : (rebuildStep s).thm = s.thm := by
  unfold rebuildStep
  try dsimp only
  first
    | (simp; done)
    | ((repeat' split) <;> simp; done)
    | (repeat' (first | (simp; done) | split))

theorem rebuildStep_flt (s : State) : (rebuildStep s).flt = s.flt := by
  unfold rebuildStep
  try dsimp only
  first
    | (simp; done)
    | ((repeat' split) <;> simp; done)
    | (repeat' (first | (simp; done) | split))

theorem rebuildStep_sec (s : State) : (rebuildStep s).sec = s.sec := by
  unfold rebuildStep
  try dsimp only
  first
    | (simp; done)
    | ((repeat' split) <;> simp; done)
    | (repeat' (first | (simp; done) | split))

theorem rebuildStep_cpx (s : State) : (rebuildStep s).cpx = s.cpx := by
  unfold rebuildStep
  try dsimp only
  first
    | (simp; done)
    | ((repeat' split) <;> simp; done)
    | (repeat' (first | (simp; done) | split))

theorem rebuildStep_memc (s : State) : (rebuildStep s).memc = s.memc := by
  unfold rebuildStep
  try dsimp only
  first
    | (simp; done)
    | ((repeat' split) <;> simp; done)
    | (repeat' (first | (simp; done) | split))

theorem rebuildStep_mov (s : State) : (rebuildStep s).mov = s.mov := by
  unfold rebuildStep
  try dsimp only
  first
    | (simp; done)
    | ((repeat' split) <;> simp; done)
    | (repeat' (first | (simp; done) | split))

theorem rebuildStep_freeCtr (s : State) : (rebuildStep s).freeCtr = s.freeCtr := by
  unfold rebuildStep
  try dsimp only
  first
    | (simp; done)
    | ((repeat' split) <;> simp; done)
    | (repeat' (first | (simp; done) | split))

@[simp] theorem rebuildStep_frame (s : State) :
    (rebuildStep s).pending = s.pending ∧ (rebuildStep s).latch = s.latch ∧ (rebuildStep s).mem = s.mem ∧ (rebuildStep s).clk = s.clk ∧ (rebuildStep s).thm = s.thm ∧ (rebuildStep s).flt = s.flt ∧ (rebuildStep s).sec = s.sec ∧ (rebuildStep s).cpx = s.cpx ∧ (rebuildStep s).memc = s.memc ∧ (rebuildStep s).mov = s.mov ∧ (rebuildStep s).freeCtr = s.freeCtr :=
  ⟨rebuildStep_pending s, rebuildStep_latch s, rebuildStep_mem s, rebuildStep_clk s, rebuildStep_thm s, rebuildStep_flt s, rebuildStep_sec s, rebuildStep_cpx s, rebuildStep_memc s, rebuildStep_mov s, rebuildStep_freeCtr s⟩

theorem rebuildProgram_pending (s : State) : (rebuildProgram s).pending = s.pending := by
  unfold rebuildProgram
  try dsimp only
  repeat' (first | (simp; done) | (have h := appendRec_frame (by assumption); simp [h]; done) | (have h := takeSlot_frame (by assumption); simp [h]; done) | (have h := placePage_frame (by assumption); simp [h]; done) | (have h := placePart_frame (by assumption); simp [h]; done) | split | (refine (forAll_pending _ _ _ (fun x s => ?_)).trans ?_; try dsimp only) | (refine adminCmd_pending _ _ _ _ ?_; try dsimp only) | simp)

theorem rebuildProgram_regs (s : State) : (rebuildProgram s).regs = s.regs := by
  unfold rebuildProgram
  try dsimp only
  repeat' (first | (simp; done) | (have h := appendRec_frame (by assumption); simp [h]; done) | (have h := takeSlot_frame (by assumption); simp [h]; done) | (have h := placePage_frame (by assumption); simp [h]; done) | (have h := placePart_frame (by assumption); simp [h]; done) | split | (refine (forAll_regs _ _ _ (fun x s => ?_)).trans ?_; try dsimp only) | (refine adminCmd_regs _ _ _ _ ?_; try dsimp only) | simp)

theorem rebuildProgram_latch (s : State) : (rebuildProgram s).latch = s.latch := by
  unfold rebuildProgram
  try dsimp only
  repeat' (first | (simp; done) | (have h := appendRec_frame (by assumption); simp [h]; done) | (have h := takeSlot_frame (by assumption); simp [h]; done) | (have h := placePage_frame (by assumption); simp [h]; done) | (have h := placePart_frame (by assumption); simp [h]; done) | split | (refine (forAll_latch _ _ _ (fun x s => ?_)).trans ?_; try dsimp only) | (refine adminCmd_latch _ _ _ _ ?_; try dsimp only) | simp)

theorem rebuildProgram_mem (s : State) : (rebuildProgram s).mem = s.mem := by
  unfold rebuildProgram
  try dsimp only
  repeat' (first | (simp; done) | (have h := appendRec_frame (by assumption); simp [h]; done) | (have h := takeSlot_frame (by assumption); simp [h]; done) | (have h := placePage_frame (by assumption); simp [h]; done) | (have h := placePart_frame (by assumption); simp [h]; done) | split | (refine (forAll_mem _ _ _ (fun x s => ?_)).trans ?_; try dsimp only) | (refine adminCmd_mem _ _ _ _ ?_; try dsimp only) | simp)

theorem rebuildProgram_sys (s : State) : (rebuildProgram s).sys = s.sys := by
  unfold rebuildProgram
  try dsimp only
  repeat' (first | (simp; done) | (have h := appendRec_frame (by assumption); simp [h]; done) | (have h := takeSlot_frame (by assumption); simp [h]; done) | (have h := placePage_frame (by assumption); simp [h]; done) | (have h := placePart_frame (by assumption); simp [h]; done) | split | (refine (forAll_sys _ _ _ (fun x s => ?_)).trans ?_; try dsimp only) | (refine adminCmd_sys _ _ _ _ ?_; try dsimp only) | simp)

theorem rebuildProgram_clk (s : State) : (rebuildProgram s).clk = s.clk := by
  unfold rebuildProgram
  try dsimp only
  repeat' (first | (simp; done) | (have h := appendRec_frame (by assumption); simp [h]; done) | (have h := takeSlot_frame (by assumption); simp [h]; done) | (have h := placePage_frame (by assumption); simp [h]; done) | (have h := placePart_frame (by assumption); simp [h]; done) | split | (refine (forAll_clk _ _ _ (fun x s => ?_)).trans ?_; try dsimp only) | (refine adminCmd_clk _ _ _ _ ?_; try dsimp only) | simp)

theorem rebuildProgram_thm (s : State) : (rebuildProgram s).thm = s.thm := by
  unfold rebuildProgram
  try dsimp only
  repeat' (first | (simp; done) | (have h := appendRec_frame (by assumption); simp [h]; done) | (have h := takeSlot_frame (by assumption); simp [h]; done) | (have h := placePage_frame (by assumption); simp [h]; done) | (have h := placePart_frame (by assumption); simp [h]; done) | split | (refine (forAll_thm _ _ _ (fun x s => ?_)).trans ?_; try dsimp only) | (refine adminCmd_thm _ _ _ _ ?_; try dsimp only) | simp)

theorem rebuildProgram_hif (s : State) : (rebuildProgram s).hif = s.hif := by
  unfold rebuildProgram
  try dsimp only
  repeat' (first | (simp; done) | (have h := appendRec_frame (by assumption); simp [h]; done) | (have h := takeSlot_frame (by assumption); simp [h]; done) | (have h := placePage_frame (by assumption); simp [h]; done) | (have h := placePart_frame (by assumption); simp [h]; done) | split | (refine (forAll_hif _ _ _ (fun x s => ?_)).trans ?_; try dsimp only) | simp)

theorem rebuildProgram_stm (s : State) : (rebuildProgram s).stm = s.stm := by
  unfold rebuildProgram
  try dsimp only
  repeat' (first | (simp; done) | (have h := appendRec_frame (by assumption); simp [h]; done) | (have h := takeSlot_frame (by assumption); simp [h]; done) | (have h := placePage_frame (by assumption); simp [h]; done) | (have h := placePart_frame (by assumption); simp [h]; done) | split | (refine (forAll_stm _ _ _ (fun x s => ?_)).trans ?_; try dsimp only) | (refine adminCmd_stm _ _ _ _ ?_; try dsimp only) | simp)

theorem rebuildProgram_map (s : State) : (rebuildProgram s).map = s.map := by
  unfold rebuildProgram
  try dsimp only
  repeat' (first | (simp; done) | (have h := appendRec_frame (by assumption); simp [h]; done) | (have h := takeSlot_frame (by assumption); simp [h]; done) | (have h := placePage_frame (by assumption); simp [h]; done) | (have h := placePart_frame (by assumption); simp [h]; done) | split | (refine (forAll_map _ _ _ (fun x s => ?_)).trans ?_; try dsimp only) | (refine adminCmd_map _ _ _ _ ?_; try dsimp only) | simp)

theorem rebuildProgram_flc (s : State) : (rebuildProgram s).flc = s.flc := by
  unfold rebuildProgram
  try dsimp only
  repeat' (first | (simp; done) | (have h := appendRec_frame (by assumption); simp [h]; done) | (have h := takeSlot_frame (by assumption); simp [h]; done) | (have h := placePage_frame (by assumption); simp [h]; done) | (have h := placePart_frame (by assumption); simp [h]; done) | split | (refine (forAll_flc _ _ _ (fun x s => ?_)).trans ?_; try dsimp only) | (refine adminCmd_flc _ _ _ _ ?_; try dsimp only) | simp)

theorem rebuildProgram_mbr (s : State) : (rebuildProgram s).mbr = s.mbr := by
  unfold rebuildProgram
  try dsimp only
  repeat' (first | (simp; done) | (have h := appendRec_frame (by assumption); simp [h]; done) | (have h := takeSlot_frame (by assumption); simp [h]; done) | (have h := placePage_frame (by assumption); simp [h]; done) | (have h := placePart_frame (by assumption); simp [h]; done) | split | (refine (forAll_mbr _ _ _ (fun x s => ?_)).trans ?_; try dsimp only) | (refine adminCmd_mbr _ _ _ _ ?_; try dsimp only) | simp)

theorem rebuildProgram_flt (s : State) : (rebuildProgram s).flt = s.flt := by
  unfold rebuildProgram
  try dsimp only
  repeat' (first | (simp; done) | (have h := appendRec_frame (by assumption); simp [h]; done) | (have h := takeSlot_frame (by assumption); simp [h]; done) | (have h := placePage_frame (by assumption); simp [h]; done) | (have h := placePart_frame (by assumption); simp [h]; done) | split | (refine (forAll_flt _ _ _ (fun x s => ?_)).trans ?_; try dsimp only) | (refine adminCmd_flt _ _ _ _ ?_; try dsimp only) | simp)

theorem rebuildProgram_sec (s : State) : (rebuildProgram s).sec = s.sec := by
  unfold rebuildProgram
  try dsimp only
  repeat' (first | (simp; done) | (have h := appendRec_frame (by assumption); simp [h]; done) | (have h := takeSlot_frame (by assumption); simp [h]; done) | (have h := placePage_frame (by assumption); simp [h]; done) | (have h := placePart_frame (by assumption); simp [h]; done) | split | (refine (forAll_sec _ _ _ (fun x s => ?_)).trans ?_; try dsimp only) | (refine adminCmd_sec _ _ _ _ ?_; try dsimp only) | simp)

theorem rebuildProgram_cpx (s : State) : (rebuildProgram s).cpx = s.cpx := by
  unfold rebuildProgram
  try dsimp only
  repeat' (first | (simp; done) | (have h := appendRec_frame (by assumption); simp [h]; done) | (have h := takeSlot_frame (by assumption); simp [h]; done) | (have h := placePage_frame (by assumption); simp [h]; done) | (have h := placePart_frame (by assumption); simp [h]; done) | split | (refine (forAll_cpx _ _ _ (fun x s => ?_)).trans ?_; try dsimp only) | (refine adminCmd_cpx _ _ _ _ ?_; try dsimp only) | simp)

theorem rebuildProgram_memc (s : State) : (rebuildProgram s).memc = s.memc := by
  unfold rebuildProgram
  try dsimp only
  repeat' (first | (simp; done) | (have h := appendRec_frame (by assumption); simp [h]; done) | (have h := takeSlot_frame (by assumption); simp [h]; done) | (have h := placePage_frame (by assumption); simp [h]; done) | (have h := placePart_frame (by assumption); simp [h]; done) | split | (refine (forAll_memc _ _ _ (fun x s => ?_)).trans ?_; try dsimp only) | (refine adminCmd_memc _ _ _ _ ?_; try dsimp only) | simp)

theorem rebuildProgram_mov (s : State) : (rebuildProgram s).mov = s.mov := by
  unfold rebuildProgram
  try dsimp only
  repeat' (first | (simp; done) | (have h := appendRec_frame (by assumption); simp [h]; done) | (have h := takeSlot_frame (by assumption); simp [h]; done) | (have h := placePage_frame (by assumption); simp [h]; done) | (have h := placePart_frame (by assumption); simp [h]; done) | split | (refine (forAll_mov _ _ _ (fun x s => ?_)).trans ?_; try dsimp only) | (refine adminCmd_mov _ _ _ _ ?_; try dsimp only) | simp)

theorem rebuildProgram_cst (s : State) : (rebuildProgram s).cst = s.cst := by
  unfold rebuildProgram
  try dsimp only
  repeat' (first | (simp; done) | (have h := appendRec_frame (by assumption); simp [h]; done) | (have h := takeSlot_frame (by assumption); simp [h]; done) | (have h := placePage_frame (by assumption); simp [h]; done) | (have h := placePart_frame (by assumption); simp [h]; done) | split | (refine (forAll_cst _ _ _ (fun x s => ?_)).trans ?_; try dsimp only) | (refine adminCmd_cst _ _ _ _ ?_; try dsimp only) | simp)

theorem rebuildProgram_lnt (s : State) : (rebuildProgram s).lnt = s.lnt := by
  unfold rebuildProgram
  try dsimp only
  repeat' (first | (simp; done) | (have h := appendRec_frame (by assumption); simp [h]; done) | (have h := takeSlot_frame (by assumption); simp [h]; done) | (have h := placePage_frame (by assumption); simp [h]; done) | (have h := placePart_frame (by assumption); simp [h]; done) | split | (refine (forAll_lnt _ _ _ (fun x s => ?_)).trans ?_; try dsimp only) | simp)

theorem rebuildProgram_out (s : State) : (rebuildProgram s).out = s.out := by
  unfold rebuildProgram
  try dsimp only
  repeat' (first | (simp; done) | (have h := appendRec_frame (by assumption); simp [h]; done) | (have h := takeSlot_frame (by assumption); simp [h]; done) | (have h := placePage_frame (by assumption); simp [h]; done) | (have h := placePart_frame (by assumption); simp [h]; done) | split | (refine (forAll_out _ _ _ (fun x s => ?_)).trans ?_; try dsimp only) | simp)

theorem rebuildProgram_freeCtr (s : State) : (rebuildProgram s).freeCtr = s.freeCtr := by
  unfold rebuildProgram
  try dsimp only
  repeat' (first | (simp; done) | (have h := appendRec_frame (by assumption); simp [h]; done) | (have h := takeSlot_frame (by assumption); simp [h]; done) | (have h := placePage_frame (by assumption); simp [h]; done) | (have h := placePart_frame (by assumption); simp [h]; done) | split | (refine (forAll_freeCtr _ _ _ (fun x s => ?_)).trans ?_; try dsimp only) | (refine adminCmd_freeCtr _ _ _ _ ?_; try dsimp only) | simp)

@[simp] theorem rebuildProgram_frame (s : State) :
    (rebuildProgram s).pending = s.pending ∧ (rebuildProgram s).regs = s.regs ∧ (rebuildProgram s).latch = s.latch ∧ (rebuildProgram s).mem = s.mem ∧ (rebuildProgram s).sys = s.sys ∧ (rebuildProgram s).clk = s.clk ∧ (rebuildProgram s).thm = s.thm ∧ (rebuildProgram s).hif = s.hif ∧ (rebuildProgram s).stm = s.stm ∧ (rebuildProgram s).map = s.map ∧ (rebuildProgram s).flc = s.flc ∧ (rebuildProgram s).mbr = s.mbr ∧ (rebuildProgram s).flt = s.flt ∧ (rebuildProgram s).sec = s.sec ∧ (rebuildProgram s).cpx = s.cpx ∧ (rebuildProgram s).memc = s.memc ∧ (rebuildProgram s).mov = s.mov ∧ (rebuildProgram s).cst = s.cst ∧ (rebuildProgram s).lnt = s.lnt ∧ (rebuildProgram s).out = s.out ∧ (rebuildProgram s).freeCtr = s.freeCtr :=
  ⟨rebuildProgram_pending s, rebuildProgram_regs s, rebuildProgram_latch s, rebuildProgram_mem s, rebuildProgram_sys s, rebuildProgram_clk s, rebuildProgram_thm s, rebuildProgram_hif s, rebuildProgram_stm s, rebuildProgram_map s, rebuildProgram_flc s, rebuildProgram_mbr s, rebuildProgram_flt s, rebuildProgram_sec s, rebuildProgram_cpx s, rebuildProgram_memc s, rebuildProgram_mov s, rebuildProgram_cst s, rebuildProgram_lnt s, rebuildProgram_out s, rebuildProgram_freeCtr s⟩

theorem rebuildPassed_pending (a0 : ℕ) (a1 : ℕ) (s : State) : (rebuildPassed a0 a1 s).pending = s.pending := by
  unfold rebuildPassed
  try dsimp only
  first
    | (simp; done)
    | ((repeat' split) <;> simp; done)
    | (repeat' (first | (simp; done) | split))

theorem rebuildPassed_latch (a0 : ℕ) (a1 : ℕ) (s : State) : (rebuildPassed a0 a1 s).latch = s.latch := by
  unfold rebuildPassed
  try dsimp only
  first
    | (simp; done)
    | ((repeat' split) <;> simp; done)
    | (repeat' (first | (simp; done) | split))

theorem rebuildPassed_mem (a0 : ℕ) (a1 : ℕ) (s : State) : (rebuildPassed a0 a1 s).mem = s.mem := by
  unfold rebuildPassed
  try dsimp only
  first
    | (simp; done)
    | ((repeat' split) <;> simp; done)
    | (repeat' (first | (simp; done) | split))

theorem rebuildPassed_clk (a0 : ℕ) (a1 : ℕ) (s : State) : (rebuildPassed a0 a1 s).clk = s.clk := by
  unfold rebuildPassed
  try dsimp only
  first
    | (simp; done)
    | ((repeat' split) <;> simp; done)
    | (repeat' (first | (simp; done) | split))

theorem rebuildPassed_thm (a0 : ℕ) (a1 : ℕ) (s : State) : (rebuildPassed a0 a1 s).thm = s.thm := by
  unfold rebuildPassed
  try dsimp only
  first
    | (simp; done)
    | ((repeat' split) <;> simp; done)
    | (repeat' (first | (simp; done) | split))

theorem rebuildPassed_flt (a0 : ℕ) (a1 : ℕ) (s : State) : (rebuildPassed a0 a1 s).flt = s.flt := by
  unfold rebuildPassed
  try dsimp only
  first
    | (simp; done)
    | ((repeat' split) <;> simp; done)
    | (repeat' (first | (simp; done) | split))

theorem rebuildPassed_sec (a0 : ℕ) (a1 : ℕ) (s : State) : (rebuildPassed a0 a1 s).sec = s.sec := by
  unfold rebuildPassed
  try dsimp only
  first
    | (simp; done)
    | ((repeat' split) <;> simp; done)
    | (repeat' (first | (simp; done) | split))

theorem rebuildPassed_cpx (a0 : ℕ) (a1 : ℕ) (s : State) : (rebuildPassed a0 a1 s).cpx = s.cpx := by
  unfold rebuildPassed
  try dsimp only
  first
    | (simp; done)
    | ((repeat' split) <;> simp; done)
    | (repeat' (first | (simp; done) | split))

theorem rebuildPassed_memc (a0 : ℕ) (a1 : ℕ) (s : State) : (rebuildPassed a0 a1 s).memc = s.memc := by
  unfold rebuildPassed
  try dsimp only
  first
    | (simp; done)
    | ((repeat' split) <;> simp; done)
    | (repeat' (first | (simp; done) | split))

theorem rebuildPassed_mov (a0 : ℕ) (a1 : ℕ) (s : State) : (rebuildPassed a0 a1 s).mov = s.mov := by
  unfold rebuildPassed
  try dsimp only
  first
    | (simp; done)
    | ((repeat' split) <;> simp; done)
    | (repeat' (first | (simp; done) | split))

theorem rebuildPassed_freeCtr (a0 : ℕ) (a1 : ℕ) (s : State) : (rebuildPassed a0 a1 s).freeCtr = s.freeCtr := by
  unfold rebuildPassed
  try dsimp only
  first
    | (simp; done)
    | ((repeat' split) <;> simp; done)
    | (repeat' (first | (simp; done) | split))

@[simp] theorem rebuildPassed_frame (a0 : ℕ) (a1 : ℕ) (s : State) :
    (rebuildPassed a0 a1 s).pending = s.pending ∧ (rebuildPassed a0 a1 s).latch = s.latch ∧ (rebuildPassed a0 a1 s).mem = s.mem ∧ (rebuildPassed a0 a1 s).clk = s.clk ∧ (rebuildPassed a0 a1 s).thm = s.thm ∧ (rebuildPassed a0 a1 s).flt = s.flt ∧ (rebuildPassed a0 a1 s).sec = s.sec ∧ (rebuildPassed a0 a1 s).cpx = s.cpx ∧ (rebuildPassed a0 a1 s).memc = s.memc ∧ (rebuildPassed a0 a1 s).mov = s.mov ∧ (rebuildPassed a0 a1 s).freeCtr = s.freeCtr :=
  ⟨rebuildPassed_pending a0 a1 s, rebuildPassed_latch a0 a1 s, rebuildPassed_mem a0 a1 s, rebuildPassed_clk a0 a1 s, rebuildPassed_thm a0 a1 s, rebuildPassed_flt a0 a1 s, rebuildPassed_sec a0 a1 s, rebuildPassed_cpx a0 a1 s, rebuildPassed_memc a0 a1 s, rebuildPassed_mov a0 a1 s, rebuildPassed_freeCtr a0 a1 s⟩

theorem progFail_pending (a0 : ℕ) (a1 : ℕ) (a2 : ℕ) (s : State) : (progFail a0 a1 a2 s).pending = s.pending := by
  unfold progFail
  try dsimp only
  first
    | (simp; done)
    | ((repeat' split) <;> simp; done)
    | (repeat' (first | (simp; done) | split))

theorem progFail_latch (a0 : ℕ) (a1 : ℕ) (a2 : ℕ) (s : State) : (progFail a0 a1 a2 s).latch = s.latch := by
  unfold progFail
  try dsimp only
  first
    | (simp; done)
    | ((repeat' split) <;> simp; done)
    | (repeat' (first | (simp; done) | split))

theorem progFail_mem (a0 : ℕ) (a1 : ℕ) (a2 : ℕ) (s : State) : (progFail a0 a1 a2 s).mem = s.mem := by
  unfold progFail
  try dsimp only
  first
    | (simp; done)
    | ((repeat' split) <;> simp; done)
    | (repeat' (first | (simp; done) | split))

theorem progFail_clk (a0 : ℕ) (a1 : ℕ) (a2 : ℕ) (s : State) : (progFail a0 a1 a2 s).clk = s.clk := by
  unfold progFail
  try dsimp only
  first
    | (simp; done)
    | ((repeat' split) <;> simp; done)
    | (repeat' (first | (simp; done) | split))

theorem progFail_thm (a0 : ℕ) (a1 : ℕ) (a2 : ℕ) (s : State) : (progFail a0 a1 a2 s).thm = s.thm := by
  unfold progFail
  try dsimp only
  first
    | (simp; done)
    | ((repeat' split) <;> simp; done)
    | (repeat' (first | (simp; done) | split))

theorem progFail_flt (a0 : ℕ) (a1 : ℕ) (a2 : ℕ) (s : State) : (progFail a0 a1 a2 s).flt = s.flt := by
  unfold progFail
  try dsimp only
  first
    | (simp; done)
    | ((repeat' split) <;> simp; done)
    | (repeat' (first | (simp; done) | split))

theorem progFail_sec (a0 : ℕ) (a1 : ℕ) (a2 : ℕ) (s : State) : (progFail a0 a1 a2 s).sec = s.sec := by
  unfold progFail
  try dsimp only
  first
    | (simp; done)
    | ((repeat' split) <;> simp; done)
    | (repeat' (first | (simp; done) | split))

theorem progFail_cpx (a0 : ℕ) (a1 : ℕ) (a2 : ℕ) (s : State) : (progFail a0 a1 a2 s).cpx = s.cpx := by
  unfold progFail
  try dsimp only
  first
    | (simp; done)
    | ((repeat' split) <;> simp; done)
    | (repeat' (first | (simp; done) | split))

theorem progFail_memc (a0 : ℕ) (a1 : ℕ) (a2 : ℕ) (s : State) : (progFail a0 a1 a2 s).memc = s.memc := by
  unfold progFail
  try dsimp only
  first
    | (simp; done)
    | ((repeat' split) <;> simp; done)
    | (repeat' (first | (simp; done) | split))

theorem progFail_mov (a0 : ℕ) (a1 : ℕ) (a2 : ℕ) (s : State) : (progFail a0 a1 a2 s).mov = s.mov := by
  unfold progFail
  try dsimp only
  first
    | (simp; done)
    | ((repeat' split) <;> simp; done)
    | (repeat' (first | (simp; done) | split))

theorem progFail_freeCtr (a0 : ℕ) (a1 : ℕ) (a2 : ℕ) (s : State) : (progFail a0 a1 a2 s).freeCtr = s.freeCtr := by
  unfold progFail
  try dsimp only
  first
    | (simp; done)
    | ((repeat' split) <;> simp; done)
    | (repeat' (first | (simp; done) | split))

@[simp] theorem progFail_frame (a0 : ℕ) (a1 : ℕ) (a2 : ℕ) (s : State) :
    (progFail a0 a1 a2 s).pending = s.pending ∧ (progFail a0 a1 a2 s).latch = s.latch ∧ (progFail a0 a1 a2 s).mem = s.mem ∧ (progFail a0 a1 a2 s).clk = s.clk ∧ (progFail a0 a1 a2 s).thm = s.thm ∧ (progFail a0 a1 a2 s).flt = s.flt ∧ (progFail a0 a1 a2 s).sec = s.sec ∧ (progFail a0 a1 a2 s).cpx = s.cpx ∧ (progFail a0 a1 a2 s).memc = s.memc ∧ (progFail a0 a1 a2 s).mov = s.mov ∧ (progFail a0 a1 a2 s).freeCtr = s.freeCtr :=
  ⟨progFail_pending a0 a1 a2 s, progFail_latch a0 a1 a2 s, progFail_mem a0 a1 a2 s, progFail_clk a0 a1 a2 s, progFail_thm a0 a1 a2 s, progFail_flt a0 a1 a2 s, progFail_sec a0 a1 a2 s, progFail_cpx a0 a1 a2 s, progFail_memc a0 a1 a2 s, progFail_mov a0 a1 a2 s, progFail_freeCtr a0 a1 a2 s⟩

/-! ### Mem -/

@[simp] theorem setInst_frame (a0 : ℕ) (a1 : MemInst → MemInst) (s : State) :
    (setInst a0 a1 s).pending = s.pending ∧ (setInst a0 a1 s).regs = s.regs ∧ (setInst a0 a1 s).latch = s.latch ∧ (setInst a0 a1 s).mem = s.mem ∧ (setInst a0 a1 s).sys = s.sys ∧ (setInst a0 a1 s).clk = s.clk ∧ (setInst a0 a1 s).thm = s.thm ∧ (setInst a0 a1 s).tck = s.tck ∧ (setInst a0 a1 s).hif = s.hif ∧ (setInst a0 a1 s).stm = s.stm ∧ (setInst a0 a1 s).map = s.map ∧ (setInst a0 a1 s).flc = s.flc ∧ (setInst a0 a1 s).bnd = s.bnd ∧ (setInst a0 a1 s).mbr = s.mbr ∧ (setInst a0 a1 s).flt = s.flt ∧ (setInst a0 a1 s).sec = s.sec ∧ (setInst a0 a1 s).cpx = s.cpx ∧ (setInst a0 a1 s).mov = s.mov ∧ (setInst a0 a1 s).cst = s.cst ∧ (setInst a0 a1 s).lnt = s.lnt ∧ (setInst a0 a1 s).out = s.out ∧ (setInst a0 a1 s).freeCtr = s.freeCtr := by
  unfold setInst
  try dsimp only
  first
    | (simp; done)
    | ((repeat' split) <;> simp; done)
    | (and_intros <;> (repeat' (first | (simp; done) | split)))

@[simp] theorem remapWord_frame (a0 : ℕ) (a1 : ℕ) (s : State) :
    (remapWord a0 a1 s).pending = s.pending ∧ (remapWord a0 a1 s).latch = s.latch ∧ (remapWord a0 a1 s).mem = s.mem ∧ (remapWord a0 a1 s).clk = s.clk ∧ (remapWord a0 a1 s).thm = s.thm ∧ (remapWord a0 a1 s).tck = s.tck ∧ (remapWord a0 a1 s).hif = s.hif ∧ (remapWord a0 a1 s).stm = s.stm ∧ (remapWord a0 a1 s).map = s.map ∧ (remapWord a0 a1 s).flc = s.flc ∧ (remapWord a0 a1 s).bnd = s.bnd ∧ (remapWord a0 a1 s).mbr = s.mbr ∧ (remapWord a0 a1 s).flt = s.flt ∧ (remapWord a0 a1 s).sec = s.sec ∧ (remapWord a0 a1 s).cpx = s.cpx ∧ (remapWord a0 a1 s).mov = s.mov ∧ (remapWord a0 a1 s).out = s.out ∧ (remapWord a0 a1 s).freeCtr = s.freeCtr := by
  unfold remapWord
  try dsimp only
  first
    | (simp; done)
    | ((repeat' split) <;> simp; done)
    | (and_intros <;> (repeat' (first | (simp; done) | split)))

@[simp] theorem memCorrected_frame (a0 : ℕ) (a1 : ℕ) (s : State) :
    (memCorrected a0 a1 s).pending = s.pending ∧ (memCorrected a0 a1 s).latch = s.latch ∧ (memCorrected a0 a1 s).mem = s.mem ∧ (memCorrected a0 a1 s).clk = s.clk ∧ (memCorrected a0 a1 s).thm = s.thm ∧ (memCorrected a0 a1 s).tck = s.tck ∧ (memCorrected a0 a1 s).hif = s.hif ∧ (memCorrected a0 a1 s).stm = s.stm ∧ (memCorrected a0 a1 s).map = s.map ∧ (memCorrected a0 a1 s).flc = s.flc ∧ (memCorrected a0 a1 s).bnd = s.bnd ∧ (memCorrected a0 a1 s).mbr = s.mbr ∧ (memCorrected a0 a1 s).flt = s.flt ∧ (memCorrected a0 a1 s).sec = s.sec ∧ (memCorrected a0 a1 s).cpx = s.cpx ∧ (memCorrected a0 a1 s).mov = s.mov ∧ (memCorrected a0 a1 s).out = s.out ∧ (memCorrected a0 a1 s).freeCtr = s.freeCtr := by
  unfold memCorrected
  try dsimp only
  first
    | (simp; done)
    | ((repeat' split) <;> simp; done)
    | (and_intros <;> (repeat' (first | (simp; done) | split)))

@[simp] theorem dieLost_frame (a0 : Bool) (s : State) :
    (dieLost a0 s).pending = s.pending ∧ (dieLost a0 s).latch = s.latch ∧ (dieLost a0 s).mem = s.mem ∧ (dieLost a0 s).clk = s.clk ∧ (dieLost a0 s).thm = s.thm ∧ (dieLost a0 s).tck = s.tck ∧ (dieLost a0 s).hif = s.hif ∧ (dieLost a0 s).stm = s.stm ∧ (dieLost a0 s).map = s.map ∧ (dieLost a0 s).flc = s.flc ∧ (dieLost a0 s).bnd = s.bnd ∧ (dieLost a0 s).mbr = s.mbr ∧ (dieLost a0 s).flt = s.flt ∧ (dieLost a0 s).sec = s.sec ∧ (dieLost a0 s).cpx = s.cpx ∧ (dieLost a0 s).mov = s.mov ∧ (dieLost a0 s).cst = s.cst ∧ (dieLost a0 s).out = s.out ∧ (dieLost a0 s).freeCtr = s.freeCtr := by
  unfold dieLost
  try dsimp only
  first
    | (simp; done)
    | ((repeat' split) <;> simp; done)
    | (and_intros <;> (repeat' (first | (simp; done) | split)))

@[simp] theorem keeperWordLost_frame (a0 : ℕ) (s : State) :
    (keeperWordLost a0 s).pending = s.pending ∧ (keeperWordLost a0 s).regs = s.regs ∧ (keeperWordLost a0 s).latch = s.latch ∧ (keeperWordLost a0 s).mem = s.mem ∧ (keeperWordLost a0 s).sys = s.sys ∧ (keeperWordLost a0 s).clk = s.clk ∧ (keeperWordLost a0 s).thm = s.thm ∧ (keeperWordLost a0 s).tck = s.tck ∧ (keeperWordLost a0 s).hif = s.hif ∧ (keeperWordLost a0 s).stm = s.stm ∧ (keeperWordLost a0 s).map = s.map ∧ (keeperWordLost a0 s).flc = s.flc ∧ (keeperWordLost a0 s).bnd = s.bnd ∧ (keeperWordLost a0 s).mbr = s.mbr ∧ (keeperWordLost a0 s).sec = s.sec ∧ (keeperWordLost a0 s).cpx = s.cpx ∧ (keeperWordLost a0 s).memc = s.memc ∧ (keeperWordLost a0 s).mov = s.mov ∧ (keeperWordLost a0 s).cst = s.cst ∧ (keeperWordLost a0 s).lnt = s.lnt ∧ (keeperWordLost a0 s).out = s.out ∧ (keeperWordLost a0 s).freeCtr = s.freeCtr := by
  unfold keeperWordLost
  try dsimp only
  first
    | (simp; done)
    | ((repeat' split) <;> simp; done)
    | (and_intros <;> (repeat' (first | (simp; done) | split)))

@[simp] theorem applyRemaps_frame (s : State) :
    (applyRemaps s).pending = s.pending ∧ (applyRemaps s).regs = s.regs ∧ (applyRemaps s).latch = s.latch ∧ (applyRemaps s).mem = s.mem ∧ (applyRemaps s).sys = s.sys ∧ (applyRemaps s).clk = s.clk ∧ (applyRemaps s).thm = s.thm ∧ (applyRemaps s).tck = s.tck ∧ (applyRemaps s).hif = s.hif ∧ (applyRemaps s).stm = s.stm ∧ (applyRemaps s).map = s.map ∧ (applyRemaps s).flc = s.flc ∧ (applyRemaps s).bnd = s.bnd ∧ (applyRemaps s).mbr = s.mbr ∧ (applyRemaps s).flt = s.flt ∧ (applyRemaps s).sec = s.sec ∧ (applyRemaps s).cpx = s.cpx ∧ (applyRemaps s).mov = s.mov ∧ (applyRemaps s).cst = s.cst ∧ (applyRemaps s).lnt = s.lnt ∧ (applyRemaps s).out = s.out ∧ (applyRemaps s).freeCtr = s.freeCtr := by
  unfold applyRemaps
  try dsimp only
  first
    | (simp; done)
    | ((repeat' split) <;> simp; done)
    | (and_intros <;> (repeat' (first | (simp; done) | split)))

/-! ### Reads -/

@[simp] theorem takeDecoder_frame (s : State) :
    (takeDecoder s).pending = s.pending ∧ (takeDecoder s).regs = s.regs ∧ (takeDecoder s).latch = s.latch ∧ (takeDecoder s).mem = s.mem ∧ (takeDecoder s).sys = s.sys ∧ (takeDecoder s).clk = s.clk ∧ (takeDecoder s).thm = s.thm ∧ (takeDecoder s).tck = s.tck ∧ (takeDecoder s).hif = s.hif ∧ (takeDecoder s).stm = s.stm ∧ (takeDecoder s).map = s.map ∧ (takeDecoder s).bnd = s.bnd ∧ (takeDecoder s).mbr = s.mbr ∧ (takeDecoder s).flt = s.flt ∧ (takeDecoder s).sec = s.sec ∧ (takeDecoder s).cpx = s.cpx ∧ (takeDecoder s).memc = s.memc ∧ (takeDecoder s).mov = s.mov ∧ (takeDecoder s).cst = s.cst ∧ (takeDecoder s).lnt = s.lnt ∧ (takeDecoder s).out = s.out ∧ (takeDecoder s).freeCtr = s.freeCtr := by
  unfold takeDecoder
  try dsimp only
  first
    | (simp; done)
    | ((repeat' split) <;> simp; done)
    | (and_intros <;> (repeat' (first | (simp; done) | split)))

@[simp] theorem releaseSoft_frame (a0 : ℕ) (s : State) :
    (releaseSoft a0 s).pending = s.pending ∧ (releaseSoft a0 s).latch = s.latch ∧ (releaseSoft a0 s).mem = s.mem ∧ (releaseSoft a0 s).clk = s.clk ∧ (releaseSoft a0 s).thm = s.thm ∧ (releaseSoft a0 s).tck = s.tck ∧ (releaseSoft a0 s).hif = s.hif ∧ (releaseSoft a0 s).map = s.map ∧ (releaseSoft a0 s).bnd = s.bnd ∧ (releaseSoft a0 s).mbr = s.mbr ∧ (releaseSoft a0 s).flt = s.flt ∧ (releaseSoft a0 s).sec = s.sec ∧ (releaseSoft a0 s).cpx = s.cpx ∧ (releaseSoft a0 s).memc = s.memc ∧ (releaseSoft a0 s).mov = s.mov ∧ (releaseSoft a0 s).cst = s.cst ∧ (releaseSoft a0 s).out = s.out ∧ (releaseSoft a0 s).freeCtr = s.freeCtr := by
  unfold releaseSoft
  try dsimp only
  first
    | (simp; done)
    | ((repeat' split) <;> simp; done)
    | (and_intros <;> (repeat' (first | (simp; done) | split)))

@[simp] theorem dropRead_frame (a0 : ℕ) (s : State) :
    (dropRead a0 s).pending = s.pending ∧ (dropRead a0 s).latch = s.latch ∧ (dropRead a0 s).mem = s.mem ∧ (dropRead a0 s).clk = s.clk ∧ (dropRead a0 s).thm = s.thm ∧ (dropRead a0 s).hif = s.hif ∧ (dropRead a0 s).map = s.map ∧ (dropRead a0 s).bnd = s.bnd ∧ (dropRead a0 s).mbr = s.mbr ∧ (dropRead a0 s).flt = s.flt ∧ (dropRead a0 s).sec = s.sec ∧ (dropRead a0 s).cpx = s.cpx ∧ (dropRead a0 s).memc = s.memc ∧ (dropRead a0 s).mov = s.mov ∧ (dropRead a0 s).cst = s.cst ∧ (dropRead a0 s).out = s.out ∧ (dropRead a0 s).freeCtr = s.freeCtr := by
  unfold dropRead
  try dsimp only
  first
    | (simp; done)
    | ((repeat' split) <;> simp; done)
    | (and_intros <;> (repeat' (first | (simp; done) | split)))

theorem raiseAll_frame (c : ℕ) (f : ℕ → List Byte) (l : List ℕ) (s : State) :
    (forAll l (fun g s => raise c (f g) s) s).pending = s.pending ∧ (forAll l (fun g s => raise c (f g) s) s).latch = s.latch ∧ (forAll l (fun g s => raise c (f g) s) s).mem = s.mem ∧ (forAll l (fun g s => raise c (f g) s) s).clk = s.clk ∧ (forAll l (fun g s => raise c (f g) s) s).thm = s.thm ∧ (forAll l (fun g s => raise c (f g) s) s).tck = s.tck ∧ (forAll l (fun g s => raise c (f g) s) s).stm = s.stm ∧ (forAll l (fun g s => raise c (f g) s) s).flc = s.flc ∧ (forAll l (fun g s => raise c (f g) s) s).mbr = s.mbr ∧ (forAll l (fun g s => raise c (f g) s) s).flt = s.flt ∧ (forAll l (fun g s => raise c (f g) s) s).sec = s.sec ∧ (forAll l (fun g s => raise c (f g) s) s).cpx = s.cpx ∧ (forAll l (fun g s => raise c (f g) s) s).memc = s.memc ∧ (forAll l (fun g s => raise c (f g) s) s).mov = s.mov ∧ (forAll l (fun g s => raise c (f g) s) s).cst = s.cst ∧ (forAll l (fun g s => raise c (f g) s) s).out = s.out ∧ (forAll l (fun g s => raise c (f g) s) s).freeCtr = s.freeCtr :=
  ⟨forAll_pending _ _ _ (fun _ _ => by simp), forAll_latch _ _ _ (fun _ _ => by simp), forAll_mem _ _ _ (fun _ _ => by simp), forAll_clk _ _ _ (fun _ _ => by simp), forAll_thm _ _ _ (fun _ _ => by simp), forAll_tck _ _ _ (fun _ _ => by simp), forAll_stm _ _ _ (fun _ _ => by simp), forAll_flc _ _ _ (fun _ _ => by simp), forAll_mbr _ _ _ (fun _ _ => by simp), forAll_flt _ _ _ (fun _ _ => by simp), forAll_sec _ _ _ (fun _ _ => by simp), forAll_cpx _ _ _ (fun _ _ => by simp), forAll_memc _ _ _ (fun _ _ => by simp), forAll_mov _ _ _ (fun _ _ => by simp), forAll_cst _ _ _ (fun _ _ => by simp), forAll_out _ _ _ (fun _ _ => by simp), forAll_freeCtr _ _ _ (fun _ _ => by simp)⟩

@[simp] theorem lostRecords_frame (a0 : ℕ) (s : State) :
    (lostRecords a0 s).pending = s.pending ∧ (lostRecords a0 s).latch = s.latch ∧ (lostRecords a0 s).mem = s.mem ∧ (lostRecords a0 s).clk = s.clk ∧ (lostRecords a0 s).thm = s.thm ∧ (lostRecords a0 s).tck = s.tck ∧ (lostRecords a0 s).stm = s.stm ∧ (lostRecords a0 s).flc = s.flc ∧ (lostRecords a0 s).mbr = s.mbr ∧ (lostRecords a0 s).flt = s.flt ∧ (lostRecords a0 s).sec = s.sec ∧ (lostRecords a0 s).cpx = s.cpx ∧ (lostRecords a0 s).memc = s.memc ∧ (lostRecords a0 s).mov = s.mov ∧ (lostRecords a0 s).cst = s.cst ∧ (lostRecords a0 s).out = s.out ∧ (lostRecords a0 s).freeCtr = s.freeCtr := by
  induction a0 generalizing s with
  | zero => simp [lostRecords]
  | succ fuel ih =>
    unfold lostRecords
    extract_lets segs
    split
    · simp
    split
    · rename_i t h
      have h := appendRec_frame h
      have r := raiseAll_frame Ev.MAP_SEGMENT_MARKED_LOST (le 4) segs t
      simp only [ih, r, h, and_self]
    · simp

@[simp] theorem lostStep_frame (s : State) :
    (lostStep s).pending = s.pending ∧ (lostStep s).latch = s.latch ∧ (lostStep s).mem = s.mem ∧ (lostStep s).clk = s.clk ∧ (lostStep s).thm = s.thm ∧ (lostStep s).tck = s.tck ∧ (lostStep s).stm = s.stm ∧ (lostStep s).flc = s.flc ∧ (lostStep s).mbr = s.mbr ∧ (lostStep s).flt = s.flt ∧ (lostStep s).sec = s.sec ∧ (lostStep s).cpx = s.cpx ∧ (lostStep s).memc = s.memc ∧ (lostStep s).mov = s.mov ∧ (lostStep s).cst = s.cst ∧ (lostStep s).out = s.out ∧ (lostStep s).freeCtr = s.freeCtr := by
  unfold lostStep
  try dsimp only
  and_intros
  · repeat' (first | (simp; done) | (have h := appendRec_frame (by assumption); simp [h]; done) | (have h := takeSlot_frame (by assumption); simp [h]; done) | (have h := placePage_frame (by assumption); simp [h]; done) | (have h := placePart_frame (by assumption); simp [h]; done) | split | (refine (forAll_pending _ _ _ (fun x s => ?_)).trans ?_; try dsimp only) | (refine adminCmd_pending _ _ _ _ ?_; try dsimp only) | simp)
  · repeat' (first | (simp; done) | (have h := appendRec_frame (by assumption); simp [h]; done) | (have h := takeSlot_frame (by assumption); simp [h]; done) | (have h := placePage_frame (by assumption); simp [h]; done) | (have h := placePart_frame (by assumption); simp [h]; done) | split | (refine (forAll_latch _ _ _ (fun x s => ?_)).trans ?_; try dsimp only) | (refine adminCmd_latch _ _ _ _ ?_; try dsimp only) | simp)
  · repeat' (first | (simp; done) | (have h := appendRec_frame (by assumption); simp [h]; done) | (have h := takeSlot_frame (by assumption); simp [h]; done) | (have h := placePage_frame (by assumption); simp [h]; done) | (have h := placePart_frame (by assumption); simp [h]; done) | split | (refine (forAll_mem _ _ _ (fun x s => ?_)).trans ?_; try dsimp only) | (refine adminCmd_mem _ _ _ _ ?_; try dsimp only) | simp)
  · repeat' (first | (simp; done) | (have h := appendRec_frame (by assumption); simp [h]; done) | (have h := takeSlot_frame (by assumption); simp [h]; done) | (have h := placePage_frame (by assumption); simp [h]; done) | (have h := placePart_frame (by assumption); simp [h]; done) | split | (refine (forAll_clk _ _ _ (fun x s => ?_)).trans ?_; try dsimp only) | (refine adminCmd_clk _ _ _ _ ?_; try dsimp only) | simp)
  · repeat' (first | (simp; done) | (have h := appendRec_frame (by assumption); simp [h]; done) | (have h := takeSlot_frame (by assumption); simp [h]; done) | (have h := placePage_frame (by assumption); simp [h]; done) | (have h := placePart_frame (by assumption); simp [h]; done) | split | (refine (forAll_thm _ _ _ (fun x s => ?_)).trans ?_; try dsimp only) | (refine adminCmd_thm _ _ _ _ ?_; try dsimp only) | simp)
  · repeat' (first | (simp; done) | (have h := appendRec_frame (by assumption); simp [h]; done) | (have h := takeSlot_frame (by assumption); simp [h]; done) | (have h := placePage_frame (by assumption); simp [h]; done) | (have h := placePart_frame (by assumption); simp [h]; done) | split | (refine (forAll_tck _ _ _ (fun x s => ?_)).trans ?_; try dsimp only) | (refine adminCmd_tck _ _ _ _ ?_; try dsimp only) | simp)
  · repeat' (first | (simp; done) | (have h := appendRec_frame (by assumption); simp [h]; done) | (have h := takeSlot_frame (by assumption); simp [h]; done) | (have h := placePage_frame (by assumption); simp [h]; done) | (have h := placePart_frame (by assumption); simp [h]; done) | split | (refine (forAll_stm _ _ _ (fun x s => ?_)).trans ?_; try dsimp only) | (refine adminCmd_stm _ _ _ _ ?_; try dsimp only) | simp)
  · repeat' (first | (simp; done) | (have h := appendRec_frame (by assumption); simp [h]; done) | (have h := takeSlot_frame (by assumption); simp [h]; done) | (have h := placePage_frame (by assumption); simp [h]; done) | (have h := placePart_frame (by assumption); simp [h]; done) | split | (refine (forAll_flc _ _ _ (fun x s => ?_)).trans ?_; try dsimp only) | (refine adminCmd_flc _ _ _ _ ?_; try dsimp only) | simp)
  · repeat' (first | (simp; done) | (have h := appendRec_frame (by assumption); simp [h]; done) | (have h := takeSlot_frame (by assumption); simp [h]; done) | (have h := placePage_frame (by assumption); simp [h]; done) | (have h := placePart_frame (by assumption); simp [h]; done) | split | (refine (forAll_mbr _ _ _ (fun x s => ?_)).trans ?_; try dsimp only) | (refine adminCmd_mbr _ _ _ _ ?_; try dsimp only) | simp)
  · repeat' (first | (simp; done) | (have h := appendRec_frame (by assumption); simp [h]; done) | (have h := takeSlot_frame (by assumption); simp [h]; done) | (have h := placePage_frame (by assumption); simp [h]; done) | (have h := placePart_frame (by assumption); simp [h]; done) | split | (refine (forAll_flt _ _ _ (fun x s => ?_)).trans ?_; try dsimp only) | (refine adminCmd_flt _ _ _ _ ?_; try dsimp only) | simp)
  · repeat' (first | (simp; done) | (have h := appendRec_frame (by assumption); simp [h]; done) | (have h := takeSlot_frame (by assumption); simp [h]; done) | (have h := placePage_frame (by assumption); simp [h]; done) | (have h := placePart_frame (by assumption); simp [h]; done) | split | (refine (forAll_sec _ _ _ (fun x s => ?_)).trans ?_; try dsimp only) | (refine adminCmd_sec _ _ _ _ ?_; try dsimp only) | simp)
  · repeat' (first | (simp; done) | (have h := appendRec_frame (by assumption); simp [h]; done) | (have h := takeSlot_frame (by assumption); simp [h]; done) | (have h := placePage_frame (by assumption); simp [h]; done) | (have h := placePart_frame (by assumption); simp [h]; done) | split | (refine (forAll_cpx _ _ _ (fun x s => ?_)).trans ?_; try dsimp only) | (refine adminCmd_cpx _ _ _ _ ?_; try dsimp only) | simp)
  · repeat' (first | (simp; done) | (have h := appendRec_frame (by assumption); simp [h]; done) | (have h := takeSlot_frame (by assumption); simp [h]; done) | (have h := placePage_frame (by assumption); simp [h]; done) | (have h := placePart_frame (by assumption); simp [h]; done) | split | (refine (forAll_memc _ _ _ (fun x s => ?_)).trans ?_; try dsimp only) | (refine adminCmd_memc _ _ _ _ ?_; try dsimp only) | simp)
  · repeat' (first | (simp; done) | (have h := appendRec_frame (by assumption); simp [h]; done) | (have h := takeSlot_frame (by assumption); simp [h]; done) | (have h := placePage_frame (by assumption); simp [h]; done) | (have h := placePart_frame (by assumption); simp [h]; done) | split | (refine (forAll_mov _ _ _ (fun x s => ?_)).trans ?_; try dsimp only) | (refine adminCmd_mov _ _ _ _ ?_; try dsimp only) | simp)
  · repeat' (first | (simp; done) | (have h := appendRec_frame (by assumption); simp [h]; done) | (have h := takeSlot_frame (by assumption); simp [h]; done) | (have h := placePage_frame (by assumption); simp [h]; done) | (have h := placePart_frame (by assumption); simp [h]; done) | split | (refine (forAll_cst _ _ _ (fun x s => ?_)).trans ?_; try dsimp only) | (refine adminCmd_cst _ _ _ _ ?_; try dsimp only) | simp)
  · repeat' (first | (simp; done) | (have h := appendRec_frame (by assumption); simp [h]; done) | (have h := takeSlot_frame (by assumption); simp [h]; done) | (have h := placePage_frame (by assumption); simp [h]; done) | (have h := placePart_frame (by assumption); simp [h]; done) | split | (refine (forAll_out _ _ _ (fun x s => ?_)).trans ?_; try dsimp only) | simp)
  · repeat' (first | (simp; done) | (have h := appendRec_frame (by assumption); simp [h]; done) | (have h := takeSlot_frame (by assumption); simp [h]; done) | (have h := placePage_frame (by assumption); simp [h]; done) | (have h := placePart_frame (by assumption); simp [h]; done) | split | (refine (forAll_freeCtr _ _ _ (fun x s => ?_)).trans ?_; try dsimp only) | (refine adminCmd_freeCtr _ _ _ _ ?_; try dsimp only) | simp)

theorem mapLost_pending (a0 : ℕ) (a1 : ℕ) (s : State) : (mapLost a0 a1 s).pending = s.pending := by
  unfold mapLost
  try dsimp only
  repeat' (first | (simp; done) | (have h := appendRec_frame (by assumption); simp [h]; done) | (have h := takeSlot_frame (by assumption); simp [h]; done) | (have h := placePage_frame (by assumption); simp [h]; done) | (have h := placePart_frame (by assumption); simp [h]; done) | split | (refine (forAll_pending _ _ _ (fun x s => ?_)).trans ?_; try dsimp only) | (refine adminCmd_pending _ _ _ _ ?_; try dsimp only) | simp)

theorem mapLost_latch (a0 : ℕ) (a1 : ℕ) (s : State) : (mapLost a0 a1 s).latch = s.latch := by
  unfold mapLost
  try dsimp only
  repeat' (first | (simp; done) | (have h := appendRec_frame (by assumption); simp [h]; done) | (have h := takeSlot_frame (by assumption); simp [h]; done) | (have h := placePage_frame (by assumption); simp [h]; done) | (have h := placePart_frame (by assumption); simp [h]; done) | split | (refine (forAll_latch _ _ _ (fun x s => ?_)).trans ?_; try dsimp only) | (refine adminCmd_latch _ _ _ _ ?_; try dsimp only) | simp)

theorem mapLost_mem (a0 : ℕ) (a1 : ℕ) (s : State) : (mapLost a0 a1 s).mem = s.mem := by
  unfold mapLost
  try dsimp only
  repeat' (first | (simp; done) | (have h := appendRec_frame (by assumption); simp [h]; done) | (have h := takeSlot_frame (by assumption); simp [h]; done) | (have h := placePage_frame (by assumption); simp [h]; done) | (have h := placePart_frame (by assumption); simp [h]; done) | split | (refine (forAll_mem _ _ _ (fun x s => ?_)).trans ?_; try dsimp only) | (refine adminCmd_mem _ _ _ _ ?_; try dsimp only) | simp)

theorem mapLost_clk (a0 : ℕ) (a1 : ℕ) (s : State) : (mapLost a0 a1 s).clk = s.clk := by
  unfold mapLost
  try dsimp only
  repeat' (first | (simp; done) | (have h := appendRec_frame (by assumption); simp [h]; done) | (have h := takeSlot_frame (by assumption); simp [h]; done) | (have h := placePage_frame (by assumption); simp [h]; done) | (have h := placePart_frame (by assumption); simp [h]; done) | split | (refine (forAll_clk _ _ _ (fun x s => ?_)).trans ?_; try dsimp only) | (refine adminCmd_clk _ _ _ _ ?_; try dsimp only) | simp)

theorem mapLost_thm (a0 : ℕ) (a1 : ℕ) (s : State) : (mapLost a0 a1 s).thm = s.thm := by
  unfold mapLost
  try dsimp only
  repeat' (first | (simp; done) | (have h := appendRec_frame (by assumption); simp [h]; done) | (have h := takeSlot_frame (by assumption); simp [h]; done) | (have h := placePage_frame (by assumption); simp [h]; done) | (have h := placePart_frame (by assumption); simp [h]; done) | split | (refine (forAll_thm _ _ _ (fun x s => ?_)).trans ?_; try dsimp only) | (refine adminCmd_thm _ _ _ _ ?_; try dsimp only) | simp)

theorem mapLost_tck (a0 : ℕ) (a1 : ℕ) (s : State) : (mapLost a0 a1 s).tck = s.tck := by
  unfold mapLost
  try dsimp only
  repeat' (first | (simp; done) | (have h := appendRec_frame (by assumption); simp [h]; done) | (have h := takeSlot_frame (by assumption); simp [h]; done) | (have h := placePage_frame (by assumption); simp [h]; done) | (have h := placePart_frame (by assumption); simp [h]; done) | split | (refine (forAll_tck _ _ _ (fun x s => ?_)).trans ?_; try dsimp only) | (refine adminCmd_tck _ _ _ _ ?_; try dsimp only) | simp)

theorem mapLost_stm (a0 : ℕ) (a1 : ℕ) (s : State) : (mapLost a0 a1 s).stm = s.stm := by
  unfold mapLost
  try dsimp only
  repeat' (first | (simp; done) | (have h := appendRec_frame (by assumption); simp [h]; done) | (have h := takeSlot_frame (by assumption); simp [h]; done) | (have h := placePage_frame (by assumption); simp [h]; done) | (have h := placePart_frame (by assumption); simp [h]; done) | split | (refine (forAll_stm _ _ _ (fun x s => ?_)).trans ?_; try dsimp only) | (refine adminCmd_stm _ _ _ _ ?_; try dsimp only) | simp)

theorem mapLost_flc (a0 : ℕ) (a1 : ℕ) (s : State) : (mapLost a0 a1 s).flc = s.flc := by
  unfold mapLost
  try dsimp only
  repeat' (first | (simp; done) | (have h := appendRec_frame (by assumption); simp [h]; done) | (have h := takeSlot_frame (by assumption); simp [h]; done) | (have h := placePage_frame (by assumption); simp [h]; done) | (have h := placePart_frame (by assumption); simp [h]; done) | split | (refine (forAll_flc _ _ _ (fun x s => ?_)).trans ?_; try dsimp only) | (refine adminCmd_flc _ _ _ _ ?_; try dsimp only) | simp)

theorem mapLost_mbr (a0 : ℕ) (a1 : ℕ) (s : State) : (mapLost a0 a1 s).mbr = s.mbr := by
  unfold mapLost
  try dsimp only
  repeat' (first | (simp; done) | (have h := appendRec_frame (by assumption); simp [h]; done) | (have h := takeSlot_frame (by assumption); simp [h]; done) | (have h := placePage_frame (by assumption); simp [h]; done) | (have h := placePart_frame (by assumption); simp [h]; done) | split | (refine (forAll_mbr _ _ _ (fun x s => ?_)).trans ?_; try dsimp only) | (refine adminCmd_mbr _ _ _ _ ?_; try dsimp only) | simp)

theorem mapLost_flt (a0 : ℕ) (a1 : ℕ) (s : State) : (mapLost a0 a1 s).flt = s.flt := by
  unfold mapLost
  try dsimp only
  repeat' (first | (simp; done) | (have h := appendRec_frame (by assumption); simp [h]; done) | (have h := takeSlot_frame (by assumption); simp [h]; done) | (have h := placePage_frame (by assumption); simp [h]; done) | (have h := placePart_frame (by assumption); simp [h]; done) | split | (refine (forAll_flt _ _ _ (fun x s => ?_)).trans ?_; try dsimp only) | (refine adminCmd_flt _ _ _ _ ?_; try dsimp only) | simp)

theorem mapLost_sec (a0 : ℕ) (a1 : ℕ) (s : State) : (mapLost a0 a1 s).sec = s.sec := by
  unfold mapLost
  try dsimp only
  repeat' (first | (simp; done) | (have h := appendRec_frame (by assumption); simp [h]; done) | (have h := takeSlot_frame (by assumption); simp [h]; done) | (have h := placePage_frame (by assumption); simp [h]; done) | (have h := placePart_frame (by assumption); simp [h]; done) | split | (refine (forAll_sec _ _ _ (fun x s => ?_)).trans ?_; try dsimp only) | (refine adminCmd_sec _ _ _ _ ?_; try dsimp only) | simp)

theorem mapLost_cpx (a0 : ℕ) (a1 : ℕ) (s : State) : (mapLost a0 a1 s).cpx = s.cpx := by
  unfold mapLost
  try dsimp only
  repeat' (first | (simp; done) | (have h := appendRec_frame (by assumption); simp [h]; done) | (have h := takeSlot_frame (by assumption); simp [h]; done) | (have h := placePage_frame (by assumption); simp [h]; done) | (have h := placePart_frame (by assumption); simp [h]; done) | split | (refine (forAll_cpx _ _ _ (fun x s => ?_)).trans ?_; try dsimp only) | (refine adminCmd_cpx _ _ _ _ ?_; try dsimp only) | simp)

theorem mapLost_memc (a0 : ℕ) (a1 : ℕ) (s : State) : (mapLost a0 a1 s).memc = s.memc := by
  unfold mapLost
  try dsimp only
  repeat' (first | (simp; done) | (have h := appendRec_frame (by assumption); simp [h]; done) | (have h := takeSlot_frame (by assumption); simp [h]; done) | (have h := placePage_frame (by assumption); simp [h]; done) | (have h := placePart_frame (by assumption); simp [h]; done) | split | (refine (forAll_memc _ _ _ (fun x s => ?_)).trans ?_; try dsimp only) | (refine adminCmd_memc _ _ _ _ ?_; try dsimp only) | simp)

theorem mapLost_mov (a0 : ℕ) (a1 : ℕ) (s : State) : (mapLost a0 a1 s).mov = s.mov := by
  unfold mapLost
  try dsimp only
  repeat' (first | (simp; done) | (have h := appendRec_frame (by assumption); simp [h]; done) | (have h := takeSlot_frame (by assumption); simp [h]; done) | (have h := placePage_frame (by assumption); simp [h]; done) | (have h := placePart_frame (by assumption); simp [h]; done) | split | (refine (forAll_mov _ _ _ (fun x s => ?_)).trans ?_; try dsimp only) | (refine adminCmd_mov _ _ _ _ ?_; try dsimp only) | simp)

theorem mapLost_cst (a0 : ℕ) (a1 : ℕ) (s : State) : (mapLost a0 a1 s).cst = s.cst := by
  unfold mapLost
  try dsimp only
  repeat' (first | (simp; done) | (have h := appendRec_frame (by assumption); simp [h]; done) | (have h := takeSlot_frame (by assumption); simp [h]; done) | (have h := placePage_frame (by assumption); simp [h]; done) | (have h := placePart_frame (by assumption); simp [h]; done) | split | (refine (forAll_cst _ _ _ (fun x s => ?_)).trans ?_; try dsimp only) | (refine adminCmd_cst _ _ _ _ ?_; try dsimp only) | simp)

theorem mapLost_out (a0 : ℕ) (a1 : ℕ) (s : State) : (mapLost a0 a1 s).out = s.out := by
  unfold mapLost
  try dsimp only
  repeat' (first | (simp; done) | (have h := appendRec_frame (by assumption); simp [h]; done) | (have h := takeSlot_frame (by assumption); simp [h]; done) | (have h := placePage_frame (by assumption); simp [h]; done) | (have h := placePart_frame (by assumption); simp [h]; done) | split | (refine (forAll_out _ _ _ (fun x s => ?_)).trans ?_; try dsimp only) | simp)

theorem mapLost_freeCtr (a0 : ℕ) (a1 : ℕ) (s : State) : (mapLost a0 a1 s).freeCtr = s.freeCtr := by
  unfold mapLost
  try dsimp only
  repeat' (first | (simp; done) | (have h := appendRec_frame (by assumption); simp [h]; done) | (have h := takeSlot_frame (by assumption); simp [h]; done) | (have h := placePage_frame (by assumption); simp [h]; done) | (have h := placePart_frame (by assumption); simp [h]; done) | split | (refine (forAll_freeCtr _ _ _ (fun x s => ?_)).trans ?_; try dsimp only) | (refine adminCmd_freeCtr _ _ _ _ ?_; try dsimp only) | simp)

@[simp] theorem mapLost_frame (a0 : ℕ) (a1 : ℕ) (s : State) :
    (mapLost a0 a1 s).pending = s.pending ∧ (mapLost a0 a1 s).latch = s.latch ∧ (mapLost a0 a1 s).mem = s.mem ∧ (mapLost a0 a1 s).clk = s.clk ∧ (mapLost a0 a1 s).thm = s.thm ∧ (mapLost a0 a1 s).tck = s.tck ∧ (mapLost a0 a1 s).stm = s.stm ∧ (mapLost a0 a1 s).flc = s.flc ∧ (mapLost a0 a1 s).mbr = s.mbr ∧ (mapLost a0 a1 s).flt = s.flt ∧ (mapLost a0 a1 s).sec = s.sec ∧ (mapLost a0 a1 s).cpx = s.cpx ∧ (mapLost a0 a1 s).memc = s.memc ∧ (mapLost a0 a1 s).mov = s.mov ∧ (mapLost a0 a1 s).cst = s.cst ∧ (mapLost a0 a1 s).out = s.out ∧ (mapLost a0 a1 s).freeCtr = s.freeCtr :=
  ⟨mapLost_pending a0 a1 s, mapLost_latch a0 a1 s, mapLost_mem a0 a1 s, mapLost_clk a0 a1 s, mapLost_thm a0 a1 s, mapLost_tck a0 a1 s, mapLost_stm a0 a1 s, mapLost_flc a0 a1 s, mapLost_mbr a0 a1 s, mapLost_flt a0 a1 s, mapLost_sec a0 a1 s, mapLost_cpx a0 a1 s, mapLost_memc a0 a1 s, mapLost_mov a0 a1 s, mapLost_cst a0 a1 s, mapLost_out a0 a1 s, mapLost_freeCtr a0 a1 s⟩

@[simp] theorem rowLost_frame (a0 : ℕ) (a1 : ℕ) (s : State) :
    (rowLost a0 a1 s).pending = s.pending ∧ (rowLost a0 a1 s).latch = s.latch ∧ (rowLost a0 a1 s).mem = s.mem ∧ (rowLost a0 a1 s).clk = s.clk ∧ (rowLost a0 a1 s).thm = s.thm ∧ (rowLost a0 a1 s).tck = s.tck ∧ (rowLost a0 a1 s).stm = s.stm ∧ (rowLost a0 a1 s).flc = s.flc ∧ (rowLost a0 a1 s).mbr = s.mbr ∧ (rowLost a0 a1 s).flt = s.flt ∧ (rowLost a0 a1 s).sec = s.sec ∧ (rowLost a0 a1 s).cpx = s.cpx ∧ (rowLost a0 a1 s).memc = s.memc ∧ (rowLost a0 a1 s).mov = s.mov ∧ (rowLost a0 a1 s).cst = s.cst ∧ (rowLost a0 a1 s).out = s.out ∧ (rowLost a0 a1 s).freeCtr = s.freeCtr := by
  unfold rowLost
  try dsimp only
  first
    | (simp; done)
    | ((repeat' split) <;> simp; done)
    | (and_intros <;> (repeat' (first | (simp; done) | split)))

@[simp] theorem hostTakes_frame (a0 : ℕ) (a1 : ℕ) (a2 : RdRes) (s : State) :
    (hostTakes a0 a1 a2 s).pending = s.pending ∧ (hostTakes a0 a1 a2 s).regs = s.regs ∧ (hostTakes a0 a1 a2 s).latch = s.latch ∧ (hostTakes a0 a1 a2 s).mem = s.mem ∧ (hostTakes a0 a1 a2 s).sys = s.sys ∧ (hostTakes a0 a1 a2 s).clk = s.clk ∧ (hostTakes a0 a1 a2 s).thm = s.thm ∧ (hostTakes a0 a1 a2 s).tck = s.tck ∧ (hostTakes a0 a1 a2 s).stm = s.stm ∧ (hostTakes a0 a1 a2 s).map = s.map ∧ (hostTakes a0 a1 a2 s).flc = s.flc ∧ (hostTakes a0 a1 a2 s).bnd = s.bnd ∧ (hostTakes a0 a1 a2 s).mbr = s.mbr ∧ (hostTakes a0 a1 a2 s).flt = s.flt ∧ (hostTakes a0 a1 a2 s).sec = s.sec ∧ (hostTakes a0 a1 a2 s).cpx = s.cpx ∧ (hostTakes a0 a1 a2 s).memc = s.memc ∧ (hostTakes a0 a1 a2 s).mov = s.mov ∧ (hostTakes a0 a1 a2 s).cst = s.cst ∧ (hostTakes a0 a1 a2 s).lnt = s.lnt ∧ (hostTakes a0 a1 a2 s).out = s.out ∧ (hostTakes a0 a1 a2 s).freeCtr = s.freeCtr := by
  unfold hostTakes
  try dsimp only
  first
    | (simp; done)
    | ((repeat' split) <;> simp; done)
    | (and_intros <;> (repeat' (first | (simp; done) | split)))

@[simp] theorem finishRead_frame (a0 : ℕ) (a1 : RdRes) (s : State) :
    (finishRead a0 a1 s).pending = s.pending ∧ (finishRead a0 a1 s).latch = s.latch ∧ (finishRead a0 a1 s).clk = s.clk ∧ (finishRead a0 a1 s).thm = s.thm ∧ (finishRead a0 a1 s).mbr = s.mbr ∧ (finishRead a0 a1 s).sec = s.sec ∧ (finishRead a0 a1 s).cpx = s.cpx ∧ (finishRead a0 a1 s).memc = s.memc ∧ (finishRead a0 a1 s).mov = s.mov ∧ (finishRead a0 a1 s).cst = s.cst := by
  unfold finishRead
  try dsimp only
  first
    | (simp; done)
    | ((repeat' split) <;> simp; done)
    | (and_intros <;> (repeat' (first | (simp; done) | split)))

@[simp] theorem strayCopy_frame (a0 : Rd) (a1 : Cw) (s : State) :
    (strayCopy a0 a1 s).pending = s.pending ∧ (strayCopy a0 a1 s).latch = s.latch ∧ (strayCopy a0 a1 s).mem = s.mem ∧ (strayCopy a0 a1 s).sys = s.sys ∧ (strayCopy a0 a1 s).clk = s.clk ∧ (strayCopy a0 a1 s).thm = s.thm ∧ (strayCopy a0 a1 s).tck = s.tck ∧ (strayCopy a0 a1 s).hif = s.hif ∧ (strayCopy a0 a1 s).stm = s.stm ∧ (strayCopy a0 a1 s).map = s.map ∧ (strayCopy a0 a1 s).flc = s.flc ∧ (strayCopy a0 a1 s).mbr = s.mbr ∧ (strayCopy a0 a1 s).flt = s.flt ∧ (strayCopy a0 a1 s).sec = s.sec ∧ (strayCopy a0 a1 s).cpx = s.cpx ∧ (strayCopy a0 a1 s).memc = s.memc ∧ (strayCopy a0 a1 s).mov = s.mov ∧ (strayCopy a0 a1 s).cst = s.cst ∧ (strayCopy a0 a1 s).lnt = s.lnt ∧ (strayCopy a0 a1 s).out = s.out ∧ (strayCopy a0 a1 s).freeCtr = s.freeCtr := by
  unfold strayCopy
  try dsimp only
  first
    | (simp; done)
    | ((repeat' split) <;> simp; done)
    | (and_intros <;> (repeat' (first | (simp; done) | split)))

@[simp] theorem queueSurvivors_frame (a0 : ℕ) (a1 : Rd) (a2 : Page) (a3 : List ℕ) (s : State) :
    (queueSurvivors a0 a1 a2 a3 s).pending = s.pending ∧ (queueSurvivors a0 a1 a2 a3 s).regs = s.regs ∧ (queueSurvivors a0 a1 a2 a3 s).latch = s.latch ∧ (queueSurvivors a0 a1 a2 a3 s).mem = s.mem ∧ (queueSurvivors a0 a1 a2 a3 s).sys = s.sys ∧ (queueSurvivors a0 a1 a2 a3 s).clk = s.clk ∧ (queueSurvivors a0 a1 a2 a3 s).thm = s.thm ∧ (queueSurvivors a0 a1 a2 a3 s).tck = s.tck ∧ (queueSurvivors a0 a1 a2 a3 s).hif = s.hif ∧ (queueSurvivors a0 a1 a2 a3 s).stm = s.stm ∧ (queueSurvivors a0 a1 a2 a3 s).map = s.map ∧ (queueSurvivors a0 a1 a2 a3 s).bnd = s.bnd ∧ (queueSurvivors a0 a1 a2 a3 s).mbr = s.mbr ∧ (queueSurvivors a0 a1 a2 a3 s).flt = s.flt ∧ (queueSurvivors a0 a1 a2 a3 s).sec = s.sec ∧ (queueSurvivors a0 a1 a2 a3 s).cpx = s.cpx ∧ (queueSurvivors a0 a1 a2 a3 s).memc = s.memc ∧ (queueSurvivors a0 a1 a2 a3 s).mov = s.mov ∧ (queueSurvivors a0 a1 a2 a3 s).cst = s.cst ∧ (queueSurvivors a0 a1 a2 a3 s).lnt = s.lnt ∧ (queueSurvivors a0 a1 a2 a3 s).out = s.out ∧ (queueSurvivors a0 a1 a2 a3 s).freeCtr = s.freeCtr := by
  unfold queueSurvivors
  try dsimp only
  first
    | (simp; done)
    | ((repeat' split) <;> simp; done)
    | (and_intros <;> (repeat' (first | (simp; done) | split)))

@[simp] theorem putRecovered_frame (a0 : Rd) (a1 : Payload) (s : State) :
    (putRecovered a0 a1 s).pending = s.pending ∧ (putRecovered a0 a1 s).regs = s.regs ∧ (putRecovered a0 a1 s).latch = s.latch ∧ (putRecovered a0 a1 s).mem = s.mem ∧ (putRecovered a0 a1 s).sys = s.sys ∧ (putRecovered a0 a1 s).clk = s.clk ∧ (putRecovered a0 a1 s).thm = s.thm ∧ (putRecovered a0 a1 s).tck = s.tck ∧ (putRecovered a0 a1 s).hif = s.hif ∧ (putRecovered a0 a1 s).stm = s.stm ∧ (putRecovered a0 a1 s).map = s.map ∧ (putRecovered a0 a1 s).flc = s.flc ∧ (putRecovered a0 a1 s).mbr = s.mbr ∧ (putRecovered a0 a1 s).flt = s.flt ∧ (putRecovered a0 a1 s).sec = s.sec ∧ (putRecovered a0 a1 s).cpx = s.cpx ∧ (putRecovered a0 a1 s).memc = s.memc ∧ (putRecovered a0 a1 s).mov = s.mov ∧ (putRecovered a0 a1 s).cst = s.cst ∧ (putRecovered a0 a1 s).lnt = s.lnt ∧ (putRecovered a0 a1 s).out = s.out ∧ (putRecovered a0 a1 s).freeCtr = s.freeCtr := by
  unfold putRecovered
  try dsimp only
  first
    | (simp; done)
    | ((repeat' split) <;> simp; done)
    | (and_intros <;> (repeat' (first | (simp; done) | split)))

@[simp] theorem countRecovery_frame (a0 : Rd) (s : State) :
    (countRecovery a0 s).pending = s.pending ∧ (countRecovery a0 s).regs = s.regs ∧ (countRecovery a0 s).latch = s.latch ∧ (countRecovery a0 s).mem = s.mem ∧ (countRecovery a0 s).sys = s.sys ∧ (countRecovery a0 s).clk = s.clk ∧ (countRecovery a0 s).thm = s.thm ∧ (countRecovery a0 s).tck = s.tck ∧ (countRecovery a0 s).stm = s.stm ∧ (countRecovery a0 s).map = s.map ∧ (countRecovery a0 s).flc = s.flc ∧ (countRecovery a0 s).bnd = s.bnd ∧ (countRecovery a0 s).mbr = s.mbr ∧ (countRecovery a0 s).flt = s.flt ∧ (countRecovery a0 s).sec = s.sec ∧ (countRecovery a0 s).cpx = s.cpx ∧ (countRecovery a0 s).memc = s.memc ∧ (countRecovery a0 s).mov = s.mov ∧ (countRecovery a0 s).cst = s.cst ∧ (countRecovery a0 s).lnt = s.lnt ∧ (countRecovery a0 s).out = s.out ∧ (countRecovery a0 s).freeCtr = s.freeCtr := by
  unfold countRecovery
  try dsimp only
  first
    | (simp; done)
    | ((repeat' split) <;> simp; done)
    | (and_intros <;> (repeat' (first | (simp; done) | split)))

@[simp] theorem reconDone_frame (a0 : ℕ) (a1 : Rd) (a2 : Page) (a3 : Payload) (a4 : LaneSeen) (s : State) :
    (reconDone a0 a1 a2 a3 a4 s).pending = s.pending ∧ (reconDone a0 a1 a2 a3 a4 s).latch = s.latch ∧ (reconDone a0 a1 a2 a3 a4 s).clk = s.clk ∧ (reconDone a0 a1 a2 a3 a4 s).thm = s.thm ∧ (reconDone a0 a1 a2 a3 a4 s).cpx = s.cpx ∧ (reconDone a0 a1 a2 a3 a4 s).memc = s.memc ∧ (reconDone a0 a1 a2 a3 a4 s).mov = s.mov := by
  unfold reconDone
  try dsimp only
  first
    | (simp; done)
    | ((repeat' split) <;> simp; done)
    | (and_intros <;> (repeat' (first | (simp; done) | split)))

@[simp] theorem reconAdvance_frame (a0 : ℕ) (a1 : LaneSeen) (s : State) :
    (reconAdvance a0 a1 s).pending = s.pending ∧ (reconAdvance a0 a1 s).latch = s.latch ∧ (reconAdvance a0 a1 s).clk = s.clk ∧ (reconAdvance a0 a1 s).thm = s.thm ∧ (reconAdvance a0 a1 s).cpx = s.cpx ∧ (reconAdvance a0 a1 s).memc = s.memc ∧ (reconAdvance a0 a1 s).mov = s.mov := by
  unfold reconAdvance
  try dsimp only
  first
    | (simp; done)
    | ((repeat' split) <;> simp; done)
    | (and_intros <;> (repeat' (first | (simp; done) | split)))

@[simp] theorem survivorDone_frame (a0 : ℕ) (a1 : Rd) (a2 : Bool) (a3 : Bool) (a4 : LaneSeen) (s : State) :
    (survivorDone a0 a1 a2 a3 a4 s).pending = s.pending ∧ (survivorDone a0 a1 a2 a3 a4 s).latch = s.latch ∧ (survivorDone a0 a1 a2 a3 a4 s).clk = s.clk ∧ (survivorDone a0 a1 a2 a3 a4 s).thm = s.thm ∧ (survivorDone a0 a1 a2 a3 a4 s).cpx = s.cpx ∧ (survivorDone a0 a1 a2 a3 a4 s).memc = s.memc ∧ (survivorDone a0 a1 a2 a3 a4 s).mov = s.mov := by
  unfold survivorDone
  try dsimp only
  first
    | (simp; done)
    | ((repeat' split) <;> simp; done)
    | (and_intros <;> (repeat' (first | (simp; done) | split)))

@[simp] theorem readFails_frame (a0 : ℕ) (a1 : ℕ) (a2 : LaneSeen) (s : State) :
    (readFails a0 a1 a2 s).pending = s.pending ∧ (readFails a0 a1 a2 s).latch = s.latch ∧ (readFails a0 a1 a2 s).clk = s.clk ∧ (readFails a0 a1 a2 s).thm = s.thm ∧ (readFails a0 a1 a2 s).cpx = s.cpx ∧ (readFails a0 a1 a2 s).memc = s.memc ∧ (readFails a0 a1 a2 s).mov = s.mov := by
  unfold readFails
  try dsimp only
  first
    | (simp; done)
    | ((repeat' split) <;> simp; done)
    | (and_intros <;> (repeat' (first | (simp; done) | split)))

@[simp] theorem deliver_frame (a0 : ℕ) (a1 : LaneSeen) (s : State) :
    (deliver a0 a1 s).pending = s.pending ∧ (deliver a0 a1 s).latch = s.latch ∧ (deliver a0 a1 s).clk = s.clk ∧ (deliver a0 a1 s).thm = s.thm ∧ (deliver a0 a1 s).cpx = s.cpx ∧ (deliver a0 a1 s).memc = s.memc ∧ (deliver a0 a1 s).mov = s.mov := by
  unfold deliver
  try dsimp only
  first
    | (simp; done)
    | ((repeat' split) <;> simp; done)
    | (and_intros <;> (repeat' (first | (simp; done) | split)))

@[simp] theorem claimEntry_frame (a0 : ℕ) (s : State) :
    (claimEntry a0 s).pending = s.pending ∧ (claimEntry a0 s).latch = s.latch ∧ (claimEntry a0 s).mem = s.mem ∧ (claimEntry a0 s).clk = s.clk ∧ (claimEntry a0 s).thm = s.thm ∧ (claimEntry a0 s).tck = s.tck ∧ (claimEntry a0 s).hif = s.hif ∧ (claimEntry a0 s).map = s.map ∧ (claimEntry a0 s).bnd = s.bnd ∧ (claimEntry a0 s).mbr = s.mbr ∧ (claimEntry a0 s).flt = s.flt ∧ (claimEntry a0 s).sec = s.sec ∧ (claimEntry a0 s).cpx = s.cpx ∧ (claimEntry a0 s).memc = s.memc ∧ (claimEntry a0 s).mov = s.mov ∧ (claimEntry a0 s).cst = s.cst ∧ (claimEntry a0 s).out = s.out ∧ (claimEntry a0 s).freeCtr = s.freeCtr := by
  unfold claimEntry
  try dsimp only
  first
    | (simp; done)
    | ((repeat' split) <;> simp; done)
    | (and_intros <;> (repeat' (first | (simp; done) | split)))

@[simp] theorem meetsFull_frame (a0 : ℕ) (a1 : LaneSeen) (s : State) :
    (meetsFull a0 a1 s).pending = s.pending ∧ (meetsFull a0 a1 s).latch = s.latch ∧ (meetsFull a0 a1 s).clk = s.clk ∧ (meetsFull a0 a1 s).thm = s.thm ∧ (meetsFull a0 a1 s).cpx = s.cpx ∧ (meetsFull a0 a1 s).memc = s.memc ∧ (meetsFull a0 a1 s).mov = s.mov := by
  unfold meetsFull
  try dsimp only
  first
    | (simp; done)
    | ((repeat' split) <;> simp; done)
    | (and_intros <;> (repeat' (first | (simp; done) | split)))

@[simp] theorem claimSoft_frame (a0 : ℕ) (a1 : LaneSeen) (s : State) :
    (claimSoft a0 a1 s).pending = s.pending ∧ (claimSoft a0 a1 s).latch = s.latch ∧ (claimSoft a0 a1 s).clk = s.clk ∧ (claimSoft a0 a1 s).thm = s.thm ∧ (claimSoft a0 a1 s).cpx = s.cpx ∧ (claimSoft a0 a1 s).memc = s.memc ∧ (claimSoft a0 a1 s).mov = s.mov := by
  unfold claimSoft
  try dsimp only
  first
    | (simp; done)
    | ((repeat' split) <;> simp; done)
    | (and_intros <;> (repeat' (first | (simp; done) | split)))

@[simp] theorem fogStep_frame (s : State) :
    (fogStep s).pending = s.pending ∧ (fogStep s).latch = s.latch ∧ (fogStep s).mem = s.mem ∧ (fogStep s).clk = s.clk ∧ (fogStep s).thm = s.thm ∧ (fogStep s).tck = s.tck ∧ (fogStep s).hif = s.hif ∧ (fogStep s).map = s.map ∧ (fogStep s).bnd = s.bnd ∧ (fogStep s).mbr = s.mbr ∧ (fogStep s).flt = s.flt ∧ (fogStep s).sec = s.sec ∧ (fogStep s).cpx = s.cpx ∧ (fogStep s).memc = s.memc ∧ (fogStep s).mov = s.mov ∧ (fogStep s).cst = s.cst ∧ (fogStep s).out = s.out ∧ (fogStep s).freeCtr = s.freeCtr := by
  unfold fogStep
  try dsimp only
  first
    | (simp; done)
    | ((repeat' split) <;> simp; done)
    | (and_intros <;> (repeat' (first | (simp; done) | split)))

@[simp] theorem reconStep_frame (s : State) :
    (reconStep s).pending = s.pending ∧ (reconStep s).latch = s.latch ∧ (reconStep s).clk = s.clk ∧ (reconStep s).thm = s.thm ∧ (reconStep s).cpx = s.cpx ∧ (reconStep s).memc = s.memc ∧ (reconStep s).mov = s.mov := by
  unfold reconStep
  try dsimp only
  first
    | (simp; done)
    | ((repeat' split) <;> simp; done)
    | (and_intros <;> (repeat' (first | (simp; done) | split)))

@[simp] theorem decode_frame (a0 : ℕ) (a1 : Rd) (a2 : Page) (a3 : Raw) (a4 : LaneSeen) (s : State) :
    (decode a0 a1 a2 a3 a4 s).pending = s.pending ∧ (decode a0 a1 a2 a3 a4 s).latch = s.latch ∧ (decode a0 a1 a2 a3 a4 s).clk = s.clk ∧ (decode a0 a1 a2 a3 a4 s).thm = s.thm ∧ (decode a0 a1 a2 a3 a4 s).cpx = s.cpx ∧ (decode a0 a1 a2 a3 a4 s).memc = s.memc ∧ (decode a0 a1 a2 a3 a4 s).mov = s.mov := by
  unfold decode
  try dsimp only
  first
    | (simp; done)
    | ((repeat' split) <;> simp; done)
    | (and_intros <;> (repeat' (first | (simp; done) | split)))

@[simp] theorem decodeRaw_frame (a0 : ℕ) (a1 : RawPlace) (a2 : ℕ) (a3 : Raw) (s : State) :
    (decodeRaw a0 a1 a2 a3 s).pending = s.pending ∧ (decodeRaw a0 a1 a2 a3 s).latch = s.latch ∧ (decodeRaw a0 a1 a2 a3 s).clk = s.clk ∧ (decodeRaw a0 a1 a2 a3 s).thm = s.thm ∧ (decodeRaw a0 a1 a2 a3 s).mbr = s.mbr ∧ (decodeRaw a0 a1 a2 a3 s).sec = s.sec ∧ (decodeRaw a0 a1 a2 a3 s).cpx = s.cpx ∧ (decodeRaw a0 a1 a2 a3 s).memc = s.memc ∧ (decodeRaw a0 a1 a2 a3 s).mov = s.mov ∧ (decodeRaw a0 a1 a2 a3 s).cst = s.cst := by
  unfold decodeRaw
  try dsimp only
  first
    | (simp; done)
    | ((repeat' split) <;> simp; done)
    | (and_intros <;> (repeat' (first | (simp; done) | split)))

@[simp] theorem queueRead_frame (a0 : RdFor) (a1 : Cls) (a2 : ℕ) (a3 : ℕ) (a4 : Loc) (s : State) :
    (queueRead a0 a1 a2 a3 a4 s).pending = s.pending ∧ (queueRead a0 a1 a2 a3 a4 s).regs = s.regs ∧ (queueRead a0 a1 a2 a3 a4 s).latch = s.latch ∧ (queueRead a0 a1 a2 a3 a4 s).mem = s.mem ∧ (queueRead a0 a1 a2 a3 a4 s).sys = s.sys ∧ (queueRead a0 a1 a2 a3 a4 s).clk = s.clk ∧ (queueRead a0 a1 a2 a3 a4 s).thm = s.thm ∧ (queueRead a0 a1 a2 a3 a4 s).tck = s.tck ∧ (queueRead a0 a1 a2 a3 a4 s).hif = s.hif ∧ (queueRead a0 a1 a2 a3 a4 s).stm = s.stm ∧ (queueRead a0 a1 a2 a3 a4 s).map = s.map ∧ (queueRead a0 a1 a2 a3 a4 s).bnd = s.bnd ∧ (queueRead a0 a1 a2 a3 a4 s).mbr = s.mbr ∧ (queueRead a0 a1 a2 a3 a4 s).flt = s.flt ∧ (queueRead a0 a1 a2 a3 a4 s).sec = s.sec ∧ (queueRead a0 a1 a2 a3 a4 s).cpx = s.cpx ∧ (queueRead a0 a1 a2 a3 a4 s).memc = s.memc ∧ (queueRead a0 a1 a2 a3 a4 s).mov = s.mov ∧ (queueRead a0 a1 a2 a3 a4 s).cst = s.cst ∧ (queueRead a0 a1 a2 a3 a4 s).lnt = s.lnt ∧ (queueRead a0 a1 a2 a3 a4 s).out = s.out ∧ (queueRead a0 a1 a2 a3 a4 s).freeCtr = s.freeCtr := by
  unfold queueRead
  try dsimp only
  first
    | (simp; done)
    | ((repeat' split) <;> simp; done)
    | (and_intros <;> (repeat' (first | (simp; done) | split)))

/-! ### MapForm -/

@[simp] theorem ioDone_frame (a0 : ℕ) (a1 : ℕ) (a2 : ℕ) (a3 : ℕ) (s : State) :
    (ioDone a0 a1 a2 a3 s).pending = s.pending ∧ (ioDone a0 a1 a2 a3 s).latch = s.latch ∧ (ioDone a0 a1 a2 a3 s).mem = s.mem ∧ (ioDone a0 a1 a2 a3 s).sys = s.sys ∧ (ioDone a0 a1 a2 a3 s).clk = s.clk ∧ (ioDone a0 a1 a2 a3 s).thm = s.thm ∧ (ioDone a0 a1 a2 a3 s).tck = s.tck ∧ (ioDone a0 a1 a2 a3 s).stm = s.stm ∧ (ioDone a0 a1 a2 a3 s).map = s.map ∧ (ioDone a0 a1 a2 a3 s).flc = s.flc ∧ (ioDone a0 a1 a2 a3 s).bnd = s.bnd ∧ (ioDone a0 a1 a2 a3 s).mbr = s.mbr ∧ (ioDone a0 a1 a2 a3 s).flt = s.flt ∧ (ioDone a0 a1 a2 a3 s).sec = s.sec ∧ (ioDone a0 a1 a2 a3 s).cpx = s.cpx ∧ (ioDone a0 a1 a2 a3 s).memc = s.memc ∧ (ioDone a0 a1 a2 a3 s).mov = s.mov ∧ (ioDone a0 a1 a2 a3 s).cst = s.cst ∧ (ioDone a0 a1 a2 a3 s).freeCtr = s.freeCtr := by
  unfold ioDone
  try dsimp only
  first
    | (simp; done)
    | ((repeat' split) <;> simp; done)
    | (and_intros <;> (repeat' (first | (simp; done) | split)))

@[simp] theorem ioNm_frame (a0 : ℕ) (a1 : ℕ) (s : State) :
    (ioNm a0 a1 s).pending = s.pending ∧ (ioNm a0 a1 s).latch = s.latch ∧ (ioNm a0 a1 s).mem = s.mem ∧ (ioNm a0 a1 s).clk = s.clk ∧ (ioNm a0 a1 s).thm = s.thm ∧ (ioNm a0 a1 s).tck = s.tck ∧ (ioNm a0 a1 s).stm = s.stm ∧ (ioNm a0 a1 s).map = s.map ∧ (ioNm a0 a1 s).flc = s.flc ∧ (ioNm a0 a1 s).bnd = s.bnd ∧ (ioNm a0 a1 s).mbr = s.mbr ∧ (ioNm a0 a1 s).flt = s.flt ∧ (ioNm a0 a1 s).sec = s.sec ∧ (ioNm a0 a1 s).cpx = s.cpx ∧ (ioNm a0 a1 s).memc = s.memc ∧ (ioNm a0 a1 s).mov = s.mov ∧ (ioNm a0 a1 s).cst = s.cst ∧ (ioNm a0 a1 s).freeCtr = s.freeCtr := by
  unfold ioNm
  try dsimp only
  first
    | (simp; done)
    | ((repeat' split) <;> simp; done)
    | (and_intros <;> (repeat' (first | (simp; done) | split)))

@[simp] theorem dropIndex_frame (a0 : ℕ) (s : State) :
    (dropIndex a0 s).pending = s.pending ∧ (dropIndex a0 s).regs = s.regs ∧ (dropIndex a0 s).latch = s.latch ∧ (dropIndex a0 s).mem = s.mem ∧ (dropIndex a0 s).sys = s.sys ∧ (dropIndex a0 s).clk = s.clk ∧ (dropIndex a0 s).thm = s.thm ∧ (dropIndex a0 s).tck = s.tck ∧ (dropIndex a0 s).stm = s.stm ∧ (dropIndex a0 s).flc = s.flc ∧ (dropIndex a0 s).bnd = s.bnd ∧ (dropIndex a0 s).mbr = s.mbr ∧ (dropIndex a0 s).flt = s.flt ∧ (dropIndex a0 s).sec = s.sec ∧ (dropIndex a0 s).cpx = s.cpx ∧ (dropIndex a0 s).memc = s.memc ∧ (dropIndex a0 s).mov = s.mov ∧ (dropIndex a0 s).cst = s.cst ∧ (dropIndex a0 s).lnt = s.lnt ∧ (dropIndex a0 s).out = s.out ∧ (dropIndex a0 s).freeCtr = s.freeCtr := by
  unfold dropIndex
  try dsimp only
  first
    | (simp; done)
    | ((repeat' split) <;> simp; done)
    | (and_intros <;> (repeat' (first | (simp; done) | split)))

@[simp] theorem releaseStaging_frame (a0 : Slot) (s : State) :
    (releaseStaging a0 s).pending = s.pending ∧ (releaseStaging a0 s).regs = s.regs ∧ (releaseStaging a0 s).latch = s.latch ∧ (releaseStaging a0 s).mem = s.mem ∧ (releaseStaging a0 s).sys = s.sys ∧ (releaseStaging a0 s).clk = s.clk ∧ (releaseStaging a0 s).thm = s.thm ∧ (releaseStaging a0 s).tck = s.tck ∧ (releaseStaging a0 s).hif = s.hif ∧ (releaseStaging a0 s).map = s.map ∧ (releaseStaging a0 s).flc = s.flc ∧ (releaseStaging a0 s).bnd = s.bnd ∧ (releaseStaging a0 s).mbr = s.mbr ∧ (releaseStaging a0 s).flt = s.flt ∧ (releaseStaging a0 s).sec = s.sec ∧ (releaseStaging a0 s).cpx = s.cpx ∧ (releaseStaging a0 s).memc = s.memc ∧ (releaseStaging a0 s).mov = s.mov ∧ (releaseStaging a0 s).cst = s.cst ∧ (releaseStaging a0 s).lnt = s.lnt ∧ (releaseStaging a0 s).out = s.out ∧ (releaseStaging a0 s).freeCtr = s.freeCtr := by
  unfold releaseStaging
  try dsimp only
  first
    | (simp; done)
    | ((repeat' split) <;> simp; done)
    | (and_intros <;> (repeat' (first | (simp; done) | split)))

@[simp] theorem refuseLost_frame (a0 : ℕ) (a1 : Slot) (s : State) :
    (refuseLost a0 a1 s).pending = s.pending ∧ (refuseLost a0 a1 s).latch = s.latch ∧ (refuseLost a0 a1 s).mem = s.mem ∧ (refuseLost a0 a1 s).clk = s.clk ∧ (refuseLost a0 a1 s).thm = s.thm ∧ (refuseLost a0 a1 s).tck = s.tck ∧ (refuseLost a0 a1 s).flc = s.flc ∧ (refuseLost a0 a1 s).bnd = s.bnd ∧ (refuseLost a0 a1 s).mbr = s.mbr ∧ (refuseLost a0 a1 s).flt = s.flt ∧ (refuseLost a0 a1 s).sec = s.sec ∧ (refuseLost a0 a1 s).cpx = s.cpx ∧ (refuseLost a0 a1 s).memc = s.memc ∧ (refuseLost a0 a1 s).mov = s.mov ∧ (refuseLost a0 a1 s).cst = s.cst ∧ (refuseLost a0 a1 s).freeCtr = s.freeCtr := by
  unfold refuseLost
  try dsimp only
  first
    | (simp; done)
    | ((repeat' split) <;> simp; done)
    | (and_intros <;> (repeat' (first | (simp; done) | split)))

@[simp] theorem pruneIndex_frame (s : State) :
    (pruneIndex s).pending = s.pending ∧ (pruneIndex s).regs = s.regs ∧ (pruneIndex s).latch = s.latch ∧ (pruneIndex s).mem = s.mem ∧ (pruneIndex s).sys = s.sys ∧ (pruneIndex s).clk = s.clk ∧ (pruneIndex s).thm = s.thm ∧ (pruneIndex s).tck = s.tck ∧ (pruneIndex s).stm = s.stm ∧ (pruneIndex s).map = s.map ∧ (pruneIndex s).flc = s.flc ∧ (pruneIndex s).bnd = s.bnd ∧ (pruneIndex s).mbr = s.mbr ∧ (pruneIndex s).flt = s.flt ∧ (pruneIndex s).sec = s.sec ∧ (pruneIndex s).cpx = s.cpx ∧ (pruneIndex s).memc = s.memc ∧ (pruneIndex s).mov = s.mov ∧ (pruneIndex s).cst = s.cst ∧ (pruneIndex s).lnt = s.lnt ∧ (pruneIndex s).out = s.out ∧ (pruneIndex s).freeCtr = s.freeCtr := by
  unfold pruneIndex
  try dsimp only
  first
    | (simp; done)
    | ((repeat' split) <;> simp; done)
    | (and_intros <;> (repeat' (first | (simp; done) | split)))

@[simp] theorem applyNext_frame (s : State) :
    (applyNext s).pending = s.pending ∧ (applyNext s).regs = s.regs ∧ (applyNext s).latch = s.latch ∧ (applyNext s).mem = s.mem ∧ (applyNext s).sys = s.sys ∧ (applyNext s).clk = s.clk ∧ (applyNext s).thm = s.thm ∧ (applyNext s).tck = s.tck ∧ (applyNext s).stm = s.stm ∧ (applyNext s).flc = s.flc ∧ (applyNext s).mbr = s.mbr ∧ (applyNext s).flt = s.flt ∧ (applyNext s).sec = s.sec ∧ (applyNext s).cpx = s.cpx ∧ (applyNext s).memc = s.memc ∧ (applyNext s).mov = s.mov ∧ (applyNext s).cst = s.cst ∧ (applyNext s).lnt = s.lnt ∧ (applyNext s).out = s.out ∧ (applyNext s).freeCtr = s.freeCtr := by
  unfold applyNext
  try dsimp only
  first
    | (simp; done)
    | ((repeat' split) <;> simp; done)
    | (and_intros <;> (repeat' (first | (simp; done) | split)))

@[simp] theorem applyTo_frame (a0 : ℕ) (a1 : ℕ) (s : State) :
    (applyTo a0 a1 s).pending = s.pending ∧ (applyTo a0 a1 s).regs = s.regs ∧ (applyTo a0 a1 s).latch = s.latch ∧ (applyTo a0 a1 s).mem = s.mem ∧ (applyTo a0 a1 s).sys = s.sys ∧ (applyTo a0 a1 s).clk = s.clk ∧ (applyTo a0 a1 s).thm = s.thm ∧ (applyTo a0 a1 s).tck = s.tck ∧ (applyTo a0 a1 s).stm = s.stm ∧ (applyTo a0 a1 s).flc = s.flc ∧ (applyTo a0 a1 s).mbr = s.mbr ∧ (applyTo a0 a1 s).flt = s.flt ∧ (applyTo a0 a1 s).sec = s.sec ∧ (applyTo a0 a1 s).cpx = s.cpx ∧ (applyTo a0 a1 s).memc = s.memc ∧ (applyTo a0 a1 s).mov = s.mov ∧ (applyTo a0 a1 s).cst = s.cst ∧ (applyTo a0 a1 s).lnt = s.lnt ∧ (applyTo a0 a1 s).out = s.out ∧ (applyTo a0 a1 s).freeCtr = s.freeCtr := by
  induction a0 generalizing s with
  | zero => simp [applyTo]
  | succ fuel ih =>
  unfold applyTo
  try dsimp only
  and_intros
  · repeat' (first | (simp; done) | (simp [*]; done) | (have h := appendRec_frame (by assumption); simp [h, *]; done) | (have h := takeSlot_frame (by assumption); simp [h, *]; done) | (have h := placePage_frame (by assumption); simp [h, *]; done) | (have h := placePart_frame (by assumption); simp [h, *]; done) | split | (refine (forAll_pending _ _ _ (fun x s => ?_)).trans ?_; try dsimp only) | (refine adminCmd_pending _ _ _ _ ?_; try dsimp only) | simp)
  · repeat' (first | (simp; done) | (simp [*]; done) | (have h := appendRec_frame (by assumption); simp [h, *]; done) | (have h := takeSlot_frame (by assumption); simp [h, *]; done) | (have h := placePage_frame (by assumption); simp [h, *]; done) | (have h := placePart_frame (by assumption); simp [h, *]; done) | split | (refine (forAll_regs _ _ _ (fun x s => ?_)).trans ?_; try dsimp only) | (refine adminCmd_regs _ _ _ _ ?_; try dsimp only) | simp)
  · repeat' (first | (simp; done) | (simp [*]; done) | (have h := appendRec_frame (by assumption); simp [h, *]; done) | (have h := takeSlot_frame (by assumption); simp [h, *]; done) | (have h := placePage_frame (by assumption); simp [h, *]; done) | (have h := placePart_frame (by assumption); simp [h, *]; done) | split | (refine (forAll_latch _ _ _ (fun x s => ?_)).trans ?_; try dsimp only) | (refine adminCmd_latch _ _ _ _ ?_; try dsimp only) | simp)
  · repeat' (first | (simp; done) | (simp [*]; done) | (have h := appendRec_frame (by assumption); simp [h, *]; done) | (have h := takeSlot_frame (by assumption); simp [h, *]; done) | (have h := placePage_frame (by assumption); simp [h, *]; done) | (have h := placePart_frame (by assumption); simp [h, *]; done) | split | (refine (forAll_mem _ _ _ (fun x s => ?_)).trans ?_; try dsimp only) | (refine adminCmd_mem _ _ _ _ ?_; try dsimp only) | simp)
  · repeat' (first | (simp; done) | (simp [*]; done) | (have h := appendRec_frame (by assumption); simp [h, *]; done) | (have h := takeSlot_frame (by assumption); simp [h, *]; done) | (have h := placePage_frame (by assumption); simp [h, *]; done) | (have h := placePart_frame (by assumption); simp [h, *]; done) | split | (refine (forAll_sys _ _ _ (fun x s => ?_)).trans ?_; try dsimp only) | (refine adminCmd_sys _ _ _ _ ?_; try dsimp only) | simp)
  · repeat' (first | (simp; done) | (simp [*]; done) | (have h := appendRec_frame (by assumption); simp [h, *]; done) | (have h := takeSlot_frame (by assumption); simp [h, *]; done) | (have h := placePage_frame (by assumption); simp [h, *]; done) | (have h := placePart_frame (by assumption); simp [h, *]; done) | split | (refine (forAll_clk _ _ _ (fun x s => ?_)).trans ?_; try dsimp only) | (refine adminCmd_clk _ _ _ _ ?_; try dsimp only) | simp)
  · repeat' (first | (simp; done) | (simp [*]; done) | (have h := appendRec_frame (by assumption); simp [h, *]; done) | (have h := takeSlot_frame (by assumption); simp [h, *]; done) | (have h := placePage_frame (by assumption); simp [h, *]; done) | (have h := placePart_frame (by assumption); simp [h, *]; done) | split | (refine (forAll_thm _ _ _ (fun x s => ?_)).trans ?_; try dsimp only) | (refine adminCmd_thm _ _ _ _ ?_; try dsimp only) | simp)
  · repeat' (first | (simp; done) | (simp [*]; done) | (have h := appendRec_frame (by assumption); simp [h, *]; done) | (have h := takeSlot_frame (by assumption); simp [h, *]; done) | (have h := placePage_frame (by assumption); simp [h, *]; done) | (have h := placePart_frame (by assumption); simp [h, *]; done) | split | (refine (forAll_tck _ _ _ (fun x s => ?_)).trans ?_; try dsimp only) | (refine adminCmd_tck _ _ _ _ ?_; try dsimp only) | simp)
  · repeat' (first | (simp; done) | (simp [*]; done) | (have h := appendRec_frame (by assumption); simp [h, *]; done) | (have h := takeSlot_frame (by assumption); simp [h, *]; done) | (have h := placePage_frame (by assumption); simp [h, *]; done) | (have h := placePart_frame (by assumption); simp [h, *]; done) | split | (refine (forAll_stm _ _ _ (fun x s => ?_)).trans ?_; try dsimp only) | (refine adminCmd_stm _ _ _ _ ?_; try dsimp only) | simp)
  · repeat' (first | (simp; done) | (simp [*]; done) | (have h := appendRec_frame (by assumption); simp [h, *]; done) | (have h := takeSlot_frame (by assumption); simp [h, *]; done) | (have h := placePage_frame (by assumption); simp [h, *]; done) | (have h := placePart_frame (by assumption); simp [h, *]; done) | split | (refine (forAll_flc _ _ _ (fun x s => ?_)).trans ?_; try dsimp only) | (refine adminCmd_flc _ _ _ _ ?_; try dsimp only) | simp)
  · repeat' (first | (simp; done) | (simp [*]; done) | (have h := appendRec_frame (by assumption); simp [h, *]; done) | (have h := takeSlot_frame (by assumption); simp [h, *]; done) | (have h := placePage_frame (by assumption); simp [h, *]; done) | (have h := placePart_frame (by assumption); simp [h, *]; done) | split | (refine (forAll_mbr _ _ _ (fun x s => ?_)).trans ?_; try dsimp only) | (refine adminCmd_mbr _ _ _ _ ?_; try dsimp only) | simp)
  · repeat' (first | (simp; done) | (simp [*]; done) | (have h := appendRec_frame (by assumption); simp [h, *]; done) | (have h := takeSlot_frame (by assumption); simp [h, *]; done) | (have h := placePage_frame (by assumption); simp [h, *]; done) | (have h := placePart_frame (by assumption); simp [h, *]; done) | split | (refine (forAll_flt _ _ _ (fun x s => ?_)).trans ?_; try dsimp only) | (refine adminCmd_flt _ _ _ _ ?_; try dsimp only) | simp)
  · repeat' (first | (simp; done) | (simp [*]; done) | (have h := appendRec_frame (by assumption); simp [h, *]; done) | (have h := takeSlot_frame (by assumption); simp [h, *]; done) | (have h := placePage_frame (by assumption); simp [h, *]; done) | (have h := placePart_frame (by assumption); simp [h, *]; done) | split | (refine (forAll_sec _ _ _ (fun x s => ?_)).trans ?_; try dsimp only) | (refine adminCmd_sec _ _ _ _ ?_; try dsimp only) | simp)
  · repeat' (first | (simp; done) | (simp [*]; done) | (have h := appendRec_frame (by assumption); simp [h, *]; done) | (have h := takeSlot_frame (by assumption); simp [h, *]; done) | (have h := placePage_frame (by assumption); simp [h, *]; done) | (have h := placePart_frame (by assumption); simp [h, *]; done) | split | (refine (forAll_cpx _ _ _ (fun x s => ?_)).trans ?_; try dsimp only) | (refine adminCmd_cpx _ _ _ _ ?_; try dsimp only) | simp)
  · repeat' (first | (simp; done) | (simp [*]; done) | (have h := appendRec_frame (by assumption); simp [h, *]; done) | (have h := takeSlot_frame (by assumption); simp [h, *]; done) | (have h := placePage_frame (by assumption); simp [h, *]; done) | (have h := placePart_frame (by assumption); simp [h, *]; done) | split | (refine (forAll_memc _ _ _ (fun x s => ?_)).trans ?_; try dsimp only) | (refine adminCmd_memc _ _ _ _ ?_; try dsimp only) | simp)
  · repeat' (first | (simp; done) | (simp [*]; done) | (have h := appendRec_frame (by assumption); simp [h, *]; done) | (have h := takeSlot_frame (by assumption); simp [h, *]; done) | (have h := placePage_frame (by assumption); simp [h, *]; done) | (have h := placePart_frame (by assumption); simp [h, *]; done) | split | (refine (forAll_mov _ _ _ (fun x s => ?_)).trans ?_; try dsimp only) | (refine adminCmd_mov _ _ _ _ ?_; try dsimp only) | simp)
  · repeat' (first | (simp; done) | (simp [*]; done) | (have h := appendRec_frame (by assumption); simp [h, *]; done) | (have h := takeSlot_frame (by assumption); simp [h, *]; done) | (have h := placePage_frame (by assumption); simp [h, *]; done) | (have h := placePart_frame (by assumption); simp [h, *]; done) | split | (refine (forAll_cst _ _ _ (fun x s => ?_)).trans ?_; try dsimp only) | (refine adminCmd_cst _ _ _ _ ?_; try dsimp only) | simp)
  · repeat' (first | (simp; done) | (simp [*]; done) | (have h := appendRec_frame (by assumption); simp [h, *]; done) | (have h := takeSlot_frame (by assumption); simp [h, *]; done) | (have h := placePage_frame (by assumption); simp [h, *]; done) | (have h := placePart_frame (by assumption); simp [h, *]; done) | split | (refine (forAll_lnt _ _ _ (fun x s => ?_)).trans ?_; try dsimp only) | simp)
  · repeat' (first | (simp; done) | (simp [*]; done) | (have h := appendRec_frame (by assumption); simp [h, *]; done) | (have h := takeSlot_frame (by assumption); simp [h, *]; done) | (have h := placePage_frame (by assumption); simp [h, *]; done) | (have h := placePart_frame (by assumption); simp [h, *]; done) | split | (refine (forAll_out _ _ _ (fun x s => ?_)).trans ?_; try dsimp only) | simp)
  · repeat' (first | (simp; done) | (simp [*]; done) | (have h := appendRec_frame (by assumption); simp [h, *]; done) | (have h := takeSlot_frame (by assumption); simp [h, *]; done) | (have h := placePage_frame (by assumption); simp [h, *]; done) | (have h := placePart_frame (by assumption); simp [h, *]; done) | split | (refine (forAll_freeCtr _ _ _ (fun x s => ?_)).trans ?_; try dsimp only) | (refine adminCmd_freeCtr _ _ _ _ ?_; try dsimp only) | simp)

@[simp] theorem nsRecords_frame (a0 : ℕ) (a1 : List RunOp) (s : State) :
    (nsRecords a0 a1 s).pending = s.pending ∧ (nsRecords a0 a1 s).latch = s.latch ∧ (nsRecords a0 a1 s).mem = s.mem ∧ (nsRecords a0 a1 s).clk = s.clk ∧ (nsRecords a0 a1 s).thm = s.thm ∧ (nsRecords a0 a1 s).tck = s.tck ∧ (nsRecords a0 a1 s).stm = s.stm ∧ (nsRecords a0 a1 s).flc = s.flc ∧ (nsRecords a0 a1 s).mbr = s.mbr ∧ (nsRecords a0 a1 s).flt = s.flt ∧ (nsRecords a0 a1 s).sec = s.sec ∧ (nsRecords a0 a1 s).cpx = s.cpx ∧ (nsRecords a0 a1 s).memc = s.memc ∧ (nsRecords a0 a1 s).mov = s.mov ∧ (nsRecords a0 a1 s).cst = s.cst ∧ (nsRecords a0 a1 s).out = s.out ∧ (nsRecords a0 a1 s).freeCtr = s.freeCtr := by
  induction a0 generalizing a1 s with
  | zero => simp [nsRecords]
  | succ fuel ih =>
  unfold nsRecords
  try dsimp only
  and_intros
  · repeat' (first | (simp; done) | (simp [*]; done) | (have h := appendRec_frame (by assumption); simp [h, *]; done) | (have h := takeSlot_frame (by assumption); simp [h, *]; done) | (have h := placePage_frame (by assumption); simp [h, *]; done) | (have h := placePart_frame (by assumption); simp [h, *]; done) | split | (refine (forAll_pending _ _ _ (fun x s => ?_)).trans ?_; try dsimp only) | (refine adminCmd_pending _ _ _ _ ?_; try dsimp only) | simp)
  · repeat' (first | (simp; done) | (simp [*]; done) | (have h := appendRec_frame (by assumption); simp [h, *]; done) | (have h := takeSlot_frame (by assumption); simp [h, *]; done) | (have h := placePage_frame (by assumption); simp [h, *]; done) | (have h := placePart_frame (by assumption); simp [h, *]; done) | split | (refine (forAll_latch _ _ _ (fun x s => ?_)).trans ?_; try dsimp only) | (refine adminCmd_latch _ _ _ _ ?_; try dsimp only) | simp)
  · repeat' (first | (simp; done) | (simp [*]; done) | (have h := appendRec_frame (by assumption); simp [h, *]; done) | (have h := takeSlot_frame (by assumption); simp [h, *]; done) | (have h := placePage_frame (by assumption); simp [h, *]; done) | (have h := placePart_frame (by assumption); simp [h, *]; done) | split | (refine (forAll_mem _ _ _ (fun x s => ?_)).trans ?_; try dsimp only) | (refine adminCmd_mem _ _ _ _ ?_; try dsimp only) | simp)
  · repeat' (first | (simp; done) | (simp [*]; done) | (have h := appendRec_frame (by assumption); simp [h, *]; done) | (have h := takeSlot_frame (by assumption); simp [h, *]; done) | (have h := placePage_frame (by assumption); simp [h, *]; done) | (have h := placePart_frame (by assumption); simp [h, *]; done) | split | (refine (forAll_clk _ _ _ (fun x s => ?_)).trans ?_; try dsimp only) | (refine adminCmd_clk _ _ _ _ ?_; try dsimp only) | simp)
  · repeat' (first | (simp; done) | (simp [*]; done) | (have h := appendRec_frame (by assumption); simp [h, *]; done) | (have h := takeSlot_frame (by assumption); simp [h, *]; done) | (have h := placePage_frame (by assumption); simp [h, *]; done) | (have h := placePart_frame (by assumption); simp [h, *]; done) | split | (refine (forAll_thm _ _ _ (fun x s => ?_)).trans ?_; try dsimp only) | (refine adminCmd_thm _ _ _ _ ?_; try dsimp only) | simp)
  · repeat' (first | (simp; done) | (simp [*]; done) | (have h := appendRec_frame (by assumption); simp [h, *]; done) | (have h := takeSlot_frame (by assumption); simp [h, *]; done) | (have h := placePage_frame (by assumption); simp [h, *]; done) | (have h := placePart_frame (by assumption); simp [h, *]; done) | split | (refine (forAll_tck _ _ _ (fun x s => ?_)).trans ?_; try dsimp only) | (refine adminCmd_tck _ _ _ _ ?_; try dsimp only) | simp)
  · repeat' (first | (simp; done) | (simp [*]; done) | (have h := appendRec_frame (by assumption); simp [h, *]; done) | (have h := takeSlot_frame (by assumption); simp [h, *]; done) | (have h := placePage_frame (by assumption); simp [h, *]; done) | (have h := placePart_frame (by assumption); simp [h, *]; done) | split | (refine (forAll_stm _ _ _ (fun x s => ?_)).trans ?_; try dsimp only) | (refine adminCmd_stm _ _ _ _ ?_; try dsimp only) | simp)
  · repeat' (first | (simp; done) | (simp [*]; done) | (have h := appendRec_frame (by assumption); simp [h, *]; done) | (have h := takeSlot_frame (by assumption); simp [h, *]; done) | (have h := placePage_frame (by assumption); simp [h, *]; done) | (have h := placePart_frame (by assumption); simp [h, *]; done) | split | (refine (forAll_flc _ _ _ (fun x s => ?_)).trans ?_; try dsimp only) | (refine adminCmd_flc _ _ _ _ ?_; try dsimp only) | simp)
  · repeat' (first | (simp; done) | (simp [*]; done) | (have h := appendRec_frame (by assumption); simp [h, *]; done) | (have h := takeSlot_frame (by assumption); simp [h, *]; done) | (have h := placePage_frame (by assumption); simp [h, *]; done) | (have h := placePart_frame (by assumption); simp [h, *]; done) | split | (refine (forAll_mbr _ _ _ (fun x s => ?_)).trans ?_; try dsimp only) | (refine adminCmd_mbr _ _ _ _ ?_; try dsimp only) | simp)
  · repeat' (first | (simp; done) | (simp [*]; done) | (have h := appendRec_frame (by assumption); simp [h, *]; done) | (have h := takeSlot_frame (by assumption); simp [h, *]; done) | (have h := placePage_frame (by assumption); simp [h, *]; done) | (have h := placePart_frame (by assumption); simp [h, *]; done) | split | (refine (forAll_flt _ _ _ (fun x s => ?_)).trans ?_; try dsimp only) | (refine adminCmd_flt _ _ _ _ ?_; try dsimp only) | simp)
  · repeat' (first | (simp; done) | (simp [*]; done) | (have h := appendRec_frame (by assumption); simp [h, *]; done) | (have h := takeSlot_frame (by assumption); simp [h, *]; done) | (have h := placePage_frame (by assumption); simp [h, *]; done) | (have h := placePart_frame (by assumption); simp [h, *]; done) | split | (refine (forAll_sec _ _ _ (fun x s => ?_)).trans ?_; try dsimp only) | (refine adminCmd_sec _ _ _ _ ?_; try dsimp only) | simp)
  · repeat' (first | (simp; done) | (simp [*]; done) | (have h := appendRec_frame (by assumption); simp [h, *]; done) | (have h := takeSlot_frame (by assumption); simp [h, *]; done) | (have h := placePage_frame (by assumption); simp [h, *]; done) | (have h := placePart_frame (by assumption); simp [h, *]; done) | split | (refine (forAll_cpx _ _ _ (fun x s => ?_)).trans ?_; try dsimp only) | (refine adminCmd_cpx _ _ _ _ ?_; try dsimp only) | simp)
  · repeat' (first | (simp; done) | (simp [*]; done) | (have h := appendRec_frame (by assumption); simp [h, *]; done) | (have h := takeSlot_frame (by assumption); simp [h, *]; done) | (have h := placePage_frame (by assumption); simp [h, *]; done) | (have h := placePart_frame (by assumption); simp [h, *]; done) | split | (refine (forAll_memc _ _ _ (fun x s => ?_)).trans ?_; try dsimp only) | (refine adminCmd_memc _ _ _ _ ?_; try dsimp only) | simp)
  · repeat' (first | (simp; done) | (simp [*]; done) | (have h := appendRec_frame (by assumption); simp [h, *]; done) | (have h := takeSlot_frame (by assumption); simp [h, *]; done) | (have h := placePage_frame (by assumption); simp [h, *]; done) | (have h := placePart_frame (by assumption); simp [h, *]; done) | split | (refine (forAll_mov _ _ _ (fun x s => ?_)).trans ?_; try dsimp only) | (refine adminCmd_mov _ _ _ _ ?_; try dsimp only) | simp)
  · repeat' (first | (simp; done) | (simp [*]; done) | (have h := appendRec_frame (by assumption); simp [h, *]; done) | (have h := takeSlot_frame (by assumption); simp [h, *]; done) | (have h := placePage_frame (by assumption); simp [h, *]; done) | (have h := placePart_frame (by assumption); simp [h, *]; done) | split | (refine (forAll_cst _ _ _ (fun x s => ?_)).trans ?_; try dsimp only) | (refine adminCmd_cst _ _ _ _ ?_; try dsimp only) | simp)
  · repeat' (first | (simp; done) | (simp [*]; done) | (have h := appendRec_frame (by assumption); simp [h, *]; done) | (have h := takeSlot_frame (by assumption); simp [h, *]; done) | (have h := placePage_frame (by assumption); simp [h, *]; done) | (have h := placePart_frame (by assumption); simp [h, *]; done) | split | (refine (forAll_out _ _ _ (fun x s => ?_)).trans ?_; try dsimp only) | simp)
  · repeat' (first | (simp; done) | (simp [*]; done) | (have h := appendRec_frame (by assumption); simp [h, *]; done) | (have h := takeSlot_frame (by assumption); simp [h, *]; done) | (have h := placePage_frame (by assumption); simp [h, *]; done) | (have h := placePart_frame (by assumption); simp [h, *]; done) | split | (refine (forAll_freeCtr _ _ _ (fun x s => ?_)).trans ?_; try dsimp only) | (refine adminCmd_freeCtr _ _ _ _ ?_; try dsimp only) | simp)

@[simp] theorem nsRecord_frame (a0 : List RunOp) (s : State) :
    (nsRecord a0 s).pending = s.pending ∧ (nsRecord a0 s).latch = s.latch ∧ (nsRecord a0 s).mem = s.mem ∧ (nsRecord a0 s).clk = s.clk ∧ (nsRecord a0 s).thm = s.thm ∧ (nsRecord a0 s).tck = s.tck ∧ (nsRecord a0 s).stm = s.stm ∧ (nsRecord a0 s).flc = s.flc ∧ (nsRecord a0 s).mbr = s.mbr ∧ (nsRecord a0 s).flt = s.flt ∧ (nsRecord a0 s).sec = s.sec ∧ (nsRecord a0 s).cpx = s.cpx ∧ (nsRecord a0 s).memc = s.memc ∧ (nsRecord a0 s).mov = s.mov ∧ (nsRecord a0 s).cst = s.cst ∧ (nsRecord a0 s).out = s.out ∧ (nsRecord a0 s).freeCtr = s.freeCtr := by
  unfold nsRecord
  try dsimp only
  and_intros
  · repeat' (first | (simp; done) | (have h := appendRec_frame (by assumption); simp [h]; done) | (have h := takeSlot_frame (by assumption); simp [h]; done) | (have h := placePage_frame (by assumption); simp [h]; done) | (have h := placePart_frame (by assumption); simp [h]; done) | split | (refine (forAll_pending _ _ _ (fun x s => ?_)).trans ?_; try dsimp only) | (refine adminCmd_pending _ _ _ _ ?_; try dsimp only) | simp)
  · repeat' (first | (simp; done) | (have h := appendRec_frame (by assumption); simp [h]; done) | (have h := takeSlot_frame (by assumption); simp [h]; done) | (have h := placePage_frame (by assumption); simp [h]; done) | (have h := placePart_frame (by assumption); simp [h]; done) | split | (refine (forAll_latch _ _ _ (fun x s => ?_)).trans ?_; try dsimp only) | (refine adminCmd_latch _ _ _ _ ?_; try dsimp only) | simp)
  · repeat' (first | (simp; done) | (have h := appendRec_frame (by assumption); simp [h]; done) | (have h := takeSlot_frame (by assumption); simp [h]; done) | (have h := placePage_frame (by assumption); simp [h]; done) | (have h := placePart_frame (by assumption); simp [h]; done) | split | (refine (forAll_mem _ _ _ (fun x s => ?_)).trans ?_; try dsimp only) | (refine adminCmd_mem _ _ _ _ ?_; try dsimp only) | simp)
  · repeat' (first | (simp; done) | (have h := appendRec_frame (by assumption); simp [h]; done) | (have h := takeSlot_frame (by assumption); simp [h]; done) | (have h := placePage_frame (by assumption); simp [h]; done) | (have h := placePart_frame (by assumption); simp [h]; done) | split | (refine (forAll_clk _ _ _ (fun x s => ?_)).trans ?_; try dsimp only) | (refine adminCmd_clk _ _ _ _ ?_; try dsimp only) | simp)
  · repeat' (first | (simp; done) | (have h := appendRec_frame (by assumption); simp [h]; done) | (have h := takeSlot_frame (by assumption); simp [h]; done) | (have h := placePage_frame (by assumption); simp [h]; done) | (have h := placePart_frame (by assumption); simp [h]; done) | split | (refine (forAll_thm _ _ _ (fun x s => ?_)).trans ?_; try dsimp only) | (refine adminCmd_thm _ _ _ _ ?_; try dsimp only) | simp)
  · repeat' (first | (simp; done) | (have h := appendRec_frame (by assumption); simp [h]; done) | (have h := takeSlot_frame (by assumption); simp [h]; done) | (have h := placePage_frame (by assumption); simp [h]; done) | (have h := placePart_frame (by assumption); simp [h]; done) | split | (refine (forAll_tck _ _ _ (fun x s => ?_)).trans ?_; try dsimp only) | (refine adminCmd_tck _ _ _ _ ?_; try dsimp only) | simp)
  · repeat' (first | (simp; done) | (have h := appendRec_frame (by assumption); simp [h]; done) | (have h := takeSlot_frame (by assumption); simp [h]; done) | (have h := placePage_frame (by assumption); simp [h]; done) | (have h := placePart_frame (by assumption); simp [h]; done) | split | (refine (forAll_stm _ _ _ (fun x s => ?_)).trans ?_; try dsimp only) | (refine adminCmd_stm _ _ _ _ ?_; try dsimp only) | simp)
  · repeat' (first | (simp; done) | (have h := appendRec_frame (by assumption); simp [h]; done) | (have h := takeSlot_frame (by assumption); simp [h]; done) | (have h := placePage_frame (by assumption); simp [h]; done) | (have h := placePart_frame (by assumption); simp [h]; done) | split | (refine (forAll_flc _ _ _ (fun x s => ?_)).trans ?_; try dsimp only) | (refine adminCmd_flc _ _ _ _ ?_; try dsimp only) | simp)
  · repeat' (first | (simp; done) | (have h := appendRec_frame (by assumption); simp [h]; done) | (have h := takeSlot_frame (by assumption); simp [h]; done) | (have h := placePage_frame (by assumption); simp [h]; done) | (have h := placePart_frame (by assumption); simp [h]; done) | split | (refine (forAll_mbr _ _ _ (fun x s => ?_)).trans ?_; try dsimp only) | (refine adminCmd_mbr _ _ _ _ ?_; try dsimp only) | simp)
  · repeat' (first | (simp; done) | (have h := appendRec_frame (by assumption); simp [h]; done) | (have h := takeSlot_frame (by assumption); simp [h]; done) | (have h := placePage_frame (by assumption); simp [h]; done) | (have h := placePart_frame (by assumption); simp [h]; done) | split | (refine (forAll_flt _ _ _ (fun x s => ?_)).trans ?_; try dsimp only) | (refine adminCmd_flt _ _ _ _ ?_; try dsimp only) | simp)
  · repeat' (first | (simp; done) | (have h := appendRec_frame (by assumption); simp [h]; done) | (have h := takeSlot_frame (by assumption); simp [h]; done) | (have h := placePage_frame (by assumption); simp [h]; done) | (have h := placePart_frame (by assumption); simp [h]; done) | split | (refine (forAll_sec _ _ _ (fun x s => ?_)).trans ?_; try dsimp only) | (refine adminCmd_sec _ _ _ _ ?_; try dsimp only) | simp)
  · repeat' (first | (simp; done) | (have h := appendRec_frame (by assumption); simp [h]; done) | (have h := takeSlot_frame (by assumption); simp [h]; done) | (have h := placePage_frame (by assumption); simp [h]; done) | (have h := placePart_frame (by assumption); simp [h]; done) | split | (refine (forAll_cpx _ _ _ (fun x s => ?_)).trans ?_; try dsimp only) | (refine adminCmd_cpx _ _ _ _ ?_; try dsimp only) | simp)
  · repeat' (first | (simp; done) | (have h := appendRec_frame (by assumption); simp [h]; done) | (have h := takeSlot_frame (by assumption); simp [h]; done) | (have h := placePage_frame (by assumption); simp [h]; done) | (have h := placePart_frame (by assumption); simp [h]; done) | split | (refine (forAll_memc _ _ _ (fun x s => ?_)).trans ?_; try dsimp only) | (refine adminCmd_memc _ _ _ _ ?_; try dsimp only) | simp)
  · repeat' (first | (simp; done) | (have h := appendRec_frame (by assumption); simp [h]; done) | (have h := takeSlot_frame (by assumption); simp [h]; done) | (have h := placePage_frame (by assumption); simp [h]; done) | (have h := placePart_frame (by assumption); simp [h]; done) | split | (refine (forAll_mov _ _ _ (fun x s => ?_)).trans ?_; try dsimp only) | (refine adminCmd_mov _ _ _ _ ?_; try dsimp only) | simp)
  · repeat' (first | (simp; done) | (have h := appendRec_frame (by assumption); simp [h]; done) | (have h := takeSlot_frame (by assumption); simp [h]; done) | (have h := placePage_frame (by assumption); simp [h]; done) | (have h := placePart_frame (by assumption); simp [h]; done) | split | (refine (forAll_cst _ _ _ (fun x s => ?_)).trans ?_; try dsimp only) | (refine adminCmd_cst _ _ _ _ ?_; try dsimp only) | simp)
  · repeat' (first | (simp; done) | (have h := appendRec_frame (by assumption); simp [h]; done) | (have h := takeSlot_frame (by assumption); simp [h]; done) | (have h := placePage_frame (by assumption); simp [h]; done) | (have h := placePart_frame (by assumption); simp [h]; done) | split | (refine (forAll_out _ _ _ (fun x s => ?_)).trans ?_; try dsimp only) | simp)
  · repeat' (first | (simp; done) | (have h := appendRec_frame (by assumption); simp [h]; done) | (have h := takeSlot_frame (by assumption); simp [h]; done) | (have h := placePage_frame (by assumption); simp [h]; done) | (have h := placePart_frame (by assumption); simp [h]; done) | split | (refine (forAll_freeCtr _ _ _ (fun x s => ?_)).trans ?_; try dsimp only) | (refine adminCmd_freeCtr _ _ _ _ ?_; try dsimp only) | simp)

@[simp] theorem poolWait_frame (s : State) :
    (poolWait s).pending = s.pending ∧ (poolWait s).latch = s.latch ∧ (poolWait s).mem = s.mem ∧ (poolWait s).clk = s.clk ∧ (poolWait s).thm = s.thm ∧ (poolWait s).tck = s.tck ∧ (poolWait s).hif = s.hif ∧ (poolWait s).stm = s.stm ∧ (poolWait s).flc = s.flc ∧ (poolWait s).bnd = s.bnd ∧ (poolWait s).mbr = s.mbr ∧ (poolWait s).flt = s.flt ∧ (poolWait s).sec = s.sec ∧ (poolWait s).cpx = s.cpx ∧ (poolWait s).memc = s.memc ∧ (poolWait s).mov = s.mov ∧ (poolWait s).cst = s.cst ∧ (poolWait s).out = s.out ∧ (poolWait s).freeCtr = s.freeCtr := by
  unfold poolWait
  try dsimp only
  first
    | (simp; done)
    | ((repeat' split) <;> simp; done)
    | (and_intros <;> (repeat' (first | (simp; done) | split)))

@[simp] theorem poolCheck_frame (s : State) :
    (poolCheck s).pending = s.pending ∧ (poolCheck s).latch = s.latch ∧ (poolCheck s).mem = s.mem ∧ (poolCheck s).clk = s.clk ∧ (poolCheck s).thm = s.thm ∧ (poolCheck s).tck = s.tck ∧ (poolCheck s).hif = s.hif ∧ (poolCheck s).stm = s.stm ∧ (poolCheck s).flc = s.flc ∧ (poolCheck s).bnd = s.bnd ∧ (poolCheck s).mbr = s.mbr ∧ (poolCheck s).flt = s.flt ∧ (poolCheck s).sec = s.sec ∧ (poolCheck s).cpx = s.cpx ∧ (poolCheck s).memc = s.memc ∧ (poolCheck s).mov = s.mov ∧ (poolCheck s).cst = s.cst ∧ (poolCheck s).out = s.out ∧ (poolCheck s).freeCtr = s.freeCtr := by
  unfold poolCheck
  try dsimp only
  first
    | (simp; done)
    | ((repeat' split) <;> simp; done)
    | (and_intros <;> (repeat' (first | (simp; done) | split)))

@[simp] theorem markFormed_frame (a0 : ℕ) (s : State) :
    (markFormed a0 s).pending = s.pending ∧ (markFormed a0 s).regs = s.regs ∧ (markFormed a0 s).latch = s.latch ∧ (markFormed a0 s).mem = s.mem ∧ (markFormed a0 s).sys = s.sys ∧ (markFormed a0 s).clk = s.clk ∧ (markFormed a0 s).thm = s.thm ∧ (markFormed a0 s).tck = s.tck ∧ (markFormed a0 s).stm = s.stm ∧ (markFormed a0 s).flc = s.flc ∧ (markFormed a0 s).bnd = s.bnd ∧ (markFormed a0 s).mbr = s.mbr ∧ (markFormed a0 s).flt = s.flt ∧ (markFormed a0 s).sec = s.sec ∧ (markFormed a0 s).cpx = s.cpx ∧ (markFormed a0 s).memc = s.memc ∧ (markFormed a0 s).mov = s.mov ∧ (markFormed a0 s).cst = s.cst ∧ (markFormed a0 s).lnt = s.lnt ∧ (markFormed a0 s).out = s.out ∧ (markFormed a0 s).freeCtr = s.freeCtr := by
  unfold markFormed
  try dsimp only
  first
    | (simp; done)
    | ((repeat' split) <;> simp; done)
    | (and_intros <;> (repeat' (first | (simp; done) | split)))

theorem formWrite_pending (a0 : ℕ) (a1 : Slot) (s : State) : (formWrite a0 a1 s).pending = s.pending := by
  unfold formWrite
  split
  · rfl
  extract_lets v c parts locs inPart
  split
  · simp
  split
  · rfl
  split
  · simp
  split
  · simp
  · rename_i t h
    have h := appendRec_frame h
    simp only [poolCheck_frame, markFormed_frame]
    refine (forAll_pending _ _ _ (fun x s => ?_)).trans ?_
    · repeat' (first | (simp; done) | split)
    · simp [h]

theorem formWrite_latch (a0 : ℕ) (a1 : Slot) (s : State) : (formWrite a0 a1 s).latch = s.latch := by
  unfold formWrite
  split
  · rfl
  extract_lets v c parts locs inPart
  split
  · simp
  split
  · rfl
  split
  · simp
  split
  · simp
  · rename_i t h
    have h := appendRec_frame h
    simp only [poolCheck_frame, markFormed_frame]
    refine (forAll_latch _ _ _ (fun x s => ?_)).trans ?_
    · repeat' (first | (simp; done) | split)
    · simp [h]

theorem formWrite_mem (a0 : ℕ) (a1 : Slot) (s : State) : (formWrite a0 a1 s).mem = s.mem := by
  unfold formWrite
  split
  · rfl
  extract_lets v c parts locs inPart
  split
  · simp
  split
  · rfl
  split
  · simp
  split
  · simp
  · rename_i t h
    have h := appendRec_frame h
    simp only [poolCheck_frame, markFormed_frame]
    refine (forAll_mem _ _ _ (fun x s => ?_)).trans ?_
    · repeat' (first | (simp; done) | split)
    · simp [h]

theorem formWrite_clk (a0 : ℕ) (a1 : Slot) (s : State) : (formWrite a0 a1 s).clk = s.clk := by
  unfold formWrite
  split
  · rfl
  extract_lets v c parts locs inPart
  split
  · simp
  split
  · rfl
  split
  · simp
  split
  · simp
  · rename_i t h
    have h := appendRec_frame h
    simp only [poolCheck_frame, markFormed_frame]
    refine (forAll_clk _ _ _ (fun x s => ?_)).trans ?_
    · repeat' (first | (simp; done) | split)
    · simp [h]

theorem formWrite_thm (a0 : ℕ) (a1 : Slot) (s : State) : (formWrite a0 a1 s).thm = s.thm := by
  unfold formWrite
  split
  · rfl
  extract_lets v c parts locs inPart
  split
  · simp
  split
  · rfl
  split
  · simp
  split
  · simp
  · rename_i t h
    have h := appendRec_frame h
    simp only [poolCheck_frame, markFormed_frame]
    refine (forAll_thm _ _ _ (fun x s => ?_)).trans ?_
    · repeat' (first | (simp; done) | split)
    · simp [h]

theorem formWrite_flc (a0 : ℕ) (a1 : Slot) (s : State) : (formWrite a0 a1 s).flc = s.flc := by
  unfold formWrite
  split
  · rfl
  extract_lets v c parts locs inPart
  split
  · simp
  split
  · rfl
  split
  · simp
  split
  · simp
  · rename_i t h
    have h := appendRec_frame h
    simp only [poolCheck_frame, markFormed_frame]
    refine (forAll_flc _ _ _ (fun x s => ?_)).trans ?_
    · repeat' (first | (simp; done) | split)
    · simp [h]

theorem formWrite_mbr (a0 : ℕ) (a1 : Slot) (s : State) : (formWrite a0 a1 s).mbr = s.mbr := by
  unfold formWrite
  split
  · rfl
  extract_lets v c parts locs inPart
  split
  · simp
  split
  · rfl
  split
  · simp
  split
  · simp
  · rename_i t h
    have h := appendRec_frame h
    simp only [poolCheck_frame, markFormed_frame]
    refine (forAll_mbr _ _ _ (fun x s => ?_)).trans ?_
    · repeat' (first | (simp; done) | split)
    · simp [h]

theorem formWrite_flt (a0 : ℕ) (a1 : Slot) (s : State) : (formWrite a0 a1 s).flt = s.flt := by
  unfold formWrite
  split
  · rfl
  extract_lets v c parts locs inPart
  split
  · simp
  split
  · rfl
  split
  · simp
  split
  · simp
  · rename_i t h
    have h := appendRec_frame h
    simp only [poolCheck_frame, markFormed_frame]
    refine (forAll_flt _ _ _ (fun x s => ?_)).trans ?_
    · repeat' (first | (simp; done) | split)
    · simp [h]

theorem formWrite_sec (a0 : ℕ) (a1 : Slot) (s : State) : (formWrite a0 a1 s).sec = s.sec := by
  unfold formWrite
  split
  · rfl
  extract_lets v c parts locs inPart
  split
  · simp
  split
  · rfl
  split
  · simp
  split
  · simp
  · rename_i t h
    have h := appendRec_frame h
    simp only [poolCheck_frame, markFormed_frame]
    refine (forAll_sec _ _ _ (fun x s => ?_)).trans ?_
    · repeat' (first | (simp; done) | split)
    · simp [h]

theorem formWrite_cpx (a0 : ℕ) (a1 : Slot) (s : State) : (formWrite a0 a1 s).cpx = s.cpx := by
  unfold formWrite
  split
  · rfl
  extract_lets v c parts locs inPart
  split
  · simp
  split
  · rfl
  split
  · simp
  split
  · simp
  · rename_i t h
    have h := appendRec_frame h
    simp only [poolCheck_frame, markFormed_frame]
    refine (forAll_cpx _ _ _ (fun x s => ?_)).trans ?_
    · repeat' (first | (simp; done) | split)
    · simp [h]

theorem formWrite_memc (a0 : ℕ) (a1 : Slot) (s : State) : (formWrite a0 a1 s).memc = s.memc := by
  unfold formWrite
  split
  · rfl
  extract_lets v c parts locs inPart
  split
  · simp
  split
  · rfl
  split
  · simp
  split
  · simp
  · rename_i t h
    have h := appendRec_frame h
    simp only [poolCheck_frame, markFormed_frame]
    refine (forAll_memc _ _ _ (fun x s => ?_)).trans ?_
    · repeat' (first | (simp; done) | split)
    · simp [h]

theorem formWrite_mov (a0 : ℕ) (a1 : Slot) (s : State) : (formWrite a0 a1 s).mov = s.mov := by
  unfold formWrite
  split
  · rfl
  extract_lets v c parts locs inPart
  split
  · simp
  split
  · rfl
  split
  · simp
  split
  · simp
  · rename_i t h
    have h := appendRec_frame h
    simp only [poolCheck_frame, markFormed_frame]
    refine (forAll_mov _ _ _ (fun x s => ?_)).trans ?_
    · repeat' (first | (simp; done) | split)
    · simp [h]

theorem formWrite_cst (a0 : ℕ) (a1 : Slot) (s : State) : (formWrite a0 a1 s).cst = s.cst := by
  unfold formWrite
  split
  · rfl
  extract_lets v c parts locs inPart
  split
  · simp
  split
  · rfl
  split
  · simp
  split
  · simp
  · rename_i t h
    have h := appendRec_frame h
    simp only [poolCheck_frame, markFormed_frame]
    refine (forAll_cst _ _ _ (fun x s => ?_)).trans ?_
    · repeat' (first | (simp; done) | split)
    · simp [h]

theorem formWrite_freeCtr (a0 : ℕ) (a1 : Slot) (s : State) : (formWrite a0 a1 s).freeCtr = s.freeCtr := by
  unfold formWrite
  split
  · rfl
  extract_lets v c parts locs inPart
  split
  · simp
  split
  · rfl
  split
  · simp
  split
  · simp
  · rename_i t h
    have h := appendRec_frame h
    simp only [poolCheck_frame, markFormed_frame]
    refine (forAll_freeCtr _ _ _ (fun x s => ?_)).trans ?_
    · repeat' (first | (simp; done) | split)
    · simp [h]

@[simp] theorem formWrite_frame (a0 : ℕ) (a1 : Slot) (s : State) :
    (formWrite a0 a1 s).pending = s.pending ∧ (formWrite a0 a1 s).latch = s.latch ∧ (formWrite a0 a1 s).mem = s.mem ∧ (formWrite a0 a1 s).clk = s.clk ∧ (formWrite a0 a1 s).thm = s.thm ∧ (formWrite a0 a1 s).flc = s.flc ∧ (formWrite a0 a1 s).mbr = s.mbr ∧ (formWrite a0 a1 s).flt = s.flt ∧ (formWrite a0 a1 s).sec = s.sec ∧ (formWrite a0 a1 s).cpx = s.cpx ∧ (formWrite a0 a1 s).memc = s.memc ∧ (formWrite a0 a1 s).mov = s.mov ∧ (formWrite a0 a1 s).cst = s.cst ∧ (formWrite a0 a1 s).freeCtr = s.freeCtr :=
  ⟨formWrite_pending a0 a1 s, formWrite_latch a0 a1 s, formWrite_mem a0 a1 s, formWrite_clk a0 a1 s, formWrite_thm a0 a1 s, formWrite_flc a0 a1 s, formWrite_mbr a0 a1 s, formWrite_flt a0 a1 s, formWrite_sec a0 a1 s, formWrite_cpx a0 a1 s, formWrite_memc a0 a1 s, formWrite_mov a0 a1 s, formWrite_cst a0 a1 s, formWrite_freeCtr a0 a1 s⟩

theorem formUnmap_pending (a0 : ℕ) (a1 : Slot) (s : State) : (formUnmap a0 a1 s).pending = s.pending := by
  unfold formUnmap
  extract_lets c v
  split
  · rfl
  split
  · simp
  split
  · simp
  extract_lets a n parts isLost lost made
  split
  · simp
  split
  · simp
  · rename_i t h
    have h := appendRec_frame h
    simp only [poolCheck_frame]
    have e : (forAll parts (fun p s => if (spansOf (newerFormed s a1.accept c.nsid) p.2.2 p.2.1).isEmpty then s else giveUpRun p.1 s) t).pending = t.pending := by
      refine (forAll_pending _ _ _ (fun x s => ?_)).trans rfl
      split <;> simp
    split
    · simp only [markFormed_frame]
      refine Eq.trans ?_ (e.trans (by simp [h]))
      rfl
    · refine Eq.trans ?_ (e.trans (by simp [h]))
      rfl

theorem formUnmap_latch (a0 : ℕ) (a1 : Slot) (s : State) : (formUnmap a0 a1 s).latch = s.latch := by
  unfold formUnmap
  extract_lets c v
  split
  · rfl
  split
  · simp
  split
  · simp
  extract_lets a n parts isLost lost made
  split
  · simp
  split
  · simp
  · rename_i t h
    have h := appendRec_frame h
    simp only [poolCheck_frame]
    have e : (forAll parts (fun p s => if (spansOf (newerFormed s a1.accept c.nsid) p.2.2 p.2.1).isEmpty then s else giveUpRun p.1 s) t).latch = t.latch := by
      refine (forAll_latch _ _ _ (fun x s => ?_)).trans rfl
      split <;> simp
    split
    · simp only [markFormed_frame]
      refine Eq.trans ?_ (e.trans (by simp [h]))
      rfl
    · refine Eq.trans ?_ (e.trans (by simp [h]))
      rfl

theorem formUnmap_mem (a0 : ℕ) (a1 : Slot) (s : State) : (formUnmap a0 a1 s).mem = s.mem := by
  unfold formUnmap
  extract_lets c v
  split
  · rfl
  split
  · simp
  split
  · simp
  extract_lets a n parts isLost lost made
  split
  · simp
  split
  · simp
  · rename_i t h
    have h := appendRec_frame h
    simp only [poolCheck_frame]
    have e : (forAll parts (fun p s => if (spansOf (newerFormed s a1.accept c.nsid) p.2.2 p.2.1).isEmpty then s else giveUpRun p.1 s) t).mem = t.mem := by
      refine (forAll_mem _ _ _ (fun x s => ?_)).trans rfl
      split <;> simp
    split
    · simp only [markFormed_frame]
      refine Eq.trans ?_ (e.trans (by simp [h]))
      rfl
    · refine Eq.trans ?_ (e.trans (by simp [h]))
      rfl

theorem formUnmap_clk (a0 : ℕ) (a1 : Slot) (s : State) : (formUnmap a0 a1 s).clk = s.clk := by
  unfold formUnmap
  extract_lets c v
  split
  · rfl
  split
  · simp
  split
  · simp
  extract_lets a n parts isLost lost made
  split
  · simp
  split
  · simp
  · rename_i t h
    have h := appendRec_frame h
    simp only [poolCheck_frame]
    have e : (forAll parts (fun p s => if (spansOf (newerFormed s a1.accept c.nsid) p.2.2 p.2.1).isEmpty then s else giveUpRun p.1 s) t).clk = t.clk := by
      refine (forAll_clk _ _ _ (fun x s => ?_)).trans rfl
      split <;> simp
    split
    · simp only [markFormed_frame]
      refine Eq.trans ?_ (e.trans (by simp [h]))
      rfl
    · refine Eq.trans ?_ (e.trans (by simp [h]))
      rfl

theorem formUnmap_thm (a0 : ℕ) (a1 : Slot) (s : State) : (formUnmap a0 a1 s).thm = s.thm := by
  unfold formUnmap
  extract_lets c v
  split
  · rfl
  split
  · simp
  split
  · simp
  extract_lets a n parts isLost lost made
  split
  · simp
  split
  · simp
  · rename_i t h
    have h := appendRec_frame h
    simp only [poolCheck_frame]
    have e : (forAll parts (fun p s => if (spansOf (newerFormed s a1.accept c.nsid) p.2.2 p.2.1).isEmpty then s else giveUpRun p.1 s) t).thm = t.thm := by
      refine (forAll_thm _ _ _ (fun x s => ?_)).trans rfl
      split <;> simp
    split
    · simp only [markFormed_frame]
      refine Eq.trans ?_ (e.trans (by simp [h]))
      rfl
    · refine Eq.trans ?_ (e.trans (by simp [h]))
      rfl

theorem formUnmap_flc (a0 : ℕ) (a1 : Slot) (s : State) : (formUnmap a0 a1 s).flc = s.flc := by
  unfold formUnmap
  extract_lets c v
  split
  · rfl
  split
  · simp
  split
  · simp
  extract_lets a n parts isLost lost made
  split
  · simp
  split
  · simp
  · rename_i t h
    have h := appendRec_frame h
    simp only [poolCheck_frame]
    have e : (forAll parts (fun p s => if (spansOf (newerFormed s a1.accept c.nsid) p.2.2 p.2.1).isEmpty then s else giveUpRun p.1 s) t).flc = t.flc := by
      refine (forAll_flc _ _ _ (fun x s => ?_)).trans rfl
      split <;> simp
    split
    · simp only [markFormed_frame]
      refine Eq.trans ?_ (e.trans (by simp [h]))
      rfl
    · refine Eq.trans ?_ (e.trans (by simp [h]))
      rfl

theorem formUnmap_mbr (a0 : ℕ) (a1 : Slot) (s : State) : (formUnmap a0 a1 s).mbr = s.mbr := by
  unfold formUnmap
  extract_lets c v
  split
  · rfl
  split
  · simp
  split
  · simp
  extract_lets a n parts isLost lost made
  split
  · simp
  split
  · simp
  · rename_i t h
    have h := appendRec_frame h
    simp only [poolCheck_frame]
    have e : (forAll parts (fun p s => if (spansOf (newerFormed s a1.accept c.nsid) p.2.2 p.2.1).isEmpty then s else giveUpRun p.1 s) t).mbr = t.mbr := by
      refine (forAll_mbr _ _ _ (fun x s => ?_)).trans rfl
      split <;> simp
    split
    · simp only [markFormed_frame]
      refine Eq.trans ?_ (e.trans (by simp [h]))
      rfl
    · refine Eq.trans ?_ (e.trans (by simp [h]))
      rfl

theorem formUnmap_flt (a0 : ℕ) (a1 : Slot) (s : State) : (formUnmap a0 a1 s).flt = s.flt := by
  unfold formUnmap
  extract_lets c v
  split
  · rfl
  split
  · simp
  split
  · simp
  extract_lets a n parts isLost lost made
  split
  · simp
  split
  · simp
  · rename_i t h
    have h := appendRec_frame h
    simp only [poolCheck_frame]
    have e : (forAll parts (fun p s => if (spansOf (newerFormed s a1.accept c.nsid) p.2.2 p.2.1).isEmpty then s else giveUpRun p.1 s) t).flt = t.flt := by
      refine (forAll_flt _ _ _ (fun x s => ?_)).trans rfl
      split <;> simp
    split
    · simp only [markFormed_frame]
      refine Eq.trans ?_ (e.trans (by simp [h]))
      rfl
    · refine Eq.trans ?_ (e.trans (by simp [h]))
      rfl

theorem formUnmap_sec (a0 : ℕ) (a1 : Slot) (s : State) : (formUnmap a0 a1 s).sec = s.sec := by
  unfold formUnmap
  extract_lets c v
  split
  · rfl
  split
  · simp
  split
  · simp
  extract_lets a n parts isLost lost made
  split
  · simp
  split
  · simp
  · rename_i t h
    have h := appendRec_frame h
    simp only [poolCheck_frame]
    have e : (forAll parts (fun p s => if (spansOf (newerFormed s a1.accept c.nsid) p.2.2 p.2.1).isEmpty then s else giveUpRun p.1 s) t).sec = t.sec := by
      refine (forAll_sec _ _ _ (fun x s => ?_)).trans rfl
      split <;> simp
    split
    · simp only [markFormed_frame]
      refine Eq.trans ?_ (e.trans (by simp [h]))
      rfl
    · refine Eq.trans ?_ (e.trans (by simp [h]))
      rfl

theorem formUnmap_cpx (a0 : ℕ) (a1 : Slot) (s : State) : (formUnmap a0 a1 s).cpx = s.cpx := by
  unfold formUnmap
  extract_lets c v
  split
  · rfl
  split
  · simp
  split
  · simp
  extract_lets a n parts isLost lost made
  split
  · simp
  split
  · simp
  · rename_i t h
    have h := appendRec_frame h
    simp only [poolCheck_frame]
    have e : (forAll parts (fun p s => if (spansOf (newerFormed s a1.accept c.nsid) p.2.2 p.2.1).isEmpty then s else giveUpRun p.1 s) t).cpx = t.cpx := by
      refine (forAll_cpx _ _ _ (fun x s => ?_)).trans rfl
      split <;> simp
    split
    · simp only [markFormed_frame]
      refine Eq.trans ?_ (e.trans (by simp [h]))
      rfl
    · refine Eq.trans ?_ (e.trans (by simp [h]))
      rfl

theorem formUnmap_memc (a0 : ℕ) (a1 : Slot) (s : State) : (formUnmap a0 a1 s).memc = s.memc := by
  unfold formUnmap
  extract_lets c v
  split
  · rfl
  split
  · simp
  split
  · simp
  extract_lets a n parts isLost lost made
  split
  · simp
  split
  · simp
  · rename_i t h
    have h := appendRec_frame h
    simp only [poolCheck_frame]
    have e : (forAll parts (fun p s => if (spansOf (newerFormed s a1.accept c.nsid) p.2.2 p.2.1).isEmpty then s else giveUpRun p.1 s) t).memc = t.memc := by
      refine (forAll_memc _ _ _ (fun x s => ?_)).trans rfl
      split <;> simp
    split
    · simp only [markFormed_frame]
      refine Eq.trans ?_ (e.trans (by simp [h]))
      rfl
    · refine Eq.trans ?_ (e.trans (by simp [h]))
      rfl

theorem formUnmap_mov (a0 : ℕ) (a1 : Slot) (s : State) : (formUnmap a0 a1 s).mov = s.mov := by
  unfold formUnmap
  extract_lets c v
  split
  · rfl
  split
  · simp
  split
  · simp
  extract_lets a n parts isLost lost made
  split
  · simp
  split
  · simp
  · rename_i t h
    have h := appendRec_frame h
    simp only [poolCheck_frame]
    have e : (forAll parts (fun p s => if (spansOf (newerFormed s a1.accept c.nsid) p.2.2 p.2.1).isEmpty then s else giveUpRun p.1 s) t).mov = t.mov := by
      refine (forAll_mov _ _ _ (fun x s => ?_)).trans rfl
      split <;> simp
    split
    · simp only [markFormed_frame]
      refine Eq.trans ?_ (e.trans (by simp [h]))
      rfl
    · refine Eq.trans ?_ (e.trans (by simp [h]))
      rfl

theorem formUnmap_cst (a0 : ℕ) (a1 : Slot) (s : State) : (formUnmap a0 a1 s).cst = s.cst := by
  unfold formUnmap
  extract_lets c v
  split
  · rfl
  split
  · simp
  split
  · simp
  extract_lets a n parts isLost lost made
  split
  · simp
  split
  · simp
  · rename_i t h
    have h := appendRec_frame h
    simp only [poolCheck_frame]
    have e : (forAll parts (fun p s => if (spansOf (newerFormed s a1.accept c.nsid) p.2.2 p.2.1).isEmpty then s else giveUpRun p.1 s) t).cst = t.cst := by
      refine (forAll_cst _ _ _ (fun x s => ?_)).trans rfl
      split <;> simp
    split
    · simp only [markFormed_frame]
      refine Eq.trans ?_ (e.trans (by simp [h]))
      rfl
    · refine Eq.trans ?_ (e.trans (by simp [h]))
      rfl

theorem formUnmap_freeCtr (a0 : ℕ) (a1 : Slot) (s : State) : (formUnmap a0 a1 s).freeCtr = s.freeCtr := by
  unfold formUnmap
  extract_lets c v
  split
  · rfl
  split
  · simp
  split
  · simp
  extract_lets a n parts isLost lost made
  split
  · simp
  split
  · simp
  · rename_i t h
    have h := appendRec_frame h
    simp only [poolCheck_frame]
    have e : (forAll parts (fun p s => if (spansOf (newerFormed s a1.accept c.nsid) p.2.2 p.2.1).isEmpty then s else giveUpRun p.1 s) t).freeCtr = t.freeCtr := by
      refine (forAll_freeCtr _ _ _ (fun x s => ?_)).trans rfl
      split <;> simp
    split
    · simp only [markFormed_frame]
      refine Eq.trans ?_ (e.trans (by simp [h]))
      rfl
    · refine Eq.trans ?_ (e.trans (by simp [h]))
      rfl

@[simp] theorem formUnmap_frame (a0 : ℕ) (a1 : Slot) (s : State) :
    (formUnmap a0 a1 s).pending = s.pending ∧ (formUnmap a0 a1 s).latch = s.latch ∧ (formUnmap a0 a1 s).mem = s.mem ∧ (formUnmap a0 a1 s).clk = s.clk ∧ (formUnmap a0 a1 s).thm = s.thm ∧ (formUnmap a0 a1 s).flc = s.flc ∧ (formUnmap a0 a1 s).mbr = s.mbr ∧ (formUnmap a0 a1 s).flt = s.flt ∧ (formUnmap a0 a1 s).sec = s.sec ∧ (formUnmap a0 a1 s).cpx = s.cpx ∧ (formUnmap a0 a1 s).memc = s.memc ∧ (formUnmap a0 a1 s).mov = s.mov ∧ (formUnmap a0 a1 s).cst = s.cst ∧ (formUnmap a0 a1 s).freeCtr = s.freeCtr :=
  ⟨formUnmap_pending a0 a1 s, formUnmap_latch a0 a1 s, formUnmap_mem a0 a1 s, formUnmap_clk a0 a1 s, formUnmap_thm a0 a1 s, formUnmap_flc a0 a1 s, formUnmap_mbr a0 a1 s, formUnmap_flt a0 a1 s, formUnmap_sec a0 a1 s, formUnmap_cpx a0 a1 s, formUnmap_memc a0 a1 s, formUnmap_mov a0 a1 s, formUnmap_cst a0 a1 s, formUnmap_freeCtr a0 a1 s⟩

theorem copyRecords_pending (a0 : ℕ) (a1 : ℕ) (a2 : List RunOp) (s : State) : (copyRecords a0 a1 a2 s).pending = s.pending := by
  induction a1 generalizing a2 s with
  | zero => rfl
  | succ n ih =>
    unfold copyRecords
    rcases h : appendRec .copy 0 a0 (a2.take 128) [] (n = 0) s with - | t
    · rfl
    · exact (ih _ _).trans (by simp [appendRec_frame h])

theorem copyRecords_latch (a0 : ℕ) (a1 : ℕ) (a2 : List RunOp) (s : State) : (copyRecords a0 a1 a2 s).latch = s.latch := by
  induction a1 generalizing a2 s with
  | zero => rfl
  | succ n ih =>
    unfold copyRecords
    rcases h : appendRec .copy 0 a0 (a2.take 128) [] (n = 0) s with - | t
    · rfl
    · exact (ih _ _).trans (by simp [appendRec_frame h])

theorem copyRecords_mem (a0 : ℕ) (a1 : ℕ) (a2 : List RunOp) (s : State) : (copyRecords a0 a1 a2 s).mem = s.mem := by
  induction a1 generalizing a2 s with
  | zero => rfl
  | succ n ih =>
    unfold copyRecords
    rcases h : appendRec .copy 0 a0 (a2.take 128) [] (n = 0) s with - | t
    · rfl
    · exact (ih _ _).trans (by simp [appendRec_frame h])

theorem copyRecords_sys (a0 : ℕ) (a1 : ℕ) (a2 : List RunOp) (s : State) : (copyRecords a0 a1 a2 s).sys = s.sys := by
  induction a1 generalizing a2 s with
  | zero => rfl
  | succ n ih =>
    unfold copyRecords
    rcases h : appendRec .copy 0 a0 (a2.take 128) [] (n = 0) s with - | t
    · rfl
    · exact (ih _ _).trans (by simp [appendRec_frame h])

theorem copyRecords_clk (a0 : ℕ) (a1 : ℕ) (a2 : List RunOp) (s : State) : (copyRecords a0 a1 a2 s).clk = s.clk := by
  induction a1 generalizing a2 s with
  | zero => rfl
  | succ n ih =>
    unfold copyRecords
    rcases h : appendRec .copy 0 a0 (a2.take 128) [] (n = 0) s with - | t
    · rfl
    · exact (ih _ _).trans (by simp [appendRec_frame h])

theorem copyRecords_thm (a0 : ℕ) (a1 : ℕ) (a2 : List RunOp) (s : State) : (copyRecords a0 a1 a2 s).thm = s.thm := by
  induction a1 generalizing a2 s with
  | zero => rfl
  | succ n ih =>
    unfold copyRecords
    rcases h : appendRec .copy 0 a0 (a2.take 128) [] (n = 0) s with - | t
    · rfl
    · exact (ih _ _).trans (by simp [appendRec_frame h])

theorem copyRecords_tck (a0 : ℕ) (a1 : ℕ) (a2 : List RunOp) (s : State) : (copyRecords a0 a1 a2 s).tck = s.tck := by
  induction a1 generalizing a2 s with
  | zero => rfl
  | succ n ih =>
    unfold copyRecords
    rcases h : appendRec .copy 0 a0 (a2.take 128) [] (n = 0) s with - | t
    · rfl
    · exact (ih _ _).trans (by simp [appendRec_frame h])

theorem copyRecords_stm (a0 : ℕ) (a1 : ℕ) (a2 : List RunOp) (s : State) : (copyRecords a0 a1 a2 s).stm = s.stm := by
  induction a1 generalizing a2 s with
  | zero => rfl
  | succ n ih =>
    unfold copyRecords
    rcases h : appendRec .copy 0 a0 (a2.take 128) [] (n = 0) s with - | t
    · rfl
    · exact (ih _ _).trans (by simp [appendRec_frame h])

theorem copyRecords_flc (a0 : ℕ) (a1 : ℕ) (a2 : List RunOp) (s : State) : (copyRecords a0 a1 a2 s).flc = s.flc := by
  induction a1 generalizing a2 s with
  | zero => rfl
  | succ n ih =>
    unfold copyRecords
    rcases h : appendRec .copy 0 a0 (a2.take 128) [] (n = 0) s with - | t
    · rfl
    · exact (ih _ _).trans (by simp [appendRec_frame h])

theorem copyRecords_bnd (a0 : ℕ) (a1 : ℕ) (a2 : List RunOp) (s : State) : (copyRecords a0 a1 a2 s).bnd = s.bnd := by
  induction a1 generalizing a2 s with
  | zero => rfl
  | succ n ih =>
    unfold copyRecords
    rcases h : appendRec .copy 0 a0 (a2.take 128) [] (n = 0) s with - | t
    · rfl
    · exact (ih _ _).trans (by simp [appendRec_frame h])

theorem copyRecords_mbr (a0 : ℕ) (a1 : ℕ) (a2 : List RunOp) (s : State) : (copyRecords a0 a1 a2 s).mbr = s.mbr := by
  induction a1 generalizing a2 s with
  | zero => rfl
  | succ n ih =>
    unfold copyRecords
    rcases h : appendRec .copy 0 a0 (a2.take 128) [] (n = 0) s with - | t
    · rfl
    · exact (ih _ _).trans (by simp [appendRec_frame h])

theorem copyRecords_flt (a0 : ℕ) (a1 : ℕ) (a2 : List RunOp) (s : State) : (copyRecords a0 a1 a2 s).flt = s.flt := by
  induction a1 generalizing a2 s with
  | zero => rfl
  | succ n ih =>
    unfold copyRecords
    rcases h : appendRec .copy 0 a0 (a2.take 128) [] (n = 0) s with - | t
    · rfl
    · exact (ih _ _).trans (by simp [appendRec_frame h])

theorem copyRecords_sec (a0 : ℕ) (a1 : ℕ) (a2 : List RunOp) (s : State) : (copyRecords a0 a1 a2 s).sec = s.sec := by
  induction a1 generalizing a2 s with
  | zero => rfl
  | succ n ih =>
    unfold copyRecords
    rcases h : appendRec .copy 0 a0 (a2.take 128) [] (n = 0) s with - | t
    · rfl
    · exact (ih _ _).trans (by simp [appendRec_frame h])

theorem copyRecords_cpx (a0 : ℕ) (a1 : ℕ) (a2 : List RunOp) (s : State) : (copyRecords a0 a1 a2 s).cpx = s.cpx := by
  induction a1 generalizing a2 s with
  | zero => rfl
  | succ n ih =>
    unfold copyRecords
    rcases h : appendRec .copy 0 a0 (a2.take 128) [] (n = 0) s with - | t
    · rfl
    · exact (ih _ _).trans (by simp [appendRec_frame h])

theorem copyRecords_memc (a0 : ℕ) (a1 : ℕ) (a2 : List RunOp) (s : State) : (copyRecords a0 a1 a2 s).memc = s.memc := by
  induction a1 generalizing a2 s with
  | zero => rfl
  | succ n ih =>
    unfold copyRecords
    rcases h : appendRec .copy 0 a0 (a2.take 128) [] (n = 0) s with - | t
    · rfl
    · exact (ih _ _).trans (by simp [appendRec_frame h])

theorem copyRecords_mov (a0 : ℕ) (a1 : ℕ) (a2 : List RunOp) (s : State) : (copyRecords a0 a1 a2 s).mov = s.mov := by
  induction a1 generalizing a2 s with
  | zero => rfl
  | succ n ih =>
    unfold copyRecords
    rcases h : appendRec .copy 0 a0 (a2.take 128) [] (n = 0) s with - | t
    · rfl
    · exact (ih _ _).trans (by simp [appendRec_frame h])

theorem copyRecords_cst (a0 : ℕ) (a1 : ℕ) (a2 : List RunOp) (s : State) : (copyRecords a0 a1 a2 s).cst = s.cst := by
  induction a1 generalizing a2 s with
  | zero => rfl
  | succ n ih =>
    unfold copyRecords
    rcases h : appendRec .copy 0 a0 (a2.take 128) [] (n = 0) s with - | t
    · rfl
    · exact (ih _ _).trans (by simp [appendRec_frame h])

theorem copyRecords_lnt (a0 : ℕ) (a1 : ℕ) (a2 : List RunOp) (s : State) : (copyRecords a0 a1 a2 s).lnt = s.lnt := by
  induction a1 generalizing a2 s with
  | zero => rfl
  | succ n ih =>
    unfold copyRecords
    rcases h : appendRec .copy 0 a0 (a2.take 128) [] (n = 0) s with - | t
    · rfl
    · exact (ih _ _).trans (by simp [appendRec_frame h])

theorem copyRecords_out (a0 : ℕ) (a1 : ℕ) (a2 : List RunOp) (s : State) : (copyRecords a0 a1 a2 s).out = s.out := by
  induction a1 generalizing a2 s with
  | zero => rfl
  | succ n ih =>
    unfold copyRecords
    rcases h : appendRec .copy 0 a0 (a2.take 128) [] (n = 0) s with - | t
    · rfl
    · exact (ih _ _).trans (by simp [appendRec_frame h])

theorem copyRecords_freeCtr (a0 : ℕ) (a1 : ℕ) (a2 : List RunOp) (s : State) : (copyRecords a0 a1 a2 s).freeCtr = s.freeCtr := by
  induction a1 generalizing a2 s with
  | zero => rfl
  | succ n ih =>
    unfold copyRecords
    rcases h : appendRec .copy 0 a0 (a2.take 128) [] (n = 0) s with - | t
    · rfl
    · exact (ih _ _).trans (by simp [appendRec_frame h])

@[simp] theorem copyRecords_frame (a0 : ℕ) (a1 : ℕ) (a2 : List RunOp) (s : State) :
    (copyRecords a0 a1 a2 s).pending = s.pending ∧ (copyRecords a0 a1 a2 s).latch = s.latch ∧ (copyRecords a0 a1 a2 s).mem = s.mem ∧ (copyRecords a0 a1 a2 s).sys = s.sys ∧ (copyRecords a0 a1 a2 s).clk = s.clk ∧ (copyRecords a0 a1 a2 s).thm = s.thm ∧ (copyRecords a0 a1 a2 s).tck = s.tck ∧ (copyRecords a0 a1 a2 s).stm = s.stm ∧ (copyRecords a0 a1 a2 s).flc = s.flc ∧ (copyRecords a0 a1 a2 s).bnd = s.bnd ∧ (copyRecords a0 a1 a2 s).mbr = s.mbr ∧ (copyRecords a0 a1 a2 s).flt = s.flt ∧ (copyRecords a0 a1 a2 s).sec = s.sec ∧ (copyRecords a0 a1 a2 s).cpx = s.cpx ∧ (copyRecords a0 a1 a2 s).memc = s.memc ∧ (copyRecords a0 a1 a2 s).mov = s.mov ∧ (copyRecords a0 a1 a2 s).cst = s.cst ∧ (copyRecords a0 a1 a2 s).lnt = s.lnt ∧ (copyRecords a0 a1 a2 s).out = s.out ∧ (copyRecords a0 a1 a2 s).freeCtr = s.freeCtr :=
  ⟨copyRecords_pending a0 a1 a2 s, copyRecords_latch a0 a1 a2 s, copyRecords_mem a0 a1 a2 s, copyRecords_sys a0 a1 a2 s, copyRecords_clk a0 a1 a2 s, copyRecords_thm a0 a1 a2 s, copyRecords_tck a0 a1 a2 s, copyRecords_stm a0 a1 a2 s, copyRecords_flc a0 a1 a2 s, copyRecords_bnd a0 a1 a2 s, copyRecords_mbr a0 a1 a2 s, copyRecords_flt a0 a1 a2 s, copyRecords_sec a0 a1 a2 s, copyRecords_cpx a0 a1 a2 s, copyRecords_memc a0 a1 a2 s, copyRecords_mov a0 a1 a2 s, copyRecords_cst a0 a1 a2 s, copyRecords_lnt a0 a1 a2 s, copyRecords_out a0 a1 a2 s, copyRecords_freeCtr a0 a1 a2 s⟩

theorem formCopy_pending (a0 : ℕ) (a1 : Copy) (s : State) : (formCopy a0 a1 s).pending = s.pending := by
  unfold formCopy
  split
  · rfl
  extract_lets v seg same locs keep discard mapped back finish n t pool
  have hf : ∀ ops s, (finish ops s).pending = s.pending := by
    intro ops s
    simp only [finish, discard]
    split <;> simp
  have hd : ∀ s, (discard s).pending = s.pending := fun s => by simp [discard]
  clear_value discard finish back keep
  rcases keep with - | ⟨⟨-, l⟩, rest⟩
  · exact hd _
  · cases back
    · dsimp only
      rw [if_neg (by simp)]
      repeat' (first | exact hf _ _ | (simp; done) | split)
    · dsimp only
      rw [if_pos rfl]
      split <;> simp [hf]

theorem formCopy_latch (a0 : ℕ) (a1 : Copy) (s : State) : (formCopy a0 a1 s).latch = s.latch := by
  unfold formCopy
  split
  · rfl
  extract_lets v seg same locs keep discard mapped back finish n t pool
  have hf : ∀ ops s, (finish ops s).latch = s.latch := by
    intro ops s
    simp only [finish, discard]
    split <;> simp
  have hd : ∀ s, (discard s).latch = s.latch := fun s => by simp [discard]
  clear_value discard finish back keep
  rcases keep with - | ⟨⟨-, l⟩, rest⟩
  · exact hd _
  · cases back
    · dsimp only
      rw [if_neg (by simp)]
      repeat' (first | exact hf _ _ | (simp; done) | split)
    · dsimp only
      rw [if_pos rfl]
      split <;> simp [hf]

theorem formCopy_mem (a0 : ℕ) (a1 : Copy) (s : State) : (formCopy a0 a1 s).mem = s.mem := by
  unfold formCopy
  split
  · rfl
  extract_lets v seg same locs keep discard mapped back finish n t pool
  have hf : ∀ ops s, (finish ops s).mem = s.mem := by
    intro ops s
    simp only [finish, discard]
    split <;> simp
  have hd : ∀ s, (discard s).mem = s.mem := fun s => by simp [discard]
  clear_value discard finish back keep
  rcases keep with - | ⟨⟨-, l⟩, rest⟩
  · exact hd _
  · cases back
    · dsimp only
      rw [if_neg (by simp)]
      repeat' (first | exact hf _ _ | (simp; done) | split)
    · dsimp only
      rw [if_pos rfl]
      split <;> simp [hf]

theorem formCopy_clk (a0 : ℕ) (a1 : Copy) (s : State) : (formCopy a0 a1 s).clk = s.clk := by
  unfold formCopy
  split
  · rfl
  extract_lets v seg same locs keep discard mapped back finish n t pool
  have hf : ∀ ops s, (finish ops s).clk = s.clk := by
    intro ops s
    simp only [finish, discard]
    split <;> simp
  have hd : ∀ s, (discard s).clk = s.clk := fun s => by simp [discard]
  clear_value discard finish back keep
  rcases keep with - | ⟨⟨-, l⟩, rest⟩
  · exact hd _
  · cases back
    · dsimp only
      rw [if_neg (by simp)]
      repeat' (first | exact hf _ _ | (simp; done) | split)
    · dsimp only
      rw [if_pos rfl]
      split <;> simp [hf]

theorem formCopy_thm (a0 : ℕ) (a1 : Copy) (s : State) : (formCopy a0 a1 s).thm = s.thm := by
  unfold formCopy
  split
  · rfl
  extract_lets v seg same locs keep discard mapped back finish n t pool
  have hf : ∀ ops s, (finish ops s).thm = s.thm := by
    intro ops s
    simp only [finish, discard]
    split <;> simp
  have hd : ∀ s, (discard s).thm = s.thm := fun s => by simp [discard]
  clear_value discard finish back keep
  rcases keep with - | ⟨⟨-, l⟩, rest⟩
  · exact hd _
  · cases back
    · dsimp only
      rw [if_neg (by simp)]
      repeat' (first | exact hf _ _ | (simp; done) | split)
    · dsimp only
      rw [if_pos rfl]
      split <;> simp [hf]

theorem formCopy_tck (a0 : ℕ) (a1 : Copy) (s : State) : (formCopy a0 a1 s).tck = s.tck := by
  unfold formCopy
  split
  · rfl
  extract_lets v seg same locs keep discard mapped back finish n t pool
  have hf : ∀ ops s, (finish ops s).tck = s.tck := by
    intro ops s
    simp only [finish, discard]
    split <;> simp
  have hd : ∀ s, (discard s).tck = s.tck := fun s => by simp [discard]
  clear_value discard finish back keep
  rcases keep with - | ⟨⟨-, l⟩, rest⟩
  · exact hd _
  · cases back
    · dsimp only
      rw [if_neg (by simp)]
      repeat' (first | exact hf _ _ | (simp; done) | split)
    · dsimp only
      rw [if_pos rfl]
      split <;> simp [hf]

theorem formCopy_stm (a0 : ℕ) (a1 : Copy) (s : State) : (formCopy a0 a1 s).stm = s.stm := by
  unfold formCopy
  split
  · rfl
  extract_lets v seg same locs keep discard mapped back finish n t pool
  have hf : ∀ ops s, (finish ops s).stm = s.stm := by
    intro ops s
    simp only [finish, discard]
    split <;> simp
  have hd : ∀ s, (discard s).stm = s.stm := fun s => by simp [discard]
  clear_value discard finish back keep
  rcases keep with - | ⟨⟨-, l⟩, rest⟩
  · exact hd _
  · cases back
    · dsimp only
      rw [if_neg (by simp)]
      repeat' (first | exact hf _ _ | (simp; done) | split)
    · dsimp only
      rw [if_pos rfl]
      split <;> simp [hf]

theorem formCopy_flc (a0 : ℕ) (a1 : Copy) (s : State) : (formCopy a0 a1 s).flc = s.flc := by
  unfold formCopy
  split
  · rfl
  extract_lets v seg same locs keep discard mapped back finish n t pool
  have hf : ∀ ops s, (finish ops s).flc = s.flc := by
    intro ops s
    simp only [finish, discard]
    split <;> simp
  have hd : ∀ s, (discard s).flc = s.flc := fun s => by simp [discard]
  clear_value discard finish back keep
  rcases keep with - | ⟨⟨-, l⟩, rest⟩
  · exact hd _
  · cases back
    · dsimp only
      rw [if_neg (by simp)]
      repeat' (first | exact hf _ _ | (simp; done) | split)
    · dsimp only
      rw [if_pos rfl]
      split <;> simp [hf]

theorem formCopy_mbr (a0 : ℕ) (a1 : Copy) (s : State) : (formCopy a0 a1 s).mbr = s.mbr := by
  unfold formCopy
  split
  · rfl
  extract_lets v seg same locs keep discard mapped back finish n t pool
  have hf : ∀ ops s, (finish ops s).mbr = s.mbr := by
    intro ops s
    simp only [finish, discard]
    split <;> simp
  have hd : ∀ s, (discard s).mbr = s.mbr := fun s => by simp [discard]
  clear_value discard finish back keep
  rcases keep with - | ⟨⟨-, l⟩, rest⟩
  · exact hd _
  · cases back
    · dsimp only
      rw [if_neg (by simp)]
      repeat' (first | exact hf _ _ | (simp; done) | split)
    · dsimp only
      rw [if_pos rfl]
      split <;> simp [hf]

theorem formCopy_flt (a0 : ℕ) (a1 : Copy) (s : State) : (formCopy a0 a1 s).flt = s.flt := by
  unfold formCopy
  split
  · rfl
  extract_lets v seg same locs keep discard mapped back finish n t pool
  have hf : ∀ ops s, (finish ops s).flt = s.flt := by
    intro ops s
    simp only [finish, discard]
    split <;> simp
  have hd : ∀ s, (discard s).flt = s.flt := fun s => by simp [discard]
  clear_value discard finish back keep
  rcases keep with - | ⟨⟨-, l⟩, rest⟩
  · exact hd _
  · cases back
    · dsimp only
      rw [if_neg (by simp)]
      repeat' (first | exact hf _ _ | (simp; done) | split)
    · dsimp only
      rw [if_pos rfl]
      split <;> simp [hf]

theorem formCopy_sec (a0 : ℕ) (a1 : Copy) (s : State) : (formCopy a0 a1 s).sec = s.sec := by
  unfold formCopy
  split
  · rfl
  extract_lets v seg same locs keep discard mapped back finish n t pool
  have hf : ∀ ops s, (finish ops s).sec = s.sec := by
    intro ops s
    simp only [finish, discard]
    split <;> simp
  have hd : ∀ s, (discard s).sec = s.sec := fun s => by simp [discard]
  clear_value discard finish back keep
  rcases keep with - | ⟨⟨-, l⟩, rest⟩
  · exact hd _
  · cases back
    · dsimp only
      rw [if_neg (by simp)]
      repeat' (first | exact hf _ _ | (simp; done) | split)
    · dsimp only
      rw [if_pos rfl]
      split <;> simp [hf]

theorem formCopy_cpx (a0 : ℕ) (a1 : Copy) (s : State) : (formCopy a0 a1 s).cpx = s.cpx := by
  unfold formCopy
  split
  · rfl
  extract_lets v seg same locs keep discard mapped back finish n t pool
  have hf : ∀ ops s, (finish ops s).cpx = s.cpx := by
    intro ops s
    simp only [finish, discard]
    split <;> simp
  have hd : ∀ s, (discard s).cpx = s.cpx := fun s => by simp [discard]
  clear_value discard finish back keep
  rcases keep with - | ⟨⟨-, l⟩, rest⟩
  · exact hd _
  · cases back
    · dsimp only
      rw [if_neg (by simp)]
      repeat' (first | exact hf _ _ | (simp; done) | split)
    · dsimp only
      rw [if_pos rfl]
      split <;> simp [hf]

theorem formCopy_memc (a0 : ℕ) (a1 : Copy) (s : State) : (formCopy a0 a1 s).memc = s.memc := by
  unfold formCopy
  split
  · rfl
  extract_lets v seg same locs keep discard mapped back finish n t pool
  have hf : ∀ ops s, (finish ops s).memc = s.memc := by
    intro ops s
    simp only [finish, discard]
    split <;> simp
  have hd : ∀ s, (discard s).memc = s.memc := fun s => by simp [discard]
  clear_value discard finish back keep
  rcases keep with - | ⟨⟨-, l⟩, rest⟩
  · exact hd _
  · cases back
    · dsimp only
      rw [if_neg (by simp)]
      repeat' (first | exact hf _ _ | (simp; done) | split)
    · dsimp only
      rw [if_pos rfl]
      split <;> simp [hf]

theorem formCopy_mov (a0 : ℕ) (a1 : Copy) (s : State) : (formCopy a0 a1 s).mov = s.mov := by
  unfold formCopy
  split
  · rfl
  extract_lets v seg same locs keep discard mapped back finish n t pool
  have hf : ∀ ops s, (finish ops s).mov = s.mov := by
    intro ops s
    simp only [finish, discard]
    split <;> simp
  have hd : ∀ s, (discard s).mov = s.mov := fun s => by simp [discard]
  clear_value discard finish back keep
  rcases keep with - | ⟨⟨-, l⟩, rest⟩
  · exact hd _
  · cases back
    · dsimp only
      rw [if_neg (by simp)]
      repeat' (first | exact hf _ _ | (simp; done) | split)
    · dsimp only
      rw [if_pos rfl]
      split <;> simp [hf]

theorem formCopy_cst (a0 : ℕ) (a1 : Copy) (s : State) : (formCopy a0 a1 s).cst = s.cst := by
  unfold formCopy
  split
  · rfl
  extract_lets v seg same locs keep discard mapped back finish n t pool
  have hf : ∀ ops s, (finish ops s).cst = s.cst := by
    intro ops s
    simp only [finish, discard]
    split <;> simp
  have hd : ∀ s, (discard s).cst = s.cst := fun s => by simp [discard]
  clear_value discard finish back keep
  rcases keep with - | ⟨⟨-, l⟩, rest⟩
  · exact hd _
  · cases back
    · dsimp only
      rw [if_neg (by simp)]
      repeat' (first | exact hf _ _ | (simp; done) | split)
    · dsimp only
      rw [if_pos rfl]
      split <;> simp [hf]

theorem formCopy_out (a0 : ℕ) (a1 : Copy) (s : State) : (formCopy a0 a1 s).out = s.out := by
  unfold formCopy
  split
  · rfl
  extract_lets v seg same locs keep discard mapped back finish n t pool
  have hf : ∀ ops s, (finish ops s).out = s.out := by
    intro ops s
    simp only [finish, discard]
    split <;> simp
  have hd : ∀ s, (discard s).out = s.out := fun s => by simp [discard]
  clear_value discard finish back keep
  rcases keep with - | ⟨⟨-, l⟩, rest⟩
  · exact hd _
  · cases back
    · dsimp only
      rw [if_neg (by simp)]
      repeat' (first | exact hf _ _ | (simp; done) | split)
    · dsimp only
      rw [if_pos rfl]
      split <;> simp [hf]

theorem formCopy_freeCtr (a0 : ℕ) (a1 : Copy) (s : State) : (formCopy a0 a1 s).freeCtr = s.freeCtr := by
  unfold formCopy
  split
  · rfl
  extract_lets v seg same locs keep discard mapped back finish n t pool
  have hf : ∀ ops s, (finish ops s).freeCtr = s.freeCtr := by
    intro ops s
    simp only [finish, discard]
    split <;> simp
  have hd : ∀ s, (discard s).freeCtr = s.freeCtr := fun s => by simp [discard]
  clear_value discard finish back keep
  rcases keep with - | ⟨⟨-, l⟩, rest⟩
  · exact hd _
  · cases back
    · dsimp only
      rw [if_neg (by simp)]
      repeat' (first | exact hf _ _ | (simp; done) | split)
    · dsimp only
      rw [if_pos rfl]
      split <;> simp [hf]

@[simp] theorem formCopy_frame (a0 : ℕ) (a1 : Copy) (s : State) :
    (formCopy a0 a1 s).pending = s.pending ∧ (formCopy a0 a1 s).latch = s.latch ∧ (formCopy a0 a1 s).mem = s.mem ∧ (formCopy a0 a1 s).clk = s.clk ∧ (formCopy a0 a1 s).thm = s.thm ∧ (formCopy a0 a1 s).tck = s.tck ∧ (formCopy a0 a1 s).stm = s.stm ∧ (formCopy a0 a1 s).flc = s.flc ∧ (formCopy a0 a1 s).mbr = s.mbr ∧ (formCopy a0 a1 s).flt = s.flt ∧ (formCopy a0 a1 s).sec = s.sec ∧ (formCopy a0 a1 s).cpx = s.cpx ∧ (formCopy a0 a1 s).memc = s.memc ∧ (formCopy a0 a1 s).mov = s.mov ∧ (formCopy a0 a1 s).cst = s.cst ∧ (formCopy a0 a1 s).out = s.out ∧ (formCopy a0 a1 s).freeCtr = s.freeCtr :=
  ⟨formCopy_pending a0 a1 s, formCopy_latch a0 a1 s, formCopy_mem a0 a1 s, formCopy_clk a0 a1 s, formCopy_thm a0 a1 s, formCopy_tck a0 a1 s, formCopy_stm a0 a1 s, formCopy_flc a0 a1 s, formCopy_mbr a0 a1 s, formCopy_flt a0 a1 s, formCopy_sec a0 a1 s, formCopy_cpx a0 a1 s, formCopy_memc a0 a1 s, formCopy_mov a0 a1 s, formCopy_cst a0 a1 s, formCopy_out a0 a1 s, formCopy_freeCtr a0 a1 s⟩

@[simp] theorem countWrite_frame (a0 : Slot) (s : State) :
    (countWrite a0 s).pending = s.pending ∧ (countWrite a0 s).regs = s.regs ∧ (countWrite a0 s).latch = s.latch ∧ (countWrite a0 s).mem = s.mem ∧ (countWrite a0 s).sys = s.sys ∧ (countWrite a0 s).clk = s.clk ∧ (countWrite a0 s).thm = s.thm ∧ (countWrite a0 s).tck = s.tck ∧ (countWrite a0 s).hif = s.hif ∧ (countWrite a0 s).map = s.map ∧ (countWrite a0 s).flc = s.flc ∧ (countWrite a0 s).mbr = s.mbr ∧ (countWrite a0 s).flt = s.flt ∧ (countWrite a0 s).sec = s.sec ∧ (countWrite a0 s).cpx = s.cpx ∧ (countWrite a0 s).memc = s.memc ∧ (countWrite a0 s).mov = s.mov ∧ (countWrite a0 s).cst = s.cst ∧ (countWrite a0 s).out = s.out ∧ (countWrite a0 s).freeCtr = s.freeCtr := by
  unfold countWrite
  try dsimp only
  first
    | (simp; done)
    | ((repeat' split) <;> simp; done)
    | (and_intros <;> (repeat' (first | (simp; done) | split)))

/-! ### SysBands -/

@[simp] theorem sysOpenStep_frame (s : State) :
    (sysOpenStep s).pending = s.pending ∧ (sysOpenStep s).regs = s.regs ∧ (sysOpenStep s).latch = s.latch ∧ (sysOpenStep s).mem = s.mem ∧ (sysOpenStep s).sys = s.sys ∧ (sysOpenStep s).clk = s.clk ∧ (sysOpenStep s).thm = s.thm ∧ (sysOpenStep s).hif = s.hif ∧ (sysOpenStep s).stm = s.stm ∧ (sysOpenStep s).map = s.map ∧ (sysOpenStep s).flc = s.flc ∧ (sysOpenStep s).mbr = s.mbr ∧ (sysOpenStep s).flt = s.flt ∧ (sysOpenStep s).sec = s.sec ∧ (sysOpenStep s).cpx = s.cpx ∧ (sysOpenStep s).memc = s.memc ∧ (sysOpenStep s).mov = s.mov ∧ (sysOpenStep s).cst = s.cst ∧ (sysOpenStep s).lnt = s.lnt ∧ (sysOpenStep s).out = s.out ∧ (sysOpenStep s).freeCtr = s.freeCtr := by
  unfold sysOpenStep
  try dsimp only
  first
    | (simp; done)
    | ((repeat' split) <;> simp; done)
    | (and_intros <;> (repeat' (first | (simp; done) | split)))

@[simp] theorem sysPut_frame (a0 : ℕ) (s : State) :
    (sysPut a0 s).pending = s.pending ∧ (sysPut a0 s).regs = s.regs ∧ (sysPut a0 s).latch = s.latch ∧ (sysPut a0 s).mem = s.mem ∧ (sysPut a0 s).sys = s.sys ∧ (sysPut a0 s).clk = s.clk ∧ (sysPut a0 s).thm = s.thm ∧ (sysPut a0 s).hif = s.hif ∧ (sysPut a0 s).stm = s.stm ∧ (sysPut a0 s).map = s.map ∧ (sysPut a0 s).flc = s.flc ∧ (sysPut a0 s).mbr = s.mbr ∧ (sysPut a0 s).flt = s.flt ∧ (sysPut a0 s).sec = s.sec ∧ (sysPut a0 s).cpx = s.cpx ∧ (sysPut a0 s).memc = s.memc ∧ (sysPut a0 s).mov = s.mov ∧ (sysPut a0 s).cst = s.cst ∧ (sysPut a0 s).lnt = s.lnt ∧ (sysPut a0 s).out = s.out ∧ (sysPut a0 s).freeCtr = s.freeCtr := by
  unfold sysPut
  try dsimp only
  first
    | (simp; done)
    | ((repeat' split) <;> simp; done)
    | (and_intros <;> (repeat' (first | (simp; done) | split)))

theorem sysPlace_pending (a0 : ℕ) (s : State) : (sysPlace a0 s).pending = s.pending := by
  induction a0 generalizing s with
  | zero => rfl
  | succ n ih =>
    unfold sysPlace
    split
    · split
      · rfl
      · exact (ih _).trans (by simp)
    · rfl

theorem sysPlace_regs (a0 : ℕ) (s : State) : (sysPlace a0 s).regs = s.regs := by
  induction a0 generalizing s with
  | zero => rfl
  | succ n ih =>
    unfold sysPlace
    split
    · split
      · rfl
      · exact (ih _).trans (by simp)
    · rfl

theorem sysPlace_latch (a0 : ℕ) (s : State) : (sysPlace a0 s).latch = s.latch := by
  induction a0 generalizing s with
  | zero => rfl
  | succ n ih =>
    unfold sysPlace
    split
    · split
      · rfl
      · exact (ih _).trans (by simp)
    · rfl

theorem sysPlace_mem (a0 : ℕ) (s : State) : (sysPlace a0 s).mem = s.mem := by
  induction a0 generalizing s with
  | zero => rfl
  | succ n ih =>
    unfold sysPlace
    split
    · split
      · rfl
      · exact (ih _).trans (by simp)
    · rfl

theorem sysPlace_sys (a0 : ℕ) (s : State) : (sysPlace a0 s).sys = s.sys := by
  induction a0 generalizing s with
  | zero => rfl
  | succ n ih =>
    unfold sysPlace
    split
    · split
      · rfl
      · exact (ih _).trans (by simp)
    · rfl

theorem sysPlace_clk (a0 : ℕ) (s : State) : (sysPlace a0 s).clk = s.clk := by
  induction a0 generalizing s with
  | zero => rfl
  | succ n ih =>
    unfold sysPlace
    split
    · split
      · rfl
      · exact (ih _).trans (by simp)
    · rfl

theorem sysPlace_thm (a0 : ℕ) (s : State) : (sysPlace a0 s).thm = s.thm := by
  induction a0 generalizing s with
  | zero => rfl
  | succ n ih =>
    unfold sysPlace
    split
    · split
      · rfl
      · exact (ih _).trans (by simp)
    · rfl

theorem sysPlace_hif (a0 : ℕ) (s : State) : (sysPlace a0 s).hif = s.hif := by
  induction a0 generalizing s with
  | zero => rfl
  | succ n ih =>
    unfold sysPlace
    split
    · split
      · rfl
      · exact (ih _).trans (by simp)
    · rfl

theorem sysPlace_stm (a0 : ℕ) (s : State) : (sysPlace a0 s).stm = s.stm := by
  induction a0 generalizing s with
  | zero => rfl
  | succ n ih =>
    unfold sysPlace
    split
    · split
      · rfl
      · exact (ih _).trans (by simp)
    · rfl

theorem sysPlace_map (a0 : ℕ) (s : State) : (sysPlace a0 s).map = s.map := by
  induction a0 generalizing s with
  | zero => rfl
  | succ n ih =>
    unfold sysPlace
    split
    · split
      · rfl
      · exact (ih _).trans (by simp)
    · rfl

theorem sysPlace_flc (a0 : ℕ) (s : State) : (sysPlace a0 s).flc = s.flc := by
  induction a0 generalizing s with
  | zero => rfl
  | succ n ih =>
    unfold sysPlace
    split
    · split
      · rfl
      · exact (ih _).trans (by simp)
    · rfl

theorem sysPlace_mbr (a0 : ℕ) (s : State) : (sysPlace a0 s).mbr = s.mbr := by
  induction a0 generalizing s with
  | zero => rfl
  | succ n ih =>
    unfold sysPlace
    split
    · split
      · rfl
      · exact (ih _).trans (by simp)
    · rfl

theorem sysPlace_flt (a0 : ℕ) (s : State) : (sysPlace a0 s).flt = s.flt := by
  induction a0 generalizing s with
  | zero => rfl
  | succ n ih =>
    unfold sysPlace
    split
    · split
      · rfl
      · exact (ih _).trans (by simp)
    · rfl

theorem sysPlace_sec (a0 : ℕ) (s : State) : (sysPlace a0 s).sec = s.sec := by
  induction a0 generalizing s with
  | zero => rfl
  | succ n ih =>
    unfold sysPlace
    split
    · split
      · rfl
      · exact (ih _).trans (by simp)
    · rfl

theorem sysPlace_cpx (a0 : ℕ) (s : State) : (sysPlace a0 s).cpx = s.cpx := by
  induction a0 generalizing s with
  | zero => rfl
  | succ n ih =>
    unfold sysPlace
    split
    · split
      · rfl
      · exact (ih _).trans (by simp)
    · rfl

theorem sysPlace_memc (a0 : ℕ) (s : State) : (sysPlace a0 s).memc = s.memc := by
  induction a0 generalizing s with
  | zero => rfl
  | succ n ih =>
    unfold sysPlace
    split
    · split
      · rfl
      · exact (ih _).trans (by simp)
    · rfl

theorem sysPlace_mov (a0 : ℕ) (s : State) : (sysPlace a0 s).mov = s.mov := by
  induction a0 generalizing s with
  | zero => rfl
  | succ n ih =>
    unfold sysPlace
    split
    · split
      · rfl
      · exact (ih _).trans (by simp)
    · rfl

theorem sysPlace_cst (a0 : ℕ) (s : State) : (sysPlace a0 s).cst = s.cst := by
  induction a0 generalizing s with
  | zero => rfl
  | succ n ih =>
    unfold sysPlace
    split
    · split
      · rfl
      · exact (ih _).trans (by simp)
    · rfl

theorem sysPlace_lnt (a0 : ℕ) (s : State) : (sysPlace a0 s).lnt = s.lnt := by
  induction a0 generalizing s with
  | zero => rfl
  | succ n ih =>
    unfold sysPlace
    split
    · split
      · rfl
      · exact (ih _).trans (by simp)
    · rfl

theorem sysPlace_out (a0 : ℕ) (s : State) : (sysPlace a0 s).out = s.out := by
  induction a0 generalizing s with
  | zero => rfl
  | succ n ih =>
    unfold sysPlace
    split
    · split
      · rfl
      · exact (ih _).trans (by simp)
    · rfl

theorem sysPlace_freeCtr (a0 : ℕ) (s : State) : (sysPlace a0 s).freeCtr = s.freeCtr := by
  induction a0 generalizing s with
  | zero => rfl
  | succ n ih =>
    unfold sysPlace
    split
    · split
      · rfl
      · exact (ih _).trans (by simp)
    · rfl

@[simp] theorem sysPlace_frame (a0 : ℕ) (s : State) :
    (sysPlace a0 s).pending = s.pending ∧ (sysPlace a0 s).regs = s.regs ∧ (sysPlace a0 s).latch = s.latch ∧ (sysPlace a0 s).mem = s.mem ∧ (sysPlace a0 s).sys = s.sys ∧ (sysPlace a0 s).clk = s.clk ∧ (sysPlace a0 s).thm = s.thm ∧ (sysPlace a0 s).hif = s.hif ∧ (sysPlace a0 s).stm = s.stm ∧ (sysPlace a0 s).map = s.map ∧ (sysPlace a0 s).flc = s.flc ∧ (sysPlace a0 s).mbr = s.mbr ∧ (sysPlace a0 s).flt = s.flt ∧ (sysPlace a0 s).sec = s.sec ∧ (sysPlace a0 s).cpx = s.cpx ∧ (sysPlace a0 s).memc = s.memc ∧ (sysPlace a0 s).mov = s.mov ∧ (sysPlace a0 s).cst = s.cst ∧ (sysPlace a0 s).lnt = s.lnt ∧ (sysPlace a0 s).out = s.out ∧ (sysPlace a0 s).freeCtr = s.freeCtr :=
  ⟨sysPlace_pending a0 s, sysPlace_regs a0 s, sysPlace_latch a0 s, sysPlace_mem a0 s, sysPlace_sys a0 s, sysPlace_clk a0 s, sysPlace_thm a0 s, sysPlace_hif a0 s, sysPlace_stm a0 s, sysPlace_map a0 s, sysPlace_flc a0 s, sysPlace_mbr a0 s, sysPlace_flt a0 s, sysPlace_sec a0 s, sysPlace_cpx a0 s, sysPlace_memc a0 s, sysPlace_mov a0 s, sysPlace_cst a0 s, sysPlace_lnt a0 s, sysPlace_out a0 s, sysPlace_freeCtr a0 s⟩

@[simp] theorem sysPad_frame (s : State) :
    (sysPad s).pending = s.pending ∧ (sysPad s).latch = s.latch ∧ (sysPad s).mem = s.mem ∧ (sysPad s).sys = s.sys ∧ (sysPad s).clk = s.clk ∧ (sysPad s).thm = s.thm ∧ (sysPad s).hif = s.hif ∧ (sysPad s).stm = s.stm ∧ (sysPad s).map = s.map ∧ (sysPad s).flc = s.flc ∧ (sysPad s).mbr = s.mbr ∧ (sysPad s).flt = s.flt ∧ (sysPad s).sec = s.sec ∧ (sysPad s).cpx = s.cpx ∧ (sysPad s).memc = s.memc ∧ (sysPad s).mov = s.mov ∧ (sysPad s).cst = s.cst ∧ (sysPad s).lnt = s.lnt ∧ (sysPad s).out = s.out ∧ (sysPad s).freeCtr = s.freeCtr := by
  unfold sysPad
  try dsimp only
  first
    | (simp; done)
    | ((repeat' split) <;> simp; done)
    | (and_intros <;> (repeat' (first | (simp; done) | split)))

@[simp] theorem sysNoted_frame (a0 : ℕ) (a1 : Page) (s : State) :
    (sysNoted a0 a1 s).pending = s.pending ∧ (sysNoted a0 a1 s).regs = s.regs ∧ (sysNoted a0 a1 s).latch = s.latch ∧ (sysNoted a0 a1 s).mem = s.mem ∧ (sysNoted a0 a1 s).sys = s.sys ∧ (sysNoted a0 a1 s).clk = s.clk ∧ (sysNoted a0 a1 s).thm = s.thm ∧ (sysNoted a0 a1 s).tck = s.tck ∧ (sysNoted a0 a1 s).hif = s.hif ∧ (sysNoted a0 a1 s).stm = s.stm ∧ (sysNoted a0 a1 s).map = s.map ∧ (sysNoted a0 a1 s).flc = s.flc ∧ (sysNoted a0 a1 s).mbr = s.mbr ∧ (sysNoted a0 a1 s).flt = s.flt ∧ (sysNoted a0 a1 s).sec = s.sec ∧ (sysNoted a0 a1 s).cpx = s.cpx ∧ (sysNoted a0 a1 s).memc = s.memc ∧ (sysNoted a0 a1 s).mov = s.mov ∧ (sysNoted a0 a1 s).cst = s.cst ∧ (sysNoted a0 a1 s).lnt = s.lnt ∧ (sysNoted a0 a1 s).out = s.out ∧ (sysNoted a0 a1 s).freeCtr = s.freeCtr := by
  unfold sysNoted
  try dsimp only
  first
    | (simp; done)
    | ((repeat' split) <;> simp; done)
    | (and_intros <;> (repeat' (first | (simp; done) | split)))

theorem sysNote_pending (s : State) : (sysNote s).pending = s.pending := by
  unfold sysNote
  refine (forAll_pending _ _ _ (fun x s => ?_)).trans rfl
  repeat' (first | (simp; done) | split)

theorem sysNote_regs (s : State) : (sysNote s).regs = s.regs := by
  unfold sysNote
  refine (forAll_regs _ _ _ (fun x s => ?_)).trans rfl
  repeat' (first | (simp; done) | split)

theorem sysNote_latch (s : State) : (sysNote s).latch = s.latch := by
  unfold sysNote
  refine (forAll_latch _ _ _ (fun x s => ?_)).trans rfl
  repeat' (first | (simp; done) | split)

theorem sysNote_mem (s : State) : (sysNote s).mem = s.mem := by
  unfold sysNote
  refine (forAll_mem _ _ _ (fun x s => ?_)).trans rfl
  repeat' (first | (simp; done) | split)

theorem sysNote_sys (s : State) : (sysNote s).sys = s.sys := by
  unfold sysNote
  refine (forAll_sys _ _ _ (fun x s => ?_)).trans rfl
  repeat' (first | (simp; done) | split)

theorem sysNote_clk (s : State) : (sysNote s).clk = s.clk := by
  unfold sysNote
  refine (forAll_clk _ _ _ (fun x s => ?_)).trans rfl
  repeat' (first | (simp; done) | split)

theorem sysNote_thm (s : State) : (sysNote s).thm = s.thm := by
  unfold sysNote
  refine (forAll_thm _ _ _ (fun x s => ?_)).trans rfl
  repeat' (first | (simp; done) | split)

theorem sysNote_tck (s : State) : (sysNote s).tck = s.tck := by
  unfold sysNote
  refine (forAll_tck _ _ _ (fun x s => ?_)).trans rfl
  repeat' (first | (simp; done) | split)

theorem sysNote_hif (s : State) : (sysNote s).hif = s.hif := by
  unfold sysNote
  refine (forAll_hif _ _ _ (fun x s => ?_)).trans rfl
  repeat' (first | (simp; done) | split)

theorem sysNote_stm (s : State) : (sysNote s).stm = s.stm := by
  unfold sysNote
  refine (forAll_stm _ _ _ (fun x s => ?_)).trans rfl
  repeat' (first | (simp; done) | split)

theorem sysNote_map (s : State) : (sysNote s).map = s.map := by
  unfold sysNote
  refine (forAll_map _ _ _ (fun x s => ?_)).trans rfl
  repeat' (first | (simp; done) | split)

theorem sysNote_flc (s : State) : (sysNote s).flc = s.flc := by
  unfold sysNote
  refine (forAll_flc _ _ _ (fun x s => ?_)).trans rfl
  repeat' (first | (simp; done) | split)

theorem sysNote_mbr (s : State) : (sysNote s).mbr = s.mbr := by
  unfold sysNote
  refine (forAll_mbr _ _ _ (fun x s => ?_)).trans rfl
  repeat' (first | (simp; done) | split)

theorem sysNote_flt (s : State) : (sysNote s).flt = s.flt := by
  unfold sysNote
  refine (forAll_flt _ _ _ (fun x s => ?_)).trans rfl
  repeat' (first | (simp; done) | split)

theorem sysNote_sec (s : State) : (sysNote s).sec = s.sec := by
  unfold sysNote
  refine (forAll_sec _ _ _ (fun x s => ?_)).trans rfl
  repeat' (first | (simp; done) | split)

theorem sysNote_cpx (s : State) : (sysNote s).cpx = s.cpx := by
  unfold sysNote
  refine (forAll_cpx _ _ _ (fun x s => ?_)).trans rfl
  repeat' (first | (simp; done) | split)

theorem sysNote_memc (s : State) : (sysNote s).memc = s.memc := by
  unfold sysNote
  refine (forAll_memc _ _ _ (fun x s => ?_)).trans rfl
  repeat' (first | (simp; done) | split)

theorem sysNote_mov (s : State) : (sysNote s).mov = s.mov := by
  unfold sysNote
  refine (forAll_mov _ _ _ (fun x s => ?_)).trans rfl
  repeat' (first | (simp; done) | split)

theorem sysNote_cst (s : State) : (sysNote s).cst = s.cst := by
  unfold sysNote
  refine (forAll_cst _ _ _ (fun x s => ?_)).trans rfl
  repeat' (first | (simp; done) | split)

theorem sysNote_lnt (s : State) : (sysNote s).lnt = s.lnt := by
  unfold sysNote
  refine (forAll_lnt _ _ _ (fun x s => ?_)).trans rfl
  repeat' (first | (simp; done) | split)

theorem sysNote_out (s : State) : (sysNote s).out = s.out := by
  unfold sysNote
  refine (forAll_out _ _ _ (fun x s => ?_)).trans rfl
  repeat' (first | (simp; done) | split)

theorem sysNote_freeCtr (s : State) : (sysNote s).freeCtr = s.freeCtr := by
  unfold sysNote
  refine (forAll_freeCtr _ _ _ (fun x s => ?_)).trans rfl
  repeat' (first | (simp; done) | split)

@[simp] theorem sysNote_frame (s : State) :
    (sysNote s).pending = s.pending ∧ (sysNote s).regs = s.regs ∧ (sysNote s).latch = s.latch ∧ (sysNote s).mem = s.mem ∧ (sysNote s).sys = s.sys ∧ (sysNote s).clk = s.clk ∧ (sysNote s).thm = s.thm ∧ (sysNote s).tck = s.tck ∧ (sysNote s).hif = s.hif ∧ (sysNote s).stm = s.stm ∧ (sysNote s).map = s.map ∧ (sysNote s).flc = s.flc ∧ (sysNote s).mbr = s.mbr ∧ (sysNote s).flt = s.flt ∧ (sysNote s).sec = s.sec ∧ (sysNote s).cpx = s.cpx ∧ (sysNote s).memc = s.memc ∧ (sysNote s).mov = s.mov ∧ (sysNote s).cst = s.cst ∧ (sysNote s).lnt = s.lnt ∧ (sysNote s).out = s.out ∧ (sysNote s).freeCtr = s.freeCtr :=
  ⟨sysNote_pending s, sysNote_regs s, sysNote_latch s, sysNote_mem s, sysNote_sys s, sysNote_clk s, sysNote_thm s, sysNote_tck s, sysNote_hif s, sysNote_stm s, sysNote_map s, sysNote_flc s, sysNote_mbr s, sysNote_flt s, sysNote_sec s, sysNote_cpx s, sysNote_memc s, sysNote_mov s, sysNote_cst s, sysNote_lnt s, sysNote_out s, sysNote_freeCtr s⟩

@[simp] theorem sysQueue_frame (a0 : List SysItem) (s : State) :
    (sysQueue a0 s).pending = s.pending ∧ (sysQueue a0 s).regs = s.regs ∧ (sysQueue a0 s).latch = s.latch ∧ (sysQueue a0 s).mem = s.mem ∧ (sysQueue a0 s).sys = s.sys ∧ (sysQueue a0 s).clk = s.clk ∧ (sysQueue a0 s).thm = s.thm ∧ (sysQueue a0 s).tck = s.tck ∧ (sysQueue a0 s).hif = s.hif ∧ (sysQueue a0 s).stm = s.stm ∧ (sysQueue a0 s).map = s.map ∧ (sysQueue a0 s).flc = s.flc ∧ (sysQueue a0 s).mbr = s.mbr ∧ (sysQueue a0 s).flt = s.flt ∧ (sysQueue a0 s).sec = s.sec ∧ (sysQueue a0 s).cpx = s.cpx ∧ (sysQueue a0 s).memc = s.memc ∧ (sysQueue a0 s).mov = s.mov ∧ (sysQueue a0 s).cst = s.cst ∧ (sysQueue a0 s).lnt = s.lnt ∧ (sysQueue a0 s).out = s.out ∧ (sysQueue a0 s).freeCtr = s.freeCtr := by
  unfold sysQueue
  try dsimp only
  first
    | (simp; done)
    | ((repeat' split) <;> simp; done)
    | (and_intros <;> (repeat' (first | (simp; done) | split)))

@[simp] theorem ckptStage_frame (a0 : ℕ) (s : State) :
    (ckptStage a0 s).pending = s.pending ∧ (ckptStage a0 s).regs = s.regs ∧ (ckptStage a0 s).latch = s.latch ∧ (ckptStage a0 s).mem = s.mem ∧ (ckptStage a0 s).sys = s.sys ∧ (ckptStage a0 s).clk = s.clk ∧ (ckptStage a0 s).thm = s.thm ∧ (ckptStage a0 s).tck = s.tck ∧ (ckptStage a0 s).hif = s.hif ∧ (ckptStage a0 s).stm = s.stm ∧ (ckptStage a0 s).flc = s.flc ∧ (ckptStage a0 s).bnd = s.bnd ∧ (ckptStage a0 s).mbr = s.mbr ∧ (ckptStage a0 s).flt = s.flt ∧ (ckptStage a0 s).sec = s.sec ∧ (ckptStage a0 s).cpx = s.cpx ∧ (ckptStage a0 s).memc = s.memc ∧ (ckptStage a0 s).mov = s.mov ∧ (ckptStage a0 s).cst = s.cst ∧ (ckptStage a0 s).lnt = s.lnt ∧ (ckptStage a0 s).out = s.out ∧ (ckptStage a0 s).freeCtr = s.freeCtr := by
  unfold ckptStage
  try dsimp only
  first
    | (simp; done)
    | ((repeat' split) <;> simp; done)
    | (and_intros <;> (repeat' (first | (simp; done) | split)))

@[simp] theorem captureAll_frame (a0 : Ckpt) (s : State) :
    (captureAll a0 s).pending = s.pending ∧ (captureAll a0 s).regs = s.regs ∧ (captureAll a0 s).latch = s.latch ∧ (captureAll a0 s).mem = s.mem ∧ (captureAll a0 s).sys = s.sys ∧ (captureAll a0 s).clk = s.clk ∧ (captureAll a0 s).thm = s.thm ∧ (captureAll a0 s).tck = s.tck ∧ (captureAll a0 s).hif = s.hif ∧ (captureAll a0 s).stm = s.stm ∧ (captureAll a0 s).flc = s.flc ∧ (captureAll a0 s).bnd = s.bnd ∧ (captureAll a0 s).mbr = s.mbr ∧ (captureAll a0 s).flt = s.flt ∧ (captureAll a0 s).sec = s.sec ∧ (captureAll a0 s).cpx = s.cpx ∧ (captureAll a0 s).memc = s.memc ∧ (captureAll a0 s).mov = s.mov ∧ (captureAll a0 s).cst = s.cst ∧ (captureAll a0 s).lnt = s.lnt ∧ (captureAll a0 s).out = s.out ∧ (captureAll a0 s).freeCtr = s.freeCtr := by
  unfold captureAll
  try dsimp only
  first
    | (simp; done)
    | ((repeat' split) <;> simp; done)
    | (and_intros <;> (repeat' (first | (simp; done) | split)))

@[simp] theorem ckptStep_frame (s : State) :
    (ckptStep s).pending = s.pending ∧ (ckptStep s).latch = s.latch ∧ (ckptStep s).mem = s.mem ∧ (ckptStep s).sys = s.sys ∧ (ckptStep s).clk = s.clk ∧ (ckptStep s).thm = s.thm ∧ (ckptStep s).hif = s.hif ∧ (ckptStep s).stm = s.stm ∧ (ckptStep s).flc = s.flc ∧ (ckptStep s).mbr = s.mbr ∧ (ckptStep s).flt = s.flt ∧ (ckptStep s).sec = s.sec ∧ (ckptStep s).cpx = s.cpx ∧ (ckptStep s).memc = s.memc ∧ (ckptStep s).mov = s.mov ∧ (ckptStep s).cst = s.cst ∧ (ckptStep s).lnt = s.lnt ∧ (ckptStep s).out = s.out ∧ (ckptStep s).freeCtr = s.freeCtr := by
  unfold ckptStep
  try dsimp only
  first
    | (simp; done)
    | ((repeat' split) <;> simp; done)
    | (and_intros <;> (repeat' (first | (simp; done) | split)))

@[simp] theorem sysIdle_frame (s : State) :
    (sysIdle s).pending = s.pending ∧ (sysIdle s).latch = s.latch ∧ (sysIdle s).mem = s.mem ∧ (sysIdle s).sys = s.sys ∧ (sysIdle s).clk = s.clk ∧ (sysIdle s).thm = s.thm ∧ (sysIdle s).hif = s.hif ∧ (sysIdle s).stm = s.stm ∧ (sysIdle s).map = s.map ∧ (sysIdle s).flc = s.flc ∧ (sysIdle s).mbr = s.mbr ∧ (sysIdle s).flt = s.flt ∧ (sysIdle s).sec = s.sec ∧ (sysIdle s).cpx = s.cpx ∧ (sysIdle s).memc = s.memc ∧ (sysIdle s).mov = s.mov ∧ (sysIdle s).cst = s.cst ∧ (sysIdle s).lnt = s.lnt ∧ (sysIdle s).out = s.out ∧ (sysIdle s).freeCtr = s.freeCtr := by
  unfold sysIdle
  try dsimp only
  first
    | (simp; done)
    | ((repeat' split) <;> simp; done)
    | (and_intros <;> (repeat' (first | (simp; done) | split)))

@[simp] theorem sysAwait_frame (s : State) :
    (sysAwait s).pending = s.pending ∧ (sysAwait s).regs = s.regs ∧ (sysAwait s).latch = s.latch ∧ (sysAwait s).mem = s.mem ∧ (sysAwait s).sys = s.sys ∧ (sysAwait s).clk = s.clk ∧ (sysAwait s).thm = s.thm ∧ (sysAwait s).tck = s.tck ∧ (sysAwait s).hif = s.hif ∧ (sysAwait s).stm = s.stm ∧ (sysAwait s).map = s.map ∧ (sysAwait s).flc = s.flc ∧ (sysAwait s).flt = s.flt ∧ (sysAwait s).sec = s.sec ∧ (sysAwait s).cpx = s.cpx ∧ (sysAwait s).memc = s.memc ∧ (sysAwait s).mov = s.mov ∧ (sysAwait s).cst = s.cst ∧ (sysAwait s).lnt = s.lnt ∧ (sysAwait s).out = s.out ∧ (sysAwait s).freeCtr = s.freeCtr := by
  unfold sysAwait
  try dsimp only
  first
    | (simp; done)
    | ((repeat' split) <;> simp; done)
    | (and_intros <;> (repeat' (first | (simp; done) | split)))

@[simp] theorem sysReclaim_frame (s : State) :
    (sysReclaim s).pending = s.pending ∧ (sysReclaim s).regs = s.regs ∧ (sysReclaim s).latch = s.latch ∧ (sysReclaim s).mem = s.mem ∧ (sysReclaim s).sys = s.sys ∧ (sysReclaim s).clk = s.clk ∧ (sysReclaim s).thm = s.thm ∧ (sysReclaim s).tck = s.tck ∧ (sysReclaim s).hif = s.hif ∧ (sysReclaim s).stm = s.stm ∧ (sysReclaim s).map = s.map ∧ (sysReclaim s).mbr = s.mbr ∧ (sysReclaim s).flt = s.flt ∧ (sysReclaim s).sec = s.sec ∧ (sysReclaim s).cpx = s.cpx ∧ (sysReclaim s).memc = s.memc ∧ (sysReclaim s).mov = s.mov ∧ (sysReclaim s).cst = s.cst ∧ (sysReclaim s).lnt = s.lnt ∧ (sysReclaim s).out = s.out ∧ (sysReclaim s).freeCtr = s.freeCtr := by
  unfold sysReclaim
  try dsimp only
  first
    | (simp; done)
    | ((repeat' split) <;> simp; done)
    | (and_intros <;> (repeat' (first | (simp; done) | split)))

@[simp] theorem sysSpace_frame (s : State) :
    (sysSpace s).pending = s.pending ∧ (sysSpace s).latch = s.latch ∧ (sysSpace s).mem = s.mem ∧ (sysSpace s).clk = s.clk ∧ (sysSpace s).thm = s.thm ∧ (sysSpace s).tck = s.tck ∧ (sysSpace s).hif = s.hif ∧ (sysSpace s).stm = s.stm ∧ (sysSpace s).map = s.map ∧ (sysSpace s).flc = s.flc ∧ (sysSpace s).mbr = s.mbr ∧ (sysSpace s).flt = s.flt ∧ (sysSpace s).sec = s.sec ∧ (sysSpace s).cpx = s.cpx ∧ (sysSpace s).memc = s.memc ∧ (sysSpace s).mov = s.mov ∧ (sysSpace s).cst = s.cst ∧ (sysSpace s).out = s.out ∧ (sysSpace s).freeCtr = s.freeCtr := by
  unfold sysSpace
  try dsimp only
  first
    | (simp; done)
    | ((repeat' split) <;> simp; done)
    | (and_intros <;> (repeat' (first | (simp; done) | split)))

theorem sysStep_pending (s : State) : (sysStep s).pending = s.pending := by
  unfold sysStep
  split
  · simp
  split
  · rfl
  · simp

theorem sysStep_latch (s : State) : (sysStep s).latch = s.latch := by
  unfold sysStep
  split
  · simp
  split
  · rfl
  · simp

theorem sysStep_mem (s : State) : (sysStep s).mem = s.mem := by
  unfold sysStep
  split
  · simp
  split
  · rfl
  · simp

theorem sysStep_clk (s : State) : (sysStep s).clk = s.clk := by
  unfold sysStep
  split
  · simp
  split
  · rfl
  · simp

theorem sysStep_thm (s : State) : (sysStep s).thm = s.thm := by
  unfold sysStep
  split
  · simp
  split
  · rfl
  · simp

theorem sysStep_hif (s : State) : (sysStep s).hif = s.hif := by
  unfold sysStep
  split
  · simp
  split
  · rfl
  · simp

theorem sysStep_stm (s : State) : (sysStep s).stm = s.stm := by
  unfold sysStep
  split
  · simp
  split
  · rfl
  · simp

theorem sysStep_flt (s : State) : (sysStep s).flt = s.flt := by
  unfold sysStep
  split
  · simp
  split
  · rfl
  · simp

theorem sysStep_sec (s : State) : (sysStep s).sec = s.sec := by
  unfold sysStep
  split
  · simp
  split
  · rfl
  · simp

theorem sysStep_cpx (s : State) : (sysStep s).cpx = s.cpx := by
  unfold sysStep
  split
  · simp
  split
  · rfl
  · simp

theorem sysStep_memc (s : State) : (sysStep s).memc = s.memc := by
  unfold sysStep
  split
  · simp
  split
  · rfl
  · simp

theorem sysStep_mov (s : State) : (sysStep s).mov = s.mov := by
  unfold sysStep
  split
  · simp
  split
  · rfl
  · simp

theorem sysStep_cst (s : State) : (sysStep s).cst = s.cst := by
  unfold sysStep
  split
  · simp
  split
  · rfl
  · simp

theorem sysStep_out (s : State) : (sysStep s).out = s.out := by
  unfold sysStep
  split
  · simp
  split
  · rfl
  · simp

theorem sysStep_freeCtr (s : State) : (sysStep s).freeCtr = s.freeCtr := by
  unfold sysStep
  split
  · simp
  split
  · rfl
  · simp

@[simp] theorem sysStep_frame (s : State) :
    (sysStep s).pending = s.pending ∧ (sysStep s).latch = s.latch ∧ (sysStep s).mem = s.mem ∧ (sysStep s).clk = s.clk ∧ (sysStep s).thm = s.thm ∧ (sysStep s).hif = s.hif ∧ (sysStep s).stm = s.stm ∧ (sysStep s).flt = s.flt ∧ (sysStep s).sec = s.sec ∧ (sysStep s).cpx = s.cpx ∧ (sysStep s).memc = s.memc ∧ (sysStep s).mov = s.mov ∧ (sysStep s).cst = s.cst ∧ (sysStep s).out = s.out ∧ (sysStep s).freeCtr = s.freeCtr :=
  ⟨sysStep_pending s, sysStep_latch s, sysStep_mem s, sysStep_clk s, sysStep_thm s, sysStep_hif s, sysStep_stm s, sysStep_flt s, sysStep_sec s, sysStep_cpx s, sysStep_memc s, sysStep_mov s, sysStep_cst s, sysStep_out s, sysStep_freeCtr s⟩

end Sys2Proof.Machine
end

