-- ==== Sys2Proof/Laws/FramesHost.lean ====
section
/-! SUPPORT. Frames of the shared operations: which parts of the state each one leaves as they are (fleet elements, host commands, streams, admin commands, trust). -/

namespace Sys2Proof.Machine

set_option linter.unusedTactic false
set_option linter.unreachableTactic false
set_option linter.unusedSimpArgs false

/-! ### FleetCore -/

@[simp] theorem setPeer_frame (a0 : ℕ) (a1 : Peer → Peer) (s : State) :
    (setPeer a0 a1 s).pending = s.pending ∧ (setPeer a0 a1 s).regs = s.regs ∧ (setPeer a0 a1 s).latch = s.latch ∧ (setPeer a0 a1 s).mem = s.mem ∧ (setPeer a0 a1 s).sys = s.sys ∧ (setPeer a0 a1 s).clk = s.clk ∧ (setPeer a0 a1 s).thm = s.thm ∧ (setPeer a0 a1 s).tck = s.tck ∧ (setPeer a0 a1 s).hif = s.hif ∧ (setPeer a0 a1 s).stm = s.stm ∧ (setPeer a0 a1 s).map = s.map ∧ (setPeer a0 a1 s).flc = s.flc ∧ (setPeer a0 a1 s).bnd = s.bnd ∧ (setPeer a0 a1 s).mbr = s.mbr ∧ (setPeer a0 a1 s).sec = s.sec ∧ (setPeer a0 a1 s).cpx = s.cpx ∧ (setPeer a0 a1 s).memc = s.memc ∧ (setPeer a0 a1 s).mov = s.mov ∧ (setPeer a0 a1 s).cst = s.cst ∧ (setPeer a0 a1 s).lnt = s.lnt ∧ (setPeer a0 a1 s).out = s.out ∧ (setPeer a0 a1 s).freeCtr = s.freeCtr := by
  unfold setPeer
  try dsimp only
  first
    | (simp; done)
    | ((repeat' split) <;> simp; done)
    | (and_intros <;> (repeat' (first | (simp; done) | split)))

@[simp] theorem transmit_frame (a0 : ℕ) (a1 : ℕ) (a2 : ℕ) (a3 : ℕ) (a4 : ℕ) (a5 : List ℕ) (s : State) :
    (transmit a0 a1 a2 a3 a4 a5 s).pending = s.pending ∧ (transmit a0 a1 a2 a3 a4 a5 s).regs = s.regs ∧ (transmit a0 a1 a2 a3 a4 a5 s).latch = s.latch ∧ (transmit a0 a1 a2 a3 a4 a5 s).mem = s.mem ∧ (transmit a0 a1 a2 a3 a4 a5 s).sys = s.sys ∧ (transmit a0 a1 a2 a3 a4 a5 s).clk = s.clk ∧ (transmit a0 a1 a2 a3 a4 a5 s).thm = s.thm ∧ (transmit a0 a1 a2 a3 a4 a5 s).tck = s.tck ∧ (transmit a0 a1 a2 a3 a4 a5 s).hif = s.hif ∧ (transmit a0 a1 a2 a3 a4 a5 s).stm = s.stm ∧ (transmit a0 a1 a2 a3 a4 a5 s).map = s.map ∧ (transmit a0 a1 a2 a3 a4 a5 s).flc = s.flc ∧ (transmit a0 a1 a2 a3 a4 a5 s).bnd = s.bnd ∧ (transmit a0 a1 a2 a3 a4 a5 s).mbr = s.mbr ∧ (transmit a0 a1 a2 a3 a4 a5 s).sec = s.sec ∧ (transmit a0 a1 a2 a3 a4 a5 s).cpx = s.cpx ∧ (transmit a0 a1 a2 a3 a4 a5 s).memc = s.memc ∧ (transmit a0 a1 a2 a3 a4 a5 s).mov = s.mov ∧ (transmit a0 a1 a2 a3 a4 a5 s).cst = s.cst ∧ (transmit a0 a1 a2 a3 a4 a5 s).lnt = s.lnt ∧ (transmit a0 a1 a2 a3 a4 a5 s).freeCtr = s.freeCtr := by
  unfold transmit
  try dsimp only
  first
    | (simp; done)
    | ((repeat' split) <;> simp; done)
    | (and_intros <;> (repeat' (first | (simp; done) | split)))

@[simp] theorem send_frame (a0 : ℕ) (a1 : ℕ) (a2 : ℕ) (a3 : ℕ) (a4 : ℕ) (s : State) :
    (send a0 a1 a2 a3 a4 s).pending = s.pending ∧ (send a0 a1 a2 a3 a4 s).regs = s.regs ∧ (send a0 a1 a2 a3 a4 s).latch = s.latch ∧ (send a0 a1 a2 a3 a4 s).mem = s.mem ∧ (send a0 a1 a2 a3 a4 s).sys = s.sys ∧ (send a0 a1 a2 a3 a4 s).clk = s.clk ∧ (send a0 a1 a2 a3 a4 s).thm = s.thm ∧ (send a0 a1 a2 a3 a4 s).tck = s.tck ∧ (send a0 a1 a2 a3 a4 s).hif = s.hif ∧ (send a0 a1 a2 a3 a4 s).stm = s.stm ∧ (send a0 a1 a2 a3 a4 s).map = s.map ∧ (send a0 a1 a2 a3 a4 s).flc = s.flc ∧ (send a0 a1 a2 a3 a4 s).bnd = s.bnd ∧ (send a0 a1 a2 a3 a4 s).mbr = s.mbr ∧ (send a0 a1 a2 a3 a4 s).sec = s.sec ∧ (send a0 a1 a2 a3 a4 s).cpx = s.cpx ∧ (send a0 a1 a2 a3 a4 s).memc = s.memc ∧ (send a0 a1 a2 a3 a4 s).mov = s.mov ∧ (send a0 a1 a2 a3 a4 s).cst = s.cst ∧ (send a0 a1 a2 a3 a4 s).lnt = s.lnt ∧ (send a0 a1 a2 a3 a4 s).freeCtr = s.freeCtr := by
  unfold send
  try dsimp only
  first
    | (simp; done)
    | ((repeat' split) <;> simp; done)
    | (and_intros <;> (repeat' (first | (simp; done) | split)))

@[simp] theorem reply_frame (a0 : ℕ) (a1 : ℕ) (a2 : ℕ) (a3 : ℕ) (a4 : List ℕ) (s : State) :
    (reply a0 a1 a2 a3 a4 s).pending = s.pending ∧ (reply a0 a1 a2 a3 a4 s).regs = s.regs ∧ (reply a0 a1 a2 a3 a4 s).latch = s.latch ∧ (reply a0 a1 a2 a3 a4 s).mem = s.mem ∧ (reply a0 a1 a2 a3 a4 s).sys = s.sys ∧ (reply a0 a1 a2 a3 a4 s).clk = s.clk ∧ (reply a0 a1 a2 a3 a4 s).thm = s.thm ∧ (reply a0 a1 a2 a3 a4 s).tck = s.tck ∧ (reply a0 a1 a2 a3 a4 s).hif = s.hif ∧ (reply a0 a1 a2 a3 a4 s).stm = s.stm ∧ (reply a0 a1 a2 a3 a4 s).map = s.map ∧ (reply a0 a1 a2 a3 a4 s).flc = s.flc ∧ (reply a0 a1 a2 a3 a4 s).bnd = s.bnd ∧ (reply a0 a1 a2 a3 a4 s).mbr = s.mbr ∧ (reply a0 a1 a2 a3 a4 s).sec = s.sec ∧ (reply a0 a1 a2 a3 a4 s).cpx = s.cpx ∧ (reply a0 a1 a2 a3 a4 s).memc = s.memc ∧ (reply a0 a1 a2 a3 a4 s).mov = s.mov ∧ (reply a0 a1 a2 a3 a4 s).cst = s.cst ∧ (reply a0 a1 a2 a3 a4 s).lnt = s.lnt ∧ (reply a0 a1 a2 a3 a4 s).freeCtr = s.freeCtr := by
  unfold reply
  try dsimp only
  first
    | (simp; done)
    | ((repeat' split) <;> simp; done)
    | (and_intros <;> (repeat' (first | (simp; done) | split)))

@[simp] theorem sendData_frame (a0 : ℕ) (a1 : ℕ) (a2 : ℕ) (a3 : Option (List Block)) (s : State) :
    (sendData a0 a1 a2 a3 s).pending = s.pending ∧ (sendData a0 a1 a2 a3 s).regs = s.regs ∧ (sendData a0 a1 a2 a3 s).latch = s.latch ∧ (sendData a0 a1 a2 a3 s).mem = s.mem ∧ (sendData a0 a1 a2 a3 s).sys = s.sys ∧ (sendData a0 a1 a2 a3 s).clk = s.clk ∧ (sendData a0 a1 a2 a3 s).thm = s.thm ∧ (sendData a0 a1 a2 a3 s).tck = s.tck ∧ (sendData a0 a1 a2 a3 s).hif = s.hif ∧ (sendData a0 a1 a2 a3 s).stm = s.stm ∧ (sendData a0 a1 a2 a3 s).map = s.map ∧ (sendData a0 a1 a2 a3 s).flc = s.flc ∧ (sendData a0 a1 a2 a3 s).bnd = s.bnd ∧ (sendData a0 a1 a2 a3 s).mbr = s.mbr ∧ (sendData a0 a1 a2 a3 s).sec = s.sec ∧ (sendData a0 a1 a2 a3 s).cpx = s.cpx ∧ (sendData a0 a1 a2 a3 s).memc = s.memc ∧ (sendData a0 a1 a2 a3 s).mov = s.mov ∧ (sendData a0 a1 a2 a3 s).cst = s.cst ∧ (sendData a0 a1 a2 a3 s).lnt = s.lnt ∧ (sendData a0 a1 a2 a3 s).freeCtr = s.freeCtr := by
  unfold sendData
  try dsimp only
  first
    | (simp; done)
    | ((repeat' split) <;> simp; done)
    | (and_intros <;> (repeat' (first | (simp; done) | split)))

@[simp] theorem sendAll_frame (a0 : ℕ) (a1 : ℕ) (s : State) :
    (sendAll a0 a1 s).pending = s.pending ∧ (sendAll a0 a1 s).regs = s.regs ∧ (sendAll a0 a1 s).latch = s.latch ∧ (sendAll a0 a1 s).mem = s.mem ∧ (sendAll a0 a1 s).sys = s.sys ∧ (sendAll a0 a1 s).clk = s.clk ∧ (sendAll a0 a1 s).thm = s.thm ∧ (sendAll a0 a1 s).tck = s.tck ∧ (sendAll a0 a1 s).hif = s.hif ∧ (sendAll a0 a1 s).stm = s.stm ∧ (sendAll a0 a1 s).map = s.map ∧ (sendAll a0 a1 s).flc = s.flc ∧ (sendAll a0 a1 s).bnd = s.bnd ∧ (sendAll a0 a1 s).mbr = s.mbr ∧ (sendAll a0 a1 s).sec = s.sec ∧ (sendAll a0 a1 s).cpx = s.cpx ∧ (sendAll a0 a1 s).memc = s.memc ∧ (sendAll a0 a1 s).mov = s.mov ∧ (sendAll a0 a1 s).cst = s.cst ∧ (sendAll a0 a1 s).lnt = s.lnt ∧ (sendAll a0 a1 s).freeCtr = s.freeCtr := by
  unfold sendAll
  try dsimp only
  first
    | (simp; done)
    | ((repeat' split) <;> simp; done)
    | (and_intros <;> (repeat' (first | (simp; done) | split)))

@[simp] theorem settle_frame (a0 : Msg → Bool) (s : State) :
    (settle a0 s).pending = s.pending ∧ (settle a0 s).regs = s.regs ∧ (settle a0 s).latch = s.latch ∧ (settle a0 s).mem = s.mem ∧ (settle a0 s).sys = s.sys ∧ (settle a0 s).clk = s.clk ∧ (settle a0 s).thm = s.thm ∧ (settle a0 s).tck = s.tck ∧ (settle a0 s).hif = s.hif ∧ (settle a0 s).stm = s.stm ∧ (settle a0 s).map = s.map ∧ (settle a0 s).flc = s.flc ∧ (settle a0 s).bnd = s.bnd ∧ (settle a0 s).mbr = s.mbr ∧ (settle a0 s).sec = s.sec ∧ (settle a0 s).cpx = s.cpx ∧ (settle a0 s).memc = s.memc ∧ (settle a0 s).mov = s.mov ∧ (settle a0 s).cst = s.cst ∧ (settle a0 s).lnt = s.lnt ∧ (settle a0 s).out = s.out ∧ (settle a0 s).freeCtr = s.freeCtr := by
  unfold settle
  try dsimp only
  first
    | (simp; done)
    | ((repeat' split) <;> simp; done)
    | (and_intros <;> (repeat' (first | (simp; done) | split)))

@[simp] theorem serve_frame (a0 : ℕ) (a1 : ℕ) (a2 : ℕ) (a3 : ℕ) (a4 : ℕ) (a5 : ℕ) (s : State) :
    (serve a0 a1 a2 a3 a4 a5 s).pending = s.pending ∧ (serve a0 a1 a2 a3 a4 a5 s).latch = s.latch ∧ (serve a0 a1 a2 a3 a4 a5 s).mem = s.mem ∧ (serve a0 a1 a2 a3 a4 a5 s).sys = s.sys ∧ (serve a0 a1 a2 a3 a4 a5 s).clk = s.clk ∧ (serve a0 a1 a2 a3 a4 a5 s).thm = s.thm ∧ (serve a0 a1 a2 a3 a4 a5 s).tck = s.tck ∧ (serve a0 a1 a2 a3 a4 a5 s).hif = s.hif ∧ (serve a0 a1 a2 a3 a4 a5 s).stm = s.stm ∧ (serve a0 a1 a2 a3 a4 a5 s).bnd = s.bnd ∧ (serve a0 a1 a2 a3 a4 a5 s).mbr = s.mbr ∧ (serve a0 a1 a2 a3 a4 a5 s).sec = s.sec ∧ (serve a0 a1 a2 a3 a4 a5 s).cpx = s.cpx ∧ (serve a0 a1 a2 a3 a4 a5 s).memc = s.memc ∧ (serve a0 a1 a2 a3 a4 a5 s).mov = s.mov ∧ (serve a0 a1 a2 a3 a4 a5 s).cst = s.cst ∧ (serve a0 a1 a2 a3 a4 a5 s).lnt = s.lnt ∧ (serve a0 a1 a2 a3 a4 a5 s).out = s.out ∧ (serve a0 a1 a2 a3 a4 a5 s).freeCtr = s.freeCtr := by
  unfold serve
  try dsimp only
  and_intros
  · repeat' (first | (simp; done) | (have h := appendRec_frame (by assumption); simp [h]; done) | (have h := takeSlot_frame (by assumption); simp [h]; done) | (have h := placePage_frame (by assumption); simp [h]; done) | (have h := placePart_frame (by assumption); simp [h]; done) | split | (refine (forAll_pending _ _ _ (fun x s => ?_)).trans ?_; try dsimp only) | (refine adminCmd_pending _ _ _ _ ?_; try dsimp only) | simp)
  · repeat' (first | (simp; done) | (have h := appendRec_frame (by assumption); simp [h]; done) | (have h := takeSlot_frame (by assumption); simp [h]; done) | (have h := placePage_frame (by assumption); simp [h]; done) | (have h := placePart_frame (by assumption); simp [h]; done) | split | (refine (forAll_latch _ _ _ (fun x s => ?_)).trans ?_; try dsimp only) | (refine adminCmd_latch _ _ _ _ ?_; try dsimp only) | simp)
  · repeat' (first | (simp; done) | (have h := appendRec_frame (by assumption); simp [h]; done) | (have h := takeSlot_frame (by assumption); simp [h]; done) | (have h := placePage_frame (by assumption); simp [h]; done) | (have h := placePart_frame (by assumption); simp [h]; done) | split | (refine (forAll_mem _ _ _ (fun x s => ?_)).trans ?_; try dsimp only) | (refine adminCmd_mem _ _ _ _ ?_; try dsimp only) | simp)
  · repeat' (first | (simp; done) | (have h := appendRec_frame (by assumption); simp [h]; done) | (have h := takeSlot_frame (by assumption); simp [h]; done) | (have h := placePage_frame (by assumption); simp [h]; done) | (have h := placePart_frame (by assumption); simp [h]; done) | split | (refine (forAll_sys _ _ _ (fun x s => ?_)).trans ?_; try dsimp only) | (refine adminCmd_sys _ _ _ _ ?_; try dsimp only) | simp)
  · repeat' (first | (simp; done) | (have h := appendRec_frame (by assumption); simp [h]; done) | (have h := takeSlot_frame (by assumption); simp [h]; done) | (have h := placePage_frame (by assumption); simp [h]; done) | (have h := placePart_frame (by assumption); simp [h]; done) | split | (refine (forAll_clk _ _ _ (fun x s => ?_)).trans ?_; try dsimp only) | (refine adminCmd_clk _ _ _ _ ?_; try dsimp only) | simp)
  · repeat' (first | (simp; done) | (have h := appendRec_frame (by assumption); simp [h]; done) | (have h := takeSlot_frame (by assumption); simp [h]; done) | (have h := placePage_frame (by assumption); simp [h]; done) | (have h := placePart_frame (by assumption); simp [h]; done) | split | (refine (forAll_thm _ _ _ (fun x s => ?_)).trans ?_; try dsimp only) | (refine adminCmd_thm _ _ _ _ ?_; try dsimp only) | simp)
  · repeat' (first | (simp; done) | (have h := appendRec_frame (by assumption); simp [h]; done) | (have h := takeSlot_frame (by assumption); simp [h]; done) | (have h := placePage_frame (by assumption); simp [h]; done) | (have h := placePart_frame (by assumption); simp [h]; done) | split | (refine (forAll_tck _ _ _ (fun x s => ?_)).trans ?_; try dsimp only) | (refine adminCmd_tck _ _ _ _ ?_; try dsimp only) | simp)
  · repeat' (first | (simp; done) | (have h := appendRec_frame (by assumption); simp [h]; done) | (have h := takeSlot_frame (by assumption); simp [h]; done) | (have h := placePage_frame (by assumption); simp [h]; done) | (have h := placePart_frame (by assumption); simp [h]; done) | split | (refine (forAll_hif _ _ _ (fun x s => ?_)).trans ?_; try dsimp only) | simp)
  · repeat' (first | (simp; done) | (have h := appendRec_frame (by assumption); simp [h]; done) | (have h := takeSlot_frame (by assumption); simp [h]; done) | (have h := placePage_frame (by assumption); simp [h]; done) | (have h := placePart_frame (by assumption); simp [h]; done) | split | (refine (forAll_stm _ _ _ (fun x s => ?_)).trans ?_; try dsimp only) | (refine adminCmd_stm _ _ _ _ ?_; try dsimp only) | simp)
  · repeat' (first | (simp; done) | (have h := appendRec_frame (by assumption); simp [h]; done) | (have h := takeSlot_frame (by assumption); simp [h]; done) | (have h := placePage_frame (by assumption); simp [h]; done) | (have h := placePart_frame (by assumption); simp [h]; done) | split | (refine (forAll_bnd _ _ _ (fun x s => ?_)).trans ?_; try dsimp only) | (refine adminCmd_bnd _ _ _ _ ?_; try dsimp only) | simp)
  · repeat' (first | (simp; done) | (have h := appendRec_frame (by assumption); simp [h]; done) | (have h := takeSlot_frame (by assumption); simp [h]; done) | (have h := placePage_frame (by assumption); simp [h]; done) | (have h := placePart_frame (by assumption); simp [h]; done) | split | (refine (forAll_mbr _ _ _ (fun x s => ?_)).trans ?_; try dsimp only) | (refine adminCmd_mbr _ _ _ _ ?_; try dsimp only) | simp)
  · repeat' (first | (simp; done) | (have h := appendRec_frame (by assumption); simp [h]; done) | (have h := takeSlot_frame (by assumption); simp [h]; done) | (have h := placePage_frame (by assumption); simp [h]; done) | (have h := placePart_frame (by assumption); simp [h]; done) | split | (refine (forAll_sec _ _ _ (fun x s => ?_)).trans ?_; try dsimp only) | (refine adminCmd_sec _ _ _ _ ?_; try dsimp only) | simp)
  · repeat' (first | (simp; done) | (have h := appendRec_frame (by assumption); simp [h]; done) | (have h := takeSlot_frame (by assumption); simp [h]; done) | (have h := placePage_frame (by assumption); simp [h]; done) | (have h := placePart_frame (by assumption); simp [h]; done) | split | (refine (forAll_cpx _ _ _ (fun x s => ?_)).trans ?_; try dsimp only) | (refine adminCmd_cpx _ _ _ _ ?_; try dsimp only) | simp)
  · repeat' (first | (simp; done) | (have h := appendRec_frame (by assumption); simp [h]; done) | (have h := takeSlot_frame (by assumption); simp [h]; done) | (have h := placePage_frame (by assumption); simp [h]; done) | (have h := placePart_frame (by assumption); simp [h]; done) | split | (refine (forAll_memc _ _ _ (fun x s => ?_)).trans ?_; try dsimp only) | (refine adminCmd_memc _ _ _ _ ?_; try dsimp only) | simp)
  · repeat' (first | (simp; done) | (have h := appendRec_frame (by assumption); simp [h]; done) | (have h := takeSlot_frame (by assumption); simp [h]; done) | (have h := placePage_frame (by assumption); simp [h]; done) | (have h := placePart_frame (by assumption); simp [h]; done) | split | (refine (forAll_mov _ _ _ (fun x s => ?_)).trans ?_; try dsimp only) | (refine adminCmd_mov _ _ _ _ ?_; try dsimp only) | simp)
  · repeat' (first | (simp; done) | (have h := appendRec_frame (by assumption); simp [h]; done) | (have h := takeSlot_frame (by assumption); simp [h]; done) | (have h := placePage_frame (by assumption); simp [h]; done) | (have h := placePart_frame (by assumption); simp [h]; done) | split | (refine (forAll_cst _ _ _ (fun x s => ?_)).trans ?_; try dsimp only) | (refine adminCmd_cst _ _ _ _ ?_; try dsimp only) | simp)
  · repeat' (first | (simp; done) | (have h := appendRec_frame (by assumption); simp [h]; done) | (have h := takeSlot_frame (by assumption); simp [h]; done) | (have h := placePage_frame (by assumption); simp [h]; done) | (have h := placePart_frame (by assumption); simp [h]; done) | split | (refine (forAll_lnt _ _ _ (fun x s => ?_)).trans ?_; try dsimp only) | simp)
  · repeat' (first | (simp; done) | (have h := appendRec_frame (by assumption); simp [h]; done) | (have h := takeSlot_frame (by assumption); simp [h]; done) | (have h := placePage_frame (by assumption); simp [h]; done) | (have h := placePart_frame (by assumption); simp [h]; done) | split | (refine (forAll_out _ _ _ (fun x s => ?_)).trans ?_; try dsimp only) | simp)
  · repeat' (first | (simp; done) | (have h := appendRec_frame (by assumption); simp [h]; done) | (have h := takeSlot_frame (by assumption); simp [h]; done) | (have h := placePage_frame (by assumption); simp [h]; done) | (have h := placePart_frame (by assumption); simp [h]; done) | split | (refine (forAll_freeCtr _ _ _ (fun x s => ?_)).trans ?_; try dsimp only) | (refine adminCmd_freeCtr _ _ _ _ ?_; try dsimp only) | simp)

@[simp] theorem ask_frame (a0 : ℕ) (a1 : ℕ) (s : State) :
    (ask a0 a1 s).pending = s.pending ∧ (ask a0 a1 s).latch = s.latch ∧ (ask a0 a1 s).mem = s.mem ∧ (ask a0 a1 s).sys = s.sys ∧ (ask a0 a1 s).clk = s.clk ∧ (ask a0 a1 s).thm = s.thm ∧ (ask a0 a1 s).tck = s.tck ∧ (ask a0 a1 s).hif = s.hif ∧ (ask a0 a1 s).stm = s.stm ∧ (ask a0 a1 s).bnd = s.bnd ∧ (ask a0 a1 s).mbr = s.mbr ∧ (ask a0 a1 s).sec = s.sec ∧ (ask a0 a1 s).cpx = s.cpx ∧ (ask a0 a1 s).memc = s.memc ∧ (ask a0 a1 s).mov = s.mov ∧ (ask a0 a1 s).cst = s.cst ∧ (ask a0 a1 s).lnt = s.lnt ∧ (ask a0 a1 s).freeCtr = s.freeCtr := by
  unfold ask
  try dsimp only
  first
    | (simp; done)
    | ((repeat' split) <;> simp; done)
    | (and_intros <;> (repeat' (first | (simp; done) | split)))

@[simp] theorem proxyFail_frame (a0 : ℕ) (a1 : ℕ) (s : State) :
    (proxyFail a0 a1 s).pending = s.pending ∧ (proxyFail a0 a1 s).latch = s.latch ∧ (proxyFail a0 a1 s).mem = s.mem ∧ (proxyFail a0 a1 s).clk = s.clk ∧ (proxyFail a0 a1 s).thm = s.thm ∧ (proxyFail a0 a1 s).tck = s.tck ∧ (proxyFail a0 a1 s).stm = s.stm ∧ (proxyFail a0 a1 s).map = s.map ∧ (proxyFail a0 a1 s).flc = s.flc ∧ (proxyFail a0 a1 s).bnd = s.bnd ∧ (proxyFail a0 a1 s).mbr = s.mbr ∧ (proxyFail a0 a1 s).flt = s.flt ∧ (proxyFail a0 a1 s).sec = s.sec ∧ (proxyFail a0 a1 s).cpx = s.cpx ∧ (proxyFail a0 a1 s).memc = s.memc ∧ (proxyFail a0 a1 s).mov = s.mov ∧ (proxyFail a0 a1 s).cst = s.cst ∧ (proxyFail a0 a1 s).out = s.out ∧ (proxyFail a0 a1 s).freeCtr = s.freeCtr := by
  unfold proxyFail
  try dsimp only
  first
    | (simp; done)
    | ((repeat' split) <;> simp; done)
    | (and_intros <;> (repeat' (first | (simp; done) | split)))

@[simp] theorem resyncLost_frame (a0 : ℕ) (s : State) :
    (resyncLost a0 s).pending = s.pending ∧ (resyncLost a0 s).latch = s.latch ∧ (resyncLost a0 s).mem = s.mem ∧ (resyncLost a0 s).clk = s.clk ∧ (resyncLost a0 s).thm = s.thm ∧ (resyncLost a0 s).tck = s.tck ∧ (resyncLost a0 s).hif = s.hif ∧ (resyncLost a0 s).stm = s.stm ∧ (resyncLost a0 s).map = s.map ∧ (resyncLost a0 s).flc = s.flc ∧ (resyncLost a0 s).bnd = s.bnd ∧ (resyncLost a0 s).mbr = s.mbr ∧ (resyncLost a0 s).sec = s.sec ∧ (resyncLost a0 s).cpx = s.cpx ∧ (resyncLost a0 s).memc = s.memc ∧ (resyncLost a0 s).mov = s.mov ∧ (resyncLost a0 s).cst = s.cst ∧ (resyncLost a0 s).out = s.out ∧ (resyncLost a0 s).freeCtr = s.freeCtr := by
  unfold resyncLost
  try dsimp only
  first
    | (simp; done)
    | ((repeat' split) <;> simp; done)
    | (and_intros <;> (repeat' (first | (simp; done) | split)))

@[simp] theorem askMore_frame (a0 : ℕ) (a1 : ℕ) (s : State) :
    (askMore a0 a1 s).pending = s.pending ∧ (askMore a0 a1 s).latch = s.latch ∧ (askMore a0 a1 s).mem = s.mem ∧ (askMore a0 a1 s).clk = s.clk ∧ (askMore a0 a1 s).thm = s.thm ∧ (askMore a0 a1 s).tck = s.tck ∧ (askMore a0 a1 s).stm = s.stm ∧ (askMore a0 a1 s).bnd = s.bnd ∧ (askMore a0 a1 s).mbr = s.mbr ∧ (askMore a0 a1 s).sec = s.sec ∧ (askMore a0 a1 s).cpx = s.cpx ∧ (askMore a0 a1 s).memc = s.memc ∧ (askMore a0 a1 s).mov = s.mov ∧ (askMore a0 a1 s).cst = s.cst ∧ (askMore a0 a1 s).freeCtr = s.freeCtr := by
  induction a0 generalizing s with
  | zero => simp [askMore]
  | succ fuel ih =>
  unfold askMore
  try dsimp only
  and_intros
  · repeat' (first | (simp; done) | (simp [*]; done) | (have h := appendRec_frame (by assumption); simp [h, *]; done) | (have h := takeSlot_frame (by assumption); simp [h, *]; done) | (have h := placePage_frame (by assumption); simp [h, *]; done) | (have h := placePart_frame (by assumption); simp [h, *]; done) | split | (refine (forAll_pending _ _ _ (fun x s => ?_)).trans ?_; try dsimp only) | (refine adminCmd_pending _ _ _ _ ?_; try dsimp only) | simp)
  · repeat' (first | (simp; done) | (simp [*]; done) | (have h := appendRec_frame (by assumption); simp [h, *]; done) | (have h := takeSlot_frame (by assumption); simp [h, *]; done) | (have h := placePage_frame (by assumption); simp [h, *]; done) | (have h := placePart_frame (by assumption); simp [h, *]; done) | split | (refine (forAll_latch _ _ _ (fun x s => ?_)).trans ?_; try dsimp only) | (refine adminCmd_latch _ _ _ _ ?_; try dsimp only) | simp)
  · repeat' (first | (simp; done) | (simp [*]; done) | (have h := appendRec_frame (by assumption); simp [h, *]; done) | (have h := takeSlot_frame (by assumption); simp [h, *]; done) | (have h := placePage_frame (by assumption); simp [h, *]; done) | (have h := placePart_frame (by assumption); simp [h, *]; done) | split | (refine (forAll_mem _ _ _ (fun x s => ?_)).trans ?_; try dsimp only) | (refine adminCmd_mem _ _ _ _ ?_; try dsimp only) | simp)
  · repeat' (first | (simp; done) | (simp [*]; done) | (have h := appendRec_frame (by assumption); simp [h, *]; done) | (have h := takeSlot_frame (by assumption); simp [h, *]; done) | (have h := placePage_frame (by assumption); simp [h, *]; done) | (have h := placePart_frame (by assumption); simp [h, *]; done) | split | (refine (forAll_clk _ _ _ (fun x s => ?_)).trans ?_; try dsimp only) | (refine adminCmd_clk _ _ _ _ ?_; try dsimp only) | simp)
  · repeat' (first | (simp; done) | (simp [*]; done) | (have h := appendRec_frame (by assumption); simp [h, *]; done) | (have h := takeSlot_frame (by assumption); simp [h, *]; done) | (have h := placePage_frame (by assumption); simp [h, *]; done) | (have h := placePart_frame (by assumption); simp [h, *]; done) | split | (refine (forAll_thm _ _ _ (fun x s => ?_)).trans ?_; try dsimp only) | (refine adminCmd_thm _ _ _ _ ?_; try dsimp only) | simp)
  · repeat' (first | (simp; done) | (simp [*]; done) | (have h := appendRec_frame (by assumption); simp [h, *]; done) | (have h := takeSlot_frame (by assumption); simp [h, *]; done) | (have h := placePage_frame (by assumption); simp [h, *]; done) | (have h := placePart_frame (by assumption); simp [h, *]; done) | split | (refine (forAll_tck _ _ _ (fun x s => ?_)).trans ?_; try dsimp only) | (refine adminCmd_tck _ _ _ _ ?_; try dsimp only) | simp)
  · repeat' (first | (simp; done) | (simp [*]; done) | (have h := appendRec_frame (by assumption); simp [h, *]; done) | (have h := takeSlot_frame (by assumption); simp [h, *]; done) | (have h := placePage_frame (by assumption); simp [h, *]; done) | (have h := placePart_frame (by assumption); simp [h, *]; done) | split | (refine (forAll_stm _ _ _ (fun x s => ?_)).trans ?_; try dsimp only) | (refine adminCmd_stm _ _ _ _ ?_; try dsimp only) | simp)
  · repeat' (first | (simp; done) | (simp [*]; done) | (have h := appendRec_frame (by assumption); simp [h, *]; done) | (have h := takeSlot_frame (by assumption); simp [h, *]; done) | (have h := placePage_frame (by assumption); simp [h, *]; done) | (have h := placePart_frame (by assumption); simp [h, *]; done) | split | (refine (forAll_bnd _ _ _ (fun x s => ?_)).trans ?_; try dsimp only) | (refine adminCmd_bnd _ _ _ _ ?_; try dsimp only) | simp)
  · repeat' (first | (simp; done) | (simp [*]; done) | (have h := appendRec_frame (by assumption); simp [h, *]; done) | (have h := takeSlot_frame (by assumption); simp [h, *]; done) | (have h := placePage_frame (by assumption); simp [h, *]; done) | (have h := placePart_frame (by assumption); simp [h, *]; done) | split | (refine (forAll_mbr _ _ _ (fun x s => ?_)).trans ?_; try dsimp only) | (refine adminCmd_mbr _ _ _ _ ?_; try dsimp only) | simp)
  · repeat' (first | (simp; done) | (simp [*]; done) | (have h := appendRec_frame (by assumption); simp [h, *]; done) | (have h := takeSlot_frame (by assumption); simp [h, *]; done) | (have h := placePage_frame (by assumption); simp [h, *]; done) | (have h := placePart_frame (by assumption); simp [h, *]; done) | split | (refine (forAll_sec _ _ _ (fun x s => ?_)).trans ?_; try dsimp only) | (refine adminCmd_sec _ _ _ _ ?_; try dsimp only) | simp)
  · repeat' (first | (simp; done) | (simp [*]; done) | (have h := appendRec_frame (by assumption); simp [h, *]; done) | (have h := takeSlot_frame (by assumption); simp [h, *]; done) | (have h := placePage_frame (by assumption); simp [h, *]; done) | (have h := placePart_frame (by assumption); simp [h, *]; done) | split | (refine (forAll_cpx _ _ _ (fun x s => ?_)).trans ?_; try dsimp only) | (refine adminCmd_cpx _ _ _ _ ?_; try dsimp only) | simp)
  · repeat' (first | (simp; done) | (simp [*]; done) | (have h := appendRec_frame (by assumption); simp [h, *]; done) | (have h := takeSlot_frame (by assumption); simp [h, *]; done) | (have h := placePage_frame (by assumption); simp [h, *]; done) | (have h := placePart_frame (by assumption); simp [h, *]; done) | split | (refine (forAll_memc _ _ _ (fun x s => ?_)).trans ?_; try dsimp only) | (refine adminCmd_memc _ _ _ _ ?_; try dsimp only) | simp)
  · repeat' (first | (simp; done) | (simp [*]; done) | (have h := appendRec_frame (by assumption); simp [h, *]; done) | (have h := takeSlot_frame (by assumption); simp [h, *]; done) | (have h := placePage_frame (by assumption); simp [h, *]; done) | (have h := placePart_frame (by assumption); simp [h, *]; done) | split | (refine (forAll_mov _ _ _ (fun x s => ?_)).trans ?_; try dsimp only) | (refine adminCmd_mov _ _ _ _ ?_; try dsimp only) | simp)
  · repeat' (first | (simp; done) | (simp [*]; done) | (have h := appendRec_frame (by assumption); simp [h, *]; done) | (have h := takeSlot_frame (by assumption); simp [h, *]; done) | (have h := placePage_frame (by assumption); simp [h, *]; done) | (have h := placePart_frame (by assumption); simp [h, *]; done) | split | (refine (forAll_cst _ _ _ (fun x s => ?_)).trans ?_; try dsimp only) | (refine adminCmd_cst _ _ _ _ ?_; try dsimp only) | simp)
  · repeat' (first | (simp; done) | (simp [*]; done) | (have h := appendRec_frame (by assumption); simp [h, *]; done) | (have h := takeSlot_frame (by assumption); simp [h, *]; done) | (have h := placePage_frame (by assumption); simp [h, *]; done) | (have h := placePart_frame (by assumption); simp [h, *]; done) | split | (refine (forAll_freeCtr _ _ _ (fun x s => ?_)).trans ?_; try dsimp only) | (refine adminCmd_freeCtr _ _ _ _ ?_; try dsimp only) | simp)

@[simp] theorem gather_frame (a0 : GatherFor) (a1 : ℕ) (a2 : ℕ) (a3 : ℕ) (a4 : ℕ) (s : State) :
    (gather a0 a1 a2 a3 a4 s).pending = s.pending ∧ (gather a0 a1 a2 a3 a4 s).latch = s.latch ∧ (gather a0 a1 a2 a3 a4 s).mem = s.mem ∧ (gather a0 a1 a2 a3 a4 s).clk = s.clk ∧ (gather a0 a1 a2 a3 a4 s).thm = s.thm ∧ (gather a0 a1 a2 a3 a4 s).tck = s.tck ∧ (gather a0 a1 a2 a3 a4 s).stm = s.stm ∧ (gather a0 a1 a2 a3 a4 s).bnd = s.bnd ∧ (gather a0 a1 a2 a3 a4 s).mbr = s.mbr ∧ (gather a0 a1 a2 a3 a4 s).sec = s.sec ∧ (gather a0 a1 a2 a3 a4 s).cpx = s.cpx ∧ (gather a0 a1 a2 a3 a4 s).memc = s.memc ∧ (gather a0 a1 a2 a3 a4 s).mov = s.mov ∧ (gather a0 a1 a2 a3 a4 s).cst = s.cst ∧ (gather a0 a1 a2 a3 a4 s).freeCtr = s.freeCtr := by
  unfold gather
  try dsimp only
  first
    | (simp; done)
    | ((repeat' split) <;> simp; done)
    | (and_intros <;> (repeat' (first | (simp; done) | split)))

@[simp] theorem ownWrite_frame (a b c : Nat) (d : List Block) (e : Nat) (g : Bool) (s : State) :
    (ownWrite a b c d e g s).2.pending = s.pending ∧ (ownWrite a b c d e g s).2.regs = s.regs ∧ (ownWrite a b c d e g s).2.latch = s.latch ∧ (ownWrite a b c d e g s).2.mem = s.mem ∧ (ownWrite a b c d e g s).2.sys = s.sys ∧ (ownWrite a b c d e g s).2.clk = s.clk ∧ (ownWrite a b c d e g s).2.thm = s.thm ∧ (ownWrite a b c d e g s).2.tck = s.tck ∧ (ownWrite a b c d e g s).2.stm = s.stm ∧ (ownWrite a b c d e g s).2.map = s.map ∧ (ownWrite a b c d e g s).2.flc = s.flc ∧ (ownWrite a b c d e g s).2.bnd = s.bnd ∧ (ownWrite a b c d e g s).2.mbr = s.mbr ∧ (ownWrite a b c d e g s).2.flt = s.flt ∧ (ownWrite a b c d e g s).2.sec = s.sec ∧ (ownWrite a b c d e g s).2.cpx = s.cpx ∧ (ownWrite a b c d e g s).2.memc = s.memc ∧ (ownWrite a b c d e g s).2.mov = s.mov ∧ (ownWrite a b c d e g s).2.cst = s.cst ∧ (ownWrite a b c d e g s).2.lnt = s.lnt ∧ (ownWrite a b c d e g s).2.out = s.out ∧ (ownWrite a b c d e g s).2.freeCtr = s.freeCtr := by
  simp [ownWrite]

@[simp] theorem resyncRead_frame (a0 : ℕ) (s : State) :
    (resyncRead a0 s).pending = s.pending ∧ (resyncRead a0 s).latch = s.latch ∧ (resyncRead a0 s).mem = s.mem ∧ (resyncRead a0 s).clk = s.clk ∧ (resyncRead a0 s).thm = s.thm ∧ (resyncRead a0 s).tck = s.tck ∧ (resyncRead a0 s).stm = s.stm ∧ (resyncRead a0 s).bnd = s.bnd ∧ (resyncRead a0 s).mbr = s.mbr ∧ (resyncRead a0 s).sec = s.sec ∧ (resyncRead a0 s).cpx = s.cpx ∧ (resyncRead a0 s).memc = s.memc ∧ (resyncRead a0 s).mov = s.mov ∧ (resyncRead a0 s).cst = s.cst ∧ (resyncRead a0 s).freeCtr = s.freeCtr := by
  unfold resyncRead
  try dsimp only
  first
    | (simp; done)
    | ((repeat' split) <;> simp; done)
    | (and_intros <;> (repeat' (first | (simp; done) | split)))

@[simp] theorem resyncEnd_frame (a0 : ℕ) (s : State) :
    (resyncEnd a0 s).pending = s.pending ∧ (resyncEnd a0 s).latch = s.latch ∧ (resyncEnd a0 s).mem = s.mem ∧ (resyncEnd a0 s).clk = s.clk ∧ (resyncEnd a0 s).thm = s.thm ∧ (resyncEnd a0 s).tck = s.tck ∧ (resyncEnd a0 s).hif = s.hif ∧ (resyncEnd a0 s).stm = s.stm ∧ (resyncEnd a0 s).map = s.map ∧ (resyncEnd a0 s).flc = s.flc ∧ (resyncEnd a0 s).bnd = s.bnd ∧ (resyncEnd a0 s).mbr = s.mbr ∧ (resyncEnd a0 s).sec = s.sec ∧ (resyncEnd a0 s).cpx = s.cpx ∧ (resyncEnd a0 s).memc = s.memc ∧ (resyncEnd a0 s).mov = s.mov ∧ (resyncEnd a0 s).cst = s.cst ∧ (resyncEnd a0 s).out = s.out ∧ (resyncEnd a0 s).freeCtr = s.freeCtr := by
  unfold resyncEnd
  try dsimp only
  first
    | (simp; done)
    | ((repeat' split) <;> simp; done)
    | (and_intros <;> (repeat' (first | (simp; done) | split)))

theorem resyncWrite_pending (a0 : ℕ) (a1 : ℕ) (a2 : List Block) (s : State) : (resyncWrite a0 a1 a2 s).pending = s.pending := by
  unfold resyncWrite
  try dsimp only
  repeat' (first | (simp; done) | (have h := appendRec_frame (by assumption); simp [h]; done) | (have h := takeSlot_frame (by assumption); simp [h]; done) | (have h := placePage_frame (by assumption); simp [h]; done) | (have h := placePart_frame (by assumption); simp [h]; done) | split | (refine (forAll_pending _ _ _ (fun x s => ?_)).trans ?_; try dsimp only) | (refine adminCmd_pending _ _ _ _ ?_; try dsimp only) | simp)

theorem resyncWrite_latch (a0 : ℕ) (a1 : ℕ) (a2 : List Block) (s : State) : (resyncWrite a0 a1 a2 s).latch = s.latch := by
  unfold resyncWrite
  try dsimp only
  repeat' (first | (simp; done) | (have h := appendRec_frame (by assumption); simp [h]; done) | (have h := takeSlot_frame (by assumption); simp [h]; done) | (have h := placePage_frame (by assumption); simp [h]; done) | (have h := placePart_frame (by assumption); simp [h]; done) | split | (refine (forAll_latch _ _ _ (fun x s => ?_)).trans ?_; try dsimp only) | (refine adminCmd_latch _ _ _ _ ?_; try dsimp only) | simp)

theorem resyncWrite_mem (a0 : ℕ) (a1 : ℕ) (a2 : List Block) (s : State) : (resyncWrite a0 a1 a2 s).mem = s.mem := by
  unfold resyncWrite
  try dsimp only
  repeat' (first | (simp; done) | (have h := appendRec_frame (by assumption); simp [h]; done) | (have h := takeSlot_frame (by assumption); simp [h]; done) | (have h := placePage_frame (by assumption); simp [h]; done) | (have h := placePart_frame (by assumption); simp [h]; done) | split | (refine (forAll_mem _ _ _ (fun x s => ?_)).trans ?_; try dsimp only) | (refine adminCmd_mem _ _ _ _ ?_; try dsimp only) | simp)

theorem resyncWrite_clk (a0 : ℕ) (a1 : ℕ) (a2 : List Block) (s : State) : (resyncWrite a0 a1 a2 s).clk = s.clk := by
  unfold resyncWrite
  try dsimp only
  repeat' (first | (simp; done) | (have h := appendRec_frame (by assumption); simp [h]; done) | (have h := takeSlot_frame (by assumption); simp [h]; done) | (have h := placePage_frame (by assumption); simp [h]; done) | (have h := placePart_frame (by assumption); simp [h]; done) | split | (refine (forAll_clk _ _ _ (fun x s => ?_)).trans ?_; try dsimp only) | (refine adminCmd_clk _ _ _ _ ?_; try dsimp only) | simp)

theorem resyncWrite_thm (a0 : ℕ) (a1 : ℕ) (a2 : List Block) (s : State) : (resyncWrite a0 a1 a2 s).thm = s.thm := by
  unfold resyncWrite
  try dsimp only
  repeat' (first | (simp; done) | (have h := appendRec_frame (by assumption); simp [h]; done) | (have h := takeSlot_frame (by assumption); simp [h]; done) | (have h := placePage_frame (by assumption); simp [h]; done) | (have h := placePart_frame (by assumption); simp [h]; done) | split | (refine (forAll_thm _ _ _ (fun x s => ?_)).trans ?_; try dsimp only) | (refine adminCmd_thm _ _ _ _ ?_; try dsimp only) | simp)

theorem resyncWrite_tck (a0 : ℕ) (a1 : ℕ) (a2 : List Block) (s : State) : (resyncWrite a0 a1 a2 s).tck = s.tck := by
  unfold resyncWrite
  try dsimp only
  repeat' (first | (simp; done) | (have h := appendRec_frame (by assumption); simp [h]; done) | (have h := takeSlot_frame (by assumption); simp [h]; done) | (have h := placePage_frame (by assumption); simp [h]; done) | (have h := placePart_frame (by assumption); simp [h]; done) | split | (refine (forAll_tck _ _ _ (fun x s => ?_)).trans ?_; try dsimp only) | (refine adminCmd_tck _ _ _ _ ?_; try dsimp only) | simp)

theorem resyncWrite_stm (a0 : ℕ) (a1 : ℕ) (a2 : List Block) (s : State) : (resyncWrite a0 a1 a2 s).stm = s.stm := by
  unfold resyncWrite
  try dsimp only
  repeat' (first | (simp; done) | (have h := appendRec_frame (by assumption); simp [h]; done) | (have h := takeSlot_frame (by assumption); simp [h]; done) | (have h := placePage_frame (by assumption); simp [h]; done) | (have h := placePart_frame (by assumption); simp [h]; done) | split | (refine (forAll_stm _ _ _ (fun x s => ?_)).trans ?_; try dsimp only) | (refine adminCmd_stm _ _ _ _ ?_; try dsimp only) | simp)

theorem resyncWrite_bnd (a0 : ℕ) (a1 : ℕ) (a2 : List Block) (s : State) : (resyncWrite a0 a1 a2 s).bnd = s.bnd := by
  unfold resyncWrite
  try dsimp only
  repeat' (first | (simp; done) | (have h := appendRec_frame (by assumption); simp [h]; done) | (have h := takeSlot_frame (by assumption); simp [h]; done) | (have h := placePage_frame (by assumption); simp [h]; done) | (have h := placePart_frame (by assumption); simp [h]; done) | split | (refine (forAll_bnd _ _ _ (fun x s => ?_)).trans ?_; try dsimp only) | (refine adminCmd_bnd _ _ _ _ ?_; try dsimp only) | simp)

theorem resyncWrite_mbr (a0 : ℕ) (a1 : ℕ) (a2 : List Block) (s : State) : (resyncWrite a0 a1 a2 s).mbr = s.mbr := by
  unfold resyncWrite
  try dsimp only
  repeat' (first | (simp; done) | (have h := appendRec_frame (by assumption); simp [h]; done) | (have h := takeSlot_frame (by assumption); simp [h]; done) | (have h := placePage_frame (by assumption); simp [h]; done) | (have h := placePart_frame (by assumption); simp [h]; done) | split | (refine (forAll_mbr _ _ _ (fun x s => ?_)).trans ?_; try dsimp only) | (refine adminCmd_mbr _ _ _ _ ?_; try dsimp only) | simp)

theorem resyncWrite_sec (a0 : ℕ) (a1 : ℕ) (a2 : List Block) (s : State) : (resyncWrite a0 a1 a2 s).sec = s.sec := by
  unfold resyncWrite
  try dsimp only
  repeat' (first | (simp; done) | (have h := appendRec_frame (by assumption); simp [h]; done) | (have h := takeSlot_frame (by assumption); simp [h]; done) | (have h := placePage_frame (by assumption); simp [h]; done) | (have h := placePart_frame (by assumption); simp [h]; done) | split | (refine (forAll_sec _ _ _ (fun x s => ?_)).trans ?_; try dsimp only) | (refine adminCmd_sec _ _ _ _ ?_; try dsimp only) | simp)

theorem resyncWrite_cpx (a0 : ℕ) (a1 : ℕ) (a2 : List Block) (s : State) : (resyncWrite a0 a1 a2 s).cpx = s.cpx := by
  unfold resyncWrite
  try dsimp only
  repeat' (first | (simp; done) | (have h := appendRec_frame (by assumption); simp [h]; done) | (have h := takeSlot_frame (by assumption); simp [h]; done) | (have h := placePage_frame (by assumption); simp [h]; done) | (have h := placePart_frame (by assumption); simp [h]; done) | split | (refine (forAll_cpx _ _ _ (fun x s => ?_)).trans ?_; try dsimp only) | (refine adminCmd_cpx _ _ _ _ ?_; try dsimp only) | simp)

theorem resyncWrite_memc (a0 : ℕ) (a1 : ℕ) (a2 : List Block) (s : State) : (resyncWrite a0 a1 a2 s).memc = s.memc := by
  unfold resyncWrite
  try dsimp only
  repeat' (first | (simp; done) | (have h := appendRec_frame (by assumption); simp [h]; done) | (have h := takeSlot_frame (by assumption); simp [h]; done) | (have h := placePage_frame (by assumption); simp [h]; done) | (have h := placePart_frame (by assumption); simp [h]; done) | split | (refine (forAll_memc _ _ _ (fun x s => ?_)).trans ?_; try dsimp only) | (refine adminCmd_memc _ _ _ _ ?_; try dsimp only) | simp)

theorem resyncWrite_mov (a0 : ℕ) (a1 : ℕ) (a2 : List Block) (s : State) : (resyncWrite a0 a1 a2 s).mov = s.mov := by
  unfold resyncWrite
  try dsimp only
  repeat' (first | (simp; done) | (have h := appendRec_frame (by assumption); simp [h]; done) | (have h := takeSlot_frame (by assumption); simp [h]; done) | (have h := placePage_frame (by assumption); simp [h]; done) | (have h := placePart_frame (by assumption); simp [h]; done) | split | (refine (forAll_mov _ _ _ (fun x s => ?_)).trans ?_; try dsimp only) | (refine adminCmd_mov _ _ _ _ ?_; try dsimp only) | simp)

theorem resyncWrite_cst (a0 : ℕ) (a1 : ℕ) (a2 : List Block) (s : State) : (resyncWrite a0 a1 a2 s).cst = s.cst := by
  unfold resyncWrite
  try dsimp only
  repeat' (first | (simp; done) | (have h := appendRec_frame (by assumption); simp [h]; done) | (have h := takeSlot_frame (by assumption); simp [h]; done) | (have h := placePage_frame (by assumption); simp [h]; done) | (have h := placePart_frame (by assumption); simp [h]; done) | split | (refine (forAll_cst _ _ _ (fun x s => ?_)).trans ?_; try dsimp only) | (refine adminCmd_cst _ _ _ _ ?_; try dsimp only) | simp)

theorem resyncWrite_freeCtr (a0 : ℕ) (a1 : ℕ) (a2 : List Block) (s : State) : (resyncWrite a0 a1 a2 s).freeCtr = s.freeCtr := by
  unfold resyncWrite
  try dsimp only
  repeat' (first | (simp; done) | (have h := appendRec_frame (by assumption); simp [h]; done) | (have h := takeSlot_frame (by assumption); simp [h]; done) | (have h := placePage_frame (by assumption); simp [h]; done) | (have h := placePart_frame (by assumption); simp [h]; done) | split | (refine (forAll_freeCtr _ _ _ (fun x s => ?_)).trans ?_; try dsimp only) | (refine adminCmd_freeCtr _ _ _ _ ?_; try dsimp only) | simp)

@[simp] theorem resyncWrite_frame (a0 : ℕ) (a1 : ℕ) (a2 : List Block) (s : State) :
    (resyncWrite a0 a1 a2 s).pending = s.pending ∧ (resyncWrite a0 a1 a2 s).latch = s.latch ∧ (resyncWrite a0 a1 a2 s).mem = s.mem ∧ (resyncWrite a0 a1 a2 s).clk = s.clk ∧ (resyncWrite a0 a1 a2 s).thm = s.thm ∧ (resyncWrite a0 a1 a2 s).tck = s.tck ∧ (resyncWrite a0 a1 a2 s).stm = s.stm ∧ (resyncWrite a0 a1 a2 s).bnd = s.bnd ∧ (resyncWrite a0 a1 a2 s).mbr = s.mbr ∧ (resyncWrite a0 a1 a2 s).sec = s.sec ∧ (resyncWrite a0 a1 a2 s).cpx = s.cpx ∧ (resyncWrite a0 a1 a2 s).memc = s.memc ∧ (resyncWrite a0 a1 a2 s).mov = s.mov ∧ (resyncWrite a0 a1 a2 s).cst = s.cst ∧ (resyncWrite a0 a1 a2 s).freeCtr = s.freeCtr :=
  ⟨resyncWrite_pending a0 a1 a2 s, resyncWrite_latch a0 a1 a2 s, resyncWrite_mem a0 a1 a2 s, resyncWrite_clk a0 a1 a2 s, resyncWrite_thm a0 a1 a2 s, resyncWrite_tck a0 a1 a2 s, resyncWrite_stm a0 a1 a2 s, resyncWrite_bnd a0 a1 a2 s, resyncWrite_mbr a0 a1 a2 s, resyncWrite_sec a0 a1 a2 s, resyncWrite_cpx a0 a1 a2 s, resyncWrite_memc a0 a1 a2 s, resyncWrite_mov a0 a1 a2 s, resyncWrite_cst a0 a1 a2 s, resyncWrite_freeCtr a0 a1 a2 s⟩

@[simp] theorem gatherDone_frame (a0 : ℕ) (s : State) :
    (gatherDone a0 s).pending = s.pending ∧ (gatherDone a0 s).latch = s.latch ∧ (gatherDone a0 s).mem = s.mem ∧ (gatherDone a0 s).clk = s.clk ∧ (gatherDone a0 s).thm = s.thm ∧ (gatherDone a0 s).tck = s.tck ∧ (gatherDone a0 s).stm = s.stm ∧ (gatherDone a0 s).bnd = s.bnd ∧ (gatherDone a0 s).mbr = s.mbr ∧ (gatherDone a0 s).sec = s.sec ∧ (gatherDone a0 s).cpx = s.cpx ∧ (gatherDone a0 s).memc = s.memc ∧ (gatherDone a0 s).mov = s.mov ∧ (gatherDone a0 s).cst = s.cst ∧ (gatherDone a0 s).freeCtr = s.freeCtr := by
  unfold gatherDone
  try dsimp only
  first
    | (simp; done)
    | ((repeat' split) <;> simp; done)
    | (and_intros <;> (repeat' (first | (simp; done) | split)))

@[simp] theorem takeElem_frame (a0 : ℕ) (a1 : ℕ) (a2 : Option (List Block)) (s : State) :
    (takeElem a0 a1 a2 s).pending = s.pending ∧ (takeElem a0 a1 a2 s).latch = s.latch ∧ (takeElem a0 a1 a2 s).mem = s.mem ∧ (takeElem a0 a1 a2 s).clk = s.clk ∧ (takeElem a0 a1 a2 s).thm = s.thm ∧ (takeElem a0 a1 a2 s).tck = s.tck ∧ (takeElem a0 a1 a2 s).stm = s.stm ∧ (takeElem a0 a1 a2 s).bnd = s.bnd ∧ (takeElem a0 a1 a2 s).mbr = s.mbr ∧ (takeElem a0 a1 a2 s).sec = s.sec ∧ (takeElem a0 a1 a2 s).cpx = s.cpx ∧ (takeElem a0 a1 a2 s).memc = s.memc ∧ (takeElem a0 a1 a2 s).mov = s.mov ∧ (takeElem a0 a1 a2 s).cst = s.cst ∧ (takeElem a0 a1 a2 s).freeCtr = s.freeCtr := by
  unfold takeElem
  try dsimp only
  first
    | (simp; done)
    | ((repeat' split) <;> simp; done)
    | (and_intros <;> (repeat' (first | (simp; done) | split)))

@[simp] theorem serveStep_frame (s : State) :
    (serveStep s).pending = s.pending ∧ (serveStep s).latch = s.latch ∧ (serveStep s).mem = s.mem ∧ (serveStep s).clk = s.clk ∧ (serveStep s).thm = s.thm ∧ (serveStep s).tck = s.tck ∧ (serveStep s).stm = s.stm ∧ (serveStep s).bnd = s.bnd ∧ (serveStep s).mbr = s.mbr ∧ (serveStep s).sec = s.sec ∧ (serveStep s).cpx = s.cpx ∧ (serveStep s).memc = s.memc ∧ (serveStep s).mov = s.mov ∧ (serveStep s).cst = s.cst ∧ (serveStep s).freeCtr = s.freeCtr := by
  unfold serveStep
  try dsimp only
  first
    | (simp; done)
    | ((repeat' split) <;> simp; done)
    | (and_intros <;> (repeat' (first | (simp; done) | split)))

@[simp] theorem sendIntents_frame (s : State) :
    (sendIntents s).pending = s.pending ∧ (sendIntents s).regs = s.regs ∧ (sendIntents s).latch = s.latch ∧ (sendIntents s).mem = s.mem ∧ (sendIntents s).sys = s.sys ∧ (sendIntents s).clk = s.clk ∧ (sendIntents s).thm = s.thm ∧ (sendIntents s).tck = s.tck ∧ (sendIntents s).hif = s.hif ∧ (sendIntents s).stm = s.stm ∧ (sendIntents s).map = s.map ∧ (sendIntents s).flc = s.flc ∧ (sendIntents s).bnd = s.bnd ∧ (sendIntents s).mbr = s.mbr ∧ (sendIntents s).sec = s.sec ∧ (sendIntents s).cpx = s.cpx ∧ (sendIntents s).memc = s.memc ∧ (sendIntents s).mov = s.mov ∧ (sendIntents s).cst = s.cst ∧ (sendIntents s).lnt = s.lnt ∧ (sendIntents s).freeCtr = s.freeCtr := by
  unfold sendIntents
  try dsimp only
  first
    | (simp; done)
    | ((repeat' split) <;> simp; done)
    | (and_intros <;> (repeat' (first | (simp; done) | split)))

theorem fleetGo_pending (a0 : ℕ) (s : State) : (fleetGo a0 s).pending = s.pending := by
  unfold fleetGo
  try dsimp only
  first
    | (simp; done)
    | ((repeat' split) <;> simp; done)
    | (repeat' (first | (simp; done) | split))

theorem fleetGo_regs (a0 : ℕ) (s : State) : (fleetGo a0 s).regs = s.regs := by
  unfold fleetGo
  try dsimp only
  first
    | (simp; done)
    | ((repeat' split) <;> simp; done)
    | (repeat' (first | (simp; done) | split))

theorem fleetGo_latch (a0 : ℕ) (s : State) : (fleetGo a0 s).latch = s.latch := by
  unfold fleetGo
  try dsimp only
  first
    | (simp; done)
    | ((repeat' split) <;> simp; done)
    | (repeat' (first | (simp; done) | split))

theorem fleetGo_mem (a0 : ℕ) (s : State) : (fleetGo a0 s).mem = s.mem := by
  unfold fleetGo
  try dsimp only
  first
    | (simp; done)
    | ((repeat' split) <;> simp; done)
    | (repeat' (first | (simp; done) | split))

theorem fleetGo_sys (a0 : ℕ) (s : State) : (fleetGo a0 s).sys = s.sys := by
  unfold fleetGo
  try dsimp only
  first
    | (simp; done)
    | ((repeat' split) <;> simp; done)
    | (repeat' (first | (simp; done) | split))

theorem fleetGo_clk (a0 : ℕ) (s : State) : (fleetGo a0 s).clk = s.clk := by
  unfold fleetGo
  try dsimp only
  first
    | (simp; done)
    | ((repeat' split) <;> simp; done)
    | (repeat' (first | (simp; done) | split))

theorem fleetGo_thm (a0 : ℕ) (s : State) : (fleetGo a0 s).thm = s.thm := by
  unfold fleetGo
  try dsimp only
  first
    | (simp; done)
    | ((repeat' split) <;> simp; done)
    | (repeat' (first | (simp; done) | split))

theorem fleetGo_stm (a0 : ℕ) (s : State) : (fleetGo a0 s).stm = s.stm := by
  unfold fleetGo
  try dsimp only
  first
    | (simp; done)
    | ((repeat' split) <;> simp; done)
    | (repeat' (first | (simp; done) | split))

theorem fleetGo_flc (a0 : ℕ) (s : State) : (fleetGo a0 s).flc = s.flc := by
  unfold fleetGo
  try dsimp only
  first
    | (simp; done)
    | ((repeat' split) <;> simp; done)
    | (repeat' (first | (simp; done) | split))

theorem fleetGo_mbr (a0 : ℕ) (s : State) : (fleetGo a0 s).mbr = s.mbr := by
  unfold fleetGo
  try dsimp only
  first
    | (simp; done)
    | ((repeat' split) <;> simp; done)
    | (repeat' (first | (simp; done) | split))

theorem fleetGo_flt (a0 : ℕ) (s : State) : (fleetGo a0 s).flt = s.flt := by
  unfold fleetGo
  try dsimp only
  first
    | (simp; done)
    | ((repeat' split) <;> simp; done)
    | (repeat' (first | (simp; done) | split))

theorem fleetGo_sec (a0 : ℕ) (s : State) : (fleetGo a0 s).sec = s.sec := by
  unfold fleetGo
  try dsimp only
  first
    | (simp; done)
    | ((repeat' split) <;> simp; done)
    | (repeat' (first | (simp; done) | split))

theorem fleetGo_cpx (a0 : ℕ) (s : State) : (fleetGo a0 s).cpx = s.cpx := by
  unfold fleetGo
  try dsimp only
  first
    | (simp; done)
    | ((repeat' split) <;> simp; done)
    | (repeat' (first | (simp; done) | split))

theorem fleetGo_memc (a0 : ℕ) (s : State) : (fleetGo a0 s).memc = s.memc := by
  unfold fleetGo
  try dsimp only
  first
    | (simp; done)
    | ((repeat' split) <;> simp; done)
    | (repeat' (first | (simp; done) | split))

theorem fleetGo_mov (a0 : ℕ) (s : State) : (fleetGo a0 s).mov = s.mov := by
  unfold fleetGo
  try dsimp only
  first
    | (simp; done)
    | ((repeat' split) <;> simp; done)
    | (repeat' (first | (simp; done) | split))

theorem fleetGo_cst (a0 : ℕ) (s : State) : (fleetGo a0 s).cst = s.cst := by
  unfold fleetGo
  try dsimp only
  first
    | (simp; done)
    | ((repeat' split) <;> simp; done)
    | (repeat' (first | (simp; done) | split))

theorem fleetGo_lnt (a0 : ℕ) (s : State) : (fleetGo a0 s).lnt = s.lnt := by
  unfold fleetGo
  try dsimp only
  first
    | (simp; done)
    | ((repeat' split) <;> simp; done)
    | (repeat' (first | (simp; done) | split))

theorem fleetGo_out (a0 : ℕ) (s : State) : (fleetGo a0 s).out = s.out := by
  unfold fleetGo
  try dsimp only
  first
    | (simp; done)
    | ((repeat' split) <;> simp; done)
    | (repeat' (first | (simp; done) | split))

theorem fleetGo_freeCtr (a0 : ℕ) (s : State) : (fleetGo a0 s).freeCtr = s.freeCtr := by
  unfold fleetGo
  try dsimp only
  first
    | (simp; done)
    | ((repeat' split) <;> simp; done)
    | (repeat' (first | (simp; done) | split))

@[simp] theorem fleetGo_frame (a0 : ℕ) (s : State) :
    (fleetGo a0 s).pending = s.pending ∧ (fleetGo a0 s).regs = s.regs ∧ (fleetGo a0 s).latch = s.latch ∧ (fleetGo a0 s).mem = s.mem ∧ (fleetGo a0 s).sys = s.sys ∧ (fleetGo a0 s).clk = s.clk ∧ (fleetGo a0 s).thm = s.thm ∧ (fleetGo a0 s).stm = s.stm ∧ (fleetGo a0 s).flc = s.flc ∧ (fleetGo a0 s).mbr = s.mbr ∧ (fleetGo a0 s).flt = s.flt ∧ (fleetGo a0 s).sec = s.sec ∧ (fleetGo a0 s).cpx = s.cpx ∧ (fleetGo a0 s).memc = s.memc ∧ (fleetGo a0 s).mov = s.mov ∧ (fleetGo a0 s).cst = s.cst ∧ (fleetGo a0 s).lnt = s.lnt ∧ (fleetGo a0 s).out = s.out ∧ (fleetGo a0 s).freeCtr = s.freeCtr :=
  ⟨fleetGo_pending a0 s, fleetGo_regs a0 s, fleetGo_latch a0 s, fleetGo_mem a0 s, fleetGo_sys a0 s, fleetGo_clk a0 s, fleetGo_thm a0 s, fleetGo_stm a0 s, fleetGo_flc a0 s, fleetGo_mbr a0 s, fleetGo_flt a0 s, fleetGo_sec a0 s, fleetGo_cpx a0 s, fleetGo_memc a0 s, fleetGo_mov a0 s, fleetGo_cst a0 s, fleetGo_lnt a0 s, fleetGo_out a0 s, fleetGo_freeCtr a0 s⟩

theorem formDelta_pending (a0 : ℕ) (a1 : Slot) (s : State) : (formDelta a0 a1 s).pending = s.pending := by
  unfold formDelta
  try dsimp only
  first
    | (simp; done)
    | ((repeat' split) <;> simp; done)
    | (repeat' (first | (simp; done) | split))

theorem formDelta_regs (a0 : ℕ) (a1 : Slot) (s : State) : (formDelta a0 a1 s).regs = s.regs := by
  unfold formDelta
  try dsimp only
  first
    | (simp; done)
    | ((repeat' split) <;> simp; done)
    | (repeat' (first | (simp; done) | split))

theorem formDelta_latch (a0 : ℕ) (a1 : Slot) (s : State) : (formDelta a0 a1 s).latch = s.latch := by
  unfold formDelta
  try dsimp only
  first
    | (simp; done)
    | ((repeat' split) <;> simp; done)
    | (repeat' (first | (simp; done) | split))

theorem formDelta_mem (a0 : ℕ) (a1 : Slot) (s : State) : (formDelta a0 a1 s).mem = s.mem := by
  unfold formDelta
  try dsimp only
  first
    | (simp; done)
    | ((repeat' split) <;> simp; done)
    | (repeat' (first | (simp; done) | split))

theorem formDelta_sys (a0 : ℕ) (a1 : Slot) (s : State) : (formDelta a0 a1 s).sys = s.sys := by
  unfold formDelta
  try dsimp only
  first
    | (simp; done)
    | ((repeat' split) <;> simp; done)
    | (repeat' (first | (simp; done) | split))

theorem formDelta_clk (a0 : ℕ) (a1 : Slot) (s : State) : (formDelta a0 a1 s).clk = s.clk := by
  unfold formDelta
  try dsimp only
  first
    | (simp; done)
    | ((repeat' split) <;> simp; done)
    | (repeat' (first | (simp; done) | split))

theorem formDelta_thm (a0 : ℕ) (a1 : Slot) (s : State) : (formDelta a0 a1 s).thm = s.thm := by
  unfold formDelta
  try dsimp only
  first
    | (simp; done)
    | ((repeat' split) <;> simp; done)
    | (repeat' (first | (simp; done) | split))

theorem formDelta_stm (a0 : ℕ) (a1 : Slot) (s : State) : (formDelta a0 a1 s).stm = s.stm := by
  unfold formDelta
  try dsimp only
  first
    | (simp; done)
    | ((repeat' split) <;> simp; done)
    | (repeat' (first | (simp; done) | split))

theorem formDelta_flc (a0 : ℕ) (a1 : Slot) (s : State) : (formDelta a0 a1 s).flc = s.flc := by
  unfold formDelta
  try dsimp only
  first
    | (simp; done)
    | ((repeat' split) <;> simp; done)
    | (repeat' (first | (simp; done) | split))

theorem formDelta_mbr (a0 : ℕ) (a1 : Slot) (s : State) : (formDelta a0 a1 s).mbr = s.mbr := by
  unfold formDelta
  try dsimp only
  first
    | (simp; done)
    | ((repeat' split) <;> simp; done)
    | (repeat' (first | (simp; done) | split))

theorem formDelta_sec (a0 : ℕ) (a1 : Slot) (s : State) : (formDelta a0 a1 s).sec = s.sec := by
  unfold formDelta
  try dsimp only
  first
    | (simp; done)
    | ((repeat' split) <;> simp; done)
    | (repeat' (first | (simp; done) | split))

theorem formDelta_cpx (a0 : ℕ) (a1 : Slot) (s : State) : (formDelta a0 a1 s).cpx = s.cpx := by
  unfold formDelta
  try dsimp only
  first
    | (simp; done)
    | ((repeat' split) <;> simp; done)
    | (repeat' (first | (simp; done) | split))

theorem formDelta_memc (a0 : ℕ) (a1 : Slot) (s : State) : (formDelta a0 a1 s).memc = s.memc := by
  unfold formDelta
  try dsimp only
  first
    | (simp; done)
    | ((repeat' split) <;> simp; done)
    | (repeat' (first | (simp; done) | split))

theorem formDelta_mov (a0 : ℕ) (a1 : Slot) (s : State) : (formDelta a0 a1 s).mov = s.mov := by
  unfold formDelta
  try dsimp only
  first
    | (simp; done)
    | ((repeat' split) <;> simp; done)
    | (repeat' (first | (simp; done) | split))

theorem formDelta_cst (a0 : ℕ) (a1 : Slot) (s : State) : (formDelta a0 a1 s).cst = s.cst := by
  unfold formDelta
  try dsimp only
  first
    | (simp; done)
    | ((repeat' split) <;> simp; done)
    | (repeat' (first | (simp; done) | split))

theorem formDelta_lnt (a0 : ℕ) (a1 : Slot) (s : State) : (formDelta a0 a1 s).lnt = s.lnt := by
  unfold formDelta
  try dsimp only
  first
    | (simp; done)
    | ((repeat' split) <;> simp; done)
    | (repeat' (first | (simp; done) | split))

theorem formDelta_freeCtr (a0 : ℕ) (a1 : Slot) (s : State) : (formDelta a0 a1 s).freeCtr = s.freeCtr := by
  unfold formDelta
  try dsimp only
  first
    | (simp; done)
    | ((repeat' split) <;> simp; done)
    | (repeat' (first | (simp; done) | split))

@[simp] theorem formDelta_frame (a0 : ℕ) (a1 : Slot) (s : State) :
    (formDelta a0 a1 s).pending = s.pending ∧ (formDelta a0 a1 s).regs = s.regs ∧ (formDelta a0 a1 s).latch = s.latch ∧ (formDelta a0 a1 s).mem = s.mem ∧ (formDelta a0 a1 s).sys = s.sys ∧ (formDelta a0 a1 s).clk = s.clk ∧ (formDelta a0 a1 s).thm = s.thm ∧ (formDelta a0 a1 s).stm = s.stm ∧ (formDelta a0 a1 s).flc = s.flc ∧ (formDelta a0 a1 s).mbr = s.mbr ∧ (formDelta a0 a1 s).sec = s.sec ∧ (formDelta a0 a1 s).cpx = s.cpx ∧ (formDelta a0 a1 s).memc = s.memc ∧ (formDelta a0 a1 s).mov = s.mov ∧ (formDelta a0 a1 s).cst = s.cst ∧ (formDelta a0 a1 s).lnt = s.lnt ∧ (formDelta a0 a1 s).freeCtr = s.freeCtr :=
  ⟨formDelta_pending a0 a1 s, formDelta_regs a0 a1 s, formDelta_latch a0 a1 s, formDelta_mem a0 a1 s, formDelta_sys a0 a1 s, formDelta_clk a0 a1 s, formDelta_thm a0 a1 s, formDelta_stm a0 a1 s, formDelta_flc a0 a1 s, formDelta_mbr a0 a1 s, formDelta_sec a0 a1 s, formDelta_cpx a0 a1 s, formDelta_memc a0 a1 s, formDelta_mov a0 a1 s, formDelta_cst a0 a1 s, formDelta_lnt a0 a1 s, formDelta_freeCtr a0 a1 s⟩

theorem readOld_pending (a0 : ℕ) (a1 : Slot) (s : State) : (readOld a0 a1 s).pending = s.pending := by
  unfold readOld
  try dsimp only
  repeat' (first | (simp; done) | (have h := appendRec_frame (by assumption); simp [h]; done) | (have h := takeSlot_frame (by assumption); simp [h]; done) | (have h := placePage_frame (by assumption); simp [h]; done) | (have h := placePart_frame (by assumption); simp [h]; done) | split | (refine (forAll_pending _ _ _ (fun x s => ?_)).trans ?_; try dsimp only) | (refine adminCmd_pending _ _ _ _ ?_; try dsimp only) | simp)

theorem readOld_latch (a0 : ℕ) (a1 : Slot) (s : State) : (readOld a0 a1 s).latch = s.latch := by
  unfold readOld
  try dsimp only
  repeat' (first | (simp; done) | (have h := appendRec_frame (by assumption); simp [h]; done) | (have h := takeSlot_frame (by assumption); simp [h]; done) | (have h := placePage_frame (by assumption); simp [h]; done) | (have h := placePart_frame (by assumption); simp [h]; done) | split | (refine (forAll_latch _ _ _ (fun x s => ?_)).trans ?_; try dsimp only) | (refine adminCmd_latch _ _ _ _ ?_; try dsimp only) | simp)

theorem readOld_mem (a0 : ℕ) (a1 : Slot) (s : State) : (readOld a0 a1 s).mem = s.mem := by
  unfold readOld
  try dsimp only
  repeat' (first | (simp; done) | (have h := appendRec_frame (by assumption); simp [h]; done) | (have h := takeSlot_frame (by assumption); simp [h]; done) | (have h := placePage_frame (by assumption); simp [h]; done) | (have h := placePart_frame (by assumption); simp [h]; done) | split | (refine (forAll_mem _ _ _ (fun x s => ?_)).trans ?_; try dsimp only) | (refine adminCmd_mem _ _ _ _ ?_; try dsimp only) | simp)

theorem readOld_sys (a0 : ℕ) (a1 : Slot) (s : State) : (readOld a0 a1 s).sys = s.sys := by
  unfold readOld
  try dsimp only
  repeat' (first | (simp; done) | (have h := appendRec_frame (by assumption); simp [h]; done) | (have h := takeSlot_frame (by assumption); simp [h]; done) | (have h := placePage_frame (by assumption); simp [h]; done) | (have h := placePart_frame (by assumption); simp [h]; done) | split | (refine (forAll_sys _ _ _ (fun x s => ?_)).trans ?_; try dsimp only) | (refine adminCmd_sys _ _ _ _ ?_; try dsimp only) | simp)

theorem readOld_clk (a0 : ℕ) (a1 : Slot) (s : State) : (readOld a0 a1 s).clk = s.clk := by
  unfold readOld
  try dsimp only
  repeat' (first | (simp; done) | (have h := appendRec_frame (by assumption); simp [h]; done) | (have h := takeSlot_frame (by assumption); simp [h]; done) | (have h := placePage_frame (by assumption); simp [h]; done) | (have h := placePart_frame (by assumption); simp [h]; done) | split | (refine (forAll_clk _ _ _ (fun x s => ?_)).trans ?_; try dsimp only) | (refine adminCmd_clk _ _ _ _ ?_; try dsimp only) | simp)

theorem readOld_thm (a0 : ℕ) (a1 : Slot) (s : State) : (readOld a0 a1 s).thm = s.thm := by
  unfold readOld
  try dsimp only
  repeat' (first | (simp; done) | (have h := appendRec_frame (by assumption); simp [h]; done) | (have h := takeSlot_frame (by assumption); simp [h]; done) | (have h := placePage_frame (by assumption); simp [h]; done) | (have h := placePart_frame (by assumption); simp [h]; done) | split | (refine (forAll_thm _ _ _ (fun x s => ?_)).trans ?_; try dsimp only) | (refine adminCmd_thm _ _ _ _ ?_; try dsimp only) | simp)

theorem readOld_tck (a0 : ℕ) (a1 : Slot) (s : State) : (readOld a0 a1 s).tck = s.tck := by
  unfold readOld
  try dsimp only
  repeat' (first | (simp; done) | (have h := appendRec_frame (by assumption); simp [h]; done) | (have h := takeSlot_frame (by assumption); simp [h]; done) | (have h := placePage_frame (by assumption); simp [h]; done) | (have h := placePart_frame (by assumption); simp [h]; done) | split | (refine (forAll_tck _ _ _ (fun x s => ?_)).trans ?_; try dsimp only) | (refine adminCmd_tck _ _ _ _ ?_; try dsimp only) | simp)

theorem readOld_stm (a0 : ℕ) (a1 : Slot) (s : State) : (readOld a0 a1 s).stm = s.stm := by
  unfold readOld
  try dsimp only
  repeat' (first | (simp; done) | (have h := appendRec_frame (by assumption); simp [h]; done) | (have h := takeSlot_frame (by assumption); simp [h]; done) | (have h := placePage_frame (by assumption); simp [h]; done) | (have h := placePart_frame (by assumption); simp [h]; done) | split | (refine (forAll_stm _ _ _ (fun x s => ?_)).trans ?_; try dsimp only) | (refine adminCmd_stm _ _ _ _ ?_; try dsimp only) | simp)

theorem readOld_bnd (a0 : ℕ) (a1 : Slot) (s : State) : (readOld a0 a1 s).bnd = s.bnd := by
  unfold readOld
  try dsimp only
  repeat' (first | (simp; done) | (have h := appendRec_frame (by assumption); simp [h]; done) | (have h := takeSlot_frame (by assumption); simp [h]; done) | (have h := placePage_frame (by assumption); simp [h]; done) | (have h := placePart_frame (by assumption); simp [h]; done) | split | (refine (forAll_bnd _ _ _ (fun x s => ?_)).trans ?_; try dsimp only) | (refine adminCmd_bnd _ _ _ _ ?_; try dsimp only) | simp)

theorem readOld_mbr (a0 : ℕ) (a1 : Slot) (s : State) : (readOld a0 a1 s).mbr = s.mbr := by
  unfold readOld
  try dsimp only
  repeat' (first | (simp; done) | (have h := appendRec_frame (by assumption); simp [h]; done) | (have h := takeSlot_frame (by assumption); simp [h]; done) | (have h := placePage_frame (by assumption); simp [h]; done) | (have h := placePart_frame (by assumption); simp [h]; done) | split | (refine (forAll_mbr _ _ _ (fun x s => ?_)).trans ?_; try dsimp only) | (refine adminCmd_mbr _ _ _ _ ?_; try dsimp only) | simp)

theorem readOld_flt (a0 : ℕ) (a1 : Slot) (s : State) : (readOld a0 a1 s).flt = s.flt := by
  unfold readOld
  try dsimp only
  repeat' (first | (simp; done) | (have h := appendRec_frame (by assumption); simp [h]; done) | (have h := takeSlot_frame (by assumption); simp [h]; done) | (have h := placePage_frame (by assumption); simp [h]; done) | (have h := placePart_frame (by assumption); simp [h]; done) | split | (refine (forAll_flt _ _ _ (fun x s => ?_)).trans ?_; try dsimp only) | (refine adminCmd_flt _ _ _ _ ?_; try dsimp only) | simp)

theorem readOld_sec (a0 : ℕ) (a1 : Slot) (s : State) : (readOld a0 a1 s).sec = s.sec := by
  unfold readOld
  try dsimp only
  repeat' (first | (simp; done) | (have h := appendRec_frame (by assumption); simp [h]; done) | (have h := takeSlot_frame (by assumption); simp [h]; done) | (have h := placePage_frame (by assumption); simp [h]; done) | (have h := placePart_frame (by assumption); simp [h]; done) | split | (refine (forAll_sec _ _ _ (fun x s => ?_)).trans ?_; try dsimp only) | (refine adminCmd_sec _ _ _ _ ?_; try dsimp only) | simp)

theorem readOld_cpx (a0 : ℕ) (a1 : Slot) (s : State) : (readOld a0 a1 s).cpx = s.cpx := by
  unfold readOld
  try dsimp only
  repeat' (first | (simp; done) | (have h := appendRec_frame (by assumption); simp [h]; done) | (have h := takeSlot_frame (by assumption); simp [h]; done) | (have h := placePage_frame (by assumption); simp [h]; done) | (have h := placePart_frame (by assumption); simp [h]; done) | split | (refine (forAll_cpx _ _ _ (fun x s => ?_)).trans ?_; try dsimp only) | (refine adminCmd_cpx _ _ _ _ ?_; try dsimp only) | simp)

theorem readOld_memc (a0 : ℕ) (a1 : Slot) (s : State) : (readOld a0 a1 s).memc = s.memc := by
  unfold readOld
  try dsimp only
  repeat' (first | (simp; done) | (have h := appendRec_frame (by assumption); simp [h]; done) | (have h := takeSlot_frame (by assumption); simp [h]; done) | (have h := placePage_frame (by assumption); simp [h]; done) | (have h := placePart_frame (by assumption); simp [h]; done) | split | (refine (forAll_memc _ _ _ (fun x s => ?_)).trans ?_; try dsimp only) | (refine adminCmd_memc _ _ _ _ ?_; try dsimp only) | simp)

theorem readOld_mov (a0 : ℕ) (a1 : Slot) (s : State) : (readOld a0 a1 s).mov = s.mov := by
  unfold readOld
  try dsimp only
  repeat' (first | (simp; done) | (have h := appendRec_frame (by assumption); simp [h]; done) | (have h := takeSlot_frame (by assumption); simp [h]; done) | (have h := placePage_frame (by assumption); simp [h]; done) | (have h := placePart_frame (by assumption); simp [h]; done) | split | (refine (forAll_mov _ _ _ (fun x s => ?_)).trans ?_; try dsimp only) | (refine adminCmd_mov _ _ _ _ ?_; try dsimp only) | simp)

theorem readOld_cst (a0 : ℕ) (a1 : Slot) (s : State) : (readOld a0 a1 s).cst = s.cst := by
  unfold readOld
  try dsimp only
  repeat' (first | (simp; done) | (have h := appendRec_frame (by assumption); simp [h]; done) | (have h := takeSlot_frame (by assumption); simp [h]; done) | (have h := placePage_frame (by assumption); simp [h]; done) | (have h := placePart_frame (by assumption); simp [h]; done) | split | (refine (forAll_cst _ _ _ (fun x s => ?_)).trans ?_; try dsimp only) | (refine adminCmd_cst _ _ _ _ ?_; try dsimp only) | simp)

theorem readOld_lnt (a0 : ℕ) (a1 : Slot) (s : State) : (readOld a0 a1 s).lnt = s.lnt := by
  unfold readOld
  try dsimp only
  repeat' (first | (simp; done) | (have h := appendRec_frame (by assumption); simp [h]; done) | (have h := takeSlot_frame (by assumption); simp [h]; done) | (have h := placePage_frame (by assumption); simp [h]; done) | (have h := placePart_frame (by assumption); simp [h]; done) | split | (refine (forAll_lnt _ _ _ (fun x s => ?_)).trans ?_; try dsimp only) | simp)

theorem readOld_out (a0 : ℕ) (a1 : Slot) (s : State) : (readOld a0 a1 s).out = s.out := by
  unfold readOld
  try dsimp only
  repeat' (first | (simp; done) | (have h := appendRec_frame (by assumption); simp [h]; done) | (have h := takeSlot_frame (by assumption); simp [h]; done) | (have h := placePage_frame (by assumption); simp [h]; done) | (have h := placePart_frame (by assumption); simp [h]; done) | split | (refine (forAll_out _ _ _ (fun x s => ?_)).trans ?_; try dsimp only) | simp)

theorem readOld_freeCtr (a0 : ℕ) (a1 : Slot) (s : State) : (readOld a0 a1 s).freeCtr = s.freeCtr := by
  unfold readOld
  try dsimp only
  repeat' (first | (simp; done) | (have h := appendRec_frame (by assumption); simp [h]; done) | (have h := takeSlot_frame (by assumption); simp [h]; done) | (have h := placePage_frame (by assumption); simp [h]; done) | (have h := placePart_frame (by assumption); simp [h]; done) | split | (refine (forAll_freeCtr _ _ _ (fun x s => ?_)).trans ?_; try dsimp only) | (refine adminCmd_freeCtr _ _ _ _ ?_; try dsimp only) | simp)

@[simp] theorem readOld_frame (a0 : ℕ) (a1 : Slot) (s : State) :
    (readOld a0 a1 s).pending = s.pending ∧ (readOld a0 a1 s).latch = s.latch ∧ (readOld a0 a1 s).mem = s.mem ∧ (readOld a0 a1 s).sys = s.sys ∧ (readOld a0 a1 s).clk = s.clk ∧ (readOld a0 a1 s).thm = s.thm ∧ (readOld a0 a1 s).tck = s.tck ∧ (readOld a0 a1 s).stm = s.stm ∧ (readOld a0 a1 s).bnd = s.bnd ∧ (readOld a0 a1 s).mbr = s.mbr ∧ (readOld a0 a1 s).flt = s.flt ∧ (readOld a0 a1 s).sec = s.sec ∧ (readOld a0 a1 s).cpx = s.cpx ∧ (readOld a0 a1 s).memc = s.memc ∧ (readOld a0 a1 s).mov = s.mov ∧ (readOld a0 a1 s).cst = s.cst ∧ (readOld a0 a1 s).lnt = s.lnt ∧ (readOld a0 a1 s).out = s.out ∧ (readOld a0 a1 s).freeCtr = s.freeCtr :=
  ⟨readOld_pending a0 a1 s, readOld_latch a0 a1 s, readOld_mem a0 a1 s, readOld_sys a0 a1 s, readOld_clk a0 a1 s, readOld_thm a0 a1 s, readOld_tck a0 a1 s, readOld_stm a0 a1 s, readOld_bnd a0 a1 s, readOld_mbr a0 a1 s, readOld_flt a0 a1 s, readOld_sec a0 a1 s, readOld_cpx a0 a1 s, readOld_memc a0 a1 s, readOld_mov a0 a1 s, readOld_cst a0 a1 s, readOld_lnt a0 a1 s, readOld_out a0 a1 s, readOld_freeCtr a0 a1 s⟩

theorem deltaStep_pending (s : State) : (deltaStep s).pending = s.pending := by
  unfold deltaStep
  try dsimp only
  first
    | (simp; done)
    | ((repeat' split) <;> simp; done)
    | (repeat' (first | (simp; done) | split))

theorem deltaStep_regs (s : State) : (deltaStep s).regs = s.regs := by
  unfold deltaStep
  try dsimp only
  first
    | (simp; done)
    | ((repeat' split) <;> simp; done)
    | (repeat' (first | (simp; done) | split))

theorem deltaStep_latch (s : State) : (deltaStep s).latch = s.latch := by
  unfold deltaStep
  try dsimp only
  first
    | (simp; done)
    | ((repeat' split) <;> simp; done)
    | (repeat' (first | (simp; done) | split))

theorem deltaStep_mem (s : State) : (deltaStep s).mem = s.mem := by
  unfold deltaStep
  try dsimp only
  first
    | (simp; done)
    | ((repeat' split) <;> simp; done)
    | (repeat' (first | (simp; done) | split))

theorem deltaStep_sys (s : State) : (deltaStep s).sys = s.sys := by
  unfold deltaStep
  try dsimp only
  first
    | (simp; done)
    | ((repeat' split) <;> simp; done)
    | (repeat' (first | (simp; done) | split))

theorem deltaStep_clk (s : State) : (deltaStep s).clk = s.clk := by
  unfold deltaStep
  try dsimp only
  first
    | (simp; done)
    | ((repeat' split) <;> simp; done)
    | (repeat' (first | (simp; done) | split))

theorem deltaStep_thm (s : State) : (deltaStep s).thm = s.thm := by
  unfold deltaStep
  try dsimp only
  first
    | (simp; done)
    | ((repeat' split) <;> simp; done)
    | (repeat' (first | (simp; done) | split))

theorem deltaStep_stm (s : State) : (deltaStep s).stm = s.stm := by
  unfold deltaStep
  try dsimp only
  first
    | (simp; done)
    | ((repeat' split) <;> simp; done)
    | (repeat' (first | (simp; done) | split))

theorem deltaStep_flc (s : State) : (deltaStep s).flc = s.flc := by
  unfold deltaStep
  try dsimp only
  first
    | (simp; done)
    | ((repeat' split) <;> simp; done)
    | (repeat' (first | (simp; done) | split))

theorem deltaStep_mbr (s : State) : (deltaStep s).mbr = s.mbr := by
  unfold deltaStep
  try dsimp only
  first
    | (simp; done)
    | ((repeat' split) <;> simp; done)
    | (repeat' (first | (simp; done) | split))

theorem deltaStep_sec (s : State) : (deltaStep s).sec = s.sec := by
  unfold deltaStep
  try dsimp only
  first
    | (simp; done)
    | ((repeat' split) <;> simp; done)
    | (repeat' (first | (simp; done) | split))

theorem deltaStep_cpx (s : State) : (deltaStep s).cpx = s.cpx := by
  unfold deltaStep
  try dsimp only
  first
    | (simp; done)
    | ((repeat' split) <;> simp; done)
    | (repeat' (first | (simp; done) | split))

theorem deltaStep_memc (s : State) : (deltaStep s).memc = s.memc := by
  unfold deltaStep
  try dsimp only
  first
    | (simp; done)
    | ((repeat' split) <;> simp; done)
    | (repeat' (first | (simp; done) | split))

theorem deltaStep_mov (s : State) : (deltaStep s).mov = s.mov := by
  unfold deltaStep
  try dsimp only
  first
    | (simp; done)
    | ((repeat' split) <;> simp; done)
    | (repeat' (first | (simp; done) | split))

theorem deltaStep_cst (s : State) : (deltaStep s).cst = s.cst := by
  unfold deltaStep
  try dsimp only
  first
    | (simp; done)
    | ((repeat' split) <;> simp; done)
    | (repeat' (first | (simp; done) | split))

theorem deltaStep_lnt (s : State) : (deltaStep s).lnt = s.lnt := by
  unfold deltaStep
  try dsimp only
  first
    | (simp; done)
    | ((repeat' split) <;> simp; done)
    | (repeat' (first | (simp; done) | split))

theorem deltaStep_freeCtr (s : State) : (deltaStep s).freeCtr = s.freeCtr := by
  unfold deltaStep
  try dsimp only
  first
    | (simp; done)
    | ((repeat' split) <;> simp; done)
    | (repeat' (first | (simp; done) | split))

@[simp] theorem deltaStep_frame (s : State) :
    (deltaStep s).pending = s.pending ∧ (deltaStep s).regs = s.regs ∧ (deltaStep s).latch = s.latch ∧ (deltaStep s).mem = s.mem ∧ (deltaStep s).sys = s.sys ∧ (deltaStep s).clk = s.clk ∧ (deltaStep s).thm = s.thm ∧ (deltaStep s).stm = s.stm ∧ (deltaStep s).flc = s.flc ∧ (deltaStep s).mbr = s.mbr ∧ (deltaStep s).sec = s.sec ∧ (deltaStep s).cpx = s.cpx ∧ (deltaStep s).memc = s.memc ∧ (deltaStep s).mov = s.mov ∧ (deltaStep s).cst = s.cst ∧ (deltaStep s).lnt = s.lnt ∧ (deltaStep s).freeCtr = s.freeCtr :=
  ⟨deltaStep_pending s, deltaStep_regs s, deltaStep_latch s, deltaStep_mem s, deltaStep_sys s, deltaStep_clk s, deltaStep_thm s, deltaStep_stm s, deltaStep_flc s, deltaStep_mbr s, deltaStep_sec s, deltaStep_cpx s, deltaStep_memc s, deltaStep_mov s, deltaStep_cst s, deltaStep_lnt s, deltaStep_freeCtr s⟩

@[simp] theorem markStale_frame (a0 : ℕ) (a1 : ℕ) (s : State) :
    (markStale a0 a1 s).pending = s.pending ∧ (markStale a0 a1 s).latch = s.latch ∧ (markStale a0 a1 s).mem = s.mem ∧ (markStale a0 a1 s).clk = s.clk ∧ (markStale a0 a1 s).thm = s.thm ∧ (markStale a0 a1 s).tck = s.tck ∧ (markStale a0 a1 s).hif = s.hif ∧ (markStale a0 a1 s).stm = s.stm ∧ (markStale a0 a1 s).map = s.map ∧ (markStale a0 a1 s).flc = s.flc ∧ (markStale a0 a1 s).bnd = s.bnd ∧ (markStale a0 a1 s).mbr = s.mbr ∧ (markStale a0 a1 s).sec = s.sec ∧ (markStale a0 a1 s).cpx = s.cpx ∧ (markStale a0 a1 s).memc = s.memc ∧ (markStale a0 a1 s).mov = s.mov ∧ (markStale a0 a1 s).cst = s.cst ∧ (markStale a0 a1 s).out = s.out ∧ (markStale a0 a1 s).freeCtr = s.freeCtr := by
  unfold markStale
  try dsimp only
  first
    | (simp; done)
    | ((repeat' split) <;> simp; done)
    | (and_intros <;> (repeat' (first | (simp; done) | split)))

theorem failedStep_pending (s : State) : (failedStep s).pending = s.pending := by
  unfold failedStep
  try dsimp only
  repeat' (first | (simp; done) | (have h := appendRec_frame (by assumption); simp [h]; done) | (have h := takeSlot_frame (by assumption); simp [h]; done) | (have h := placePage_frame (by assumption); simp [h]; done) | (have h := placePart_frame (by assumption); simp [h]; done) | split | (refine (forAll_pending _ _ _ (fun x s => ?_)).trans ?_; try dsimp only) | (refine adminCmd_pending _ _ _ _ ?_; try dsimp only) | simp)

theorem failedStep_latch (s : State) : (failedStep s).latch = s.latch := by
  unfold failedStep
  try dsimp only
  repeat' (first | (simp; done) | (have h := appendRec_frame (by assumption); simp [h]; done) | (have h := takeSlot_frame (by assumption); simp [h]; done) | (have h := placePage_frame (by assumption); simp [h]; done) | (have h := placePart_frame (by assumption); simp [h]; done) | split | (refine (forAll_latch _ _ _ (fun x s => ?_)).trans ?_; try dsimp only) | (refine adminCmd_latch _ _ _ _ ?_; try dsimp only) | simp)

theorem failedStep_mem (s : State) : (failedStep s).mem = s.mem := by
  unfold failedStep
  try dsimp only
  repeat' (first | (simp; done) | (have h := appendRec_frame (by assumption); simp [h]; done) | (have h := takeSlot_frame (by assumption); simp [h]; done) | (have h := placePage_frame (by assumption); simp [h]; done) | (have h := placePart_frame (by assumption); simp [h]; done) | split | (refine (forAll_mem _ _ _ (fun x s => ?_)).trans ?_; try dsimp only) | (refine adminCmd_mem _ _ _ _ ?_; try dsimp only) | simp)

theorem failedStep_clk (s : State) : (failedStep s).clk = s.clk := by
  unfold failedStep
  try dsimp only
  repeat' (first | (simp; done) | (have h := appendRec_frame (by assumption); simp [h]; done) | (have h := takeSlot_frame (by assumption); simp [h]; done) | (have h := placePage_frame (by assumption); simp [h]; done) | (have h := placePart_frame (by assumption); simp [h]; done) | split | (refine (forAll_clk _ _ _ (fun x s => ?_)).trans ?_; try dsimp only) | (refine adminCmd_clk _ _ _ _ ?_; try dsimp only) | simp)

theorem failedStep_thm (s : State) : (failedStep s).thm = s.thm := by
  unfold failedStep
  try dsimp only
  repeat' (first | (simp; done) | (have h := appendRec_frame (by assumption); simp [h]; done) | (have h := takeSlot_frame (by assumption); simp [h]; done) | (have h := placePage_frame (by assumption); simp [h]; done) | (have h := placePart_frame (by assumption); simp [h]; done) | split | (refine (forAll_thm _ _ _ (fun x s => ?_)).trans ?_; try dsimp only) | (refine adminCmd_thm _ _ _ _ ?_; try dsimp only) | simp)

theorem failedStep_tck (s : State) : (failedStep s).tck = s.tck := by
  unfold failedStep
  try dsimp only
  repeat' (first | (simp; done) | (have h := appendRec_frame (by assumption); simp [h]; done) | (have h := takeSlot_frame (by assumption); simp [h]; done) | (have h := placePage_frame (by assumption); simp [h]; done) | (have h := placePart_frame (by assumption); simp [h]; done) | split | (refine (forAll_tck _ _ _ (fun x s => ?_)).trans ?_; try dsimp only) | (refine adminCmd_tck _ _ _ _ ?_; try dsimp only) | simp)

theorem failedStep_flc (s : State) : (failedStep s).flc = s.flc := by
  unfold failedStep
  try dsimp only
  repeat' (first | (simp; done) | (have h := appendRec_frame (by assumption); simp [h]; done) | (have h := takeSlot_frame (by assumption); simp [h]; done) | (have h := placePage_frame (by assumption); simp [h]; done) | (have h := placePart_frame (by assumption); simp [h]; done) | split | (refine (forAll_flc _ _ _ (fun x s => ?_)).trans ?_; try dsimp only) | (refine adminCmd_flc _ _ _ _ ?_; try dsimp only) | simp)

theorem failedStep_bnd (s : State) : (failedStep s).bnd = s.bnd := by
  unfold failedStep
  try dsimp only
  repeat' (first | (simp; done) | (have h := appendRec_frame (by assumption); simp [h]; done) | (have h := takeSlot_frame (by assumption); simp [h]; done) | (have h := placePage_frame (by assumption); simp [h]; done) | (have h := placePart_frame (by assumption); simp [h]; done) | split | (refine (forAll_bnd _ _ _ (fun x s => ?_)).trans ?_; try dsimp only) | (refine adminCmd_bnd _ _ _ _ ?_; try dsimp only) | simp)

theorem failedStep_mbr (s : State) : (failedStep s).mbr = s.mbr := by
  unfold failedStep
  try dsimp only
  repeat' (first | (simp; done) | (have h := appendRec_frame (by assumption); simp [h]; done) | (have h := takeSlot_frame (by assumption); simp [h]; done) | (have h := placePage_frame (by assumption); simp [h]; done) | (have h := placePart_frame (by assumption); simp [h]; done) | split | (refine (forAll_mbr _ _ _ (fun x s => ?_)).trans ?_; try dsimp only) | (refine adminCmd_mbr _ _ _ _ ?_; try dsimp only) | simp)

theorem failedStep_sec (s : State) : (failedStep s).sec = s.sec := by
  unfold failedStep
  try dsimp only
  repeat' (first | (simp; done) | (have h := appendRec_frame (by assumption); simp [h]; done) | (have h := takeSlot_frame (by assumption); simp [h]; done) | (have h := placePage_frame (by assumption); simp [h]; done) | (have h := placePart_frame (by assumption); simp [h]; done) | split | (refine (forAll_sec _ _ _ (fun x s => ?_)).trans ?_; try dsimp only) | (refine adminCmd_sec _ _ _ _ ?_; try dsimp only) | simp)

theorem failedStep_cpx (s : State) : (failedStep s).cpx = s.cpx := by
  unfold failedStep
  try dsimp only
  repeat' (first | (simp; done) | (have h := appendRec_frame (by assumption); simp [h]; done) | (have h := takeSlot_frame (by assumption); simp [h]; done) | (have h := placePage_frame (by assumption); simp [h]; done) | (have h := placePart_frame (by assumption); simp [h]; done) | split | (refine (forAll_cpx _ _ _ (fun x s => ?_)).trans ?_; try dsimp only) | (refine adminCmd_cpx _ _ _ _ ?_; try dsimp only) | simp)

theorem failedStep_memc (s : State) : (failedStep s).memc = s.memc := by
  unfold failedStep
  try dsimp only
  repeat' (first | (simp; done) | (have h := appendRec_frame (by assumption); simp [h]; done) | (have h := takeSlot_frame (by assumption); simp [h]; done) | (have h := placePage_frame (by assumption); simp [h]; done) | (have h := placePart_frame (by assumption); simp [h]; done) | split | (refine (forAll_memc _ _ _ (fun x s => ?_)).trans ?_; try dsimp only) | (refine adminCmd_memc _ _ _ _ ?_; try dsimp only) | simp)

theorem failedStep_mov (s : State) : (failedStep s).mov = s.mov := by
  unfold failedStep
  try dsimp only
  repeat' (first | (simp; done) | (have h := appendRec_frame (by assumption); simp [h]; done) | (have h := takeSlot_frame (by assumption); simp [h]; done) | (have h := placePage_frame (by assumption); simp [h]; done) | (have h := placePart_frame (by assumption); simp [h]; done) | split | (refine (forAll_mov _ _ _ (fun x s => ?_)).trans ?_; try dsimp only) | (refine adminCmd_mov _ _ _ _ ?_; try dsimp only) | simp)

theorem failedStep_cst (s : State) : (failedStep s).cst = s.cst := by
  unfold failedStep
  try dsimp only
  repeat' (first | (simp; done) | (have h := appendRec_frame (by assumption); simp [h]; done) | (have h := takeSlot_frame (by assumption); simp [h]; done) | (have h := placePage_frame (by assumption); simp [h]; done) | (have h := placePart_frame (by assumption); simp [h]; done) | split | (refine (forAll_cst _ _ _ (fun x s => ?_)).trans ?_; try dsimp only) | (refine adminCmd_cst _ _ _ _ ?_; try dsimp only) | simp)

theorem failedStep_freeCtr (s : State) : (failedStep s).freeCtr = s.freeCtr := by
  unfold failedStep
  try dsimp only
  repeat' (first | (simp; done) | (have h := appendRec_frame (by assumption); simp [h]; done) | (have h := takeSlot_frame (by assumption); simp [h]; done) | (have h := placePage_frame (by assumption); simp [h]; done) | (have h := placePart_frame (by assumption); simp [h]; done) | split | (refine (forAll_freeCtr _ _ _ (fun x s => ?_)).trans ?_; try dsimp only) | (refine adminCmd_freeCtr _ _ _ _ ?_; try dsimp only) | simp)

@[simp] theorem failedStep_frame (s : State) :
    (failedStep s).pending = s.pending ∧ (failedStep s).latch = s.latch ∧ (failedStep s).mem = s.mem ∧ (failedStep s).clk = s.clk ∧ (failedStep s).thm = s.thm ∧ (failedStep s).tck = s.tck ∧ (failedStep s).flc = s.flc ∧ (failedStep s).bnd = s.bnd ∧ (failedStep s).mbr = s.mbr ∧ (failedStep s).sec = s.sec ∧ (failedStep s).cpx = s.cpx ∧ (failedStep s).memc = s.memc ∧ (failedStep s).mov = s.mov ∧ (failedStep s).cst = s.cst ∧ (failedStep s).freeCtr = s.freeCtr :=
  ⟨failedStep_pending s, failedStep_latch s, failedStep_mem s, failedStep_clk s, failedStep_thm s, failedStep_tck s, failedStep_flc s, failedStep_bnd s, failedStep_mbr s, failedStep_sec s, failedStep_cpx s, failedStep_memc s, failedStep_mov s, failedStep_cst s, failedStep_freeCtr s⟩

theorem foldStep_pending (s : State) : (foldStep s).pending = s.pending := by
  unfold foldStep
  try dsimp only
  repeat' (first | (simp; done) | (have h := appendRec_frame (by assumption); simp [h]; done) | (have h := takeSlot_frame (by assumption); simp [h]; done) | (have h := placePage_frame (by assumption); simp [h]; done) | (have h := placePart_frame (by assumption); simp [h]; done) | split | (refine (forAll_pending _ _ _ (fun x s => ?_)).trans ?_; try dsimp only) | (refine adminCmd_pending _ _ _ _ ?_; try dsimp only) | simp)

theorem foldStep_latch (s : State) : (foldStep s).latch = s.latch := by
  unfold foldStep
  try dsimp only
  repeat' (first | (simp; done) | (have h := appendRec_frame (by assumption); simp [h]; done) | (have h := takeSlot_frame (by assumption); simp [h]; done) | (have h := placePage_frame (by assumption); simp [h]; done) | (have h := placePart_frame (by assumption); simp [h]; done) | split | (refine (forAll_latch _ _ _ (fun x s => ?_)).trans ?_; try dsimp only) | (refine adminCmd_latch _ _ _ _ ?_; try dsimp only) | simp)

theorem foldStep_mem (s : State) : (foldStep s).mem = s.mem := by
  unfold foldStep
  try dsimp only
  repeat' (first | (simp; done) | (have h := appendRec_frame (by assumption); simp [h]; done) | (have h := takeSlot_frame (by assumption); simp [h]; done) | (have h := placePage_frame (by assumption); simp [h]; done) | (have h := placePart_frame (by assumption); simp [h]; done) | split | (refine (forAll_mem _ _ _ (fun x s => ?_)).trans ?_; try dsimp only) | (refine adminCmd_mem _ _ _ _ ?_; try dsimp only) | simp)

theorem foldStep_sys (s : State) : (foldStep s).sys = s.sys := by
  unfold foldStep
  try dsimp only
  repeat' (first | (simp; done) | (have h := appendRec_frame (by assumption); simp [h]; done) | (have h := takeSlot_frame (by assumption); simp [h]; done) | (have h := placePage_frame (by assumption); simp [h]; done) | (have h := placePart_frame (by assumption); simp [h]; done) | split | (refine (forAll_sys _ _ _ (fun x s => ?_)).trans ?_; try dsimp only) | (refine adminCmd_sys _ _ _ _ ?_; try dsimp only) | simp)

theorem foldStep_clk (s : State) : (foldStep s).clk = s.clk := by
  unfold foldStep
  try dsimp only
  repeat' (first | (simp; done) | (have h := appendRec_frame (by assumption); simp [h]; done) | (have h := takeSlot_frame (by assumption); simp [h]; done) | (have h := placePage_frame (by assumption); simp [h]; done) | (have h := placePart_frame (by assumption); simp [h]; done) | split | (refine (forAll_clk _ _ _ (fun x s => ?_)).trans ?_; try dsimp only) | (refine adminCmd_clk _ _ _ _ ?_; try dsimp only) | simp)

theorem foldStep_thm (s : State) : (foldStep s).thm = s.thm := by
  unfold foldStep
  try dsimp only
  repeat' (first | (simp; done) | (have h := appendRec_frame (by assumption); simp [h]; done) | (have h := takeSlot_frame (by assumption); simp [h]; done) | (have h := placePage_frame (by assumption); simp [h]; done) | (have h := placePart_frame (by assumption); simp [h]; done) | split | (refine (forAll_thm _ _ _ (fun x s => ?_)).trans ?_; try dsimp only) | (refine adminCmd_thm _ _ _ _ ?_; try dsimp only) | simp)

theorem foldStep_tck (s : State) : (foldStep s).tck = s.tck := by
  unfold foldStep
  try dsimp only
  repeat' (first | (simp; done) | (have h := appendRec_frame (by assumption); simp [h]; done) | (have h := takeSlot_frame (by assumption); simp [h]; done) | (have h := placePage_frame (by assumption); simp [h]; done) | (have h := placePart_frame (by assumption); simp [h]; done) | split | (refine (forAll_tck _ _ _ (fun x s => ?_)).trans ?_; try dsimp only) | (refine adminCmd_tck _ _ _ _ ?_; try dsimp only) | simp)

theorem foldStep_stm (s : State) : (foldStep s).stm = s.stm := by
  unfold foldStep
  try dsimp only
  repeat' (first | (simp; done) | (have h := appendRec_frame (by assumption); simp [h]; done) | (have h := takeSlot_frame (by assumption); simp [h]; done) | (have h := placePage_frame (by assumption); simp [h]; done) | (have h := placePart_frame (by assumption); simp [h]; done) | split | (refine (forAll_stm _ _ _ (fun x s => ?_)).trans ?_; try dsimp only) | (refine adminCmd_stm _ _ _ _ ?_; try dsimp only) | simp)

theorem foldStep_bnd (s : State) : (foldStep s).bnd = s.bnd := by
  unfold foldStep
  try dsimp only
  repeat' (first | (simp; done) | (have h := appendRec_frame (by assumption); simp [h]; done) | (have h := takeSlot_frame (by assumption); simp [h]; done) | (have h := placePage_frame (by assumption); simp [h]; done) | (have h := placePart_frame (by assumption); simp [h]; done) | split | (refine (forAll_bnd _ _ _ (fun x s => ?_)).trans ?_; try dsimp only) | (refine adminCmd_bnd _ _ _ _ ?_; try dsimp only) | simp)

theorem foldStep_mbr (s : State) : (foldStep s).mbr = s.mbr := by
  unfold foldStep
  try dsimp only
  repeat' (first | (simp; done) | (have h := appendRec_frame (by assumption); simp [h]; done) | (have h := takeSlot_frame (by assumption); simp [h]; done) | (have h := placePage_frame (by assumption); simp [h]; done) | (have h := placePart_frame (by assumption); simp [h]; done) | split | (refine (forAll_mbr _ _ _ (fun x s => ?_)).trans ?_; try dsimp only) | (refine adminCmd_mbr _ _ _ _ ?_; try dsimp only) | simp)

theorem foldStep_sec (s : State) : (foldStep s).sec = s.sec := by
  unfold foldStep
  try dsimp only
  repeat' (first | (simp; done) | (have h := appendRec_frame (by assumption); simp [h]; done) | (have h := takeSlot_frame (by assumption); simp [h]; done) | (have h := placePage_frame (by assumption); simp [h]; done) | (have h := placePart_frame (by assumption); simp [h]; done) | split | (refine (forAll_sec _ _ _ (fun x s => ?_)).trans ?_; try dsimp only) | (refine adminCmd_sec _ _ _ _ ?_; try dsimp only) | simp)

theorem foldStep_cpx (s : State) : (foldStep s).cpx = s.cpx := by
  unfold foldStep
  try dsimp only
  repeat' (first | (simp; done) | (have h := appendRec_frame (by assumption); simp [h]; done) | (have h := takeSlot_frame (by assumption); simp [h]; done) | (have h := placePage_frame (by assumption); simp [h]; done) | (have h := placePart_frame (by assumption); simp [h]; done) | split | (refine (forAll_cpx _ _ _ (fun x s => ?_)).trans ?_; try dsimp only) | (refine adminCmd_cpx _ _ _ _ ?_; try dsimp only) | simp)

theorem foldStep_memc (s : State) : (foldStep s).memc = s.memc := by
  unfold foldStep
  try dsimp only
  repeat' (first | (simp; done) | (have h := appendRec_frame (by assumption); simp [h]; done) | (have h := takeSlot_frame (by assumption); simp [h]; done) | (have h := placePage_frame (by assumption); simp [h]; done) | (have h := placePart_frame (by assumption); simp [h]; done) | split | (refine (forAll_memc _ _ _ (fun x s => ?_)).trans ?_; try dsimp only) | (refine adminCmd_memc _ _ _ _ ?_; try dsimp only) | simp)

theorem foldStep_mov (s : State) : (foldStep s).mov = s.mov := by
  unfold foldStep
  try dsimp only
  repeat' (first | (simp; done) | (have h := appendRec_frame (by assumption); simp [h]; done) | (have h := takeSlot_frame (by assumption); simp [h]; done) | (have h := placePage_frame (by assumption); simp [h]; done) | (have h := placePart_frame (by assumption); simp [h]; done) | split | (refine (forAll_mov _ _ _ (fun x s => ?_)).trans ?_; try dsimp only) | (refine adminCmd_mov _ _ _ _ ?_; try dsimp only) | simp)

theorem foldStep_cst (s : State) : (foldStep s).cst = s.cst := by
  unfold foldStep
  try dsimp only
  repeat' (first | (simp; done) | (have h := appendRec_frame (by assumption); simp [h]; done) | (have h := takeSlot_frame (by assumption); simp [h]; done) | (have h := placePage_frame (by assumption); simp [h]; done) | (have h := placePart_frame (by assumption); simp [h]; done) | split | (refine (forAll_cst _ _ _ (fun x s => ?_)).trans ?_; try dsimp only) | (refine adminCmd_cst _ _ _ _ ?_; try dsimp only) | simp)

theorem foldStep_lnt (s : State) : (foldStep s).lnt = s.lnt := by
  unfold foldStep
  try dsimp only
  repeat' (first | (simp; done) | (have h := appendRec_frame (by assumption); simp [h]; done) | (have h := takeSlot_frame (by assumption); simp [h]; done) | (have h := placePage_frame (by assumption); simp [h]; done) | (have h := placePart_frame (by assumption); simp [h]; done) | split | (refine (forAll_lnt _ _ _ (fun x s => ?_)).trans ?_; try dsimp only) | simp)

theorem foldStep_out (s : State) : (foldStep s).out = s.out := by
  unfold foldStep
  try dsimp only
  repeat' (first | (simp; done) | (have h := appendRec_frame (by assumption); simp [h]; done) | (have h := takeSlot_frame (by assumption); simp [h]; done) | (have h := placePage_frame (by assumption); simp [h]; done) | (have h := placePart_frame (by assumption); simp [h]; done) | split | (refine (forAll_out _ _ _ (fun x s => ?_)).trans ?_; try dsimp only) | simp)

theorem foldStep_freeCtr (s : State) : (foldStep s).freeCtr = s.freeCtr := by
  unfold foldStep
  try dsimp only
  repeat' (first | (simp; done) | (have h := appendRec_frame (by assumption); simp [h]; done) | (have h := takeSlot_frame (by assumption); simp [h]; done) | (have h := placePage_frame (by assumption); simp [h]; done) | (have h := placePart_frame (by assumption); simp [h]; done) | split | (refine (forAll_freeCtr _ _ _ (fun x s => ?_)).trans ?_; try dsimp only) | (refine adminCmd_freeCtr _ _ _ _ ?_; try dsimp only) | simp)

@[simp] theorem foldStep_frame (s : State) :
    (foldStep s).pending = s.pending ∧ (foldStep s).latch = s.latch ∧ (foldStep s).mem = s.mem ∧ (foldStep s).sys = s.sys ∧ (foldStep s).clk = s.clk ∧ (foldStep s).thm = s.thm ∧ (foldStep s).tck = s.tck ∧ (foldStep s).stm = s.stm ∧ (foldStep s).bnd = s.bnd ∧ (foldStep s).mbr = s.mbr ∧ (foldStep s).sec = s.sec ∧ (foldStep s).cpx = s.cpx ∧ (foldStep s).memc = s.memc ∧ (foldStep s).mov = s.mov ∧ (foldStep s).cst = s.cst ∧ (foldStep s).lnt = s.lnt ∧ (foldStep s).out = s.out ∧ (foldStep s).freeCtr = s.freeCtr :=
  ⟨foldStep_pending s, foldStep_latch s, foldStep_mem s, foldStep_sys s, foldStep_clk s, foldStep_thm s, foldStep_tck s, foldStep_stm s, foldStep_bnd s, foldStep_mbr s, foldStep_sec s, foldStep_cpx s, foldStep_memc s, foldStep_mov s, foldStep_cst s, foldStep_lnt s, foldStep_out s, foldStep_freeCtr s⟩

theorem foldData_pending (s : State) : (foldData s).pending = s.pending := by
  unfold foldData
  try dsimp only
  repeat' (first | (simp; done) | (have h := appendRec_frame (by assumption); simp [h]; done) | (have h := takeSlot_frame (by assumption); simp [h]; done) | (have h := placePage_frame (by assumption); simp [h]; done) | (have h := placePart_frame (by assumption); simp [h]; done) | split | (refine (forAll_pending _ _ _ (fun x s => ?_)).trans ?_; try dsimp only) | (refine adminCmd_pending _ _ _ _ ?_; try dsimp only) | simp)

theorem foldData_latch (s : State) : (foldData s).latch = s.latch := by
  unfold foldData
  try dsimp only
  repeat' (first | (simp; done) | (have h := appendRec_frame (by assumption); simp [h]; done) | (have h := takeSlot_frame (by assumption); simp [h]; done) | (have h := placePage_frame (by assumption); simp [h]; done) | (have h := placePart_frame (by assumption); simp [h]; done) | split | (refine (forAll_latch _ _ _ (fun x s => ?_)).trans ?_; try dsimp only) | (refine adminCmd_latch _ _ _ _ ?_; try dsimp only) | simp)

theorem foldData_mem (s : State) : (foldData s).mem = s.mem := by
  unfold foldData
  try dsimp only
  repeat' (first | (simp; done) | (have h := appendRec_frame (by assumption); simp [h]; done) | (have h := takeSlot_frame (by assumption); simp [h]; done) | (have h := placePage_frame (by assumption); simp [h]; done) | (have h := placePart_frame (by assumption); simp [h]; done) | split | (refine (forAll_mem _ _ _ (fun x s => ?_)).trans ?_; try dsimp only) | (refine adminCmd_mem _ _ _ _ ?_; try dsimp only) | simp)

theorem foldData_sys (s : State) : (foldData s).sys = s.sys := by
  unfold foldData
  try dsimp only
  repeat' (first | (simp; done) | (have h := appendRec_frame (by assumption); simp [h]; done) | (have h := takeSlot_frame (by assumption); simp [h]; done) | (have h := placePage_frame (by assumption); simp [h]; done) | (have h := placePart_frame (by assumption); simp [h]; done) | split | (refine (forAll_sys _ _ _ (fun x s => ?_)).trans ?_; try dsimp only) | (refine adminCmd_sys _ _ _ _ ?_; try dsimp only) | simp)

theorem foldData_clk (s : State) : (foldData s).clk = s.clk := by
  unfold foldData
  try dsimp only
  repeat' (first | (simp; done) | (have h := appendRec_frame (by assumption); simp [h]; done) | (have h := takeSlot_frame (by assumption); simp [h]; done) | (have h := placePage_frame (by assumption); simp [h]; done) | (have h := placePart_frame (by assumption); simp [h]; done) | split | (refine (forAll_clk _ _ _ (fun x s => ?_)).trans ?_; try dsimp only) | (refine adminCmd_clk _ _ _ _ ?_; try dsimp only) | simp)

theorem foldData_thm (s : State) : (foldData s).thm = s.thm := by
  unfold foldData
  try dsimp only
  repeat' (first | (simp; done) | (have h := appendRec_frame (by assumption); simp [h]; done) | (have h := takeSlot_frame (by assumption); simp [h]; done) | (have h := placePage_frame (by assumption); simp [h]; done) | (have h := placePart_frame (by assumption); simp [h]; done) | split | (refine (forAll_thm _ _ _ (fun x s => ?_)).trans ?_; try dsimp only) | (refine adminCmd_thm _ _ _ _ ?_; try dsimp only) | simp)

theorem foldData_tck (s : State) : (foldData s).tck = s.tck := by
  unfold foldData
  try dsimp only
  repeat' (first | (simp; done) | (have h := appendRec_frame (by assumption); simp [h]; done) | (have h := takeSlot_frame (by assumption); simp [h]; done) | (have h := placePage_frame (by assumption); simp [h]; done) | (have h := placePart_frame (by assumption); simp [h]; done) | split | (refine (forAll_tck _ _ _ (fun x s => ?_)).trans ?_; try dsimp only) | (refine adminCmd_tck _ _ _ _ ?_; try dsimp only) | simp)

theorem foldData_stm (s : State) : (foldData s).stm = s.stm := by
  unfold foldData
  try dsimp only
  repeat' (first | (simp; done) | (have h := appendRec_frame (by assumption); simp [h]; done) | (have h := takeSlot_frame (by assumption); simp [h]; done) | (have h := placePage_frame (by assumption); simp [h]; done) | (have h := placePart_frame (by assumption); simp [h]; done) | split | (refine (forAll_stm _ _ _ (fun x s => ?_)).trans ?_; try dsimp only) | (refine adminCmd_stm _ _ _ _ ?_; try dsimp only) | simp)

theorem foldData_map (s : State) : (foldData s).map = s.map := by
  unfold foldData
  try dsimp only
  repeat' (first | (simp; done) | (have h := appendRec_frame (by assumption); simp [h]; done) | (have h := takeSlot_frame (by assumption); simp [h]; done) | (have h := placePage_frame (by assumption); simp [h]; done) | (have h := placePart_frame (by assumption); simp [h]; done) | split | (refine (forAll_map _ _ _ (fun x s => ?_)).trans ?_; try dsimp only) | (refine adminCmd_map _ _ _ _ ?_; try dsimp only) | simp)

theorem foldData_flc (s : State) : (foldData s).flc = s.flc := by
  unfold foldData
  try dsimp only
  repeat' (first | (simp; done) | (have h := appendRec_frame (by assumption); simp [h]; done) | (have h := takeSlot_frame (by assumption); simp [h]; done) | (have h := placePage_frame (by assumption); simp [h]; done) | (have h := placePart_frame (by assumption); simp [h]; done) | split | (refine (forAll_flc _ _ _ (fun x s => ?_)).trans ?_; try dsimp only) | (refine adminCmd_flc _ _ _ _ ?_; try dsimp only) | simp)

theorem foldData_bnd (s : State) : (foldData s).bnd = s.bnd := by
  unfold foldData
  try dsimp only
  repeat' (first | (simp; done) | (have h := appendRec_frame (by assumption); simp [h]; done) | (have h := takeSlot_frame (by assumption); simp [h]; done) | (have h := placePage_frame (by assumption); simp [h]; done) | (have h := placePart_frame (by assumption); simp [h]; done) | split | (refine (forAll_bnd _ _ _ (fun x s => ?_)).trans ?_; try dsimp only) | (refine adminCmd_bnd _ _ _ _ ?_; try dsimp only) | simp)

theorem foldData_mbr (s : State) : (foldData s).mbr = s.mbr := by
  unfold foldData
  try dsimp only
  repeat' (first | (simp; done) | (have h := appendRec_frame (by assumption); simp [h]; done) | (have h := takeSlot_frame (by assumption); simp [h]; done) | (have h := placePage_frame (by assumption); simp [h]; done) | (have h := placePart_frame (by assumption); simp [h]; done) | split | (refine (forAll_mbr _ _ _ (fun x s => ?_)).trans ?_; try dsimp only) | (refine adminCmd_mbr _ _ _ _ ?_; try dsimp only) | simp)

theorem foldData_flt (s : State) : (foldData s).flt = s.flt := by
  unfold foldData
  try dsimp only
  repeat' (first | (simp; done) | (have h := appendRec_frame (by assumption); simp [h]; done) | (have h := takeSlot_frame (by assumption); simp [h]; done) | (have h := placePage_frame (by assumption); simp [h]; done) | (have h := placePart_frame (by assumption); simp [h]; done) | split | (refine (forAll_flt _ _ _ (fun x s => ?_)).trans ?_; try dsimp only) | (refine adminCmd_flt _ _ _ _ ?_; try dsimp only) | simp)

theorem foldData_sec (s : State) : (foldData s).sec = s.sec := by
  unfold foldData
  try dsimp only
  repeat' (first | (simp; done) | (have h := appendRec_frame (by assumption); simp [h]; done) | (have h := takeSlot_frame (by assumption); simp [h]; done) | (have h := placePage_frame (by assumption); simp [h]; done) | (have h := placePart_frame (by assumption); simp [h]; done) | split | (refine (forAll_sec _ _ _ (fun x s => ?_)).trans ?_; try dsimp only) | (refine adminCmd_sec _ _ _ _ ?_; try dsimp only) | simp)

theorem foldData_cpx (s : State) : (foldData s).cpx = s.cpx := by
  unfold foldData
  try dsimp only
  repeat' (first | (simp; done) | (have h := appendRec_frame (by assumption); simp [h]; done) | (have h := takeSlot_frame (by assumption); simp [h]; done) | (have h := placePage_frame (by assumption); simp [h]; done) | (have h := placePart_frame (by assumption); simp [h]; done) | split | (refine (forAll_cpx _ _ _ (fun x s => ?_)).trans ?_; try dsimp only) | (refine adminCmd_cpx _ _ _ _ ?_; try dsimp only) | simp)

theorem foldData_memc (s : State) : (foldData s).memc = s.memc := by
  unfold foldData
  try dsimp only
  repeat' (first | (simp; done) | (have h := appendRec_frame (by assumption); simp [h]; done) | (have h := takeSlot_frame (by assumption); simp [h]; done) | (have h := placePage_frame (by assumption); simp [h]; done) | (have h := placePart_frame (by assumption); simp [h]; done) | split | (refine (forAll_memc _ _ _ (fun x s => ?_)).trans ?_; try dsimp only) | (refine adminCmd_memc _ _ _ _ ?_; try dsimp only) | simp)

theorem foldData_mov (s : State) : (foldData s).mov = s.mov := by
  unfold foldData
  try dsimp only
  repeat' (first | (simp; done) | (have h := appendRec_frame (by assumption); simp [h]; done) | (have h := takeSlot_frame (by assumption); simp [h]; done) | (have h := placePage_frame (by assumption); simp [h]; done) | (have h := placePart_frame (by assumption); simp [h]; done) | split | (refine (forAll_mov _ _ _ (fun x s => ?_)).trans ?_; try dsimp only) | (refine adminCmd_mov _ _ _ _ ?_; try dsimp only) | simp)

theorem foldData_cst (s : State) : (foldData s).cst = s.cst := by
  unfold foldData
  try dsimp only
  repeat' (first | (simp; done) | (have h := appendRec_frame (by assumption); simp [h]; done) | (have h := takeSlot_frame (by assumption); simp [h]; done) | (have h := placePage_frame (by assumption); simp [h]; done) | (have h := placePart_frame (by assumption); simp [h]; done) | split | (refine (forAll_cst _ _ _ (fun x s => ?_)).trans ?_; try dsimp only) | (refine adminCmd_cst _ _ _ _ ?_; try dsimp only) | simp)

theorem foldData_lnt (s : State) : (foldData s).lnt = s.lnt := by
  unfold foldData
  try dsimp only
  repeat' (first | (simp; done) | (have h := appendRec_frame (by assumption); simp [h]; done) | (have h := takeSlot_frame (by assumption); simp [h]; done) | (have h := placePage_frame (by assumption); simp [h]; done) | (have h := placePart_frame (by assumption); simp [h]; done) | split | (refine (forAll_lnt _ _ _ (fun x s => ?_)).trans ?_; try dsimp only) | simp)

theorem foldData_out (s : State) : (foldData s).out = s.out := by
  unfold foldData
  try dsimp only
  repeat' (first | (simp; done) | (have h := appendRec_frame (by assumption); simp [h]; done) | (have h := takeSlot_frame (by assumption); simp [h]; done) | (have h := placePage_frame (by assumption); simp [h]; done) | (have h := placePart_frame (by assumption); simp [h]; done) | split | (refine (forAll_out _ _ _ (fun x s => ?_)).trans ?_; try dsimp only) | simp)

theorem foldData_freeCtr (s : State) : (foldData s).freeCtr = s.freeCtr := by
  unfold foldData
  try dsimp only
  repeat' (first | (simp; done) | (have h := appendRec_frame (by assumption); simp [h]; done) | (have h := takeSlot_frame (by assumption); simp [h]; done) | (have h := placePage_frame (by assumption); simp [h]; done) | (have h := placePart_frame (by assumption); simp [h]; done) | split | (refine (forAll_freeCtr _ _ _ (fun x s => ?_)).trans ?_; try dsimp only) | (refine adminCmd_freeCtr _ _ _ _ ?_; try dsimp only) | simp)

@[simp] theorem foldData_frame (s : State) :
    (foldData s).pending = s.pending ∧ (foldData s).latch = s.latch ∧ (foldData s).mem = s.mem ∧ (foldData s).sys = s.sys ∧ (foldData s).clk = s.clk ∧ (foldData s).thm = s.thm ∧ (foldData s).tck = s.tck ∧ (foldData s).stm = s.stm ∧ (foldData s).map = s.map ∧ (foldData s).flc = s.flc ∧ (foldData s).bnd = s.bnd ∧ (foldData s).mbr = s.mbr ∧ (foldData s).flt = s.flt ∧ (foldData s).sec = s.sec ∧ (foldData s).cpx = s.cpx ∧ (foldData s).memc = s.memc ∧ (foldData s).mov = s.mov ∧ (foldData s).cst = s.cst ∧ (foldData s).lnt = s.lnt ∧ (foldData s).out = s.out ∧ (foldData s).freeCtr = s.freeCtr :=
  ⟨foldData_pending s, foldData_latch s, foldData_mem s, foldData_sys s, foldData_clk s, foldData_thm s, foldData_tck s, foldData_stm s, foldData_map s, foldData_flc s, foldData_bnd s, foldData_mbr s, foldData_flt s, foldData_sec s, foldData_cpx s, foldData_memc s, foldData_mov s, foldData_cst s, foldData_lnt s, foldData_out s, foldData_freeCtr s⟩

theorem fleetPass_pending (s : State) : (fleetPass s).pending = s.pending := by
  unfold fleetPass
  try dsimp only
  first
    | (simp; done)
    | ((repeat' split) <;> simp; done)
    | (repeat' (first | (simp; done) | split))

theorem fleetPass_latch (s : State) : (fleetPass s).latch = s.latch := by
  unfold fleetPass
  try dsimp only
  first
    | (simp; done)
    | ((repeat' split) <;> simp; done)
    | (repeat' (first | (simp; done) | split))

theorem fleetPass_mem (s : State) : (fleetPass s).mem = s.mem := by
  unfold fleetPass
  try dsimp only
  first
    | (simp; done)
    | ((repeat' split) <;> simp; done)
    | (repeat' (first | (simp; done) | split))

theorem fleetPass_clk (s : State) : (fleetPass s).clk = s.clk := by
  unfold fleetPass
  try dsimp only
  first
    | (simp; done)
    | ((repeat' split) <;> simp; done)
    | (repeat' (first | (simp; done) | split))

theorem fleetPass_thm (s : State) : (fleetPass s).thm = s.thm := by
  unfold fleetPass
  try dsimp only
  first
    | (simp; done)
    | ((repeat' split) <;> simp; done)
    | (repeat' (first | (simp; done) | split))

theorem fleetPass_mbr (s : State) : (fleetPass s).mbr = s.mbr := by
  unfold fleetPass
  try dsimp only
  first
    | (simp; done)
    | ((repeat' split) <;> simp; done)
    | (repeat' (first | (simp; done) | split))

theorem fleetPass_sec (s : State) : (fleetPass s).sec = s.sec := by
  unfold fleetPass
  try dsimp only
  first
    | (simp; done)
    | ((repeat' split) <;> simp; done)
    | (repeat' (first | (simp; done) | split))

theorem fleetPass_cpx (s : State) : (fleetPass s).cpx = s.cpx := by
  unfold fleetPass
  try dsimp only
  first
    | (simp; done)
    | ((repeat' split) <;> simp; done)
    | (repeat' (first | (simp; done) | split))

theorem fleetPass_memc (s : State) : (fleetPass s).memc = s.memc := by
  unfold fleetPass
  try dsimp only
  first
    | (simp; done)
    | ((repeat' split) <;> simp; done)
    | (repeat' (first | (simp; done) | split))

theorem fleetPass_mov (s : State) : (fleetPass s).mov = s.mov := by
  unfold fleetPass
  try dsimp only
  first
    | (simp; done)
    | ((repeat' split) <;> simp; done)
    | (repeat' (first | (simp; done) | split))

theorem fleetPass_cst (s : State) : (fleetPass s).cst = s.cst := by
  unfold fleetPass
  try dsimp only
  first
    | (simp; done)
    | ((repeat' split) <;> simp; done)
    | (repeat' (first | (simp; done) | split))

theorem fleetPass_freeCtr (s : State) : (fleetPass s).freeCtr = s.freeCtr := by
  unfold fleetPass
  try dsimp only
  first
    | (simp; done)
    | ((repeat' split) <;> simp; done)
    | (repeat' (first | (simp; done) | split))

@[simp] theorem fleetPass_frame (s : State) :
    (fleetPass s).pending = s.pending ∧ (fleetPass s).latch = s.latch ∧ (fleetPass s).mem = s.mem ∧ (fleetPass s).clk = s.clk ∧ (fleetPass s).thm = s.thm ∧ (fleetPass s).mbr = s.mbr ∧ (fleetPass s).sec = s.sec ∧ (fleetPass s).cpx = s.cpx ∧ (fleetPass s).memc = s.memc ∧ (fleetPass s).mov = s.mov ∧ (fleetPass s).cst = s.cst ∧ (fleetPass s).freeCtr = s.freeCtr :=
  ⟨fleetPass_pending s, fleetPass_latch s, fleetPass_mem s, fleetPass_clk s, fleetPass_thm s, fleetPass_mbr s, fleetPass_sec s, fleetPass_cpx s, fleetPass_memc s, fleetPass_mov s, fleetPass_cst s, fleetPass_freeCtr s⟩

theorem fleetStep_pending (s : State) : (fleetStep s).pending = s.pending := by
  unfold fleetStep
  try dsimp only
  first
    | (simp; done)
    | ((repeat' split) <;> simp; done)
    | (repeat' (first | (simp; done) | split))

theorem fleetStep_latch (s : State) : (fleetStep s).latch = s.latch := by
  unfold fleetStep
  try dsimp only
  first
    | (simp; done)
    | ((repeat' split) <;> simp; done)
    | (repeat' (first | (simp; done) | split))

theorem fleetStep_mem (s : State) : (fleetStep s).mem = s.mem := by
  unfold fleetStep
  try dsimp only
  first
    | (simp; done)
    | ((repeat' split) <;> simp; done)
    | (repeat' (first | (simp; done) | split))

theorem fleetStep_clk (s : State) : (fleetStep s).clk = s.clk := by
  unfold fleetStep
  try dsimp only
  first
    | (simp; done)
    | ((repeat' split) <;> simp; done)
    | (repeat' (first | (simp; done) | split))

theorem fleetStep_thm (s : State) : (fleetStep s).thm = s.thm := by
  unfold fleetStep
  try dsimp only
  first
    | (simp; done)
    | ((repeat' split) <;> simp; done)
    | (repeat' (first | (simp; done) | split))

theorem fleetStep_mbr (s : State) : (fleetStep s).mbr = s.mbr := by
  unfold fleetStep
  try dsimp only
  first
    | (simp; done)
    | ((repeat' split) <;> simp; done)
    | (repeat' (first | (simp; done) | split))

theorem fleetStep_sec (s : State) : (fleetStep s).sec = s.sec := by
  unfold fleetStep
  try dsimp only
  first
    | (simp; done)
    | ((repeat' split) <;> simp; done)
    | (repeat' (first | (simp; done) | split))

theorem fleetStep_cpx (s : State) : (fleetStep s).cpx = s.cpx := by
  unfold fleetStep
  try dsimp only
  first
    | (simp; done)
    | ((repeat' split) <;> simp; done)
    | (repeat' (first | (simp; done) | split))

theorem fleetStep_memc (s : State) : (fleetStep s).memc = s.memc := by
  unfold fleetStep
  try dsimp only
  first
    | (simp; done)
    | ((repeat' split) <;> simp; done)
    | (repeat' (first | (simp; done) | split))

theorem fleetStep_mov (s : State) : (fleetStep s).mov = s.mov := by
  unfold fleetStep
  try dsimp only
  first
    | (simp; done)
    | ((repeat' split) <;> simp; done)
    | (repeat' (first | (simp; done) | split))

theorem fleetStep_cst (s : State) : (fleetStep s).cst = s.cst := by
  unfold fleetStep
  try dsimp only
  first
    | (simp; done)
    | ((repeat' split) <;> simp; done)
    | (repeat' (first | (simp; done) | split))

theorem fleetStep_freeCtr (s : State) : (fleetStep s).freeCtr = s.freeCtr := by
  unfold fleetStep
  try dsimp only
  first
    | (simp; done)
    | ((repeat' split) <;> simp; done)
    | (repeat' (first | (simp; done) | split))

@[simp] theorem fleetStep_frame (s : State) :
    (fleetStep s).pending = s.pending ∧ (fleetStep s).latch = s.latch ∧ (fleetStep s).mem = s.mem ∧ (fleetStep s).clk = s.clk ∧ (fleetStep s).thm = s.thm ∧ (fleetStep s).mbr = s.mbr ∧ (fleetStep s).sec = s.sec ∧ (fleetStep s).cpx = s.cpx ∧ (fleetStep s).memc = s.memc ∧ (fleetStep s).mov = s.mov ∧ (fleetStep s).cst = s.cst ∧ (fleetStep s).freeCtr = s.freeCtr :=
  ⟨fleetStep_pending s, fleetStep_latch s, fleetStep_mem s, fleetStep_clk s, fleetStep_thm s, fleetStep_mbr s, fleetStep_sec s, fleetStep_cpx s, fleetStep_memc s, fleetStep_mov s, fleetStep_cst s, fleetStep_freeCtr s⟩

@[simp] theorem ownWriteEnd_frame (a0 : ℕ) (s : State) :
    (ownWriteEnd a0 s).pending = s.pending ∧ (ownWriteEnd a0 s).latch = s.latch ∧ (ownWriteEnd a0 s).mem = s.mem ∧ (ownWriteEnd a0 s).clk = s.clk ∧ (ownWriteEnd a0 s).thm = s.thm ∧ (ownWriteEnd a0 s).tck = s.tck ∧ (ownWriteEnd a0 s).hif = s.hif ∧ (ownWriteEnd a0 s).stm = s.stm ∧ (ownWriteEnd a0 s).map = s.map ∧ (ownWriteEnd a0 s).flc = s.flc ∧ (ownWriteEnd a0 s).bnd = s.bnd ∧ (ownWriteEnd a0 s).mbr = s.mbr ∧ (ownWriteEnd a0 s).sec = s.sec ∧ (ownWriteEnd a0 s).cpx = s.cpx ∧ (ownWriteEnd a0 s).memc = s.memc ∧ (ownWriteEnd a0 s).mov = s.mov ∧ (ownWriteEnd a0 s).cst = s.cst ∧ (ownWriteEnd a0 s).freeCtr = s.freeCtr := by
  unfold ownWriteEnd
  try dsimp only
  first
    | (simp; done)
    | ((repeat' split) <;> simp; done)
    | (and_intros <;> (repeat' (first | (simp; done) | split)))

@[simp] theorem fleetDone_frame (a0 : ℕ) (s : State) :
    (fleetDone a0 s).pending = s.pending ∧ (fleetDone a0 s).regs = s.regs ∧ (fleetDone a0 s).latch = s.latch ∧ (fleetDone a0 s).mem = s.mem ∧ (fleetDone a0 s).sys = s.sys ∧ (fleetDone a0 s).clk = s.clk ∧ (fleetDone a0 s).thm = s.thm ∧ (fleetDone a0 s).tck = s.tck ∧ (fleetDone a0 s).hif = s.hif ∧ (fleetDone a0 s).stm = s.stm ∧ (fleetDone a0 s).map = s.map ∧ (fleetDone a0 s).flc = s.flc ∧ (fleetDone a0 s).bnd = s.bnd ∧ (fleetDone a0 s).mbr = s.mbr ∧ (fleetDone a0 s).sec = s.sec ∧ (fleetDone a0 s).cpx = s.cpx ∧ (fleetDone a0 s).memc = s.memc ∧ (fleetDone a0 s).mov = s.mov ∧ (fleetDone a0 s).cst = s.cst ∧ (fleetDone a0 s).lnt = s.lnt ∧ (fleetDone a0 s).freeCtr = s.freeCtr := by
  unfold fleetDone
  try dsimp only
  first
    | (simp; done)
    | ((repeat' split) <;> simp; done)
    | (and_intros <;> (repeat' (first | (simp; done) | split)))

@[simp] theorem fenceWrite_frame (a0 : ℕ) (a1 : Slot) (s : State) :
    (fenceWrite a0 a1 s).pending = s.pending ∧ (fenceWrite a0 a1 s).latch = s.latch ∧ (fenceWrite a0 a1 s).mem = s.mem ∧ (fenceWrite a0 a1 s).clk = s.clk ∧ (fenceWrite a0 a1 s).thm = s.thm ∧ (fenceWrite a0 a1 s).tck = s.tck ∧ (fenceWrite a0 a1 s).flc = s.flc ∧ (fenceWrite a0 a1 s).bnd = s.bnd ∧ (fenceWrite a0 a1 s).mbr = s.mbr ∧ (fenceWrite a0 a1 s).sec = s.sec ∧ (fenceWrite a0 a1 s).cpx = s.cpx ∧ (fenceWrite a0 a1 s).memc = s.memc ∧ (fenceWrite a0 a1 s).mov = s.mov ∧ (fenceWrite a0 a1 s).cst = s.cst ∧ (fenceWrite a0 a1 s).freeCtr = s.freeCtr := by
  unfold fenceWrite
  try dsimp only
  first
    | (simp; done)
    | ((repeat' split) <;> simp; done)
    | (and_intros <;> (repeat' (first | (simp; done) | split)))

@[simp] theorem fenceAll_frame (s : State) :
    (fenceAll s).pending = s.pending ∧ (fenceAll s).latch = s.latch ∧ (fenceAll s).mem = s.mem ∧ (fenceAll s).clk = s.clk ∧ (fenceAll s).thm = s.thm ∧ (fenceAll s).tck = s.tck ∧ (fenceAll s).flc = s.flc ∧ (fenceAll s).bnd = s.bnd ∧ (fenceAll s).mbr = s.mbr ∧ (fenceAll s).sec = s.sec ∧ (fenceAll s).cpx = s.cpx ∧ (fenceAll s).memc = s.memc ∧ (fenceAll s).mov = s.mov ∧ (fenceAll s).cst = s.cst ∧ (fenceAll s).freeCtr = s.freeCtr := by
  unfold fenceAll
  try dsimp only
  first
    | (simp; done)
    | ((repeat' split) <;> simp; done)
    | (and_intros <;> (repeat' (first | (simp; done) | split)))

/-! ### IoCmds -/

@[simp] theorem useReadSlot_frame (a0 : ℕ) (a1 : Cls) (s : State) :
    (useReadSlot a0 a1 s).pending = s.pending ∧ (useReadSlot a0 a1 s).regs = s.regs ∧ (useReadSlot a0 a1 s).latch = s.latch ∧ (useReadSlot a0 a1 s).mem = s.mem ∧ (useReadSlot a0 a1 s).sys = s.sys ∧ (useReadSlot a0 a1 s).clk = s.clk ∧ (useReadSlot a0 a1 s).thm = s.thm ∧ (useReadSlot a0 a1 s).hif = s.hif ∧ (useReadSlot a0 a1 s).stm = s.stm ∧ (useReadSlot a0 a1 s).map = s.map ∧ (useReadSlot a0 a1 s).flc = s.flc ∧ (useReadSlot a0 a1 s).bnd = s.bnd ∧ (useReadSlot a0 a1 s).mbr = s.mbr ∧ (useReadSlot a0 a1 s).flt = s.flt ∧ (useReadSlot a0 a1 s).sec = s.sec ∧ (useReadSlot a0 a1 s).cpx = s.cpx ∧ (useReadSlot a0 a1 s).memc = s.memc ∧ (useReadSlot a0 a1 s).mov = s.mov ∧ (useReadSlot a0 a1 s).cst = s.cst ∧ (useReadSlot a0 a1 s).lnt = s.lnt ∧ (useReadSlot a0 a1 s).out = s.out ∧ (useReadSlot a0 a1 s).freeCtr = s.freeCtr := by
  unfold useReadSlot
  try dsimp only
  first
    | (simp; done)
    | ((repeat' split) <;> simp; done)
    | (and_intros <;> (repeat' (first | (simp; done) | split)))

theorem writeEnd_pending (a0 : ℕ) (a1 : Slot) (s : State) : (writeEnd a0 a1 s).pending = s.pending := by
  unfold writeEnd
  try dsimp only
  first
    | (simp; done)
    | ((repeat' split) <;> simp; done)
    | (repeat' (first | (simp; done) | split))

theorem writeEnd_latch (a0 : ℕ) (a1 : Slot) (s : State) : (writeEnd a0 a1 s).latch = s.latch := by
  unfold writeEnd
  try dsimp only
  first
    | (simp; done)
    | ((repeat' split) <;> simp; done)
    | (repeat' (first | (simp; done) | split))

theorem writeEnd_mem (a0 : ℕ) (a1 : Slot) (s : State) : (writeEnd a0 a1 s).mem = s.mem := by
  unfold writeEnd
  try dsimp only
  first
    | (simp; done)
    | ((repeat' split) <;> simp; done)
    | (repeat' (first | (simp; done) | split))

theorem writeEnd_clk (a0 : ℕ) (a1 : Slot) (s : State) : (writeEnd a0 a1 s).clk = s.clk := by
  unfold writeEnd
  try dsimp only
  first
    | (simp; done)
    | ((repeat' split) <;> simp; done)
    | (repeat' (first | (simp; done) | split))

theorem writeEnd_thm (a0 : ℕ) (a1 : Slot) (s : State) : (writeEnd a0 a1 s).thm = s.thm := by
  unfold writeEnd
  try dsimp only
  first
    | (simp; done)
    | ((repeat' split) <;> simp; done)
    | (repeat' (first | (simp; done) | split))

theorem writeEnd_mbr (a0 : ℕ) (a1 : Slot) (s : State) : (writeEnd a0 a1 s).mbr = s.mbr := by
  unfold writeEnd
  try dsimp only
  first
    | (simp; done)
    | ((repeat' split) <;> simp; done)
    | (repeat' (first | (simp; done) | split))

theorem writeEnd_sec (a0 : ℕ) (a1 : Slot) (s : State) : (writeEnd a0 a1 s).sec = s.sec := by
  unfold writeEnd
  try dsimp only
  first
    | (simp; done)
    | ((repeat' split) <;> simp; done)
    | (repeat' (first | (simp; done) | split))

theorem writeEnd_cpx (a0 : ℕ) (a1 : Slot) (s : State) : (writeEnd a0 a1 s).cpx = s.cpx := by
  unfold writeEnd
  try dsimp only
  first
    | (simp; done)
    | ((repeat' split) <;> simp; done)
    | (repeat' (first | (simp; done) | split))

theorem writeEnd_memc (a0 : ℕ) (a1 : Slot) (s : State) : (writeEnd a0 a1 s).memc = s.memc := by
  unfold writeEnd
  try dsimp only
  first
    | (simp; done)
    | ((repeat' split) <;> simp; done)
    | (repeat' (first | (simp; done) | split))

theorem writeEnd_mov (a0 : ℕ) (a1 : Slot) (s : State) : (writeEnd a0 a1 s).mov = s.mov := by
  unfold writeEnd
  try dsimp only
  first
    | (simp; done)
    | ((repeat' split) <;> simp; done)
    | (repeat' (first | (simp; done) | split))

theorem writeEnd_cst (a0 : ℕ) (a1 : Slot) (s : State) : (writeEnd a0 a1 s).cst = s.cst := by
  unfold writeEnd
  try dsimp only
  first
    | (simp; done)
    | ((repeat' split) <;> simp; done)
    | (repeat' (first | (simp; done) | split))

theorem writeEnd_freeCtr (a0 : ℕ) (a1 : Slot) (s : State) : (writeEnd a0 a1 s).freeCtr = s.freeCtr := by
  unfold writeEnd
  try dsimp only
  first
    | (simp; done)
    | ((repeat' split) <;> simp; done)
    | (repeat' (first | (simp; done) | split))

@[simp] theorem writeEnd_frame (a0 : ℕ) (a1 : Slot) (s : State) :
    (writeEnd a0 a1 s).pending = s.pending ∧ (writeEnd a0 a1 s).latch = s.latch ∧ (writeEnd a0 a1 s).mem = s.mem ∧ (writeEnd a0 a1 s).clk = s.clk ∧ (writeEnd a0 a1 s).thm = s.thm ∧ (writeEnd a0 a1 s).mbr = s.mbr ∧ (writeEnd a0 a1 s).sec = s.sec ∧ (writeEnd a0 a1 s).cpx = s.cpx ∧ (writeEnd a0 a1 s).memc = s.memc ∧ (writeEnd a0 a1 s).mov = s.mov ∧ (writeEnd a0 a1 s).cst = s.cst ∧ (writeEnd a0 a1 s).freeCtr = s.freeCtr :=
  ⟨writeEnd_pending a0 a1 s, writeEnd_latch a0 a1 s, writeEnd_mem a0 a1 s, writeEnd_clk a0 a1 s, writeEnd_thm a0 a1 s, writeEnd_mbr a0 a1 s, writeEnd_sec a0 a1 s, writeEnd_cpx a0 a1 s, writeEnd_memc a0 a1 s, writeEnd_mov a0 a1 s, writeEnd_cst a0 a1 s, writeEnd_freeCtr a0 a1 s⟩

/-! ### HostIo -/

@[simp] theorem setSlot_frame (a0 : ℕ) (a1 : Slot → Slot) (s : State) :
    (setSlot a0 a1 s).pending = s.pending ∧ (setSlot a0 a1 s).regs = s.regs ∧ (setSlot a0 a1 s).latch = s.latch ∧ (setSlot a0 a1 s).mem = s.mem ∧ (setSlot a0 a1 s).sys = s.sys ∧ (setSlot a0 a1 s).clk = s.clk ∧ (setSlot a0 a1 s).thm = s.thm ∧ (setSlot a0 a1 s).tck = s.tck ∧ (setSlot a0 a1 s).stm = s.stm ∧ (setSlot a0 a1 s).map = s.map ∧ (setSlot a0 a1 s).flc = s.flc ∧ (setSlot a0 a1 s).bnd = s.bnd ∧ (setSlot a0 a1 s).mbr = s.mbr ∧ (setSlot a0 a1 s).flt = s.flt ∧ (setSlot a0 a1 s).sec = s.sec ∧ (setSlot a0 a1 s).cpx = s.cpx ∧ (setSlot a0 a1 s).memc = s.memc ∧ (setSlot a0 a1 s).mov = s.mov ∧ (setSlot a0 a1 s).cst = s.cst ∧ (setSlot a0 a1 s).lnt = s.lnt ∧ (setSlot a0 a1 s).out = s.out ∧ (setSlot a0 a1 s).freeCtr = s.freeCtr := by
  unfold setSlot
  try dsimp only
  first
    | (simp; done)
    | ((repeat' split) <;> simp; done)
    | (and_intros <;> (repeat' (first | (simp; done) | split)))

@[simp] theorem acceptUnmap_frame (a0 : ℕ) (a1 : Slot) (s : State) :
    (acceptUnmap a0 a1 s).pending = s.pending ∧ (acceptUnmap a0 a1 s).regs = s.regs ∧ (acceptUnmap a0 a1 s).latch = s.latch ∧ (acceptUnmap a0 a1 s).mem = s.mem ∧ (acceptUnmap a0 a1 s).sys = s.sys ∧ (acceptUnmap a0 a1 s).clk = s.clk ∧ (acceptUnmap a0 a1 s).thm = s.thm ∧ (acceptUnmap a0 a1 s).tck = s.tck ∧ (acceptUnmap a0 a1 s).stm = s.stm ∧ (acceptUnmap a0 a1 s).map = s.map ∧ (acceptUnmap a0 a1 s).flc = s.flc ∧ (acceptUnmap a0 a1 s).bnd = s.bnd ∧ (acceptUnmap a0 a1 s).mbr = s.mbr ∧ (acceptUnmap a0 a1 s).flt = s.flt ∧ (acceptUnmap a0 a1 s).sec = s.sec ∧ (acceptUnmap a0 a1 s).cpx = s.cpx ∧ (acceptUnmap a0 a1 s).memc = s.memc ∧ (acceptUnmap a0 a1 s).mov = s.mov ∧ (acceptUnmap a0 a1 s).cst = s.cst ∧ (acceptUnmap a0 a1 s).lnt = s.lnt ∧ (acceptUnmap a0 a1 s).out = s.out ∧ (acceptUnmap a0 a1 s).freeCtr = s.freeCtr := by
  unfold acceptUnmap
  try dsimp only
  first
    | (simp; done)
    | ((repeat' split) <;> simp; done)
    | (and_intros <;> (repeat' (first | (simp; done) | split)))

@[simp] theorem nextHand_frame (s : State) :
    (nextHand s).pending = s.pending ∧ (nextHand s).regs = s.regs ∧ (nextHand s).latch = s.latch ∧ (nextHand s).mem = s.mem ∧ (nextHand s).sys = s.sys ∧ (nextHand s).clk = s.clk ∧ (nextHand s).thm = s.thm ∧ (nextHand s).tck = s.tck ∧ (nextHand s).stm = s.stm ∧ (nextHand s).map = s.map ∧ (nextHand s).flc = s.flc ∧ (nextHand s).bnd = s.bnd ∧ (nextHand s).mbr = s.mbr ∧ (nextHand s).flt = s.flt ∧ (nextHand s).sec = s.sec ∧ (nextHand s).cpx = s.cpx ∧ (nextHand s).memc = s.memc ∧ (nextHand s).mov = s.mov ∧ (nextHand s).cst = s.cst ∧ (nextHand s).lnt = s.lnt ∧ (nextHand s).out = s.out ∧ (nextHand s).freeCtr = s.freeCtr := by
  unfold nextHand
  try dsimp only
  first
    | (simp; done)
    | ((repeat' split) <;> simp; done)
    | (and_intros <;> (repeat' (first | (simp; done) | split)))

@[simp] theorem startUnmap_frame (a0 : ℕ) (a1 : Slot) (s : State) :
    (startUnmap a0 a1 s).pending = s.pending ∧ (startUnmap a0 a1 s).regs = s.regs ∧ (startUnmap a0 a1 s).latch = s.latch ∧ (startUnmap a0 a1 s).mem = s.mem ∧ (startUnmap a0 a1 s).sys = s.sys ∧ (startUnmap a0 a1 s).clk = s.clk ∧ (startUnmap a0 a1 s).thm = s.thm ∧ (startUnmap a0 a1 s).tck = s.tck ∧ (startUnmap a0 a1 s).stm = s.stm ∧ (startUnmap a0 a1 s).map = s.map ∧ (startUnmap a0 a1 s).flc = s.flc ∧ (startUnmap a0 a1 s).bnd = s.bnd ∧ (startUnmap a0 a1 s).mbr = s.mbr ∧ (startUnmap a0 a1 s).flt = s.flt ∧ (startUnmap a0 a1 s).sec = s.sec ∧ (startUnmap a0 a1 s).cpx = s.cpx ∧ (startUnmap a0 a1 s).memc = s.memc ∧ (startUnmap a0 a1 s).mov = s.mov ∧ (startUnmap a0 a1 s).cst = s.cst ∧ (startUnmap a0 a1 s).lnt = s.lnt ∧ (startUnmap a0 a1 s).out = s.out ∧ (startUnmap a0 a1 s).freeCtr = s.freeCtr := by
  unfold startUnmap
  try dsimp only
  first
    | (simp; done)
    | ((repeat' split) <;> simp; done)
    | (and_intros <;> (repeat' (first | (simp; done) | split)))

@[simp] theorem startWrite_frame (a0 : ℕ) (a1 : Slot) (s : State) :
    (startWrite a0 a1 s).pending = s.pending ∧ (startWrite a0 a1 s).latch = s.latch ∧ (startWrite a0 a1 s).mem = s.mem ∧ (startWrite a0 a1 s).clk = s.clk ∧ (startWrite a0 a1 s).thm = s.thm ∧ (startWrite a0 a1 s).tck = s.tck ∧ (startWrite a0 a1 s).map = s.map ∧ (startWrite a0 a1 s).flc = s.flc ∧ (startWrite a0 a1 s).bnd = s.bnd ∧ (startWrite a0 a1 s).mbr = s.mbr ∧ (startWrite a0 a1 s).flt = s.flt ∧ (startWrite a0 a1 s).sec = s.sec ∧ (startWrite a0 a1 s).cpx = s.cpx ∧ (startWrite a0 a1 s).memc = s.memc ∧ (startWrite a0 a1 s).mov = s.mov ∧ (startWrite a0 a1 s).cst = s.cst ∧ (startWrite a0 a1 s).freeCtr = s.freeCtr := by
  unfold startWrite
  try dsimp only
  first
    | (simp; done)
    | ((repeat' split) <;> simp; done)
    | (and_intros <;> (repeat' (first | (simp; done) | split)))

theorem startRead_pending (a0 : ℕ) (a1 : Slot) (s : State) : (startRead a0 a1 s).pending = s.pending := by
  unfold startRead
  try dsimp only
  repeat' (first | (simp; done) | (have h := appendRec_frame (by assumption); simp [h]; done) | (have h := takeSlot_frame (by assumption); simp [h]; done) | (have h := placePage_frame (by assumption); simp [h]; done) | (have h := placePart_frame (by assumption); simp [h]; done) | split | (refine (forAll_pending _ _ _ (fun x s => ?_)).trans ?_; try dsimp only) | (refine adminCmd_pending _ _ _ _ ?_; try dsimp only) | simp)

theorem startRead_latch (a0 : ℕ) (a1 : Slot) (s : State) : (startRead a0 a1 s).latch = s.latch := by
  unfold startRead
  try dsimp only
  repeat' (first | (simp; done) | (have h := appendRec_frame (by assumption); simp [h]; done) | (have h := takeSlot_frame (by assumption); simp [h]; done) | (have h := placePage_frame (by assumption); simp [h]; done) | (have h := placePart_frame (by assumption); simp [h]; done) | split | (refine (forAll_latch _ _ _ (fun x s => ?_)).trans ?_; try dsimp only) | (refine adminCmd_latch _ _ _ _ ?_; try dsimp only) | simp)

theorem startRead_mem (a0 : ℕ) (a1 : Slot) (s : State) : (startRead a0 a1 s).mem = s.mem := by
  unfold startRead
  try dsimp only
  repeat' (first | (simp; done) | (have h := appendRec_frame (by assumption); simp [h]; done) | (have h := takeSlot_frame (by assumption); simp [h]; done) | (have h := placePage_frame (by assumption); simp [h]; done) | (have h := placePart_frame (by assumption); simp [h]; done) | split | (refine (forAll_mem _ _ _ (fun x s => ?_)).trans ?_; try dsimp only) | (refine adminCmd_mem _ _ _ _ ?_; try dsimp only) | simp)

theorem startRead_clk (a0 : ℕ) (a1 : Slot) (s : State) : (startRead a0 a1 s).clk = s.clk := by
  unfold startRead
  try dsimp only
  repeat' (first | (simp; done) | (have h := appendRec_frame (by assumption); simp [h]; done) | (have h := takeSlot_frame (by assumption); simp [h]; done) | (have h := placePage_frame (by assumption); simp [h]; done) | (have h := placePart_frame (by assumption); simp [h]; done) | split | (refine (forAll_clk _ _ _ (fun x s => ?_)).trans ?_; try dsimp only) | (refine adminCmd_clk _ _ _ _ ?_; try dsimp only) | simp)

theorem startRead_thm (a0 : ℕ) (a1 : Slot) (s : State) : (startRead a0 a1 s).thm = s.thm := by
  unfold startRead
  try dsimp only
  repeat' (first | (simp; done) | (have h := appendRec_frame (by assumption); simp [h]; done) | (have h := takeSlot_frame (by assumption); simp [h]; done) | (have h := placePage_frame (by assumption); simp [h]; done) | (have h := placePart_frame (by assumption); simp [h]; done) | split | (refine (forAll_thm _ _ _ (fun x s => ?_)).trans ?_; try dsimp only) | (refine adminCmd_thm _ _ _ _ ?_; try dsimp only) | simp)

theorem startRead_mbr (a0 : ℕ) (a1 : Slot) (s : State) : (startRead a0 a1 s).mbr = s.mbr := by
  unfold startRead
  try dsimp only
  repeat' (first | (simp; done) | (have h := appendRec_frame (by assumption); simp [h]; done) | (have h := takeSlot_frame (by assumption); simp [h]; done) | (have h := placePage_frame (by assumption); simp [h]; done) | (have h := placePart_frame (by assumption); simp [h]; done) | split | (refine (forAll_mbr _ _ _ (fun x s => ?_)).trans ?_; try dsimp only) | (refine adminCmd_mbr _ _ _ _ ?_; try dsimp only) | simp)

theorem startRead_sec (a0 : ℕ) (a1 : Slot) (s : State) : (startRead a0 a1 s).sec = s.sec := by
  unfold startRead
  try dsimp only
  repeat' (first | (simp; done) | (have h := appendRec_frame (by assumption); simp [h]; done) | (have h := takeSlot_frame (by assumption); simp [h]; done) | (have h := placePage_frame (by assumption); simp [h]; done) | (have h := placePart_frame (by assumption); simp [h]; done) | split | (refine (forAll_sec _ _ _ (fun x s => ?_)).trans ?_; try dsimp only) | (refine adminCmd_sec _ _ _ _ ?_; try dsimp only) | simp)

theorem startRead_cpx (a0 : ℕ) (a1 : Slot) (s : State) : (startRead a0 a1 s).cpx = s.cpx := by
  unfold startRead
  try dsimp only
  repeat' (first | (simp; done) | (have h := appendRec_frame (by assumption); simp [h]; done) | (have h := takeSlot_frame (by assumption); simp [h]; done) | (have h := placePage_frame (by assumption); simp [h]; done) | (have h := placePart_frame (by assumption); simp [h]; done) | split | (refine (forAll_cpx _ _ _ (fun x s => ?_)).trans ?_; try dsimp only) | (refine adminCmd_cpx _ _ _ _ ?_; try dsimp only) | simp)

theorem startRead_memc (a0 : ℕ) (a1 : Slot) (s : State) : (startRead a0 a1 s).memc = s.memc := by
  unfold startRead
  try dsimp only
  repeat' (first | (simp; done) | (have h := appendRec_frame (by assumption); simp [h]; done) | (have h := takeSlot_frame (by assumption); simp [h]; done) | (have h := placePage_frame (by assumption); simp [h]; done) | (have h := placePart_frame (by assumption); simp [h]; done) | split | (refine (forAll_memc _ _ _ (fun x s => ?_)).trans ?_; try dsimp only) | (refine adminCmd_memc _ _ _ _ ?_; try dsimp only) | simp)

theorem startRead_mov (a0 : ℕ) (a1 : Slot) (s : State) : (startRead a0 a1 s).mov = s.mov := by
  unfold startRead
  try dsimp only
  repeat' (first | (simp; done) | (have h := appendRec_frame (by assumption); simp [h]; done) | (have h := takeSlot_frame (by assumption); simp [h]; done) | (have h := placePage_frame (by assumption); simp [h]; done) | (have h := placePart_frame (by assumption); simp [h]; done) | split | (refine (forAll_mov _ _ _ (fun x s => ?_)).trans ?_; try dsimp only) | (refine adminCmd_mov _ _ _ _ ?_; try dsimp only) | simp)

theorem startRead_cst (a0 : ℕ) (a1 : Slot) (s : State) : (startRead a0 a1 s).cst = s.cst := by
  unfold startRead
  try dsimp only
  repeat' (first | (simp; done) | (have h := appendRec_frame (by assumption); simp [h]; done) | (have h := takeSlot_frame (by assumption); simp [h]; done) | (have h := placePage_frame (by assumption); simp [h]; done) | (have h := placePart_frame (by assumption); simp [h]; done) | split | (refine (forAll_cst _ _ _ (fun x s => ?_)).trans ?_; try dsimp only) | (refine adminCmd_cst _ _ _ _ ?_; try dsimp only) | simp)

theorem startRead_freeCtr (a0 : ℕ) (a1 : Slot) (s : State) : (startRead a0 a1 s).freeCtr = s.freeCtr := by
  unfold startRead
  try dsimp only
  repeat' (first | (simp; done) | (have h := appendRec_frame (by assumption); simp [h]; done) | (have h := takeSlot_frame (by assumption); simp [h]; done) | (have h := placePage_frame (by assumption); simp [h]; done) | (have h := placePart_frame (by assumption); simp [h]; done) | split | (refine (forAll_freeCtr _ _ _ (fun x s => ?_)).trans ?_; try dsimp only) | (refine adminCmd_freeCtr _ _ _ _ ?_; try dsimp only) | simp)

@[simp] theorem startRead_frame (a0 : ℕ) (a1 : Slot) (s : State) :
    (startRead a0 a1 s).pending = s.pending ∧ (startRead a0 a1 s).latch = s.latch ∧ (startRead a0 a1 s).mem = s.mem ∧ (startRead a0 a1 s).clk = s.clk ∧ (startRead a0 a1 s).thm = s.thm ∧ (startRead a0 a1 s).mbr = s.mbr ∧ (startRead a0 a1 s).sec = s.sec ∧ (startRead a0 a1 s).cpx = s.cpx ∧ (startRead a0 a1 s).memc = s.memc ∧ (startRead a0 a1 s).mov = s.mov ∧ (startRead a0 a1 s).cst = s.cst ∧ (startRead a0 a1 s).freeCtr = s.freeCtr :=
  ⟨startRead_pending a0 a1 s, startRead_latch a0 a1 s, startRead_mem a0 a1 s, startRead_clk a0 a1 s, startRead_thm a0 a1 s, startRead_mbr a0 a1 s, startRead_sec a0 a1 s, startRead_cpx a0 a1 s, startRead_memc a0 a1 s, startRead_mov a0 a1 s, startRead_cst a0 a1 s, startRead_freeCtr a0 a1 s⟩

theorem startCmd_pending (a0 : ℕ) (s : State) : (startCmd a0 s).pending = s.pending := by
  unfold startCmd
  try dsimp only
  first
    | (simp; done)
    | ((repeat' split) <;> simp; done)
    | (repeat' (first | (simp; done) | split))

theorem startCmd_latch (a0 : ℕ) (s : State) : (startCmd a0 s).latch = s.latch := by
  unfold startCmd
  try dsimp only
  first
    | (simp; done)
    | ((repeat' split) <;> simp; done)
    | (repeat' (first | (simp; done) | split))

theorem startCmd_mem (a0 : ℕ) (s : State) : (startCmd a0 s).mem = s.mem := by
  unfold startCmd
  try dsimp only
  first
    | (simp; done)
    | ((repeat' split) <;> simp; done)
    | (repeat' (first | (simp; done) | split))

theorem startCmd_clk (a0 : ℕ) (s : State) : (startCmd a0 s).clk = s.clk := by
  unfold startCmd
  try dsimp only
  first
    | (simp; done)
    | ((repeat' split) <;> simp; done)
    | (repeat' (first | (simp; done) | split))

theorem startCmd_thm (a0 : ℕ) (s : State) : (startCmd a0 s).thm = s.thm := by
  unfold startCmd
  try dsimp only
  first
    | (simp; done)
    | ((repeat' split) <;> simp; done)
    | (repeat' (first | (simp; done) | split))

theorem startCmd_mbr (a0 : ℕ) (s : State) : (startCmd a0 s).mbr = s.mbr := by
  unfold startCmd
  try dsimp only
  first
    | (simp; done)
    | ((repeat' split) <;> simp; done)
    | (repeat' (first | (simp; done) | split))

theorem startCmd_sec (a0 : ℕ) (s : State) : (startCmd a0 s).sec = s.sec := by
  unfold startCmd
  try dsimp only
  first
    | (simp; done)
    | ((repeat' split) <;> simp; done)
    | (repeat' (first | (simp; done) | split))

theorem startCmd_cpx (a0 : ℕ) (s : State) : (startCmd a0 s).cpx = s.cpx := by
  unfold startCmd
  try dsimp only
  first
    | (simp; done)
    | ((repeat' split) <;> simp; done)
    | (repeat' (first | (simp; done) | split))

theorem startCmd_memc (a0 : ℕ) (s : State) : (startCmd a0 s).memc = s.memc := by
  unfold startCmd
  try dsimp only
  first
    | (simp; done)
    | ((repeat' split) <;> simp; done)
    | (repeat' (first | (simp; done) | split))

theorem startCmd_mov (a0 : ℕ) (s : State) : (startCmd a0 s).mov = s.mov := by
  unfold startCmd
  try dsimp only
  first
    | (simp; done)
    | ((repeat' split) <;> simp; done)
    | (repeat' (first | (simp; done) | split))

theorem startCmd_cst (a0 : ℕ) (s : State) : (startCmd a0 s).cst = s.cst := by
  unfold startCmd
  try dsimp only
  first
    | (simp; done)
    | ((repeat' split) <;> simp; done)
    | (repeat' (first | (simp; done) | split))

theorem startCmd_freeCtr (a0 : ℕ) (s : State) : (startCmd a0 s).freeCtr = s.freeCtr := by
  unfold startCmd
  try dsimp only
  first
    | (simp; done)
    | ((repeat' split) <;> simp; done)
    | (repeat' (first | (simp; done) | split))

@[simp] theorem startCmd_frame (a0 : ℕ) (s : State) :
    (startCmd a0 s).pending = s.pending ∧ (startCmd a0 s).latch = s.latch ∧ (startCmd a0 s).mem = s.mem ∧ (startCmd a0 s).clk = s.clk ∧ (startCmd a0 s).thm = s.thm ∧ (startCmd a0 s).mbr = s.mbr ∧ (startCmd a0 s).sec = s.sec ∧ (startCmd a0 s).cpx = s.cpx ∧ (startCmd a0 s).memc = s.memc ∧ (startCmd a0 s).mov = s.mov ∧ (startCmd a0 s).cst = s.cst ∧ (startCmd a0 s).freeCtr = s.freeCtr :=
  ⟨startCmd_pending a0 s, startCmd_latch a0 s, startCmd_mem a0 s, startCmd_clk a0 s, startCmd_thm a0 s, startCmd_mbr a0 s, startCmd_sec a0 s, startCmd_cpx a0 s, startCmd_memc a0 s, startCmd_mov a0 s, startCmd_cst a0 s, startCmd_freeCtr a0 s⟩

theorem takeSlotFor_pending (a0 : IoCmd) (s : State) : (takeSlotFor a0 s).pending = s.pending := by
  unfold takeSlotFor
  try dsimp only
  first
    | (simp; done)
    | ((repeat' split) <;> simp; done)
    | (repeat' (first | (simp; done) | split))

theorem takeSlotFor_latch (a0 : IoCmd) (s : State) : (takeSlotFor a0 s).latch = s.latch := by
  unfold takeSlotFor
  try dsimp only
  first
    | (simp; done)
    | ((repeat' split) <;> simp; done)
    | (repeat' (first | (simp; done) | split))

theorem takeSlotFor_mem (a0 : IoCmd) (s : State) : (takeSlotFor a0 s).mem = s.mem := by
  unfold takeSlotFor
  try dsimp only
  first
    | (simp; done)
    | ((repeat' split) <;> simp; done)
    | (repeat' (first | (simp; done) | split))

theorem takeSlotFor_clk (a0 : IoCmd) (s : State) : (takeSlotFor a0 s).clk = s.clk := by
  unfold takeSlotFor
  try dsimp only
  first
    | (simp; done)
    | ((repeat' split) <;> simp; done)
    | (repeat' (first | (simp; done) | split))

theorem takeSlotFor_thm (a0 : IoCmd) (s : State) : (takeSlotFor a0 s).thm = s.thm := by
  unfold takeSlotFor
  try dsimp only
  first
    | (simp; done)
    | ((repeat' split) <;> simp; done)
    | (repeat' (first | (simp; done) | split))

theorem takeSlotFor_mbr (a0 : IoCmd) (s : State) : (takeSlotFor a0 s).mbr = s.mbr := by
  unfold takeSlotFor
  try dsimp only
  first
    | (simp; done)
    | ((repeat' split) <;> simp; done)
    | (repeat' (first | (simp; done) | split))

theorem takeSlotFor_sec (a0 : IoCmd) (s : State) : (takeSlotFor a0 s).sec = s.sec := by
  unfold takeSlotFor
  try dsimp only
  first
    | (simp; done)
    | ((repeat' split) <;> simp; done)
    | (repeat' (first | (simp; done) | split))

theorem takeSlotFor_cpx (a0 : IoCmd) (s : State) : (takeSlotFor a0 s).cpx = s.cpx := by
  unfold takeSlotFor
  try dsimp only
  first
    | (simp; done)
    | ((repeat' split) <;> simp; done)
    | (repeat' (first | (simp; done) | split))

theorem takeSlotFor_memc (a0 : IoCmd) (s : State) : (takeSlotFor a0 s).memc = s.memc := by
  unfold takeSlotFor
  try dsimp only
  first
    | (simp; done)
    | ((repeat' split) <;> simp; done)
    | (repeat' (first | (simp; done) | split))

theorem takeSlotFor_mov (a0 : IoCmd) (s : State) : (takeSlotFor a0 s).mov = s.mov := by
  unfold takeSlotFor
  try dsimp only
  first
    | (simp; done)
    | ((repeat' split) <;> simp; done)
    | (repeat' (first | (simp; done) | split))

theorem takeSlotFor_cst (a0 : IoCmd) (s : State) : (takeSlotFor a0 s).cst = s.cst := by
  unfold takeSlotFor
  try dsimp only
  first
    | (simp; done)
    | ((repeat' split) <;> simp; done)
    | (repeat' (first | (simp; done) | split))

theorem takeSlotFor_freeCtr (a0 : IoCmd) (s : State) : (takeSlotFor a0 s).freeCtr = s.freeCtr := by
  unfold takeSlotFor
  try dsimp only
  first
    | (simp; done)
    | ((repeat' split) <;> simp; done)
    | (repeat' (first | (simp; done) | split))

@[simp] theorem takeSlotFor_frame (a0 : IoCmd) (s : State) :
    (takeSlotFor a0 s).pending = s.pending ∧ (takeSlotFor a0 s).latch = s.latch ∧ (takeSlotFor a0 s).mem = s.mem ∧ (takeSlotFor a0 s).clk = s.clk ∧ (takeSlotFor a0 s).thm = s.thm ∧ (takeSlotFor a0 s).mbr = s.mbr ∧ (takeSlotFor a0 s).sec = s.sec ∧ (takeSlotFor a0 s).cpx = s.cpx ∧ (takeSlotFor a0 s).memc = s.memc ∧ (takeSlotFor a0 s).mov = s.mov ∧ (takeSlotFor a0 s).cst = s.cst ∧ (takeSlotFor a0 s).freeCtr = s.freeCtr :=
  ⟨takeSlotFor_pending a0 s, takeSlotFor_latch a0 s, takeSlotFor_mem a0 s, takeSlotFor_clk a0 s, takeSlotFor_thm a0 s, takeSlotFor_mbr a0 s, takeSlotFor_sec a0 s, takeSlotFor_cpx a0 s, takeSlotFor_memc a0 s, takeSlotFor_mov a0 s, takeSlotFor_cst a0 s, takeSlotFor_freeCtr a0 s⟩

theorem fetchCmd_pending (a0 : IoCmd) (s : State) : (fetchCmd a0 s).pending = s.pending := by
  unfold fetchCmd
  try dsimp only
  first
    | (simp; done)
    | ((repeat' split) <;> simp; done)
    | (repeat' (first | (simp; done) | split))

theorem fetchCmd_latch (a0 : IoCmd) (s : State) : (fetchCmd a0 s).latch = s.latch := by
  unfold fetchCmd
  try dsimp only
  first
    | (simp; done)
    | ((repeat' split) <;> simp; done)
    | (repeat' (first | (simp; done) | split))

theorem fetchCmd_mem (a0 : IoCmd) (s : State) : (fetchCmd a0 s).mem = s.mem := by
  unfold fetchCmd
  try dsimp only
  first
    | (simp; done)
    | ((repeat' split) <;> simp; done)
    | (repeat' (first | (simp; done) | split))

theorem fetchCmd_clk (a0 : IoCmd) (s : State) : (fetchCmd a0 s).clk = s.clk := by
  unfold fetchCmd
  try dsimp only
  first
    | (simp; done)
    | ((repeat' split) <;> simp; done)
    | (repeat' (first | (simp; done) | split))

theorem fetchCmd_thm (a0 : IoCmd) (s : State) : (fetchCmd a0 s).thm = s.thm := by
  unfold fetchCmd
  try dsimp only
  first
    | (simp; done)
    | ((repeat' split) <;> simp; done)
    | (repeat' (first | (simp; done) | split))

theorem fetchCmd_mbr (a0 : IoCmd) (s : State) : (fetchCmd a0 s).mbr = s.mbr := by
  unfold fetchCmd
  try dsimp only
  first
    | (simp; done)
    | ((repeat' split) <;> simp; done)
    | (repeat' (first | (simp; done) | split))

theorem fetchCmd_sec (a0 : IoCmd) (s : State) : (fetchCmd a0 s).sec = s.sec := by
  unfold fetchCmd
  try dsimp only
  first
    | (simp; done)
    | ((repeat' split) <;> simp; done)
    | (repeat' (first | (simp; done) | split))

theorem fetchCmd_cpx (a0 : IoCmd) (s : State) : (fetchCmd a0 s).cpx = s.cpx := by
  unfold fetchCmd
  try dsimp only
  first
    | (simp; done)
    | ((repeat' split) <;> simp; done)
    | (repeat' (first | (simp; done) | split))

theorem fetchCmd_memc (a0 : IoCmd) (s : State) : (fetchCmd a0 s).memc = s.memc := by
  unfold fetchCmd
  try dsimp only
  first
    | (simp; done)
    | ((repeat' split) <;> simp; done)
    | (repeat' (first | (simp; done) | split))

theorem fetchCmd_mov (a0 : IoCmd) (s : State) : (fetchCmd a0 s).mov = s.mov := by
  unfold fetchCmd
  try dsimp only
  first
    | (simp; done)
    | ((repeat' split) <;> simp; done)
    | (repeat' (first | (simp; done) | split))

theorem fetchCmd_cst (a0 : IoCmd) (s : State) : (fetchCmd a0 s).cst = s.cst := by
  unfold fetchCmd
  try dsimp only
  first
    | (simp; done)
    | ((repeat' split) <;> simp; done)
    | (repeat' (first | (simp; done) | split))

theorem fetchCmd_freeCtr (a0 : IoCmd) (s : State) : (fetchCmd a0 s).freeCtr = s.freeCtr := by
  unfold fetchCmd
  try dsimp only
  first
    | (simp; done)
    | ((repeat' split) <;> simp; done)
    | (repeat' (first | (simp; done) | split))

@[simp] theorem fetchCmd_frame (a0 : IoCmd) (s : State) :
    (fetchCmd a0 s).pending = s.pending ∧ (fetchCmd a0 s).latch = s.latch ∧ (fetchCmd a0 s).mem = s.mem ∧ (fetchCmd a0 s).clk = s.clk ∧ (fetchCmd a0 s).thm = s.thm ∧ (fetchCmd a0 s).mbr = s.mbr ∧ (fetchCmd a0 s).sec = s.sec ∧ (fetchCmd a0 s).cpx = s.cpx ∧ (fetchCmd a0 s).memc = s.memc ∧ (fetchCmd a0 s).mov = s.mov ∧ (fetchCmd a0 s).cst = s.cst ∧ (fetchCmd a0 s).freeCtr = s.freeCtr :=
  ⟨fetchCmd_pending a0 s, fetchCmd_latch a0 s, fetchCmd_mem a0 s, fetchCmd_clk a0 s, fetchCmd_thm a0 s, fetchCmd_mbr a0 s, fetchCmd_sec a0 s, fetchCmd_cpx a0 s, fetchCmd_memc a0 s, fetchCmd_mov a0 s, fetchCmd_cst a0 s, fetchCmd_freeCtr a0 s⟩

@[simp] theorem dropHostRead_frame (a0 : ℕ) (s : State) :
    (dropHostRead a0 s).pending = s.pending ∧ (dropHostRead a0 s).latch = s.latch ∧ (dropHostRead a0 s).mem = s.mem ∧ (dropHostRead a0 s).clk = s.clk ∧ (dropHostRead a0 s).thm = s.thm ∧ (dropHostRead a0 s).map = s.map ∧ (dropHostRead a0 s).bnd = s.bnd ∧ (dropHostRead a0 s).mbr = s.mbr ∧ (dropHostRead a0 s).sec = s.sec ∧ (dropHostRead a0 s).cpx = s.cpx ∧ (dropHostRead a0 s).memc = s.memc ∧ (dropHostRead a0 s).mov = s.mov ∧ (dropHostRead a0 s).cst = s.cst ∧ (dropHostRead a0 s).out = s.out ∧ (dropHostRead a0 s).freeCtr = s.freeCtr := by
  unfold dropHostRead
  try dsimp only
  first
    | (simp; done)
    | ((repeat' split) <;> simp; done)
    | (and_intros <;> (repeat' (first | (simp; done) | split)))

@[simp] theorem dropSqs_frame (a0 : ℕ → Bool) (s : State) :
    (dropSqs a0 s).pending = s.pending ∧ (dropSqs a0 s).latch = s.latch ∧ (dropSqs a0 s).mem = s.mem ∧ (dropSqs a0 s).clk = s.clk ∧ (dropSqs a0 s).thm = s.thm ∧ (dropSqs a0 s).map = s.map ∧ (dropSqs a0 s).bnd = s.bnd ∧ (dropSqs a0 s).mbr = s.mbr ∧ (dropSqs a0 s).sec = s.sec ∧ (dropSqs a0 s).cpx = s.cpx ∧ (dropSqs a0 s).memc = s.memc ∧ (dropSqs a0 s).mov = s.mov ∧ (dropSqs a0 s).cst = s.cst ∧ (dropSqs a0 s).out = s.out ∧ (dropSqs a0 s).freeCtr = s.freeCtr := by
  unfold dropSqs
  try dsimp only
  first
    | (simp; done)
    | ((repeat' split) <;> simp; done)
    | (and_intros <;> (repeat' (first | (simp; done) | split)))

@[simp] theorem sqTail_frame (a0 : ℕ) (a1 : ℕ) (s : State) :
    (sqTail a0 a1 s).pending = s.pending ∧ (sqTail a0 a1 s).regs = s.regs ∧ (sqTail a0 a1 s).latch = s.latch ∧ (sqTail a0 a1 s).mem = s.mem ∧ (sqTail a0 a1 s).sys = s.sys ∧ (sqTail a0 a1 s).clk = s.clk ∧ (sqTail a0 a1 s).thm = s.thm ∧ (sqTail a0 a1 s).tck = s.tck ∧ (sqTail a0 a1 s).stm = s.stm ∧ (sqTail a0 a1 s).map = s.map ∧ (sqTail a0 a1 s).flc = s.flc ∧ (sqTail a0 a1 s).bnd = s.bnd ∧ (sqTail a0 a1 s).mbr = s.mbr ∧ (sqTail a0 a1 s).flt = s.flt ∧ (sqTail a0 a1 s).sec = s.sec ∧ (sqTail a0 a1 s).cpx = s.cpx ∧ (sqTail a0 a1 s).memc = s.memc ∧ (sqTail a0 a1 s).mov = s.mov ∧ (sqTail a0 a1 s).cst = s.cst ∧ (sqTail a0 a1 s).lnt = s.lnt ∧ (sqTail a0 a1 s).out = s.out ∧ (sqTail a0 a1 s).freeCtr = s.freeCtr := by
  unfold sqTail
  try dsimp only
  first
    | (simp; done)
    | ((repeat' split) <;> simp; done)
    | (and_intros <;> (repeat' (first | (simp; done) | split)))

@[simp] theorem cqHead_frame (a0 : ℕ) (a1 : ℕ) (s : State) :
    (cqHead a0 a1 s).pending = s.pending ∧ (cqHead a0 a1 s).regs = s.regs ∧ (cqHead a0 a1 s).latch = s.latch ∧ (cqHead a0 a1 s).mem = s.mem ∧ (cqHead a0 a1 s).sys = s.sys ∧ (cqHead a0 a1 s).clk = s.clk ∧ (cqHead a0 a1 s).thm = s.thm ∧ (cqHead a0 a1 s).tck = s.tck ∧ (cqHead a0 a1 s).stm = s.stm ∧ (cqHead a0 a1 s).map = s.map ∧ (cqHead a0 a1 s).flc = s.flc ∧ (cqHead a0 a1 s).bnd = s.bnd ∧ (cqHead a0 a1 s).mbr = s.mbr ∧ (cqHead a0 a1 s).flt = s.flt ∧ (cqHead a0 a1 s).sec = s.sec ∧ (cqHead a0 a1 s).cpx = s.cpx ∧ (cqHead a0 a1 s).memc = s.memc ∧ (cqHead a0 a1 s).mov = s.mov ∧ (cqHead a0 a1 s).cst = s.cst ∧ (cqHead a0 a1 s).freeCtr = s.freeCtr := by
  unfold cqHead
  try dsimp only
  first
    | (simp; done)
    | ((repeat' split) <;> simp; done)
    | (and_intros <;> (repeat' (first | (simp; done) | split)))

/-! ### HostCtl -/

@[simp] theorem dropTestReads_frame (s : State) :
    (dropTestReads s).pending = s.pending ∧ (dropTestReads s).latch = s.latch ∧ (dropTestReads s).mem = s.mem ∧ (dropTestReads s).clk = s.clk ∧ (dropTestReads s).thm = s.thm ∧ (dropTestReads s).hif = s.hif ∧ (dropTestReads s).map = s.map ∧ (dropTestReads s).bnd = s.bnd ∧ (dropTestReads s).mbr = s.mbr ∧ (dropTestReads s).flt = s.flt ∧ (dropTestReads s).sec = s.sec ∧ (dropTestReads s).cpx = s.cpx ∧ (dropTestReads s).memc = s.memc ∧ (dropTestReads s).mov = s.mov ∧ (dropTestReads s).cst = s.cst ∧ (dropTestReads s).out = s.out ∧ (dropTestReads s).freeCtr = s.freeCtr := by
  unfold dropTestReads
  try dsimp only
  first
    | (simp; done)
    | ((repeat' split) <;> simp; done)
    | (and_intros <;> (repeat' (first | (simp; done) | split)))

@[simp] theorem selfTestOver_frame (a0 : SelfTest) (a1 : ℕ) (a2 : ℕ) (s : State) :
    (selfTestOver a0 a1 a2 s).pending = s.pending ∧ (selfTestOver a0 a1 a2 s).latch = s.latch ∧ (selfTestOver a0 a1 a2 s).mem = s.mem ∧ (selfTestOver a0 a1 a2 s).clk = s.clk ∧ (selfTestOver a0 a1 a2 s).thm = s.thm ∧ (selfTestOver a0 a1 a2 s).map = s.map ∧ (selfTestOver a0 a1 a2 s).bnd = s.bnd ∧ (selfTestOver a0 a1 a2 s).mbr = s.mbr ∧ (selfTestOver a0 a1 a2 s).flt = s.flt ∧ (selfTestOver a0 a1 a2 s).sec = s.sec ∧ (selfTestOver a0 a1 a2 s).cpx = s.cpx ∧ (selfTestOver a0 a1 a2 s).memc = s.memc ∧ (selfTestOver a0 a1 a2 s).mov = s.mov ∧ (selfTestOver a0 a1 a2 s).cst = s.cst ∧ (selfTestOver a0 a1 a2 s).out = s.out ∧ (selfTestOver a0 a1 a2 s).freeCtr = s.freeCtr := by
  unfold selfTestOver
  try dsimp only
  first
    | (simp; done)
    | ((repeat' split) <;> simp; done)
    | (and_intros <;> (repeat' (first | (simp; done) | split)))

@[simp] theorem abortSelfTest_frame (a0 : ℕ) (s : State) :
    (abortSelfTest a0 s).pending = s.pending ∧ (abortSelfTest a0 s).latch = s.latch ∧ (abortSelfTest a0 s).mem = s.mem ∧ (abortSelfTest a0 s).clk = s.clk ∧ (abortSelfTest a0 s).thm = s.thm ∧ (abortSelfTest a0 s).map = s.map ∧ (abortSelfTest a0 s).bnd = s.bnd ∧ (abortSelfTest a0 s).mbr = s.mbr ∧ (abortSelfTest a0 s).flt = s.flt ∧ (abortSelfTest a0 s).sec = s.sec ∧ (abortSelfTest a0 s).cpx = s.cpx ∧ (abortSelfTest a0 s).memc = s.memc ∧ (abortSelfTest a0 s).mov = s.mov ∧ (abortSelfTest a0 s).cst = s.cst ∧ (abortSelfTest a0 s).out = s.out ∧ (abortSelfTest a0 s).freeCtr = s.freeCtr := by
  unfold abortSelfTest
  try dsimp only
  first
    | (simp; done)
    | ((repeat' split) <;> simp; done)
    | (and_intros <;> (repeat' (first | (simp; done) | split)))

@[simp] theorem dropAdmin_frame (s : State) :
    (dropAdmin s).pending = s.pending ∧ (dropAdmin s).regs = s.regs ∧ (dropAdmin s).latch = s.latch ∧ (dropAdmin s).mem = s.mem ∧ (dropAdmin s).clk = s.clk ∧ (dropAdmin s).thm = s.thm ∧ (dropAdmin s).tck = s.tck ∧ (dropAdmin s).stm = s.stm ∧ (dropAdmin s).map = s.map ∧ (dropAdmin s).flc = s.flc ∧ (dropAdmin s).bnd = s.bnd ∧ (dropAdmin s).mbr = s.mbr ∧ (dropAdmin s).flt = s.flt ∧ (dropAdmin s).cpx = s.cpx ∧ (dropAdmin s).memc = s.memc ∧ (dropAdmin s).mov = s.mov ∧ (dropAdmin s).lnt = s.lnt ∧ (dropAdmin s).out = s.out ∧ (dropAdmin s).freeCtr = s.freeCtr := by
  unfold dropAdmin
  try dsimp only
  first
    | (simp; done)
    | ((repeat' split) <;> simp; done)
    | (and_intros <;> (repeat' (first | (simp; done) | split)))

@[simp] theorem resetDone_frame (s : State) :
    (resetDone s).pending = s.pending ∧ (resetDone s).latch = s.latch ∧ (resetDone s).mem = s.mem ∧ (resetDone s).clk = s.clk ∧ (resetDone s).thm = s.thm ∧ (resetDone s).tck = s.tck ∧ (resetDone s).stm = s.stm ∧ (resetDone s).map = s.map ∧ (resetDone s).flc = s.flc ∧ (resetDone s).bnd = s.bnd ∧ (resetDone s).mbr = s.mbr ∧ (resetDone s).flt = s.flt ∧ (resetDone s).sec = s.sec ∧ (resetDone s).cpx = s.cpx ∧ (resetDone s).memc = s.memc ∧ (resetDone s).mov = s.mov ∧ (resetDone s).cst = s.cst ∧ (resetDone s).out = s.out ∧ (resetDone s).freeCtr = s.freeCtr := by
  unfold resetDone
  try dsimp only
  first
    | (simp; done)
    | ((repeat' split) <;> simp; done)
    | (and_intros <;> (repeat' (first | (simp; done) | split)))

@[simp] theorem ctrlReset_frame (s : State) :
    (ctrlReset s).pending = s.pending ∧ (ctrlReset s).latch = s.latch ∧ (ctrlReset s).mem = s.mem ∧ (ctrlReset s).clk = s.clk ∧ (ctrlReset s).thm = s.thm ∧ (ctrlReset s).map = s.map ∧ (ctrlReset s).bnd = s.bnd ∧ (ctrlReset s).mbr = s.mbr ∧ (ctrlReset s).cpx = s.cpx ∧ (ctrlReset s).memc = s.memc ∧ (ctrlReset s).mov = s.mov ∧ (ctrlReset s).out = s.out ∧ (ctrlReset s).freeCtr = s.freeCtr := by
  unfold ctrlReset
  try dsimp only
  first
    | (simp; done)
    | ((repeat' split) <;> simp; done)
    | (and_intros <;> (repeat' (first | (simp; done) | split)))

@[simp] theorem shutdownStep_frame (s : State) :
    (shutdownStep s).pending = s.pending ∧ (shutdownStep s).regs = s.regs ∧ (shutdownStep s).latch = s.latch ∧ (shutdownStep s).mem = s.mem ∧ (shutdownStep s).sys = s.sys ∧ (shutdownStep s).clk = s.clk ∧ (shutdownStep s).thm = s.thm ∧ (shutdownStep s).tck = s.tck ∧ (shutdownStep s).stm = s.stm ∧ (shutdownStep s).flc = s.flc ∧ (shutdownStep s).bnd = s.bnd ∧ (shutdownStep s).mbr = s.mbr ∧ (shutdownStep s).flt = s.flt ∧ (shutdownStep s).sec = s.sec ∧ (shutdownStep s).cpx = s.cpx ∧ (shutdownStep s).memc = s.memc ∧ (shutdownStep s).mov = s.mov ∧ (shutdownStep s).cst = s.cst ∧ (shutdownStep s).lnt = s.lnt ∧ (shutdownStep s).out = s.out ∧ (shutdownStep s).freeCtr = s.freeCtr := by
  unfold shutdownStep
  try dsimp only
  first
    | (simp; done)
    | ((repeat' split) <;> simp; done)
    | (and_intros <;> (repeat' (first | (simp; done) | split)))

@[simp] theorem storeIde_frame (a0 : Word) (s : State) :
    (storeIde a0 s).pending = s.pending ∧ (storeIde a0 s).latch = s.latch ∧ (storeIde a0 s).mem = s.mem ∧ (storeIde a0 s).clk = s.clk ∧ (storeIde a0 s).thm = s.thm ∧ (storeIde a0 s).tck = s.tck ∧ (storeIde a0 s).stm = s.stm ∧ (storeIde a0 s).map = s.map ∧ (storeIde a0 s).flc = s.flc ∧ (storeIde a0 s).bnd = s.bnd ∧ (storeIde a0 s).mbr = s.mbr ∧ (storeIde a0 s).flt = s.flt ∧ (storeIde a0 s).sec = s.sec ∧ (storeIde a0 s).cpx = s.cpx ∧ (storeIde a0 s).memc = s.memc ∧ (storeIde a0 s).mov = s.mov ∧ (storeIde a0 s).cst = s.cst ∧ (storeIde a0 s).out = s.out ∧ (storeIde a0 s).freeCtr = s.freeCtr := by
  unfold storeIde
  try dsimp only
  first
    | (simp; done)
    | ((repeat' split) <;> simp; done)
    | (and_intros <;> (repeat' (first | (simp; done) | split)))

@[simp] theorem storeIdeKey_frame (a0 : Word) (s : State) :
    (storeIdeKey a0 s).pending = s.pending ∧ (storeIdeKey a0 s).latch = s.latch ∧ (storeIdeKey a0 s).mem = s.mem ∧ (storeIdeKey a0 s).clk = s.clk ∧ (storeIdeKey a0 s).thm = s.thm ∧ (storeIdeKey a0 s).tck = s.tck ∧ (storeIdeKey a0 s).stm = s.stm ∧ (storeIdeKey a0 s).map = s.map ∧ (storeIdeKey a0 s).flc = s.flc ∧ (storeIdeKey a0 s).bnd = s.bnd ∧ (storeIdeKey a0 s).mbr = s.mbr ∧ (storeIdeKey a0 s).flt = s.flt ∧ (storeIdeKey a0 s).sec = s.sec ∧ (storeIdeKey a0 s).cpx = s.cpx ∧ (storeIdeKey a0 s).memc = s.memc ∧ (storeIdeKey a0 s).mov = s.mov ∧ (storeIdeKey a0 s).cst = s.cst ∧ (storeIdeKey a0 s).out = s.out ∧ (storeIdeKey a0 s).freeCtr = s.freeCtr := by
  unfold storeIdeKey
  try dsimp only
  first
    | (simp; done)
    | ((repeat' split) <;> simp; done)
    | (and_intros <;> (repeat' (first | (simp; done) | split)))

/-! ### Streams -/

@[simp] theorem stmDone_frame (a0 : Src) (a1 : ℕ) (a2 : ℕ) (a3 : ℕ) (s : State) :
    (stmDone a0 a1 a2 a3 s).pending = s.pending ∧ (stmDone a0 a1 a2 a3 s).latch = s.latch ∧ (stmDone a0 a1 a2 a3 s).mem = s.mem ∧ (stmDone a0 a1 a2 a3 s).clk = s.clk ∧ (stmDone a0 a1 a2 a3 s).thm = s.thm ∧ (stmDone a0 a1 a2 a3 s).tck = s.tck ∧ (stmDone a0 a1 a2 a3 s).hif = s.hif ∧ (stmDone a0 a1 a2 a3 s).stm = s.stm ∧ (stmDone a0 a1 a2 a3 s).map = s.map ∧ (stmDone a0 a1 a2 a3 s).flc = s.flc ∧ (stmDone a0 a1 a2 a3 s).bnd = s.bnd ∧ (stmDone a0 a1 a2 a3 s).mbr = s.mbr ∧ (stmDone a0 a1 a2 a3 s).flt = s.flt ∧ (stmDone a0 a1 a2 a3 s).sec = s.sec ∧ (stmDone a0 a1 a2 a3 s).cpx = s.cpx ∧ (stmDone a0 a1 a2 a3 s).memc = s.memc ∧ (stmDone a0 a1 a2 a3 s).mov = s.mov ∧ (stmDone a0 a1 a2 a3 s).cst = s.cst ∧ (stmDone a0 a1 a2 a3 s).freeCtr = s.freeCtr := by
  unfold stmDone
  try dsimp only
  first
    | (simp; done)
    | ((repeat' split) <;> simp; done)
    | (and_intros <;> (repeat' (first | (simp; done) | split)))

@[simp] theorem openStream_frame (a0 : ℕ) (a1 : ℕ) (s : State) :
    (openStream a0 a1 s).pending = s.pending ∧ (openStream a0 a1 s).regs = s.regs ∧ (openStream a0 a1 s).latch = s.latch ∧ (openStream a0 a1 s).mem = s.mem ∧ (openStream a0 a1 s).sys = s.sys ∧ (openStream a0 a1 s).clk = s.clk ∧ (openStream a0 a1 s).thm = s.thm ∧ (openStream a0 a1 s).tck = s.tck ∧ (openStream a0 a1 s).hif = s.hif ∧ (openStream a0 a1 s).map = s.map ∧ (openStream a0 a1 s).flc = s.flc ∧ (openStream a0 a1 s).bnd = s.bnd ∧ (openStream a0 a1 s).mbr = s.mbr ∧ (openStream a0 a1 s).flt = s.flt ∧ (openStream a0 a1 s).sec = s.sec ∧ (openStream a0 a1 s).cpx = s.cpx ∧ (openStream a0 a1 s).memc = s.memc ∧ (openStream a0 a1 s).mov = s.mov ∧ (openStream a0 a1 s).cst = s.cst ∧ (openStream a0 a1 s).lnt = s.lnt ∧ (openStream a0 a1 s).out = s.out ∧ (openStream a0 a1 s).freeCtr = s.freeCtr := by
  unfold openStream
  try dsimp only
  first
    | (simp; done)
    | ((repeat' split) <;> simp; done)
    | (and_intros <;> (repeat' (first | (simp; done) | split)))

@[simp] theorem latchStream_frame (a0 : Src) (a1 : ℕ) (a2 : ℕ) (a3 : StreamReq) (s : State) :
    (latchStream a0 a1 a2 a3 s).pending = s.pending ∧ (latchStream a0 a1 a2 a3 s).latch = s.latch ∧ (latchStream a0 a1 a2 a3 s).mem = s.mem ∧ (latchStream a0 a1 a2 a3 s).clk = s.clk ∧ (latchStream a0 a1 a2 a3 s).thm = s.thm ∧ (latchStream a0 a1 a2 a3 s).tck = s.tck ∧ (latchStream a0 a1 a2 a3 s).hif = s.hif ∧ (latchStream a0 a1 a2 a3 s).map = s.map ∧ (latchStream a0 a1 a2 a3 s).flc = s.flc ∧ (latchStream a0 a1 a2 a3 s).bnd = s.bnd ∧ (latchStream a0 a1 a2 a3 s).mbr = s.mbr ∧ (latchStream a0 a1 a2 a3 s).flt = s.flt ∧ (latchStream a0 a1 a2 a3 s).sec = s.sec ∧ (latchStream a0 a1 a2 a3 s).cpx = s.cpx ∧ (latchStream a0 a1 a2 a3 s).memc = s.memc ∧ (latchStream a0 a1 a2 a3 s).mov = s.mov ∧ (latchStream a0 a1 a2 a3 s).cst = s.cst ∧ (latchStream a0 a1 a2 a3 s).freeCtr = s.freeCtr := by
  unfold latchStream
  try dsimp only
  first
    | (simp; done)
    | ((repeat' split) <;> simp; done)
    | (and_intros <;> (repeat' (first | (simp; done) | split)))

theorem markHanded_pending (a0 : ℕ) (s : State) : (markHanded a0 s).pending = s.pending := by
  unfold markHanded
  try dsimp only
  first
    | (simp; done)
    | ((repeat' split) <;> simp; done)
    | (repeat' (first | (simp; done) | split))

theorem markHanded_regs (a0 : ℕ) (s : State) : (markHanded a0 s).regs = s.regs := by
  unfold markHanded
  try dsimp only
  first
    | (simp; done)
    | ((repeat' split) <;> simp; done)
    | (repeat' (first | (simp; done) | split))

theorem markHanded_latch (a0 : ℕ) (s : State) : (markHanded a0 s).latch = s.latch := by
  unfold markHanded
  try dsimp only
  first
    | (simp; done)
    | ((repeat' split) <;> simp; done)
    | (repeat' (first | (simp; done) | split))

theorem markHanded_mem (a0 : ℕ) (s : State) : (markHanded a0 s).mem = s.mem := by
  unfold markHanded
  try dsimp only
  first
    | (simp; done)
    | ((repeat' split) <;> simp; done)
    | (repeat' (first | (simp; done) | split))

theorem markHanded_sys (a0 : ℕ) (s : State) : (markHanded a0 s).sys = s.sys := by
  unfold markHanded
  try dsimp only
  first
    | (simp; done)
    | ((repeat' split) <;> simp; done)
    | (repeat' (first | (simp; done) | split))

theorem markHanded_clk (a0 : ℕ) (s : State) : (markHanded a0 s).clk = s.clk := by
  unfold markHanded
  try dsimp only
  first
    | (simp; done)
    | ((repeat' split) <;> simp; done)
    | (repeat' (first | (simp; done) | split))

theorem markHanded_thm (a0 : ℕ) (s : State) : (markHanded a0 s).thm = s.thm := by
  unfold markHanded
  try dsimp only
  first
    | (simp; done)
    | ((repeat' split) <;> simp; done)
    | (repeat' (first | (simp; done) | split))

theorem markHanded_stm (a0 : ℕ) (s : State) : (markHanded a0 s).stm = s.stm := by
  unfold markHanded
  try dsimp only
  first
    | (simp; done)
    | ((repeat' split) <;> simp; done)
    | (repeat' (first | (simp; done) | split))

theorem markHanded_flc (a0 : ℕ) (s : State) : (markHanded a0 s).flc = s.flc := by
  unfold markHanded
  try dsimp only
  first
    | (simp; done)
    | ((repeat' split) <;> simp; done)
    | (repeat' (first | (simp; done) | split))

theorem markHanded_mbr (a0 : ℕ) (s : State) : (markHanded a0 s).mbr = s.mbr := by
  unfold markHanded
  try dsimp only
  first
    | (simp; done)
    | ((repeat' split) <;> simp; done)
    | (repeat' (first | (simp; done) | split))

theorem markHanded_flt (a0 : ℕ) (s : State) : (markHanded a0 s).flt = s.flt := by
  unfold markHanded
  try dsimp only
  first
    | (simp; done)
    | ((repeat' split) <;> simp; done)
    | (repeat' (first | (simp; done) | split))

theorem markHanded_sec (a0 : ℕ) (s : State) : (markHanded a0 s).sec = s.sec := by
  unfold markHanded
  try dsimp only
  first
    | (simp; done)
    | ((repeat' split) <;> simp; done)
    | (repeat' (first | (simp; done) | split))

theorem markHanded_cpx (a0 : ℕ) (s : State) : (markHanded a0 s).cpx = s.cpx := by
  unfold markHanded
  try dsimp only
  first
    | (simp; done)
    | ((repeat' split) <;> simp; done)
    | (repeat' (first | (simp; done) | split))

theorem markHanded_memc (a0 : ℕ) (s : State) : (markHanded a0 s).memc = s.memc := by
  unfold markHanded
  try dsimp only
  first
    | (simp; done)
    | ((repeat' split) <;> simp; done)
    | (repeat' (first | (simp; done) | split))

theorem markHanded_mov (a0 : ℕ) (s : State) : (markHanded a0 s).mov = s.mov := by
  unfold markHanded
  try dsimp only
  first
    | (simp; done)
    | ((repeat' split) <;> simp; done)
    | (repeat' (first | (simp; done) | split))

theorem markHanded_cst (a0 : ℕ) (s : State) : (markHanded a0 s).cst = s.cst := by
  unfold markHanded
  try dsimp only
  first
    | (simp; done)
    | ((repeat' split) <;> simp; done)
    | (repeat' (first | (simp; done) | split))

theorem markHanded_lnt (a0 : ℕ) (s : State) : (markHanded a0 s).lnt = s.lnt := by
  unfold markHanded
  try dsimp only
  first
    | (simp; done)
    | ((repeat' split) <;> simp; done)
    | (repeat' (first | (simp; done) | split))

theorem markHanded_out (a0 : ℕ) (s : State) : (markHanded a0 s).out = s.out := by
  unfold markHanded
  try dsimp only
  first
    | (simp; done)
    | ((repeat' split) <;> simp; done)
    | (repeat' (first | (simp; done) | split))

theorem markHanded_freeCtr (a0 : ℕ) (s : State) : (markHanded a0 s).freeCtr = s.freeCtr := by
  unfold markHanded
  try dsimp only
  first
    | (simp; done)
    | ((repeat' split) <;> simp; done)
    | (repeat' (first | (simp; done) | split))

@[simp] theorem markHanded_frame (a0 : ℕ) (s : State) :
    (markHanded a0 s).pending = s.pending ∧ (markHanded a0 s).regs = s.regs ∧ (markHanded a0 s).latch = s.latch ∧ (markHanded a0 s).mem = s.mem ∧ (markHanded a0 s).sys = s.sys ∧ (markHanded a0 s).clk = s.clk ∧ (markHanded a0 s).thm = s.thm ∧ (markHanded a0 s).stm = s.stm ∧ (markHanded a0 s).flc = s.flc ∧ (markHanded a0 s).mbr = s.mbr ∧ (markHanded a0 s).flt = s.flt ∧ (markHanded a0 s).sec = s.sec ∧ (markHanded a0 s).cpx = s.cpx ∧ (markHanded a0 s).memc = s.memc ∧ (markHanded a0 s).mov = s.mov ∧ (markHanded a0 s).cst = s.cst ∧ (markHanded a0 s).lnt = s.lnt ∧ (markHanded a0 s).out = s.out ∧ (markHanded a0 s).freeCtr = s.freeCtr :=
  ⟨markHanded_pending a0 s, markHanded_regs a0 s, markHanded_latch a0 s, markHanded_mem a0 s, markHanded_sys a0 s, markHanded_clk a0 s, markHanded_thm a0 s, markHanded_stm a0 s, markHanded_flc a0 s, markHanded_mbr a0 s, markHanded_flt a0 s, markHanded_sec a0 s, markHanded_cpx a0 s, markHanded_memc a0 s, markHanded_mov a0 s, markHanded_cst a0 s, markHanded_lnt a0 s, markHanded_out a0 s, markHanded_freeCtr a0 s⟩

@[simp] theorem admitStream_frame (a0 : Option (Src × ℕ)) (a1 : ℕ) (a2 : ℕ) (a3 : ℕ) (a4 : ℕ) (s : State) :
    (admitStream a0 a1 a2 a3 a4 s).pending = s.pending ∧ (admitStream a0 a1 a2 a3 a4 s).latch = s.latch ∧ (admitStream a0 a1 a2 a3 a4 s).mem = s.mem ∧ (admitStream a0 a1 a2 a3 a4 s).clk = s.clk ∧ (admitStream a0 a1 a2 a3 a4 s).thm = s.thm ∧ (admitStream a0 a1 a2 a3 a4 s).map = s.map ∧ (admitStream a0 a1 a2 a3 a4 s).flc = s.flc ∧ (admitStream a0 a1 a2 a3 a4 s).bnd = s.bnd ∧ (admitStream a0 a1 a2 a3 a4 s).mbr = s.mbr ∧ (admitStream a0 a1 a2 a3 a4 s).flt = s.flt ∧ (admitStream a0 a1 a2 a3 a4 s).sec = s.sec ∧ (admitStream a0 a1 a2 a3 a4 s).cpx = s.cpx ∧ (admitStream a0 a1 a2 a3 a4 s).memc = s.memc ∧ (admitStream a0 a1 a2 a3 a4 s).mov = s.mov ∧ (admitStream a0 a1 a2 a3 a4 s).cst = s.cst ∧ (admitStream a0 a1 a2 a3 a4 s).freeCtr = s.freeCtr := by
  unfold admitStream
  try dsimp only
  first
    | (simp; done)
    | ((repeat' split) <;> simp; done)
    | (and_intros <;> (repeat' (first | (simp; done) | split)))

@[simp] theorem refuseReserve_frame (a0 : Src) (a1 : ℕ) (a2 : ℕ) (a3 : ℕ) (s : State) :
    (refuseReserve a0 a1 a2 a3 s).pending = s.pending ∧ (refuseReserve a0 a1 a2 a3 s).latch = s.latch ∧ (refuseReserve a0 a1 a2 a3 s).mem = s.mem ∧ (refuseReserve a0 a1 a2 a3 s).clk = s.clk ∧ (refuseReserve a0 a1 a2 a3 s).thm = s.thm ∧ (refuseReserve a0 a1 a2 a3 s).tck = s.tck ∧ (refuseReserve a0 a1 a2 a3 s).hif = s.hif ∧ (refuseReserve a0 a1 a2 a3 s).stm = s.stm ∧ (refuseReserve a0 a1 a2 a3 s).map = s.map ∧ (refuseReserve a0 a1 a2 a3 s).flc = s.flc ∧ (refuseReserve a0 a1 a2 a3 s).bnd = s.bnd ∧ (refuseReserve a0 a1 a2 a3 s).mbr = s.mbr ∧ (refuseReserve a0 a1 a2 a3 s).flt = s.flt ∧ (refuseReserve a0 a1 a2 a3 s).sec = s.sec ∧ (refuseReserve a0 a1 a2 a3 s).cpx = s.cpx ∧ (refuseReserve a0 a1 a2 a3 s).memc = s.memc ∧ (refuseReserve a0 a1 a2 a3 s).mov = s.mov ∧ (refuseReserve a0 a1 a2 a3 s).cst = s.cst ∧ (refuseReserve a0 a1 a2 a3 s).freeCtr = s.freeCtr := by
  unfold refuseReserve
  try dsimp only
  first
    | (simp; done)
    | ((repeat' split) <;> simp; done)
    | (and_intros <;> (repeat' (first | (simp; done) | split)))

theorem closeStream_x0 {a0 : ℕ} {s : State} {t : State} (h : closeStream a0 s = some t) : t.pending = s.pending := by
  unfold closeStream at h
  try dsimp only at h
  (repeat' split at h) <;> simp at h <;> (try (obtain ⟨h1, h2⟩ := h)) <;> (first | subst h | subst h2 | skip) <;>
    first | (simp_all; done) | (have h' := takeSlot_frame (by assumption); simp_all; done) | (obtain ⟨u, hu, h'⟩ := h; have h3 := placePage_frame hu; simp_all; done) | (obtain ⟨u, hu, h'⟩ := h1; have h3 := placePage_frame hu; simp_all; done)

theorem closeStream_x1 {a0 : ℕ} {s : State} {t : State} (h : closeStream a0 s = some t) : t.latch = s.latch := by
  unfold closeStream at h
  try dsimp only at h
  (repeat' split at h) <;> simp at h <;> (try (obtain ⟨h1, h2⟩ := h)) <;> (first | subst h | subst h2 | skip) <;>
    first | (simp_all; done) | (have h' := takeSlot_frame (by assumption); simp_all; done) | (obtain ⟨u, hu, h'⟩ := h; have h3 := placePage_frame hu; simp_all; done) | (obtain ⟨u, hu, h'⟩ := h1; have h3 := placePage_frame hu; simp_all; done)

theorem closeStream_x2 {a0 : ℕ} {s : State} {t : State} (h : closeStream a0 s = some t) : t.mem = s.mem := by
  unfold closeStream at h
  try dsimp only at h
  (repeat' split at h) <;> simp at h <;> (try (obtain ⟨h1, h2⟩ := h)) <;> (first | subst h | subst h2 | skip) <;>
    first | (simp_all; done) | (have h' := takeSlot_frame (by assumption); simp_all; done) | (obtain ⟨u, hu, h'⟩ := h; have h3 := placePage_frame hu; simp_all; done) | (obtain ⟨u, hu, h'⟩ := h1; have h3 := placePage_frame hu; simp_all; done)

theorem closeStream_x3 {a0 : ℕ} {s : State} {t : State} (h : closeStream a0 s = some t) : t.clk = s.clk := by
  unfold closeStream at h
  try dsimp only at h
  (repeat' split at h) <;> simp at h <;> (try (obtain ⟨h1, h2⟩ := h)) <;> (first | subst h | subst h2 | skip) <;>
    first | (simp_all; done) | (have h' := takeSlot_frame (by assumption); simp_all; done) | (obtain ⟨u, hu, h'⟩ := h; have h3 := placePage_frame hu; simp_all; done) | (obtain ⟨u, hu, h'⟩ := h1; have h3 := placePage_frame hu; simp_all; done)

theorem closeStream_x4 {a0 : ℕ} {s : State} {t : State} (h : closeStream a0 s = some t) : t.thm = s.thm := by
  unfold closeStream at h
  try dsimp only at h
  (repeat' split at h) <;> simp at h <;> (try (obtain ⟨h1, h2⟩ := h)) <;> (first | subst h | subst h2 | skip) <;>
    first | (simp_all; done) | (have h' := takeSlot_frame (by assumption); simp_all; done) | (obtain ⟨u, hu, h'⟩ := h; have h3 := placePage_frame hu; simp_all; done) | (obtain ⟨u, hu, h'⟩ := h1; have h3 := placePage_frame hu; simp_all; done)

theorem closeStream_x5 {a0 : ℕ} {s : State} {t : State} (h : closeStream a0 s = some t) : t.flc = s.flc := by
  unfold closeStream at h
  try dsimp only at h
  (repeat' split at h) <;> simp at h <;> (try (obtain ⟨h1, h2⟩ := h)) <;> (first | subst h | subst h2 | skip) <;>
    first | (simp_all; done) | (have h' := takeSlot_frame (by assumption); simp_all; done) | (obtain ⟨u, hu, h'⟩ := h; have h3 := placePage_frame hu; simp_all; done) | (obtain ⟨u, hu, h'⟩ := h1; have h3 := placePage_frame hu; simp_all; done)

theorem closeStream_x6 {a0 : ℕ} {s : State} {t : State} (h : closeStream a0 s = some t) : t.mbr = s.mbr := by
  unfold closeStream at h
  try dsimp only at h
  (repeat' split at h) <;> simp at h <;> (try (obtain ⟨h1, h2⟩ := h)) <;> (first | subst h | subst h2 | skip) <;>
    first | (simp_all; done) | (have h' := takeSlot_frame (by assumption); simp_all; done) | (obtain ⟨u, hu, h'⟩ := h; have h3 := placePage_frame hu; simp_all; done) | (obtain ⟨u, hu, h'⟩ := h1; have h3 := placePage_frame hu; simp_all; done)

theorem closeStream_x7 {a0 : ℕ} {s : State} {t : State} (h : closeStream a0 s = some t) : t.flt = s.flt := by
  unfold closeStream at h
  try dsimp only at h
  (repeat' split at h) <;> simp at h <;> (try (obtain ⟨h1, h2⟩ := h)) <;> (first | subst h | subst h2 | skip) <;>
    first | (simp_all; done) | (have h' := takeSlot_frame (by assumption); simp_all; done) | (obtain ⟨u, hu, h'⟩ := h; have h3 := placePage_frame hu; simp_all; done) | (obtain ⟨u, hu, h'⟩ := h1; have h3 := placePage_frame hu; simp_all; done)

theorem closeStream_x8 {a0 : ℕ} {s : State} {t : State} (h : closeStream a0 s = some t) : t.sec = s.sec := by
  unfold closeStream at h
  try dsimp only at h
  (repeat' split at h) <;> simp at h <;> (try (obtain ⟨h1, h2⟩ := h)) <;> (first | subst h | subst h2 | skip) <;>
    first | (simp_all; done) | (have h' := takeSlot_frame (by assumption); simp_all; done) | (obtain ⟨u, hu, h'⟩ := h; have h3 := placePage_frame hu; simp_all; done) | (obtain ⟨u, hu, h'⟩ := h1; have h3 := placePage_frame hu; simp_all; done)

theorem closeStream_x9 {a0 : ℕ} {s : State} {t : State} (h : closeStream a0 s = some t) : t.cpx = s.cpx := by
  unfold closeStream at h
  try dsimp only at h
  (repeat' split at h) <;> simp at h <;> (try (obtain ⟨h1, h2⟩ := h)) <;> (first | subst h | subst h2 | skip) <;>
    first | (simp_all; done) | (have h' := takeSlot_frame (by assumption); simp_all; done) | (obtain ⟨u, hu, h'⟩ := h; have h3 := placePage_frame hu; simp_all; done) | (obtain ⟨u, hu, h'⟩ := h1; have h3 := placePage_frame hu; simp_all; done)

theorem closeStream_x10 {a0 : ℕ} {s : State} {t : State} (h : closeStream a0 s = some t) : t.memc = s.memc := by
  unfold closeStream at h
  try dsimp only at h
  (repeat' split at h) <;> simp at h <;> (try (obtain ⟨h1, h2⟩ := h)) <;> (first | subst h | subst h2 | skip) <;>
    first | (simp_all; done) | (have h' := takeSlot_frame (by assumption); simp_all; done) | (obtain ⟨u, hu, h'⟩ := h; have h3 := placePage_frame hu; simp_all; done) | (obtain ⟨u, hu, h'⟩ := h1; have h3 := placePage_frame hu; simp_all; done)

theorem closeStream_x11 {a0 : ℕ} {s : State} {t : State} (h : closeStream a0 s = some t) : t.mov = s.mov := by
  unfold closeStream at h
  try dsimp only at h
  (repeat' split at h) <;> simp at h <;> (try (obtain ⟨h1, h2⟩ := h)) <;> (first | subst h | subst h2 | skip) <;>
    first | (simp_all; done) | (have h' := takeSlot_frame (by assumption); simp_all; done) | (obtain ⟨u, hu, h'⟩ := h; have h3 := placePage_frame hu; simp_all; done) | (obtain ⟨u, hu, h'⟩ := h1; have h3 := placePage_frame hu; simp_all; done)

theorem closeStream_x12 {a0 : ℕ} {s : State} {t : State} (h : closeStream a0 s = some t) : t.cst = s.cst := by
  unfold closeStream at h
  try dsimp only at h
  (repeat' split at h) <;> simp at h <;> (try (obtain ⟨h1, h2⟩ := h)) <;> (first | subst h | subst h2 | skip) <;>
    first | (simp_all; done) | (have h' := takeSlot_frame (by assumption); simp_all; done) | (obtain ⟨u, hu, h'⟩ := h; have h3 := placePage_frame hu; simp_all; done) | (obtain ⟨u, hu, h'⟩ := h1; have h3 := placePage_frame hu; simp_all; done)

theorem closeStream_x13 {a0 : ℕ} {s : State} {t : State} (h : closeStream a0 s = some t) : t.out = s.out := by
  unfold closeStream at h
  try dsimp only at h
  (repeat' split at h) <;> simp at h <;> (try (obtain ⟨h1, h2⟩ := h)) <;> (first | subst h | subst h2 | skip) <;>
    first | (simp_all; done) | (have h' := takeSlot_frame (by assumption); simp_all; done) | (obtain ⟨u, hu, h'⟩ := h; have h3 := placePage_frame hu; simp_all; done) | (obtain ⟨u, hu, h'⟩ := h1; have h3 := placePage_frame hu; simp_all; done)

theorem closeStream_x14 {a0 : ℕ} {s : State} {t : State} (h : closeStream a0 s = some t) : t.freeCtr = s.freeCtr := by
  unfold closeStream at h
  try dsimp only at h
  (repeat' split at h) <;> simp at h <;> (try (obtain ⟨h1, h2⟩ := h)) <;> (first | subst h | subst h2 | skip) <;>
    first | (simp_all; done) | (have h' := takeSlot_frame (by assumption); simp_all; done) | (obtain ⟨u, hu, h'⟩ := h; have h3 := placePage_frame hu; simp_all; done) | (obtain ⟨u, hu, h'⟩ := h1; have h3 := placePage_frame hu; simp_all; done)

@[simp] theorem closeStream_frame {a0 : ℕ} {s : State} {t : State} (h : closeStream a0 s = some t) :
    t.pending = s.pending ∧ t.latch = s.latch ∧ t.mem = s.mem ∧ t.clk = s.clk ∧ t.thm = s.thm ∧ t.flc = s.flc ∧ t.mbr = s.mbr ∧ t.flt = s.flt ∧ t.sec = s.sec ∧ t.cpx = s.cpx ∧ t.memc = s.memc ∧ t.mov = s.mov ∧ t.cst = s.cst ∧ t.out = s.out ∧ t.freeCtr = s.freeCtr :=
  ⟨closeStream_x0 h, closeStream_x1 h, closeStream_x2 h, closeStream_x3 h, closeStream_x4 h, closeStream_x5 h, closeStream_x6 h, closeStream_x7 h, closeStream_x8 h, closeStream_x9 h, closeStream_x10 h, closeStream_x11 h, closeStream_x12 h, closeStream_x13 h, closeStream_x14 h⟩

@[simp] theorem closeStream_getD (i : Nat) (s : State) :
    ((closeStream i s).getD s).pending = s.pending ∧ ((closeStream i s).getD s).latch = s.latch ∧ ((closeStream i s).getD s).mem = s.mem ∧ ((closeStream i s).getD s).clk = s.clk ∧ ((closeStream i s).getD s).thm = s.thm ∧ ((closeStream i s).getD s).flc = s.flc ∧ ((closeStream i s).getD s).mbr = s.mbr ∧ ((closeStream i s).getD s).flt = s.flt ∧ ((closeStream i s).getD s).sec = s.sec ∧ ((closeStream i s).getD s).cpx = s.cpx ∧ ((closeStream i s).getD s).memc = s.memc ∧ ((closeStream i s).getD s).mov = s.mov ∧ ((closeStream i s).getD s).cst = s.cst ∧ ((closeStream i s).getD s).out = s.out ∧ ((closeStream i s).getD s).freeCtr = s.freeCtr := by
  cases h : closeStream i s with
  | none => simp
  | some t => have h' := closeStream_frame h; simp [h']

theorem closeBound_pending (a0 : ℕ) (s : State) : (closeBound a0 s).pending = s.pending := by
  unfold closeBound
  try dsimp only
  repeat' (first | (simp; done) | (have h := appendRec_frame (by assumption); simp [h]; done) | (have h := takeSlot_frame (by assumption); simp [h]; done) | (have h := placePage_frame (by assumption); simp [h]; done) | (have h := placePart_frame (by assumption); simp [h]; done) | (have h := closeStream_frame (by assumption); simp [h]; done) | split | (refine (forAll_pending _ _ _ (fun x s => ?_)).trans ?_; try dsimp only) | (refine adminCmd_pending _ _ _ _ ?_; try dsimp only) | simp)

theorem closeBound_latch (a0 : ℕ) (s : State) : (closeBound a0 s).latch = s.latch := by
  unfold closeBound
  try dsimp only
  repeat' (first | (simp; done) | (have h := appendRec_frame (by assumption); simp [h]; done) | (have h := takeSlot_frame (by assumption); simp [h]; done) | (have h := placePage_frame (by assumption); simp [h]; done) | (have h := placePart_frame (by assumption); simp [h]; done) | (have h := closeStream_frame (by assumption); simp [h]; done) | split | (refine (forAll_latch _ _ _ (fun x s => ?_)).trans ?_; try dsimp only) | (refine adminCmd_latch _ _ _ _ ?_; try dsimp only) | simp)

theorem closeBound_mem (a0 : ℕ) (s : State) : (closeBound a0 s).mem = s.mem := by
  unfold closeBound
  try dsimp only
  repeat' (first | (simp; done) | (have h := appendRec_frame (by assumption); simp [h]; done) | (have h := takeSlot_frame (by assumption); simp [h]; done) | (have h := placePage_frame (by assumption); simp [h]; done) | (have h := placePart_frame (by assumption); simp [h]; done) | (have h := closeStream_frame (by assumption); simp [h]; done) | split | (refine (forAll_mem _ _ _ (fun x s => ?_)).trans ?_; try dsimp only) | (refine adminCmd_mem _ _ _ _ ?_; try dsimp only) | simp)

theorem closeBound_clk (a0 : ℕ) (s : State) : (closeBound a0 s).clk = s.clk := by
  unfold closeBound
  try dsimp only
  repeat' (first | (simp; done) | (have h := appendRec_frame (by assumption); simp [h]; done) | (have h := takeSlot_frame (by assumption); simp [h]; done) | (have h := placePage_frame (by assumption); simp [h]; done) | (have h := placePart_frame (by assumption); simp [h]; done) | (have h := closeStream_frame (by assumption); simp [h]; done) | split | (refine (forAll_clk _ _ _ (fun x s => ?_)).trans ?_; try dsimp only) | (refine adminCmd_clk _ _ _ _ ?_; try dsimp only) | simp)

theorem closeBound_thm (a0 : ℕ) (s : State) : (closeBound a0 s).thm = s.thm := by
  unfold closeBound
  try dsimp only
  repeat' (first | (simp; done) | (have h := appendRec_frame (by assumption); simp [h]; done) | (have h := takeSlot_frame (by assumption); simp [h]; done) | (have h := placePage_frame (by assumption); simp [h]; done) | (have h := placePart_frame (by assumption); simp [h]; done) | (have h := closeStream_frame (by assumption); simp [h]; done) | split | (refine (forAll_thm _ _ _ (fun x s => ?_)).trans ?_; try dsimp only) | (refine adminCmd_thm _ _ _ _ ?_; try dsimp only) | simp)

theorem closeBound_flc (a0 : ℕ) (s : State) : (closeBound a0 s).flc = s.flc := by
  unfold closeBound
  try dsimp only
  repeat' (first | (simp; done) | (have h := appendRec_frame (by assumption); simp [h]; done) | (have h := takeSlot_frame (by assumption); simp [h]; done) | (have h := placePage_frame (by assumption); simp [h]; done) | (have h := placePart_frame (by assumption); simp [h]; done) | (have h := closeStream_frame (by assumption); simp [h]; done) | split | (refine (forAll_flc _ _ _ (fun x s => ?_)).trans ?_; try dsimp only) | (refine adminCmd_flc _ _ _ _ ?_; try dsimp only) | simp)

theorem closeBound_mbr (a0 : ℕ) (s : State) : (closeBound a0 s).mbr = s.mbr := by
  unfold closeBound
  try dsimp only
  repeat' (first | (simp; done) | (have h := appendRec_frame (by assumption); simp [h]; done) | (have h := takeSlot_frame (by assumption); simp [h]; done) | (have h := placePage_frame (by assumption); simp [h]; done) | (have h := placePart_frame (by assumption); simp [h]; done) | (have h := closeStream_frame (by assumption); simp [h]; done) | split | (refine (forAll_mbr _ _ _ (fun x s => ?_)).trans ?_; try dsimp only) | (refine adminCmd_mbr _ _ _ _ ?_; try dsimp only) | simp)

theorem closeBound_flt (a0 : ℕ) (s : State) : (closeBound a0 s).flt = s.flt := by
  unfold closeBound
  try dsimp only
  repeat' (first | (simp; done) | (have h := appendRec_frame (by assumption); simp [h]; done) | (have h := takeSlot_frame (by assumption); simp [h]; done) | (have h := placePage_frame (by assumption); simp [h]; done) | (have h := placePart_frame (by assumption); simp [h]; done) | (have h := closeStream_frame (by assumption); simp [h]; done) | split | (refine (forAll_flt _ _ _ (fun x s => ?_)).trans ?_; try dsimp only) | (refine adminCmd_flt _ _ _ _ ?_; try dsimp only) | simp)

theorem closeBound_sec (a0 : ℕ) (s : State) : (closeBound a0 s).sec = s.sec := by
  unfold closeBound
  try dsimp only
  repeat' (first | (simp; done) | (have h := appendRec_frame (by assumption); simp [h]; done) | (have h := takeSlot_frame (by assumption); simp [h]; done) | (have h := placePage_frame (by assumption); simp [h]; done) | (have h := placePart_frame (by assumption); simp [h]; done) | (have h := closeStream_frame (by assumption); simp [h]; done) | split | (refine (forAll_sec _ _ _ (fun x s => ?_)).trans ?_; try dsimp only) | (refine adminCmd_sec _ _ _ _ ?_; try dsimp only) | simp)

theorem closeBound_cpx (a0 : ℕ) (s : State) : (closeBound a0 s).cpx = s.cpx := by
  unfold closeBound
  try dsimp only
  repeat' (first | (simp; done) | (have h := appendRec_frame (by assumption); simp [h]; done) | (have h := takeSlot_frame (by assumption); simp [h]; done) | (have h := placePage_frame (by assumption); simp [h]; done) | (have h := placePart_frame (by assumption); simp [h]; done) | (have h := closeStream_frame (by assumption); simp [h]; done) | split | (refine (forAll_cpx _ _ _ (fun x s => ?_)).trans ?_; try dsimp only) | (refine adminCmd_cpx _ _ _ _ ?_; try dsimp only) | simp)

theorem closeBound_memc (a0 : ℕ) (s : State) : (closeBound a0 s).memc = s.memc := by
  unfold closeBound
  try dsimp only
  repeat' (first | (simp; done) | (have h := appendRec_frame (by assumption); simp [h]; done) | (have h := takeSlot_frame (by assumption); simp [h]; done) | (have h := placePage_frame (by assumption); simp [h]; done) | (have h := placePart_frame (by assumption); simp [h]; done) | (have h := closeStream_frame (by assumption); simp [h]; done) | split | (refine (forAll_memc _ _ _ (fun x s => ?_)).trans ?_; try dsimp only) | (refine adminCmd_memc _ _ _ _ ?_; try dsimp only) | simp)

theorem closeBound_mov (a0 : ℕ) (s : State) : (closeBound a0 s).mov = s.mov := by
  unfold closeBound
  try dsimp only
  repeat' (first | (simp; done) | (have h := appendRec_frame (by assumption); simp [h]; done) | (have h := takeSlot_frame (by assumption); simp [h]; done) | (have h := placePage_frame (by assumption); simp [h]; done) | (have h := placePart_frame (by assumption); simp [h]; done) | (have h := closeStream_frame (by assumption); simp [h]; done) | split | (refine (forAll_mov _ _ _ (fun x s => ?_)).trans ?_; try dsimp only) | (refine adminCmd_mov _ _ _ _ ?_; try dsimp only) | simp)

theorem closeBound_cst (a0 : ℕ) (s : State) : (closeBound a0 s).cst = s.cst := by
  unfold closeBound
  try dsimp only
  repeat' (first | (simp; done) | (have h := appendRec_frame (by assumption); simp [h]; done) | (have h := takeSlot_frame (by assumption); simp [h]; done) | (have h := placePage_frame (by assumption); simp [h]; done) | (have h := placePart_frame (by assumption); simp [h]; done) | (have h := closeStream_frame (by assumption); simp [h]; done) | split | (refine (forAll_cst _ _ _ (fun x s => ?_)).trans ?_; try dsimp only) | (refine adminCmd_cst _ _ _ _ ?_; try dsimp only) | simp)

theorem closeBound_out (a0 : ℕ) (s : State) : (closeBound a0 s).out = s.out := by
  unfold closeBound
  try dsimp only
  repeat' (first | (simp; done) | (have h := appendRec_frame (by assumption); simp [h]; done) | (have h := takeSlot_frame (by assumption); simp [h]; done) | (have h := placePage_frame (by assumption); simp [h]; done) | (have h := placePart_frame (by assumption); simp [h]; done) | (have h := closeStream_frame (by assumption); simp [h]; done) | split | (refine (forAll_out _ _ _ (fun x s => ?_)).trans ?_; try dsimp only) | simp)

theorem closeBound_freeCtr (a0 : ℕ) (s : State) : (closeBound a0 s).freeCtr = s.freeCtr := by
  unfold closeBound
  try dsimp only
  repeat' (first | (simp; done) | (have h := appendRec_frame (by assumption); simp [h]; done) | (have h := takeSlot_frame (by assumption); simp [h]; done) | (have h := placePage_frame (by assumption); simp [h]; done) | (have h := placePart_frame (by assumption); simp [h]; done) | (have h := closeStream_frame (by assumption); simp [h]; done) | split | (refine (forAll_freeCtr _ _ _ (fun x s => ?_)).trans ?_; try dsimp only) | (refine adminCmd_freeCtr _ _ _ _ ?_; try dsimp only) | simp)

@[simp] theorem closeBound_frame (a0 : ℕ) (s : State) :
    (closeBound a0 s).pending = s.pending ∧ (closeBound a0 s).latch = s.latch ∧ (closeBound a0 s).mem = s.mem ∧ (closeBound a0 s).clk = s.clk ∧ (closeBound a0 s).thm = s.thm ∧ (closeBound a0 s).flc = s.flc ∧ (closeBound a0 s).mbr = s.mbr ∧ (closeBound a0 s).flt = s.flt ∧ (closeBound a0 s).sec = s.sec ∧ (closeBound a0 s).cpx = s.cpx ∧ (closeBound a0 s).memc = s.memc ∧ (closeBound a0 s).mov = s.mov ∧ (closeBound a0 s).cst = s.cst ∧ (closeBound a0 s).out = s.out ∧ (closeBound a0 s).freeCtr = s.freeCtr :=
  ⟨closeBound_pending a0 s, closeBound_latch a0 s, closeBound_mem a0 s, closeBound_clk a0 s, closeBound_thm a0 s, closeBound_flc a0 s, closeBound_mbr a0 s, closeBound_flt a0 s, closeBound_sec a0 s, closeBound_cpx a0 s, closeBound_memc a0 s, closeBound_mov a0 s, closeBound_cst a0 s, closeBound_out a0 s, closeBound_freeCtr a0 s⟩

theorem releaseStep_pending (s : State) : (releaseStep s).pending = s.pending := by
  unfold releaseStep
  try dsimp only
  first
    | (simp; done)
    | ((repeat' split) <;> simp; done)
    | (repeat' (first | (simp; done) | split))

theorem releaseStep_latch (s : State) : (releaseStep s).latch = s.latch := by
  unfold releaseStep
  try dsimp only
  first
    | (simp; done)
    | ((repeat' split) <;> simp; done)
    | (repeat' (first | (simp; done) | split))

theorem releaseStep_mem (s : State) : (releaseStep s).mem = s.mem := by
  unfold releaseStep
  try dsimp only
  first
    | (simp; done)
    | ((repeat' split) <;> simp; done)
    | (repeat' (first | (simp; done) | split))

theorem releaseStep_clk (s : State) : (releaseStep s).clk = s.clk := by
  unfold releaseStep
  try dsimp only
  first
    | (simp; done)
    | ((repeat' split) <;> simp; done)
    | (repeat' (first | (simp; done) | split))

theorem releaseStep_thm (s : State) : (releaseStep s).thm = s.thm := by
  unfold releaseStep
  try dsimp only
  first
    | (simp; done)
    | ((repeat' split) <;> simp; done)
    | (repeat' (first | (simp; done) | split))

theorem releaseStep_hif (s : State) : (releaseStep s).hif = s.hif := by
  unfold releaseStep
  try dsimp only
  first
    | (simp; done)
    | ((repeat' split) <;> simp; done)
    | (repeat' (first | (simp; done) | split))

theorem releaseStep_stm (s : State) : (releaseStep s).stm = s.stm := by
  unfold releaseStep
  try dsimp only
  first
    | (simp; done)
    | ((repeat' split) <;> simp; done)
    | (repeat' (first | (simp; done) | split))

theorem releaseStep_flc (s : State) : (releaseStep s).flc = s.flc := by
  unfold releaseStep
  try dsimp only
  first
    | (simp; done)
    | ((repeat' split) <;> simp; done)
    | (repeat' (first | (simp; done) | split))

theorem releaseStep_mbr (s : State) : (releaseStep s).mbr = s.mbr := by
  unfold releaseStep
  try dsimp only
  first
    | (simp; done)
    | ((repeat' split) <;> simp; done)
    | (repeat' (first | (simp; done) | split))

theorem releaseStep_flt (s : State) : (releaseStep s).flt = s.flt := by
  unfold releaseStep
  try dsimp only
  first
    | (simp; done)
    | ((repeat' split) <;> simp; done)
    | (repeat' (first | (simp; done) | split))

theorem releaseStep_sec (s : State) : (releaseStep s).sec = s.sec := by
  unfold releaseStep
  try dsimp only
  first
    | (simp; done)
    | ((repeat' split) <;> simp; done)
    | (repeat' (first | (simp; done) | split))

theorem releaseStep_cpx (s : State) : (releaseStep s).cpx = s.cpx := by
  unfold releaseStep
  try dsimp only
  first
    | (simp; done)
    | ((repeat' split) <;> simp; done)
    | (repeat' (first | (simp; done) | split))

theorem releaseStep_memc (s : State) : (releaseStep s).memc = s.memc := by
  unfold releaseStep
  try dsimp only
  first
    | (simp; done)
    | ((repeat' split) <;> simp; done)
    | (repeat' (first | (simp; done) | split))

theorem releaseStep_mov (s : State) : (releaseStep s).mov = s.mov := by
  unfold releaseStep
  try dsimp only
  first
    | (simp; done)
    | ((repeat' split) <;> simp; done)
    | (repeat' (first | (simp; done) | split))

theorem releaseStep_cst (s : State) : (releaseStep s).cst = s.cst := by
  unfold releaseStep
  try dsimp only
  first
    | (simp; done)
    | ((repeat' split) <;> simp; done)
    | (repeat' (first | (simp; done) | split))

theorem releaseStep_out (s : State) : (releaseStep s).out = s.out := by
  unfold releaseStep
  try dsimp only
  first
    | (simp; done)
    | ((repeat' split) <;> simp; done)
    | (repeat' (first | (simp; done) | split))

theorem releaseStep_freeCtr (s : State) : (releaseStep s).freeCtr = s.freeCtr := by
  unfold releaseStep
  try dsimp only
  first
    | (simp; done)
    | ((repeat' split) <;> simp; done)
    | (repeat' (first | (simp; done) | split))

@[simp] theorem releaseStep_frame (s : State) :
    (releaseStep s).pending = s.pending ∧ (releaseStep s).latch = s.latch ∧ (releaseStep s).mem = s.mem ∧ (releaseStep s).clk = s.clk ∧ (releaseStep s).thm = s.thm ∧ (releaseStep s).hif = s.hif ∧ (releaseStep s).stm = s.stm ∧ (releaseStep s).flc = s.flc ∧ (releaseStep s).mbr = s.mbr ∧ (releaseStep s).flt = s.flt ∧ (releaseStep s).sec = s.sec ∧ (releaseStep s).cpx = s.cpx ∧ (releaseStep s).memc = s.memc ∧ (releaseStep s).mov = s.mov ∧ (releaseStep s).cst = s.cst ∧ (releaseStep s).out = s.out ∧ (releaseStep s).freeCtr = s.freeCtr :=
  ⟨releaseStep_pending s, releaseStep_latch s, releaseStep_mem s, releaseStep_clk s, releaseStep_thm s, releaseStep_hif s, releaseStep_stm s, releaseStep_flc s, releaseStep_mbr s, releaseStep_flt s, releaseStep_sec s, releaseStep_cpx s, releaseStep_memc s, releaseStep_mov s, releaseStep_cst s, releaseStep_out s, releaseStep_freeCtr s⟩

@[simp] theorem carryLatch_frame (a0 : ℕ) (a1 : StreamReq) (s : State) :
    (carryLatch a0 a1 s).pending = s.pending ∧ (carryLatch a0 a1 s).latch = s.latch ∧ (carryLatch a0 a1 s).mem = s.mem ∧ (carryLatch a0 a1 s).clk = s.clk ∧ (carryLatch a0 a1 s).thm = s.thm ∧ (carryLatch a0 a1 s).map = s.map ∧ (carryLatch a0 a1 s).flc = s.flc ∧ (carryLatch a0 a1 s).bnd = s.bnd ∧ (carryLatch a0 a1 s).mbr = s.mbr ∧ (carryLatch a0 a1 s).flt = s.flt ∧ (carryLatch a0 a1 s).sec = s.sec ∧ (carryLatch a0 a1 s).cpx = s.cpx ∧ (carryLatch a0 a1 s).memc = s.memc ∧ (carryLatch a0 a1 s).mov = s.mov ∧ (carryLatch a0 a1 s).cst = s.cst ∧ (carryLatch a0 a1 s).freeCtr = s.freeCtr := by
  unfold carryLatch
  try dsimp only
  first
    | (simp; done)
    | ((repeat' split) <;> simp; done)
    | (and_intros <;> (repeat' (first | (simp; done) | split)))

@[simp] theorem fsyncFrames_frame (a0 : ℕ) (s : State) :
    (fsyncFrames a0 s).pending = s.pending ∧ (fsyncFrames a0 s).latch = s.latch ∧ (fsyncFrames a0 s).clk = s.clk ∧ (fsyncFrames a0 s).thm = s.thm ∧ (fsyncFrames a0 s).tck = s.tck ∧ (fsyncFrames a0 s).hif = s.hif ∧ (fsyncFrames a0 s).map = s.map ∧ (fsyncFrames a0 s).flc = s.flc ∧ (fsyncFrames a0 s).bnd = s.bnd ∧ (fsyncFrames a0 s).mbr = s.mbr ∧ (fsyncFrames a0 s).flt = s.flt ∧ (fsyncFrames a0 s).sec = s.sec ∧ (fsyncFrames a0 s).cpx = s.cpx ∧ (fsyncFrames a0 s).memc = s.memc ∧ (fsyncFrames a0 s).mov = s.mov ∧ (fsyncFrames a0 s).cst = s.cst ∧ (fsyncFrames a0 s).out = s.out ∧ (fsyncFrames a0 s).freeCtr = s.freeCtr := by
  unfold fsyncFrames
  try dsimp only
  first
    | (simp; done)
    | ((repeat' split) <;> simp; done)
    | (and_intros <;> (repeat' (first | (simp; done) | split)))

/-! ### Pages -/

@[simp] theorem critCheck_frame (s : State) :
    (critCheck s).pending = s.pending ∧ (critCheck s).regs = s.regs ∧ (critCheck s).latch = s.latch ∧ (critCheck s).mem = s.mem ∧ (critCheck s).sys = s.sys ∧ (critCheck s).clk = s.clk ∧ (critCheck s).thm = s.thm ∧ (critCheck s).tck = s.tck ∧ (critCheck s).stm = s.stm ∧ (critCheck s).map = s.map ∧ (critCheck s).flc = s.flc ∧ (critCheck s).bnd = s.bnd ∧ (critCheck s).mbr = s.mbr ∧ (critCheck s).flt = s.flt ∧ (critCheck s).sec = s.sec ∧ (critCheck s).cpx = s.cpx ∧ (critCheck s).memc = s.memc ∧ (critCheck s).mov = s.mov ∧ (critCheck s).cst = s.cst ∧ (critCheck s).freeCtr = s.freeCtr := by
  unfold critCheck
  try dsimp only
  first
    | (simp; done)
    | ((repeat' split) <;> simp; done)
    | (and_intros <;> (repeat' (first | (simp; done) | split)))

/-! ### Admin -/

@[simp] theorem adminGives_frame (a0 : ℕ) (a1 : List Byte) (s : State) :
    (adminGives a0 a1 s).pending = s.pending ∧ (adminGives a0 a1 s).regs = s.regs ∧ (adminGives a0 a1 s).latch = s.latch ∧ (adminGives a0 a1 s).mem = s.mem ∧ (adminGives a0 a1 s).sys = s.sys ∧ (adminGives a0 a1 s).clk = s.clk ∧ (adminGives a0 a1 s).thm = s.thm ∧ (adminGives a0 a1 s).tck = s.tck ∧ (adminGives a0 a1 s).stm = s.stm ∧ (adminGives a0 a1 s).map = s.map ∧ (adminGives a0 a1 s).flc = s.flc ∧ (adminGives a0 a1 s).bnd = s.bnd ∧ (adminGives a0 a1 s).mbr = s.mbr ∧ (adminGives a0 a1 s).flt = s.flt ∧ (adminGives a0 a1 s).sec = s.sec ∧ (adminGives a0 a1 s).cpx = s.cpx ∧ (adminGives a0 a1 s).memc = s.memc ∧ (adminGives a0 a1 s).mov = s.mov ∧ (adminGives a0 a1 s).cst = s.cst := by
  unfold adminGives
  try dsimp only
  first
    | (simp; done)
    | ((repeat' split) <;> simp; done)
    | (and_intros <;> (repeat' (first | (simp; done) | split)))

@[simp] theorem nsChanged_frame (a0 : ℕ) (s : State) :
    (nsChanged a0 s).pending = s.pending ∧ (nsChanged a0 s).regs = s.regs ∧ (nsChanged a0 s).latch = s.latch ∧ (nsChanged a0 s).mem = s.mem ∧ (nsChanged a0 s).sys = s.sys ∧ (nsChanged a0 s).clk = s.clk ∧ (nsChanged a0 s).thm = s.thm ∧ (nsChanged a0 s).tck = s.tck ∧ (nsChanged a0 s).stm = s.stm ∧ (nsChanged a0 s).map = s.map ∧ (nsChanged a0 s).flc = s.flc ∧ (nsChanged a0 s).bnd = s.bnd ∧ (nsChanged a0 s).mbr = s.mbr ∧ (nsChanged a0 s).flt = s.flt ∧ (nsChanged a0 s).sec = s.sec ∧ (nsChanged a0 s).cpx = s.cpx ∧ (nsChanged a0 s).memc = s.memc ∧ (nsChanged a0 s).mov = s.mov ∧ (nsChanged a0 s).cst = s.cst ∧ (nsChanged a0 s).freeCtr = s.freeCtr := by
  unfold nsChanged
  try dsimp only
  first
    | (simp; done)
    | ((repeat' split) <;> simp; done)
    | (and_intros <;> (repeat' (first | (simp; done) | split)))

@[simp] theorem newKey_frame (a0 : ℕ) (s : State) :
    (newKey a0 s).pending = s.pending ∧ (newKey a0 s).latch = s.latch ∧ (newKey a0 s).mem = s.mem ∧ (newKey a0 s).sys = s.sys ∧ (newKey a0 s).clk = s.clk ∧ (newKey a0 s).thm = s.thm ∧ (newKey a0 s).tck = s.tck ∧ (newKey a0 s).hif = s.hif ∧ (newKey a0 s).stm = s.stm ∧ (newKey a0 s).flc = s.flc ∧ (newKey a0 s).bnd = s.bnd ∧ (newKey a0 s).mbr = s.mbr ∧ (newKey a0 s).flt = s.flt ∧ (newKey a0 s).cpx = s.cpx ∧ (newKey a0 s).memc = s.memc ∧ (newKey a0 s).mov = s.mov ∧ (newKey a0 s).lnt = s.lnt ∧ (newKey a0 s).out = s.out ∧ (newKey a0 s).freeCtr = s.freeCtr := by
  unfold newKey
  try dsimp only
  first
    | (simp; done)
    | ((repeat' split) <;> simp; done)
    | (and_intros <;> (repeat' (first | (simp; done) | split)))

@[simp] theorem nsHold_frame (a0 : NsReq) (s : State) :
    (nsHold a0 s).pending = s.pending ∧ (nsHold a0 s).latch = s.latch ∧ (nsHold a0 s).mem = s.mem ∧ (nsHold a0 s).clk = s.clk ∧ (nsHold a0 s).thm = s.thm ∧ (nsHold a0 s).tck = s.tck ∧ (nsHold a0 s).stm = s.stm ∧ (nsHold a0 s).flc = s.flc ∧ (nsHold a0 s).bnd = s.bnd ∧ (nsHold a0 s).mbr = s.mbr ∧ (nsHold a0 s).flt = s.flt ∧ (nsHold a0 s).sec = s.sec ∧ (nsHold a0 s).cpx = s.cpx ∧ (nsHold a0 s).memc = s.memc ∧ (nsHold a0 s).mov = s.mov ∧ (nsHold a0 s).cst = s.cst ∧ (nsHold a0 s).out = s.out ∧ (nsHold a0 s).freeCtr = s.freeCtr := by
  unfold nsHold
  try dsimp only
  first
    | (simp; done)
    | ((repeat' split) <;> simp; done)
    | (and_intros <;> (repeat' (first | (simp; done) | split)))

@[simp] theorem nsCreate_frame (a0 : ℕ) (a1 : ℕ) (s : State) :
    (nsCreate a0 a1 s).pending = s.pending ∧ (nsCreate a0 a1 s).latch = s.latch ∧ (nsCreate a0 a1 s).mem = s.mem ∧ (nsCreate a0 a1 s).clk = s.clk ∧ (nsCreate a0 a1 s).thm = s.thm ∧ (nsCreate a0 a1 s).tck = s.tck ∧ (nsCreate a0 a1 s).stm = s.stm ∧ (nsCreate a0 a1 s).flc = s.flc ∧ (nsCreate a0 a1 s).mbr = s.mbr ∧ (nsCreate a0 a1 s).flt = s.flt ∧ (nsCreate a0 a1 s).cpx = s.cpx ∧ (nsCreate a0 a1 s).memc = s.memc ∧ (nsCreate a0 a1 s).mov = s.mov ∧ (nsCreate a0 a1 s).freeCtr = s.freeCtr := by
  unfold nsCreate
  try dsimp only
  and_intros
  · repeat' (first | (simp; done) | (have h := appendRec_frame (by assumption); simp [h]; done) | (have h := takeSlot_frame (by assumption); simp [h]; done) | (have h := placePage_frame (by assumption); simp [h]; done) | (have h := placePart_frame (by assumption); simp [h]; done) | (have h := closeStream_frame (by assumption); simp [h]; done) | split | (refine (forAll_pending _ _ _ (fun x s => ?_)).trans ?_; try dsimp only) | (refine adminCmd_pending _ _ _ _ ?_; try dsimp only) | simp)
  · repeat' (first | (simp; done) | (have h := appendRec_frame (by assumption); simp [h]; done) | (have h := takeSlot_frame (by assumption); simp [h]; done) | (have h := placePage_frame (by assumption); simp [h]; done) | (have h := placePart_frame (by assumption); simp [h]; done) | (have h := closeStream_frame (by assumption); simp [h]; done) | split | (refine (forAll_latch _ _ _ (fun x s => ?_)).trans ?_; try dsimp only) | (refine adminCmd_latch _ _ _ _ ?_; try dsimp only) | simp)
  · repeat' (first | (simp; done) | (have h := appendRec_frame (by assumption); simp [h]; done) | (have h := takeSlot_frame (by assumption); simp [h]; done) | (have h := placePage_frame (by assumption); simp [h]; done) | (have h := placePart_frame (by assumption); simp [h]; done) | (have h := closeStream_frame (by assumption); simp [h]; done) | split | (refine (forAll_mem _ _ _ (fun x s => ?_)).trans ?_; try dsimp only) | (refine adminCmd_mem _ _ _ _ ?_; try dsimp only) | simp)
  · repeat' (first | (simp; done) | (have h := appendRec_frame (by assumption); simp [h]; done) | (have h := takeSlot_frame (by assumption); simp [h]; done) | (have h := placePage_frame (by assumption); simp [h]; done) | (have h := placePart_frame (by assumption); simp [h]; done) | (have h := closeStream_frame (by assumption); simp [h]; done) | split | (refine (forAll_clk _ _ _ (fun x s => ?_)).trans ?_; try dsimp only) | (refine adminCmd_clk _ _ _ _ ?_; try dsimp only) | simp)
  · repeat' (first | (simp; done) | (have h := appendRec_frame (by assumption); simp [h]; done) | (have h := takeSlot_frame (by assumption); simp [h]; done) | (have h := placePage_frame (by assumption); simp [h]; done) | (have h := placePart_frame (by assumption); simp [h]; done) | (have h := closeStream_frame (by assumption); simp [h]; done) | split | (refine (forAll_thm _ _ _ (fun x s => ?_)).trans ?_; try dsimp only) | (refine adminCmd_thm _ _ _ _ ?_; try dsimp only) | simp)
  · repeat' (first | (simp; done) | (have h := appendRec_frame (by assumption); simp [h]; done) | (have h := takeSlot_frame (by assumption); simp [h]; done) | (have h := placePage_frame (by assumption); simp [h]; done) | (have h := placePart_frame (by assumption); simp [h]; done) | (have h := closeStream_frame (by assumption); simp [h]; done) | split | (refine (forAll_tck _ _ _ (fun x s => ?_)).trans ?_; try dsimp only) | (refine adminCmd_tck _ _ _ _ ?_; try dsimp only) | simp)
  · repeat' (first | (simp; done) | (have h := appendRec_frame (by assumption); simp [h]; done) | (have h := takeSlot_frame (by assumption); simp [h]; done) | (have h := placePage_frame (by assumption); simp [h]; done) | (have h := placePart_frame (by assumption); simp [h]; done) | (have h := closeStream_frame (by assumption); simp [h]; done) | split | (refine (forAll_stm _ _ _ (fun x s => ?_)).trans ?_; try dsimp only) | (refine adminCmd_stm _ _ _ _ ?_; try dsimp only) | simp)
  · repeat' (first | (simp; done) | (have h := appendRec_frame (by assumption); simp [h]; done) | (have h := takeSlot_frame (by assumption); simp [h]; done) | (have h := placePage_frame (by assumption); simp [h]; done) | (have h := placePart_frame (by assumption); simp [h]; done) | (have h := closeStream_frame (by assumption); simp [h]; done) | split | (refine (forAll_flc _ _ _ (fun x s => ?_)).trans ?_; try dsimp only) | (refine adminCmd_flc _ _ _ _ ?_; try dsimp only) | simp)
  · repeat' (first | (simp; done) | (have h := appendRec_frame (by assumption); simp [h]; done) | (have h := takeSlot_frame (by assumption); simp [h]; done) | (have h := placePage_frame (by assumption); simp [h]; done) | (have h := placePart_frame (by assumption); simp [h]; done) | (have h := closeStream_frame (by assumption); simp [h]; done) | split | (refine (forAll_mbr _ _ _ (fun x s => ?_)).trans ?_; try dsimp only) | (refine adminCmd_mbr _ _ _ _ ?_; try dsimp only) | simp)
  · repeat' (first | (simp; done) | (have h := appendRec_frame (by assumption); simp [h]; done) | (have h := takeSlot_frame (by assumption); simp [h]; done) | (have h := placePage_frame (by assumption); simp [h]; done) | (have h := placePart_frame (by assumption); simp [h]; done) | (have h := closeStream_frame (by assumption); simp [h]; done) | split | (refine (forAll_flt _ _ _ (fun x s => ?_)).trans ?_; try dsimp only) | (refine adminCmd_flt _ _ _ _ ?_; try dsimp only) | simp)
  · repeat' (first | (simp; done) | (have h := appendRec_frame (by assumption); simp [h]; done) | (have h := takeSlot_frame (by assumption); simp [h]; done) | (have h := placePage_frame (by assumption); simp [h]; done) | (have h := placePart_frame (by assumption); simp [h]; done) | (have h := closeStream_frame (by assumption); simp [h]; done) | split | (refine (forAll_cpx _ _ _ (fun x s => ?_)).trans ?_; try dsimp only) | (refine adminCmd_cpx _ _ _ _ ?_; try dsimp only) | simp)
  · repeat' (first | (simp; done) | (have h := appendRec_frame (by assumption); simp [h]; done) | (have h := takeSlot_frame (by assumption); simp [h]; done) | (have h := placePage_frame (by assumption); simp [h]; done) | (have h := placePart_frame (by assumption); simp [h]; done) | (have h := closeStream_frame (by assumption); simp [h]; done) | split | (refine (forAll_memc _ _ _ (fun x s => ?_)).trans ?_; try dsimp only) | (refine adminCmd_memc _ _ _ _ ?_; try dsimp only) | simp)
  · repeat' (first | (simp; done) | (have h := appendRec_frame (by assumption); simp [h]; done) | (have h := takeSlot_frame (by assumption); simp [h]; done) | (have h := placePage_frame (by assumption); simp [h]; done) | (have h := placePart_frame (by assumption); simp [h]; done) | (have h := closeStream_frame (by assumption); simp [h]; done) | split | (refine (forAll_mov _ _ _ (fun x s => ?_)).trans ?_; try dsimp only) | (refine adminCmd_mov _ _ _ _ ?_; try dsimp only) | simp)
  · repeat' (first | (simp; done) | (have h := appendRec_frame (by assumption); simp [h]; done) | (have h := takeSlot_frame (by assumption); simp [h]; done) | (have h := placePage_frame (by assumption); simp [h]; done) | (have h := placePart_frame (by assumption); simp [h]; done) | (have h := closeStream_frame (by assumption); simp [h]; done) | split | (refine (forAll_freeCtr _ _ _ (fun x s => ?_)).trans ?_; try dsimp only) | (refine adminCmd_freeCtr _ _ _ _ ?_; try dsimp only) | simp)

@[simp] theorem dropNs_frame (a0 : ℕ) (s : State) :
    (dropNs a0 s).pending = s.pending ∧ (dropNs a0 s).latch = s.latch ∧ (dropNs a0 s).mem = s.mem ∧ (dropNs a0 s).clk = s.clk ∧ (dropNs a0 s).thm = s.thm ∧ (dropNs a0 s).bnd = s.bnd ∧ (dropNs a0 s).mbr = s.mbr ∧ (dropNs a0 s).flt = s.flt ∧ (dropNs a0 s).sec = s.sec ∧ (dropNs a0 s).cpx = s.cpx ∧ (dropNs a0 s).memc = s.memc ∧ (dropNs a0 s).mov = s.mov ∧ (dropNs a0 s).cst = s.cst ∧ (dropNs a0 s).freeCtr = s.freeCtr := by
  unfold dropNs
  try dsimp only
  first
    | (simp; done)
    | ((repeat' split) <;> simp; done)
    | (and_intros <;> (repeat' (first | (simp; done) | split)))

@[simp] theorem unbindSlice_frame (a0 : ℕ) (s : State) :
    (unbindSlice a0 s).pending = s.pending ∧ (unbindSlice a0 s).latch = s.latch ∧ (unbindSlice a0 s).mem = s.mem ∧ (unbindSlice a0 s).sys = s.sys ∧ (unbindSlice a0 s).clk = s.clk ∧ (unbindSlice a0 s).thm = s.thm ∧ (unbindSlice a0 s).tck = s.tck ∧ (unbindSlice a0 s).hif = s.hif ∧ (unbindSlice a0 s).stm = s.stm ∧ (unbindSlice a0 s).map = s.map ∧ (unbindSlice a0 s).flc = s.flc ∧ (unbindSlice a0 s).bnd = s.bnd ∧ (unbindSlice a0 s).mbr = s.mbr ∧ (unbindSlice a0 s).cpx = s.cpx ∧ (unbindSlice a0 s).memc = s.memc ∧ (unbindSlice a0 s).mov = s.mov ∧ (unbindSlice a0 s).lnt = s.lnt ∧ (unbindSlice a0 s).out = s.out ∧ (unbindSlice a0 s).freeCtr = s.freeCtr := by
  unfold unbindSlice
  try dsimp only
  first
    | (simp; done)
    | ((repeat' split) <;> simp; done)
    | (and_intros <;> (repeat' (first | (simp; done) | split)))

theorem deleteNs_pending (a0 : ℕ) (s : State) : (deleteNs a0 s).pending = s.pending := by
  unfold deleteNs
  try dsimp only
  first
    | (simp; done)
    | ((repeat' split) <;> simp; done)
    | (repeat' (first | (simp; done) | split))

theorem deleteNs_latch (a0 : ℕ) (s : State) : (deleteNs a0 s).latch = s.latch := by
  unfold deleteNs
  try dsimp only
  first
    | (simp; done)
    | ((repeat' split) <;> simp; done)
    | (repeat' (first | (simp; done) | split))

theorem deleteNs_mem (a0 : ℕ) (s : State) : (deleteNs a0 s).mem = s.mem := by
  unfold deleteNs
  try dsimp only
  first
    | (simp; done)
    | ((repeat' split) <;> simp; done)
    | (repeat' (first | (simp; done) | split))

theorem deleteNs_clk (a0 : ℕ) (s : State) : (deleteNs a0 s).clk = s.clk := by
  unfold deleteNs
  try dsimp only
  first
    | (simp; done)
    | ((repeat' split) <;> simp; done)
    | (repeat' (first | (simp; done) | split))

theorem deleteNs_thm (a0 : ℕ) (s : State) : (deleteNs a0 s).thm = s.thm := by
  unfold deleteNs
  try dsimp only
  first
    | (simp; done)
    | ((repeat' split) <;> simp; done)
    | (repeat' (first | (simp; done) | split))

theorem deleteNs_mbr (a0 : ℕ) (s : State) : (deleteNs a0 s).mbr = s.mbr := by
  unfold deleteNs
  try dsimp only
  first
    | (simp; done)
    | ((repeat' split) <;> simp; done)
    | (repeat' (first | (simp; done) | split))

theorem deleteNs_cpx (a0 : ℕ) (s : State) : (deleteNs a0 s).cpx = s.cpx := by
  unfold deleteNs
  try dsimp only
  first
    | (simp; done)
    | ((repeat' split) <;> simp; done)
    | (repeat' (first | (simp; done) | split))

theorem deleteNs_memc (a0 : ℕ) (s : State) : (deleteNs a0 s).memc = s.memc := by
  unfold deleteNs
  try dsimp only
  first
    | (simp; done)
    | ((repeat' split) <;> simp; done)
    | (repeat' (first | (simp; done) | split))

theorem deleteNs_mov (a0 : ℕ) (s : State) : (deleteNs a0 s).mov = s.mov := by
  unfold deleteNs
  try dsimp only
  first
    | (simp; done)
    | ((repeat' split) <;> simp; done)
    | (repeat' (first | (simp; done) | split))

theorem deleteNs_freeCtr (a0 : ℕ) (s : State) : (deleteNs a0 s).freeCtr = s.freeCtr := by
  unfold deleteNs
  try dsimp only
  first
    | (simp; done)
    | ((repeat' split) <;> simp; done)
    | (repeat' (first | (simp; done) | split))

@[simp] theorem deleteNs_frame (a0 : ℕ) (s : State) :
    (deleteNs a0 s).pending = s.pending ∧ (deleteNs a0 s).latch = s.latch ∧ (deleteNs a0 s).mem = s.mem ∧ (deleteNs a0 s).clk = s.clk ∧ (deleteNs a0 s).thm = s.thm ∧ (deleteNs a0 s).mbr = s.mbr ∧ (deleteNs a0 s).cpx = s.cpx ∧ (deleteNs a0 s).memc = s.memc ∧ (deleteNs a0 s).mov = s.mov ∧ (deleteNs a0 s).freeCtr = s.freeCtr :=
  ⟨deleteNs_pending a0 s, deleteNs_latch a0 s, deleteNs_mem a0 s, deleteNs_clk a0 s, deleteNs_thm a0 s, deleteNs_mbr a0 s, deleteNs_cpx a0 s, deleteNs_memc a0 s, deleteNs_mov a0 s, deleteNs_freeCtr a0 s⟩

theorem nsDelete_pending (a0 : ℕ) (a1 : ℕ) (s : State) : (nsDelete a0 a1 s).pending = s.pending := by
  unfold nsDelete
  try dsimp only
  repeat' (first | (simp; done) | (have h := appendRec_frame (by assumption); simp [h]; done) | (have h := takeSlot_frame (by assumption); simp [h]; done) | (have h := placePage_frame (by assumption); simp [h]; done) | (have h := placePart_frame (by assumption); simp [h]; done) | (have h := closeStream_frame (by assumption); simp [h]; done) | split | (refine (forAll_pending _ _ _ (fun x s => ?_)).trans ?_; try dsimp only) | (refine adminCmd_pending _ _ _ _ ?_; try dsimp only) | simp)

theorem nsDelete_latch (a0 : ℕ) (a1 : ℕ) (s : State) : (nsDelete a0 a1 s).latch = s.latch := by
  unfold nsDelete
  try dsimp only
  repeat' (first | (simp; done) | (have h := appendRec_frame (by assumption); simp [h]; done) | (have h := takeSlot_frame (by assumption); simp [h]; done) | (have h := placePage_frame (by assumption); simp [h]; done) | (have h := placePart_frame (by assumption); simp [h]; done) | (have h := closeStream_frame (by assumption); simp [h]; done) | split | (refine (forAll_latch _ _ _ (fun x s => ?_)).trans ?_; try dsimp only) | (refine adminCmd_latch _ _ _ _ ?_; try dsimp only) | simp)

theorem nsDelete_mem (a0 : ℕ) (a1 : ℕ) (s : State) : (nsDelete a0 a1 s).mem = s.mem := by
  unfold nsDelete
  try dsimp only
  repeat' (first | (simp; done) | (have h := appendRec_frame (by assumption); simp [h]; done) | (have h := takeSlot_frame (by assumption); simp [h]; done) | (have h := placePage_frame (by assumption); simp [h]; done) | (have h := placePart_frame (by assumption); simp [h]; done) | (have h := closeStream_frame (by assumption); simp [h]; done) | split | (refine (forAll_mem _ _ _ (fun x s => ?_)).trans ?_; try dsimp only) | (refine adminCmd_mem _ _ _ _ ?_; try dsimp only) | simp)

theorem nsDelete_clk (a0 : ℕ) (a1 : ℕ) (s : State) : (nsDelete a0 a1 s).clk = s.clk := by
  unfold nsDelete
  try dsimp only
  repeat' (first | (simp; done) | (have h := appendRec_frame (by assumption); simp [h]; done) | (have h := takeSlot_frame (by assumption); simp [h]; done) | (have h := placePage_frame (by assumption); simp [h]; done) | (have h := placePart_frame (by assumption); simp [h]; done) | (have h := closeStream_frame (by assumption); simp [h]; done) | split | (refine (forAll_clk _ _ _ (fun x s => ?_)).trans ?_; try dsimp only) | (refine adminCmd_clk _ _ _ _ ?_; try dsimp only) | simp)

theorem nsDelete_thm (a0 : ℕ) (a1 : ℕ) (s : State) : (nsDelete a0 a1 s).thm = s.thm := by
  unfold nsDelete
  try dsimp only
  repeat' (first | (simp; done) | (have h := appendRec_frame (by assumption); simp [h]; done) | (have h := takeSlot_frame (by assumption); simp [h]; done) | (have h := placePage_frame (by assumption); simp [h]; done) | (have h := placePart_frame (by assumption); simp [h]; done) | (have h := closeStream_frame (by assumption); simp [h]; done) | split | (refine (forAll_thm _ _ _ (fun x s => ?_)).trans ?_; try dsimp only) | (refine adminCmd_thm _ _ _ _ ?_; try dsimp only) | simp)

theorem nsDelete_mbr (a0 : ℕ) (a1 : ℕ) (s : State) : (nsDelete a0 a1 s).mbr = s.mbr := by
  unfold nsDelete
  try dsimp only
  repeat' (first | (simp; done) | (have h := appendRec_frame (by assumption); simp [h]; done) | (have h := takeSlot_frame (by assumption); simp [h]; done) | (have h := placePage_frame (by assumption); simp [h]; done) | (have h := placePart_frame (by assumption); simp [h]; done) | (have h := closeStream_frame (by assumption); simp [h]; done) | split | (refine (forAll_mbr _ _ _ (fun x s => ?_)).trans ?_; try dsimp only) | (refine adminCmd_mbr _ _ _ _ ?_; try dsimp only) | simp)

theorem nsDelete_cpx (a0 : ℕ) (a1 : ℕ) (s : State) : (nsDelete a0 a1 s).cpx = s.cpx := by
  unfold nsDelete
  try dsimp only
  repeat' (first | (simp; done) | (have h := appendRec_frame (by assumption); simp [h]; done) | (have h := takeSlot_frame (by assumption); simp [h]; done) | (have h := placePage_frame (by assumption); simp [h]; done) | (have h := placePart_frame (by assumption); simp [h]; done) | (have h := closeStream_frame (by assumption); simp [h]; done) | split | (refine (forAll_cpx _ _ _ (fun x s => ?_)).trans ?_; try dsimp only) | (refine adminCmd_cpx _ _ _ _ ?_; try dsimp only) | simp)

theorem nsDelete_memc (a0 : ℕ) (a1 : ℕ) (s : State) : (nsDelete a0 a1 s).memc = s.memc := by
  unfold nsDelete
  try dsimp only
  repeat' (first | (simp; done) | (have h := appendRec_frame (by assumption); simp [h]; done) | (have h := takeSlot_frame (by assumption); simp [h]; done) | (have h := placePage_frame (by assumption); simp [h]; done) | (have h := placePart_frame (by assumption); simp [h]; done) | (have h := closeStream_frame (by assumption); simp [h]; done) | split | (refine (forAll_memc _ _ _ (fun x s => ?_)).trans ?_; try dsimp only) | (refine adminCmd_memc _ _ _ _ ?_; try dsimp only) | simp)

theorem nsDelete_mov (a0 : ℕ) (a1 : ℕ) (s : State) : (nsDelete a0 a1 s).mov = s.mov := by
  unfold nsDelete
  try dsimp only
  repeat' (first | (simp; done) | (have h := appendRec_frame (by assumption); simp [h]; done) | (have h := takeSlot_frame (by assumption); simp [h]; done) | (have h := placePage_frame (by assumption); simp [h]; done) | (have h := placePart_frame (by assumption); simp [h]; done) | (have h := closeStream_frame (by assumption); simp [h]; done) | split | (refine (forAll_mov _ _ _ (fun x s => ?_)).trans ?_; try dsimp only) | (refine adminCmd_mov _ _ _ _ ?_; try dsimp only) | simp)

theorem nsDelete_freeCtr (a0 : ℕ) (a1 : ℕ) (s : State) : (nsDelete a0 a1 s).freeCtr = s.freeCtr := by
  unfold nsDelete
  try dsimp only
  repeat' (first | (simp; done) | (have h := appendRec_frame (by assumption); simp [h]; done) | (have h := takeSlot_frame (by assumption); simp [h]; done) | (have h := placePage_frame (by assumption); simp [h]; done) | (have h := placePart_frame (by assumption); simp [h]; done) | (have h := closeStream_frame (by assumption); simp [h]; done) | split | (refine (forAll_freeCtr _ _ _ (fun x s => ?_)).trans ?_; try dsimp only) | (refine adminCmd_freeCtr _ _ _ _ ?_; try dsimp only) | simp)

@[simp] theorem nsDelete_frame (a0 : ℕ) (a1 : ℕ) (s : State) :
    (nsDelete a0 a1 s).pending = s.pending ∧ (nsDelete a0 a1 s).latch = s.latch ∧ (nsDelete a0 a1 s).mem = s.mem ∧ (nsDelete a0 a1 s).clk = s.clk ∧ (nsDelete a0 a1 s).thm = s.thm ∧ (nsDelete a0 a1 s).mbr = s.mbr ∧ (nsDelete a0 a1 s).cpx = s.cpx ∧ (nsDelete a0 a1 s).memc = s.memc ∧ (nsDelete a0 a1 s).mov = s.mov ∧ (nsDelete a0 a1 s).freeCtr = s.freeCtr :=
  ⟨nsDelete_pending a0 a1 s, nsDelete_latch a0 a1 s, nsDelete_mem a0 a1 s, nsDelete_clk a0 a1 s, nsDelete_thm a0 a1 s, nsDelete_mbr a0 a1 s, nsDelete_cpx a0 a1 s, nsDelete_memc a0 a1 s, nsDelete_mov a0 a1 s, nsDelete_freeCtr a0 a1 s⟩

theorem nsStep_pending (s : State) : (nsStep s).pending = s.pending := by
  unfold nsStep
  try dsimp only
  repeat' (first | (simp; done) | (have h := appendRec_frame (by assumption); simp [h]; done) | (have h := takeSlot_frame (by assumption); simp [h]; done) | (have h := placePage_frame (by assumption); simp [h]; done) | (have h := placePart_frame (by assumption); simp [h]; done) | (have h := closeStream_frame (by assumption); simp [h]; done) | split | (refine (forAll_pending _ _ _ (fun x s => ?_)).trans ?_; try dsimp only) | (refine adminCmd_pending _ _ _ _ ?_; try dsimp only) | simp)

theorem nsStep_latch (s : State) : (nsStep s).latch = s.latch := by
  unfold nsStep
  try dsimp only
  repeat' (first | (simp; done) | (have h := appendRec_frame (by assumption); simp [h]; done) | (have h := takeSlot_frame (by assumption); simp [h]; done) | (have h := placePage_frame (by assumption); simp [h]; done) | (have h := placePart_frame (by assumption); simp [h]; done) | (have h := closeStream_frame (by assumption); simp [h]; done) | split | (refine (forAll_latch _ _ _ (fun x s => ?_)).trans ?_; try dsimp only) | (refine adminCmd_latch _ _ _ _ ?_; try dsimp only) | simp)

theorem nsStep_mem (s : State) : (nsStep s).mem = s.mem := by
  unfold nsStep
  try dsimp only
  repeat' (first | (simp; done) | (have h := appendRec_frame (by assumption); simp [h]; done) | (have h := takeSlot_frame (by assumption); simp [h]; done) | (have h := placePage_frame (by assumption); simp [h]; done) | (have h := placePart_frame (by assumption); simp [h]; done) | (have h := closeStream_frame (by assumption); simp [h]; done) | split | (refine (forAll_mem _ _ _ (fun x s => ?_)).trans ?_; try dsimp only) | (refine adminCmd_mem _ _ _ _ ?_; try dsimp only) | simp)

theorem nsStep_clk (s : State) : (nsStep s).clk = s.clk := by
  unfold nsStep
  try dsimp only
  repeat' (first | (simp; done) | (have h := appendRec_frame (by assumption); simp [h]; done) | (have h := takeSlot_frame (by assumption); simp [h]; done) | (have h := placePage_frame (by assumption); simp [h]; done) | (have h := placePart_frame (by assumption); simp [h]; done) | (have h := closeStream_frame (by assumption); simp [h]; done) | split | (refine (forAll_clk _ _ _ (fun x s => ?_)).trans ?_; try dsimp only) | (refine adminCmd_clk _ _ _ _ ?_; try dsimp only) | simp)

theorem nsStep_thm (s : State) : (nsStep s).thm = s.thm := by
  unfold nsStep
  try dsimp only
  repeat' (first | (simp; done) | (have h := appendRec_frame (by assumption); simp [h]; done) | (have h := takeSlot_frame (by assumption); simp [h]; done) | (have h := placePage_frame (by assumption); simp [h]; done) | (have h := placePart_frame (by assumption); simp [h]; done) | (have h := closeStream_frame (by assumption); simp [h]; done) | split | (refine (forAll_thm _ _ _ (fun x s => ?_)).trans ?_; try dsimp only) | (refine adminCmd_thm _ _ _ _ ?_; try dsimp only) | simp)

theorem nsStep_mbr (s : State) : (nsStep s).mbr = s.mbr := by
  unfold nsStep
  try dsimp only
  repeat' (first | (simp; done) | (have h := appendRec_frame (by assumption); simp [h]; done) | (have h := takeSlot_frame (by assumption); simp [h]; done) | (have h := placePage_frame (by assumption); simp [h]; done) | (have h := placePart_frame (by assumption); simp [h]; done) | (have h := closeStream_frame (by assumption); simp [h]; done) | split | (refine (forAll_mbr _ _ _ (fun x s => ?_)).trans ?_; try dsimp only) | (refine adminCmd_mbr _ _ _ _ ?_; try dsimp only) | simp)

theorem nsStep_cpx (s : State) : (nsStep s).cpx = s.cpx := by
  unfold nsStep
  try dsimp only
  repeat' (first | (simp; done) | (have h := appendRec_frame (by assumption); simp [h]; done) | (have h := takeSlot_frame (by assumption); simp [h]; done) | (have h := placePage_frame (by assumption); simp [h]; done) | (have h := placePart_frame (by assumption); simp [h]; done) | (have h := closeStream_frame (by assumption); simp [h]; done) | split | (refine (forAll_cpx _ _ _ (fun x s => ?_)).trans ?_; try dsimp only) | (refine adminCmd_cpx _ _ _ _ ?_; try dsimp only) | simp)

theorem nsStep_memc (s : State) : (nsStep s).memc = s.memc := by
  unfold nsStep
  try dsimp only
  repeat' (first | (simp; done) | (have h := appendRec_frame (by assumption); simp [h]; done) | (have h := takeSlot_frame (by assumption); simp [h]; done) | (have h := placePage_frame (by assumption); simp [h]; done) | (have h := placePart_frame (by assumption); simp [h]; done) | (have h := closeStream_frame (by assumption); simp [h]; done) | split | (refine (forAll_memc _ _ _ (fun x s => ?_)).trans ?_; try dsimp only) | (refine adminCmd_memc _ _ _ _ ?_; try dsimp only) | simp)

theorem nsStep_mov (s : State) : (nsStep s).mov = s.mov := by
  unfold nsStep
  try dsimp only
  repeat' (first | (simp; done) | (have h := appendRec_frame (by assumption); simp [h]; done) | (have h := takeSlot_frame (by assumption); simp [h]; done) | (have h := placePage_frame (by assumption); simp [h]; done) | (have h := placePart_frame (by assumption); simp [h]; done) | (have h := closeStream_frame (by assumption); simp [h]; done) | split | (refine (forAll_mov _ _ _ (fun x s => ?_)).trans ?_; try dsimp only) | (refine adminCmd_mov _ _ _ _ ?_; try dsimp only) | simp)

theorem nsStep_freeCtr (s : State) : (nsStep s).freeCtr = s.freeCtr := by
  unfold nsStep
  try dsimp only
  repeat' (first | (simp; done) | (have h := appendRec_frame (by assumption); simp [h]; done) | (have h := takeSlot_frame (by assumption); simp [h]; done) | (have h := placePage_frame (by assumption); simp [h]; done) | (have h := placePart_frame (by assumption); simp [h]; done) | (have h := closeStream_frame (by assumption); simp [h]; done) | split | (refine (forAll_freeCtr _ _ _ (fun x s => ?_)).trans ?_; try dsimp only) | (refine adminCmd_freeCtr _ _ _ _ ?_; try dsimp only) | simp)

@[simp] theorem nsStep_frame (s : State) :
    (nsStep s).pending = s.pending ∧ (nsStep s).latch = s.latch ∧ (nsStep s).mem = s.mem ∧ (nsStep s).clk = s.clk ∧ (nsStep s).thm = s.thm ∧ (nsStep s).mbr = s.mbr ∧ (nsStep s).cpx = s.cpx ∧ (nsStep s).memc = s.memc ∧ (nsStep s).mov = s.mov ∧ (nsStep s).freeCtr = s.freeCtr :=
  ⟨nsStep_pending s, nsStep_latch s, nsStep_mem s, nsStep_clk s, nsStep_thm s, nsStep_mbr s, nsStep_cpx s, nsStep_memc s, nsStep_mov s, nsStep_freeCtr s⟩

@[simp] theorem attachNs_frame (a0 : Bool) (a1 : ℕ) (a2 : ℕ) (a3 : List ℕ) (s : State) :
    (attachNs a0 a1 a2 a3 s).pending = s.pending ∧ (attachNs a0 a1 a2 a3 s).regs = s.regs ∧ (attachNs a0 a1 a2 a3 s).latch = s.latch ∧ (attachNs a0 a1 a2 a3 s).mem = s.mem ∧ (attachNs a0 a1 a2 a3 s).sys = s.sys ∧ (attachNs a0 a1 a2 a3 s).clk = s.clk ∧ (attachNs a0 a1 a2 a3 s).thm = s.thm ∧ (attachNs a0 a1 a2 a3 s).tck = s.tck ∧ (attachNs a0 a1 a2 a3 s).stm = s.stm ∧ (attachNs a0 a1 a2 a3 s).flc = s.flc ∧ (attachNs a0 a1 a2 a3 s).bnd = s.bnd ∧ (attachNs a0 a1 a2 a3 s).mbr = s.mbr ∧ (attachNs a0 a1 a2 a3 s).flt = s.flt ∧ (attachNs a0 a1 a2 a3 s).sec = s.sec ∧ (attachNs a0 a1 a2 a3 s).cpx = s.cpx ∧ (attachNs a0 a1 a2 a3 s).memc = s.memc ∧ (attachNs a0 a1 a2 a3 s).mov = s.mov ∧ (attachNs a0 a1 a2 a3 s).cst = s.cst ∧ (attachNs a0 a1 a2 a3 s).freeCtr = s.freeCtr := by
  unfold attachNs
  try dsimp only
  first
    | (simp; done)
    | ((repeat' split) <;> simp; done)
    | (and_intros <;> (repeat' (first | (simp; done) | split)))

theorem unmapSegs_pending (a0 : ℕ) (a1 : List ℕ) (s : State) : (unmapSegs a0 a1 s).pending = s.pending := by
  induction a0 generalizing a1 s with
  | zero => rfl
  | succ n ih =>
    unfold unmapSegs
    split
    · rfl
    split
    · unfold doIf
      split <;> simp
    · rename_i t h
      split at h
      · cases h
      · exact (ih _ _).trans (by simp [appendRec_frame h])

theorem unmapSegs_latch (a0 : ℕ) (a1 : List ℕ) (s : State) : (unmapSegs a0 a1 s).latch = s.latch := by
  induction a0 generalizing a1 s with
  | zero => rfl
  | succ n ih =>
    unfold unmapSegs
    split
    · rfl
    split
    · unfold doIf
      split <;> simp
    · rename_i t h
      split at h
      · cases h
      · exact (ih _ _).trans (by simp [appendRec_frame h])

theorem unmapSegs_mem (a0 : ℕ) (a1 : List ℕ) (s : State) : (unmapSegs a0 a1 s).mem = s.mem := by
  induction a0 generalizing a1 s with
  | zero => rfl
  | succ n ih =>
    unfold unmapSegs
    split
    · rfl
    split
    · unfold doIf
      split <;> simp
    · rename_i t h
      split at h
      · cases h
      · exact (ih _ _).trans (by simp [appendRec_frame h])

theorem unmapSegs_clk (a0 : ℕ) (a1 : List ℕ) (s : State) : (unmapSegs a0 a1 s).clk = s.clk := by
  induction a0 generalizing a1 s with
  | zero => rfl
  | succ n ih =>
    unfold unmapSegs
    split
    · rfl
    split
    · unfold doIf
      split <;> simp
    · rename_i t h
      split at h
      · cases h
      · exact (ih _ _).trans (by simp [appendRec_frame h])

theorem unmapSegs_thm (a0 : ℕ) (a1 : List ℕ) (s : State) : (unmapSegs a0 a1 s).thm = s.thm := by
  induction a0 generalizing a1 s with
  | zero => rfl
  | succ n ih =>
    unfold unmapSegs
    split
    · rfl
    split
    · unfold doIf
      split <;> simp
    · rename_i t h
      split at h
      · cases h
      · exact (ih _ _).trans (by simp [appendRec_frame h])

theorem unmapSegs_tck (a0 : ℕ) (a1 : List ℕ) (s : State) : (unmapSegs a0 a1 s).tck = s.tck := by
  induction a0 generalizing a1 s with
  | zero => rfl
  | succ n ih =>
    unfold unmapSegs
    split
    · rfl
    split
    · unfold doIf
      split <;> simp
    · rename_i t h
      split at h
      · cases h
      · exact (ih _ _).trans (by simp [appendRec_frame h])

theorem unmapSegs_stm (a0 : ℕ) (a1 : List ℕ) (s : State) : (unmapSegs a0 a1 s).stm = s.stm := by
  induction a0 generalizing a1 s with
  | zero => rfl
  | succ n ih =>
    unfold unmapSegs
    split
    · rfl
    split
    · unfold doIf
      split <;> simp
    · rename_i t h
      split at h
      · cases h
      · exact (ih _ _).trans (by simp [appendRec_frame h])

theorem unmapSegs_flc (a0 : ℕ) (a1 : List ℕ) (s : State) : (unmapSegs a0 a1 s).flc = s.flc := by
  induction a0 generalizing a1 s with
  | zero => rfl
  | succ n ih =>
    unfold unmapSegs
    split
    · rfl
    split
    · unfold doIf
      split <;> simp
    · rename_i t h
      split at h
      · cases h
      · exact (ih _ _).trans (by simp [appendRec_frame h])

theorem unmapSegs_mbr (a0 : ℕ) (a1 : List ℕ) (s : State) : (unmapSegs a0 a1 s).mbr = s.mbr := by
  induction a0 generalizing a1 s with
  | zero => rfl
  | succ n ih =>
    unfold unmapSegs
    split
    · rfl
    split
    · unfold doIf
      split <;> simp
    · rename_i t h
      split at h
      · cases h
      · exact (ih _ _).trans (by simp [appendRec_frame h])

theorem unmapSegs_flt (a0 : ℕ) (a1 : List ℕ) (s : State) : (unmapSegs a0 a1 s).flt = s.flt := by
  induction a0 generalizing a1 s with
  | zero => rfl
  | succ n ih =>
    unfold unmapSegs
    split
    · rfl
    split
    · unfold doIf
      split <;> simp
    · rename_i t h
      split at h
      · cases h
      · exact (ih _ _).trans (by simp [appendRec_frame h])

theorem unmapSegs_sec (a0 : ℕ) (a1 : List ℕ) (s : State) : (unmapSegs a0 a1 s).sec = s.sec := by
  induction a0 generalizing a1 s with
  | zero => rfl
  | succ n ih =>
    unfold unmapSegs
    split
    · rfl
    split
    · unfold doIf
      split <;> simp
    · rename_i t h
      split at h
      · cases h
      · exact (ih _ _).trans (by simp [appendRec_frame h])

theorem unmapSegs_cpx (a0 : ℕ) (a1 : List ℕ) (s : State) : (unmapSegs a0 a1 s).cpx = s.cpx := by
  induction a0 generalizing a1 s with
  | zero => rfl
  | succ n ih =>
    unfold unmapSegs
    split
    · rfl
    split
    · unfold doIf
      split <;> simp
    · rename_i t h
      split at h
      · cases h
      · exact (ih _ _).trans (by simp [appendRec_frame h])

theorem unmapSegs_memc (a0 : ℕ) (a1 : List ℕ) (s : State) : (unmapSegs a0 a1 s).memc = s.memc := by
  induction a0 generalizing a1 s with
  | zero => rfl
  | succ n ih =>
    unfold unmapSegs
    split
    · rfl
    split
    · unfold doIf
      split <;> simp
    · rename_i t h
      split at h
      · cases h
      · exact (ih _ _).trans (by simp [appendRec_frame h])

theorem unmapSegs_mov (a0 : ℕ) (a1 : List ℕ) (s : State) : (unmapSegs a0 a1 s).mov = s.mov := by
  induction a0 generalizing a1 s with
  | zero => rfl
  | succ n ih =>
    unfold unmapSegs
    split
    · rfl
    split
    · unfold doIf
      split <;> simp
    · rename_i t h
      split at h
      · cases h
      · exact (ih _ _).trans (by simp [appendRec_frame h])

theorem unmapSegs_cst (a0 : ℕ) (a1 : List ℕ) (s : State) : (unmapSegs a0 a1 s).cst = s.cst := by
  induction a0 generalizing a1 s with
  | zero => rfl
  | succ n ih =>
    unfold unmapSegs
    split
    · rfl
    split
    · unfold doIf
      split <;> simp
    · rename_i t h
      split at h
      · cases h
      · exact (ih _ _).trans (by simp [appendRec_frame h])

theorem unmapSegs_out (a0 : ℕ) (a1 : List ℕ) (s : State) : (unmapSegs a0 a1 s).out = s.out := by
  induction a0 generalizing a1 s with
  | zero => rfl
  | succ n ih =>
    unfold unmapSegs
    split
    · rfl
    split
    · unfold doIf
      split <;> simp
    · rename_i t h
      split at h
      · cases h
      · exact (ih _ _).trans (by simp [appendRec_frame h])

theorem unmapSegs_freeCtr (a0 : ℕ) (a1 : List ℕ) (s : State) : (unmapSegs a0 a1 s).freeCtr = s.freeCtr := by
  induction a0 generalizing a1 s with
  | zero => rfl
  | succ n ih =>
    unfold unmapSegs
    split
    · rfl
    split
    · unfold doIf
      split <;> simp
    · rename_i t h
      split at h
      · cases h
      · exact (ih _ _).trans (by simp [appendRec_frame h])

@[simp] theorem unmapSegs_frame (a0 : ℕ) (a1 : List ℕ) (s : State) :
    (unmapSegs a0 a1 s).pending = s.pending ∧ (unmapSegs a0 a1 s).latch = s.latch ∧ (unmapSegs a0 a1 s).mem = s.mem ∧ (unmapSegs a0 a1 s).clk = s.clk ∧ (unmapSegs a0 a1 s).thm = s.thm ∧ (unmapSegs a0 a1 s).tck = s.tck ∧ (unmapSegs a0 a1 s).stm = s.stm ∧ (unmapSegs a0 a1 s).flc = s.flc ∧ (unmapSegs a0 a1 s).mbr = s.mbr ∧ (unmapSegs a0 a1 s).flt = s.flt ∧ (unmapSegs a0 a1 s).sec = s.sec ∧ (unmapSegs a0 a1 s).cpx = s.cpx ∧ (unmapSegs a0 a1 s).memc = s.memc ∧ (unmapSegs a0 a1 s).mov = s.mov ∧ (unmapSegs a0 a1 s).cst = s.cst ∧ (unmapSegs a0 a1 s).out = s.out ∧ (unmapSegs a0 a1 s).freeCtr = s.freeCtr :=
  ⟨unmapSegs_pending a0 a1 s, unmapSegs_latch a0 a1 s, unmapSegs_mem a0 a1 s, unmapSegs_clk a0 a1 s, unmapSegs_thm a0 a1 s, unmapSegs_tck a0 a1 s, unmapSegs_stm a0 a1 s, unmapSegs_flc a0 a1 s, unmapSegs_mbr a0 a1 s, unmapSegs_flt a0 a1 s, unmapSegs_sec a0 a1 s, unmapSegs_cpx a0 a1 s, unmapSegs_memc a0 a1 s, unmapSegs_mov a0 a1 s, unmapSegs_cst a0 a1 s, unmapSegs_out a0 a1 s, unmapSegs_freeCtr a0 a1 s⟩

theorem unmapNs_pending (a0 : ℕ) (s : State) : (unmapNs a0 s).pending = s.pending := by
  unfold unmapNs
  try dsimp only
  first
    | (simp; done)
    | ((repeat' split) <;> simp; done)
    | (repeat' (first | (simp; done) | split))

theorem unmapNs_latch (a0 : ℕ) (s : State) : (unmapNs a0 s).latch = s.latch := by
  unfold unmapNs
  try dsimp only
  first
    | (simp; done)
    | ((repeat' split) <;> simp; done)
    | (repeat' (first | (simp; done) | split))

theorem unmapNs_mem (a0 : ℕ) (s : State) : (unmapNs a0 s).mem = s.mem := by
  unfold unmapNs
  try dsimp only
  first
    | (simp; done)
    | ((repeat' split) <;> simp; done)
    | (repeat' (first | (simp; done) | split))

theorem unmapNs_clk (a0 : ℕ) (s : State) : (unmapNs a0 s).clk = s.clk := by
  unfold unmapNs
  try dsimp only
  first
    | (simp; done)
    | ((repeat' split) <;> simp; done)
    | (repeat' (first | (simp; done) | split))

theorem unmapNs_thm (a0 : ℕ) (s : State) : (unmapNs a0 s).thm = s.thm := by
  unfold unmapNs
  try dsimp only
  first
    | (simp; done)
    | ((repeat' split) <;> simp; done)
    | (repeat' (first | (simp; done) | split))

theorem unmapNs_stm (a0 : ℕ) (s : State) : (unmapNs a0 s).stm = s.stm := by
  unfold unmapNs
  try dsimp only
  first
    | (simp; done)
    | ((repeat' split) <;> simp; done)
    | (repeat' (first | (simp; done) | split))

theorem unmapNs_flc (a0 : ℕ) (s : State) : (unmapNs a0 s).flc = s.flc := by
  unfold unmapNs
  try dsimp only
  first
    | (simp; done)
    | ((repeat' split) <;> simp; done)
    | (repeat' (first | (simp; done) | split))

theorem unmapNs_mbr (a0 : ℕ) (s : State) : (unmapNs a0 s).mbr = s.mbr := by
  unfold unmapNs
  try dsimp only
  first
    | (simp; done)
    | ((repeat' split) <;> simp; done)
    | (repeat' (first | (simp; done) | split))

theorem unmapNs_flt (a0 : ℕ) (s : State) : (unmapNs a0 s).flt = s.flt := by
  unfold unmapNs
  try dsimp only
  first
    | (simp; done)
    | ((repeat' split) <;> simp; done)
    | (repeat' (first | (simp; done) | split))

theorem unmapNs_sec (a0 : ℕ) (s : State) : (unmapNs a0 s).sec = s.sec := by
  unfold unmapNs
  try dsimp only
  first
    | (simp; done)
    | ((repeat' split) <;> simp; done)
    | (repeat' (first | (simp; done) | split))

theorem unmapNs_cpx (a0 : ℕ) (s : State) : (unmapNs a0 s).cpx = s.cpx := by
  unfold unmapNs
  try dsimp only
  first
    | (simp; done)
    | ((repeat' split) <;> simp; done)
    | (repeat' (first | (simp; done) | split))

theorem unmapNs_memc (a0 : ℕ) (s : State) : (unmapNs a0 s).memc = s.memc := by
  unfold unmapNs
  try dsimp only
  first
    | (simp; done)
    | ((repeat' split) <;> simp; done)
    | (repeat' (first | (simp; done) | split))

theorem unmapNs_mov (a0 : ℕ) (s : State) : (unmapNs a0 s).mov = s.mov := by
  unfold unmapNs
  try dsimp only
  first
    | (simp; done)
    | ((repeat' split) <;> simp; done)
    | (repeat' (first | (simp; done) | split))

theorem unmapNs_cst (a0 : ℕ) (s : State) : (unmapNs a0 s).cst = s.cst := by
  unfold unmapNs
  try dsimp only
  first
    | (simp; done)
    | ((repeat' split) <;> simp; done)
    | (repeat' (first | (simp; done) | split))

theorem unmapNs_out (a0 : ℕ) (s : State) : (unmapNs a0 s).out = s.out := by
  unfold unmapNs
  try dsimp only
  first
    | (simp; done)
    | ((repeat' split) <;> simp; done)
    | (repeat' (first | (simp; done) | split))

theorem unmapNs_freeCtr (a0 : ℕ) (s : State) : (unmapNs a0 s).freeCtr = s.freeCtr := by
  unfold unmapNs
  try dsimp only
  first
    | (simp; done)
    | ((repeat' split) <;> simp; done)
    | (repeat' (first | (simp; done) | split))

@[simp] theorem unmapNs_frame (a0 : ℕ) (s : State) :
    (unmapNs a0 s).pending = s.pending ∧ (unmapNs a0 s).latch = s.latch ∧ (unmapNs a0 s).mem = s.mem ∧ (unmapNs a0 s).clk = s.clk ∧ (unmapNs a0 s).thm = s.thm ∧ (unmapNs a0 s).stm = s.stm ∧ (unmapNs a0 s).flc = s.flc ∧ (unmapNs a0 s).mbr = s.mbr ∧ (unmapNs a0 s).flt = s.flt ∧ (unmapNs a0 s).sec = s.sec ∧ (unmapNs a0 s).cpx = s.cpx ∧ (unmapNs a0 s).memc = s.memc ∧ (unmapNs a0 s).mov = s.mov ∧ (unmapNs a0 s).cst = s.cst ∧ (unmapNs a0 s).out = s.out ∧ (unmapNs a0 s).freeCtr = s.freeCtr :=
  ⟨unmapNs_pending a0 s, unmapNs_latch a0 s, unmapNs_mem a0 s, unmapNs_clk a0 s, unmapNs_thm a0 s, unmapNs_stm a0 s, unmapNs_flc a0 s, unmapNs_mbr a0 s, unmapNs_flt a0 s, unmapNs_sec a0 s, unmapNs_cpx a0 s, unmapNs_memc a0 s, unmapNs_mov a0 s, unmapNs_cst a0 s, unmapNs_out a0 s, unmapNs_freeCtr a0 s⟩

@[simp] theorem leaveQuiesce_frame (s : State) :
    (leaveQuiesce s).pending = s.pending ∧ (leaveQuiesce s).latch = s.latch ∧ (leaveQuiesce s).mem = s.mem ∧ (leaveQuiesce s).clk = s.clk ∧ (leaveQuiesce s).thm = s.thm ∧ (leaveQuiesce s).tck = s.tck ∧ (leaveQuiesce s).hif = s.hif ∧ (leaveQuiesce s).stm = s.stm ∧ (leaveQuiesce s).map = s.map ∧ (leaveQuiesce s).flc = s.flc ∧ (leaveQuiesce s).bnd = s.bnd ∧ (leaveQuiesce s).mbr = s.mbr ∧ (leaveQuiesce s).flt = s.flt ∧ (leaveQuiesce s).sec = s.sec ∧ (leaveQuiesce s).cpx = s.cpx ∧ (leaveQuiesce s).memc = s.memc ∧ (leaveQuiesce s).mov = s.mov ∧ (leaveQuiesce s).out = s.out ∧ (leaveQuiesce s).freeCtr = s.freeCtr := by
  unfold leaveQuiesce
  try dsimp only
  first
    | (simp; done)
    | ((repeat' split) <;> simp; done)
    | (and_intros <;> (repeat' (first | (simp; done) | split)))

theorem formatStep_pending (s : State) : (formatStep s).pending = s.pending := by
  unfold formatStep
  try dsimp only
  first
    | (simp; done)
    | ((repeat' split) <;> simp; done)
    | (repeat' (first | (simp; done) | split))

theorem formatStep_latch (s : State) : (formatStep s).latch = s.latch := by
  unfold formatStep
  try dsimp only
  first
    | (simp; done)
    | ((repeat' split) <;> simp; done)
    | (repeat' (first | (simp; done) | split))

theorem formatStep_mem (s : State) : (formatStep s).mem = s.mem := by
  unfold formatStep
  try dsimp only
  first
    | (simp; done)
    | ((repeat' split) <;> simp; done)
    | (repeat' (first | (simp; done) | split))

theorem formatStep_clk (s : State) : (formatStep s).clk = s.clk := by
  unfold formatStep
  try dsimp only
  first
    | (simp; done)
    | ((repeat' split) <;> simp; done)
    | (repeat' (first | (simp; done) | split))

theorem formatStep_thm (s : State) : (formatStep s).thm = s.thm := by
  unfold formatStep
  try dsimp only
  first
    | (simp; done)
    | ((repeat' split) <;> simp; done)
    | (repeat' (first | (simp; done) | split))

theorem formatStep_stm (s : State) : (formatStep s).stm = s.stm := by
  unfold formatStep
  try dsimp only
  first
    | (simp; done)
    | ((repeat' split) <;> simp; done)
    | (repeat' (first | (simp; done) | split))

theorem formatStep_flc (s : State) : (formatStep s).flc = s.flc := by
  unfold formatStep
  try dsimp only
  first
    | (simp; done)
    | ((repeat' split) <;> simp; done)
    | (repeat' (first | (simp; done) | split))

theorem formatStep_mbr (s : State) : (formatStep s).mbr = s.mbr := by
  unfold formatStep
  try dsimp only
  first
    | (simp; done)
    | ((repeat' split) <;> simp; done)
    | (repeat' (first | (simp; done) | split))

theorem formatStep_flt (s : State) : (formatStep s).flt = s.flt := by
  unfold formatStep
  try dsimp only
  first
    | (simp; done)
    | ((repeat' split) <;> simp; done)
    | (repeat' (first | (simp; done) | split))

theorem formatStep_cpx (s : State) : (formatStep s).cpx = s.cpx := by
  unfold formatStep
  try dsimp only
  first
    | (simp; done)
    | ((repeat' split) <;> simp; done)
    | (repeat' (first | (simp; done) | split))

theorem formatStep_memc (s : State) : (formatStep s).memc = s.memc := by
  unfold formatStep
  try dsimp only
  first
    | (simp; done)
    | ((repeat' split) <;> simp; done)
    | (repeat' (first | (simp; done) | split))

theorem formatStep_mov (s : State) : (formatStep s).mov = s.mov := by
  unfold formatStep
  try dsimp only
  first
    | (simp; done)
    | ((repeat' split) <;> simp; done)
    | (repeat' (first | (simp; done) | split))

theorem formatStep_freeCtr (s : State) : (formatStep s).freeCtr = s.freeCtr := by
  unfold formatStep
  try dsimp only
  first
    | (simp; done)
    | ((repeat' split) <;> simp; done)
    | (repeat' (first | (simp; done) | split))

@[simp] theorem formatStep_frame (s : State) :
    (formatStep s).pending = s.pending ∧ (formatStep s).latch = s.latch ∧ (formatStep s).mem = s.mem ∧ (formatStep s).clk = s.clk ∧ (formatStep s).thm = s.thm ∧ (formatStep s).stm = s.stm ∧ (formatStep s).flc = s.flc ∧ (formatStep s).mbr = s.mbr ∧ (formatStep s).flt = s.flt ∧ (formatStep s).cpx = s.cpx ∧ (formatStep s).memc = s.memc ∧ (formatStep s).mov = s.mov ∧ (formatStep s).freeCtr = s.freeCtr :=
  ⟨formatStep_pending s, formatStep_latch s, formatStep_mem s, formatStep_clk s, formatStep_thm s, formatStep_stm s, formatStep_flc s, formatStep_mbr s, formatStep_flt s, formatStep_cpx s, formatStep_memc s, formatStep_mov s, formatStep_freeCtr s⟩

@[simp] theorem queueTest_frame (a0 : ℕ) (a1 : List (ℕ × ℕ × ℕ × ℕ)) (s : State) :
    (queueTest a0 a1 s).pending = s.pending ∧ (queueTest a0 a1 s).regs = s.regs ∧ (queueTest a0 a1 s).latch = s.latch ∧ (queueTest a0 a1 s).mem = s.mem ∧ (queueTest a0 a1 s).sys = s.sys ∧ (queueTest a0 a1 s).clk = s.clk ∧ (queueTest a0 a1 s).thm = s.thm ∧ (queueTest a0 a1 s).tck = s.tck ∧ (queueTest a0 a1 s).hif = s.hif ∧ (queueTest a0 a1 s).stm = s.stm ∧ (queueTest a0 a1 s).map = s.map ∧ (queueTest a0 a1 s).bnd = s.bnd ∧ (queueTest a0 a1 s).mbr = s.mbr ∧ (queueTest a0 a1 s).flt = s.flt ∧ (queueTest a0 a1 s).sec = s.sec ∧ (queueTest a0 a1 s).cpx = s.cpx ∧ (queueTest a0 a1 s).memc = s.memc ∧ (queueTest a0 a1 s).mov = s.mov ∧ (queueTest a0 a1 s).cst = s.cst ∧ (queueTest a0 a1 s).lnt = s.lnt ∧ (queueTest a0 a1 s).out = s.out ∧ (queueTest a0 a1 s).freeCtr = s.freeCtr := by
  unfold queueTest
  try dsimp only
  first
    | (simp; done)
    | ((repeat' split) <;> simp; done)
    | (and_intros <;> (repeat' (first | (simp; done) | split)))

@[simp] theorem startSelfTest_frame (a0 : Bool) (a1 : ℕ) (a2 : ℕ) (s : State) :
    (startSelfTest a0 a1 a2 s).pending = s.pending ∧ (startSelfTest a0 a1 a2 s).regs = s.regs ∧ (startSelfTest a0 a1 a2 s).latch = s.latch ∧ (startSelfTest a0 a1 a2 s).mem = s.mem ∧ (startSelfTest a0 a1 a2 s).sys = s.sys ∧ (startSelfTest a0 a1 a2 s).clk = s.clk ∧ (startSelfTest a0 a1 a2 s).thm = s.thm ∧ (startSelfTest a0 a1 a2 s).tck = s.tck ∧ (startSelfTest a0 a1 a2 s).stm = s.stm ∧ (startSelfTest a0 a1 a2 s).map = s.map ∧ (startSelfTest a0 a1 a2 s).bnd = s.bnd ∧ (startSelfTest a0 a1 a2 s).mbr = s.mbr ∧ (startSelfTest a0 a1 a2 s).flt = s.flt ∧ (startSelfTest a0 a1 a2 s).sec = s.sec ∧ (startSelfTest a0 a1 a2 s).cpx = s.cpx ∧ (startSelfTest a0 a1 a2 s).memc = s.memc ∧ (startSelfTest a0 a1 a2 s).mov = s.mov ∧ (startSelfTest a0 a1 a2 s).cst = s.cst ∧ (startSelfTest a0 a1 a2 s).freeCtr = s.freeCtr := by
  unfold startSelfTest
  try dsimp only
  first
    | (simp; done)
    | ((repeat' split) <;> simp; done)
    | (and_intros <;> (repeat' (first | (simp; done) | split)))

theorem adminCmd_pending (a : Bool) (c : ℕ) (f : State → State) (s : State) (h : ∀ t, (f t).pending = t.pending) : (adminCmd a c f s).pending = s.pending := by
  unfold adminCmd
  split
  · rfl
  dsimp only
  split <;> simp [h]

theorem adminCmd_latch (a : Bool) (c : ℕ) (f : State → State) (s : State) (h : ∀ t, (f t).latch = t.latch) : (adminCmd a c f s).latch = s.latch := by
  unfold adminCmd
  split
  · rfl
  dsimp only
  split <;> simp [h]

theorem adminCmd_mem (a : Bool) (c : ℕ) (f : State → State) (s : State) (h : ∀ t, (f t).mem = t.mem) : (adminCmd a c f s).mem = s.mem := by
  unfold adminCmd
  split
  · rfl
  dsimp only
  split <;> simp [h]

theorem adminCmd_clk (a : Bool) (c : ℕ) (f : State → State) (s : State) (h : ∀ t, (f t).clk = t.clk) : (adminCmd a c f s).clk = s.clk := by
  unfold adminCmd
  split
  · rfl
  dsimp only
  split <;> simp [h]

theorem adminCmd_thm (a : Bool) (c : ℕ) (f : State → State) (s : State) (h : ∀ t, (f t).thm = t.thm) : (adminCmd a c f s).thm = s.thm := by
  unfold adminCmd
  split
  · rfl
  dsimp only
  split <;> simp [h]

theorem adminCmd_tck (a : Bool) (c : ℕ) (f : State → State) (s : State) (h : ∀ t, (f t).tck = t.tck) : (adminCmd a c f s).tck = s.tck := by
  unfold adminCmd
  split
  · rfl
  dsimp only
  split <;> simp [h]

theorem adminCmd_stm (a : Bool) (c : ℕ) (f : State → State) (s : State) (h : ∀ t, (f t).stm = t.stm) : (adminCmd a c f s).stm = s.stm := by
  unfold adminCmd
  split
  · rfl
  dsimp only
  split <;> simp [h]

theorem adminCmd_map (a : Bool) (c : ℕ) (f : State → State) (s : State) (h : ∀ t, (f t).map = t.map) : (adminCmd a c f s).map = s.map := by
  unfold adminCmd
  split
  · rfl
  dsimp only
  split <;> simp [h]

theorem adminCmd_flc (a : Bool) (c : ℕ) (f : State → State) (s : State) (h : ∀ t, (f t).flc = t.flc) : (adminCmd a c f s).flc = s.flc := by
  unfold adminCmd
  split
  · rfl
  dsimp only
  split <;> simp [h]

theorem adminCmd_mbr (a : Bool) (c : ℕ) (f : State → State) (s : State) (h : ∀ t, (f t).mbr = t.mbr) : (adminCmd a c f s).mbr = s.mbr := by
  unfold adminCmd
  split
  · rfl
  dsimp only
  split <;> simp [h]

theorem adminCmd_flt (a : Bool) (c : ℕ) (f : State → State) (s : State) (h : ∀ t, (f t).flt = t.flt) : (adminCmd a c f s).flt = s.flt := by
  unfold adminCmd
  split
  · rfl
  dsimp only
  split <;> simp [h]

theorem adminCmd_sec (a : Bool) (c : ℕ) (f : State → State) (s : State) (h : ∀ t, (f t).sec = t.sec) : (adminCmd a c f s).sec = s.sec := by
  unfold adminCmd
  split
  · rfl
  dsimp only
  split <;> simp [h]

theorem adminCmd_cpx (a : Bool) (c : ℕ) (f : State → State) (s : State) (h : ∀ t, (f t).cpx = t.cpx) : (adminCmd a c f s).cpx = s.cpx := by
  unfold adminCmd
  split
  · rfl
  dsimp only
  split <;> simp [h]

theorem adminCmd_memc (a : Bool) (c : ℕ) (f : State → State) (s : State) (h : ∀ t, (f t).memc = t.memc) : (adminCmd a c f s).memc = s.memc := by
  unfold adminCmd
  split
  · rfl
  dsimp only
  split <;> simp [h]

theorem adminCmd_mov (a : Bool) (c : ℕ) (f : State → State) (s : State) (h : ∀ t, (f t).mov = t.mov) : (adminCmd a c f s).mov = s.mov := by
  unfold adminCmd
  split
  · rfl
  dsimp only
  split <;> simp [h]

theorem adminCmd_cst (a : Bool) (c : ℕ) (f : State → State) (s : State) (h : ∀ t, (f t).cst = t.cst) : (adminCmd a c f s).cst = s.cst := by
  unfold adminCmd
  split
  · rfl
  dsimp only
  split <;> simp [h]

theorem adminCmd_freeCtr (a : Bool) (c : ℕ) (f : State → State) (s : State) (h : ∀ t, (f t).freeCtr = t.freeCtr) : (adminCmd a c f s).freeCtr = s.freeCtr := by
  unfold adminCmd
  split
  · rfl
  dsimp only
  split <;> simp [h]

theorem adminCmd_bnd (a : Bool) (c : ℕ) (f : State → State) (s : State) (h : ∀ t, (f t).bnd = t.bnd) : (adminCmd a c f s).bnd = s.bnd := by
  unfold adminCmd
  split
  · rfl
  dsimp only
  split <;> simp [h]

theorem vendor_pending (a0 : ℕ) (a1 : Vend) (s : State) : (vendor a0 a1 s).pending = s.pending := by
  unfold vendor
  refine adminCmd_pending _ _ _ _ (fun t => ?_)
  repeat' (first | (simp; done) | split)

theorem vendor_latch (a0 : ℕ) (a1 : Vend) (s : State) : (vendor a0 a1 s).latch = s.latch := by
  unfold vendor
  refine adminCmd_latch _ _ _ _ (fun t => ?_)
  repeat' (first | (simp; done) | split)

theorem vendor_mem (a0 : ℕ) (a1 : Vend) (s : State) : (vendor a0 a1 s).mem = s.mem := by
  unfold vendor
  refine adminCmd_mem _ _ _ _ (fun t => ?_)
  repeat' (first | (simp; done) | split)

theorem vendor_clk (a0 : ℕ) (a1 : Vend) (s : State) : (vendor a0 a1 s).clk = s.clk := by
  unfold vendor
  refine adminCmd_clk _ _ _ _ (fun t => ?_)
  repeat' (first | (simp; done) | split)

theorem vendor_thm (a0 : ℕ) (a1 : Vend) (s : State) : (vendor a0 a1 s).thm = s.thm := by
  unfold vendor
  refine adminCmd_thm _ _ _ _ (fun t => ?_)
  repeat' (first | (simp; done) | split)

theorem vendor_tck (a0 : ℕ) (a1 : Vend) (s : State) : (vendor a0 a1 s).tck = s.tck := by
  unfold vendor
  refine adminCmd_tck _ _ _ _ (fun t => ?_)
  repeat' (first | (simp; done) | split)

theorem vendor_stm (a0 : ℕ) (a1 : Vend) (s : State) : (vendor a0 a1 s).stm = s.stm := by
  unfold vendor
  refine adminCmd_stm _ _ _ _ (fun t => ?_)
  repeat' (first | (simp; done) | split)

theorem vendor_map (a0 : ℕ) (a1 : Vend) (s : State) : (vendor a0 a1 s).map = s.map := by
  unfold vendor
  refine adminCmd_map _ _ _ _ (fun t => ?_)
  repeat' (first | (simp; done) | split)

theorem vendor_flc (a0 : ℕ) (a1 : Vend) (s : State) : (vendor a0 a1 s).flc = s.flc := by
  unfold vendor
  refine adminCmd_flc _ _ _ _ (fun t => ?_)
  repeat' (first | (simp; done) | split)

theorem vendor_bnd (a0 : ℕ) (a1 : Vend) (s : State) : (vendor a0 a1 s).bnd = s.bnd := by
  unfold vendor
  refine adminCmd_bnd _ _ _ _ (fun t => ?_)
  repeat' (first | (simp; done) | split)

theorem vendor_mbr (a0 : ℕ) (a1 : Vend) (s : State) : (vendor a0 a1 s).mbr = s.mbr := by
  unfold vendor
  refine adminCmd_mbr _ _ _ _ (fun t => ?_)
  repeat' (first | (simp; done) | split)

theorem vendor_flt (a0 : ℕ) (a1 : Vend) (s : State) : (vendor a0 a1 s).flt = s.flt := by
  unfold vendor
  refine adminCmd_flt _ _ _ _ (fun t => ?_)
  repeat' (first | (simp; done) | split)

theorem vendor_sec (a0 : ℕ) (a1 : Vend) (s : State) : (vendor a0 a1 s).sec = s.sec := by
  unfold vendor
  refine adminCmd_sec _ _ _ _ (fun t => ?_)
  repeat' (first | (simp; done) | split)

theorem vendor_cpx (a0 : ℕ) (a1 : Vend) (s : State) : (vendor a0 a1 s).cpx = s.cpx := by
  unfold vendor
  refine adminCmd_cpx _ _ _ _ (fun t => ?_)
  repeat' (first | (simp; done) | split)

theorem vendor_memc (a0 : ℕ) (a1 : Vend) (s : State) : (vendor a0 a1 s).memc = s.memc := by
  unfold vendor
  refine adminCmd_memc _ _ _ _ (fun t => ?_)
  repeat' (first | (simp; done) | split)

theorem vendor_mov (a0 : ℕ) (a1 : Vend) (s : State) : (vendor a0 a1 s).mov = s.mov := by
  unfold vendor
  refine adminCmd_mov _ _ _ _ (fun t => ?_)
  repeat' (first | (simp; done) | split)

theorem vendor_cst (a0 : ℕ) (a1 : Vend) (s : State) : (vendor a0 a1 s).cst = s.cst := by
  unfold vendor
  refine adminCmd_cst _ _ _ _ (fun t => ?_)
  repeat' (first | (simp; done) | split)

theorem vendor_freeCtr (a0 : ℕ) (a1 : Vend) (s : State) : (vendor a0 a1 s).freeCtr = s.freeCtr := by
  unfold vendor
  refine adminCmd_freeCtr _ _ _ _ (fun t => ?_)
  repeat' (first | (simp; done) | split)

@[simp] theorem vendor_frame (a0 : ℕ) (a1 : Vend) (s : State) :
    (vendor a0 a1 s).pending = s.pending ∧ (vendor a0 a1 s).latch = s.latch ∧ (vendor a0 a1 s).mem = s.mem ∧ (vendor a0 a1 s).clk = s.clk ∧ (vendor a0 a1 s).thm = s.thm ∧ (vendor a0 a1 s).tck = s.tck ∧ (vendor a0 a1 s).stm = s.stm ∧ (vendor a0 a1 s).map = s.map ∧ (vendor a0 a1 s).flc = s.flc ∧ (vendor a0 a1 s).bnd = s.bnd ∧ (vendor a0 a1 s).mbr = s.mbr ∧ (vendor a0 a1 s).flt = s.flt ∧ (vendor a0 a1 s).sec = s.sec ∧ (vendor a0 a1 s).cpx = s.cpx ∧ (vendor a0 a1 s).memc = s.memc ∧ (vendor a0 a1 s).mov = s.mov ∧ (vendor a0 a1 s).cst = s.cst ∧ (vendor a0 a1 s).freeCtr = s.freeCtr :=
  ⟨vendor_pending a0 a1 s, vendor_latch a0 a1 s, vendor_mem a0 a1 s, vendor_clk a0 a1 s, vendor_thm a0 a1 s, vendor_tck a0 a1 s, vendor_stm a0 a1 s, vendor_map a0 a1 s, vendor_flc a0 a1 s, vendor_bnd a0 a1 s, vendor_mbr a0 a1 s, vendor_flt a0 a1 s, vendor_sec a0 a1 s, vendor_cpx a0 a1 s, vendor_memc a0 a1 s, vendor_mov a0 a1 s, vendor_cst a0 a1 s, vendor_freeCtr a0 a1 s⟩

/-! ### Trust -/

@[simp] theorem provResult_frame (a0 : ℕ) (s : State) :
    (provResult a0 s).pending = s.pending ∧ (provResult a0 s).latch = s.latch ∧ (provResult a0 s).mem = s.mem ∧ (provResult a0 s).clk = s.clk ∧ (provResult a0 s).thm = s.thm ∧ (provResult a0 s).tck = s.tck ∧ (provResult a0 s).hif = s.hif ∧ (provResult a0 s).stm = s.stm ∧ (provResult a0 s).map = s.map ∧ (provResult a0 s).flc = s.flc ∧ (provResult a0 s).bnd = s.bnd ∧ (provResult a0 s).mbr = s.mbr ∧ (provResult a0 s).flt = s.flt ∧ (provResult a0 s).cpx = s.cpx ∧ (provResult a0 s).memc = s.memc ∧ (provResult a0 s).mov = s.mov ∧ (provResult a0 s).cst = s.cst ∧ (provResult a0 s).out = s.out ∧ (provResult a0 s).freeCtr = s.freeCtr := by
  unfold provResult
  try dsimp only
  first
    | (simp; done)
    | ((repeat' split) <;> simp; done)
    | (and_intros <;> (repeat' (first | (simp; done) | split)))

theorem provision_pending (l : Lifecycle) (ok : State → Bool) (f : State → State) (s : State) (h : ∀ s, (f s).pending = s.pending) :
    (provision l ok f s).pending = s.pending := by
  unfold provision
  (repeat' split) <;> simp [h]

theorem provision_latch (l : Lifecycle) (ok : State → Bool) (f : State → State) (s : State) (h : ∀ s, (f s).latch = s.latch) :
    (provision l ok f s).latch = s.latch := by
  unfold provision
  (repeat' split) <;> simp [h]

theorem provision_mem (l : Lifecycle) (ok : State → Bool) (f : State → State) (s : State) (h : ∀ s, (f s).mem = s.mem) :
    (provision l ok f s).mem = s.mem := by
  unfold provision
  (repeat' split) <;> simp [h]

theorem provision_clk (l : Lifecycle) (ok : State → Bool) (f : State → State) (s : State) (h : ∀ s, (f s).clk = s.clk) :
    (provision l ok f s).clk = s.clk := by
  unfold provision
  (repeat' split) <;> simp [h]

theorem provision_thm (l : Lifecycle) (ok : State → Bool) (f : State → State) (s : State) (h : ∀ s, (f s).thm = s.thm) :
    (provision l ok f s).thm = s.thm := by
  unfold provision
  (repeat' split) <;> simp [h]

theorem provision_tck (l : Lifecycle) (ok : State → Bool) (f : State → State) (s : State) (h : ∀ s, (f s).tck = s.tck) :
    (provision l ok f s).tck = s.tck := by
  unfold provision
  (repeat' split) <;> simp [h]

theorem provision_hif (l : Lifecycle) (ok : State → Bool) (f : State → State) (s : State) (h : ∀ s, (f s).hif = s.hif) :
    (provision l ok f s).hif = s.hif := by
  unfold provision
  (repeat' split) <;> simp [h]

theorem provision_stm (l : Lifecycle) (ok : State → Bool) (f : State → State) (s : State) (h : ∀ s, (f s).stm = s.stm) :
    (provision l ok f s).stm = s.stm := by
  unfold provision
  (repeat' split) <;> simp [h]

theorem provision_map (l : Lifecycle) (ok : State → Bool) (f : State → State) (s : State) (h : ∀ s, (f s).map = s.map) :
    (provision l ok f s).map = s.map := by
  unfold provision
  (repeat' split) <;> simp [h]

theorem provision_flc (l : Lifecycle) (ok : State → Bool) (f : State → State) (s : State) (h : ∀ s, (f s).flc = s.flc) :
    (provision l ok f s).flc = s.flc := by
  unfold provision
  (repeat' split) <;> simp [h]

theorem provision_bnd (l : Lifecycle) (ok : State → Bool) (f : State → State) (s : State) (h : ∀ s, (f s).bnd = s.bnd) :
    (provision l ok f s).bnd = s.bnd := by
  unfold provision
  (repeat' split) <;> simp [h]

theorem provision_mbr (l : Lifecycle) (ok : State → Bool) (f : State → State) (s : State) (h : ∀ s, (f s).mbr = s.mbr) :
    (provision l ok f s).mbr = s.mbr := by
  unfold provision
  (repeat' split) <;> simp [h]

theorem provision_flt (l : Lifecycle) (ok : State → Bool) (f : State → State) (s : State) (h : ∀ s, (f s).flt = s.flt) :
    (provision l ok f s).flt = s.flt := by
  unfold provision
  (repeat' split) <;> simp [h]

theorem provision_cpx (l : Lifecycle) (ok : State → Bool) (f : State → State) (s : State) (h : ∀ s, (f s).cpx = s.cpx) :
    (provision l ok f s).cpx = s.cpx := by
  unfold provision
  (repeat' split) <;> simp [h]

theorem provision_memc (l : Lifecycle) (ok : State → Bool) (f : State → State) (s : State) (h : ∀ s, (f s).memc = s.memc) :
    (provision l ok f s).memc = s.memc := by
  unfold provision
  (repeat' split) <;> simp [h]

theorem provision_mov (l : Lifecycle) (ok : State → Bool) (f : State → State) (s : State) (h : ∀ s, (f s).mov = s.mov) :
    (provision l ok f s).mov = s.mov := by
  unfold provision
  (repeat' split) <;> simp [h]

theorem provision_cst (l : Lifecycle) (ok : State → Bool) (f : State → State) (s : State) (h : ∀ s, (f s).cst = s.cst) :
    (provision l ok f s).cst = s.cst := by
  unfold provision
  (repeat' split) <;> simp [h]

theorem provision_out (l : Lifecycle) (ok : State → Bool) (f : State → State) (s : State) (h : ∀ s, (f s).out = s.out) :
    (provision l ok f s).out = s.out := by
  unfold provision
  (repeat' split) <;> simp [h]

theorem provision_freeCtr (l : Lifecycle) (ok : State → Bool) (f : State → State) (s : State) (h : ∀ s, (f s).freeCtr = s.freeCtr) :
    (provision l ok f s).freeCtr = s.freeCtr := by
  unfold provision
  (repeat' split) <;> simp [h]

theorem storeProv_pending (a0 : Word) (s : State) : (storeProv a0 s).pending = s.pending := by
  unfold storeProv
  dsimp only
  split
  · simp only [execGenSecret]
    rw [provision_pending _ _ _ _ (fun t => by simp)]
    simp
  · simp only [execWriteDaymark]
    rw [provision_pending _ _ _ _ (fun t => by simp)]
    simp
  · simp only [execSetOwner]
    rw [provision_pending _ _ _ _ (fun t => by simp)]
    simp
  · simp

theorem storeProv_latch (a0 : Word) (s : State) : (storeProv a0 s).latch = s.latch := by
  unfold storeProv
  dsimp only
  split
  · simp only [execGenSecret]
    rw [provision_latch _ _ _ _ (fun t => by simp)]
    simp
  · simp only [execWriteDaymark]
    rw [provision_latch _ _ _ _ (fun t => by simp)]
    simp
  · simp only [execSetOwner]
    rw [provision_latch _ _ _ _ (fun t => by simp)]
    simp
  · simp

theorem storeProv_clk (a0 : Word) (s : State) : (storeProv a0 s).clk = s.clk := by
  unfold storeProv
  dsimp only
  split
  · simp only [execGenSecret]
    rw [provision_clk _ _ _ _ (fun t => by simp)]
    simp
  · simp only [execWriteDaymark]
    rw [provision_clk _ _ _ _ (fun t => by simp)]
    simp
  · simp only [execSetOwner]
    rw [provision_clk _ _ _ _ (fun t => by simp)]
    simp
  · simp

theorem storeProv_thm (a0 : Word) (s : State) : (storeProv a0 s).thm = s.thm := by
  unfold storeProv
  dsimp only
  split
  · simp only [execGenSecret]
    rw [provision_thm _ _ _ _ (fun t => by simp)]
    simp
  · simp only [execWriteDaymark]
    rw [provision_thm _ _ _ _ (fun t => by simp)]
    simp
  · simp only [execSetOwner]
    rw [provision_thm _ _ _ _ (fun t => by simp)]
    simp
  · simp

theorem storeProv_tck (a0 : Word) (s : State) : (storeProv a0 s).tck = s.tck := by
  unfold storeProv
  dsimp only
  split
  · simp only [execGenSecret]
    rw [provision_tck _ _ _ _ (fun t => by simp)]
    simp
  · simp only [execWriteDaymark]
    rw [provision_tck _ _ _ _ (fun t => by simp)]
    simp
  · simp only [execSetOwner]
    rw [provision_tck _ _ _ _ (fun t => by simp)]
    simp
  · simp

theorem storeProv_hif (a0 : Word) (s : State) : (storeProv a0 s).hif = s.hif := by
  unfold storeProv
  dsimp only
  split
  · simp only [execGenSecret]
    rw [provision_hif _ _ _ _ (fun t => by simp)]
    simp
  · simp only [execWriteDaymark]
    rw [provision_hif _ _ _ _ (fun t => by simp)]
    simp
  · simp only [execSetOwner]
    rw [provision_hif _ _ _ _ (fun t => by simp)]
    simp
  · simp

theorem storeProv_stm (a0 : Word) (s : State) : (storeProv a0 s).stm = s.stm := by
  unfold storeProv
  dsimp only
  split
  · simp only [execGenSecret]
    rw [provision_stm _ _ _ _ (fun t => by simp)]
    simp
  · simp only [execWriteDaymark]
    rw [provision_stm _ _ _ _ (fun t => by simp)]
    simp
  · simp only [execSetOwner]
    rw [provision_stm _ _ _ _ (fun t => by simp)]
    simp
  · simp

theorem storeProv_map (a0 : Word) (s : State) : (storeProv a0 s).map = s.map := by
  unfold storeProv
  dsimp only
  split
  · simp only [execGenSecret]
    rw [provision_map _ _ _ _ (fun t => by simp)]
    simp
  · simp only [execWriteDaymark]
    rw [provision_map _ _ _ _ (fun t => by simp)]
    simp
  · simp only [execSetOwner]
    rw [provision_map _ _ _ _ (fun t => by simp)]
    simp
  · simp

theorem storeProv_flc (a0 : Word) (s : State) : (storeProv a0 s).flc = s.flc := by
  unfold storeProv
  dsimp only
  split
  · simp only [execGenSecret]
    rw [provision_flc _ _ _ _ (fun t => by simp)]
    simp
  · simp only [execWriteDaymark]
    rw [provision_flc _ _ _ _ (fun t => by simp)]
    simp
  · simp only [execSetOwner]
    rw [provision_flc _ _ _ _ (fun t => by simp)]
    simp
  · simp

theorem storeProv_bnd (a0 : Word) (s : State) : (storeProv a0 s).bnd = s.bnd := by
  unfold storeProv
  dsimp only
  split
  · simp only [execGenSecret]
    rw [provision_bnd _ _ _ _ (fun t => by simp)]
    simp
  · simp only [execWriteDaymark]
    rw [provision_bnd _ _ _ _ (fun t => by simp)]
    simp
  · simp only [execSetOwner]
    rw [provision_bnd _ _ _ _ (fun t => by simp)]
    simp
  · simp

theorem storeProv_mbr (a0 : Word) (s : State) : (storeProv a0 s).mbr = s.mbr := by
  unfold storeProv
  dsimp only
  split
  · simp only [execGenSecret]
    rw [provision_mbr _ _ _ _ (fun t => by simp)]
    simp
  · simp only [execWriteDaymark]
    rw [provision_mbr _ _ _ _ (fun t => by simp)]
    simp
  · simp only [execSetOwner]
    rw [provision_mbr _ _ _ _ (fun t => by simp)]
    simp
  · simp

theorem storeProv_flt (a0 : Word) (s : State) : (storeProv a0 s).flt = s.flt := by
  unfold storeProv
  dsimp only
  split
  · simp only [execGenSecret]
    rw [provision_flt _ _ _ _ (fun t => by simp)]
    simp
  · simp only [execWriteDaymark]
    rw [provision_flt _ _ _ _ (fun t => by simp)]
    simp
  · simp only [execSetOwner]
    rw [provision_flt _ _ _ _ (fun t => by simp)]
    simp
  · simp

theorem storeProv_cpx (a0 : Word) (s : State) : (storeProv a0 s).cpx = s.cpx := by
  unfold storeProv
  dsimp only
  split
  · simp only [execGenSecret]
    rw [provision_cpx _ _ _ _ (fun t => by simp)]
    simp
  · simp only [execWriteDaymark]
    rw [provision_cpx _ _ _ _ (fun t => by simp)]
    simp
  · simp only [execSetOwner]
    rw [provision_cpx _ _ _ _ (fun t => by simp)]
    simp
  · simp

theorem storeProv_memc (a0 : Word) (s : State) : (storeProv a0 s).memc = s.memc := by
  unfold storeProv
  dsimp only
  split
  · simp only [execGenSecret]
    rw [provision_memc _ _ _ _ (fun t => by simp)]
    simp
  · simp only [execWriteDaymark]
    rw [provision_memc _ _ _ _ (fun t => by simp)]
    simp
  · simp only [execSetOwner]
    rw [provision_memc _ _ _ _ (fun t => by simp)]
    simp
  · simp

theorem storeProv_mov (a0 : Word) (s : State) : (storeProv a0 s).mov = s.mov := by
  unfold storeProv
  dsimp only
  split
  · simp only [execGenSecret]
    rw [provision_mov _ _ _ _ (fun t => by simp)]
    simp
  · simp only [execWriteDaymark]
    rw [provision_mov _ _ _ _ (fun t => by simp)]
    simp
  · simp only [execSetOwner]
    rw [provision_mov _ _ _ _ (fun t => by simp)]
    simp
  · simp

theorem storeProv_cst (a0 : Word) (s : State) : (storeProv a0 s).cst = s.cst := by
  unfold storeProv
  dsimp only
  split
  · simp only [execGenSecret]
    rw [provision_cst _ _ _ _ (fun t => by simp)]
    simp
  · simp only [execWriteDaymark]
    rw [provision_cst _ _ _ _ (fun t => by simp)]
    simp
  · simp only [execSetOwner]
    rw [provision_cst _ _ _ _ (fun t => by simp)]
    simp
  · simp

theorem storeProv_out (a0 : Word) (s : State) : (storeProv a0 s).out = s.out := by
  unfold storeProv
  dsimp only
  split
  · simp only [execGenSecret]
    rw [provision_out _ _ _ _ (fun t => by simp)]
    simp
  · simp only [execWriteDaymark]
    rw [provision_out _ _ _ _ (fun t => by simp)]
    simp
  · simp only [execSetOwner]
    rw [provision_out _ _ _ _ (fun t => by simp)]
    simp
  · simp

theorem storeProv_freeCtr (a0 : Word) (s : State) : (storeProv a0 s).freeCtr = s.freeCtr := by
  unfold storeProv
  dsimp only
  split
  · simp only [execGenSecret]
    rw [provision_freeCtr _ _ _ _ (fun t => by simp)]
    simp
  · simp only [execWriteDaymark]
    rw [provision_freeCtr _ _ _ _ (fun t => by simp)]
    simp
  · simp only [execSetOwner]
    rw [provision_freeCtr _ _ _ _ (fun t => by simp)]
    simp
  · simp

@[simp] theorem storeProv_frame (a0 : Word) (s : State) :
    (storeProv a0 s).pending = s.pending ∧ (storeProv a0 s).latch = s.latch ∧ (storeProv a0 s).clk = s.clk ∧ (storeProv a0 s).thm = s.thm ∧ (storeProv a0 s).tck = s.tck ∧ (storeProv a0 s).hif = s.hif ∧ (storeProv a0 s).stm = s.stm ∧ (storeProv a0 s).map = s.map ∧ (storeProv a0 s).flc = s.flc ∧ (storeProv a0 s).bnd = s.bnd ∧ (storeProv a0 s).mbr = s.mbr ∧ (storeProv a0 s).flt = s.flt ∧ (storeProv a0 s).cpx = s.cpx ∧ (storeProv a0 s).memc = s.memc ∧ (storeProv a0 s).mov = s.mov ∧ (storeProv a0 s).cst = s.cst ∧ (storeProv a0 s).out = s.out ∧ (storeProv a0 s).freeCtr = s.freeCtr :=
  ⟨storeProv_pending a0 s, storeProv_latch a0 s, storeProv_clk a0 s, storeProv_thm a0 s, storeProv_tck a0 s, storeProv_hif a0 s, storeProv_stm a0 s, storeProv_map a0 s, storeProv_flc a0 s, storeProv_bnd a0 s, storeProv_mbr a0 s, storeProv_flt a0 s, storeProv_cpx a0 s, storeProv_memc a0 s, storeProv_mov a0 s, storeProv_cst a0 s, storeProv_out a0 s, storeProv_freeCtr a0 s⟩

@[simp] theorem lanesFell_frame (a0 : ℕ) (s : State) :
    (lanesFell a0 s).pending = s.pending ∧ (lanesFell a0 s).latch = s.latch ∧ (lanesFell a0 s).mem = s.mem ∧ (lanesFell a0 s).clk = s.clk ∧ (lanesFell a0 s).thm = s.thm ∧ (lanesFell a0 s).tck = s.tck ∧ (lanesFell a0 s).stm = s.stm ∧ (lanesFell a0 s).map = s.map ∧ (lanesFell a0 s).flc = s.flc ∧ (lanesFell a0 s).bnd = s.bnd ∧ (lanesFell a0 s).mbr = s.mbr ∧ (lanesFell a0 s).flt = s.flt ∧ (lanesFell a0 s).cpx = s.cpx ∧ (lanesFell a0 s).memc = s.memc ∧ (lanesFell a0 s).mov = s.mov ∧ (lanesFell a0 s).out = s.out ∧ (lanesFell a0 s).freeCtr = s.freeCtr := by
  unfold lanesFell
  try dsimp only
  first
    | (simp; done)
    | ((repeat' split) <;> simp; done)
    | (and_intros <;> (repeat' (first | (simp; done) | split)))

@[simp] theorem laneReq_frame (a0 : ℕ) (a1 : Bool) (s : State) :
    (laneReq a0 a1 s).pending = s.pending ∧ (laneReq a0 a1 s).latch = s.latch ∧ (laneReq a0 a1 s).mem = s.mem ∧ (laneReq a0 a1 s).clk = s.clk ∧ (laneReq a0 a1 s).thm = s.thm ∧ (laneReq a0 a1 s).tck = s.tck ∧ (laneReq a0 a1 s).stm = s.stm ∧ (laneReq a0 a1 s).map = s.map ∧ (laneReq a0 a1 s).flc = s.flc ∧ (laneReq a0 a1 s).bnd = s.bnd ∧ (laneReq a0 a1 s).mbr = s.mbr ∧ (laneReq a0 a1 s).flt = s.flt ∧ (laneReq a0 a1 s).cpx = s.cpx ∧ (laneReq a0 a1 s).memc = s.memc ∧ (laneReq a0 a1 s).mov = s.mov ∧ (laneReq a0 a1 s).out = s.out ∧ (laneReq a0 a1 s).freeCtr = s.freeCtr := by
  unfold laneReq
  try dsimp only
  first
    | (simp; done)
    | ((repeat' split) <;> simp; done)
    | (and_intros <;> (repeat' (first | (simp; done) | split)))

@[simp] theorem laneEnded_frame (a0 : ℕ) (s : State) :
    (laneEnded a0 s).pending = s.pending ∧ (laneEnded a0 s).latch = s.latch ∧ (laneEnded a0 s).mem = s.mem ∧ (laneEnded a0 s).clk = s.clk ∧ (laneEnded a0 s).thm = s.thm ∧ (laneEnded a0 s).tck = s.tck ∧ (laneEnded a0 s).stm = s.stm ∧ (laneEnded a0 s).map = s.map ∧ (laneEnded a0 s).flc = s.flc ∧ (laneEnded a0 s).bnd = s.bnd ∧ (laneEnded a0 s).mbr = s.mbr ∧ (laneEnded a0 s).flt = s.flt ∧ (laneEnded a0 s).cpx = s.cpx ∧ (laneEnded a0 s).memc = s.memc ∧ (laneEnded a0 s).mov = s.mov ∧ (laneEnded a0 s).out = s.out ∧ (laneEnded a0 s).freeCtr = s.freeCtr := by
  unfold laneEnded
  try dsimp only
  first
    | (simp; done)
    | ((repeat' split) <;> simp; done)
    | (and_intros <;> (repeat' (first | (simp; done) | split)))

@[simp] theorem storeLanes_frame (a0 : Word) (s : State) :
    (storeLanes a0 s).pending = s.pending ∧ (storeLanes a0 s).latch = s.latch ∧ (storeLanes a0 s).mem = s.mem ∧ (storeLanes a0 s).clk = s.clk ∧ (storeLanes a0 s).thm = s.thm ∧ (storeLanes a0 s).tck = s.tck ∧ (storeLanes a0 s).stm = s.stm ∧ (storeLanes a0 s).map = s.map ∧ (storeLanes a0 s).flc = s.flc ∧ (storeLanes a0 s).bnd = s.bnd ∧ (storeLanes a0 s).mbr = s.mbr ∧ (storeLanes a0 s).flt = s.flt ∧ (storeLanes a0 s).cpx = s.cpx ∧ (storeLanes a0 s).memc = s.memc ∧ (storeLanes a0 s).mov = s.mov ∧ (storeLanes a0 s).out = s.out ∧ (storeLanes a0 s).freeCtr = s.freeCtr := by
  unfold storeLanes
  try dsimp only
  first
    | (simp; done)
    | ((repeat' split) <;> simp; done)
    | (and_intros <;> (repeat' (first | (simp; done) | split)))

@[simp] theorem renewKeys_frame (s : State) :
    (renewKeys s).pending = s.pending ∧ (renewKeys s).latch = s.latch ∧ (renewKeys s).mem = s.mem ∧ (renewKeys s).sys = s.sys ∧ (renewKeys s).clk = s.clk ∧ (renewKeys s).thm = s.thm ∧ (renewKeys s).tck = s.tck ∧ (renewKeys s).hif = s.hif ∧ (renewKeys s).stm = s.stm ∧ (renewKeys s).flc = s.flc ∧ (renewKeys s).bnd = s.bnd ∧ (renewKeys s).mbr = s.mbr ∧ (renewKeys s).cpx = s.cpx ∧ (renewKeys s).memc = s.memc ∧ (renewKeys s).mov = s.mov ∧ (renewKeys s).lnt = s.lnt ∧ (renewKeys s).out = s.out ∧ (renewKeys s).freeCtr = s.freeCtr := by
  unfold renewKeys
  try dsimp only
  first
    | (simp; done)
    | ((repeat' split) <;> simp; done)
    | (and_intros <;> (repeat' (first | (simp; done) | split)))

theorem emptyMap_pending (s : State) : (emptyMap s).pending = s.pending := by
  unfold emptyMap
  try dsimp only
  first
    | (simp; done)
    | ((repeat' split) <;> simp; done)
    | (repeat' (first | (simp; done) | split))

theorem emptyMap_regs (s : State) : (emptyMap s).regs = s.regs := by
  unfold emptyMap
  try dsimp only
  first
    | (simp; done)
    | ((repeat' split) <;> simp; done)
    | (repeat' (first | (simp; done) | split))

theorem emptyMap_latch (s : State) : (emptyMap s).latch = s.latch := by
  unfold emptyMap
  try dsimp only
  first
    | (simp; done)
    | ((repeat' split) <;> simp; done)
    | (repeat' (first | (simp; done) | split))

theorem emptyMap_sys (s : State) : (emptyMap s).sys = s.sys := by
  unfold emptyMap
  try dsimp only
  first
    | (simp; done)
    | ((repeat' split) <;> simp; done)
    | (repeat' (first | (simp; done) | split))

theorem emptyMap_clk (s : State) : (emptyMap s).clk = s.clk := by
  unfold emptyMap
  try dsimp only
  first
    | (simp; done)
    | ((repeat' split) <;> simp; done)
    | (repeat' (first | (simp; done) | split))

theorem emptyMap_thm (s : State) : (emptyMap s).thm = s.thm := by
  unfold emptyMap
  try dsimp only
  first
    | (simp; done)
    | ((repeat' split) <;> simp; done)
    | (repeat' (first | (simp; done) | split))

theorem emptyMap_hif (s : State) : (emptyMap s).hif = s.hif := by
  unfold emptyMap
  try dsimp only
  first
    | (simp; done)
    | ((repeat' split) <;> simp; done)
    | (repeat' (first | (simp; done) | split))

theorem emptyMap_stm (s : State) : (emptyMap s).stm = s.stm := by
  unfold emptyMap
  try dsimp only
  first
    | (simp; done)
    | ((repeat' split) <;> simp; done)
    | (repeat' (first | (simp; done) | split))

theorem emptyMap_flc (s : State) : (emptyMap s).flc = s.flc := by
  unfold emptyMap
  try dsimp only
  first
    | (simp; done)
    | ((repeat' split) <;> simp; done)
    | (repeat' (first | (simp; done) | split))

theorem emptyMap_mbr (s : State) : (emptyMap s).mbr = s.mbr := by
  unfold emptyMap
  try dsimp only
  first
    | (simp; done)
    | ((repeat' split) <;> simp; done)
    | (repeat' (first | (simp; done) | split))

theorem emptyMap_flt (s : State) : (emptyMap s).flt = s.flt := by
  unfold emptyMap
  try dsimp only
  first
    | (simp; done)
    | ((repeat' split) <;> simp; done)
    | (repeat' (first | (simp; done) | split))

theorem emptyMap_sec (s : State) : (emptyMap s).sec = s.sec := by
  unfold emptyMap
  try dsimp only
  first
    | (simp; done)
    | ((repeat' split) <;> simp; done)
    | (repeat' (first | (simp; done) | split))

theorem emptyMap_cpx (s : State) : (emptyMap s).cpx = s.cpx := by
  unfold emptyMap
  try dsimp only
  first
    | (simp; done)
    | ((repeat' split) <;> simp; done)
    | (repeat' (first | (simp; done) | split))

theorem emptyMap_memc (s : State) : (emptyMap s).memc = s.memc := by
  unfold emptyMap
  try dsimp only
  first
    | (simp; done)
    | ((repeat' split) <;> simp; done)
    | (repeat' (first | (simp; done) | split))

theorem emptyMap_mov (s : State) : (emptyMap s).mov = s.mov := by
  unfold emptyMap
  try dsimp only
  first
    | (simp; done)
    | ((repeat' split) <;> simp; done)
    | (repeat' (first | (simp; done) | split))

theorem emptyMap_cst (s : State) : (emptyMap s).cst = s.cst := by
  unfold emptyMap
  try dsimp only
  first
    | (simp; done)
    | ((repeat' split) <;> simp; done)
    | (repeat' (first | (simp; done) | split))

theorem emptyMap_lnt (s : State) : (emptyMap s).lnt = s.lnt := by
  unfold emptyMap
  try dsimp only
  first
    | (simp; done)
    | ((repeat' split) <;> simp; done)
    | (repeat' (first | (simp; done) | split))

theorem emptyMap_out (s : State) : (emptyMap s).out = s.out := by
  unfold emptyMap
  try dsimp only
  first
    | (simp; done)
    | ((repeat' split) <;> simp; done)
    | (repeat' (first | (simp; done) | split))

theorem emptyMap_freeCtr (s : State) : (emptyMap s).freeCtr = s.freeCtr := by
  unfold emptyMap
  try dsimp only
  first
    | (simp; done)
    | ((repeat' split) <;> simp; done)
    | (repeat' (first | (simp; done) | split))

@[simp] theorem emptyMap_frame (s : State) :
    (emptyMap s).pending = s.pending ∧ (emptyMap s).regs = s.regs ∧ (emptyMap s).latch = s.latch ∧ (emptyMap s).sys = s.sys ∧ (emptyMap s).clk = s.clk ∧ (emptyMap s).thm = s.thm ∧ (emptyMap s).hif = s.hif ∧ (emptyMap s).stm = s.stm ∧ (emptyMap s).flc = s.flc ∧ (emptyMap s).mbr = s.mbr ∧ (emptyMap s).flt = s.flt ∧ (emptyMap s).sec = s.sec ∧ (emptyMap s).cpx = s.cpx ∧ (emptyMap s).memc = s.memc ∧ (emptyMap s).mov = s.mov ∧ (emptyMap s).cst = s.cst ∧ (emptyMap s).lnt = s.lnt ∧ (emptyMap s).out = s.out ∧ (emptyMap s).freeCtr = s.freeCtr :=
  ⟨emptyMap_pending s, emptyMap_regs s, emptyMap_latch s, emptyMap_sys s, emptyMap_clk s, emptyMap_thm s, emptyMap_hif s, emptyMap_stm s, emptyMap_flc s, emptyMap_mbr s, emptyMap_flt s, emptyMap_sec s, emptyMap_cpx s, emptyMap_memc s, emptyMap_mov s, emptyMap_cst s, emptyMap_lnt s, emptyMap_out s, emptyMap_freeCtr s⟩

@[simp] theorem unlockFail_frame (s : State) :
    (unlockFail s).pending = s.pending ∧ (unlockFail s).latch = s.latch ∧ (unlockFail s).mem = s.mem ∧ (unlockFail s).clk = s.clk ∧ (unlockFail s).thm = s.thm ∧ (unlockFail s).tck = s.tck ∧ (unlockFail s).hif = s.hif ∧ (unlockFail s).stm = s.stm ∧ (unlockFail s).map = s.map ∧ (unlockFail s).flc = s.flc ∧ (unlockFail s).bnd = s.bnd ∧ (unlockFail s).mbr = s.mbr ∧ (unlockFail s).flt = s.flt ∧ (unlockFail s).cpx = s.cpx ∧ (unlockFail s).memc = s.memc ∧ (unlockFail s).mov = s.mov ∧ (unlockFail s).cst = s.cst ∧ (unlockFail s).out = s.out ∧ (unlockFail s).freeCtr = s.freeCtr := by
  unfold unlockFail
  try dsimp only
  first
    | (simp; done)
    | ((repeat' split) <;> simp; done)
    | (and_intros <;> (repeat' (first | (simp; done) | split)))

theorem vendorErase_pending (s : State) : (vendorErase s).pending = s.pending := by
  unfold vendorErase
  try dsimp only
  first
    | (simp; done)
    | ((repeat' split) <;> simp; done)
    | (repeat' (first | (simp; done) | split))

theorem vendorErase_latch (s : State) : (vendorErase s).latch = s.latch := by
  unfold vendorErase
  try dsimp only
  first
    | (simp; done)
    | ((repeat' split) <;> simp; done)
    | (repeat' (first | (simp; done) | split))

theorem vendorErase_sys (s : State) : (vendorErase s).sys = s.sys := by
  unfold vendorErase
  try dsimp only
  first
    | (simp; done)
    | ((repeat' split) <;> simp; done)
    | (repeat' (first | (simp; done) | split))

theorem vendorErase_clk (s : State) : (vendorErase s).clk = s.clk := by
  unfold vendorErase
  try dsimp only
  first
    | (simp; done)
    | ((repeat' split) <;> simp; done)
    | (repeat' (first | (simp; done) | split))

theorem vendorErase_thm (s : State) : (vendorErase s).thm = s.thm := by
  unfold vendorErase
  try dsimp only
  first
    | (simp; done)
    | ((repeat' split) <;> simp; done)
    | (repeat' (first | (simp; done) | split))

theorem vendorErase_hif (s : State) : (vendorErase s).hif = s.hif := by
  unfold vendorErase
  try dsimp only
  first
    | (simp; done)
    | ((repeat' split) <;> simp; done)
    | (repeat' (first | (simp; done) | split))

theorem vendorErase_stm (s : State) : (vendorErase s).stm = s.stm := by
  unfold vendorErase
  try dsimp only
  first
    | (simp; done)
    | ((repeat' split) <;> simp; done)
    | (repeat' (first | (simp; done) | split))

theorem vendorErase_flc (s : State) : (vendorErase s).flc = s.flc := by
  unfold vendorErase
  try dsimp only
  first
    | (simp; done)
    | ((repeat' split) <;> simp; done)
    | (repeat' (first | (simp; done) | split))

theorem vendorErase_mbr (s : State) : (vendorErase s).mbr = s.mbr := by
  unfold vendorErase
  try dsimp only
  first
    | (simp; done)
    | ((repeat' split) <;> simp; done)
    | (repeat' (first | (simp; done) | split))

theorem vendorErase_cpx (s : State) : (vendorErase s).cpx = s.cpx := by
  unfold vendorErase
  try dsimp only
  first
    | (simp; done)
    | ((repeat' split) <;> simp; done)
    | (repeat' (first | (simp; done) | split))

theorem vendorErase_memc (s : State) : (vendorErase s).memc = s.memc := by
  unfold vendorErase
  try dsimp only
  first
    | (simp; done)
    | ((repeat' split) <;> simp; done)
    | (repeat' (first | (simp; done) | split))

theorem vendorErase_mov (s : State) : (vendorErase s).mov = s.mov := by
  unfold vendorErase
  try dsimp only
  first
    | (simp; done)
    | ((repeat' split) <;> simp; done)
    | (repeat' (first | (simp; done) | split))

theorem vendorErase_lnt (s : State) : (vendorErase s).lnt = s.lnt := by
  unfold vendorErase
  try dsimp only
  first
    | (simp; done)
    | ((repeat' split) <;> simp; done)
    | (repeat' (first | (simp; done) | split))

theorem vendorErase_out (s : State) : (vendorErase s).out = s.out := by
  unfold vendorErase
  try dsimp only
  first
    | (simp; done)
    | ((repeat' split) <;> simp; done)
    | (repeat' (first | (simp; done) | split))

theorem vendorErase_freeCtr (s : State) : (vendorErase s).freeCtr = s.freeCtr := by
  unfold vendorErase
  try dsimp only
  first
    | (simp; done)
    | ((repeat' split) <;> simp; done)
    | (repeat' (first | (simp; done) | split))

@[simp] theorem vendorErase_frame (s : State) :
    (vendorErase s).pending = s.pending ∧ (vendorErase s).latch = s.latch ∧ (vendorErase s).sys = s.sys ∧ (vendorErase s).clk = s.clk ∧ (vendorErase s).thm = s.thm ∧ (vendorErase s).hif = s.hif ∧ (vendorErase s).stm = s.stm ∧ (vendorErase s).flc = s.flc ∧ (vendorErase s).mbr = s.mbr ∧ (vendorErase s).cpx = s.cpx ∧ (vendorErase s).memc = s.memc ∧ (vendorErase s).mov = s.mov ∧ (vendorErase s).lnt = s.lnt ∧ (vendorErase s).out = s.out ∧ (vendorErase s).freeCtr = s.freeCtr :=
  ⟨vendorErase_pending s, vendorErase_latch s, vendorErase_sys s, vendorErase_clk s, vendorErase_thm s, vendorErase_hif s, vendorErase_stm s, vendorErase_flc s, vendorErase_mbr s, vendorErase_cpx s, vendorErase_memc s, vendorErase_mov s, vendorErase_lnt s, vendorErase_out s, vendorErase_freeCtr s⟩

theorem sanitizeStart_pending (a0 : ℕ) (a1 : ℕ) (s : State) : (sanitizeStart a0 a1 s).pending = s.pending := by
  unfold sanitizeStart
  refine adminCmd_pending _ _ _ _ (fun t => ?_)
  repeat' (first | (simp; done) | split)

theorem sanitizeStart_latch (a0 : ℕ) (a1 : ℕ) (s : State) : (sanitizeStart a0 a1 s).latch = s.latch := by
  unfold sanitizeStart
  refine adminCmd_latch _ _ _ _ (fun t => ?_)
  repeat' (first | (simp; done) | split)

theorem sanitizeStart_mem (a0 : ℕ) (a1 : ℕ) (s : State) : (sanitizeStart a0 a1 s).mem = s.mem := by
  unfold sanitizeStart
  refine adminCmd_mem _ _ _ _ (fun t => ?_)
  repeat' (first | (simp; done) | split)

theorem sanitizeStart_clk (a0 : ℕ) (a1 : ℕ) (s : State) : (sanitizeStart a0 a1 s).clk = s.clk := by
  unfold sanitizeStart
  refine adminCmd_clk _ _ _ _ (fun t => ?_)
  repeat' (first | (simp; done) | split)

theorem sanitizeStart_thm (a0 : ℕ) (a1 : ℕ) (s : State) : (sanitizeStart a0 a1 s).thm = s.thm := by
  unfold sanitizeStart
  refine adminCmd_thm _ _ _ _ (fun t => ?_)
  repeat' (first | (simp; done) | split)

theorem sanitizeStart_mbr (a0 : ℕ) (a1 : ℕ) (s : State) : (sanitizeStart a0 a1 s).mbr = s.mbr := by
  unfold sanitizeStart
  refine adminCmd_mbr _ _ _ _ (fun t => ?_)
  repeat' (first | (simp; done) | split)

theorem sanitizeStart_flt (a0 : ℕ) (a1 : ℕ) (s : State) : (sanitizeStart a0 a1 s).flt = s.flt := by
  unfold sanitizeStart
  refine adminCmd_flt _ _ _ _ (fun t => ?_)
  repeat' (first | (simp; done) | split)

theorem sanitizeStart_cpx (a0 : ℕ) (a1 : ℕ) (s : State) : (sanitizeStart a0 a1 s).cpx = s.cpx := by
  unfold sanitizeStart
  refine adminCmd_cpx _ _ _ _ (fun t => ?_)
  repeat' (first | (simp; done) | split)

theorem sanitizeStart_memc (a0 : ℕ) (a1 : ℕ) (s : State) : (sanitizeStart a0 a1 s).memc = s.memc := by
  unfold sanitizeStart
  refine adminCmd_memc _ _ _ _ (fun t => ?_)
  repeat' (first | (simp; done) | split)

theorem sanitizeStart_mov (a0 : ℕ) (a1 : ℕ) (s : State) : (sanitizeStart a0 a1 s).mov = s.mov := by
  unfold sanitizeStart
  refine adminCmd_mov _ _ _ _ (fun t => ?_)
  repeat' (first | (simp; done) | split)

theorem sanitizeStart_freeCtr (a0 : ℕ) (a1 : ℕ) (s : State) : (sanitizeStart a0 a1 s).freeCtr = s.freeCtr := by
  unfold sanitizeStart
  refine adminCmd_freeCtr _ _ _ _ (fun t => ?_)
  repeat' (first | (simp; done) | split)

@[simp] theorem sanitizeStart_frame (a0 : ℕ) (a1 : ℕ) (s : State) :
    (sanitizeStart a0 a1 s).pending = s.pending ∧ (sanitizeStart a0 a1 s).latch = s.latch ∧ (sanitizeStart a0 a1 s).mem = s.mem ∧ (sanitizeStart a0 a1 s).clk = s.clk ∧ (sanitizeStart a0 a1 s).thm = s.thm ∧ (sanitizeStart a0 a1 s).mbr = s.mbr ∧ (sanitizeStart a0 a1 s).flt = s.flt ∧ (sanitizeStart a0 a1 s).cpx = s.cpx ∧ (sanitizeStart a0 a1 s).memc = s.memc ∧ (sanitizeStart a0 a1 s).mov = s.mov ∧ (sanitizeStart a0 a1 s).freeCtr = s.freeCtr :=
  ⟨sanitizeStart_pending a0 a1 s, sanitizeStart_latch a0 a1 s, sanitizeStart_mem a0 a1 s, sanitizeStart_clk a0 a1 s, sanitizeStart_thm a0 a1 s, sanitizeStart_mbr a0 a1 s, sanitizeStart_flt a0 a1 s, sanitizeStart_cpx a0 a1 s, sanitizeStart_memc a0 a1 s, sanitizeStart_mov a0 a1 s, sanitizeStart_freeCtr a0 a1 s⟩

theorem sanitizeProgress_pending (s : State) : (sanitizeProgress s).pending = s.pending := by
  unfold sanitizeProgress
  try dsimp only
  first
    | (simp; done)
    | ((repeat' split) <;> simp; done)
    | (repeat' (first | (simp; done) | split))

theorem sanitizeProgress_latch (s : State) : (sanitizeProgress s).latch = s.latch := by
  unfold sanitizeProgress
  try dsimp only
  first
    | (simp; done)
    | ((repeat' split) <;> simp; done)
    | (repeat' (first | (simp; done) | split))

theorem sanitizeProgress_sys (s : State) : (sanitizeProgress s).sys = s.sys := by
  unfold sanitizeProgress
  try dsimp only
  first
    | (simp; done)
    | ((repeat' split) <;> simp; done)
    | (repeat' (first | (simp; done) | split))

theorem sanitizeProgress_clk (s : State) : (sanitizeProgress s).clk = s.clk := by
  unfold sanitizeProgress
  try dsimp only
  first
    | (simp; done)
    | ((repeat' split) <;> simp; done)
    | (repeat' (first | (simp; done) | split))

theorem sanitizeProgress_thm (s : State) : (sanitizeProgress s).thm = s.thm := by
  unfold sanitizeProgress
  try dsimp only
  first
    | (simp; done)
    | ((repeat' split) <;> simp; done)
    | (repeat' (first | (simp; done) | split))

theorem sanitizeProgress_hif (s : State) : (sanitizeProgress s).hif = s.hif := by
  unfold sanitizeProgress
  try dsimp only
  first
    | (simp; done)
    | ((repeat' split) <;> simp; done)
    | (repeat' (first | (simp; done) | split))

theorem sanitizeProgress_stm (s : State) : (sanitizeProgress s).stm = s.stm := by
  unfold sanitizeProgress
  try dsimp only
  first
    | (simp; done)
    | ((repeat' split) <;> simp; done)
    | (repeat' (first | (simp; done) | split))

theorem sanitizeProgress_flc (s : State) : (sanitizeProgress s).flc = s.flc := by
  unfold sanitizeProgress
  try dsimp only
  first
    | (simp; done)
    | ((repeat' split) <;> simp; done)
    | (repeat' (first | (simp; done) | split))

theorem sanitizeProgress_mbr (s : State) : (sanitizeProgress s).mbr = s.mbr := by
  unfold sanitizeProgress
  try dsimp only
  first
    | (simp; done)
    | ((repeat' split) <;> simp; done)
    | (repeat' (first | (simp; done) | split))

theorem sanitizeProgress_cpx (s : State) : (sanitizeProgress s).cpx = s.cpx := by
  unfold sanitizeProgress
  try dsimp only
  first
    | (simp; done)
    | ((repeat' split) <;> simp; done)
    | (repeat' (first | (simp; done) | split))

theorem sanitizeProgress_memc (s : State) : (sanitizeProgress s).memc = s.memc := by
  unfold sanitizeProgress
  try dsimp only
  first
    | (simp; done)
    | ((repeat' split) <;> simp; done)
    | (repeat' (first | (simp; done) | split))

theorem sanitizeProgress_mov (s : State) : (sanitizeProgress s).mov = s.mov := by
  unfold sanitizeProgress
  try dsimp only
  first
    | (simp; done)
    | ((repeat' split) <;> simp; done)
    | (repeat' (first | (simp; done) | split))

theorem sanitizeProgress_lnt (s : State) : (sanitizeProgress s).lnt = s.lnt := by
  unfold sanitizeProgress
  try dsimp only
  first
    | (simp; done)
    | ((repeat' split) <;> simp; done)
    | (repeat' (first | (simp; done) | split))

theorem sanitizeProgress_out (s : State) : (sanitizeProgress s).out = s.out := by
  unfold sanitizeProgress
  try dsimp only
  first
    | (simp; done)
    | ((repeat' split) <;> simp; done)
    | (repeat' (first | (simp; done) | split))

theorem sanitizeProgress_freeCtr (s : State) : (sanitizeProgress s).freeCtr = s.freeCtr := by
  unfold sanitizeProgress
  try dsimp only
  first
    | (simp; done)
    | ((repeat' split) <;> simp; done)
    | (repeat' (first | (simp; done) | split))

@[simp] theorem sanitizeProgress_frame (s : State) :
    (sanitizeProgress s).pending = s.pending ∧ (sanitizeProgress s).latch = s.latch ∧ (sanitizeProgress s).sys = s.sys ∧ (sanitizeProgress s).clk = s.clk ∧ (sanitizeProgress s).thm = s.thm ∧ (sanitizeProgress s).hif = s.hif ∧ (sanitizeProgress s).stm = s.stm ∧ (sanitizeProgress s).flc = s.flc ∧ (sanitizeProgress s).mbr = s.mbr ∧ (sanitizeProgress s).cpx = s.cpx ∧ (sanitizeProgress s).memc = s.memc ∧ (sanitizeProgress s).mov = s.mov ∧ (sanitizeProgress s).lnt = s.lnt ∧ (sanitizeProgress s).out = s.out ∧ (sanitizeProgress s).freeCtr = s.freeCtr :=
  ⟨sanitizeProgress_pending s, sanitizeProgress_latch s, sanitizeProgress_sys s, sanitizeProgress_clk s, sanitizeProgress_thm s, sanitizeProgress_hif s, sanitizeProgress_stm s, sanitizeProgress_flc s, sanitizeProgress_mbr s, sanitizeProgress_cpx s, sanitizeProgress_memc s, sanitizeProgress_mov s, sanitizeProgress_lnt s, sanitizeProgress_out s, sanitizeProgress_freeCtr s⟩

@[simp] theorem eraseUserBands_frame (s : State) :
    (eraseUserBands s).pending = s.pending ∧ (eraseUserBands s).regs = s.regs ∧ (eraseUserBands s).latch = s.latch ∧ (eraseUserBands s).mem = s.mem ∧ (eraseUserBands s).sys = s.sys ∧ (eraseUserBands s).clk = s.clk ∧ (eraseUserBands s).thm = s.thm ∧ (eraseUserBands s).hif = s.hif ∧ (eraseUserBands s).stm = s.stm ∧ (eraseUserBands s).flt = s.flt ∧ (eraseUserBands s).sec = s.sec ∧ (eraseUserBands s).cpx = s.cpx ∧ (eraseUserBands s).memc = s.memc ∧ (eraseUserBands s).mov = s.mov ∧ (eraseUserBands s).cst = s.cst ∧ (eraseUserBands s).lnt = s.lnt ∧ (eraseUserBands s).out = s.out ∧ (eraseUserBands s).freeCtr = s.freeCtr := by
  unfold eraseUserBands
  try dsimp only
  first
    | (simp; done)
    | ((repeat' split) <;> simp; done)
    | (and_intros <;> (repeat' (first | (simp; done) | split)))

@[simp] theorem spdmTake_frame (a0 : SpdmReq) (s : State) :
    (spdmTake a0 s).pending = s.pending ∧ (spdmTake a0 s).regs = s.regs ∧ (spdmTake a0 s).latch = s.latch ∧ (spdmTake a0 s).mem = s.mem ∧ (spdmTake a0 s).sys = s.sys ∧ (spdmTake a0 s).clk = s.clk ∧ (spdmTake a0 s).thm = s.thm ∧ (spdmTake a0 s).tck = s.tck ∧ (spdmTake a0 s).hif = s.hif ∧ (spdmTake a0 s).stm = s.stm ∧ (spdmTake a0 s).map = s.map ∧ (spdmTake a0 s).flc = s.flc ∧ (spdmTake a0 s).bnd = s.bnd ∧ (spdmTake a0 s).mbr = s.mbr ∧ (spdmTake a0 s).flt = s.flt ∧ (spdmTake a0 s).cpx = s.cpx ∧ (spdmTake a0 s).memc = s.memc ∧ (spdmTake a0 s).mov = s.mov ∧ (spdmTake a0 s).cst = s.cst ∧ (spdmTake a0 s).lnt = s.lnt ∧ (spdmTake a0 s).out = s.out ∧ (spdmTake a0 s).freeCtr = s.freeCtr := by
  unfold spdmTake
  try dsimp only
  first
    | (simp; done)
    | ((repeat' split) <;> simp; done)
    | (and_intros <;> (repeat' (first | (simp; done) | split)))

@[simp] theorem spdmGive_frame (a0 : ℕ) (a1 : List Byte) (s : State) :
    (spdmGive a0 a1 s).pending = s.pending ∧ (spdmGive a0 a1 s).regs = s.regs ∧ (spdmGive a0 a1 s).latch = s.latch ∧ (spdmGive a0 a1 s).mem = s.mem ∧ (spdmGive a0 a1 s).sys = s.sys ∧ (spdmGive a0 a1 s).clk = s.clk ∧ (spdmGive a0 a1 s).thm = s.thm ∧ (spdmGive a0 a1 s).tck = s.tck ∧ (spdmGive a0 a1 s).stm = s.stm ∧ (spdmGive a0 a1 s).map = s.map ∧ (spdmGive a0 a1 s).flc = s.flc ∧ (spdmGive a0 a1 s).bnd = s.bnd ∧ (spdmGive a0 a1 s).mbr = s.mbr ∧ (spdmGive a0 a1 s).flt = s.flt ∧ (spdmGive a0 a1 s).cpx = s.cpx ∧ (spdmGive a0 a1 s).memc = s.memc ∧ (spdmGive a0 a1 s).mov = s.mov ∧ (spdmGive a0 a1 s).cst = s.cst ∧ (spdmGive a0 a1 s).freeCtr = s.freeCtr := by
  unfold spdmGive
  try dsimp only
  first
    | (simp; done)
    | ((repeat' split) <;> simp; done)
    | (and_intros <;> (repeat' (first | (simp; done) | split)))

end Sys2Proof.Machine
end

