-- ==== Sys2Proof/Laws/FramesFleet.lean ====
section
/-! SUPPORT. Frames of the shared operations: which parts of the state each one leaves as they are (fleet messages, the Mover, time, temperature, firmware and the tick). -/

namespace Sys2Proof.Machine

set_option linter.unusedTactic false
set_option linter.unreachableTactic false
set_option linter.unusedSimpArgs false

/-! ### Fleet -/

@[simp] theorem ackIntent_frame (a0 : Journal) (s : State) :
    (ackIntent a0 s).pending = s.pending ∧ (ackIntent a0 s).latch = s.latch ∧ (ackIntent a0 s).mem = s.mem ∧ (ackIntent a0 s).sys = s.sys ∧ (ackIntent a0 s).clk = s.clk ∧ (ackIntent a0 s).thm = s.thm ∧ (ackIntent a0 s).tck = s.tck ∧ (ackIntent a0 s).hif = s.hif ∧ (ackIntent a0 s).stm = s.stm ∧ (ackIntent a0 s).map = s.map ∧ (ackIntent a0 s).flc = s.flc ∧ (ackIntent a0 s).bnd = s.bnd ∧ (ackIntent a0 s).mbr = s.mbr ∧ (ackIntent a0 s).sec = s.sec ∧ (ackIntent a0 s).cpx = s.cpx ∧ (ackIntent a0 s).memc = s.memc ∧ (ackIntent a0 s).mov = s.mov ∧ (ackIntent a0 s).cst = s.cst ∧ (ackIntent a0 s).lnt = s.lnt ∧ (ackIntent a0 s).freeCtr = s.freeCtr := by
  unfold ackIntent
  try dsimp only
  first
    | (simp; done)
    | ((repeat' split) <;> simp; done)
    | (and_intros <;> (repeat' (first | (simp; done) | split)))

@[simp] theorem ackReady_frame (s : State) :
    (ackReady s).pending = s.pending ∧ (ackReady s).latch = s.latch ∧ (ackReady s).mem = s.mem ∧ (ackReady s).sys = s.sys ∧ (ackReady s).clk = s.clk ∧ (ackReady s).thm = s.thm ∧ (ackReady s).tck = s.tck ∧ (ackReady s).hif = s.hif ∧ (ackReady s).stm = s.stm ∧ (ackReady s).map = s.map ∧ (ackReady s).flc = s.flc ∧ (ackReady s).bnd = s.bnd ∧ (ackReady s).mbr = s.mbr ∧ (ackReady s).sec = s.sec ∧ (ackReady s).cpx = s.cpx ∧ (ackReady s).memc = s.memc ∧ (ackReady s).mov = s.mov ∧ (ackReady s).cst = s.cst ∧ (ackReady s).lnt = s.lnt ∧ (ackReady s).freeCtr = s.freeCtr := by
  unfold ackReady
  try dsimp only
  first
    | (simp; done)
    | ((repeat' split) <;> simp; done)
    | (and_intros <;> (repeat' (first | (simp; done) | split)))

@[simp] theorem isoCheck_frame (s : State) :
    (isoCheck s).pending = s.pending ∧ (isoCheck s).latch = s.latch ∧ (isoCheck s).mem = s.mem ∧ (isoCheck s).clk = s.clk ∧ (isoCheck s).thm = s.thm ∧ (isoCheck s).tck = s.tck ∧ (isoCheck s).hif = s.hif ∧ (isoCheck s).stm = s.stm ∧ (isoCheck s).map = s.map ∧ (isoCheck s).flc = s.flc ∧ (isoCheck s).bnd = s.bnd ∧ (isoCheck s).mbr = s.mbr ∧ (isoCheck s).sec = s.sec ∧ (isoCheck s).cpx = s.cpx ∧ (isoCheck s).memc = s.memc ∧ (isoCheck s).mov = s.mov ∧ (isoCheck s).cst = s.cst ∧ (isoCheck s).freeCtr = s.freeCtr := by
  unfold isoCheck
  try dsimp only
  first
    | (simp; done)
    | ((repeat' split) <;> simp; done)
    | (and_intros <;> (repeat' (first | (simp; done) | split)))

@[simp] theorem cancelAct_frame (s : State) :
    (cancelAct s).pending = s.pending ∧ (cancelAct s).latch = s.latch ∧ (cancelAct s).mem = s.mem ∧ (cancelAct s).clk = s.clk ∧ (cancelAct s).thm = s.thm ∧ (cancelAct s).hif = s.hif ∧ (cancelAct s).stm = s.stm ∧ (cancelAct s).map = s.map ∧ (cancelAct s).flc = s.flc ∧ (cancelAct s).bnd = s.bnd ∧ (cancelAct s).mbr = s.mbr ∧ (cancelAct s).sec = s.sec ∧ (cancelAct s).cpx = s.cpx ∧ (cancelAct s).memc = s.memc ∧ (cancelAct s).mov = s.mov ∧ (cancelAct s).cst = s.cst ∧ (cancelAct s).out = s.out ∧ (cancelAct s).freeCtr = s.freeCtr := by
  unfold cancelAct
  try dsimp only
  first
    | (simp; done)
    | ((repeat' split) <;> simp; done)
    | (and_intros <;> (repeat' (first | (simp; done) | split)))

@[simp] theorem mirrorEntry_frame (a0 : Journal) (s : State) :
    (mirrorEntry a0 s).pending = s.pending ∧ (mirrorEntry a0 s).regs = s.regs ∧ (mirrorEntry a0 s).latch = s.latch ∧ (mirrorEntry a0 s).mem = s.mem ∧ (mirrorEntry a0 s).sys = s.sys ∧ (mirrorEntry a0 s).clk = s.clk ∧ (mirrorEntry a0 s).thm = s.thm ∧ (mirrorEntry a0 s).tck = s.tck ∧ (mirrorEntry a0 s).hif = s.hif ∧ (mirrorEntry a0 s).stm = s.stm ∧ (mirrorEntry a0 s).map = s.map ∧ (mirrorEntry a0 s).flc = s.flc ∧ (mirrorEntry a0 s).bnd = s.bnd ∧ (mirrorEntry a0 s).mbr = s.mbr ∧ (mirrorEntry a0 s).sec = s.sec ∧ (mirrorEntry a0 s).cpx = s.cpx ∧ (mirrorEntry a0 s).memc = s.memc ∧ (mirrorEntry a0 s).mov = s.mov ∧ (mirrorEntry a0 s).cst = s.cst ∧ (mirrorEntry a0 s).lnt = s.lnt ∧ (mirrorEntry a0 s).freeCtr = s.freeCtr := by
  unfold mirrorEntry
  try dsimp only
  first
    | (simp; done)
    | ((repeat' split) <;> simp; done)
    | (and_intros <;> (repeat' (first | (simp; done) | split)))

theorem peerGone_pending (a0 : ℕ) (a1 : ℕ) (a2 : ℕ → ℕ → ℕ) (s : State) : (peerGone a0 a1 a2 s).pending = s.pending := by
  unfold peerGone
  try dsimp only
  repeat' (first | (simp; done) | (have h := appendRec_frame (by assumption); simp [h]; done) | (have h := takeSlot_frame (by assumption); simp [h]; done) | (have h := placePage_frame (by assumption); simp [h]; done) | (have h := placePart_frame (by assumption); simp [h]; done) | (have h := closeStream_frame (by assumption); simp [h]; done) | split | (refine (forAll_pending _ _ _ (fun x s => ?_)).trans ?_; try dsimp only) | (refine adminCmd_pending _ _ _ _ ?_; try dsimp only) | (refine provision_pending _ _ _ _  ?_; intros; try dsimp only) | simp)

theorem peerGone_latch (a0 : ℕ) (a1 : ℕ) (a2 : ℕ → ℕ → ℕ) (s : State) : (peerGone a0 a1 a2 s).latch = s.latch := by
  unfold peerGone
  try dsimp only
  repeat' (first | (simp; done) | (have h := appendRec_frame (by assumption); simp [h]; done) | (have h := takeSlot_frame (by assumption); simp [h]; done) | (have h := placePage_frame (by assumption); simp [h]; done) | (have h := placePart_frame (by assumption); simp [h]; done) | (have h := closeStream_frame (by assumption); simp [h]; done) | split | (refine (forAll_latch _ _ _ (fun x s => ?_)).trans ?_; try dsimp only) | (refine adminCmd_latch _ _ _ _ ?_; try dsimp only) | (refine provision_latch _ _ _ _  ?_; intros; try dsimp only) | simp)

theorem peerGone_mem (a0 : ℕ) (a1 : ℕ) (a2 : ℕ → ℕ → ℕ) (s : State) : (peerGone a0 a1 a2 s).mem = s.mem := by
  unfold peerGone
  try dsimp only
  repeat' (first | (simp; done) | (have h := appendRec_frame (by assumption); simp [h]; done) | (have h := takeSlot_frame (by assumption); simp [h]; done) | (have h := placePage_frame (by assumption); simp [h]; done) | (have h := placePart_frame (by assumption); simp [h]; done) | (have h := closeStream_frame (by assumption); simp [h]; done) | split | (refine (forAll_mem _ _ _ (fun x s => ?_)).trans ?_; try dsimp only) | (refine adminCmd_mem _ _ _ _ ?_; try dsimp only) | (refine provision_mem _ _ _ _  ?_; intros; try dsimp only) | simp)

theorem peerGone_clk (a0 : ℕ) (a1 : ℕ) (a2 : ℕ → ℕ → ℕ) (s : State) : (peerGone a0 a1 a2 s).clk = s.clk := by
  unfold peerGone
  try dsimp only
  repeat' (first | (simp; done) | (have h := appendRec_frame (by assumption); simp [h]; done) | (have h := takeSlot_frame (by assumption); simp [h]; done) | (have h := placePage_frame (by assumption); simp [h]; done) | (have h := placePart_frame (by assumption); simp [h]; done) | (have h := closeStream_frame (by assumption); simp [h]; done) | split | (refine (forAll_clk _ _ _ (fun x s => ?_)).trans ?_; try dsimp only) | (refine adminCmd_clk _ _ _ _ ?_; try dsimp only) | (refine provision_clk _ _ _ _  ?_; intros; try dsimp only) | simp)

theorem peerGone_thm (a0 : ℕ) (a1 : ℕ) (a2 : ℕ → ℕ → ℕ) (s : State) : (peerGone a0 a1 a2 s).thm = s.thm := by
  unfold peerGone
  try dsimp only
  repeat' (first | (simp; done) | (have h := appendRec_frame (by assumption); simp [h]; done) | (have h := takeSlot_frame (by assumption); simp [h]; done) | (have h := placePage_frame (by assumption); simp [h]; done) | (have h := placePart_frame (by assumption); simp [h]; done) | (have h := closeStream_frame (by assumption); simp [h]; done) | split | (refine (forAll_thm _ _ _ (fun x s => ?_)).trans ?_; try dsimp only) | (refine adminCmd_thm _ _ _ _ ?_; try dsimp only) | (refine provision_thm _ _ _ _  ?_; intros; try dsimp only) | simp)

theorem peerGone_stm (a0 : ℕ) (a1 : ℕ) (a2 : ℕ → ℕ → ℕ) (s : State) : (peerGone a0 a1 a2 s).stm = s.stm := by
  unfold peerGone
  try dsimp only
  repeat' (first | (simp; done) | (have h := appendRec_frame (by assumption); simp [h]; done) | (have h := takeSlot_frame (by assumption); simp [h]; done) | (have h := placePage_frame (by assumption); simp [h]; done) | (have h := placePart_frame (by assumption); simp [h]; done) | (have h := closeStream_frame (by assumption); simp [h]; done) | split | (refine (forAll_stm _ _ _ (fun x s => ?_)).trans ?_; try dsimp only) | (refine adminCmd_stm _ _ _ _ ?_; try dsimp only) | (refine provision_stm _ _ _ _  ?_; intros; try dsimp only) | simp)

theorem peerGone_flc (a0 : ℕ) (a1 : ℕ) (a2 : ℕ → ℕ → ℕ) (s : State) : (peerGone a0 a1 a2 s).flc = s.flc := by
  unfold peerGone
  try dsimp only
  repeat' (first | (simp; done) | (have h := appendRec_frame (by assumption); simp [h]; done) | (have h := takeSlot_frame (by assumption); simp [h]; done) | (have h := placePage_frame (by assumption); simp [h]; done) | (have h := placePart_frame (by assumption); simp [h]; done) | (have h := closeStream_frame (by assumption); simp [h]; done) | split | (refine (forAll_flc _ _ _ (fun x s => ?_)).trans ?_; try dsimp only) | (refine adminCmd_flc _ _ _ _ ?_; try dsimp only) | (refine provision_flc _ _ _ _  ?_; intros; try dsimp only) | simp)

theorem peerGone_mbr (a0 : ℕ) (a1 : ℕ) (a2 : ℕ → ℕ → ℕ) (s : State) : (peerGone a0 a1 a2 s).mbr = s.mbr := by
  unfold peerGone
  try dsimp only
  repeat' (first | (simp; done) | (have h := appendRec_frame (by assumption); simp [h]; done) | (have h := takeSlot_frame (by assumption); simp [h]; done) | (have h := placePage_frame (by assumption); simp [h]; done) | (have h := placePart_frame (by assumption); simp [h]; done) | (have h := closeStream_frame (by assumption); simp [h]; done) | split | (refine (forAll_mbr _ _ _ (fun x s => ?_)).trans ?_; try dsimp only) | (refine adminCmd_mbr _ _ _ _ ?_; try dsimp only) | (refine provision_mbr _ _ _ _  ?_; intros; try dsimp only) | simp)

theorem peerGone_sec (a0 : ℕ) (a1 : ℕ) (a2 : ℕ → ℕ → ℕ) (s : State) : (peerGone a0 a1 a2 s).sec = s.sec := by
  unfold peerGone
  try dsimp only
  repeat' (first | (simp; done) | (have h := appendRec_frame (by assumption); simp [h]; done) | (have h := takeSlot_frame (by assumption); simp [h]; done) | (have h := placePage_frame (by assumption); simp [h]; done) | (have h := placePart_frame (by assumption); simp [h]; done) | (have h := closeStream_frame (by assumption); simp [h]; done) | split | (refine (forAll_sec _ _ _ (fun x s => ?_)).trans ?_; try dsimp only) | (refine adminCmd_sec _ _ _ _ ?_; try dsimp only) | simp)

theorem peerGone_cpx (a0 : ℕ) (a1 : ℕ) (a2 : ℕ → ℕ → ℕ) (s : State) : (peerGone a0 a1 a2 s).cpx = s.cpx := by
  unfold peerGone
  try dsimp only
  repeat' (first | (simp; done) | (have h := appendRec_frame (by assumption); simp [h]; done) | (have h := takeSlot_frame (by assumption); simp [h]; done) | (have h := placePage_frame (by assumption); simp [h]; done) | (have h := placePart_frame (by assumption); simp [h]; done) | (have h := closeStream_frame (by assumption); simp [h]; done) | split | (refine (forAll_cpx _ _ _ (fun x s => ?_)).trans ?_; try dsimp only) | (refine adminCmd_cpx _ _ _ _ ?_; try dsimp only) | (refine provision_cpx _ _ _ _  ?_; intros; try dsimp only) | simp)

theorem peerGone_memc (a0 : ℕ) (a1 : ℕ) (a2 : ℕ → ℕ → ℕ) (s : State) : (peerGone a0 a1 a2 s).memc = s.memc := by
  unfold peerGone
  try dsimp only
  repeat' (first | (simp; done) | (have h := appendRec_frame (by assumption); simp [h]; done) | (have h := takeSlot_frame (by assumption); simp [h]; done) | (have h := placePage_frame (by assumption); simp [h]; done) | (have h := placePart_frame (by assumption); simp [h]; done) | (have h := closeStream_frame (by assumption); simp [h]; done) | split | (refine (forAll_memc _ _ _ (fun x s => ?_)).trans ?_; try dsimp only) | (refine adminCmd_memc _ _ _ _ ?_; try dsimp only) | (refine provision_memc _ _ _ _  ?_; intros; try dsimp only) | simp)

theorem peerGone_mov (a0 : ℕ) (a1 : ℕ) (a2 : ℕ → ℕ → ℕ) (s : State) : (peerGone a0 a1 a2 s).mov = s.mov := by
  unfold peerGone
  try dsimp only
  repeat' (first | (simp; done) | (have h := appendRec_frame (by assumption); simp [h]; done) | (have h := takeSlot_frame (by assumption); simp [h]; done) | (have h := placePage_frame (by assumption); simp [h]; done) | (have h := placePart_frame (by assumption); simp [h]; done) | (have h := closeStream_frame (by assumption); simp [h]; done) | split | (refine (forAll_mov _ _ _ (fun x s => ?_)).trans ?_; try dsimp only) | (refine adminCmd_mov _ _ _ _ ?_; try dsimp only) | (refine provision_mov _ _ _ _  ?_; intros; try dsimp only) | simp)

theorem peerGone_cst (a0 : ℕ) (a1 : ℕ) (a2 : ℕ → ℕ → ℕ) (s : State) : (peerGone a0 a1 a2 s).cst = s.cst := by
  unfold peerGone
  try dsimp only
  repeat' (first | (simp; done) | (have h := appendRec_frame (by assumption); simp [h]; done) | (have h := takeSlot_frame (by assumption); simp [h]; done) | (have h := placePage_frame (by assumption); simp [h]; done) | (have h := placePart_frame (by assumption); simp [h]; done) | (have h := closeStream_frame (by assumption); simp [h]; done) | split | (refine (forAll_cst _ _ _ (fun x s => ?_)).trans ?_; try dsimp only) | (refine adminCmd_cst _ _ _ _ ?_; try dsimp only) | (refine provision_cst _ _ _ _  ?_; intros; try dsimp only) | simp)

theorem peerGone_freeCtr (a0 : ℕ) (a1 : ℕ) (a2 : ℕ → ℕ → ℕ) (s : State) : (peerGone a0 a1 a2 s).freeCtr = s.freeCtr := by
  unfold peerGone
  try dsimp only
  repeat' (first | (simp; done) | (have h := appendRec_frame (by assumption); simp [h]; done) | (have h := takeSlot_frame (by assumption); simp [h]; done) | (have h := placePage_frame (by assumption); simp [h]; done) | (have h := placePart_frame (by assumption); simp [h]; done) | (have h := closeStream_frame (by assumption); simp [h]; done) | split | (refine (forAll_freeCtr _ _ _ (fun x s => ?_)).trans ?_; try dsimp only) | (refine adminCmd_freeCtr _ _ _ _ ?_; try dsimp only) | (refine provision_freeCtr _ _ _ _  ?_; intros; try dsimp only) | simp)

@[simp] theorem peerGone_frame (a0 : ℕ) (a1 : ℕ) (a2 : ℕ → ℕ → ℕ) (s : State) :
    (peerGone a0 a1 a2 s).pending = s.pending ∧ (peerGone a0 a1 a2 s).latch = s.latch ∧ (peerGone a0 a1 a2 s).mem = s.mem ∧ (peerGone a0 a1 a2 s).clk = s.clk ∧ (peerGone a0 a1 a2 s).thm = s.thm ∧ (peerGone a0 a1 a2 s).stm = s.stm ∧ (peerGone a0 a1 a2 s).flc = s.flc ∧ (peerGone a0 a1 a2 s).mbr = s.mbr ∧ (peerGone a0 a1 a2 s).sec = s.sec ∧ (peerGone a0 a1 a2 s).cpx = s.cpx ∧ (peerGone a0 a1 a2 s).memc = s.memc ∧ (peerGone a0 a1 a2 s).mov = s.mov ∧ (peerGone a0 a1 a2 s).cst = s.cst ∧ (peerGone a0 a1 a2 s).freeCtr = s.freeCtr :=
  ⟨peerGone_pending a0 a1 a2 s, peerGone_latch a0 a1 a2 s, peerGone_mem a0 a1 a2 s, peerGone_clk a0 a1 a2 s, peerGone_thm a0 a1 a2 s, peerGone_stm a0 a1 a2 s, peerGone_flc a0 a1 a2 s, peerGone_mbr a0 a1 a2 s, peerGone_sec a0 a1 a2 s, peerGone_cpx a0 a1 a2 s, peerGone_memc a0 a1 a2 s, peerGone_mov a0 a1 a2 s, peerGone_cst a0 a1 a2 s, peerGone_freeCtr a0 a1 a2 s⟩

theorem applyEpoch_pending (a0 : ℕ) (a1 : List RosterEntry) (s : State) : (applyEpoch a0 a1 s).pending = s.pending := by
  unfold applyEpoch
  try dsimp only
  repeat' (first | (simp; done) | (have h := appendRec_frame (by assumption); simp [h]; done) | (have h := takeSlot_frame (by assumption); simp [h]; done) | (have h := placePage_frame (by assumption); simp [h]; done) | (have h := placePart_frame (by assumption); simp [h]; done) | (have h := closeStream_frame (by assumption); simp [h]; done) | split | (refine (forAll_pending _ _ _ (fun x s => ?_)).trans ?_; try dsimp only) | (refine adminCmd_pending _ _ _ _ ?_; try dsimp only) | (refine provision_pending _ _ _ _  ?_; intros; try dsimp only) | simp)

theorem applyEpoch_latch (a0 : ℕ) (a1 : List RosterEntry) (s : State) : (applyEpoch a0 a1 s).latch = s.latch := by
  unfold applyEpoch
  try dsimp only
  repeat' (first | (simp; done) | (have h := appendRec_frame (by assumption); simp [h]; done) | (have h := takeSlot_frame (by assumption); simp [h]; done) | (have h := placePage_frame (by assumption); simp [h]; done) | (have h := placePart_frame (by assumption); simp [h]; done) | (have h := closeStream_frame (by assumption); simp [h]; done) | split | (refine (forAll_latch _ _ _ (fun x s => ?_)).trans ?_; try dsimp only) | (refine adminCmd_latch _ _ _ _ ?_; try dsimp only) | (refine provision_latch _ _ _ _  ?_; intros; try dsimp only) | simp)

theorem applyEpoch_mem (a0 : ℕ) (a1 : List RosterEntry) (s : State) : (applyEpoch a0 a1 s).mem = s.mem := by
  unfold applyEpoch
  try dsimp only
  repeat' (first | (simp; done) | (have h := appendRec_frame (by assumption); simp [h]; done) | (have h := takeSlot_frame (by assumption); simp [h]; done) | (have h := placePage_frame (by assumption); simp [h]; done) | (have h := placePart_frame (by assumption); simp [h]; done) | (have h := closeStream_frame (by assumption); simp [h]; done) | split | (refine (forAll_mem _ _ _ (fun x s => ?_)).trans ?_; try dsimp only) | (refine adminCmd_mem _ _ _ _ ?_; try dsimp only) | (refine provision_mem _ _ _ _  ?_; intros; try dsimp only) | simp)

theorem applyEpoch_clk (a0 : ℕ) (a1 : List RosterEntry) (s : State) : (applyEpoch a0 a1 s).clk = s.clk := by
  unfold applyEpoch
  try dsimp only
  repeat' (first | (simp; done) | (have h := appendRec_frame (by assumption); simp [h]; done) | (have h := takeSlot_frame (by assumption); simp [h]; done) | (have h := placePage_frame (by assumption); simp [h]; done) | (have h := placePart_frame (by assumption); simp [h]; done) | (have h := closeStream_frame (by assumption); simp [h]; done) | split | (refine (forAll_clk _ _ _ (fun x s => ?_)).trans ?_; try dsimp only) | (refine adminCmd_clk _ _ _ _ ?_; try dsimp only) | (refine provision_clk _ _ _ _  ?_; intros; try dsimp only) | simp)

theorem applyEpoch_thm (a0 : ℕ) (a1 : List RosterEntry) (s : State) : (applyEpoch a0 a1 s).thm = s.thm := by
  unfold applyEpoch
  try dsimp only
  repeat' (first | (simp; done) | (have h := appendRec_frame (by assumption); simp [h]; done) | (have h := takeSlot_frame (by assumption); simp [h]; done) | (have h := placePage_frame (by assumption); simp [h]; done) | (have h := placePart_frame (by assumption); simp [h]; done) | (have h := closeStream_frame (by assumption); simp [h]; done) | split | (refine (forAll_thm _ _ _ (fun x s => ?_)).trans ?_; try dsimp only) | (refine adminCmd_thm _ _ _ _ ?_; try dsimp only) | (refine provision_thm _ _ _ _  ?_; intros; try dsimp only) | simp)

theorem applyEpoch_mbr (a0 : ℕ) (a1 : List RosterEntry) (s : State) : (applyEpoch a0 a1 s).mbr = s.mbr := by
  unfold applyEpoch
  try dsimp only
  repeat' (first | (simp; done) | (have h := appendRec_frame (by assumption); simp [h]; done) | (have h := takeSlot_frame (by assumption); simp [h]; done) | (have h := placePage_frame (by assumption); simp [h]; done) | (have h := placePart_frame (by assumption); simp [h]; done) | (have h := closeStream_frame (by assumption); simp [h]; done) | split | (refine (forAll_mbr _ _ _ (fun x s => ?_)).trans ?_; try dsimp only) | (refine adminCmd_mbr _ _ _ _ ?_; try dsimp only) | (refine provision_mbr _ _ _ _  ?_; intros; try dsimp only) | simp)

theorem applyEpoch_sec (a0 : ℕ) (a1 : List RosterEntry) (s : State) : (applyEpoch a0 a1 s).sec = s.sec := by
  unfold applyEpoch
  try dsimp only
  repeat' (first | (simp; done) | (have h := appendRec_frame (by assumption); simp [h]; done) | (have h := takeSlot_frame (by assumption); simp [h]; done) | (have h := placePage_frame (by assumption); simp [h]; done) | (have h := placePart_frame (by assumption); simp [h]; done) | (have h := closeStream_frame (by assumption); simp [h]; done) | split | (refine (forAll_sec _ _ _ (fun x s => ?_)).trans ?_; try dsimp only) | (refine adminCmd_sec _ _ _ _ ?_; try dsimp only) | simp)

theorem applyEpoch_cpx (a0 : ℕ) (a1 : List RosterEntry) (s : State) : (applyEpoch a0 a1 s).cpx = s.cpx := by
  unfold applyEpoch
  try dsimp only
  repeat' (first | (simp; done) | (have h := appendRec_frame (by assumption); simp [h]; done) | (have h := takeSlot_frame (by assumption); simp [h]; done) | (have h := placePage_frame (by assumption); simp [h]; done) | (have h := placePart_frame (by assumption); simp [h]; done) | (have h := closeStream_frame (by assumption); simp [h]; done) | split | (refine (forAll_cpx _ _ _ (fun x s => ?_)).trans ?_; try dsimp only) | (refine adminCmd_cpx _ _ _ _ ?_; try dsimp only) | (refine provision_cpx _ _ _ _  ?_; intros; try dsimp only) | simp)

theorem applyEpoch_memc (a0 : ℕ) (a1 : List RosterEntry) (s : State) : (applyEpoch a0 a1 s).memc = s.memc := by
  unfold applyEpoch
  try dsimp only
  repeat' (first | (simp; done) | (have h := appendRec_frame (by assumption); simp [h]; done) | (have h := takeSlot_frame (by assumption); simp [h]; done) | (have h := placePage_frame (by assumption); simp [h]; done) | (have h := placePart_frame (by assumption); simp [h]; done) | (have h := closeStream_frame (by assumption); simp [h]; done) | split | (refine (forAll_memc _ _ _ (fun x s => ?_)).trans ?_; try dsimp only) | (refine adminCmd_memc _ _ _ _ ?_; try dsimp only) | (refine provision_memc _ _ _ _  ?_; intros; try dsimp only) | simp)

theorem applyEpoch_mov (a0 : ℕ) (a1 : List RosterEntry) (s : State) : (applyEpoch a0 a1 s).mov = s.mov := by
  unfold applyEpoch
  try dsimp only
  repeat' (first | (simp; done) | (have h := appendRec_frame (by assumption); simp [h]; done) | (have h := takeSlot_frame (by assumption); simp [h]; done) | (have h := placePage_frame (by assumption); simp [h]; done) | (have h := placePart_frame (by assumption); simp [h]; done) | (have h := closeStream_frame (by assumption); simp [h]; done) | split | (refine (forAll_mov _ _ _ (fun x s => ?_)).trans ?_; try dsimp only) | (refine adminCmd_mov _ _ _ _ ?_; try dsimp only) | (refine provision_mov _ _ _ _  ?_; intros; try dsimp only) | simp)

theorem applyEpoch_freeCtr (a0 : ℕ) (a1 : List RosterEntry) (s : State) : (applyEpoch a0 a1 s).freeCtr = s.freeCtr := by
  unfold applyEpoch
  try dsimp only
  repeat' (first | (simp; done) | (have h := appendRec_frame (by assumption); simp [h]; done) | (have h := takeSlot_frame (by assumption); simp [h]; done) | (have h := placePage_frame (by assumption); simp [h]; done) | (have h := placePart_frame (by assumption); simp [h]; done) | (have h := closeStream_frame (by assumption); simp [h]; done) | split | (refine (forAll_freeCtr _ _ _ (fun x s => ?_)).trans ?_; try dsimp only) | (refine adminCmd_freeCtr _ _ _ _ ?_; try dsimp only) | (refine provision_freeCtr _ _ _ _  ?_; intros; try dsimp only) | simp)

@[simp] theorem applyEpoch_frame (a0 : ℕ) (a1 : List RosterEntry) (s : State) :
    (applyEpoch a0 a1 s).pending = s.pending ∧ (applyEpoch a0 a1 s).latch = s.latch ∧ (applyEpoch a0 a1 s).mem = s.mem ∧ (applyEpoch a0 a1 s).clk = s.clk ∧ (applyEpoch a0 a1 s).thm = s.thm ∧ (applyEpoch a0 a1 s).mbr = s.mbr ∧ (applyEpoch a0 a1 s).sec = s.sec ∧ (applyEpoch a0 a1 s).cpx = s.cpx ∧ (applyEpoch a0 a1 s).memc = s.memc ∧ (applyEpoch a0 a1 s).mov = s.mov ∧ (applyEpoch a0 a1 s).freeCtr = s.freeCtr :=
  ⟨applyEpoch_pending a0 a1 s, applyEpoch_latch a0 a1 s, applyEpoch_mem a0 a1 s, applyEpoch_clk a0 a1 s, applyEpoch_thm a0 a1 s, applyEpoch_mbr a0 a1 s, applyEpoch_sec a0 a1 s, applyEpoch_cpx a0 a1 s, applyEpoch_memc a0 a1 s, applyEpoch_mov a0 a1 s, applyEpoch_freeCtr a0 a1 s⟩

theorem commitEpoch_pending (a0 : ℕ) (a1 : List RosterEntry) (s : State) : (commitEpoch a0 a1 s).pending = s.pending := by
  unfold commitEpoch
  try dsimp only
  first
    | (simp; done)
    | ((repeat' split) <;> simp; done)
    | (repeat' (first | (simp; done) | split))

theorem commitEpoch_latch (a0 : ℕ) (a1 : List RosterEntry) (s : State) : (commitEpoch a0 a1 s).latch = s.latch := by
  unfold commitEpoch
  try dsimp only
  first
    | (simp; done)
    | ((repeat' split) <;> simp; done)
    | (repeat' (first | (simp; done) | split))

theorem commitEpoch_mem (a0 : ℕ) (a1 : List RosterEntry) (s : State) : (commitEpoch a0 a1 s).mem = s.mem := by
  unfold commitEpoch
  try dsimp only
  first
    | (simp; done)
    | ((repeat' split) <;> simp; done)
    | (repeat' (first | (simp; done) | split))

theorem commitEpoch_clk (a0 : ℕ) (a1 : List RosterEntry) (s : State) : (commitEpoch a0 a1 s).clk = s.clk := by
  unfold commitEpoch
  try dsimp only
  first
    | (simp; done)
    | ((repeat' split) <;> simp; done)
    | (repeat' (first | (simp; done) | split))

theorem commitEpoch_thm (a0 : ℕ) (a1 : List RosterEntry) (s : State) : (commitEpoch a0 a1 s).thm = s.thm := by
  unfold commitEpoch
  try dsimp only
  first
    | (simp; done)
    | ((repeat' split) <;> simp; done)
    | (repeat' (first | (simp; done) | split))

theorem commitEpoch_mbr (a0 : ℕ) (a1 : List RosterEntry) (s : State) : (commitEpoch a0 a1 s).mbr = s.mbr := by
  unfold commitEpoch
  try dsimp only
  first
    | (simp; done)
    | ((repeat' split) <;> simp; done)
    | (repeat' (first | (simp; done) | split))

theorem commitEpoch_sec (a0 : ℕ) (a1 : List RosterEntry) (s : State) : (commitEpoch a0 a1 s).sec = s.sec := by
  unfold commitEpoch
  try dsimp only
  first
    | (simp; done)
    | ((repeat' split) <;> simp; done)
    | (repeat' (first | (simp; done) | split))

theorem commitEpoch_cpx (a0 : ℕ) (a1 : List RosterEntry) (s : State) : (commitEpoch a0 a1 s).cpx = s.cpx := by
  unfold commitEpoch
  try dsimp only
  first
    | (simp; done)
    | ((repeat' split) <;> simp; done)
    | (repeat' (first | (simp; done) | split))

theorem commitEpoch_memc (a0 : ℕ) (a1 : List RosterEntry) (s : State) : (commitEpoch a0 a1 s).memc = s.memc := by
  unfold commitEpoch
  try dsimp only
  first
    | (simp; done)
    | ((repeat' split) <;> simp; done)
    | (repeat' (first | (simp; done) | split))

theorem commitEpoch_mov (a0 : ℕ) (a1 : List RosterEntry) (s : State) : (commitEpoch a0 a1 s).mov = s.mov := by
  unfold commitEpoch
  try dsimp only
  first
    | (simp; done)
    | ((repeat' split) <;> simp; done)
    | (repeat' (first | (simp; done) | split))

theorem commitEpoch_freeCtr (a0 : ℕ) (a1 : List RosterEntry) (s : State) : (commitEpoch a0 a1 s).freeCtr = s.freeCtr := by
  unfold commitEpoch
  try dsimp only
  first
    | (simp; done)
    | ((repeat' split) <;> simp; done)
    | (repeat' (first | (simp; done) | split))

@[simp] theorem commitEpoch_frame (a0 : ℕ) (a1 : List RosterEntry) (s : State) :
    (commitEpoch a0 a1 s).pending = s.pending ∧ (commitEpoch a0 a1 s).latch = s.latch ∧ (commitEpoch a0 a1 s).mem = s.mem ∧ (commitEpoch a0 a1 s).clk = s.clk ∧ (commitEpoch a0 a1 s).thm = s.thm ∧ (commitEpoch a0 a1 s).mbr = s.mbr ∧ (commitEpoch a0 a1 s).sec = s.sec ∧ (commitEpoch a0 a1 s).cpx = s.cpx ∧ (commitEpoch a0 a1 s).memc = s.memc ∧ (commitEpoch a0 a1 s).mov = s.mov ∧ (commitEpoch a0 a1 s).freeCtr = s.freeCtr :=
  ⟨commitEpoch_pending a0 a1 s, commitEpoch_latch a0 a1 s, commitEpoch_mem a0 a1 s, commitEpoch_clk a0 a1 s, commitEpoch_thm a0 a1 s, commitEpoch_mbr a0 a1 s, commitEpoch_sec a0 a1 s, commitEpoch_cpx a0 a1 s, commitEpoch_memc a0 a1 s, commitEpoch_mov a0 a1 s, commitEpoch_freeCtr a0 a1 s⟩

theorem proposalCheck_pending (s : State) : (proposalCheck s).pending = s.pending := by
  unfold proposalCheck
  try dsimp only
  first
    | (simp; done)
    | ((repeat' split) <;> simp; done)
    | (repeat' (first | (simp; done) | split))

theorem proposalCheck_latch (s : State) : (proposalCheck s).latch = s.latch := by
  unfold proposalCheck
  try dsimp only
  first
    | (simp; done)
    | ((repeat' split) <;> simp; done)
    | (repeat' (first | (simp; done) | split))

theorem proposalCheck_mem (s : State) : (proposalCheck s).mem = s.mem := by
  unfold proposalCheck
  try dsimp only
  first
    | (simp; done)
    | ((repeat' split) <;> simp; done)
    | (repeat' (first | (simp; done) | split))

theorem proposalCheck_clk (s : State) : (proposalCheck s).clk = s.clk := by
  unfold proposalCheck
  try dsimp only
  first
    | (simp; done)
    | ((repeat' split) <;> simp; done)
    | (repeat' (first | (simp; done) | split))

theorem proposalCheck_thm (s : State) : (proposalCheck s).thm = s.thm := by
  unfold proposalCheck
  try dsimp only
  first
    | (simp; done)
    | ((repeat' split) <;> simp; done)
    | (repeat' (first | (simp; done) | split))

theorem proposalCheck_mbr (s : State) : (proposalCheck s).mbr = s.mbr := by
  unfold proposalCheck
  try dsimp only
  first
    | (simp; done)
    | ((repeat' split) <;> simp; done)
    | (repeat' (first | (simp; done) | split))

theorem proposalCheck_sec (s : State) : (proposalCheck s).sec = s.sec := by
  unfold proposalCheck
  try dsimp only
  first
    | (simp; done)
    | ((repeat' split) <;> simp; done)
    | (repeat' (first | (simp; done) | split))

theorem proposalCheck_cpx (s : State) : (proposalCheck s).cpx = s.cpx := by
  unfold proposalCheck
  try dsimp only
  first
    | (simp; done)
    | ((repeat' split) <;> simp; done)
    | (repeat' (first | (simp; done) | split))

theorem proposalCheck_memc (s : State) : (proposalCheck s).memc = s.memc := by
  unfold proposalCheck
  try dsimp only
  first
    | (simp; done)
    | ((repeat' split) <;> simp; done)
    | (repeat' (first | (simp; done) | split))

theorem proposalCheck_mov (s : State) : (proposalCheck s).mov = s.mov := by
  unfold proposalCheck
  try dsimp only
  first
    | (simp; done)
    | ((repeat' split) <;> simp; done)
    | (repeat' (first | (simp; done) | split))

theorem proposalCheck_freeCtr (s : State) : (proposalCheck s).freeCtr = s.freeCtr := by
  unfold proposalCheck
  try dsimp only
  first
    | (simp; done)
    | ((repeat' split) <;> simp; done)
    | (repeat' (first | (simp; done) | split))

@[simp] theorem proposalCheck_frame (s : State) :
    (proposalCheck s).pending = s.pending ∧ (proposalCheck s).latch = s.latch ∧ (proposalCheck s).mem = s.mem ∧ (proposalCheck s).clk = s.clk ∧ (proposalCheck s).thm = s.thm ∧ (proposalCheck s).mbr = s.mbr ∧ (proposalCheck s).sec = s.sec ∧ (proposalCheck s).cpx = s.cpx ∧ (proposalCheck s).memc = s.memc ∧ (proposalCheck s).mov = s.mov ∧ (proposalCheck s).freeCtr = s.freeCtr :=
  ⟨proposalCheck_pending s, proposalCheck_latch s, proposalCheck_mem s, proposalCheck_clk s, proposalCheck_thm s, proposalCheck_mbr s, proposalCheck_sec s, proposalCheck_cpx s, proposalCheck_memc s, proposalCheck_mov s, proposalCheck_freeCtr s⟩

theorem propose_pending (a0 : ℕ) (a1 : Change) (s : State) : (propose a0 a1 s).pending = s.pending := by
  unfold propose
  try dsimp only
  first
    | (simp; done)
    | ((repeat' split) <;> simp; done)
    | (repeat' (first | (simp; done) | split))

theorem propose_latch (a0 : ℕ) (a1 : Change) (s : State) : (propose a0 a1 s).latch = s.latch := by
  unfold propose
  try dsimp only
  first
    | (simp; done)
    | ((repeat' split) <;> simp; done)
    | (repeat' (first | (simp; done) | split))

theorem propose_mem (a0 : ℕ) (a1 : Change) (s : State) : (propose a0 a1 s).mem = s.mem := by
  unfold propose
  try dsimp only
  first
    | (simp; done)
    | ((repeat' split) <;> simp; done)
    | (repeat' (first | (simp; done) | split))

theorem propose_clk (a0 : ℕ) (a1 : Change) (s : State) : (propose a0 a1 s).clk = s.clk := by
  unfold propose
  try dsimp only
  first
    | (simp; done)
    | ((repeat' split) <;> simp; done)
    | (repeat' (first | (simp; done) | split))

theorem propose_thm (a0 : ℕ) (a1 : Change) (s : State) : (propose a0 a1 s).thm = s.thm := by
  unfold propose
  try dsimp only
  first
    | (simp; done)
    | ((repeat' split) <;> simp; done)
    | (repeat' (first | (simp; done) | split))

theorem propose_mbr (a0 : ℕ) (a1 : Change) (s : State) : (propose a0 a1 s).mbr = s.mbr := by
  unfold propose
  try dsimp only
  first
    | (simp; done)
    | ((repeat' split) <;> simp; done)
    | (repeat' (first | (simp; done) | split))

theorem propose_sec (a0 : ℕ) (a1 : Change) (s : State) : (propose a0 a1 s).sec = s.sec := by
  unfold propose
  try dsimp only
  first
    | (simp; done)
    | ((repeat' split) <;> simp; done)
    | (repeat' (first | (simp; done) | split))

theorem propose_cpx (a0 : ℕ) (a1 : Change) (s : State) : (propose a0 a1 s).cpx = s.cpx := by
  unfold propose
  try dsimp only
  first
    | (simp; done)
    | ((repeat' split) <;> simp; done)
    | (repeat' (first | (simp; done) | split))

theorem propose_memc (a0 : ℕ) (a1 : Change) (s : State) : (propose a0 a1 s).memc = s.memc := by
  unfold propose
  try dsimp only
  first
    | (simp; done)
    | ((repeat' split) <;> simp; done)
    | (repeat' (first | (simp; done) | split))

theorem propose_mov (a0 : ℕ) (a1 : Change) (s : State) : (propose a0 a1 s).mov = s.mov := by
  unfold propose
  try dsimp only
  first
    | (simp; done)
    | ((repeat' split) <;> simp; done)
    | (repeat' (first | (simp; done) | split))

theorem propose_freeCtr (a0 : ℕ) (a1 : Change) (s : State) : (propose a0 a1 s).freeCtr = s.freeCtr := by
  unfold propose
  try dsimp only
  first
    | (simp; done)
    | ((repeat' split) <;> simp; done)
    | (repeat' (first | (simp; done) | split))

@[simp] theorem propose_frame (a0 : ℕ) (a1 : Change) (s : State) :
    (propose a0 a1 s).pending = s.pending ∧ (propose a0 a1 s).latch = s.latch ∧ (propose a0 a1 s).mem = s.mem ∧ (propose a0 a1 s).clk = s.clk ∧ (propose a0 a1 s).thm = s.thm ∧ (propose a0 a1 s).mbr = s.mbr ∧ (propose a0 a1 s).sec = s.sec ∧ (propose a0 a1 s).cpx = s.cpx ∧ (propose a0 a1 s).memc = s.memc ∧ (propose a0 a1 s).mov = s.mov ∧ (propose a0 a1 s).freeCtr = s.freeCtr :=
  ⟨propose_pending a0 a1 s, propose_latch a0 a1 s, propose_mem a0 a1 s, propose_clk a0 a1 s, propose_thm a0 a1 s, propose_mbr a0 a1 s, propose_sec a0 a1 s, propose_cpx a0 a1 s, propose_memc a0 a1 s, propose_mov a0 a1 s, propose_freeCtr a0 a1 s⟩

theorem proposeRemoval_pending (a0 : List ℕ) (s : State) : (proposeRemoval a0 s).pending = s.pending := by
  unfold proposeRemoval
  try dsimp only
  first
    | (simp; done)
    | ((repeat' split) <;> simp; done)
    | (repeat' (first | (simp; done) | split))

theorem proposeRemoval_latch (a0 : List ℕ) (s : State) : (proposeRemoval a0 s).latch = s.latch := by
  unfold proposeRemoval
  try dsimp only
  first
    | (simp; done)
    | ((repeat' split) <;> simp; done)
    | (repeat' (first | (simp; done) | split))

theorem proposeRemoval_mem (a0 : List ℕ) (s : State) : (proposeRemoval a0 s).mem = s.mem := by
  unfold proposeRemoval
  try dsimp only
  first
    | (simp; done)
    | ((repeat' split) <;> simp; done)
    | (repeat' (first | (simp; done) | split))

theorem proposeRemoval_clk (a0 : List ℕ) (s : State) : (proposeRemoval a0 s).clk = s.clk := by
  unfold proposeRemoval
  try dsimp only
  first
    | (simp; done)
    | ((repeat' split) <;> simp; done)
    | (repeat' (first | (simp; done) | split))

theorem proposeRemoval_thm (a0 : List ℕ) (s : State) : (proposeRemoval a0 s).thm = s.thm := by
  unfold proposeRemoval
  try dsimp only
  first
    | (simp; done)
    | ((repeat' split) <;> simp; done)
    | (repeat' (first | (simp; done) | split))

theorem proposeRemoval_mbr (a0 : List ℕ) (s : State) : (proposeRemoval a0 s).mbr = s.mbr := by
  unfold proposeRemoval
  try dsimp only
  first
    | (simp; done)
    | ((repeat' split) <;> simp; done)
    | (repeat' (first | (simp; done) | split))

theorem proposeRemoval_sec (a0 : List ℕ) (s : State) : (proposeRemoval a0 s).sec = s.sec := by
  unfold proposeRemoval
  try dsimp only
  first
    | (simp; done)
    | ((repeat' split) <;> simp; done)
    | (repeat' (first | (simp; done) | split))

theorem proposeRemoval_cpx (a0 : List ℕ) (s : State) : (proposeRemoval a0 s).cpx = s.cpx := by
  unfold proposeRemoval
  try dsimp only
  first
    | (simp; done)
    | ((repeat' split) <;> simp; done)
    | (repeat' (first | (simp; done) | split))

theorem proposeRemoval_memc (a0 : List ℕ) (s : State) : (proposeRemoval a0 s).memc = s.memc := by
  unfold proposeRemoval
  try dsimp only
  first
    | (simp; done)
    | ((repeat' split) <;> simp; done)
    | (repeat' (first | (simp; done) | split))

theorem proposeRemoval_mov (a0 : List ℕ) (s : State) : (proposeRemoval a0 s).mov = s.mov := by
  unfold proposeRemoval
  try dsimp only
  first
    | (simp; done)
    | ((repeat' split) <;> simp; done)
    | (repeat' (first | (simp; done) | split))

theorem proposeRemoval_freeCtr (a0 : List ℕ) (s : State) : (proposeRemoval a0 s).freeCtr = s.freeCtr := by
  unfold proposeRemoval
  try dsimp only
  first
    | (simp; done)
    | ((repeat' split) <;> simp; done)
    | (repeat' (first | (simp; done) | split))

@[simp] theorem proposeRemoval_frame (a0 : List ℕ) (s : State) :
    (proposeRemoval a0 s).pending = s.pending ∧ (proposeRemoval a0 s).latch = s.latch ∧ (proposeRemoval a0 s).mem = s.mem ∧ (proposeRemoval a0 s).clk = s.clk ∧ (proposeRemoval a0 s).thm = s.thm ∧ (proposeRemoval a0 s).mbr = s.mbr ∧ (proposeRemoval a0 s).sec = s.sec ∧ (proposeRemoval a0 s).cpx = s.cpx ∧ (proposeRemoval a0 s).memc = s.memc ∧ (proposeRemoval a0 s).mov = s.mov ∧ (proposeRemoval a0 s).freeCtr = s.freeCtr :=
  ⟨proposeRemoval_pending a0 s, proposeRemoval_latch a0 s, proposeRemoval_mem a0 s, proposeRemoval_clk a0 s, proposeRemoval_thm a0 s, proposeRemoval_mbr a0 s, proposeRemoval_sec a0 s, proposeRemoval_cpx a0 s, proposeRemoval_memc a0 s, proposeRemoval_mov a0 s, proposeRemoval_freeCtr a0 s⟩

@[simp] theorem startHs_frame (a0 : ℕ) (s : State) :
    (startHs a0 s).pending = s.pending ∧ (startHs a0 s).regs = s.regs ∧ (startHs a0 s).latch = s.latch ∧ (startHs a0 s).mem = s.mem ∧ (startHs a0 s).sys = s.sys ∧ (startHs a0 s).clk = s.clk ∧ (startHs a0 s).thm = s.thm ∧ (startHs a0 s).tck = s.tck ∧ (startHs a0 s).hif = s.hif ∧ (startHs a0 s).stm = s.stm ∧ (startHs a0 s).map = s.map ∧ (startHs a0 s).flc = s.flc ∧ (startHs a0 s).bnd = s.bnd ∧ (startHs a0 s).mbr = s.mbr ∧ (startHs a0 s).sec = s.sec ∧ (startHs a0 s).cpx = s.cpx ∧ (startHs a0 s).memc = s.memc ∧ (startHs a0 s).mov = s.mov ∧ (startHs a0 s).cst = s.cst ∧ (startHs a0 s).lnt = s.lnt ∧ (startHs a0 s).freeCtr = s.freeCtr := by
  unfold startHs
  try dsimp only
  first
    | (simp; done)
    | ((repeat' split) <;> simp; done)
    | (and_intros <;> (repeat' (first | (simp; done) | split)))

@[simp] theorem startAllHs_frame (s : State) :
    (startAllHs s).pending = s.pending ∧ (startAllHs s).regs = s.regs ∧ (startAllHs s).latch = s.latch ∧ (startAllHs s).mem = s.mem ∧ (startAllHs s).sys = s.sys ∧ (startAllHs s).clk = s.clk ∧ (startAllHs s).thm = s.thm ∧ (startAllHs s).tck = s.tck ∧ (startAllHs s).hif = s.hif ∧ (startAllHs s).stm = s.stm ∧ (startAllHs s).map = s.map ∧ (startAllHs s).flc = s.flc ∧ (startAllHs s).bnd = s.bnd ∧ (startAllHs s).mbr = s.mbr ∧ (startAllHs s).sec = s.sec ∧ (startAllHs s).cpx = s.cpx ∧ (startAllHs s).memc = s.memc ∧ (startAllHs s).mov = s.mov ∧ (startAllHs s).cst = s.cst ∧ (startAllHs s).lnt = s.lnt ∧ (startAllHs s).freeCtr = s.freeCtr := by
  unfold startAllHs
  try dsimp only
  first
    | (simp; done)
    | ((repeat' split) <;> simp; done)
    | (and_intros <;> (repeat' (first | (simp; done) | split)))

@[simp] theorem hsFail_frame (a0 : ℕ) (a1 : ℕ) (s : State) :
    (hsFail a0 a1 s).pending = s.pending ∧ (hsFail a0 a1 s).latch = s.latch ∧ (hsFail a0 a1 s).mem = s.mem ∧ (hsFail a0 a1 s).clk = s.clk ∧ (hsFail a0 a1 s).thm = s.thm ∧ (hsFail a0 a1 s).tck = s.tck ∧ (hsFail a0 a1 s).hif = s.hif ∧ (hsFail a0 a1 s).stm = s.stm ∧ (hsFail a0 a1 s).map = s.map ∧ (hsFail a0 a1 s).flc = s.flc ∧ (hsFail a0 a1 s).bnd = s.bnd ∧ (hsFail a0 a1 s).mbr = s.mbr ∧ (hsFail a0 a1 s).sec = s.sec ∧ (hsFail a0 a1 s).cpx = s.cpx ∧ (hsFail a0 a1 s).memc = s.memc ∧ (hsFail a0 a1 s).mov = s.mov ∧ (hsFail a0 a1 s).cst = s.cst ∧ (hsFail a0 a1 s).out = s.out ∧ (hsFail a0 a1 s).freeCtr = s.freeCtr := by
  unfold hsFail
  try dsimp only
  first
    | (simp; done)
    | ((repeat' split) <;> simp; done)
    | (and_intros <;> (repeat' (first | (simp; done) | split)))

@[simp] theorem resolveWith_frame (a0 : ℕ) (a1 : Bool) (s : State) :
    (resolveWith a0 a1 s).pending = s.pending ∧ (resolveWith a0 a1 s).regs = s.regs ∧ (resolveWith a0 a1 s).latch = s.latch ∧ (resolveWith a0 a1 s).mem = s.mem ∧ (resolveWith a0 a1 s).sys = s.sys ∧ (resolveWith a0 a1 s).clk = s.clk ∧ (resolveWith a0 a1 s).thm = s.thm ∧ (resolveWith a0 a1 s).tck = s.tck ∧ (resolveWith a0 a1 s).hif = s.hif ∧ (resolveWith a0 a1 s).stm = s.stm ∧ (resolveWith a0 a1 s).map = s.map ∧ (resolveWith a0 a1 s).flc = s.flc ∧ (resolveWith a0 a1 s).bnd = s.bnd ∧ (resolveWith a0 a1 s).mbr = s.mbr ∧ (resolveWith a0 a1 s).sec = s.sec ∧ (resolveWith a0 a1 s).cpx = s.cpx ∧ (resolveWith a0 a1 s).memc = s.memc ∧ (resolveWith a0 a1 s).mov = s.mov ∧ (resolveWith a0 a1 s).cst = s.cst ∧ (resolveWith a0 a1 s).lnt = s.lnt ∧ (resolveWith a0 a1 s).freeCtr = s.freeCtr := by
  unfold resolveWith
  try dsimp only
  first
    | (simp; done)
    | ((repeat' split) <;> simp; done)
    | (and_intros <;> (repeat' (first | (simp; done) | split)))

theorem openSession_pending (a0 : ℕ) (a1 : Tfp) (a2 : ConfirmBody) (s : State) : (openSession a0 a1 a2 s).pending = s.pending := by
  unfold openSession
  try dsimp only
  first
    | (simp; done)
    | ((repeat' split) <;> simp; done)
    | (repeat' (first | (simp; done) | split))

theorem openSession_latch (a0 : ℕ) (a1 : Tfp) (a2 : ConfirmBody) (s : State) : (openSession a0 a1 a2 s).latch = s.latch := by
  unfold openSession
  try dsimp only
  first
    | (simp; done)
    | ((repeat' split) <;> simp; done)
    | (repeat' (first | (simp; done) | split))

theorem openSession_mem (a0 : ℕ) (a1 : Tfp) (a2 : ConfirmBody) (s : State) : (openSession a0 a1 a2 s).mem = s.mem := by
  unfold openSession
  try dsimp only
  first
    | (simp; done)
    | ((repeat' split) <;> simp; done)
    | (repeat' (first | (simp; done) | split))

theorem openSession_clk (a0 : ℕ) (a1 : Tfp) (a2 : ConfirmBody) (s : State) : (openSession a0 a1 a2 s).clk = s.clk := by
  unfold openSession
  try dsimp only
  first
    | (simp; done)
    | ((repeat' split) <;> simp; done)
    | (repeat' (first | (simp; done) | split))

theorem openSession_thm (a0 : ℕ) (a1 : Tfp) (a2 : ConfirmBody) (s : State) : (openSession a0 a1 a2 s).thm = s.thm := by
  unfold openSession
  try dsimp only
  first
    | (simp; done)
    | ((repeat' split) <;> simp; done)
    | (repeat' (first | (simp; done) | split))

theorem openSession_mbr (a0 : ℕ) (a1 : Tfp) (a2 : ConfirmBody) (s : State) : (openSession a0 a1 a2 s).mbr = s.mbr := by
  unfold openSession
  try dsimp only
  first
    | (simp; done)
    | ((repeat' split) <;> simp; done)
    | (repeat' (first | (simp; done) | split))

theorem openSession_sec (a0 : ℕ) (a1 : Tfp) (a2 : ConfirmBody) (s : State) : (openSession a0 a1 a2 s).sec = s.sec := by
  unfold openSession
  try dsimp only
  first
    | (simp; done)
    | ((repeat' split) <;> simp; done)
    | (repeat' (first | (simp; done) | split))

theorem openSession_cpx (a0 : ℕ) (a1 : Tfp) (a2 : ConfirmBody) (s : State) : (openSession a0 a1 a2 s).cpx = s.cpx := by
  unfold openSession
  try dsimp only
  first
    | (simp; done)
    | ((repeat' split) <;> simp; done)
    | (repeat' (first | (simp; done) | split))

theorem openSession_memc (a0 : ℕ) (a1 : Tfp) (a2 : ConfirmBody) (s : State) : (openSession a0 a1 a2 s).memc = s.memc := by
  unfold openSession
  try dsimp only
  first
    | (simp; done)
    | ((repeat' split) <;> simp; done)
    | (repeat' (first | (simp; done) | split))

theorem openSession_mov (a0 : ℕ) (a1 : Tfp) (a2 : ConfirmBody) (s : State) : (openSession a0 a1 a2 s).mov = s.mov := by
  unfold openSession
  try dsimp only
  first
    | (simp; done)
    | ((repeat' split) <;> simp; done)
    | (repeat' (first | (simp; done) | split))

theorem openSession_freeCtr (a0 : ℕ) (a1 : Tfp) (a2 : ConfirmBody) (s : State) : (openSession a0 a1 a2 s).freeCtr = s.freeCtr := by
  unfold openSession
  try dsimp only
  first
    | (simp; done)
    | ((repeat' split) <;> simp; done)
    | (repeat' (first | (simp; done) | split))

@[simp] theorem openSession_frame (a0 : ℕ) (a1 : Tfp) (a2 : ConfirmBody) (s : State) :
    (openSession a0 a1 a2 s).pending = s.pending ∧ (openSession a0 a1 a2 s).latch = s.latch ∧ (openSession a0 a1 a2 s).mem = s.mem ∧ (openSession a0 a1 a2 s).clk = s.clk ∧ (openSession a0 a1 a2 s).thm = s.thm ∧ (openSession a0 a1 a2 s).mbr = s.mbr ∧ (openSession a0 a1 a2 s).sec = s.sec ∧ (openSession a0 a1 a2 s).cpx = s.cpx ∧ (openSession a0 a1 a2 s).memc = s.memc ∧ (openSession a0 a1 a2 s).mov = s.mov ∧ (openSession a0 a1 a2 s).freeCtr = s.freeCtr :=
  ⟨openSession_pending a0 a1 a2 s, openSession_latch a0 a1 a2 s, openSession_mem a0 a1 a2 s, openSession_clk a0 a1 a2 s, openSession_thm a0 a1 a2 s, openSession_mbr a0 a1 a2 s, openSession_sec a0 a1 a2 s, openSession_cpx a0 a1 a2 s, openSession_memc a0 a1 a2 s, openSession_mov a0 a1 a2 s, openSession_freeCtr a0 a1 a2 s⟩

@[simp] theorem filterDrop_frame (s : State) :
    (filterDrop s).pending = s.pending ∧ (filterDrop s).latch = s.latch ∧ (filterDrop s).mem = s.mem ∧ (filterDrop s).sys = s.sys ∧ (filterDrop s).clk = s.clk ∧ (filterDrop s).thm = s.thm ∧ (filterDrop s).tck = s.tck ∧ (filterDrop s).hif = s.hif ∧ (filterDrop s).stm = s.stm ∧ (filterDrop s).map = s.map ∧ (filterDrop s).flc = s.flc ∧ (filterDrop s).bnd = s.bnd ∧ (filterDrop s).mbr = s.mbr ∧ (filterDrop s).flt = s.flt ∧ (filterDrop s).sec = s.sec ∧ (filterDrop s).cpx = s.cpx ∧ (filterDrop s).memc = s.memc ∧ (filterDrop s).mov = s.mov ∧ (filterDrop s).cst = s.cst ∧ (filterDrop s).lnt = s.lnt ∧ (filterDrop s).out = s.out ∧ (filterDrop s).freeCtr = s.freeCtr := by
  unfold filterDrop
  try dsimp only
  first
    | (simp; done)
    | ((repeat' split) <;> simp; done)
    | (and_intros <;> (repeat' (first | (simp; done) | split)))

theorem receive_pending (f : Tfp) (a : Bool) (act : Nat → State → State) (s : State) (h : ∀ n s, (act n s).pending = s.pending) :
    (receive f a act s).pending = s.pending := by
  unfold receive
  dsimp only; (repeat' split) <;> simp [h]

theorem receive_latch (f : Tfp) (a : Bool) (act : Nat → State → State) (s : State) (h : ∀ n s, (act n s).latch = s.latch) :
    (receive f a act s).latch = s.latch := by
  unfold receive
  dsimp only; (repeat' split) <;> simp [h]

theorem receive_mem (f : Tfp) (a : Bool) (act : Nat → State → State) (s : State) (h : ∀ n s, (act n s).mem = s.mem) :
    (receive f a act s).mem = s.mem := by
  unfold receive
  dsimp only; (repeat' split) <;> simp [h]

theorem receive_clk (f : Tfp) (a : Bool) (act : Nat → State → State) (s : State) (h : ∀ n s, (act n s).clk = s.clk) :
    (receive f a act s).clk = s.clk := by
  unfold receive
  dsimp only; (repeat' split) <;> simp [h]

theorem receive_thm (f : Tfp) (a : Bool) (act : Nat → State → State) (s : State) (h : ∀ n s, (act n s).thm = s.thm) :
    (receive f a act s).thm = s.thm := by
  unfold receive
  dsimp only; (repeat' split) <;> simp [h]

theorem receive_tck (f : Tfp) (a : Bool) (act : Nat → State → State) (s : State) (h : ∀ n s, (act n s).tck = s.tck) :
    (receive f a act s).tck = s.tck := by
  unfold receive
  dsimp only; (repeat' split) <;> simp [h]

theorem receive_hif (f : Tfp) (a : Bool) (act : Nat → State → State) (s : State) (h : ∀ n s, (act n s).hif = s.hif) :
    (receive f a act s).hif = s.hif := by
  unfold receive
  dsimp only; (repeat' split) <;> simp [h]

theorem receive_stm (f : Tfp) (a : Bool) (act : Nat → State → State) (s : State) (h : ∀ n s, (act n s).stm = s.stm) :
    (receive f a act s).stm = s.stm := by
  unfold receive
  dsimp only; (repeat' split) <;> simp [h]

theorem receive_map (f : Tfp) (a : Bool) (act : Nat → State → State) (s : State) (h : ∀ n s, (act n s).map = s.map) :
    (receive f a act s).map = s.map := by
  unfold receive
  dsimp only; (repeat' split) <;> simp [h]

theorem receive_flc (f : Tfp) (a : Bool) (act : Nat → State → State) (s : State) (h : ∀ n s, (act n s).flc = s.flc) :
    (receive f a act s).flc = s.flc := by
  unfold receive
  dsimp only; (repeat' split) <;> simp [h]

theorem receive_bnd (f : Tfp) (a : Bool) (act : Nat → State → State) (s : State) (h : ∀ n s, (act n s).bnd = s.bnd) :
    (receive f a act s).bnd = s.bnd := by
  unfold receive
  dsimp only; (repeat' split) <;> simp [h]

theorem receive_mbr (f : Tfp) (a : Bool) (act : Nat → State → State) (s : State) (h : ∀ n s, (act n s).mbr = s.mbr) :
    (receive f a act s).mbr = s.mbr := by
  unfold receive
  dsimp only; (repeat' split) <;> simp [h]

theorem receive_sec (f : Tfp) (a : Bool) (act : Nat → State → State) (s : State) (h : ∀ n s, (act n s).sec = s.sec) :
    (receive f a act s).sec = s.sec := by
  unfold receive
  dsimp only; (repeat' split) <;> simp [h]

theorem receive_cpx (f : Tfp) (a : Bool) (act : Nat → State → State) (s : State) (h : ∀ n s, (act n s).cpx = s.cpx) :
    (receive f a act s).cpx = s.cpx := by
  unfold receive
  dsimp only; (repeat' split) <;> simp [h]

theorem receive_memc (f : Tfp) (a : Bool) (act : Nat → State → State) (s : State) (h : ∀ n s, (act n s).memc = s.memc) :
    (receive f a act s).memc = s.memc := by
  unfold receive
  dsimp only; (repeat' split) <;> simp [h]

theorem receive_mov (f : Tfp) (a : Bool) (act : Nat → State → State) (s : State) (h : ∀ n s, (act n s).mov = s.mov) :
    (receive f a act s).mov = s.mov := by
  unfold receive
  dsimp only; (repeat' split) <;> simp [h]

theorem receive_cst (f : Tfp) (a : Bool) (act : Nat → State → State) (s : State) (h : ∀ n s, (act n s).cst = s.cst) :
    (receive f a act s).cst = s.cst := by
  unfold receive
  dsimp only; (repeat' split) <;> simp [h]

theorem receive_freeCtr (f : Tfp) (a : Bool) (act : Nat → State → State) (s : State) (h : ∀ n s, (act n s).freeCtr = s.freeCtr) :
    (receive f a act s).freeCtr = s.freeCtr := by
  unfold receive
  dsimp only; (repeat' split) <;> simp [h]

@[simp] theorem answer_frame (a0 : ℕ) (a1 : Msg → Bool) (s : State) :
    (answer a0 a1 s).pending = s.pending ∧ (answer a0 a1 s).regs = s.regs ∧ (answer a0 a1 s).latch = s.latch ∧ (answer a0 a1 s).mem = s.mem ∧ (answer a0 a1 s).sys = s.sys ∧ (answer a0 a1 s).clk = s.clk ∧ (answer a0 a1 s).thm = s.thm ∧ (answer a0 a1 s).tck = s.tck ∧ (answer a0 a1 s).hif = s.hif ∧ (answer a0 a1 s).stm = s.stm ∧ (answer a0 a1 s).map = s.map ∧ (answer a0 a1 s).flc = s.flc ∧ (answer a0 a1 s).bnd = s.bnd ∧ (answer a0 a1 s).mbr = s.mbr ∧ (answer a0 a1 s).sec = s.sec ∧ (answer a0 a1 s).cpx = s.cpx ∧ (answer a0 a1 s).memc = s.memc ∧ (answer a0 a1 s).mov = s.mov ∧ (answer a0 a1 s).cst = s.cst ∧ (answer a0 a1 s).lnt = s.lnt ∧ (answer a0 a1 s).out = s.out ∧ (answer a0 a1 s).freeCtr = s.freeCtr := by
  unfold answer
  try dsimp only
  first
    | (simp; done)
    | ((repeat' split) <;> simp; done)
    | (and_intros <;> (repeat' (first | (simp; done) | split)))

@[simp] theorem fnkStep_frame (s : State) :
    (fnkStep s).pending = s.pending ∧ (fnkStep s).latch = s.latch ∧ (fnkStep s).mem = s.mem ∧ (fnkStep s).sys = s.sys ∧ (fnkStep s).clk = s.clk ∧ (fnkStep s).thm = s.thm ∧ (fnkStep s).tck = s.tck ∧ (fnkStep s).hif = s.hif ∧ (fnkStep s).stm = s.stm ∧ (fnkStep s).map = s.map ∧ (fnkStep s).flc = s.flc ∧ (fnkStep s).bnd = s.bnd ∧ (fnkStep s).mbr = s.mbr ∧ (fnkStep s).cpx = s.cpx ∧ (fnkStep s).memc = s.memc ∧ (fnkStep s).mov = s.mov ∧ (fnkStep s).lnt = s.lnt ∧ (fnkStep s).freeCtr = s.freeCtr := by
  unfold fnkStep
  try dsimp only
  first
    | (simp; done)
    | ((repeat' split) <;> simp; done)
    | (and_intros <;> (repeat' (first | (simp; done) | split)))

@[simp] theorem answerBusy_frame (a0 : ℕ) (a1 : ℕ) (a2 : ℕ) (s : State) :
    (answerBusy a0 a1 a2 s).pending = s.pending ∧ (answerBusy a0 a1 a2 s).latch = s.latch ∧ (answerBusy a0 a1 a2 s).mem = s.mem ∧ (answerBusy a0 a1 a2 s).clk = s.clk ∧ (answerBusy a0 a1 a2 s).thm = s.thm ∧ (answerBusy a0 a1 a2 s).tck = s.tck ∧ (answerBusy a0 a1 a2 s).hif = s.hif ∧ (answerBusy a0 a1 a2 s).stm = s.stm ∧ (answerBusy a0 a1 a2 s).map = s.map ∧ (answerBusy a0 a1 a2 s).flc = s.flc ∧ (answerBusy a0 a1 a2 s).bnd = s.bnd ∧ (answerBusy a0 a1 a2 s).mbr = s.mbr ∧ (answerBusy a0 a1 a2 s).sec = s.sec ∧ (answerBusy a0 a1 a2 s).cpx = s.cpx ∧ (answerBusy a0 a1 a2 s).memc = s.memc ∧ (answerBusy a0 a1 a2 s).mov = s.mov ∧ (answerBusy a0 a1 a2 s).cst = s.cst ∧ (answerBusy a0 a1 a2 s).freeCtr = s.freeCtr := by
  unfold answerBusy
  try dsimp only
  first
    | (simp; done)
    | ((repeat' split) <;> simp; done)
    | (and_intros <;> (repeat' (first | (simp; done) | split)))

@[simp] theorem fleetRebuildStep_frame (s : State) :
    (fleetRebuildStep s).pending = s.pending ∧ (fleetRebuildStep s).latch = s.latch ∧ (fleetRebuildStep s).mem = s.mem ∧ (fleetRebuildStep s).clk = s.clk ∧ (fleetRebuildStep s).thm = s.thm ∧ (fleetRebuildStep s).tck = s.tck ∧ (fleetRebuildStep s).stm = s.stm ∧ (fleetRebuildStep s).bnd = s.bnd ∧ (fleetRebuildStep s).mbr = s.mbr ∧ (fleetRebuildStep s).sec = s.sec ∧ (fleetRebuildStep s).cpx = s.cpx ∧ (fleetRebuildStep s).memc = s.memc ∧ (fleetRebuildStep s).mov = s.mov ∧ (fleetRebuildStep s).freeCtr = s.freeCtr := by
  unfold fleetRebuildStep
  try dsimp only
  first
    | (simp; done)
    | ((repeat' split) <;> simp; done)
    | (and_intros <;> (repeat' (first | (simp; done) | split)))

@[simp] theorem armFleet_frame (a0 : ℕ) (a1 : ℕ) (a2 : Bool) (s : State) :
    (armFleet a0 a1 a2 s).pending = s.pending ∧ (armFleet a0 a1 a2 s).latch = s.latch ∧ (armFleet a0 a1 a2 s).mem = s.mem ∧ (armFleet a0 a1 a2 s).clk = s.clk ∧ (armFleet a0 a1 a2 s).thm = s.thm ∧ (armFleet a0 a1 a2 s).hif = s.hif ∧ (armFleet a0 a1 a2 s).stm = s.stm ∧ (armFleet a0 a1 a2 s).map = s.map ∧ (armFleet a0 a1 a2 s).flc = s.flc ∧ (armFleet a0 a1 a2 s).bnd = s.bnd ∧ (armFleet a0 a1 a2 s).mbr = s.mbr ∧ (armFleet a0 a1 a2 s).sec = s.sec ∧ (armFleet a0 a1 a2 s).cpx = s.cpx ∧ (armFleet a0 a1 a2 s).memc = s.memc ∧ (armFleet a0 a1 a2 s).mov = s.mov ∧ (armFleet a0 a1 a2 s).cst = s.cst ∧ (armFleet a0 a1 a2 s).out = s.out ∧ (armFleet a0 a1 a2 s).freeCtr = s.freeCtr := by
  unfold armFleet
  try dsimp only
  first
    | (simp; done)
    | ((repeat' split) <;> simp; done)
    | (and_intros <;> (repeat' (first | (simp; done) | split)))

@[simp] theorem actCheck_frame (s : State) :
    (actCheck s).pending = s.pending ∧ (actCheck s).regs = s.regs ∧ (actCheck s).latch = s.latch ∧ (actCheck s).mem = s.mem ∧ (actCheck s).sys = s.sys ∧ (actCheck s).clk = s.clk ∧ (actCheck s).thm = s.thm ∧ (actCheck s).tck = s.tck ∧ (actCheck s).hif = s.hif ∧ (actCheck s).stm = s.stm ∧ (actCheck s).map = s.map ∧ (actCheck s).flc = s.flc ∧ (actCheck s).bnd = s.bnd ∧ (actCheck s).mbr = s.mbr ∧ (actCheck s).sec = s.sec ∧ (actCheck s).cpx = s.cpx ∧ (actCheck s).memc = s.memc ∧ (actCheck s).mov = s.mov ∧ (actCheck s).cst = s.cst ∧ (actCheck s).lnt = s.lnt ∧ (actCheck s).freeCtr = s.freeCtr := by
  unfold actCheck
  try dsimp only
  first
    | (simp; done)
    | ((repeat' split) <;> simp; done)
    | (and_intros <;> (repeat' (first | (simp; done) | split)))

@[simp] theorem cancelAll_frame (s : State) :
    (cancelAll s).pending = s.pending ∧ (cancelAll s).latch = s.latch ∧ (cancelAll s).mem = s.mem ∧ (cancelAll s).clk = s.clk ∧ (cancelAll s).thm = s.thm ∧ (cancelAll s).hif = s.hif ∧ (cancelAll s).stm = s.stm ∧ (cancelAll s).map = s.map ∧ (cancelAll s).flc = s.flc ∧ (cancelAll s).bnd = s.bnd ∧ (cancelAll s).mbr = s.mbr ∧ (cancelAll s).sec = s.sec ∧ (cancelAll s).cpx = s.cpx ∧ (cancelAll s).memc = s.memc ∧ (cancelAll s).mov = s.mov ∧ (cancelAll s).cst = s.cst ∧ (cancelAll s).freeCtr = s.freeCtr := by
  unfold cancelAll
  try dsimp only
  first
    | (simp; done)
    | ((repeat' split) <;> simp; done)
    | (and_intros <;> (repeat' (first | (simp; done) | split)))

/-! ### FleetManage -/

@[simp] theorem fltDone_frame (a0 : Src) (a1 : ℕ) (a2 : ℕ) (s : State) :
    (fltDone a0 a1 a2 s).pending = s.pending ∧ (fltDone a0 a1 a2 s).latch = s.latch ∧ (fltDone a0 a1 a2 s).mem = s.mem ∧ (fltDone a0 a1 a2 s).clk = s.clk ∧ (fltDone a0 a1 a2 s).thm = s.thm ∧ (fltDone a0 a1 a2 s).tck = s.tck ∧ (fltDone a0 a1 a2 s).hif = s.hif ∧ (fltDone a0 a1 a2 s).stm = s.stm ∧ (fltDone a0 a1 a2 s).map = s.map ∧ (fltDone a0 a1 a2 s).flc = s.flc ∧ (fltDone a0 a1 a2 s).bnd = s.bnd ∧ (fltDone a0 a1 a2 s).mbr = s.mbr ∧ (fltDone a0 a1 a2 s).flt = s.flt ∧ (fltDone a0 a1 a2 s).sec = s.sec ∧ (fltDone a0 a1 a2 s).cpx = s.cpx ∧ (fltDone a0 a1 a2 s).memc = s.memc ∧ (fltDone a0 a1 a2 s).mov = s.mov ∧ (fltDone a0 a1 a2 s).cst = s.cst ∧ (fltDone a0 a1 a2 s).freeCtr = s.freeCtr := by
  unfold fltDone
  try dsimp only
  first
    | (simp; done)
    | ((repeat' split) <;> simp; done)
    | (and_intros <;> (repeat' (first | (simp; done) | split)))

theorem fltReq_pending (src : Src) (tag : Nat) (f : State → State) (s : State) (h : ∀ s, (f s).pending = s.pending) :
    (fltReq src tag f s).pending = s.pending := by
  unfold fltReq
  (repeat' split) <;> simp [h]

theorem fltReq_latch (src : Src) (tag : Nat) (f : State → State) (s : State) (h : ∀ s, (f s).latch = s.latch) :
    (fltReq src tag f s).latch = s.latch := by
  unfold fltReq
  (repeat' split) <;> simp [h]

theorem fltReq_mem (src : Src) (tag : Nat) (f : State → State) (s : State) (h : ∀ s, (f s).mem = s.mem) :
    (fltReq src tag f s).mem = s.mem := by
  unfold fltReq
  (repeat' split) <;> simp [h]

theorem fltReq_clk (src : Src) (tag : Nat) (f : State → State) (s : State) (h : ∀ s, (f s).clk = s.clk) :
    (fltReq src tag f s).clk = s.clk := by
  unfold fltReq
  (repeat' split) <;> simp [h]

theorem fltReq_thm (src : Src) (tag : Nat) (f : State → State) (s : State) (h : ∀ s, (f s).thm = s.thm) :
    (fltReq src tag f s).thm = s.thm := by
  unfold fltReq
  (repeat' split) <;> simp [h]

theorem fltReq_tck (src : Src) (tag : Nat) (f : State → State) (s : State) (h : ∀ s, (f s).tck = s.tck) :
    (fltReq src tag f s).tck = s.tck := by
  unfold fltReq
  (repeat' split) <;> simp [h]

theorem fltReq_hif (src : Src) (tag : Nat) (f : State → State) (s : State) (h : ∀ s, (f s).hif = s.hif) :
    (fltReq src tag f s).hif = s.hif := by
  unfold fltReq
  (repeat' split) <;> simp [h]

theorem fltReq_stm (src : Src) (tag : Nat) (f : State → State) (s : State) (h : ∀ s, (f s).stm = s.stm) :
    (fltReq src tag f s).stm = s.stm := by
  unfold fltReq
  (repeat' split) <;> simp [h]

theorem fltReq_map (src : Src) (tag : Nat) (f : State → State) (s : State) (h : ∀ s, (f s).map = s.map) :
    (fltReq src tag f s).map = s.map := by
  unfold fltReq
  (repeat' split) <;> simp [h]

theorem fltReq_flc (src : Src) (tag : Nat) (f : State → State) (s : State) (h : ∀ s, (f s).flc = s.flc) :
    (fltReq src tag f s).flc = s.flc := by
  unfold fltReq
  (repeat' split) <;> simp [h]

theorem fltReq_bnd (src : Src) (tag : Nat) (f : State → State) (s : State) (h : ∀ s, (f s).bnd = s.bnd) :
    (fltReq src tag f s).bnd = s.bnd := by
  unfold fltReq
  (repeat' split) <;> simp [h]

theorem fltReq_mbr (src : Src) (tag : Nat) (f : State → State) (s : State) (h : ∀ s, (f s).mbr = s.mbr) :
    (fltReq src tag f s).mbr = s.mbr := by
  unfold fltReq
  (repeat' split) <;> simp [h]

theorem fltReq_flt (src : Src) (tag : Nat) (f : State → State) (s : State) (h : ∀ s, (f s).flt = s.flt) :
    (fltReq src tag f s).flt = s.flt := by
  unfold fltReq
  (repeat' split) <;> simp [h]

theorem fltReq_sec (src : Src) (tag : Nat) (f : State → State) (s : State) (h : ∀ s, (f s).sec = s.sec) :
    (fltReq src tag f s).sec = s.sec := by
  unfold fltReq
  (repeat' split) <;> simp [h]

theorem fltReq_cpx (src : Src) (tag : Nat) (f : State → State) (s : State) (h : ∀ s, (f s).cpx = s.cpx) :
    (fltReq src tag f s).cpx = s.cpx := by
  unfold fltReq
  (repeat' split) <;> simp [h]

theorem fltReq_memc (src : Src) (tag : Nat) (f : State → State) (s : State) (h : ∀ s, (f s).memc = s.memc) :
    (fltReq src tag f s).memc = s.memc := by
  unfold fltReq
  (repeat' split) <;> simp [h]

theorem fltReq_mov (src : Src) (tag : Nat) (f : State → State) (s : State) (h : ∀ s, (f s).mov = s.mov) :
    (fltReq src tag f s).mov = s.mov := by
  unfold fltReq
  (repeat' split) <;> simp [h]

theorem fltReq_cst (src : Src) (tag : Nat) (f : State → State) (s : State) (h : ∀ s, (f s).cst = s.cst) :
    (fltReq src tag f s).cst = s.cst := by
  unfold fltReq
  (repeat' split) <;> simp [h]

theorem fltReq_freeCtr (src : Src) (tag : Nat) (f : State → State) (s : State) (h : ∀ s, (f s).freeCtr = s.freeCtr) :
    (fltReq src tag f s).freeCtr = s.freeCtr := by
  unfold fltReq
  (repeat' split) <;> simp [h]

@[simp] theorem setFport_frame (a0 : ℕ) (a1 : FPort → FPort) (s : State) :
    (setFport a0 a1 s).pending = s.pending ∧ (setFport a0 a1 s).regs = s.regs ∧ (setFport a0 a1 s).latch = s.latch ∧ (setFport a0 a1 s).mem = s.mem ∧ (setFport a0 a1 s).sys = s.sys ∧ (setFport a0 a1 s).clk = s.clk ∧ (setFport a0 a1 s).thm = s.thm ∧ (setFport a0 a1 s).tck = s.tck ∧ (setFport a0 a1 s).hif = s.hif ∧ (setFport a0 a1 s).stm = s.stm ∧ (setFport a0 a1 s).map = s.map ∧ (setFport a0 a1 s).flc = s.flc ∧ (setFport a0 a1 s).bnd = s.bnd ∧ (setFport a0 a1 s).mbr = s.mbr ∧ (setFport a0 a1 s).sec = s.sec ∧ (setFport a0 a1 s).cpx = s.cpx ∧ (setFport a0 a1 s).memc = s.memc ∧ (setFport a0 a1 s).mov = s.mov ∧ (setFport a0 a1 s).cst = s.cst ∧ (setFport a0 a1 s).lnt = s.lnt ∧ (setFport a0 a1 s).out = s.out ∧ (setFport a0 a1 s).freeCtr = s.freeCtr := by
  unfold setFport
  try dsimp only
  first
    | (simp; done)
    | ((repeat' split) <;> simp; done)
    | (and_intros <;> (repeat' (first | (simp; done) | split)))

@[simp] theorem portReq_frame (a0 : ℕ) (a1 : Bool) (s : State) :
    (portReq a0 a1 s).pending = s.pending ∧ (portReq a0 a1 s).latch = s.latch ∧ (portReq a0 a1 s).mem = s.mem ∧ (portReq a0 a1 s).clk = s.clk ∧ (portReq a0 a1 s).thm = s.thm ∧ (portReq a0 a1 s).map = s.map ∧ (portReq a0 a1 s).flc = s.flc ∧ (portReq a0 a1 s).bnd = s.bnd ∧ (portReq a0 a1 s).mbr = s.mbr ∧ (portReq a0 a1 s).sec = s.sec ∧ (portReq a0 a1 s).cpx = s.cpx ∧ (portReq a0 a1 s).memc = s.memc ∧ (portReq a0 a1 s).mov = s.mov ∧ (portReq a0 a1 s).cst = s.cst ∧ (portReq a0 a1 s).freeCtr = s.freeCtr := by
  unfold portReq
  try dsimp only
  first
    | (simp; done)
    | ((repeat' split) <;> simp; done)
    | (and_intros <;> (repeat' (first | (simp; done) | split)))

@[simp] theorem portCarry_frame (a0 : ℕ) (s : State) :
    (portCarry a0 s).pending = s.pending ∧ (portCarry a0 s).latch = s.latch ∧ (portCarry a0 s).mem = s.mem ∧ (portCarry a0 s).clk = s.clk ∧ (portCarry a0 s).thm = s.thm ∧ (portCarry a0 s).map = s.map ∧ (portCarry a0 s).flc = s.flc ∧ (portCarry a0 s).bnd = s.bnd ∧ (portCarry a0 s).mbr = s.mbr ∧ (portCarry a0 s).sec = s.sec ∧ (portCarry a0 s).cpx = s.cpx ∧ (portCarry a0 s).memc = s.memc ∧ (portCarry a0 s).mov = s.mov ∧ (portCarry a0 s).cst = s.cst ∧ (portCarry a0 s).freeCtr = s.freeCtr := by
  unfold portCarry
  try dsimp only
  first
    | (simp; done)
    | ((repeat' split) <;> simp; done)
    | (and_intros <;> (repeat' (first | (simp; done) | split)))

@[simp] theorem storeFltCfg_frame (a0 : Word) (s : State) :
    (storeFltCfg a0 s).pending = s.pending ∧ (storeFltCfg a0 s).latch = s.latch ∧ (storeFltCfg a0 s).mem = s.mem ∧ (storeFltCfg a0 s).clk = s.clk ∧ (storeFltCfg a0 s).thm = s.thm ∧ (storeFltCfg a0 s).map = s.map ∧ (storeFltCfg a0 s).flc = s.flc ∧ (storeFltCfg a0 s).bnd = s.bnd ∧ (storeFltCfg a0 s).mbr = s.mbr ∧ (storeFltCfg a0 s).sec = s.sec ∧ (storeFltCfg a0 s).cpx = s.cpx ∧ (storeFltCfg a0 s).memc = s.memc ∧ (storeFltCfg a0 s).mov = s.mov ∧ (storeFltCfg a0 s).cst = s.cst ∧ (storeFltCfg a0 s).freeCtr = s.freeCtr := by
  unfold storeFltCfg
  try dsimp only
  first
    | (simp; done)
    | ((repeat' split) <;> simp; done)
    | (and_intros <;> (repeat' (first | (simp; done) | split)))

@[simp] theorem fleetRestart_frame (s : State) :
    (fleetRestart s).pending = s.pending ∧ (fleetRestart s).regs = s.regs ∧ (fleetRestart s).latch = s.latch ∧ (fleetRestart s).mem = s.mem ∧ (fleetRestart s).sys = s.sys ∧ (fleetRestart s).clk = s.clk ∧ (fleetRestart s).thm = s.thm ∧ (fleetRestart s).tck = s.tck ∧ (fleetRestart s).hif = s.hif ∧ (fleetRestart s).stm = s.stm ∧ (fleetRestart s).map = s.map ∧ (fleetRestart s).flc = s.flc ∧ (fleetRestart s).bnd = s.bnd ∧ (fleetRestart s).mbr = s.mbr ∧ (fleetRestart s).sec = s.sec ∧ (fleetRestart s).cpx = s.cpx ∧ (fleetRestart s).memc = s.memc ∧ (fleetRestart s).mov = s.mov ∧ (fleetRestart s).cst = s.cst ∧ (fleetRestart s).lnt = s.lnt ∧ (fleetRestart s).out = s.out ∧ (fleetRestart s).freeCtr = s.freeCtr := by
  unfold fleetRestart
  try dsimp only
  first
    | (simp; done)
    | ((repeat' split) <;> simp; done)
    | (and_intros <;> (repeat' (first | (simp; done) | split)))

/-! ### Mover -/

@[simp] theorem setMov_frame (a0 : ℕ) (a1 : MovCh → MovCh) (s : State) :
    (setMov a0 a1 s).pending = s.pending ∧ (setMov a0 a1 s).regs = s.regs ∧ (setMov a0 a1 s).latch = s.latch ∧ (setMov a0 a1 s).mem = s.mem ∧ (setMov a0 a1 s).sys = s.sys ∧ (setMov a0 a1 s).clk = s.clk ∧ (setMov a0 a1 s).thm = s.thm ∧ (setMov a0 a1 s).tck = s.tck ∧ (setMov a0 a1 s).hif = s.hif ∧ (setMov a0 a1 s).stm = s.stm ∧ (setMov a0 a1 s).map = s.map ∧ (setMov a0 a1 s).flc = s.flc ∧ (setMov a0 a1 s).bnd = s.bnd ∧ (setMov a0 a1 s).mbr = s.mbr ∧ (setMov a0 a1 s).flt = s.flt ∧ (setMov a0 a1 s).sec = s.sec ∧ (setMov a0 a1 s).cpx = s.cpx ∧ (setMov a0 a1 s).memc = s.memc ∧ (setMov a0 a1 s).cst = s.cst ∧ (setMov a0 a1 s).lnt = s.lnt ∧ (setMov a0 a1 s).out = s.out ∧ (setMov a0 a1 s).freeCtr = s.freeCtr := by
  unfold setMov
  try dsimp only
  first
    | (simp; done)
    | ((repeat' split) <;> simp; done)
    | (and_intros <;> (repeat' (first | (simp; done) | split)))

@[simp] theorem writeBeats_frame (ch : Nat) (fx : Bool) (a : Nat) (l : List (List Byte)) (s : State) :
    (writeBeats ch fx a l s).1.pending = s.pending ∧ (writeBeats ch fx a l s).1.regs = s.regs ∧ (writeBeats ch fx a l s).1.latch = s.latch ∧ (writeBeats ch fx a l s).1.sys = s.sys ∧ (writeBeats ch fx a l s).1.clk = s.clk ∧ (writeBeats ch fx a l s).1.thm = s.thm ∧ (writeBeats ch fx a l s).1.tck = s.tck ∧ (writeBeats ch fx a l s).1.hif = s.hif ∧ (writeBeats ch fx a l s).1.stm = s.stm ∧ (writeBeats ch fx a l s).1.map = s.map ∧ (writeBeats ch fx a l s).1.flc = s.flc ∧ (writeBeats ch fx a l s).1.bnd = s.bnd ∧ (writeBeats ch fx a l s).1.mbr = s.mbr ∧ (writeBeats ch fx a l s).1.flt = s.flt ∧ (writeBeats ch fx a l s).1.sec = s.sec ∧ (writeBeats ch fx a l s).1.cpx = s.cpx ∧ (writeBeats ch fx a l s).1.memc = s.memc ∧ (writeBeats ch fx a l s).1.mov = s.mov ∧ (writeBeats ch fx a l s).1.cst = s.cst ∧ (writeBeats ch fx a l s).1.lnt = s.lnt ∧ (writeBeats ch fx a l s).1.out = s.out ∧ (writeBeats ch fx a l s).1.freeCtr = s.freeCtr := by
  induction l generalizing a s with
  | nil => simp [writeBeats]
  | cons b bs ih => unfold writeBeats; split <;> simp [ih]

@[simp] theorem copyPieces_frame (ch : Nat) (po : List Nat) (sf df : Bool) (n x y l : Nat) (s : State) :
    (copyPieces ch po sf df n x y l s).1.pending = s.pending ∧ (copyPieces ch po sf df n x y l s).1.regs = s.regs ∧ (copyPieces ch po sf df n x y l s).1.latch = s.latch ∧ (copyPieces ch po sf df n x y l s).1.sys = s.sys ∧ (copyPieces ch po sf df n x y l s).1.clk = s.clk ∧ (copyPieces ch po sf df n x y l s).1.thm = s.thm ∧ (copyPieces ch po sf df n x y l s).1.tck = s.tck ∧ (copyPieces ch po sf df n x y l s).1.hif = s.hif ∧ (copyPieces ch po sf df n x y l s).1.stm = s.stm ∧ (copyPieces ch po sf df n x y l s).1.map = s.map ∧ (copyPieces ch po sf df n x y l s).1.flc = s.flc ∧ (copyPieces ch po sf df n x y l s).1.bnd = s.bnd ∧ (copyPieces ch po sf df n x y l s).1.mbr = s.mbr ∧ (copyPieces ch po sf df n x y l s).1.flt = s.flt ∧ (copyPieces ch po sf df n x y l s).1.sec = s.sec ∧ (copyPieces ch po sf df n x y l s).1.cpx = s.cpx ∧ (copyPieces ch po sf df n x y l s).1.memc = s.memc ∧ (copyPieces ch po sf df n x y l s).1.mov = s.mov ∧ (copyPieces ch po sf df n x y l s).1.cst = s.cst ∧ (copyPieces ch po sf df n x y l s).1.lnt = s.lnt ∧ (copyPieces ch po sf df n x y l s).1.out = s.out ∧ (copyPieces ch po sf df n x y l s).1.freeCtr = s.freeCtr := by
  induction n generalizing x y l s with
  | zero => simp [copyPieces]
  | succ n ih => unfold copyPieces; dsimp only; (repeat' split) <;> simp [ih]

theorem memUncorrectable_clk (ev : ℕ) (w : WordSeen) (s : State) : (memUncorrectable ev w s).1.clk = s.clk := by
  unfold memUncorrectable
  extract_lets t u
  have h : u.clk = s.clk := by simp [u, t]
  clear_value u t
  repeat' (first | (simp [h]; done) | split)

theorem memRead_clk (w : WordSeen) (s : State) : (memRead w s).1.clk = s.clk := by
  unfold memRead
  repeat' (first | (simp [memUncorrectable_clk]; done) | split)

@[simp] theorem memReads_clk (l : List WordSeen) (s : State) : (memReads l s).1.clk = s.clk := by
  induction l generalizing s with
  | nil => rfl
  | cons w ws ih =>
    unfold memReads
    exact (ih _).trans (memRead_clk w s)

theorem memUncorrectable_latch (ev : ℕ) (w : WordSeen) (s : State) : (memUncorrectable ev w s).1.latch = s.latch := by
  unfold memUncorrectable
  extract_lets t u
  have h : u.latch = s.latch := by simp [u, t]
  clear_value u t
  repeat' (first | (simp [h]; done) | split)

theorem memRead_latch (w : WordSeen) (s : State) : (memRead w s).1.latch = s.latch := by
  unfold memRead
  repeat' (first | (simp [memUncorrectable_latch]; done) | split)

@[simp] theorem memReads_latch (l : List WordSeen) (s : State) : (memReads l s).1.latch = s.latch := by
  induction l generalizing s with
  | nil => rfl
  | cons w ws ih =>
    unfold memReads
    exact (ih _).trans (memRead_latch w s)

theorem memUncorrectable_pending (ev : ℕ) (w : WordSeen) (s : State) : (memUncorrectable ev w s).1.pending = s.pending := by
  unfold memUncorrectable
  extract_lets t u
  have h : u.pending = s.pending := by simp [u, t]
  clear_value u t
  repeat' (first | (simp [h]; done) | split)

theorem memRead_pending (w : WordSeen) (s : State) : (memRead w s).1.pending = s.pending := by
  unfold memRead
  repeat' (first | (simp [memUncorrectable_pending]; done) | split)

@[simp] theorem memReads_pending (l : List WordSeen) (s : State) : (memReads l s).1.pending = s.pending := by
  induction l generalizing s with
  | nil => rfl
  | cons w ws ih =>
    unfold memReads
    exact (ih _).trans (memRead_pending w s)

theorem memUncorrectable_thm (ev : ℕ) (w : WordSeen) (s : State) : (memUncorrectable ev w s).1.thm = s.thm := by
  unfold memUncorrectable
  extract_lets t u
  have h : u.thm = s.thm := by simp [u, t]
  clear_value u t
  repeat' (first | (simp [h]; done) | split)

theorem memRead_thm (w : WordSeen) (s : State) : (memRead w s).1.thm = s.thm := by
  unfold memRead
  repeat' (first | (simp [memUncorrectable_thm]; done) | split)

@[simp] theorem memReads_thm (l : List WordSeen) (s : State) : (memReads l s).1.thm = s.thm := by
  induction l generalizing s with
  | nil => rfl
  | cons w ws ih =>
    unfold memReads
    exact (ih _).trans (memRead_thm w s)

theorem movBegin_pending (a0 : ℕ) (s : State) : (movBegin a0 s).pending = s.pending := by
  unfold movBegin
  try dsimp only
  repeat' (first | (simp; done) | (have h := appendRec_frame (by assumption); simp [h]; done) | (have h := takeSlot_frame (by assumption); simp [h]; done) | (have h := placePage_frame (by assumption); simp [h]; done) | (have h := placePart_frame (by assumption); simp [h]; done) | (have h := closeStream_frame (by assumption); simp [h]; done) | split | (refine (forAll_pending _ _ _ (fun x s => ?_)).trans ?_; try dsimp only) | (refine adminCmd_pending _ _ _ _ ?_; try dsimp only) | (refine provision_pending _ _ _ _  ?_; intros; try dsimp only) | (refine receive_pending _ _ _ _  ?_; intros; try dsimp only) | (refine fltReq_pending _ _ _ _  ?_; intros; try dsimp only) | simp)

theorem movBegin_latch (a0 : ℕ) (s : State) : (movBegin a0 s).latch = s.latch := by
  unfold movBegin
  try dsimp only
  repeat' (first | (simp; done) | (have h := appendRec_frame (by assumption); simp [h]; done) | (have h := takeSlot_frame (by assumption); simp [h]; done) | (have h := placePage_frame (by assumption); simp [h]; done) | (have h := placePart_frame (by assumption); simp [h]; done) | (have h := closeStream_frame (by assumption); simp [h]; done) | split | (refine (forAll_latch _ _ _ (fun x s => ?_)).trans ?_; try dsimp only) | (refine adminCmd_latch _ _ _ _ ?_; try dsimp only) | (refine provision_latch _ _ _ _  ?_; intros; try dsimp only) | (refine receive_latch _ _ _ _  ?_; intros; try dsimp only) | (refine fltReq_latch _ _ _ _  ?_; intros; try dsimp only) | simp)

theorem movBegin_clk (a0 : ℕ) (s : State) : (movBegin a0 s).clk = s.clk := by
  unfold movBegin
  try dsimp only
  repeat' (first | (simp; done) | (have h := appendRec_frame (by assumption); simp [h]; done) | (have h := takeSlot_frame (by assumption); simp [h]; done) | (have h := placePage_frame (by assumption); simp [h]; done) | (have h := placePart_frame (by assumption); simp [h]; done) | (have h := closeStream_frame (by assumption); simp [h]; done) | split | (refine (forAll_clk _ _ _ (fun x s => ?_)).trans ?_; try dsimp only) | (refine adminCmd_clk _ _ _ _ ?_; try dsimp only) | (refine provision_clk _ _ _ _  ?_; intros; try dsimp only) | (refine receive_clk _ _ _ _  ?_; intros; try dsimp only) | (refine fltReq_clk _ _ _ _  ?_; intros; try dsimp only) | simp)

theorem movBegin_thm (a0 : ℕ) (s : State) : (movBegin a0 s).thm = s.thm := by
  unfold movBegin
  try dsimp only
  repeat' (first | (simp; done) | (have h := appendRec_frame (by assumption); simp [h]; done) | (have h := takeSlot_frame (by assumption); simp [h]; done) | (have h := placePage_frame (by assumption); simp [h]; done) | (have h := placePart_frame (by assumption); simp [h]; done) | (have h := closeStream_frame (by assumption); simp [h]; done) | split | (refine (forAll_thm _ _ _ (fun x s => ?_)).trans ?_; try dsimp only) | (refine adminCmd_thm _ _ _ _ ?_; try dsimp only) | (refine provision_thm _ _ _ _  ?_; intros; try dsimp only) | (refine receive_thm _ _ _ _  ?_; intros; try dsimp only) | (refine fltReq_thm _ _ _ _  ?_; intros; try dsimp only) | simp)

@[simp] theorem movBegin_frame (a0 : ℕ) (s : State) :
    (movBegin a0 s).pending = s.pending ∧ (movBegin a0 s).latch = s.latch ∧ (movBegin a0 s).clk = s.clk ∧ (movBegin a0 s).thm = s.thm :=
  ⟨movBegin_pending a0 s, movBegin_latch a0 s, movBegin_clk a0 s, movBegin_thm a0 s⟩

@[simp] theorem eventPulse_frame (a0 : ℕ) (s : State) :
    (eventPulse a0 s).pending = s.pending ∧ (eventPulse a0 s).latch = s.latch ∧ (eventPulse a0 s).mem = s.mem ∧ (eventPulse a0 s).clk = s.clk ∧ (eventPulse a0 s).thm = s.thm ∧ (eventPulse a0 s).tck = s.tck ∧ (eventPulse a0 s).hif = s.hif ∧ (eventPulse a0 s).stm = s.stm ∧ (eventPulse a0 s).map = s.map ∧ (eventPulse a0 s).flc = s.flc ∧ (eventPulse a0 s).bnd = s.bnd ∧ (eventPulse a0 s).mbr = s.mbr ∧ (eventPulse a0 s).flt = s.flt ∧ (eventPulse a0 s).sec = s.sec ∧ (eventPulse a0 s).cpx = s.cpx ∧ (eventPulse a0 s).memc = s.memc ∧ (eventPulse a0 s).mov = s.mov ∧ (eventPulse a0 s).cst = s.cst ∧ (eventPulse a0 s).lnt = s.lnt ∧ (eventPulse a0 s).out = s.out ∧ (eventPulse a0 s).freeCtr = s.freeCtr := by
  unfold eventPulse
  try dsimp only
  first
    | (simp; done)
    | ((repeat' split) <;> simp; done)
    | (and_intros <;> (repeat' (first | (simp; done) | split)))

@[simp] theorem movRingEnd_frame (a0 : ℕ) (s : State) :
    (movRingEnd a0 s).pending = s.pending ∧ (movRingEnd a0 s).regs = s.regs ∧ (movRingEnd a0 s).latch = s.latch ∧ (movRingEnd a0 s).clk = s.clk ∧ (movRingEnd a0 s).thm = s.thm ∧ (movRingEnd a0 s).tck = s.tck ∧ (movRingEnd a0 s).hif = s.hif ∧ (movRingEnd a0 s).stm = s.stm ∧ (movRingEnd a0 s).map = s.map ∧ (movRingEnd a0 s).flc = s.flc ∧ (movRingEnd a0 s).bnd = s.bnd ∧ (movRingEnd a0 s).mbr = s.mbr ∧ (movRingEnd a0 s).flt = s.flt ∧ (movRingEnd a0 s).sec = s.sec ∧ (movRingEnd a0 s).cpx = s.cpx ∧ (movRingEnd a0 s).memc = s.memc ∧ (movRingEnd a0 s).mov = s.mov ∧ (movRingEnd a0 s).cst = s.cst ∧ (movRingEnd a0 s).lnt = s.lnt ∧ (movRingEnd a0 s).out = s.out ∧ (movRingEnd a0 s).freeCtr = s.freeCtr := by
  unfold movRingEnd
  try dsimp only
  first
    | (simp; done)
    | ((repeat' split) <;> simp; done)
    | (and_intros <;> (repeat' (first | (simp; done) | split)))

/-! ### Time -/

@[simp] theorem advance_frame (a0 : ℕ) (s : State) :
    (advance a0 s).pending = s.pending ∧ (advance a0 s).regs = s.regs ∧ (advance a0 s).latch = s.latch ∧ (advance a0 s).mem = s.mem ∧ (advance a0 s).sys = s.sys ∧ (advance a0 s).clk = s.clk ∧ (advance a0 s).thm = s.thm ∧ (advance a0 s).hif = s.hif ∧ (advance a0 s).stm = s.stm ∧ (advance a0 s).map = s.map ∧ (advance a0 s).flc = s.flc ∧ (advance a0 s).bnd = s.bnd ∧ (advance a0 s).mbr = s.mbr ∧ (advance a0 s).flt = s.flt ∧ (advance a0 s).sec = s.sec ∧ (advance a0 s).cpx = s.cpx ∧ (advance a0 s).memc = s.memc ∧ (advance a0 s).mov = s.mov ∧ (advance a0 s).cst = s.cst ∧ (advance a0 s).lnt = s.lnt ∧ (advance a0 s).out = s.out ∧ (advance a0 s).freeCtr = s.freeCtr := by
  unfold advance
  try dsimp only
  first
    | (simp; done)
    | ((repeat' split) <;> simp; done)
    | (and_intros <;> (repeat' (first | (simp; done) | split)))

@[simp] theorem setPps_frame (a0 : LockSt) (s : State) :
    (setPps a0 s).pending = s.pending ∧ (setPps a0 s).regs = s.regs ∧ (setPps a0 s).latch = s.latch ∧ (setPps a0 s).mem = s.mem ∧ (setPps a0 s).sys = s.sys ∧ (setPps a0 s).clk = s.clk ∧ (setPps a0 s).thm = s.thm ∧ (setPps a0 s).hif = s.hif ∧ (setPps a0 s).stm = s.stm ∧ (setPps a0 s).map = s.map ∧ (setPps a0 s).flc = s.flc ∧ (setPps a0 s).bnd = s.bnd ∧ (setPps a0 s).mbr = s.mbr ∧ (setPps a0 s).flt = s.flt ∧ (setPps a0 s).sec = s.sec ∧ (setPps a0 s).cpx = s.cpx ∧ (setPps a0 s).memc = s.memc ∧ (setPps a0 s).mov = s.mov ∧ (setPps a0 s).cst = s.cst ∧ (setPps a0 s).lnt = s.lnt ∧ (setPps a0 s).out = s.out ∧ (setPps a0 s).freeCtr = s.freeCtr := by
  unfold setPps
  try dsimp only
  first
    | (simp; done)
    | ((repeat' split) <;> simp; done)
    | (and_intros <;> (repeat' (first | (simp; done) | split)))

@[simp] theorem setTrim_frame (a0 : ℤ) (s : State) :
    (setTrim a0 s).pending = s.pending ∧ (setTrim a0 s).latch = s.latch ∧ (setTrim a0 s).mem = s.mem ∧ (setTrim a0 s).sys = s.sys ∧ (setTrim a0 s).clk = s.clk ∧ (setTrim a0 s).thm = s.thm ∧ (setTrim a0 s).hif = s.hif ∧ (setTrim a0 s).stm = s.stm ∧ (setTrim a0 s).map = s.map ∧ (setTrim a0 s).flc = s.flc ∧ (setTrim a0 s).bnd = s.bnd ∧ (setTrim a0 s).mbr = s.mbr ∧ (setTrim a0 s).flt = s.flt ∧ (setTrim a0 s).sec = s.sec ∧ (setTrim a0 s).cpx = s.cpx ∧ (setTrim a0 s).memc = s.memc ∧ (setTrim a0 s).mov = s.mov ∧ (setTrim a0 s).cst = s.cst ∧ (setTrim a0 s).lnt = s.lnt ∧ (setTrim a0 s).out = s.out ∧ (setTrim a0 s).freeCtr = s.freeCtr := by
  unfold setTrim
  try dsimp only
  first
    | (simp; done)
    | ((repeat' split) <;> simp; done)
    | (and_intros <;> (repeat' (first | (simp; done) | split)))

@[simp] theorem ppsAccept_frame (a0 : ℕ) (s : State) :
    (ppsAccept a0 s).pending = s.pending ∧ (ppsAccept a0 s).latch = s.latch ∧ (ppsAccept a0 s).mem = s.mem ∧ (ppsAccept a0 s).clk = s.clk ∧ (ppsAccept a0 s).thm = s.thm ∧ (ppsAccept a0 s).hif = s.hif ∧ (ppsAccept a0 s).stm = s.stm ∧ (ppsAccept a0 s).map = s.map ∧ (ppsAccept a0 s).flc = s.flc ∧ (ppsAccept a0 s).bnd = s.bnd ∧ (ppsAccept a0 s).mbr = s.mbr ∧ (ppsAccept a0 s).flt = s.flt ∧ (ppsAccept a0 s).sec = s.sec ∧ (ppsAccept a0 s).cpx = s.cpx ∧ (ppsAccept a0 s).memc = s.memc ∧ (ppsAccept a0 s).mov = s.mov ∧ (ppsAccept a0 s).cst = s.cst ∧ (ppsAccept a0 s).out = s.out ∧ (ppsAccept a0 s).freeCtr = s.freeCtr := by
  unfold ppsAccept
  try dsimp only
  first
    | (simp; done)
    | ((repeat' split) <;> simp; done)
    | (and_intros <;> (repeat' (first | (simp; done) | split)))

@[simp] theorem ppsFault_frame (s : State) :
    (ppsFault s).pending = s.pending ∧ (ppsFault s).latch = s.latch ∧ (ppsFault s).mem = s.mem ∧ (ppsFault s).clk = s.clk ∧ (ppsFault s).thm = s.thm ∧ (ppsFault s).hif = s.hif ∧ (ppsFault s).stm = s.stm ∧ (ppsFault s).map = s.map ∧ (ppsFault s).flc = s.flc ∧ (ppsFault s).bnd = s.bnd ∧ (ppsFault s).mbr = s.mbr ∧ (ppsFault s).flt = s.flt ∧ (ppsFault s).sec = s.sec ∧ (ppsFault s).cpx = s.cpx ∧ (ppsFault s).memc = s.memc ∧ (ppsFault s).mov = s.mov ∧ (ppsFault s).cst = s.cst ∧ (ppsFault s).out = s.out ∧ (ppsFault s).freeCtr = s.freeCtr := by
  unfold ppsFault
  try dsimp only
  first
    | (simp; done)
    | ((repeat' split) <;> simp; done)
    | (and_intros <;> (repeat' (first | (simp; done) | split)))

@[simp] theorem ppsJudge_frame (s : State) :
    (ppsJudge s).pending = s.pending ∧ (ppsJudge s).latch = s.latch ∧ (ppsJudge s).mem = s.mem ∧ (ppsJudge s).clk = s.clk ∧ (ppsJudge s).thm = s.thm ∧ (ppsJudge s).hif = s.hif ∧ (ppsJudge s).stm = s.stm ∧ (ppsJudge s).map = s.map ∧ (ppsJudge s).flc = s.flc ∧ (ppsJudge s).bnd = s.bnd ∧ (ppsJudge s).mbr = s.mbr ∧ (ppsJudge s).flt = s.flt ∧ (ppsJudge s).sec = s.sec ∧ (ppsJudge s).cpx = s.cpx ∧ (ppsJudge s).memc = s.memc ∧ (ppsJudge s).mov = s.mov ∧ (ppsJudge s).cst = s.cst ∧ (ppsJudge s).out = s.out ∧ (ppsJudge s).freeCtr = s.freeCtr := by
  unfold ppsJudge
  try dsimp only
  first
    | (simp; done)
    | ((repeat' split) <;> simp; done)
    | (and_intros <;> (repeat' (first | (simp; done) | split)))

@[simp] theorem storePpsCfg_frame (a0 : Word) (s : State) :
    (storePpsCfg a0 s).pending = s.pending ∧ (storePpsCfg a0 s).latch = s.latch ∧ (storePpsCfg a0 s).mem = s.mem ∧ (storePpsCfg a0 s).clk = s.clk ∧ (storePpsCfg a0 s).thm = s.thm ∧ (storePpsCfg a0 s).hif = s.hif ∧ (storePpsCfg a0 s).stm = s.stm ∧ (storePpsCfg a0 s).map = s.map ∧ (storePpsCfg a0 s).flc = s.flc ∧ (storePpsCfg a0 s).bnd = s.bnd ∧ (storePpsCfg a0 s).mbr = s.mbr ∧ (storePpsCfg a0 s).flt = s.flt ∧ (storePpsCfg a0 s).sec = s.sec ∧ (storePpsCfg a0 s).cpx = s.cpx ∧ (storePpsCfg a0 s).memc = s.memc ∧ (storePpsCfg a0 s).mov = s.mov ∧ (storePpsCfg a0 s).cst = s.cst ∧ (storePpsCfg a0 s).out = s.out ∧ (storePpsCfg a0 s).freeCtr = s.freeCtr := by
  unfold storePpsCfg
  try dsimp only
  first
    | (simp; done)
    | ((repeat' split) <;> simp; done)
    | (and_intros <;> (repeat' (first | (simp; done) | split)))

@[simp] theorem newFrameLen_frame (s : State) :
    (newFrameLen s).pending = s.pending ∧ (newFrameLen s).latch = s.latch ∧ (newFrameLen s).mem = s.mem ∧ (newFrameLen s).clk = s.clk ∧ (newFrameLen s).thm = s.thm ∧ (newFrameLen s).map = s.map ∧ (newFrameLen s).flc = s.flc ∧ (newFrameLen s).bnd = s.bnd ∧ (newFrameLen s).mbr = s.mbr ∧ (newFrameLen s).flt = s.flt ∧ (newFrameLen s).sec = s.sec ∧ (newFrameLen s).cpx = s.cpx ∧ (newFrameLen s).memc = s.memc ∧ (newFrameLen s).mov = s.mov ∧ (newFrameLen s).cst = s.cst ∧ (newFrameLen s).freeCtr = s.freeCtr := by
  unfold newFrameLen
  try dsimp only
  first
    | (simp; done)
    | ((repeat' split) <;> simp; done)
    | (and_intros <;> (repeat' (first | (simp; done) | split)))

@[simp] theorem frameStarts_frame (s : State) :
    (frameStarts s).pending = s.pending ∧ (frameStarts s).latch = s.latch ∧ (frameStarts s).clk = s.clk ∧ (frameStarts s).thm = s.thm ∧ (frameStarts s).hif = s.hif ∧ (frameStarts s).map = s.map ∧ (frameStarts s).flc = s.flc ∧ (frameStarts s).bnd = s.bnd ∧ (frameStarts s).mbr = s.mbr ∧ (frameStarts s).flt = s.flt ∧ (frameStarts s).sec = s.sec ∧ (frameStarts s).cpx = s.cpx ∧ (frameStarts s).memc = s.memc ∧ (frameStarts s).mov = s.mov ∧ (frameStarts s).cst = s.cst ∧ (frameStarts s).out = s.out ∧ (frameStarts s).freeCtr = s.freeCtr := by
  unfold frameStarts
  try dsimp only
  first
    | (simp; done)
    | ((repeat' split) <;> simp; done)
    | (and_intros <;> (repeat' (first | (simp; done) | split)))

@[simp] theorem pushPeriod_frame (s : State) :
    (pushPeriod s).pending = s.pending ∧ (pushPeriod s).regs = s.regs ∧ (pushPeriod s).latch = s.latch ∧ (pushPeriod s).mem = s.mem ∧ (pushPeriod s).sys = s.sys ∧ (pushPeriod s).clk = s.clk ∧ (pushPeriod s).thm = s.thm ∧ (pushPeriod s).hif = s.hif ∧ (pushPeriod s).stm = s.stm ∧ (pushPeriod s).map = s.map ∧ (pushPeriod s).flc = s.flc ∧ (pushPeriod s).bnd = s.bnd ∧ (pushPeriod s).mbr = s.mbr ∧ (pushPeriod s).flt = s.flt ∧ (pushPeriod s).sec = s.sec ∧ (pushPeriod s).cpx = s.cpx ∧ (pushPeriod s).memc = s.memc ∧ (pushPeriod s).mov = s.mov ∧ (pushPeriod s).cst = s.cst ∧ (pushPeriod s).lnt = s.lnt ∧ (pushPeriod s).out = s.out ∧ (pushPeriod s).freeCtr = s.freeCtr := by
  unfold pushPeriod
  try dsimp only
  first
    | (simp; done)
    | ((repeat' split) <;> simp; done)
    | (and_intros <;> (repeat' (first | (simp; done) | split)))

@[simp] theorem fsyncMiss_frame (s : State) :
    (fsyncMiss s).pending = s.pending ∧ (fsyncMiss s).latch = s.latch ∧ (fsyncMiss s).mem = s.mem ∧ (fsyncMiss s).clk = s.clk ∧ (fsyncMiss s).thm = s.thm ∧ (fsyncMiss s).hif = s.hif ∧ (fsyncMiss s).stm = s.stm ∧ (fsyncMiss s).map = s.map ∧ (fsyncMiss s).flc = s.flc ∧ (fsyncMiss s).bnd = s.bnd ∧ (fsyncMiss s).mbr = s.mbr ∧ (fsyncMiss s).flt = s.flt ∧ (fsyncMiss s).sec = s.sec ∧ (fsyncMiss s).cpx = s.cpx ∧ (fsyncMiss s).memc = s.memc ∧ (fsyncMiss s).mov = s.mov ∧ (fsyncMiss s).cst = s.cst ∧ (fsyncMiss s).out = s.out ∧ (fsyncMiss s).freeCtr = s.freeCtr := by
  unfold fsyncMiss
  try dsimp only
  first
    | (simp; done)
    | ((repeat' split) <;> simp; done)
    | (and_intros <;> (repeat' (first | (simp; done) | split)))

@[simp] theorem fsyncAcquire_frame (s : State) :
    (fsyncAcquire s).pending = s.pending ∧ (fsyncAcquire s).latch = s.latch ∧ (fsyncAcquire s).clk = s.clk ∧ (fsyncAcquire s).thm = s.thm ∧ (fsyncAcquire s).map = s.map ∧ (fsyncAcquire s).flc = s.flc ∧ (fsyncAcquire s).bnd = s.bnd ∧ (fsyncAcquire s).mbr = s.mbr ∧ (fsyncAcquire s).flt = s.flt ∧ (fsyncAcquire s).sec = s.sec ∧ (fsyncAcquire s).cpx = s.cpx ∧ (fsyncAcquire s).memc = s.memc ∧ (fsyncAcquire s).mov = s.mov ∧ (fsyncAcquire s).cst = s.cst ∧ (fsyncAcquire s).freeCtr = s.freeCtr := by
  unfold fsyncAcquire
  try dsimp only
  first
    | (simp; done)
    | ((repeat' split) <;> simp; done)
    | (and_intros <;> (repeat' (first | (simp; done) | split)))

@[simp] theorem fsyncLockedEdge_frame (s : State) :
    (fsyncLockedEdge s).pending = s.pending ∧ (fsyncLockedEdge s).latch = s.latch ∧ (fsyncLockedEdge s).clk = s.clk ∧ (fsyncLockedEdge s).thm = s.thm ∧ (fsyncLockedEdge s).map = s.map ∧ (fsyncLockedEdge s).flc = s.flc ∧ (fsyncLockedEdge s).bnd = s.bnd ∧ (fsyncLockedEdge s).mbr = s.mbr ∧ (fsyncLockedEdge s).flt = s.flt ∧ (fsyncLockedEdge s).sec = s.sec ∧ (fsyncLockedEdge s).cpx = s.cpx ∧ (fsyncLockedEdge s).memc = s.memc ∧ (fsyncLockedEdge s).mov = s.mov ∧ (fsyncLockedEdge s).cst = s.cst ∧ (fsyncLockedEdge s).freeCtr = s.freeCtr := by
  unfold fsyncLockedEdge
  try dsimp only
  first
    | (simp; done)
    | ((repeat' split) <;> simp; done)
    | (and_intros <;> (repeat' (first | (simp; done) | split)))

@[simp] theorem applyArmed_frame (s : State) :
    (applyArmed s).pending = s.pending ∧ (applyArmed s).regs = s.regs ∧ (applyArmed s).latch = s.latch ∧ (applyArmed s).mem = s.mem ∧ (applyArmed s).sys = s.sys ∧ (applyArmed s).clk = s.clk ∧ (applyArmed s).thm = s.thm ∧ (applyArmed s).hif = s.hif ∧ (applyArmed s).stm = s.stm ∧ (applyArmed s).map = s.map ∧ (applyArmed s).flc = s.flc ∧ (applyArmed s).bnd = s.bnd ∧ (applyArmed s).mbr = s.mbr ∧ (applyArmed s).flt = s.flt ∧ (applyArmed s).sec = s.sec ∧ (applyArmed s).cpx = s.cpx ∧ (applyArmed s).memc = s.memc ∧ (applyArmed s).mov = s.mov ∧ (applyArmed s).cst = s.cst ∧ (applyArmed s).lnt = s.lnt ∧ (applyArmed s).out = s.out ∧ (applyArmed s).freeCtr = s.freeCtr := by
  unfold applyArmed
  try dsimp only
  first
    | (simp; done)
    | ((repeat' split) <;> simp; done)
    | (and_intros <;> (repeat' (first | (simp; done) | split)))

/-! ### Thermal -/

@[simp] theorem enterBand_frame (a0 : ℕ) (s : State) :
    (enterBand a0 s).pending = s.pending ∧ (enterBand a0 s).latch = s.latch ∧ (enterBand a0 s).mem = s.mem ∧ (enterBand a0 s).clk = s.clk ∧ (enterBand a0 s).tck = s.tck ∧ (enterBand a0 s).hif = s.hif ∧ (enterBand a0 s).stm = s.stm ∧ (enterBand a0 s).map = s.map ∧ (enterBand a0 s).bnd = s.bnd ∧ (enterBand a0 s).mbr = s.mbr ∧ (enterBand a0 s).flt = s.flt ∧ (enterBand a0 s).sec = s.sec ∧ (enterBand a0 s).cpx = s.cpx ∧ (enterBand a0 s).memc = s.memc ∧ (enterBand a0 s).mov = s.mov ∧ (enterBand a0 s).cst = s.cst ∧ (enterBand a0 s).out = s.out ∧ (enterBand a0 s).freeCtr = s.freeCtr := by
  unfold enterBand
  try dsimp only
  first
    | (simp; done)
    | ((repeat' split) <;> simp; done)
    | (and_intros <;> (repeat' (first | (simp; done) | split)))

@[simp] theorem throttleApply_frame (s : State) :
    (throttleApply s).pending = s.pending ∧ (throttleApply s).latch = s.latch ∧ (throttleApply s).mem = s.mem ∧ (throttleApply s).clk = s.clk ∧ (throttleApply s).thm = s.thm ∧ (throttleApply s).map = s.map ∧ (throttleApply s).flc = s.flc ∧ (throttleApply s).bnd = s.bnd ∧ (throttleApply s).mbr = s.mbr ∧ (throttleApply s).flt = s.flt ∧ (throttleApply s).sec = s.sec ∧ (throttleApply s).cpx = s.cpx ∧ (throttleApply s).memc = s.memc ∧ (throttleApply s).mov = s.mov ∧ (throttleApply s).cst = s.cst ∧ (throttleApply s).freeCtr = s.freeCtr := by
  unfold throttleApply
  try dsimp only
  first
    | (simp; done)
    | ((repeat' split) <;> simp; done)
    | (and_intros <;> (repeat' (first | (simp; done) | split)))

@[simp] theorem throttle_frame (a0 : Bool) (s : State) :
    (throttle a0 s).pending = s.pending ∧ (throttle a0 s).latch = s.latch ∧ (throttle a0 s).mem = s.mem ∧ (throttle a0 s).clk = s.clk ∧ (throttle a0 s).map = s.map ∧ (throttle a0 s).flc = s.flc ∧ (throttle a0 s).bnd = s.bnd ∧ (throttle a0 s).mbr = s.mbr ∧ (throttle a0 s).flt = s.flt ∧ (throttle a0 s).sec = s.sec ∧ (throttle a0 s).cpx = s.cpx ∧ (throttle a0 s).memc = s.memc ∧ (throttle a0 s).mov = s.mov ∧ (throttle a0 s).cst = s.cst ∧ (throttle a0 s).freeCtr = s.freeCtr := by
  unfold throttle
  try dsimp only
  first
    | (simp; done)
    | ((repeat' split) <;> simp; done)
    | (and_intros <;> (repeat' (first | (simp; done) | split)))

theorem storeThmCfg_pending (a0 : Word) (s : State) : (storeThmCfg a0 s).pending = s.pending := by
  unfold storeThmCfg storeThen
  repeat' (first | (simp; done) | split)

theorem storeThmCfg_latch (a0 : Word) (s : State) : (storeThmCfg a0 s).latch = s.latch := by
  unfold storeThmCfg storeThen
  repeat' (first | (simp; done) | split)

theorem storeThmCfg_mem (a0 : Word) (s : State) : (storeThmCfg a0 s).mem = s.mem := by
  unfold storeThmCfg storeThen
  repeat' (first | (simp; done) | split)

theorem storeThmCfg_clk (a0 : Word) (s : State) : (storeThmCfg a0 s).clk = s.clk := by
  unfold storeThmCfg storeThen
  repeat' (first | (simp; done) | split)

theorem storeThmCfg_map (a0 : Word) (s : State) : (storeThmCfg a0 s).map = s.map := by
  unfold storeThmCfg storeThen
  repeat' (first | (simp; done) | split)

theorem storeThmCfg_flc (a0 : Word) (s : State) : (storeThmCfg a0 s).flc = s.flc := by
  unfold storeThmCfg storeThen
  repeat' (first | (simp; done) | split)

theorem storeThmCfg_bnd (a0 : Word) (s : State) : (storeThmCfg a0 s).bnd = s.bnd := by
  unfold storeThmCfg storeThen
  repeat' (first | (simp; done) | split)

theorem storeThmCfg_mbr (a0 : Word) (s : State) : (storeThmCfg a0 s).mbr = s.mbr := by
  unfold storeThmCfg storeThen
  repeat' (first | (simp; done) | split)

theorem storeThmCfg_flt (a0 : Word) (s : State) : (storeThmCfg a0 s).flt = s.flt := by
  unfold storeThmCfg storeThen
  repeat' (first | (simp; done) | split)

theorem storeThmCfg_sec (a0 : Word) (s : State) : (storeThmCfg a0 s).sec = s.sec := by
  unfold storeThmCfg storeThen
  repeat' (first | (simp; done) | split)

theorem storeThmCfg_cpx (a0 : Word) (s : State) : (storeThmCfg a0 s).cpx = s.cpx := by
  unfold storeThmCfg storeThen
  repeat' (first | (simp; done) | split)

theorem storeThmCfg_memc (a0 : Word) (s : State) : (storeThmCfg a0 s).memc = s.memc := by
  unfold storeThmCfg storeThen
  repeat' (first | (simp; done) | split)

theorem storeThmCfg_mov (a0 : Word) (s : State) : (storeThmCfg a0 s).mov = s.mov := by
  unfold storeThmCfg storeThen
  repeat' (first | (simp; done) | split)

theorem storeThmCfg_cst (a0 : Word) (s : State) : (storeThmCfg a0 s).cst = s.cst := by
  unfold storeThmCfg storeThen
  repeat' (first | (simp; done) | split)

theorem storeThmCfg_freeCtr (a0 : Word) (s : State) : (storeThmCfg a0 s).freeCtr = s.freeCtr := by
  unfold storeThmCfg storeThen
  repeat' (first | (simp; done) | split)

@[simp] theorem storeThmCfg_frame (a0 : Word) (s : State) :
    (storeThmCfg a0 s).pending = s.pending ∧ (storeThmCfg a0 s).latch = s.latch ∧ (storeThmCfg a0 s).mem = s.mem ∧ (storeThmCfg a0 s).clk = s.clk ∧ (storeThmCfg a0 s).map = s.map ∧ (storeThmCfg a0 s).flc = s.flc ∧ (storeThmCfg a0 s).bnd = s.bnd ∧ (storeThmCfg a0 s).mbr = s.mbr ∧ (storeThmCfg a0 s).flt = s.flt ∧ (storeThmCfg a0 s).sec = s.sec ∧ (storeThmCfg a0 s).cpx = s.cpx ∧ (storeThmCfg a0 s).memc = s.memc ∧ (storeThmCfg a0 s).mov = s.mov ∧ (storeThmCfg a0 s).cst = s.cst ∧ (storeThmCfg a0 s).freeCtr = s.freeCtr :=
  ⟨storeThmCfg_pending a0 s, storeThmCfg_latch a0 s, storeThmCfg_mem a0 s, storeThmCfg_clk a0 s, storeThmCfg_map a0 s, storeThmCfg_flc a0 s, storeThmCfg_bnd a0 s, storeThmCfg_mbr a0 s, storeThmCfg_flt a0 s, storeThmCfg_sec a0 s, storeThmCfg_cpx a0 s, storeThmCfg_memc a0 s, storeThmCfg_mov a0 s, storeThmCfg_cst a0 s, storeThmCfg_freeCtr a0 s⟩

@[simp] theorem trip_frame (a0 : ℕ) (a1 : ℤ) (s : State) :
    (trip a0 a1 s).pending = s.pending ∧ (trip a0 a1 s).latch = s.latch ∧ (trip a0 a1 s).mem = s.mem ∧ (trip a0 a1 s).clk = s.clk ∧ (trip a0 a1 s).tck = s.tck ∧ (trip a0 a1 s).stm = s.stm ∧ (trip a0 a1 s).map = s.map ∧ (trip a0 a1 s).flc = s.flc ∧ (trip a0 a1 s).bnd = s.bnd ∧ (trip a0 a1 s).mbr = s.mbr ∧ (trip a0 a1 s).flt = s.flt ∧ (trip a0 a1 s).cpx = s.cpx ∧ (trip a0 a1 s).memc = s.memc ∧ (trip a0 a1 s).mov = s.mov ∧ (trip a0 a1 s).out = s.out ∧ (trip a0 a1 s).freeCtr = s.freeCtr := by
  unfold trip
  try dsimp only
  first
    | (simp; done)
    | ((repeat' split) <;> simp; done)
    | (and_intros <;> (repeat' (first | (simp; done) | split)))

/-! ### Firmware -/

@[simp] theorem cstRefuse_frame (a0 : ℕ) (a1 : ℕ) (a2 : ℕ) (s : State) :
    (cstRefuse a0 a1 a2 s).pending = s.pending ∧ (cstRefuse a0 a1 a2 s).latch = s.latch ∧ (cstRefuse a0 a1 a2 s).mem = s.mem ∧ (cstRefuse a0 a1 a2 s).clk = s.clk ∧ (cstRefuse a0 a1 a2 s).thm = s.thm ∧ (cstRefuse a0 a1 a2 s).tck = s.tck ∧ (cstRefuse a0 a1 a2 s).hif = s.hif ∧ (cstRefuse a0 a1 a2 s).stm = s.stm ∧ (cstRefuse a0 a1 a2 s).map = s.map ∧ (cstRefuse a0 a1 a2 s).flc = s.flc ∧ (cstRefuse a0 a1 a2 s).bnd = s.bnd ∧ (cstRefuse a0 a1 a2 s).mbr = s.mbr ∧ (cstRefuse a0 a1 a2 s).flt = s.flt ∧ (cstRefuse a0 a1 a2 s).sec = s.sec ∧ (cstRefuse a0 a1 a2 s).cpx = s.cpx ∧ (cstRefuse a0 a1 a2 s).memc = s.memc ∧ (cstRefuse a0 a1 a2 s).mov = s.mov ∧ (cstRefuse a0 a1 a2 s).cst = s.cst ∧ (cstRefuse a0 a1 a2 s).out = s.out ∧ (cstRefuse a0 a1 a2 s).freeCtr = s.freeCtr := by
  unfold cstRefuse
  try dsimp only
  first
    | (simp; done)
    | ((repeat' split) <;> simp; done)
    | (and_intros <;> (repeat' (first | (simp; done) | split)))

@[simp] theorem settingsFail_frame (a0 : ℕ) (s : State) :
    (settingsFail a0 s).pending = s.pending ∧ (settingsFail a0 s).latch = s.latch ∧ (settingsFail a0 s).mem = s.mem ∧ (settingsFail a0 s).clk = s.clk ∧ (settingsFail a0 s).thm = s.thm ∧ (settingsFail a0 s).tck = s.tck ∧ (settingsFail a0 s).stm = s.stm ∧ (settingsFail a0 s).map = s.map ∧ (settingsFail a0 s).flc = s.flc ∧ (settingsFail a0 s).bnd = s.bnd ∧ (settingsFail a0 s).mbr = s.mbr ∧ (settingsFail a0 s).flt = s.flt ∧ (settingsFail a0 s).cpx = s.cpx ∧ (settingsFail a0 s).memc = s.memc ∧ (settingsFail a0 s).mov = s.mov ∧ (settingsFail a0 s).out = s.out ∧ (settingsFail a0 s).freeCtr = s.freeCtr := by
  unfold settingsFail
  try dsimp only
  first
    | (simp; done)
    | ((repeat' split) <;> simp; done)
    | (and_intros <;> (repeat' (first | (simp; done) | split)))

@[simp] theorem imageTorn_frame (a0 : ℕ) (s : State) :
    (imageTorn a0 s).pending = s.pending ∧ (imageTorn a0 s).regs = s.regs ∧ (imageTorn a0 s).latch = s.latch ∧ (imageTorn a0 s).mem = s.mem ∧ (imageTorn a0 s).sys = s.sys ∧ (imageTorn a0 s).clk = s.clk ∧ (imageTorn a0 s).thm = s.thm ∧ (imageTorn a0 s).tck = s.tck ∧ (imageTorn a0 s).hif = s.hif ∧ (imageTorn a0 s).stm = s.stm ∧ (imageTorn a0 s).map = s.map ∧ (imageTorn a0 s).flc = s.flc ∧ (imageTorn a0 s).bnd = s.bnd ∧ (imageTorn a0 s).mbr = s.mbr ∧ (imageTorn a0 s).flt = s.flt ∧ (imageTorn a0 s).sec = s.sec ∧ (imageTorn a0 s).cpx = s.cpx ∧ (imageTorn a0 s).memc = s.memc ∧ (imageTorn a0 s).mov = s.mov ∧ (imageTorn a0 s).lnt = s.lnt ∧ (imageTorn a0 s).out = s.out ∧ (imageTorn a0 s).freeCtr = s.freeCtr := by
  unfold imageTorn
  try dsimp only
  first
    | (simp; done)
    | ((repeat' split) <;> simp; done)
    | (and_intros <;> (repeat' (first | (simp; done) | split)))

@[simp] theorem setSlotAt_frame (a0 : ℕ) (a1 : ImgSlot → ImgSlot) (s : State) :
    (setSlotAt a0 a1 s).pending = s.pending ∧ (setSlotAt a0 a1 s).regs = s.regs ∧ (setSlotAt a0 a1 s).latch = s.latch ∧ (setSlotAt a0 a1 s).mem = s.mem ∧ (setSlotAt a0 a1 s).sys = s.sys ∧ (setSlotAt a0 a1 s).clk = s.clk ∧ (setSlotAt a0 a1 s).thm = s.thm ∧ (setSlotAt a0 a1 s).tck = s.tck ∧ (setSlotAt a0 a1 s).hif = s.hif ∧ (setSlotAt a0 a1 s).stm = s.stm ∧ (setSlotAt a0 a1 s).map = s.map ∧ (setSlotAt a0 a1 s).flc = s.flc ∧ (setSlotAt a0 a1 s).bnd = s.bnd ∧ (setSlotAt a0 a1 s).mbr = s.mbr ∧ (setSlotAt a0 a1 s).flt = s.flt ∧ (setSlotAt a0 a1 s).sec = s.sec ∧ (setSlotAt a0 a1 s).cpx = s.cpx ∧ (setSlotAt a0 a1 s).memc = s.memc ∧ (setSlotAt a0 a1 s).mov = s.mov ∧ (setSlotAt a0 a1 s).lnt = s.lnt ∧ (setSlotAt a0 a1 s).out = s.out ∧ (setSlotAt a0 a1 s).freeCtr = s.freeCtr := by
  unfold setSlotAt
  try dsimp only
  first
    | (simp; done)
    | ((repeat' split) <;> simp; done)
    | (and_intros <;> (repeat' (first | (simp; done) | split)))

@[simp] theorem commitDone_frame (a0 : CommitSrc) (a1 : ℕ) (a2 : ℕ) (a3 : ℕ) (s : State) :
    (commitDone a0 a1 a2 a3 s).pending = s.pending ∧ (commitDone a0 a1 a2 a3 s).latch = s.latch ∧ (commitDone a0 a1 a2 a3 s).mem = s.mem ∧ (commitDone a0 a1 a2 a3 s).sys = s.sys ∧ (commitDone a0 a1 a2 a3 s).clk = s.clk ∧ (commitDone a0 a1 a2 a3 s).thm = s.thm ∧ (commitDone a0 a1 a2 a3 s).tck = s.tck ∧ (commitDone a0 a1 a2 a3 s).stm = s.stm ∧ (commitDone a0 a1 a2 a3 s).map = s.map ∧ (commitDone a0 a1 a2 a3 s).flc = s.flc ∧ (commitDone a0 a1 a2 a3 s).bnd = s.bnd ∧ (commitDone a0 a1 a2 a3 s).mbr = s.mbr ∧ (commitDone a0 a1 a2 a3 s).flt = s.flt ∧ (commitDone a0 a1 a2 a3 s).sec = s.sec ∧ (commitDone a0 a1 a2 a3 s).cpx = s.cpx ∧ (commitDone a0 a1 a2 a3 s).memc = s.memc ∧ (commitDone a0 a1 a2 a3 s).mov = s.mov ∧ (commitDone a0 a1 a2 a3 s).cst = s.cst ∧ (commitDone a0 a1 a2 a3 s).freeCtr = s.freeCtr := by
  unfold commitDone
  try dsimp only
  first
    | (simp; done)
    | ((repeat' split) <;> simp; done)
    | (and_intros <;> (repeat' (first | (simp; done) | split)))

@[simp] theorem markPending_frame (a0 : ℕ) (s : State) :
    (markPending a0 s).pending = s.pending ∧ (markPending a0 s).regs = s.regs ∧ (markPending a0 s).latch = s.latch ∧ (markPending a0 s).mem = s.mem ∧ (markPending a0 s).sys = s.sys ∧ (markPending a0 s).clk = s.clk ∧ (markPending a0 s).thm = s.thm ∧ (markPending a0 s).tck = s.tck ∧ (markPending a0 s).hif = s.hif ∧ (markPending a0 s).stm = s.stm ∧ (markPending a0 s).map = s.map ∧ (markPending a0 s).flc = s.flc ∧ (markPending a0 s).bnd = s.bnd ∧ (markPending a0 s).mbr = s.mbr ∧ (markPending a0 s).flt = s.flt ∧ (markPending a0 s).sec = s.sec ∧ (markPending a0 s).cpx = s.cpx ∧ (markPending a0 s).memc = s.memc ∧ (markPending a0 s).mov = s.mov ∧ (markPending a0 s).lnt = s.lnt ∧ (markPending a0 s).out = s.out ∧ (markPending a0 s).freeCtr = s.freeCtr := by
  unfold markPending
  try dsimp only
  first
    | (simp; done)
    | ((repeat' split) <;> simp; done)
    | (and_intros <;> (repeat' (first | (simp; done) | split)))

@[simp] theorem commitBegin_frame (a0 : Commit) (s : State) :
    (commitBegin a0 s).pending = s.pending ∧ (commitBegin a0 s).latch = s.latch ∧ (commitBegin a0 s).mem = s.mem ∧ (commitBegin a0 s).clk = s.clk ∧ (commitBegin a0 s).thm = s.thm ∧ (commitBegin a0 s).tck = s.tck ∧ (commitBegin a0 s).stm = s.stm ∧ (commitBegin a0 s).map = s.map ∧ (commitBegin a0 s).flc = s.flc ∧ (commitBegin a0 s).mbr = s.mbr ∧ (commitBegin a0 s).flt = s.flt ∧ (commitBegin a0 s).sec = s.sec ∧ (commitBegin a0 s).cpx = s.cpx ∧ (commitBegin a0 s).memc = s.memc ∧ (commitBegin a0 s).mov = s.mov ∧ (commitBegin a0 s).freeCtr = s.freeCtr := by
  unfold commitBegin
  try dsimp only
  first
    | (simp; done)
    | ((repeat' split) <;> simp; done)
    | (and_intros <;> (repeat' (first | (simp; done) | split)))

@[simp] theorem commitNext_frame (a0 : ℕ) (s : State) :
    (commitNext a0 s).pending = s.pending ∧ (commitNext a0 s).latch = s.latch ∧ (commitNext a0 s).mem = s.mem ∧ (commitNext a0 s).clk = s.clk ∧ (commitNext a0 s).thm = s.thm ∧ (commitNext a0 s).tck = s.tck ∧ (commitNext a0 s).stm = s.stm ∧ (commitNext a0 s).map = s.map ∧ (commitNext a0 s).flc = s.flc ∧ (commitNext a0 s).mbr = s.mbr ∧ (commitNext a0 s).flt = s.flt ∧ (commitNext a0 s).sec = s.sec ∧ (commitNext a0 s).cpx = s.cpx ∧ (commitNext a0 s).memc = s.memc ∧ (commitNext a0 s).mov = s.mov ∧ (commitNext a0 s).freeCtr = s.freeCtr := by
  induction a0 generalizing s with
  | zero => simp [commitNext]
  | succ fuel ih =>
  unfold commitNext
  try dsimp only
  and_intros
  · repeat' (first | (simp; done) | (simp [*]; done) | (have h := appendRec_frame (by assumption); simp [h, *]; done) | (have h := takeSlot_frame (by assumption); simp [h, *]; done) | (have h := placePage_frame (by assumption); simp [h, *]; done) | (have h := placePart_frame (by assumption); simp [h, *]; done) | (have h := closeStream_frame (by assumption); simp [h, *]; done) | split | (refine (forAll_pending _ _ _ (fun x s => ?_)).trans ?_; try dsimp only) | (refine adminCmd_pending _ _ _ _ ?_; try dsimp only) | (refine provision_pending _ _ _ _  ?_; intros; try dsimp only) | (refine receive_pending _ _ _ _  ?_; intros; try dsimp only) | (refine fltReq_pending _ _ _ _  ?_; intros; try dsimp only) | simp)
  · repeat' (first | (simp; done) | (simp [*]; done) | (have h := appendRec_frame (by assumption); simp [h, *]; done) | (have h := takeSlot_frame (by assumption); simp [h, *]; done) | (have h := placePage_frame (by assumption); simp [h, *]; done) | (have h := placePart_frame (by assumption); simp [h, *]; done) | (have h := closeStream_frame (by assumption); simp [h, *]; done) | split | (refine (forAll_latch _ _ _ (fun x s => ?_)).trans ?_; try dsimp only) | (refine adminCmd_latch _ _ _ _ ?_; try dsimp only) | (refine provision_latch _ _ _ _  ?_; intros; try dsimp only) | (refine receive_latch _ _ _ _  ?_; intros; try dsimp only) | (refine fltReq_latch _ _ _ _  ?_; intros; try dsimp only) | simp)
  · repeat' (first | (simp; done) | (simp [*]; done) | (have h := appendRec_frame (by assumption); simp [h, *]; done) | (have h := takeSlot_frame (by assumption); simp [h, *]; done) | (have h := placePage_frame (by assumption); simp [h, *]; done) | (have h := placePart_frame (by assumption); simp [h, *]; done) | (have h := closeStream_frame (by assumption); simp [h, *]; done) | split | (refine (forAll_mem _ _ _ (fun x s => ?_)).trans ?_; try dsimp only) | (refine adminCmd_mem _ _ _ _ ?_; try dsimp only) | (refine provision_mem _ _ _ _  ?_; intros; try dsimp only) | (refine receive_mem _ _ _ _  ?_; intros; try dsimp only) | (refine fltReq_mem _ _ _ _  ?_; intros; try dsimp only) | simp)
  · repeat' (first | (simp; done) | (simp [*]; done) | (have h := appendRec_frame (by assumption); simp [h, *]; done) | (have h := takeSlot_frame (by assumption); simp [h, *]; done) | (have h := placePage_frame (by assumption); simp [h, *]; done) | (have h := placePart_frame (by assumption); simp [h, *]; done) | (have h := closeStream_frame (by assumption); simp [h, *]; done) | split | (refine (forAll_clk _ _ _ (fun x s => ?_)).trans ?_; try dsimp only) | (refine adminCmd_clk _ _ _ _ ?_; try dsimp only) | (refine provision_clk _ _ _ _  ?_; intros; try dsimp only) | (refine receive_clk _ _ _ _  ?_; intros; try dsimp only) | (refine fltReq_clk _ _ _ _  ?_; intros; try dsimp only) | simp)
  · repeat' (first | (simp; done) | (simp [*]; done) | (have h := appendRec_frame (by assumption); simp [h, *]; done) | (have h := takeSlot_frame (by assumption); simp [h, *]; done) | (have h := placePage_frame (by assumption); simp [h, *]; done) | (have h := placePart_frame (by assumption); simp [h, *]; done) | (have h := closeStream_frame (by assumption); simp [h, *]; done) | split | (refine (forAll_thm _ _ _ (fun x s => ?_)).trans ?_; try dsimp only) | (refine adminCmd_thm _ _ _ _ ?_; try dsimp only) | (refine provision_thm _ _ _ _  ?_; intros; try dsimp only) | (refine receive_thm _ _ _ _  ?_; intros; try dsimp only) | (refine fltReq_thm _ _ _ _  ?_; intros; try dsimp only) | simp)
  · repeat' (first | (simp; done) | (simp [*]; done) | (have h := appendRec_frame (by assumption); simp [h, *]; done) | (have h := takeSlot_frame (by assumption); simp [h, *]; done) | (have h := placePage_frame (by assumption); simp [h, *]; done) | (have h := placePart_frame (by assumption); simp [h, *]; done) | (have h := closeStream_frame (by assumption); simp [h, *]; done) | split | (refine (forAll_tck _ _ _ (fun x s => ?_)).trans ?_; try dsimp only) | (refine adminCmd_tck _ _ _ _ ?_; try dsimp only) | (refine provision_tck _ _ _ _  ?_; intros; try dsimp only) | (refine receive_tck _ _ _ _  ?_; intros; try dsimp only) | (refine fltReq_tck _ _ _ _  ?_; intros; try dsimp only) | simp)
  · repeat' (first | (simp; done) | (simp [*]; done) | (have h := appendRec_frame (by assumption); simp [h, *]; done) | (have h := takeSlot_frame (by assumption); simp [h, *]; done) | (have h := placePage_frame (by assumption); simp [h, *]; done) | (have h := placePart_frame (by assumption); simp [h, *]; done) | (have h := closeStream_frame (by assumption); simp [h, *]; done) | split | (refine (forAll_stm _ _ _ (fun x s => ?_)).trans ?_; try dsimp only) | (refine adminCmd_stm _ _ _ _ ?_; try dsimp only) | (refine provision_stm _ _ _ _  ?_; intros; try dsimp only) | (refine receive_stm _ _ _ _  ?_; intros; try dsimp only) | (refine fltReq_stm _ _ _ _  ?_; intros; try dsimp only) | simp)
  · repeat' (first | (simp; done) | (simp [*]; done) | (have h := appendRec_frame (by assumption); simp [h, *]; done) | (have h := takeSlot_frame (by assumption); simp [h, *]; done) | (have h := placePage_frame (by assumption); simp [h, *]; done) | (have h := placePart_frame (by assumption); simp [h, *]; done) | (have h := closeStream_frame (by assumption); simp [h, *]; done) | split | (refine (forAll_map _ _ _ (fun x s => ?_)).trans ?_; try dsimp only) | (refine adminCmd_map _ _ _ _ ?_; try dsimp only) | (refine provision_map _ _ _ _  ?_; intros; try dsimp only) | (refine receive_map _ _ _ _  ?_; intros; try dsimp only) | (refine fltReq_map _ _ _ _  ?_; intros; try dsimp only) | simp)
  · repeat' (first | (simp; done) | (simp [*]; done) | (have h := appendRec_frame (by assumption); simp [h, *]; done) | (have h := takeSlot_frame (by assumption); simp [h, *]; done) | (have h := placePage_frame (by assumption); simp [h, *]; done) | (have h := placePart_frame (by assumption); simp [h, *]; done) | (have h := closeStream_frame (by assumption); simp [h, *]; done) | split | (refine (forAll_flc _ _ _ (fun x s => ?_)).trans ?_; try dsimp only) | (refine adminCmd_flc _ _ _ _ ?_; try dsimp only) | (refine provision_flc _ _ _ _  ?_; intros; try dsimp only) | (refine receive_flc _ _ _ _  ?_; intros; try dsimp only) | (refine fltReq_flc _ _ _ _  ?_; intros; try dsimp only) | simp)
  · repeat' (first | (simp; done) | (simp [*]; done) | (have h := appendRec_frame (by assumption); simp [h, *]; done) | (have h := takeSlot_frame (by assumption); simp [h, *]; done) | (have h := placePage_frame (by assumption); simp [h, *]; done) | (have h := placePart_frame (by assumption); simp [h, *]; done) | (have h := closeStream_frame (by assumption); simp [h, *]; done) | split | (refine (forAll_mbr _ _ _ (fun x s => ?_)).trans ?_; try dsimp only) | (refine adminCmd_mbr _ _ _ _ ?_; try dsimp only) | (refine provision_mbr _ _ _ _  ?_; intros; try dsimp only) | (refine receive_mbr _ _ _ _  ?_; intros; try dsimp only) | (refine fltReq_mbr _ _ _ _  ?_; intros; try dsimp only) | simp)
  · repeat' (first | (simp; done) | (simp [*]; done) | (have h := appendRec_frame (by assumption); simp [h, *]; done) | (have h := takeSlot_frame (by assumption); simp [h, *]; done) | (have h := placePage_frame (by assumption); simp [h, *]; done) | (have h := placePart_frame (by assumption); simp [h, *]; done) | (have h := closeStream_frame (by assumption); simp [h, *]; done) | split | (refine (forAll_flt _ _ _ (fun x s => ?_)).trans ?_; try dsimp only) | (refine adminCmd_flt _ _ _ _ ?_; try dsimp only) | (refine provision_flt _ _ _ _  ?_; intros; try dsimp only) | (refine fltReq_flt _ _ _ _  ?_; intros; try dsimp only) | simp)
  · repeat' (first | (simp; done) | (simp [*]; done) | (have h := appendRec_frame (by assumption); simp [h, *]; done) | (have h := takeSlot_frame (by assumption); simp [h, *]; done) | (have h := placePage_frame (by assumption); simp [h, *]; done) | (have h := placePart_frame (by assumption); simp [h, *]; done) | (have h := closeStream_frame (by assumption); simp [h, *]; done) | split | (refine (forAll_sec _ _ _ (fun x s => ?_)).trans ?_; try dsimp only) | (refine adminCmd_sec _ _ _ _ ?_; try dsimp only) | (refine receive_sec _ _ _ _  ?_; intros; try dsimp only) | (refine fltReq_sec _ _ _ _  ?_; intros; try dsimp only) | simp)
  · repeat' (first | (simp; done) | (simp [*]; done) | (have h := appendRec_frame (by assumption); simp [h, *]; done) | (have h := takeSlot_frame (by assumption); simp [h, *]; done) | (have h := placePage_frame (by assumption); simp [h, *]; done) | (have h := placePart_frame (by assumption); simp [h, *]; done) | (have h := closeStream_frame (by assumption); simp [h, *]; done) | split | (refine (forAll_cpx _ _ _ (fun x s => ?_)).trans ?_; try dsimp only) | (refine adminCmd_cpx _ _ _ _ ?_; try dsimp only) | (refine provision_cpx _ _ _ _  ?_; intros; try dsimp only) | (refine receive_cpx _ _ _ _  ?_; intros; try dsimp only) | (refine fltReq_cpx _ _ _ _  ?_; intros; try dsimp only) | simp)
  · repeat' (first | (simp; done) | (simp [*]; done) | (have h := appendRec_frame (by assumption); simp [h, *]; done) | (have h := takeSlot_frame (by assumption); simp [h, *]; done) | (have h := placePage_frame (by assumption); simp [h, *]; done) | (have h := placePart_frame (by assumption); simp [h, *]; done) | (have h := closeStream_frame (by assumption); simp [h, *]; done) | split | (refine (forAll_memc _ _ _ (fun x s => ?_)).trans ?_; try dsimp only) | (refine adminCmd_memc _ _ _ _ ?_; try dsimp only) | (refine provision_memc _ _ _ _  ?_; intros; try dsimp only) | (refine receive_memc _ _ _ _  ?_; intros; try dsimp only) | (refine fltReq_memc _ _ _ _  ?_; intros; try dsimp only) | simp)
  · repeat' (first | (simp; done) | (simp [*]; done) | (have h := appendRec_frame (by assumption); simp [h, *]; done) | (have h := takeSlot_frame (by assumption); simp [h, *]; done) | (have h := placePage_frame (by assumption); simp [h, *]; done) | (have h := placePart_frame (by assumption); simp [h, *]; done) | (have h := closeStream_frame (by assumption); simp [h, *]; done) | split | (refine (forAll_mov _ _ _ (fun x s => ?_)).trans ?_; try dsimp only) | (refine adminCmd_mov _ _ _ _ ?_; try dsimp only) | (refine provision_mov _ _ _ _  ?_; intros; try dsimp only) | (refine receive_mov _ _ _ _  ?_; intros; try dsimp only) | (refine fltReq_mov _ _ _ _  ?_; intros; try dsimp only) | simp)
  · repeat' (first | (simp; done) | (simp [*]; done) | (have h := appendRec_frame (by assumption); simp [h, *]; done) | (have h := takeSlot_frame (by assumption); simp [h, *]; done) | (have h := placePage_frame (by assumption); simp [h, *]; done) | (have h := placePart_frame (by assumption); simp [h, *]; done) | (have h := closeStream_frame (by assumption); simp [h, *]; done) | split | (refine (forAll_freeCtr _ _ _ (fun x s => ?_)).trans ?_; try dsimp only) | (refine adminCmd_freeCtr _ _ _ _ ?_; try dsimp only) | (refine provision_freeCtr _ _ _ _  ?_; intros; try dsimp only) | (refine receive_freeCtr _ _ _ _  ?_; intros; try dsimp only) | (refine fltReq_freeCtr _ _ _ _  ?_; intros; try dsimp only) | simp)

theorem commitReq_pending (a0 : CommitSrc) (a1 : ℕ) (a2 : ℕ) (s : State) : (commitReq a0 a1 a2 s).pending = s.pending := by
  unfold commitReq
  try dsimp only
  repeat' (first | (simp; done) | (have h := appendRec_frame (by assumption); simp [h]; done) | (have h := takeSlot_frame (by assumption); simp [h]; done) | (have h := placePage_frame (by assumption); simp [h]; done) | (have h := placePart_frame (by assumption); simp [h]; done) | (have h := closeStream_frame (by assumption); simp [h]; done) | split | (refine (forAll_pending _ _ _ (fun x s => ?_)).trans ?_; try dsimp only) | (refine adminCmd_pending _ _ _ _ ?_; try dsimp only) | (refine provision_pending _ _ _ _  ?_; intros; try dsimp only) | (refine receive_pending _ _ _ _  ?_; intros; try dsimp only) | (refine fltReq_pending _ _ _ _  ?_; intros; try dsimp only) | simp)

theorem commitReq_latch (a0 : CommitSrc) (a1 : ℕ) (a2 : ℕ) (s : State) : (commitReq a0 a1 a2 s).latch = s.latch := by
  unfold commitReq
  try dsimp only
  repeat' (first | (simp; done) | (have h := appendRec_frame (by assumption); simp [h]; done) | (have h := takeSlot_frame (by assumption); simp [h]; done) | (have h := placePage_frame (by assumption); simp [h]; done) | (have h := placePart_frame (by assumption); simp [h]; done) | (have h := closeStream_frame (by assumption); simp [h]; done) | split | (refine (forAll_latch _ _ _ (fun x s => ?_)).trans ?_; try dsimp only) | (refine adminCmd_latch _ _ _ _ ?_; try dsimp only) | (refine provision_latch _ _ _ _  ?_; intros; try dsimp only) | (refine receive_latch _ _ _ _  ?_; intros; try dsimp only) | (refine fltReq_latch _ _ _ _  ?_; intros; try dsimp only) | simp)

theorem commitReq_mem (a0 : CommitSrc) (a1 : ℕ) (a2 : ℕ) (s : State) : (commitReq a0 a1 a2 s).mem = s.mem := by
  unfold commitReq
  try dsimp only
  repeat' (first | (simp; done) | (have h := appendRec_frame (by assumption); simp [h]; done) | (have h := takeSlot_frame (by assumption); simp [h]; done) | (have h := placePage_frame (by assumption); simp [h]; done) | (have h := placePart_frame (by assumption); simp [h]; done) | (have h := closeStream_frame (by assumption); simp [h]; done) | split | (refine (forAll_mem _ _ _ (fun x s => ?_)).trans ?_; try dsimp only) | (refine adminCmd_mem _ _ _ _ ?_; try dsimp only) | (refine provision_mem _ _ _ _  ?_; intros; try dsimp only) | (refine receive_mem _ _ _ _  ?_; intros; try dsimp only) | (refine fltReq_mem _ _ _ _  ?_; intros; try dsimp only) | simp)

theorem commitReq_clk (a0 : CommitSrc) (a1 : ℕ) (a2 : ℕ) (s : State) : (commitReq a0 a1 a2 s).clk = s.clk := by
  unfold commitReq
  try dsimp only
  repeat' (first | (simp; done) | (have h := appendRec_frame (by assumption); simp [h]; done) | (have h := takeSlot_frame (by assumption); simp [h]; done) | (have h := placePage_frame (by assumption); simp [h]; done) | (have h := placePart_frame (by assumption); simp [h]; done) | (have h := closeStream_frame (by assumption); simp [h]; done) | split | (refine (forAll_clk _ _ _ (fun x s => ?_)).trans ?_; try dsimp only) | (refine adminCmd_clk _ _ _ _ ?_; try dsimp only) | (refine provision_clk _ _ _ _  ?_; intros; try dsimp only) | (refine receive_clk _ _ _ _  ?_; intros; try dsimp only) | (refine fltReq_clk _ _ _ _  ?_; intros; try dsimp only) | simp)

theorem commitReq_thm (a0 : CommitSrc) (a1 : ℕ) (a2 : ℕ) (s : State) : (commitReq a0 a1 a2 s).thm = s.thm := by
  unfold commitReq
  try dsimp only
  repeat' (first | (simp; done) | (have h := appendRec_frame (by assumption); simp [h]; done) | (have h := takeSlot_frame (by assumption); simp [h]; done) | (have h := placePage_frame (by assumption); simp [h]; done) | (have h := placePart_frame (by assumption); simp [h]; done) | (have h := closeStream_frame (by assumption); simp [h]; done) | split | (refine (forAll_thm _ _ _ (fun x s => ?_)).trans ?_; try dsimp only) | (refine adminCmd_thm _ _ _ _ ?_; try dsimp only) | (refine provision_thm _ _ _ _  ?_; intros; try dsimp only) | (refine receive_thm _ _ _ _  ?_; intros; try dsimp only) | (refine fltReq_thm _ _ _ _  ?_; intros; try dsimp only) | simp)

theorem commitReq_tck (a0 : CommitSrc) (a1 : ℕ) (a2 : ℕ) (s : State) : (commitReq a0 a1 a2 s).tck = s.tck := by
  unfold commitReq
  try dsimp only
  repeat' (first | (simp; done) | (have h := appendRec_frame (by assumption); simp [h]; done) | (have h := takeSlot_frame (by assumption); simp [h]; done) | (have h := placePage_frame (by assumption); simp [h]; done) | (have h := placePart_frame (by assumption); simp [h]; done) | (have h := closeStream_frame (by assumption); simp [h]; done) | split | (refine (forAll_tck _ _ _ (fun x s => ?_)).trans ?_; try dsimp only) | (refine adminCmd_tck _ _ _ _ ?_; try dsimp only) | (refine provision_tck _ _ _ _  ?_; intros; try dsimp only) | (refine receive_tck _ _ _ _  ?_; intros; try dsimp only) | (refine fltReq_tck _ _ _ _  ?_; intros; try dsimp only) | simp)

theorem commitReq_stm (a0 : CommitSrc) (a1 : ℕ) (a2 : ℕ) (s : State) : (commitReq a0 a1 a2 s).stm = s.stm := by
  unfold commitReq
  try dsimp only
  repeat' (first | (simp; done) | (have h := appendRec_frame (by assumption); simp [h]; done) | (have h := takeSlot_frame (by assumption); simp [h]; done) | (have h := placePage_frame (by assumption); simp [h]; done) | (have h := placePart_frame (by assumption); simp [h]; done) | (have h := closeStream_frame (by assumption); simp [h]; done) | split | (refine (forAll_stm _ _ _ (fun x s => ?_)).trans ?_; try dsimp only) | (refine adminCmd_stm _ _ _ _ ?_; try dsimp only) | (refine provision_stm _ _ _ _  ?_; intros; try dsimp only) | (refine receive_stm _ _ _ _  ?_; intros; try dsimp only) | (refine fltReq_stm _ _ _ _  ?_; intros; try dsimp only) | simp)

theorem commitReq_map (a0 : CommitSrc) (a1 : ℕ) (a2 : ℕ) (s : State) : (commitReq a0 a1 a2 s).map = s.map := by
  unfold commitReq
  try dsimp only
  repeat' (first | (simp; done) | (have h := appendRec_frame (by assumption); simp [h]; done) | (have h := takeSlot_frame (by assumption); simp [h]; done) | (have h := placePage_frame (by assumption); simp [h]; done) | (have h := placePart_frame (by assumption); simp [h]; done) | (have h := closeStream_frame (by assumption); simp [h]; done) | split | (refine (forAll_map _ _ _ (fun x s => ?_)).trans ?_; try dsimp only) | (refine adminCmd_map _ _ _ _ ?_; try dsimp only) | (refine provision_map _ _ _ _  ?_; intros; try dsimp only) | (refine receive_map _ _ _ _  ?_; intros; try dsimp only) | (refine fltReq_map _ _ _ _  ?_; intros; try dsimp only) | simp)

theorem commitReq_flc (a0 : CommitSrc) (a1 : ℕ) (a2 : ℕ) (s : State) : (commitReq a0 a1 a2 s).flc = s.flc := by
  unfold commitReq
  try dsimp only
  repeat' (first | (simp; done) | (have h := appendRec_frame (by assumption); simp [h]; done) | (have h := takeSlot_frame (by assumption); simp [h]; done) | (have h := placePage_frame (by assumption); simp [h]; done) | (have h := placePart_frame (by assumption); simp [h]; done) | (have h := closeStream_frame (by assumption); simp [h]; done) | split | (refine (forAll_flc _ _ _ (fun x s => ?_)).trans ?_; try dsimp only) | (refine adminCmd_flc _ _ _ _ ?_; try dsimp only) | (refine provision_flc _ _ _ _  ?_; intros; try dsimp only) | (refine receive_flc _ _ _ _  ?_; intros; try dsimp only) | (refine fltReq_flc _ _ _ _  ?_; intros; try dsimp only) | simp)

theorem commitReq_mbr (a0 : CommitSrc) (a1 : ℕ) (a2 : ℕ) (s : State) : (commitReq a0 a1 a2 s).mbr = s.mbr := by
  unfold commitReq
  try dsimp only
  repeat' (first | (simp; done) | (have h := appendRec_frame (by assumption); simp [h]; done) | (have h := takeSlot_frame (by assumption); simp [h]; done) | (have h := placePage_frame (by assumption); simp [h]; done) | (have h := placePart_frame (by assumption); simp [h]; done) | (have h := closeStream_frame (by assumption); simp [h]; done) | split | (refine (forAll_mbr _ _ _ (fun x s => ?_)).trans ?_; try dsimp only) | (refine adminCmd_mbr _ _ _ _ ?_; try dsimp only) | (refine provision_mbr _ _ _ _  ?_; intros; try dsimp only) | (refine receive_mbr _ _ _ _  ?_; intros; try dsimp only) | (refine fltReq_mbr _ _ _ _  ?_; intros; try dsimp only) | simp)

theorem commitReq_flt (a0 : CommitSrc) (a1 : ℕ) (a2 : ℕ) (s : State) : (commitReq a0 a1 a2 s).flt = s.flt := by
  unfold commitReq
  try dsimp only
  repeat' (first | (simp; done) | (have h := appendRec_frame (by assumption); simp [h]; done) | (have h := takeSlot_frame (by assumption); simp [h]; done) | (have h := placePage_frame (by assumption); simp [h]; done) | (have h := placePart_frame (by assumption); simp [h]; done) | (have h := closeStream_frame (by assumption); simp [h]; done) | split | (refine (forAll_flt _ _ _ (fun x s => ?_)).trans ?_; try dsimp only) | (refine adminCmd_flt _ _ _ _ ?_; try dsimp only) | (refine provision_flt _ _ _ _  ?_; intros; try dsimp only) | (refine fltReq_flt _ _ _ _  ?_; intros; try dsimp only) | simp)

theorem commitReq_sec (a0 : CommitSrc) (a1 : ℕ) (a2 : ℕ) (s : State) : (commitReq a0 a1 a2 s).sec = s.sec := by
  unfold commitReq
  try dsimp only
  repeat' (first | (simp; done) | (have h := appendRec_frame (by assumption); simp [h]; done) | (have h := takeSlot_frame (by assumption); simp [h]; done) | (have h := placePage_frame (by assumption); simp [h]; done) | (have h := placePart_frame (by assumption); simp [h]; done) | (have h := closeStream_frame (by assumption); simp [h]; done) | split | (refine (forAll_sec _ _ _ (fun x s => ?_)).trans ?_; try dsimp only) | (refine adminCmd_sec _ _ _ _ ?_; try dsimp only) | (refine receive_sec _ _ _ _  ?_; intros; try dsimp only) | (refine fltReq_sec _ _ _ _  ?_; intros; try dsimp only) | simp)

theorem commitReq_cpx (a0 : CommitSrc) (a1 : ℕ) (a2 : ℕ) (s : State) : (commitReq a0 a1 a2 s).cpx = s.cpx := by
  unfold commitReq
  try dsimp only
  repeat' (first | (simp; done) | (have h := appendRec_frame (by assumption); simp [h]; done) | (have h := takeSlot_frame (by assumption); simp [h]; done) | (have h := placePage_frame (by assumption); simp [h]; done) | (have h := placePart_frame (by assumption); simp [h]; done) | (have h := closeStream_frame (by assumption); simp [h]; done) | split | (refine (forAll_cpx _ _ _ (fun x s => ?_)).trans ?_; try dsimp only) | (refine adminCmd_cpx _ _ _ _ ?_; try dsimp only) | (refine provision_cpx _ _ _ _  ?_; intros; try dsimp only) | (refine receive_cpx _ _ _ _  ?_; intros; try dsimp only) | (refine fltReq_cpx _ _ _ _  ?_; intros; try dsimp only) | simp)

theorem commitReq_memc (a0 : CommitSrc) (a1 : ℕ) (a2 : ℕ) (s : State) : (commitReq a0 a1 a2 s).memc = s.memc := by
  unfold commitReq
  try dsimp only
  repeat' (first | (simp; done) | (have h := appendRec_frame (by assumption); simp [h]; done) | (have h := takeSlot_frame (by assumption); simp [h]; done) | (have h := placePage_frame (by assumption); simp [h]; done) | (have h := placePart_frame (by assumption); simp [h]; done) | (have h := closeStream_frame (by assumption); simp [h]; done) | split | (refine (forAll_memc _ _ _ (fun x s => ?_)).trans ?_; try dsimp only) | (refine adminCmd_memc _ _ _ _ ?_; try dsimp only) | (refine provision_memc _ _ _ _  ?_; intros; try dsimp only) | (refine receive_memc _ _ _ _  ?_; intros; try dsimp only) | (refine fltReq_memc _ _ _ _  ?_; intros; try dsimp only) | simp)

theorem commitReq_mov (a0 : CommitSrc) (a1 : ℕ) (a2 : ℕ) (s : State) : (commitReq a0 a1 a2 s).mov = s.mov := by
  unfold commitReq
  try dsimp only
  repeat' (first | (simp; done) | (have h := appendRec_frame (by assumption); simp [h]; done) | (have h := takeSlot_frame (by assumption); simp [h]; done) | (have h := placePage_frame (by assumption); simp [h]; done) | (have h := placePart_frame (by assumption); simp [h]; done) | (have h := closeStream_frame (by assumption); simp [h]; done) | split | (refine (forAll_mov _ _ _ (fun x s => ?_)).trans ?_; try dsimp only) | (refine adminCmd_mov _ _ _ _ ?_; try dsimp only) | (refine provision_mov _ _ _ _  ?_; intros; try dsimp only) | (refine receive_mov _ _ _ _  ?_; intros; try dsimp only) | (refine fltReq_mov _ _ _ _  ?_; intros; try dsimp only) | simp)

theorem commitReq_freeCtr (a0 : CommitSrc) (a1 : ℕ) (a2 : ℕ) (s : State) : (commitReq a0 a1 a2 s).freeCtr = s.freeCtr := by
  unfold commitReq
  try dsimp only
  repeat' (first | (simp; done) | (have h := appendRec_frame (by assumption); simp [h]; done) | (have h := takeSlot_frame (by assumption); simp [h]; done) | (have h := placePage_frame (by assumption); simp [h]; done) | (have h := placePart_frame (by assumption); simp [h]; done) | (have h := closeStream_frame (by assumption); simp [h]; done) | split | (refine (forAll_freeCtr _ _ _ (fun x s => ?_)).trans ?_; try dsimp only) | (refine adminCmd_freeCtr _ _ _ _ ?_; try dsimp only) | (refine provision_freeCtr _ _ _ _  ?_; intros; try dsimp only) | (refine receive_freeCtr _ _ _ _  ?_; intros; try dsimp only) | (refine fltReq_freeCtr _ _ _ _  ?_; intros; try dsimp only) | simp)

@[simp] theorem commitReq_frame (a0 : CommitSrc) (a1 : ℕ) (a2 : ℕ) (s : State) :
    (commitReq a0 a1 a2 s).pending = s.pending ∧ (commitReq a0 a1 a2 s).latch = s.latch ∧ (commitReq a0 a1 a2 s).mem = s.mem ∧ (commitReq a0 a1 a2 s).clk = s.clk ∧ (commitReq a0 a1 a2 s).thm = s.thm ∧ (commitReq a0 a1 a2 s).tck = s.tck ∧ (commitReq a0 a1 a2 s).stm = s.stm ∧ (commitReq a0 a1 a2 s).map = s.map ∧ (commitReq a0 a1 a2 s).flc = s.flc ∧ (commitReq a0 a1 a2 s).mbr = s.mbr ∧ (commitReq a0 a1 a2 s).flt = s.flt ∧ (commitReq a0 a1 a2 s).sec = s.sec ∧ (commitReq a0 a1 a2 s).cpx = s.cpx ∧ (commitReq a0 a1 a2 s).memc = s.memc ∧ (commitReq a0 a1 a2 s).mov = s.mov ∧ (commitReq a0 a1 a2 s).freeCtr = s.freeCtr :=
  ⟨commitReq_pending a0 a1 a2 s, commitReq_latch a0 a1 a2 s, commitReq_mem a0 a1 a2 s, commitReq_clk a0 a1 a2 s, commitReq_thm a0 a1 a2 s, commitReq_tck a0 a1 a2 s, commitReq_stm a0 a1 a2 s, commitReq_map a0 a1 a2 s, commitReq_flc a0 a1 a2 s, commitReq_mbr a0 a1 a2 s, commitReq_flt a0 a1 a2 s, commitReq_sec a0 a1 a2 s, commitReq_cpx a0 a1 a2 s, commitReq_memc a0 a1 a2 s, commitReq_mov a0 a1 a2 s, commitReq_freeCtr a0 a1 a2 s⟩

theorem storeUpdCtl_pending (a0 : Word) (s : State) : (storeUpdCtl a0 s).pending = s.pending := by
  unfold storeUpdCtl
  try dsimp only
  first
    | (simp; done)
    | ((repeat' split) <;> simp; done)
    | (repeat' (first | (simp; done) | split))

theorem storeUpdCtl_latch (a0 : Word) (s : State) : (storeUpdCtl a0 s).latch = s.latch := by
  unfold storeUpdCtl
  try dsimp only
  first
    | (simp; done)
    | ((repeat' split) <;> simp; done)
    | (repeat' (first | (simp; done) | split))

theorem storeUpdCtl_mem (a0 : Word) (s : State) : (storeUpdCtl a0 s).mem = s.mem := by
  unfold storeUpdCtl
  try dsimp only
  first
    | (simp; done)
    | ((repeat' split) <;> simp; done)
    | (repeat' (first | (simp; done) | split))

theorem storeUpdCtl_clk (a0 : Word) (s : State) : (storeUpdCtl a0 s).clk = s.clk := by
  unfold storeUpdCtl
  try dsimp only
  first
    | (simp; done)
    | ((repeat' split) <;> simp; done)
    | (repeat' (first | (simp; done) | split))

theorem storeUpdCtl_thm (a0 : Word) (s : State) : (storeUpdCtl a0 s).thm = s.thm := by
  unfold storeUpdCtl
  try dsimp only
  first
    | (simp; done)
    | ((repeat' split) <;> simp; done)
    | (repeat' (first | (simp; done) | split))

theorem storeUpdCtl_tck (a0 : Word) (s : State) : (storeUpdCtl a0 s).tck = s.tck := by
  unfold storeUpdCtl
  try dsimp only
  first
    | (simp; done)
    | ((repeat' split) <;> simp; done)
    | (repeat' (first | (simp; done) | split))

theorem storeUpdCtl_stm (a0 : Word) (s : State) : (storeUpdCtl a0 s).stm = s.stm := by
  unfold storeUpdCtl
  try dsimp only
  first
    | (simp; done)
    | ((repeat' split) <;> simp; done)
    | (repeat' (first | (simp; done) | split))

theorem storeUpdCtl_map (a0 : Word) (s : State) : (storeUpdCtl a0 s).map = s.map := by
  unfold storeUpdCtl
  try dsimp only
  first
    | (simp; done)
    | ((repeat' split) <;> simp; done)
    | (repeat' (first | (simp; done) | split))

theorem storeUpdCtl_flc (a0 : Word) (s : State) : (storeUpdCtl a0 s).flc = s.flc := by
  unfold storeUpdCtl
  try dsimp only
  first
    | (simp; done)
    | ((repeat' split) <;> simp; done)
    | (repeat' (first | (simp; done) | split))

theorem storeUpdCtl_mbr (a0 : Word) (s : State) : (storeUpdCtl a0 s).mbr = s.mbr := by
  unfold storeUpdCtl
  try dsimp only
  first
    | (simp; done)
    | ((repeat' split) <;> simp; done)
    | (repeat' (first | (simp; done) | split))

theorem storeUpdCtl_flt (a0 : Word) (s : State) : (storeUpdCtl a0 s).flt = s.flt := by
  unfold storeUpdCtl
  try dsimp only
  first
    | (simp; done)
    | ((repeat' split) <;> simp; done)
    | (repeat' (first | (simp; done) | split))

theorem storeUpdCtl_sec (a0 : Word) (s : State) : (storeUpdCtl a0 s).sec = s.sec := by
  unfold storeUpdCtl
  try dsimp only
  first
    | (simp; done)
    | ((repeat' split) <;> simp; done)
    | (repeat' (first | (simp; done) | split))

theorem storeUpdCtl_cpx (a0 : Word) (s : State) : (storeUpdCtl a0 s).cpx = s.cpx := by
  unfold storeUpdCtl
  try dsimp only
  first
    | (simp; done)
    | ((repeat' split) <;> simp; done)
    | (repeat' (first | (simp; done) | split))

theorem storeUpdCtl_memc (a0 : Word) (s : State) : (storeUpdCtl a0 s).memc = s.memc := by
  unfold storeUpdCtl
  try dsimp only
  first
    | (simp; done)
    | ((repeat' split) <;> simp; done)
    | (repeat' (first | (simp; done) | split))

theorem storeUpdCtl_mov (a0 : Word) (s : State) : (storeUpdCtl a0 s).mov = s.mov := by
  unfold storeUpdCtl
  try dsimp only
  first
    | (simp; done)
    | ((repeat' split) <;> simp; done)
    | (repeat' (first | (simp; done) | split))

theorem storeUpdCtl_freeCtr (a0 : Word) (s : State) : (storeUpdCtl a0 s).freeCtr = s.freeCtr := by
  unfold storeUpdCtl
  try dsimp only
  first
    | (simp; done)
    | ((repeat' split) <;> simp; done)
    | (repeat' (first | (simp; done) | split))

@[simp] theorem storeUpdCtl_frame (a0 : Word) (s : State) :
    (storeUpdCtl a0 s).pending = s.pending ∧ (storeUpdCtl a0 s).latch = s.latch ∧ (storeUpdCtl a0 s).mem = s.mem ∧ (storeUpdCtl a0 s).clk = s.clk ∧ (storeUpdCtl a0 s).thm = s.thm ∧ (storeUpdCtl a0 s).tck = s.tck ∧ (storeUpdCtl a0 s).stm = s.stm ∧ (storeUpdCtl a0 s).map = s.map ∧ (storeUpdCtl a0 s).flc = s.flc ∧ (storeUpdCtl a0 s).mbr = s.mbr ∧ (storeUpdCtl a0 s).flt = s.flt ∧ (storeUpdCtl a0 s).sec = s.sec ∧ (storeUpdCtl a0 s).cpx = s.cpx ∧ (storeUpdCtl a0 s).memc = s.memc ∧ (storeUpdCtl a0 s).mov = s.mov ∧ (storeUpdCtl a0 s).freeCtr = s.freeCtr :=
  ⟨storeUpdCtl_pending a0 s, storeUpdCtl_latch a0 s, storeUpdCtl_mem a0 s, storeUpdCtl_clk a0 s, storeUpdCtl_thm a0 s, storeUpdCtl_tck a0 s, storeUpdCtl_stm a0 s, storeUpdCtl_map a0 s, storeUpdCtl_flc a0 s, storeUpdCtl_mbr a0 s, storeUpdCtl_flt a0 s, storeUpdCtl_sec a0 s, storeUpdCtl_cpx a0 s, storeUpdCtl_memc a0 s, storeUpdCtl_mov a0 s, storeUpdCtl_freeCtr a0 s⟩

theorem osLoad_pending (a0 : ℕ) (s : State) : (osLoad a0 s).pending = s.pending := by
  unfold osLoad
  refine (forAll_pending _ _ _ (fun e s => ?_)).trans rfl
  repeat' (first | (simp; done) | split)

theorem osLoad_regs (a0 : ℕ) (s : State) : (osLoad a0 s).regs = s.regs := by
  unfold osLoad
  refine (forAll_regs _ _ _ (fun e s => ?_)).trans rfl
  repeat' (first | (simp; done) | split)

theorem osLoad_latch (a0 : ℕ) (s : State) : (osLoad a0 s).latch = s.latch := by
  unfold osLoad
  refine (forAll_latch _ _ _ (fun e s => ?_)).trans rfl
  repeat' (first | (simp; done) | split)

theorem osLoad_sys (a0 : ℕ) (s : State) : (osLoad a0 s).sys = s.sys := by
  unfold osLoad
  refine (forAll_sys _ _ _ (fun e s => ?_)).trans rfl
  repeat' (first | (simp; done) | split)

theorem osLoad_clk (a0 : ℕ) (s : State) : (osLoad a0 s).clk = s.clk := by
  unfold osLoad
  refine (forAll_clk _ _ _ (fun e s => ?_)).trans rfl
  repeat' (first | (simp; done) | split)

theorem osLoad_thm (a0 : ℕ) (s : State) : (osLoad a0 s).thm = s.thm := by
  unfold osLoad
  refine (forAll_thm _ _ _ (fun e s => ?_)).trans rfl
  repeat' (first | (simp; done) | split)

theorem osLoad_tck (a0 : ℕ) (s : State) : (osLoad a0 s).tck = s.tck := by
  unfold osLoad
  refine (forAll_tck _ _ _ (fun e s => ?_)).trans rfl
  repeat' (first | (simp; done) | split)

theorem osLoad_hif (a0 : ℕ) (s : State) : (osLoad a0 s).hif = s.hif := by
  unfold osLoad
  refine (forAll_hif _ _ _ (fun e s => ?_)).trans rfl
  repeat' (first | (simp; done) | split)

theorem osLoad_stm (a0 : ℕ) (s : State) : (osLoad a0 s).stm = s.stm := by
  unfold osLoad
  refine (forAll_stm _ _ _ (fun e s => ?_)).trans rfl
  repeat' (first | (simp; done) | split)

theorem osLoad_map (a0 : ℕ) (s : State) : (osLoad a0 s).map = s.map := by
  unfold osLoad
  refine (forAll_map _ _ _ (fun e s => ?_)).trans rfl
  repeat' (first | (simp; done) | split)

theorem osLoad_flc (a0 : ℕ) (s : State) : (osLoad a0 s).flc = s.flc := by
  unfold osLoad
  refine (forAll_flc _ _ _ (fun e s => ?_)).trans rfl
  repeat' (first | (simp; done) | split)

theorem osLoad_bnd (a0 : ℕ) (s : State) : (osLoad a0 s).bnd = s.bnd := by
  unfold osLoad
  refine (forAll_bnd _ _ _ (fun e s => ?_)).trans rfl
  repeat' (first | (simp; done) | split)

theorem osLoad_mbr (a0 : ℕ) (s : State) : (osLoad a0 s).mbr = s.mbr := by
  unfold osLoad
  refine (forAll_mbr _ _ _ (fun e s => ?_)).trans rfl
  repeat' (first | (simp; done) | split)

theorem osLoad_flt (a0 : ℕ) (s : State) : (osLoad a0 s).flt = s.flt := by
  unfold osLoad
  refine (forAll_flt _ _ _ (fun e s => ?_)).trans rfl
  repeat' (first | (simp; done) | split)

theorem osLoad_sec (a0 : ℕ) (s : State) : (osLoad a0 s).sec = s.sec := by
  unfold osLoad
  refine (forAll_sec _ _ _ (fun e s => ?_)).trans rfl
  repeat' (first | (simp; done) | split)

theorem osLoad_cpx (a0 : ℕ) (s : State) : (osLoad a0 s).cpx = s.cpx := by
  unfold osLoad
  refine (forAll_cpx _ _ _ (fun e s => ?_)).trans rfl
  repeat' (first | (simp; done) | split)

theorem osLoad_memc (a0 : ℕ) (s : State) : (osLoad a0 s).memc = s.memc := by
  unfold osLoad
  refine (forAll_memc _ _ _ (fun e s => ?_)).trans rfl
  repeat' (first | (simp; done) | split)

theorem osLoad_mov (a0 : ℕ) (s : State) : (osLoad a0 s).mov = s.mov := by
  unfold osLoad
  refine (forAll_mov _ _ _ (fun e s => ?_)).trans rfl
  repeat' (first | (simp; done) | split)

theorem osLoad_cst (a0 : ℕ) (s : State) : (osLoad a0 s).cst = s.cst := by
  unfold osLoad
  refine (forAll_cst _ _ _ (fun e s => ?_)).trans rfl
  repeat' (first | (simp; done) | split)

theorem osLoad_lnt (a0 : ℕ) (s : State) : (osLoad a0 s).lnt = s.lnt := by
  unfold osLoad
  refine (forAll_lnt _ _ _ (fun e s => ?_)).trans rfl
  repeat' (first | (simp; done) | split)

theorem osLoad_out (a0 : ℕ) (s : State) : (osLoad a0 s).out = s.out := by
  unfold osLoad
  refine (forAll_out _ _ _ (fun e s => ?_)).trans rfl
  repeat' (first | (simp; done) | split)

theorem osLoad_freeCtr (a0 : ℕ) (s : State) : (osLoad a0 s).freeCtr = s.freeCtr := by
  unfold osLoad
  refine (forAll_freeCtr _ _ _ (fun e s => ?_)).trans rfl
  repeat' (first | (simp; done) | split)

@[simp] theorem osLoad_frame (a0 : ℕ) (s : State) :
    (osLoad a0 s).pending = s.pending ∧ (osLoad a0 s).regs = s.regs ∧ (osLoad a0 s).latch = s.latch ∧ (osLoad a0 s).sys = s.sys ∧ (osLoad a0 s).clk = s.clk ∧ (osLoad a0 s).thm = s.thm ∧ (osLoad a0 s).tck = s.tck ∧ (osLoad a0 s).hif = s.hif ∧ (osLoad a0 s).stm = s.stm ∧ (osLoad a0 s).map = s.map ∧ (osLoad a0 s).flc = s.flc ∧ (osLoad a0 s).bnd = s.bnd ∧ (osLoad a0 s).mbr = s.mbr ∧ (osLoad a0 s).flt = s.flt ∧ (osLoad a0 s).sec = s.sec ∧ (osLoad a0 s).cpx = s.cpx ∧ (osLoad a0 s).memc = s.memc ∧ (osLoad a0 s).mov = s.mov ∧ (osLoad a0 s).cst = s.cst ∧ (osLoad a0 s).lnt = s.lnt ∧ (osLoad a0 s).out = s.out ∧ (osLoad a0 s).freeCtr = s.freeCtr :=
  ⟨osLoad_pending a0 s, osLoad_regs a0 s, osLoad_latch a0 s, osLoad_sys a0 s, osLoad_clk a0 s, osLoad_thm a0 s, osLoad_tck a0 s, osLoad_hif a0 s, osLoad_stm a0 s, osLoad_map a0 s, osLoad_flc a0 s, osLoad_bnd a0 s, osLoad_mbr a0 s, osLoad_flt a0 s, osLoad_sec a0 s, osLoad_cpx a0 s, osLoad_memc a0 s, osLoad_mov a0 s, osLoad_cst a0 s, osLoad_lnt a0 s, osLoad_out a0 s, osLoad_freeCtr a0 s⟩

theorem coresStart_pending (s : State) : (coresStart s).pending = s.pending := by
  unfold coresStart
  try dsimp only
  first
    | (simp; done)
    | ((repeat' split) <;> simp; done)
    | (repeat' (first | (simp; done) | split))

theorem coresStart_regs (s : State) : (coresStart s).regs = s.regs := by
  unfold coresStart
  try dsimp only
  first
    | (simp; done)
    | ((repeat' split) <;> simp; done)
    | (repeat' (first | (simp; done) | split))

theorem coresStart_latch (s : State) : (coresStart s).latch = s.latch := by
  unfold coresStart
  try dsimp only
  first
    | (simp; done)
    | ((repeat' split) <;> simp; done)
    | (repeat' (first | (simp; done) | split))

theorem coresStart_sys (s : State) : (coresStart s).sys = s.sys := by
  unfold coresStart
  try dsimp only
  first
    | (simp; done)
    | ((repeat' split) <;> simp; done)
    | (repeat' (first | (simp; done) | split))

theorem coresStart_clk (s : State) : (coresStart s).clk = s.clk := by
  unfold coresStart
  try dsimp only
  first
    | (simp; done)
    | ((repeat' split) <;> simp; done)
    | (repeat' (first | (simp; done) | split))

theorem coresStart_thm (s : State) : (coresStart s).thm = s.thm := by
  unfold coresStart
  try dsimp only
  first
    | (simp; done)
    | ((repeat' split) <;> simp; done)
    | (repeat' (first | (simp; done) | split))

theorem coresStart_tck (s : State) : (coresStart s).tck = s.tck := by
  unfold coresStart
  try dsimp only
  first
    | (simp; done)
    | ((repeat' split) <;> simp; done)
    | (repeat' (first | (simp; done) | split))

theorem coresStart_hif (s : State) : (coresStart s).hif = s.hif := by
  unfold coresStart
  try dsimp only
  first
    | (simp; done)
    | ((repeat' split) <;> simp; done)
    | (repeat' (first | (simp; done) | split))

theorem coresStart_stm (s : State) : (coresStart s).stm = s.stm := by
  unfold coresStart
  try dsimp only
  first
    | (simp; done)
    | ((repeat' split) <;> simp; done)
    | (repeat' (first | (simp; done) | split))

theorem coresStart_map (s : State) : (coresStart s).map = s.map := by
  unfold coresStart
  try dsimp only
  first
    | (simp; done)
    | ((repeat' split) <;> simp; done)
    | (repeat' (first | (simp; done) | split))

theorem coresStart_flc (s : State) : (coresStart s).flc = s.flc := by
  unfold coresStart
  try dsimp only
  first
    | (simp; done)
    | ((repeat' split) <;> simp; done)
    | (repeat' (first | (simp; done) | split))

theorem coresStart_bnd (s : State) : (coresStart s).bnd = s.bnd := by
  unfold coresStart
  try dsimp only
  first
    | (simp; done)
    | ((repeat' split) <;> simp; done)
    | (repeat' (first | (simp; done) | split))

theorem coresStart_mbr (s : State) : (coresStart s).mbr = s.mbr := by
  unfold coresStart
  try dsimp only
  first
    | (simp; done)
    | ((repeat' split) <;> simp; done)
    | (repeat' (first | (simp; done) | split))

theorem coresStart_flt (s : State) : (coresStart s).flt = s.flt := by
  unfold coresStart
  try dsimp only
  first
    | (simp; done)
    | ((repeat' split) <;> simp; done)
    | (repeat' (first | (simp; done) | split))

theorem coresStart_sec (s : State) : (coresStart s).sec = s.sec := by
  unfold coresStart
  try dsimp only
  first
    | (simp; done)
    | ((repeat' split) <;> simp; done)
    | (repeat' (first | (simp; done) | split))

theorem coresStart_memc (s : State) : (coresStart s).memc = s.memc := by
  unfold coresStart
  try dsimp only
  first
    | (simp; done)
    | ((repeat' split) <;> simp; done)
    | (repeat' (first | (simp; done) | split))

theorem coresStart_mov (s : State) : (coresStart s).mov = s.mov := by
  unfold coresStart
  try dsimp only
  first
    | (simp; done)
    | ((repeat' split) <;> simp; done)
    | (repeat' (first | (simp; done) | split))

theorem coresStart_lnt (s : State) : (coresStart s).lnt = s.lnt := by
  unfold coresStart
  try dsimp only
  first
    | (simp; done)
    | ((repeat' split) <;> simp; done)
    | (repeat' (first | (simp; done) | split))

theorem coresStart_out (s : State) : (coresStart s).out = s.out := by
  unfold coresStart
  try dsimp only
  first
    | (simp; done)
    | ((repeat' split) <;> simp; done)
    | (repeat' (first | (simp; done) | split))

@[simp] theorem coresStart_frame (s : State) :
    (coresStart s).pending = s.pending ∧ (coresStart s).regs = s.regs ∧ (coresStart s).latch = s.latch ∧ (coresStart s).sys = s.sys ∧ (coresStart s).clk = s.clk ∧ (coresStart s).thm = s.thm ∧ (coresStart s).tck = s.tck ∧ (coresStart s).hif = s.hif ∧ (coresStart s).stm = s.stm ∧ (coresStart s).map = s.map ∧ (coresStart s).flc = s.flc ∧ (coresStart s).bnd = s.bnd ∧ (coresStart s).mbr = s.mbr ∧ (coresStart s).flt = s.flt ∧ (coresStart s).sec = s.sec ∧ (coresStart s).memc = s.memc ∧ (coresStart s).mov = s.mov ∧ (coresStart s).lnt = s.lnt ∧ (coresStart s).out = s.out :=
  ⟨coresStart_pending s, coresStart_regs s, coresStart_latch s, coresStart_sys s, coresStart_clk s, coresStart_thm s, coresStart_tck s, coresStart_hif s, coresStart_stm s, coresStart_map s, coresStart_flc s, coresStart_bnd s, coresStart_mbr s, coresStart_flt s, coresStart_sec s, coresStart_memc s, coresStart_mov s, coresStart_lnt s, coresStart_out s⟩

@[simp] theorem coresReset_frame (s : State) :
    (coresReset s).pending = s.pending ∧ (coresReset s).latch = s.latch ∧ (coresReset s).mem = s.mem ∧ (coresReset s).thm = s.thm ∧ (coresReset s).tck = s.tck ∧ (coresReset s).hif = s.hif ∧ (coresReset s).stm = s.stm ∧ (coresReset s).map = s.map ∧ (coresReset s).flc = s.flc ∧ (coresReset s).bnd = s.bnd ∧ (coresReset s).mbr = s.mbr ∧ (coresReset s).flt = s.flt ∧ (coresReset s).sec = s.sec ∧ (coresReset s).memc = s.memc ∧ (coresReset s).mov = s.mov ∧ (coresReset s).cst = s.cst ∧ (coresReset s).lnt = s.lnt ∧ (coresReset s).out = s.out ∧ (coresReset s).freeCtr = s.freeCtr := by
  unfold coresReset
  try dsimp only
  first
    | (simp; done)
    | ((repeat' split) <;> simp; done)
    | (and_intros <;> (repeat' (first | (simp; done) | split)))

@[simp] theorem actBegin_frame (s : State) :
    (actBegin s).pending = s.pending ∧ (actBegin s).latch = s.latch ∧ (actBegin s).mem = s.mem ∧ (actBegin s).clk = s.clk ∧ (actBegin s).thm = s.thm ∧ (actBegin s).tck = s.tck ∧ (actBegin s).stm = s.stm ∧ (actBegin s).map = s.map ∧ (actBegin s).flc = s.flc ∧ (actBegin s).bnd = s.bnd ∧ (actBegin s).mbr = s.mbr ∧ (actBegin s).flt = s.flt ∧ (actBegin s).sec = s.sec ∧ (actBegin s).cpx = s.cpx ∧ (actBegin s).memc = s.memc ∧ (actBegin s).mov = s.mov ∧ (actBegin s).freeCtr = s.freeCtr := by
  unfold actBegin
  try dsimp only
  first
    | (simp; done)
    | ((repeat' split) <;> simp; done)
    | (and_intros <;> (repeat' (first | (simp; done) | split)))

theorem actStep_pending (s : State) : (actStep s).pending = s.pending := by
  unfold actStep
  try dsimp only
  first
    | (simp; done)
    | ((repeat' split) <;> simp; done)
    | (repeat' (first | (simp; done) | split))

theorem actStep_latch (s : State) : (actStep s).latch = s.latch := by
  unfold actStep
  try dsimp only
  first
    | (simp; done)
    | ((repeat' split) <;> simp; done)
    | (repeat' (first | (simp; done) | split))

theorem actStep_thm (s : State) : (actStep s).thm = s.thm := by
  unfold actStep
  try dsimp only
  first
    | (simp; done)
    | ((repeat' split) <;> simp; done)
    | (repeat' (first | (simp; done) | split))

theorem actStep_tck (s : State) : (actStep s).tck = s.tck := by
  unfold actStep
  try dsimp only
  first
    | (simp; done)
    | ((repeat' split) <;> simp; done)
    | (repeat' (first | (simp; done) | split))

theorem actStep_hif (s : State) : (actStep s).hif = s.hif := by
  unfold actStep
  try dsimp only
  first
    | (simp; done)
    | ((repeat' split) <;> simp; done)
    | (repeat' (first | (simp; done) | split))

theorem actStep_stm (s : State) : (actStep s).stm = s.stm := by
  unfold actStep
  try dsimp only
  first
    | (simp; done)
    | ((repeat' split) <;> simp; done)
    | (repeat' (first | (simp; done) | split))

theorem actStep_bnd (s : State) : (actStep s).bnd = s.bnd := by
  unfold actStep
  try dsimp only
  first
    | (simp; done)
    | ((repeat' split) <;> simp; done)
    | (repeat' (first | (simp; done) | split))

theorem actStep_flt (s : State) : (actStep s).flt = s.flt := by
  unfold actStep
  try dsimp only
  first
    | (simp; done)
    | ((repeat' split) <;> simp; done)
    | (repeat' (first | (simp; done) | split))

theorem actStep_sec (s : State) : (actStep s).sec = s.sec := by
  unfold actStep
  try dsimp only
  first
    | (simp; done)
    | ((repeat' split) <;> simp; done)
    | (repeat' (first | (simp; done) | split))

theorem actStep_memc (s : State) : (actStep s).memc = s.memc := by
  unfold actStep
  try dsimp only
  first
    | (simp; done)
    | ((repeat' split) <;> simp; done)
    | (repeat' (first | (simp; done) | split))

theorem actStep_mov (s : State) : (actStep s).mov = s.mov := by
  unfold actStep
  try dsimp only
  first
    | (simp; done)
    | ((repeat' split) <;> simp; done)
    | (repeat' (first | (simp; done) | split))

theorem actStep_out (s : State) : (actStep s).out = s.out := by
  unfold actStep
  try dsimp only
  first
    | (simp; done)
    | ((repeat' split) <;> simp; done)
    | (repeat' (first | (simp; done) | split))

@[simp] theorem actStep_frame (s : State) :
    (actStep s).pending = s.pending ∧ (actStep s).latch = s.latch ∧ (actStep s).thm = s.thm ∧ (actStep s).tck = s.tck ∧ (actStep s).hif = s.hif ∧ (actStep s).stm = s.stm ∧ (actStep s).bnd = s.bnd ∧ (actStep s).flt = s.flt ∧ (actStep s).sec = s.sec ∧ (actStep s).memc = s.memc ∧ (actStep s).mov = s.mov ∧ (actStep s).out = s.out :=
  ⟨actStep_pending s, actStep_latch s, actStep_thm s, actStep_tck s, actStep_hif s, actStep_stm s, actStep_bnd s, actStep_flt s, actStep_sec s, actStep_memc s, actStep_mov s, actStep_out s⟩

theorem actTry_pending (s : State) : (actTry s).pending = s.pending := by
  unfold actTry
  try dsimp only
  first
    | (simp; done)
    | ((repeat' split) <;> simp; done)
    | (repeat' (first | (simp; done) | split))

theorem actTry_latch (s : State) : (actTry s).latch = s.latch := by
  unfold actTry
  try dsimp only
  first
    | (simp; done)
    | ((repeat' split) <;> simp; done)
    | (repeat' (first | (simp; done) | split))

theorem actTry_thm (s : State) : (actTry s).thm = s.thm := by
  unfold actTry
  try dsimp only
  first
    | (simp; done)
    | ((repeat' split) <;> simp; done)
    | (repeat' (first | (simp; done) | split))

theorem actTry_tck (s : State) : (actTry s).tck = s.tck := by
  unfold actTry
  try dsimp only
  first
    | (simp; done)
    | ((repeat' split) <;> simp; done)
    | (repeat' (first | (simp; done) | split))

theorem actTry_stm (s : State) : (actTry s).stm = s.stm := by
  unfold actTry
  try dsimp only
  first
    | (simp; done)
    | ((repeat' split) <;> simp; done)
    | (repeat' (first | (simp; done) | split))

theorem actTry_bnd (s : State) : (actTry s).bnd = s.bnd := by
  unfold actTry
  try dsimp only
  first
    | (simp; done)
    | ((repeat' split) <;> simp; done)
    | (repeat' (first | (simp; done) | split))

theorem actTry_flt (s : State) : (actTry s).flt = s.flt := by
  unfold actTry
  try dsimp only
  first
    | (simp; done)
    | ((repeat' split) <;> simp; done)
    | (repeat' (first | (simp; done) | split))

theorem actTry_sec (s : State) : (actTry s).sec = s.sec := by
  unfold actTry
  try dsimp only
  first
    | (simp; done)
    | ((repeat' split) <;> simp; done)
    | (repeat' (first | (simp; done) | split))

theorem actTry_memc (s : State) : (actTry s).memc = s.memc := by
  unfold actTry
  try dsimp only
  first
    | (simp; done)
    | ((repeat' split) <;> simp; done)
    | (repeat' (first | (simp; done) | split))

theorem actTry_mov (s : State) : (actTry s).mov = s.mov := by
  unfold actTry
  try dsimp only
  first
    | (simp; done)
    | ((repeat' split) <;> simp; done)
    | (repeat' (first | (simp; done) | split))

@[simp] theorem actTry_frame (s : State) :
    (actTry s).pending = s.pending ∧ (actTry s).latch = s.latch ∧ (actTry s).thm = s.thm ∧ (actTry s).tck = s.tck ∧ (actTry s).stm = s.stm ∧ (actTry s).bnd = s.bnd ∧ (actTry s).flt = s.flt ∧ (actTry s).sec = s.sec ∧ (actTry s).memc = s.memc ∧ (actTry s).mov = s.mov :=
  ⟨actTry_pending s, actTry_latch s, actTry_thm s, actTry_tck s, actTry_stm s, actTry_bnd s, actTry_flt s, actTry_sec s, actTry_memc s, actTry_mov s⟩

theorem actArm_pending (a0 : ℕ) (s : State) : (actArm a0 s).pending = s.pending := by
  unfold actArm
  try dsimp only
  first
    | (simp; done)
    | ((repeat' split) <;> simp; done)
    | (repeat' (first | (simp; done) | split))

theorem actArm_latch (a0 : ℕ) (s : State) : (actArm a0 s).latch = s.latch := by
  unfold actArm
  try dsimp only
  first
    | (simp; done)
    | ((repeat' split) <;> simp; done)
    | (repeat' (first | (simp; done) | split))

theorem actArm_thm (a0 : ℕ) (s : State) : (actArm a0 s).thm = s.thm := by
  unfold actArm
  try dsimp only
  first
    | (simp; done)
    | ((repeat' split) <;> simp; done)
    | (repeat' (first | (simp; done) | split))

theorem actArm_stm (a0 : ℕ) (s : State) : (actArm a0 s).stm = s.stm := by
  unfold actArm
  try dsimp only
  first
    | (simp; done)
    | ((repeat' split) <;> simp; done)
    | (repeat' (first | (simp; done) | split))

theorem actArm_bnd (a0 : ℕ) (s : State) : (actArm a0 s).bnd = s.bnd := by
  unfold actArm
  try dsimp only
  first
    | (simp; done)
    | ((repeat' split) <;> simp; done)
    | (repeat' (first | (simp; done) | split))

theorem actArm_flt (a0 : ℕ) (s : State) : (actArm a0 s).flt = s.flt := by
  unfold actArm
  try dsimp only
  first
    | (simp; done)
    | ((repeat' split) <;> simp; done)
    | (repeat' (first | (simp; done) | split))

theorem actArm_sec (a0 : ℕ) (s : State) : (actArm a0 s).sec = s.sec := by
  unfold actArm
  try dsimp only
  first
    | (simp; done)
    | ((repeat' split) <;> simp; done)
    | (repeat' (first | (simp; done) | split))

theorem actArm_memc (a0 : ℕ) (s : State) : (actArm a0 s).memc = s.memc := by
  unfold actArm
  try dsimp only
  first
    | (simp; done)
    | ((repeat' split) <;> simp; done)
    | (repeat' (first | (simp; done) | split))

theorem actArm_mov (a0 : ℕ) (s : State) : (actArm a0 s).mov = s.mov := by
  unfold actArm
  try dsimp only
  first
    | (simp; done)
    | ((repeat' split) <;> simp; done)
    | (repeat' (first | (simp; done) | split))

@[simp] theorem actArm_frame (a0 : ℕ) (s : State) :
    (actArm a0 s).pending = s.pending ∧ (actArm a0 s).latch = s.latch ∧ (actArm a0 s).thm = s.thm ∧ (actArm a0 s).stm = s.stm ∧ (actArm a0 s).bnd = s.bnd ∧ (actArm a0 s).flt = s.flt ∧ (actArm a0 s).sec = s.sec ∧ (actArm a0 s).memc = s.memc ∧ (actArm a0 s).mov = s.mov :=
  ⟨actArm_pending a0 s, actArm_latch a0 s, actArm_thm a0 s, actArm_stm a0 s, actArm_bnd a0 s, actArm_flt a0 s, actArm_sec a0 s, actArm_memc a0 s, actArm_mov a0 s⟩

@[simp] theorem downloadsGo_frame (s : State) :
    (downloadsGo s).pending = s.pending ∧ (downloadsGo s).regs = s.regs ∧ (downloadsGo s).latch = s.latch ∧ (downloadsGo s).mem = s.mem ∧ (downloadsGo s).sys = s.sys ∧ (downloadsGo s).clk = s.clk ∧ (downloadsGo s).thm = s.thm ∧ (downloadsGo s).tck = s.tck ∧ (downloadsGo s).stm = s.stm ∧ (downloadsGo s).map = s.map ∧ (downloadsGo s).flc = s.flc ∧ (downloadsGo s).bnd = s.bnd ∧ (downloadsGo s).mbr = s.mbr ∧ (downloadsGo s).flt = s.flt ∧ (downloadsGo s).sec = s.sec ∧ (downloadsGo s).cpx = s.cpx ∧ (downloadsGo s).memc = s.memc ∧ (downloadsGo s).mov = s.mov ∧ (downloadsGo s).freeCtr = s.freeCtr := by
  unfold downloadsGo
  try dsimp only
  first
    | (simp; done)
    | ((repeat' split) <;> simp; done)
    | (and_intros <;> (repeat' (first | (simp; done) | split)))

theorem commitStored_pending (a0 : Commit) (a1 : Image) (s : State) : (commitStored a0 a1 s).pending = s.pending := by
  unfold commitStored
  try dsimp only
  first
    | (simp; done)
    | ((repeat' split) <;> simp; done)
    | (repeat' (first | (simp; done) | split))

theorem commitStored_latch (a0 : Commit) (a1 : Image) (s : State) : (commitStored a0 a1 s).latch = s.latch := by
  unfold commitStored
  try dsimp only
  first
    | (simp; done)
    | ((repeat' split) <;> simp; done)
    | (repeat' (first | (simp; done) | split))

theorem commitStored_thm (a0 : Commit) (a1 : Image) (s : State) : (commitStored a0 a1 s).thm = s.thm := by
  unfold commitStored
  try dsimp only
  first
    | (simp; done)
    | ((repeat' split) <;> simp; done)
    | (repeat' (first | (simp; done) | split))

theorem commitStored_stm (a0 : Commit) (a1 : Image) (s : State) : (commitStored a0 a1 s).stm = s.stm := by
  unfold commitStored
  try dsimp only
  first
    | (simp; done)
    | ((repeat' split) <;> simp; done)
    | (repeat' (first | (simp; done) | split))

theorem commitStored_bnd (a0 : Commit) (a1 : Image) (s : State) : (commitStored a0 a1 s).bnd = s.bnd := by
  unfold commitStored
  try dsimp only
  first
    | (simp; done)
    | ((repeat' split) <;> simp; done)
    | (repeat' (first | (simp; done) | split))

theorem commitStored_flt (a0 : Commit) (a1 : Image) (s : State) : (commitStored a0 a1 s).flt = s.flt := by
  unfold commitStored
  try dsimp only
  first
    | (simp; done)
    | ((repeat' split) <;> simp; done)
    | (repeat' (first | (simp; done) | split))

theorem commitStored_sec (a0 : Commit) (a1 : Image) (s : State) : (commitStored a0 a1 s).sec = s.sec := by
  unfold commitStored
  try dsimp only
  first
    | (simp; done)
    | ((repeat' split) <;> simp; done)
    | (repeat' (first | (simp; done) | split))

theorem commitStored_memc (a0 : Commit) (a1 : Image) (s : State) : (commitStored a0 a1 s).memc = s.memc := by
  unfold commitStored
  try dsimp only
  first
    | (simp; done)
    | ((repeat' split) <;> simp; done)
    | (repeat' (first | (simp; done) | split))

theorem commitStored_mov (a0 : Commit) (a1 : Image) (s : State) : (commitStored a0 a1 s).mov = s.mov := by
  unfold commitStored
  try dsimp only
  first
    | (simp; done)
    | ((repeat' split) <;> simp; done)
    | (repeat' (first | (simp; done) | split))

@[simp] theorem commitStored_frame (a0 : Commit) (a1 : Image) (s : State) :
    (commitStored a0 a1 s).pending = s.pending ∧ (commitStored a0 a1 s).latch = s.latch ∧ (commitStored a0 a1 s).thm = s.thm ∧ (commitStored a0 a1 s).stm = s.stm ∧ (commitStored a0 a1 s).bnd = s.bnd ∧ (commitStored a0 a1 s).flt = s.flt ∧ (commitStored a0 a1 s).sec = s.sec ∧ (commitStored a0 a1 s).memc = s.memc ∧ (commitStored a0 a1 s).mov = s.mov :=
  ⟨commitStored_pending a0 a1 s, commitStored_latch a0 a1 s, commitStored_thm a0 a1 s, commitStored_stm a0 a1 s, commitStored_bnd a0 a1 s, commitStored_flt a0 a1 s, commitStored_sec a0 a1 s, commitStored_memc a0 a1 s, commitStored_mov a0 a1 s⟩

@[simp] theorem confirmStart_frame (s : State) :
    (confirmStart s).pending = s.pending ∧ (confirmStart s).latch = s.latch ∧ (confirmStart s).mem = s.mem ∧ (confirmStart s).clk = s.clk ∧ (confirmStart s).thm = s.thm ∧ (confirmStart s).tck = s.tck ∧ (confirmStart s).hif = s.hif ∧ (confirmStart s).stm = s.stm ∧ (confirmStart s).map = s.map ∧ (confirmStart s).flc = s.flc ∧ (confirmStart s).bnd = s.bnd ∧ (confirmStart s).mbr = s.mbr ∧ (confirmStart s).flt = s.flt ∧ (confirmStart s).sec = s.sec ∧ (confirmStart s).cpx = s.cpx ∧ (confirmStart s).memc = s.memc ∧ (confirmStart s).mov = s.mov ∧ (confirmStart s).out = s.out ∧ (confirmStart s).freeCtr = s.freeCtr := by
  unfold confirmStart
  try dsimp only
  first
    | (simp; done)
    | ((repeat' split) <;> simp; done)
    | (and_intros <;> (repeat' (first | (simp; done) | split)))

@[simp] theorem storeBootCtl_frame (a0 : Word) (s : State) :
    (storeBootCtl a0 s).pending = s.pending ∧ (storeBootCtl a0 s).latch = s.latch ∧ (storeBootCtl a0 s).mem = s.mem ∧ (storeBootCtl a0 s).clk = s.clk ∧ (storeBootCtl a0 s).thm = s.thm ∧ (storeBootCtl a0 s).tck = s.tck ∧ (storeBootCtl a0 s).hif = s.hif ∧ (storeBootCtl a0 s).stm = s.stm ∧ (storeBootCtl a0 s).map = s.map ∧ (storeBootCtl a0 s).flc = s.flc ∧ (storeBootCtl a0 s).bnd = s.bnd ∧ (storeBootCtl a0 s).mbr = s.mbr ∧ (storeBootCtl a0 s).flt = s.flt ∧ (storeBootCtl a0 s).sec = s.sec ∧ (storeBootCtl a0 s).cpx = s.cpx ∧ (storeBootCtl a0 s).memc = s.memc ∧ (storeBootCtl a0 s).mov = s.mov ∧ (storeBootCtl a0 s).out = s.out ∧ (storeBootCtl a0 s).freeCtr = s.freeCtr := by
  unfold storeBootCtl
  try dsimp only
  first
    | (simp; done)
    | ((repeat' split) <;> simp; done)
    | (and_intros <;> (repeat' (first | (simp; done) | split)))

@[simp] theorem storeOsWdog_frame (a0 : Word) (s : State) :
    (storeOsWdog a0 s).pending = s.pending ∧ (storeOsWdog a0 s).latch = s.latch ∧ (storeOsWdog a0 s).mem = s.mem ∧ (storeOsWdog a0 s).clk = s.clk ∧ (storeOsWdog a0 s).thm = s.thm ∧ (storeOsWdog a0 s).tck = s.tck ∧ (storeOsWdog a0 s).hif = s.hif ∧ (storeOsWdog a0 s).stm = s.stm ∧ (storeOsWdog a0 s).map = s.map ∧ (storeOsWdog a0 s).flc = s.flc ∧ (storeOsWdog a0 s).bnd = s.bnd ∧ (storeOsWdog a0 s).mbr = s.mbr ∧ (storeOsWdog a0 s).flt = s.flt ∧ (storeOsWdog a0 s).sec = s.sec ∧ (storeOsWdog a0 s).memc = s.memc ∧ (storeOsWdog a0 s).mov = s.mov ∧ (storeOsWdog a0 s).cst = s.cst ∧ (storeOsWdog a0 s).out = s.out ∧ (storeOsWdog a0 s).freeCtr = s.freeCtr := by
  unfold storeOsWdog
  try dsimp only
  first
    | (simp; done)
    | ((repeat' split) <;> simp; done)
    | (and_intros <;> (repeat' (first | (simp; done) | split)))

theorem fleetActs_pending (s : State) : (fleetActs s).pending = s.pending := by
  unfold fleetActs
  try dsimp only
  first
    | (simp; done)
    | ((repeat' split) <;> simp; done)
    | (repeat' (first | (simp; done) | split))

theorem fleetActs_latch (s : State) : (fleetActs s).latch = s.latch := by
  unfold fleetActs
  try dsimp only
  first
    | (simp; done)
    | ((repeat' split) <;> simp; done)
    | (repeat' (first | (simp; done) | split))

theorem fleetActs_thm (s : State) : (fleetActs s).thm = s.thm := by
  unfold fleetActs
  try dsimp only
  first
    | (simp; done)
    | ((repeat' split) <;> simp; done)
    | (repeat' (first | (simp; done) | split))

theorem fleetActs_stm (s : State) : (fleetActs s).stm = s.stm := by
  unfold fleetActs
  try dsimp only
  first
    | (simp; done)
    | ((repeat' split) <;> simp; done)
    | (repeat' (first | (simp; done) | split))

theorem fleetActs_bnd (s : State) : (fleetActs s).bnd = s.bnd := by
  unfold fleetActs
  try dsimp only
  first
    | (simp; done)
    | ((repeat' split) <;> simp; done)
    | (repeat' (first | (simp; done) | split))

theorem fleetActs_sec (s : State) : (fleetActs s).sec = s.sec := by
  unfold fleetActs
  try dsimp only
  first
    | (simp; done)
    | ((repeat' split) <;> simp; done)
    | (repeat' (first | (simp; done) | split))

theorem fleetActs_memc (s : State) : (fleetActs s).memc = s.memc := by
  unfold fleetActs
  try dsimp only
  first
    | (simp; done)
    | ((repeat' split) <;> simp; done)
    | (repeat' (first | (simp; done) | split))

theorem fleetActs_mov (s : State) : (fleetActs s).mov = s.mov := by
  unfold fleetActs
  try dsimp only
  first
    | (simp; done)
    | ((repeat' split) <;> simp; done)
    | (repeat' (first | (simp; done) | split))

@[simp] theorem fleetActs_frame (s : State) :
    (fleetActs s).pending = s.pending ∧ (fleetActs s).latch = s.latch ∧ (fleetActs s).thm = s.thm ∧ (fleetActs s).stm = s.stm ∧ (fleetActs s).bnd = s.bnd ∧ (fleetActs s).sec = s.sec ∧ (fleetActs s).memc = s.memc ∧ (fleetActs s).mov = s.mov :=
  ⟨fleetActs_pending s, fleetActs_latch s, fleetActs_thm s, fleetActs_stm s, fleetActs_bnd s, fleetActs_sec s, fleetActs_memc s, fleetActs_mov s⟩

theorem fireAlarm_pending (a0 : ℕ) (s : State) : (fireAlarm a0 s).pending = s.pending := by
  unfold fireAlarm
  try dsimp only
  first
    | (simp; done)
    | ((repeat' split) <;> simp; done)
    | (repeat' (first | (simp; done) | split))

theorem fireAlarm_latch (a0 : ℕ) (s : State) : (fireAlarm a0 s).latch = s.latch := by
  unfold fireAlarm
  try dsimp only
  first
    | (simp; done)
    | ((repeat' split) <;> simp; done)
    | (repeat' (first | (simp; done) | split))

theorem fireAlarm_thm (a0 : ℕ) (s : State) : (fireAlarm a0 s).thm = s.thm := by
  unfold fireAlarm
  try dsimp only
  first
    | (simp; done)
    | ((repeat' split) <;> simp; done)
    | (repeat' (first | (simp; done) | split))

theorem fireAlarm_stm (a0 : ℕ) (s : State) : (fireAlarm a0 s).stm = s.stm := by
  unfold fireAlarm
  try dsimp only
  first
    | (simp; done)
    | ((repeat' split) <;> simp; done)
    | (repeat' (first | (simp; done) | split))

theorem fireAlarm_bnd (a0 : ℕ) (s : State) : (fireAlarm a0 s).bnd = s.bnd := by
  unfold fireAlarm
  try dsimp only
  first
    | (simp; done)
    | ((repeat' split) <;> simp; done)
    | (repeat' (first | (simp; done) | split))

theorem fireAlarm_sec (a0 : ℕ) (s : State) : (fireAlarm a0 s).sec = s.sec := by
  unfold fireAlarm
  try dsimp only
  first
    | (simp; done)
    | ((repeat' split) <;> simp; done)
    | (repeat' (first | (simp; done) | split))

theorem fireAlarm_memc (a0 : ℕ) (s : State) : (fireAlarm a0 s).memc = s.memc := by
  unfold fireAlarm
  try dsimp only
  first
    | (simp; done)
    | ((repeat' split) <;> simp; done)
    | (repeat' (first | (simp; done) | split))

theorem fireAlarm_mov (a0 : ℕ) (s : State) : (fireAlarm a0 s).mov = s.mov := by
  unfold fireAlarm
  try dsimp only
  first
    | (simp; done)
    | ((repeat' split) <;> simp; done)
    | (repeat' (first | (simp; done) | split))

@[simp] theorem fireAlarm_frame (a0 : ℕ) (s : State) :
    (fireAlarm a0 s).pending = s.pending ∧ (fireAlarm a0 s).latch = s.latch ∧ (fireAlarm a0 s).thm = s.thm ∧ (fireAlarm a0 s).stm = s.stm ∧ (fireAlarm a0 s).bnd = s.bnd ∧ (fireAlarm a0 s).sec = s.sec ∧ (fireAlarm a0 s).memc = s.memc ∧ (fireAlarm a0 s).mov = s.mov :=
  ⟨fireAlarm_pending a0 s, fireAlarm_latch a0 s, fireAlarm_thm a0 s, fireAlarm_stm a0 s, fireAlarm_bnd a0 s, fireAlarm_sec a0 s, fireAlarm_memc a0 s, fireAlarm_mov a0 s⟩

theorem fireAlarms_pending (s : State) : (fireAlarms s).pending = s.pending := by
  unfold fireAlarms
  try dsimp only
  repeat' (first | (simp; done) | (have h := appendRec_frame (by assumption); simp [h]; done) | (have h := takeSlot_frame (by assumption); simp [h]; done) | (have h := placePage_frame (by assumption); simp [h]; done) | (have h := placePart_frame (by assumption); simp [h]; done) | (have h := closeStream_frame (by assumption); simp [h]; done) | split | (refine (forAll_pending _ _ _ (fun x s => ?_)).trans ?_; try dsimp only) | (refine adminCmd_pending _ _ _ _ ?_; try dsimp only) | (refine provision_pending _ _ _ _  ?_; intros; try dsimp only) | (refine receive_pending _ _ _ _  ?_; intros; try dsimp only) | (refine fltReq_pending _ _ _ _  ?_; intros; try dsimp only) | simp)

theorem fireAlarms_latch (s : State) : (fireAlarms s).latch = s.latch := by
  unfold fireAlarms
  try dsimp only
  repeat' (first | (simp; done) | (have h := appendRec_frame (by assumption); simp [h]; done) | (have h := takeSlot_frame (by assumption); simp [h]; done) | (have h := placePage_frame (by assumption); simp [h]; done) | (have h := placePart_frame (by assumption); simp [h]; done) | (have h := closeStream_frame (by assumption); simp [h]; done) | split | (refine (forAll_latch _ _ _ (fun x s => ?_)).trans ?_; try dsimp only) | (refine adminCmd_latch _ _ _ _ ?_; try dsimp only) | (refine provision_latch _ _ _ _  ?_; intros; try dsimp only) | (refine receive_latch _ _ _ _  ?_; intros; try dsimp only) | (refine fltReq_latch _ _ _ _  ?_; intros; try dsimp only) | simp)

theorem fireAlarms_thm (s : State) : (fireAlarms s).thm = s.thm := by
  unfold fireAlarms
  try dsimp only
  repeat' (first | (simp; done) | (have h := appendRec_frame (by assumption); simp [h]; done) | (have h := takeSlot_frame (by assumption); simp [h]; done) | (have h := placePage_frame (by assumption); simp [h]; done) | (have h := placePart_frame (by assumption); simp [h]; done) | (have h := closeStream_frame (by assumption); simp [h]; done) | split | (refine (forAll_thm _ _ _ (fun x s => ?_)).trans ?_; try dsimp only) | (refine adminCmd_thm _ _ _ _ ?_; try dsimp only) | (refine provision_thm _ _ _ _  ?_; intros; try dsimp only) | (refine receive_thm _ _ _ _  ?_; intros; try dsimp only) | (refine fltReq_thm _ _ _ _  ?_; intros; try dsimp only) | simp)

theorem fireAlarms_stm (s : State) : (fireAlarms s).stm = s.stm := by
  unfold fireAlarms
  try dsimp only
  repeat' (first | (simp; done) | (have h := appendRec_frame (by assumption); simp [h]; done) | (have h := takeSlot_frame (by assumption); simp [h]; done) | (have h := placePage_frame (by assumption); simp [h]; done) | (have h := placePart_frame (by assumption); simp [h]; done) | (have h := closeStream_frame (by assumption); simp [h]; done) | split | (refine (forAll_stm _ _ _ (fun x s => ?_)).trans ?_; try dsimp only) | (refine adminCmd_stm _ _ _ _ ?_; try dsimp only) | (refine provision_stm _ _ _ _  ?_; intros; try dsimp only) | (refine receive_stm _ _ _ _  ?_; intros; try dsimp only) | (refine fltReq_stm _ _ _ _  ?_; intros; try dsimp only) | simp)

theorem fireAlarms_bnd (s : State) : (fireAlarms s).bnd = s.bnd := by
  unfold fireAlarms
  try dsimp only
  repeat' (first | (simp; done) | (have h := appendRec_frame (by assumption); simp [h]; done) | (have h := takeSlot_frame (by assumption); simp [h]; done) | (have h := placePage_frame (by assumption); simp [h]; done) | (have h := placePart_frame (by assumption); simp [h]; done) | (have h := closeStream_frame (by assumption); simp [h]; done) | split | (refine (forAll_bnd _ _ _ (fun x s => ?_)).trans ?_; try dsimp only) | (refine adminCmd_bnd _ _ _ _ ?_; try dsimp only) | (refine provision_bnd _ _ _ _  ?_; intros; try dsimp only) | (refine receive_bnd _ _ _ _  ?_; intros; try dsimp only) | (refine fltReq_bnd _ _ _ _  ?_; intros; try dsimp only) | simp)

theorem fireAlarms_sec (s : State) : (fireAlarms s).sec = s.sec := by
  unfold fireAlarms
  try dsimp only
  repeat' (first | (simp; done) | (have h := appendRec_frame (by assumption); simp [h]; done) | (have h := takeSlot_frame (by assumption); simp [h]; done) | (have h := placePage_frame (by assumption); simp [h]; done) | (have h := placePart_frame (by assumption); simp [h]; done) | (have h := closeStream_frame (by assumption); simp [h]; done) | split | (refine (forAll_sec _ _ _ (fun x s => ?_)).trans ?_; try dsimp only) | (refine adminCmd_sec _ _ _ _ ?_; try dsimp only) | (refine receive_sec _ _ _ _  ?_; intros; try dsimp only) | (refine fltReq_sec _ _ _ _  ?_; intros; try dsimp only) | simp)

theorem fireAlarms_memc (s : State) : (fireAlarms s).memc = s.memc := by
  unfold fireAlarms
  try dsimp only
  repeat' (first | (simp; done) | (have h := appendRec_frame (by assumption); simp [h]; done) | (have h := takeSlot_frame (by assumption); simp [h]; done) | (have h := placePage_frame (by assumption); simp [h]; done) | (have h := placePart_frame (by assumption); simp [h]; done) | (have h := closeStream_frame (by assumption); simp [h]; done) | split | (refine (forAll_memc _ _ _ (fun x s => ?_)).trans ?_; try dsimp only) | (refine adminCmd_memc _ _ _ _ ?_; try dsimp only) | (refine provision_memc _ _ _ _  ?_; intros; try dsimp only) | (refine receive_memc _ _ _ _  ?_; intros; try dsimp only) | (refine fltReq_memc _ _ _ _  ?_; intros; try dsimp only) | simp)

theorem fireAlarms_mov (s : State) : (fireAlarms s).mov = s.mov := by
  unfold fireAlarms
  try dsimp only
  repeat' (first | (simp; done) | (have h := appendRec_frame (by assumption); simp [h]; done) | (have h := takeSlot_frame (by assumption); simp [h]; done) | (have h := placePage_frame (by assumption); simp [h]; done) | (have h := placePart_frame (by assumption); simp [h]; done) | (have h := closeStream_frame (by assumption); simp [h]; done) | split | (refine (forAll_mov _ _ _ (fun x s => ?_)).trans ?_; try dsimp only) | (refine adminCmd_mov _ _ _ _ ?_; try dsimp only) | (refine provision_mov _ _ _ _  ?_; intros; try dsimp only) | (refine receive_mov _ _ _ _  ?_; intros; try dsimp only) | (refine fltReq_mov _ _ _ _  ?_; intros; try dsimp only) | simp)

@[simp] theorem fireAlarms_frame (s : State) :
    (fireAlarms s).pending = s.pending ∧ (fireAlarms s).latch = s.latch ∧ (fireAlarms s).thm = s.thm ∧ (fireAlarms s).stm = s.stm ∧ (fireAlarms s).bnd = s.bnd ∧ (fireAlarms s).sec = s.sec ∧ (fireAlarms s).memc = s.memc ∧ (fireAlarms s).mov = s.mov :=
  ⟨fireAlarms_pending s, fireAlarms_latch s, fireAlarms_thm s, fireAlarms_stm s, fireAlarms_bnd s, fireAlarms_sec s, fireAlarms_memc s, fireAlarms_mov s⟩

/-! ### Plan -/

@[simp] theorem writeTable_frame (a0 : CtTable) (s : State) :
    (writeTable a0 s).pending = s.pending ∧ (writeTable a0 s).regs = s.regs ∧ (writeTable a0 s).latch = s.latch ∧ (writeTable a0 s).mem = s.mem ∧ (writeTable a0 s).sys = s.sys ∧ (writeTable a0 s).clk = s.clk ∧ (writeTable a0 s).thm = s.thm ∧ (writeTable a0 s).hif = s.hif ∧ (writeTable a0 s).stm = s.stm ∧ (writeTable a0 s).map = s.map ∧ (writeTable a0 s).flc = s.flc ∧ (writeTable a0 s).bnd = s.bnd ∧ (writeTable a0 s).mbr = s.mbr ∧ (writeTable a0 s).flt = s.flt ∧ (writeTable a0 s).sec = s.sec ∧ (writeTable a0 s).cpx = s.cpx ∧ (writeTable a0 s).memc = s.memc ∧ (writeTable a0 s).mov = s.mov ∧ (writeTable a0 s).cst = s.cst ∧ (writeTable a0 s).lnt = s.lnt ∧ (writeTable a0 s).out = s.out ∧ (writeTable a0 s).freeCtr = s.freeCtr := by
  unfold writeTable
  try dsimp only
  first
    | (simp; done)
    | ((repeat' split) <;> simp; done)
    | (and_intros <;> (repeat' (first | (simp; done) | split)))

theorem backlogStep_pending (s : State) : (backlogStep s).pending = s.pending := by
  unfold backlogStep
  try dsimp only
  first
    | (simp; done)
    | ((repeat' split) <;> simp; done)
    | (repeat' (first | (simp; done) | split))

theorem backlogStep_regs (s : State) : (backlogStep s).regs = s.regs := by
  unfold backlogStep
  try dsimp only
  first
    | (simp; done)
    | ((repeat' split) <;> simp; done)
    | (repeat' (first | (simp; done) | split))

theorem backlogStep_latch (s : State) : (backlogStep s).latch = s.latch := by
  unfold backlogStep
  try dsimp only
  first
    | (simp; done)
    | ((repeat' split) <;> simp; done)
    | (repeat' (first | (simp; done) | split))

theorem backlogStep_mem (s : State) : (backlogStep s).mem = s.mem := by
  unfold backlogStep
  try dsimp only
  first
    | (simp; done)
    | ((repeat' split) <;> simp; done)
    | (repeat' (first | (simp; done) | split))

theorem backlogStep_sys (s : State) : (backlogStep s).sys = s.sys := by
  unfold backlogStep
  try dsimp only
  first
    | (simp; done)
    | ((repeat' split) <;> simp; done)
    | (repeat' (first | (simp; done) | split))

theorem backlogStep_clk (s : State) : (backlogStep s).clk = s.clk := by
  unfold backlogStep
  try dsimp only
  first
    | (simp; done)
    | ((repeat' split) <;> simp; done)
    | (repeat' (first | (simp; done) | split))

theorem backlogStep_thm (s : State) : (backlogStep s).thm = s.thm := by
  unfold backlogStep
  try dsimp only
  first
    | (simp; done)
    | ((repeat' split) <;> simp; done)
    | (repeat' (first | (simp; done) | split))

theorem backlogStep_hif (s : State) : (backlogStep s).hif = s.hif := by
  unfold backlogStep
  try dsimp only
  first
    | (simp; done)
    | ((repeat' split) <;> simp; done)
    | (repeat' (first | (simp; done) | split))

theorem backlogStep_stm (s : State) : (backlogStep s).stm = s.stm := by
  unfold backlogStep
  try dsimp only
  first
    | (simp; done)
    | ((repeat' split) <;> simp; done)
    | (repeat' (first | (simp; done) | split))

theorem backlogStep_flc (s : State) : (backlogStep s).flc = s.flc := by
  unfold backlogStep
  try dsimp only
  first
    | (simp; done)
    | ((repeat' split) <;> simp; done)
    | (repeat' (first | (simp; done) | split))

theorem backlogStep_mbr (s : State) : (backlogStep s).mbr = s.mbr := by
  unfold backlogStep
  try dsimp only
  first
    | (simp; done)
    | ((repeat' split) <;> simp; done)
    | (repeat' (first | (simp; done) | split))

theorem backlogStep_flt (s : State) : (backlogStep s).flt = s.flt := by
  unfold backlogStep
  try dsimp only
  first
    | (simp; done)
    | ((repeat' split) <;> simp; done)
    | (repeat' (first | (simp; done) | split))

theorem backlogStep_sec (s : State) : (backlogStep s).sec = s.sec := by
  unfold backlogStep
  try dsimp only
  first
    | (simp; done)
    | ((repeat' split) <;> simp; done)
    | (repeat' (first | (simp; done) | split))

theorem backlogStep_cpx (s : State) : (backlogStep s).cpx = s.cpx := by
  unfold backlogStep
  try dsimp only
  first
    | (simp; done)
    | ((repeat' split) <;> simp; done)
    | (repeat' (first | (simp; done) | split))

theorem backlogStep_memc (s : State) : (backlogStep s).memc = s.memc := by
  unfold backlogStep
  try dsimp only
  first
    | (simp; done)
    | ((repeat' split) <;> simp; done)
    | (repeat' (first | (simp; done) | split))

theorem backlogStep_mov (s : State) : (backlogStep s).mov = s.mov := by
  unfold backlogStep
  try dsimp only
  first
    | (simp; done)
    | ((repeat' split) <;> simp; done)
    | (repeat' (first | (simp; done) | split))

theorem backlogStep_cst (s : State) : (backlogStep s).cst = s.cst := by
  unfold backlogStep
  try dsimp only
  first
    | (simp; done)
    | ((repeat' split) <;> simp; done)
    | (repeat' (first | (simp; done) | split))

theorem backlogStep_lnt (s : State) : (backlogStep s).lnt = s.lnt := by
  unfold backlogStep
  try dsimp only
  first
    | (simp; done)
    | ((repeat' split) <;> simp; done)
    | (repeat' (first | (simp; done) | split))

theorem backlogStep_out (s : State) : (backlogStep s).out = s.out := by
  unfold backlogStep
  try dsimp only
  first
    | (simp; done)
    | ((repeat' split) <;> simp; done)
    | (repeat' (first | (simp; done) | split))

theorem backlogStep_freeCtr (s : State) : (backlogStep s).freeCtr = s.freeCtr := by
  unfold backlogStep
  try dsimp only
  first
    | (simp; done)
    | ((repeat' split) <;> simp; done)
    | (repeat' (first | (simp; done) | split))

@[simp] theorem backlogStep_frame (s : State) :
    (backlogStep s).pending = s.pending ∧ (backlogStep s).regs = s.regs ∧ (backlogStep s).latch = s.latch ∧ (backlogStep s).mem = s.mem ∧ (backlogStep s).sys = s.sys ∧ (backlogStep s).clk = s.clk ∧ (backlogStep s).thm = s.thm ∧ (backlogStep s).hif = s.hif ∧ (backlogStep s).stm = s.stm ∧ (backlogStep s).flc = s.flc ∧ (backlogStep s).mbr = s.mbr ∧ (backlogStep s).flt = s.flt ∧ (backlogStep s).sec = s.sec ∧ (backlogStep s).cpx = s.cpx ∧ (backlogStep s).memc = s.memc ∧ (backlogStep s).mov = s.mov ∧ (backlogStep s).cst = s.cst ∧ (backlogStep s).lnt = s.lnt ∧ (backlogStep s).out = s.out ∧ (backlogStep s).freeCtr = s.freeCtr :=
  ⟨backlogStep_pending s, backlogStep_regs s, backlogStep_latch s, backlogStep_mem s, backlogStep_sys s, backlogStep_clk s, backlogStep_thm s, backlogStep_hif s, backlogStep_stm s, backlogStep_flc s, backlogStep_mbr s, backlogStep_flt s, backlogStep_sec s, backlogStep_cpx s, backlogStep_memc s, backlogStep_mov s, backlogStep_cst s, backlogStep_lnt s, backlogStep_out s, backlogStep_freeCtr s⟩

@[simp] theorem countPlan_frame (a0 : PlanAcc) (s : State) :
    (countPlan a0 s).pending = s.pending ∧ (countPlan a0 s).regs = s.regs ∧ (countPlan a0 s).latch = s.latch ∧ (countPlan a0 s).mem = s.mem ∧ (countPlan a0 s).sys = s.sys ∧ (countPlan a0 s).clk = s.clk ∧ (countPlan a0 s).thm = s.thm ∧ (countPlan a0 s).tck = s.tck ∧ (countPlan a0 s).hif = s.hif ∧ (countPlan a0 s).map = s.map ∧ (countPlan a0 s).flc = s.flc ∧ (countPlan a0 s).bnd = s.bnd ∧ (countPlan a0 s).mbr = s.mbr ∧ (countPlan a0 s).flt = s.flt ∧ (countPlan a0 s).sec = s.sec ∧ (countPlan a0 s).cpx = s.cpx ∧ (countPlan a0 s).memc = s.memc ∧ (countPlan a0 s).mov = s.mov ∧ (countPlan a0 s).cst = s.cst ∧ (countPlan a0 s).lnt = s.lnt ∧ (countPlan a0 s).out = s.out ∧ (countPlan a0 s).freeCtr = s.freeCtr := by
  unfold countPlan
  try dsimp only
  and_intros
  · repeat' (first | (simp; done) | (have h := appendRec_frame (by assumption); simp [h]; done) | (have h := takeSlot_frame (by assumption); simp [h]; done) | (have h := placePage_frame (by assumption); simp [h]; done) | (have h := placePart_frame (by assumption); simp [h]; done) | (have h := closeStream_frame (by assumption); simp [h]; done) | split | (refine (forAll_pending _ _ _ (fun x s => ?_)).trans ?_; try dsimp only) | (refine adminCmd_pending _ _ _ _ ?_; try dsimp only) | (refine provision_pending _ _ _ _  ?_; intros; try dsimp only) | (refine receive_pending _ _ _ _  ?_; intros; try dsimp only) | (refine fltReq_pending _ _ _ _  ?_; intros; try dsimp only) | simp)
  · repeat' (first | (simp; done) | (have h := appendRec_frame (by assumption); simp [h]; done) | (have h := takeSlot_frame (by assumption); simp [h]; done) | (have h := placePage_frame (by assumption); simp [h]; done) | (have h := placePart_frame (by assumption); simp [h]; done) | (have h := closeStream_frame (by assumption); simp [h]; done) | split | (refine (forAll_regs _ _ _ (fun x s => ?_)).trans ?_; try dsimp only) | (refine adminCmd_regs _ _ _ _ ?_; try dsimp only) | simp)
  · repeat' (first | (simp; done) | (have h := appendRec_frame (by assumption); simp [h]; done) | (have h := takeSlot_frame (by assumption); simp [h]; done) | (have h := placePage_frame (by assumption); simp [h]; done) | (have h := placePart_frame (by assumption); simp [h]; done) | (have h := closeStream_frame (by assumption); simp [h]; done) | split | (refine (forAll_latch _ _ _ (fun x s => ?_)).trans ?_; try dsimp only) | (refine adminCmd_latch _ _ _ _ ?_; try dsimp only) | (refine provision_latch _ _ _ _  ?_; intros; try dsimp only) | (refine receive_latch _ _ _ _  ?_; intros; try dsimp only) | (refine fltReq_latch _ _ _ _  ?_; intros; try dsimp only) | simp)
  · repeat' (first | (simp; done) | (have h := appendRec_frame (by assumption); simp [h]; done) | (have h := takeSlot_frame (by assumption); simp [h]; done) | (have h := placePage_frame (by assumption); simp [h]; done) | (have h := placePart_frame (by assumption); simp [h]; done) | (have h := closeStream_frame (by assumption); simp [h]; done) | split | (refine (forAll_mem _ _ _ (fun x s => ?_)).trans ?_; try dsimp only) | (refine adminCmd_mem _ _ _ _ ?_; try dsimp only) | (refine provision_mem _ _ _ _  ?_; intros; try dsimp only) | (refine receive_mem _ _ _ _  ?_; intros; try dsimp only) | (refine fltReq_mem _ _ _ _  ?_; intros; try dsimp only) | simp)
  · repeat' (first | (simp; done) | (have h := appendRec_frame (by assumption); simp [h]; done) | (have h := takeSlot_frame (by assumption); simp [h]; done) | (have h := placePage_frame (by assumption); simp [h]; done) | (have h := placePart_frame (by assumption); simp [h]; done) | (have h := closeStream_frame (by assumption); simp [h]; done) | split | (refine (forAll_sys _ _ _ (fun x s => ?_)).trans ?_; try dsimp only) | (refine adminCmd_sys _ _ _ _ ?_; try dsimp only) | simp)
  · repeat' (first | (simp; done) | (have h := appendRec_frame (by assumption); simp [h]; done) | (have h := takeSlot_frame (by assumption); simp [h]; done) | (have h := placePage_frame (by assumption); simp [h]; done) | (have h := placePart_frame (by assumption); simp [h]; done) | (have h := closeStream_frame (by assumption); simp [h]; done) | split | (refine (forAll_clk _ _ _ (fun x s => ?_)).trans ?_; try dsimp only) | (refine adminCmd_clk _ _ _ _ ?_; try dsimp only) | (refine provision_clk _ _ _ _  ?_; intros; try dsimp only) | (refine receive_clk _ _ _ _  ?_; intros; try dsimp only) | (refine fltReq_clk _ _ _ _  ?_; intros; try dsimp only) | simp)
  · repeat' (first | (simp; done) | (have h := appendRec_frame (by assumption); simp [h]; done) | (have h := takeSlot_frame (by assumption); simp [h]; done) | (have h := placePage_frame (by assumption); simp [h]; done) | (have h := placePart_frame (by assumption); simp [h]; done) | (have h := closeStream_frame (by assumption); simp [h]; done) | split | (refine (forAll_thm _ _ _ (fun x s => ?_)).trans ?_; try dsimp only) | (refine adminCmd_thm _ _ _ _ ?_; try dsimp only) | (refine provision_thm _ _ _ _  ?_; intros; try dsimp only) | (refine receive_thm _ _ _ _  ?_; intros; try dsimp only) | (refine fltReq_thm _ _ _ _  ?_; intros; try dsimp only) | simp)
  · repeat' (first | (simp; done) | (have h := appendRec_frame (by assumption); simp [h]; done) | (have h := takeSlot_frame (by assumption); simp [h]; done) | (have h := placePage_frame (by assumption); simp [h]; done) | (have h := placePart_frame (by assumption); simp [h]; done) | (have h := closeStream_frame (by assumption); simp [h]; done) | split | (refine (forAll_tck _ _ _ (fun x s => ?_)).trans ?_; try dsimp only) | (refine adminCmd_tck _ _ _ _ ?_; try dsimp only) | (refine provision_tck _ _ _ _  ?_; intros; try dsimp only) | (refine receive_tck _ _ _ _  ?_; intros; try dsimp only) | (refine fltReq_tck _ _ _ _  ?_; intros; try dsimp only) | simp)
  · repeat' (first | (simp; done) | (have h := appendRec_frame (by assumption); simp [h]; done) | (have h := takeSlot_frame (by assumption); simp [h]; done) | (have h := placePage_frame (by assumption); simp [h]; done) | (have h := placePart_frame (by assumption); simp [h]; done) | (have h := closeStream_frame (by assumption); simp [h]; done) | split | (refine (forAll_hif _ _ _ (fun x s => ?_)).trans ?_; try dsimp only) | (refine provision_hif _ _ _ _  ?_; intros; try dsimp only) | (refine receive_hif _ _ _ _  ?_; intros; try dsimp only) | (refine fltReq_hif _ _ _ _  ?_; intros; try dsimp only) | simp)
  · repeat' (first | (simp; done) | (have h := appendRec_frame (by assumption); simp [h]; done) | (have h := takeSlot_frame (by assumption); simp [h]; done) | (have h := placePage_frame (by assumption); simp [h]; done) | (have h := placePart_frame (by assumption); simp [h]; done) | (have h := closeStream_frame (by assumption); simp [h]; done) | split | (refine (forAll_map _ _ _ (fun x s => ?_)).trans ?_; try dsimp only) | (refine adminCmd_map _ _ _ _ ?_; try dsimp only) | (refine provision_map _ _ _ _  ?_; intros; try dsimp only) | (refine receive_map _ _ _ _  ?_; intros; try dsimp only) | (refine fltReq_map _ _ _ _  ?_; intros; try dsimp only) | simp)
  · repeat' (first | (simp; done) | (have h := appendRec_frame (by assumption); simp [h]; done) | (have h := takeSlot_frame (by assumption); simp [h]; done) | (have h := placePage_frame (by assumption); simp [h]; done) | (have h := placePart_frame (by assumption); simp [h]; done) | (have h := closeStream_frame (by assumption); simp [h]; done) | split | (refine (forAll_flc _ _ _ (fun x s => ?_)).trans ?_; try dsimp only) | (refine adminCmd_flc _ _ _ _ ?_; try dsimp only) | (refine provision_flc _ _ _ _  ?_; intros; try dsimp only) | (refine receive_flc _ _ _ _  ?_; intros; try dsimp only) | (refine fltReq_flc _ _ _ _  ?_; intros; try dsimp only) | simp)
  · repeat' (first | (simp; done) | (have h := appendRec_frame (by assumption); simp [h]; done) | (have h := takeSlot_frame (by assumption); simp [h]; done) | (have h := placePage_frame (by assumption); simp [h]; done) | (have h := placePart_frame (by assumption); simp [h]; done) | (have h := closeStream_frame (by assumption); simp [h]; done) | split | (refine (forAll_bnd _ _ _ (fun x s => ?_)).trans ?_; try dsimp only) | (refine adminCmd_bnd _ _ _ _ ?_; try dsimp only) | (refine provision_bnd _ _ _ _  ?_; intros; try dsimp only) | (refine receive_bnd _ _ _ _  ?_; intros; try dsimp only) | (refine fltReq_bnd _ _ _ _  ?_; intros; try dsimp only) | simp)
  · repeat' (first | (simp; done) | (have h := appendRec_frame (by assumption); simp [h]; done) | (have h := takeSlot_frame (by assumption); simp [h]; done) | (have h := placePage_frame (by assumption); simp [h]; done) | (have h := placePart_frame (by assumption); simp [h]; done) | (have h := closeStream_frame (by assumption); simp [h]; done) | split | (refine (forAll_mbr _ _ _ (fun x s => ?_)).trans ?_; try dsimp only) | (refine adminCmd_mbr _ _ _ _ ?_; try dsimp only) | (refine provision_mbr _ _ _ _  ?_; intros; try dsimp only) | (refine receive_mbr _ _ _ _  ?_; intros; try dsimp only) | (refine fltReq_mbr _ _ _ _  ?_; intros; try dsimp only) | simp)
  · repeat' (first | (simp; done) | (have h := appendRec_frame (by assumption); simp [h]; done) | (have h := takeSlot_frame (by assumption); simp [h]; done) | (have h := placePage_frame (by assumption); simp [h]; done) | (have h := placePart_frame (by assumption); simp [h]; done) | (have h := closeStream_frame (by assumption); simp [h]; done) | split | (refine (forAll_flt _ _ _ (fun x s => ?_)).trans ?_; try dsimp only) | (refine adminCmd_flt _ _ _ _ ?_; try dsimp only) | (refine provision_flt _ _ _ _  ?_; intros; try dsimp only) | (refine fltReq_flt _ _ _ _  ?_; intros; try dsimp only) | simp)
  · repeat' (first | (simp; done) | (have h := appendRec_frame (by assumption); simp [h]; done) | (have h := takeSlot_frame (by assumption); simp [h]; done) | (have h := placePage_frame (by assumption); simp [h]; done) | (have h := placePart_frame (by assumption); simp [h]; done) | (have h := closeStream_frame (by assumption); simp [h]; done) | split | (refine (forAll_sec _ _ _ (fun x s => ?_)).trans ?_; try dsimp only) | (refine adminCmd_sec _ _ _ _ ?_; try dsimp only) | (refine receive_sec _ _ _ _  ?_; intros; try dsimp only) | (refine fltReq_sec _ _ _ _  ?_; intros; try dsimp only) | simp)
  · repeat' (first | (simp; done) | (have h := appendRec_frame (by assumption); simp [h]; done) | (have h := takeSlot_frame (by assumption); simp [h]; done) | (have h := placePage_frame (by assumption); simp [h]; done) | (have h := placePart_frame (by assumption); simp [h]; done) | (have h := closeStream_frame (by assumption); simp [h]; done) | split | (refine (forAll_cpx _ _ _ (fun x s => ?_)).trans ?_; try dsimp only) | (refine adminCmd_cpx _ _ _ _ ?_; try dsimp only) | (refine provision_cpx _ _ _ _  ?_; intros; try dsimp only) | (refine receive_cpx _ _ _ _  ?_; intros; try dsimp only) | (refine fltReq_cpx _ _ _ _  ?_; intros; try dsimp only) | simp)
  · repeat' (first | (simp; done) | (have h := appendRec_frame (by assumption); simp [h]; done) | (have h := takeSlot_frame (by assumption); simp [h]; done) | (have h := placePage_frame (by assumption); simp [h]; done) | (have h := placePart_frame (by assumption); simp [h]; done) | (have h := closeStream_frame (by assumption); simp [h]; done) | split | (refine (forAll_memc _ _ _ (fun x s => ?_)).trans ?_; try dsimp only) | (refine adminCmd_memc _ _ _ _ ?_; try dsimp only) | (refine provision_memc _ _ _ _  ?_; intros; try dsimp only) | (refine receive_memc _ _ _ _  ?_; intros; try dsimp only) | (refine fltReq_memc _ _ _ _  ?_; intros; try dsimp only) | simp)
  · repeat' (first | (simp; done) | (have h := appendRec_frame (by assumption); simp [h]; done) | (have h := takeSlot_frame (by assumption); simp [h]; done) | (have h := placePage_frame (by assumption); simp [h]; done) | (have h := placePart_frame (by assumption); simp [h]; done) | (have h := closeStream_frame (by assumption); simp [h]; done) | split | (refine (forAll_mov _ _ _ (fun x s => ?_)).trans ?_; try dsimp only) | (refine adminCmd_mov _ _ _ _ ?_; try dsimp only) | (refine provision_mov _ _ _ _  ?_; intros; try dsimp only) | (refine receive_mov _ _ _ _  ?_; intros; try dsimp only) | (refine fltReq_mov _ _ _ _  ?_; intros; try dsimp only) | simp)
  · repeat' (first | (simp; done) | (have h := appendRec_frame (by assumption); simp [h]; done) | (have h := takeSlot_frame (by assumption); simp [h]; done) | (have h := placePage_frame (by assumption); simp [h]; done) | (have h := placePart_frame (by assumption); simp [h]; done) | (have h := closeStream_frame (by assumption); simp [h]; done) | split | (refine (forAll_cst _ _ _ (fun x s => ?_)).trans ?_; try dsimp only) | (refine adminCmd_cst _ _ _ _ ?_; try dsimp only) | (refine provision_cst _ _ _ _  ?_; intros; try dsimp only) | (refine receive_cst _ _ _ _  ?_; intros; try dsimp only) | (refine fltReq_cst _ _ _ _  ?_; intros; try dsimp only) | simp)
  · repeat' (first | (simp; done) | (have h := appendRec_frame (by assumption); simp [h]; done) | (have h := takeSlot_frame (by assumption); simp [h]; done) | (have h := placePage_frame (by assumption); simp [h]; done) | (have h := placePart_frame (by assumption); simp [h]; done) | (have h := closeStream_frame (by assumption); simp [h]; done) | split | (refine (forAll_lnt _ _ _ (fun x s => ?_)).trans ?_; try dsimp only) | simp)
  · repeat' (first | (simp; done) | (have h := appendRec_frame (by assumption); simp [h]; done) | (have h := takeSlot_frame (by assumption); simp [h]; done) | (have h := placePage_frame (by assumption); simp [h]; done) | (have h := placePart_frame (by assumption); simp [h]; done) | (have h := closeStream_frame (by assumption); simp [h]; done) | split | (refine (forAll_out _ _ _ (fun x s => ?_)).trans ?_; try dsimp only) | (refine provision_out _ _ _ _  ?_; intros; try dsimp only) | simp)
  · repeat' (first | (simp; done) | (have h := appendRec_frame (by assumption); simp [h]; done) | (have h := takeSlot_frame (by assumption); simp [h]; done) | (have h := placePage_frame (by assumption); simp [h]; done) | (have h := placePart_frame (by assumption); simp [h]; done) | (have h := closeStream_frame (by assumption); simp [h]; done) | split | (refine (forAll_freeCtr _ _ _ (fun x s => ?_)).trans ?_; try dsimp only) | (refine adminCmd_freeCtr _ _ _ _ ?_; try dsimp only) | (refine provision_freeCtr _ _ _ _  ?_; intros; try dsimp only) | (refine receive_freeCtr _ _ _ _  ?_; intros; try dsimp only) | (refine fltReq_freeCtr _ _ _ _  ?_; intros; try dsimp only) | simp)

theorem cutOff_pending (a0 : List ℕ) (a1 : ℕ) (s : State) : (cutOff a0 a1 s).pending = s.pending := by
  unfold cutOff
  try dsimp only
  first
    | (simp; done)
    | ((repeat' split) <;> simp; done)
    | (repeat' (first | (simp; done) | split))

theorem cutOff_latch (a0 : List ℕ) (a1 : ℕ) (s : State) : (cutOff a0 a1 s).latch = s.latch := by
  unfold cutOff
  try dsimp only
  first
    | (simp; done)
    | ((repeat' split) <;> simp; done)
    | (repeat' (first | (simp; done) | split))

theorem cutOff_mem (a0 : List ℕ) (a1 : ℕ) (s : State) : (cutOff a0 a1 s).mem = s.mem := by
  unfold cutOff
  try dsimp only
  first
    | (simp; done)
    | ((repeat' split) <;> simp; done)
    | (repeat' (first | (simp; done) | split))

theorem cutOff_clk (a0 : List ℕ) (a1 : ℕ) (s : State) : (cutOff a0 a1 s).clk = s.clk := by
  unfold cutOff
  try dsimp only
  first
    | (simp; done)
    | ((repeat' split) <;> simp; done)
    | (repeat' (first | (simp; done) | split))

theorem cutOff_thm (a0 : List ℕ) (a1 : ℕ) (s : State) : (cutOff a0 a1 s).thm = s.thm := by
  unfold cutOff
  try dsimp only
  first
    | (simp; done)
    | ((repeat' split) <;> simp; done)
    | (repeat' (first | (simp; done) | split))

theorem cutOff_flt (a0 : List ℕ) (a1 : ℕ) (s : State) : (cutOff a0 a1 s).flt = s.flt := by
  unfold cutOff
  try dsimp only
  first
    | (simp; done)
    | ((repeat' split) <;> simp; done)
    | (repeat' (first | (simp; done) | split))

theorem cutOff_memc (a0 : List ℕ) (a1 : ℕ) (s : State) : (cutOff a0 a1 s).memc = s.memc := by
  unfold cutOff
  try dsimp only
  first
    | (simp; done)
    | ((repeat' split) <;> simp; done)
    | (repeat' (first | (simp; done) | split))

theorem cutOff_mov (a0 : List ℕ) (a1 : ℕ) (s : State) : (cutOff a0 a1 s).mov = s.mov := by
  unfold cutOff
  try dsimp only
  first
    | (simp; done)
    | ((repeat' split) <;> simp; done)
    | (repeat' (first | (simp; done) | split))

theorem cutOff_freeCtr (a0 : List ℕ) (a1 : ℕ) (s : State) : (cutOff a0 a1 s).freeCtr = s.freeCtr := by
  unfold cutOff
  try dsimp only
  first
    | (simp; done)
    | ((repeat' split) <;> simp; done)
    | (repeat' (first | (simp; done) | split))

@[simp] theorem cutOff_frame (a0 : List ℕ) (a1 : ℕ) (s : State) :
    (cutOff a0 a1 s).pending = s.pending ∧ (cutOff a0 a1 s).latch = s.latch ∧ (cutOff a0 a1 s).mem = s.mem ∧ (cutOff a0 a1 s).clk = s.clk ∧ (cutOff a0 a1 s).thm = s.thm ∧ (cutOff a0 a1 s).flt = s.flt ∧ (cutOff a0 a1 s).memc = s.memc ∧ (cutOff a0 a1 s).mov = s.mov ∧ (cutOff a0 a1 s).freeCtr = s.freeCtr :=
  ⟨cutOff_pending a0 a1 s, cutOff_latch a0 a1 s, cutOff_mem a0 a1 s, cutOff_clk a0 a1 s, cutOff_thm a0 a1 s, cutOff_flt a0 a1 s, cutOff_memc a0 a1 s, cutOff_mov a0 a1 s, cutOff_freeCtr a0 a1 s⟩

@[simp] theorem atStepTwo_frame (s : State) :
    (atStepTwo s).pending = s.pending ∧ (atStepTwo s).latch = s.latch ∧ (atStepTwo s).mem = s.mem ∧ (atStepTwo s).sys = s.sys ∧ (atStepTwo s).clk = s.clk ∧ (atStepTwo s).thm = s.thm ∧ (atStepTwo s).tck = s.tck ∧ (atStepTwo s).hif = s.hif ∧ (atStepTwo s).stm = s.stm ∧ (atStepTwo s).map = s.map ∧ (atStepTwo s).flc = s.flc ∧ (atStepTwo s).bnd = s.bnd ∧ (atStepTwo s).mbr = s.mbr ∧ (atStepTwo s).flt = s.flt ∧ (atStepTwo s).sec = s.sec ∧ (atStepTwo s).cpx = s.cpx ∧ (atStepTwo s).memc = s.memc ∧ (atStepTwo s).mov = s.mov ∧ (atStepTwo s).cst = s.cst ∧ (atStepTwo s).lnt = s.lnt ∧ (atStepTwo s).out = s.out ∧ (atStepTwo s).freeCtr = s.freeCtr := by
  unfold atStepTwo
  try dsimp only
  first
    | (simp; done)
    | ((repeat' split) <;> simp; done)
    | (and_intros <;> (repeat' (first | (simp; done) | split)))

/-! ### Tick -/

@[simp] theorem takeDesc_frame (a0 : ℕ) (a1 : Desc) (a2 : List Byte) (s : State) :
    (takeDesc a0 a1 a2 s).pending = s.pending ∧ (takeDesc a0 a1 a2 s).latch = s.latch ∧ (takeDesc a0 a1 a2 s).mem = s.mem ∧ (takeDesc a0 a1 a2 s).clk = s.clk ∧ (takeDesc a0 a1 a2 s).thm = s.thm ∧ (takeDesc a0 a1 a2 s).tck = s.tck ∧ (takeDesc a0 a1 a2 s).hif = s.hif ∧ (takeDesc a0 a1 a2 s).stm = s.stm ∧ (takeDesc a0 a1 a2 s).map = s.map ∧ (takeDesc a0 a1 a2 s).flc = s.flc ∧ (takeDesc a0 a1 a2 s).bnd = s.bnd ∧ (takeDesc a0 a1 a2 s).mbr = s.mbr ∧ (takeDesc a0 a1 a2 s).flt = s.flt ∧ (takeDesc a0 a1 a2 s).sec = s.sec ∧ (takeDesc a0 a1 a2 s).cpx = s.cpx ∧ (takeDesc a0 a1 a2 s).memc = s.memc ∧ (takeDesc a0 a1 a2 s).mov = s.mov ∧ (takeDesc a0 a1 a2 s).cst = s.cst ∧ (takeDesc a0 a1 a2 s).freeCtr = s.freeCtr := by
  unfold takeDesc
  try dsimp only
  first
    | (simp; done)
    | ((repeat' split) <;> simp; done)
    | (and_intros <;> (repeat' (first | (simp; done) | split)))

@[simp] theorem setRing_frame (a0 : ℕ) (a1 : Ring → Ring) (s : State) :
    (setRing a0 a1 s).pending = s.pending ∧ (setRing a0 a1 s).regs = s.regs ∧ (setRing a0 a1 s).latch = s.latch ∧ (setRing a0 a1 s).mem = s.mem ∧ (setRing a0 a1 s).clk = s.clk ∧ (setRing a0 a1 s).thm = s.thm ∧ (setRing a0 a1 s).tck = s.tck ∧ (setRing a0 a1 s).hif = s.hif ∧ (setRing a0 a1 s).stm = s.stm ∧ (setRing a0 a1 s).map = s.map ∧ (setRing a0 a1 s).flc = s.flc ∧ (setRing a0 a1 s).bnd = s.bnd ∧ (setRing a0 a1 s).mbr = s.mbr ∧ (setRing a0 a1 s).flt = s.flt ∧ (setRing a0 a1 s).sec = s.sec ∧ (setRing a0 a1 s).cpx = s.cpx ∧ (setRing a0 a1 s).memc = s.memc ∧ (setRing a0 a1 s).mov = s.mov ∧ (setRing a0 a1 s).cst = s.cst ∧ (setRing a0 a1 s).lnt = s.lnt ∧ (setRing a0 a1 s).out = s.out ∧ (setRing a0 a1 s).freeCtr = s.freeCtr := by
  unfold setRing
  try dsimp only
  first
    | (simp; done)
    | ((repeat' split) <;> simp; done)
    | (and_intros <;> (repeat' (first | (simp; done) | split)))

@[simp] theorem writeRecord_frame (a0 : ℕ) (a1 : CplRec) (s : State) :
    (writeRecord a0 a1 s).pending = s.pending ∧ (writeRecord a0 a1 s).regs = s.regs ∧ (writeRecord a0 a1 s).latch = s.latch ∧ (writeRecord a0 a1 s).clk = s.clk ∧ (writeRecord a0 a1 s).thm = s.thm ∧ (writeRecord a0 a1 s).tck = s.tck ∧ (writeRecord a0 a1 s).hif = s.hif ∧ (writeRecord a0 a1 s).stm = s.stm ∧ (writeRecord a0 a1 s).map = s.map ∧ (writeRecord a0 a1 s).flc = s.flc ∧ (writeRecord a0 a1 s).bnd = s.bnd ∧ (writeRecord a0 a1 s).mbr = s.mbr ∧ (writeRecord a0 a1 s).flt = s.flt ∧ (writeRecord a0 a1 s).sec = s.sec ∧ (writeRecord a0 a1 s).cpx = s.cpx ∧ (writeRecord a0 a1 s).memc = s.memc ∧ (writeRecord a0 a1 s).mov = s.mov ∧ (writeRecord a0 a1 s).cst = s.cst ∧ (writeRecord a0 a1 s).lnt = s.lnt ∧ (writeRecord a0 a1 s).out = s.out ∧ (writeRecord a0 a1 s).freeCtr = s.freeCtr := by
  unfold writeRecord
  try dsimp only
  first
    | (simp; done)
    | ((repeat' split) <;> simp; done)
    | (and_intros <;> (repeat' (first | (simp; done) | split)))

@[simp] theorem ringFlush_frame (a0 : ℕ) (s : State) :
    (ringFlush a0 s).pending = s.pending ∧ (ringFlush a0 s).regs = s.regs ∧ (ringFlush a0 s).latch = s.latch ∧ (ringFlush a0 s).clk = s.clk ∧ (ringFlush a0 s).thm = s.thm ∧ (ringFlush a0 s).tck = s.tck ∧ (ringFlush a0 s).hif = s.hif ∧ (ringFlush a0 s).stm = s.stm ∧ (ringFlush a0 s).map = s.map ∧ (ringFlush a0 s).flc = s.flc ∧ (ringFlush a0 s).bnd = s.bnd ∧ (ringFlush a0 s).mbr = s.mbr ∧ (ringFlush a0 s).flt = s.flt ∧ (ringFlush a0 s).sec = s.sec ∧ (ringFlush a0 s).cpx = s.cpx ∧ (ringFlush a0 s).memc = s.memc ∧ (ringFlush a0 s).mov = s.mov ∧ (ringFlush a0 s).cst = s.cst ∧ (ringFlush a0 s).lnt = s.lnt ∧ (ringFlush a0 s).out = s.out ∧ (ringFlush a0 s).freeCtr = s.freeCtr := by
  unfold ringFlush
  try dsimp only
  first
    | (simp; done)
    | ((repeat' split) <;> simp; done)
    | (and_intros <;> (repeat' (first | (simp; done) | split)))

@[simp] theorem adminFlush_frame (s : State) :
    (adminFlush s).pending = s.pending ∧ (adminFlush s).regs = s.regs ∧ (adminFlush s).latch = s.latch ∧ (adminFlush s).mem = s.mem ∧ (adminFlush s).clk = s.clk ∧ (adminFlush s).thm = s.thm ∧ (adminFlush s).tck = s.tck ∧ (adminFlush s).stm = s.stm ∧ (adminFlush s).map = s.map ∧ (adminFlush s).flc = s.flc ∧ (adminFlush s).bnd = s.bnd ∧ (adminFlush s).mbr = s.mbr ∧ (adminFlush s).flt = s.flt ∧ (adminFlush s).sec = s.sec ∧ (adminFlush s).cpx = s.cpx ∧ (adminFlush s).memc = s.memc ∧ (adminFlush s).mov = s.mov ∧ (adminFlush s).cst = s.cst ∧ (adminFlush s).freeCtr = s.freeCtr := by
  unfold adminFlush
  try dsimp only
  first
    | (simp; done)
    | ((repeat' split) <;> simp; done)
    | (and_intros <;> (repeat' (first | (simp; done) | split)))

@[simp] theorem takeFrom_frame (a0 : ℕ) (a1 : ℕ) (a2 : ℕ) (s : State) :
    (takeFrom a0 a1 a2 s).pending = s.pending ∧ (takeFrom a0 a1 a2 s).latch = s.latch ∧ (takeFrom a0 a1 a2 s).mem = s.mem ∧ (takeFrom a0 a1 a2 s).clk = s.clk ∧ (takeFrom a0 a1 a2 s).thm = s.thm ∧ (takeFrom a0 a1 a2 s).tck = s.tck ∧ (takeFrom a0 a1 a2 s).hif = s.hif ∧ (takeFrom a0 a1 a2 s).stm = s.stm ∧ (takeFrom a0 a1 a2 s).map = s.map ∧ (takeFrom a0 a1 a2 s).flc = s.flc ∧ (takeFrom a0 a1 a2 s).bnd = s.bnd ∧ (takeFrom a0 a1 a2 s).mbr = s.mbr ∧ (takeFrom a0 a1 a2 s).flt = s.flt ∧ (takeFrom a0 a1 a2 s).sec = s.sec ∧ (takeFrom a0 a1 a2 s).cpx = s.cpx ∧ (takeFrom a0 a1 a2 s).memc = s.memc ∧ (takeFrom a0 a1 a2 s).mov = s.mov ∧ (takeFrom a0 a1 a2 s).cst = s.cst ∧ (takeFrom a0 a1 a2 s).freeCtr = s.freeCtr := by
  induction a1 generalizing a2 s with
  | zero => simp [takeFrom]
  | succ fuel ih =>
  unfold takeFrom
  try dsimp only
  and_intros
  · repeat' (first | (simp; done) | (simp [*]; done) | (have h := appendRec_frame (by assumption); simp [h, *]; done) | (have h := takeSlot_frame (by assumption); simp [h, *]; done) | (have h := placePage_frame (by assumption); simp [h, *]; done) | (have h := placePart_frame (by assumption); simp [h, *]; done) | (have h := closeStream_frame (by assumption); simp [h, *]; done) | split | (refine (forAll_pending _ _ _ (fun x s => ?_)).trans ?_; try dsimp only) | (refine adminCmd_pending _ _ _ _ ?_; try dsimp only) | (refine provision_pending _ _ _ _  ?_; intros; try dsimp only) | (refine receive_pending _ _ _ _  ?_; intros; try dsimp only) | (refine fltReq_pending _ _ _ _  ?_; intros; try dsimp only) | simp)
  · repeat' (first | (simp; done) | (simp [*]; done) | (have h := appendRec_frame (by assumption); simp [h, *]; done) | (have h := takeSlot_frame (by assumption); simp [h, *]; done) | (have h := placePage_frame (by assumption); simp [h, *]; done) | (have h := placePart_frame (by assumption); simp [h, *]; done) | (have h := closeStream_frame (by assumption); simp [h, *]; done) | split | (refine (forAll_latch _ _ _ (fun x s => ?_)).trans ?_; try dsimp only) | (refine adminCmd_latch _ _ _ _ ?_; try dsimp only) | (refine provision_latch _ _ _ _  ?_; intros; try dsimp only) | (refine receive_latch _ _ _ _  ?_; intros; try dsimp only) | (refine fltReq_latch _ _ _ _  ?_; intros; try dsimp only) | simp)
  · repeat' (first | (simp; done) | (simp [*]; done) | (have h := appendRec_frame (by assumption); simp [h, *]; done) | (have h := takeSlot_frame (by assumption); simp [h, *]; done) | (have h := placePage_frame (by assumption); simp [h, *]; done) | (have h := placePart_frame (by assumption); simp [h, *]; done) | (have h := closeStream_frame (by assumption); simp [h, *]; done) | split | (refine (forAll_mem _ _ _ (fun x s => ?_)).trans ?_; try dsimp only) | (refine adminCmd_mem _ _ _ _ ?_; try dsimp only) | (refine provision_mem _ _ _ _  ?_; intros; try dsimp only) | (refine receive_mem _ _ _ _  ?_; intros; try dsimp only) | (refine fltReq_mem _ _ _ _  ?_; intros; try dsimp only) | simp)
  · repeat' (first | (simp; done) | (simp [*]; done) | (have h := appendRec_frame (by assumption); simp [h, *]; done) | (have h := takeSlot_frame (by assumption); simp [h, *]; done) | (have h := placePage_frame (by assumption); simp [h, *]; done) | (have h := placePart_frame (by assumption); simp [h, *]; done) | (have h := closeStream_frame (by assumption); simp [h, *]; done) | split | (refine (forAll_clk _ _ _ (fun x s => ?_)).trans ?_; try dsimp only) | (refine adminCmd_clk _ _ _ _ ?_; try dsimp only) | (refine provision_clk _ _ _ _  ?_; intros; try dsimp only) | (refine receive_clk _ _ _ _  ?_; intros; try dsimp only) | (refine fltReq_clk _ _ _ _  ?_; intros; try dsimp only) | simp)
  · repeat' (first | (simp; done) | (simp [*]; done) | (have h := appendRec_frame (by assumption); simp [h, *]; done) | (have h := takeSlot_frame (by assumption); simp [h, *]; done) | (have h := placePage_frame (by assumption); simp [h, *]; done) | (have h := placePart_frame (by assumption); simp [h, *]; done) | (have h := closeStream_frame (by assumption); simp [h, *]; done) | split | (refine (forAll_thm _ _ _ (fun x s => ?_)).trans ?_; try dsimp only) | (refine adminCmd_thm _ _ _ _ ?_; try dsimp only) | (refine provision_thm _ _ _ _  ?_; intros; try dsimp only) | (refine receive_thm _ _ _ _  ?_; intros; try dsimp only) | (refine fltReq_thm _ _ _ _  ?_; intros; try dsimp only) | simp)
  · repeat' (first | (simp; done) | (simp [*]; done) | (have h := appendRec_frame (by assumption); simp [h, *]; done) | (have h := takeSlot_frame (by assumption); simp [h, *]; done) | (have h := placePage_frame (by assumption); simp [h, *]; done) | (have h := placePart_frame (by assumption); simp [h, *]; done) | (have h := closeStream_frame (by assumption); simp [h, *]; done) | split | (refine (forAll_tck _ _ _ (fun x s => ?_)).trans ?_; try dsimp only) | (refine adminCmd_tck _ _ _ _ ?_; try dsimp only) | (refine provision_tck _ _ _ _  ?_; intros; try dsimp only) | (refine receive_tck _ _ _ _  ?_; intros; try dsimp only) | (refine fltReq_tck _ _ _ _  ?_; intros; try dsimp only) | simp)
  · repeat' (first | (simp; done) | (simp [*]; done) | (have h := appendRec_frame (by assumption); simp [h, *]; done) | (have h := takeSlot_frame (by assumption); simp [h, *]; done) | (have h := placePage_frame (by assumption); simp [h, *]; done) | (have h := placePart_frame (by assumption); simp [h, *]; done) | (have h := closeStream_frame (by assumption); simp [h, *]; done) | split | (refine (forAll_hif _ _ _ (fun x s => ?_)).trans ?_; try dsimp only) | (refine provision_hif _ _ _ _  ?_; intros; try dsimp only) | (refine receive_hif _ _ _ _  ?_; intros; try dsimp only) | (refine fltReq_hif _ _ _ _  ?_; intros; try dsimp only) | simp)
  · repeat' (first | (simp; done) | (simp [*]; done) | (have h := appendRec_frame (by assumption); simp [h, *]; done) | (have h := takeSlot_frame (by assumption); simp [h, *]; done) | (have h := placePage_frame (by assumption); simp [h, *]; done) | (have h := placePart_frame (by assumption); simp [h, *]; done) | (have h := closeStream_frame (by assumption); simp [h, *]; done) | split | (refine (forAll_stm _ _ _ (fun x s => ?_)).trans ?_; try dsimp only) | (refine adminCmd_stm _ _ _ _ ?_; try dsimp only) | (refine provision_stm _ _ _ _  ?_; intros; try dsimp only) | (refine receive_stm _ _ _ _  ?_; intros; try dsimp only) | (refine fltReq_stm _ _ _ _  ?_; intros; try dsimp only) | simp)
  · repeat' (first | (simp; done) | (simp [*]; done) | (have h := appendRec_frame (by assumption); simp [h, *]; done) | (have h := takeSlot_frame (by assumption); simp [h, *]; done) | (have h := placePage_frame (by assumption); simp [h, *]; done) | (have h := placePart_frame (by assumption); simp [h, *]; done) | (have h := closeStream_frame (by assumption); simp [h, *]; done) | split | (refine (forAll_map _ _ _ (fun x s => ?_)).trans ?_; try dsimp only) | (refine adminCmd_map _ _ _ _ ?_; try dsimp only) | (refine provision_map _ _ _ _  ?_; intros; try dsimp only) | (refine receive_map _ _ _ _  ?_; intros; try dsimp only) | (refine fltReq_map _ _ _ _  ?_; intros; try dsimp only) | simp)
  · repeat' (first | (simp; done) | (simp [*]; done) | (have h := appendRec_frame (by assumption); simp [h, *]; done) | (have h := takeSlot_frame (by assumption); simp [h, *]; done) | (have h := placePage_frame (by assumption); simp [h, *]; done) | (have h := placePart_frame (by assumption); simp [h, *]; done) | (have h := closeStream_frame (by assumption); simp [h, *]; done) | split | (refine (forAll_flc _ _ _ (fun x s => ?_)).trans ?_; try dsimp only) | (refine adminCmd_flc _ _ _ _ ?_; try dsimp only) | (refine provision_flc _ _ _ _  ?_; intros; try dsimp only) | (refine receive_flc _ _ _ _  ?_; intros; try dsimp only) | (refine fltReq_flc _ _ _ _  ?_; intros; try dsimp only) | simp)
  · repeat' (first | (simp; done) | (simp [*]; done) | (have h := appendRec_frame (by assumption); simp [h, *]; done) | (have h := takeSlot_frame (by assumption); simp [h, *]; done) | (have h := placePage_frame (by assumption); simp [h, *]; done) | (have h := placePart_frame (by assumption); simp [h, *]; done) | (have h := closeStream_frame (by assumption); simp [h, *]; done) | split | (refine (forAll_bnd _ _ _ (fun x s => ?_)).trans ?_; try dsimp only) | (refine adminCmd_bnd _ _ _ _ ?_; try dsimp only) | (refine provision_bnd _ _ _ _  ?_; intros; try dsimp only) | (refine receive_bnd _ _ _ _  ?_; intros; try dsimp only) | (refine fltReq_bnd _ _ _ _  ?_; intros; try dsimp only) | simp)
  · repeat' (first | (simp; done) | (simp [*]; done) | (have h := appendRec_frame (by assumption); simp [h, *]; done) | (have h := takeSlot_frame (by assumption); simp [h, *]; done) | (have h := placePage_frame (by assumption); simp [h, *]; done) | (have h := placePart_frame (by assumption); simp [h, *]; done) | (have h := closeStream_frame (by assumption); simp [h, *]; done) | split | (refine (forAll_mbr _ _ _ (fun x s => ?_)).trans ?_; try dsimp only) | (refine adminCmd_mbr _ _ _ _ ?_; try dsimp only) | (refine provision_mbr _ _ _ _  ?_; intros; try dsimp only) | (refine receive_mbr _ _ _ _  ?_; intros; try dsimp only) | (refine fltReq_mbr _ _ _ _  ?_; intros; try dsimp only) | simp)
  · repeat' (first | (simp; done) | (simp [*]; done) | (have h := appendRec_frame (by assumption); simp [h, *]; done) | (have h := takeSlot_frame (by assumption); simp [h, *]; done) | (have h := placePage_frame (by assumption); simp [h, *]; done) | (have h := placePart_frame (by assumption); simp [h, *]; done) | (have h := closeStream_frame (by assumption); simp [h, *]; done) | split | (refine (forAll_flt _ _ _ (fun x s => ?_)).trans ?_; try dsimp only) | (refine adminCmd_flt _ _ _ _ ?_; try dsimp only) | (refine provision_flt _ _ _ _  ?_; intros; try dsimp only) | (refine fltReq_flt _ _ _ _  ?_; intros; try dsimp only) | simp)
  · repeat' (first | (simp; done) | (simp [*]; done) | (have h := appendRec_frame (by assumption); simp [h, *]; done) | (have h := takeSlot_frame (by assumption); simp [h, *]; done) | (have h := placePage_frame (by assumption); simp [h, *]; done) | (have h := placePart_frame (by assumption); simp [h, *]; done) | (have h := closeStream_frame (by assumption); simp [h, *]; done) | split | (refine (forAll_sec _ _ _ (fun x s => ?_)).trans ?_; try dsimp only) | (refine adminCmd_sec _ _ _ _ ?_; try dsimp only) | (refine receive_sec _ _ _ _  ?_; intros; try dsimp only) | (refine fltReq_sec _ _ _ _  ?_; intros; try dsimp only) | simp)
  · repeat' (first | (simp; done) | (simp [*]; done) | (have h := appendRec_frame (by assumption); simp [h, *]; done) | (have h := takeSlot_frame (by assumption); simp [h, *]; done) | (have h := placePage_frame (by assumption); simp [h, *]; done) | (have h := placePart_frame (by assumption); simp [h, *]; done) | (have h := closeStream_frame (by assumption); simp [h, *]; done) | split | (refine (forAll_cpx _ _ _ (fun x s => ?_)).trans ?_; try dsimp only) | (refine adminCmd_cpx _ _ _ _ ?_; try dsimp only) | (refine provision_cpx _ _ _ _  ?_; intros; try dsimp only) | (refine receive_cpx _ _ _ _  ?_; intros; try dsimp only) | (refine fltReq_cpx _ _ _ _  ?_; intros; try dsimp only) | simp)
  · repeat' (first | (simp; done) | (simp [*]; done) | (have h := appendRec_frame (by assumption); simp [h, *]; done) | (have h := takeSlot_frame (by assumption); simp [h, *]; done) | (have h := placePage_frame (by assumption); simp [h, *]; done) | (have h := placePart_frame (by assumption); simp [h, *]; done) | (have h := closeStream_frame (by assumption); simp [h, *]; done) | split | (refine (forAll_memc _ _ _ (fun x s => ?_)).trans ?_; try dsimp only) | (refine adminCmd_memc _ _ _ _ ?_; try dsimp only) | (refine provision_memc _ _ _ _  ?_; intros; try dsimp only) | (refine receive_memc _ _ _ _  ?_; intros; try dsimp only) | (refine fltReq_memc _ _ _ _  ?_; intros; try dsimp only) | simp)
  · repeat' (first | (simp; done) | (simp [*]; done) | (have h := appendRec_frame (by assumption); simp [h, *]; done) | (have h := takeSlot_frame (by assumption); simp [h, *]; done) | (have h := placePage_frame (by assumption); simp [h, *]; done) | (have h := placePart_frame (by assumption); simp [h, *]; done) | (have h := closeStream_frame (by assumption); simp [h, *]; done) | split | (refine (forAll_mov _ _ _ (fun x s => ?_)).trans ?_; try dsimp only) | (refine adminCmd_mov _ _ _ _ ?_; try dsimp only) | (refine provision_mov _ _ _ _  ?_; intros; try dsimp only) | (refine receive_mov _ _ _ _  ?_; intros; try dsimp only) | (refine fltReq_mov _ _ _ _  ?_; intros; try dsimp only) | simp)
  · repeat' (first | (simp; done) | (simp [*]; done) | (have h := appendRec_frame (by assumption); simp [h, *]; done) | (have h := takeSlot_frame (by assumption); simp [h, *]; done) | (have h := placePage_frame (by assumption); simp [h, *]; done) | (have h := placePart_frame (by assumption); simp [h, *]; done) | (have h := closeStream_frame (by assumption); simp [h, *]; done) | split | (refine (forAll_cst _ _ _ (fun x s => ?_)).trans ?_; try dsimp only) | (refine adminCmd_cst _ _ _ _ ?_; try dsimp only) | (refine provision_cst _ _ _ _  ?_; intros; try dsimp only) | (refine receive_cst _ _ _ _  ?_; intros; try dsimp only) | (refine fltReq_cst _ _ _ _  ?_; intros; try dsimp only) | simp)
  · repeat' (first | (simp; done) | (simp [*]; done) | (have h := appendRec_frame (by assumption); simp [h, *]; done) | (have h := takeSlot_frame (by assumption); simp [h, *]; done) | (have h := placePage_frame (by assumption); simp [h, *]; done) | (have h := placePart_frame (by assumption); simp [h, *]; done) | (have h := closeStream_frame (by assumption); simp [h, *]; done) | split | (refine (forAll_freeCtr _ _ _ (fun x s => ?_)).trans ?_; try dsimp only) | (refine adminCmd_freeCtr _ _ _ _ ?_; try dsimp only) | (refine provision_freeCtr _ _ _ _  ?_; intros; try dsimp only) | (refine receive_freeCtr _ _ _ _  ?_; intros; try dsimp only) | (refine fltReq_freeCtr _ _ _ _  ?_; intros; try dsimp only) | simp)

@[simp] theorem ringPoll_frame (a0 : ℕ) (s : State) :
    (ringPoll a0 s).pending = s.pending ∧ (ringPoll a0 s).latch = s.latch ∧ (ringPoll a0 s).clk = s.clk ∧ (ringPoll a0 s).thm = s.thm ∧ (ringPoll a0 s).tck = s.tck ∧ (ringPoll a0 s).hif = s.hif ∧ (ringPoll a0 s).stm = s.stm ∧ (ringPoll a0 s).map = s.map ∧ (ringPoll a0 s).flc = s.flc ∧ (ringPoll a0 s).bnd = s.bnd ∧ (ringPoll a0 s).mbr = s.mbr ∧ (ringPoll a0 s).flt = s.flt ∧ (ringPoll a0 s).sec = s.sec ∧ (ringPoll a0 s).cpx = s.cpx ∧ (ringPoll a0 s).memc = s.memc ∧ (ringPoll a0 s).mov = s.mov ∧ (ringPoll a0 s).cst = s.cst ∧ (ringPoll a0 s).freeCtr = s.freeCtr := by
  unfold ringPoll
  try dsimp only
  first
    | (simp; done)
    | ((repeat' split) <;> simp; done)
    | (and_intros <;> (repeat' (first | (simp; done) | split)))

@[simp] theorem hifPoll_frame (a0 : ℕ) (s : State) :
    (hifPoll a0 s).pending = s.pending ∧ (hifPoll a0 s).latch = s.latch ∧ (hifPoll a0 s).mem = s.mem ∧ (hifPoll a0 s).clk = s.clk ∧ (hifPoll a0 s).thm = s.thm ∧ (hifPoll a0 s).tck = s.tck ∧ (hifPoll a0 s).hif = s.hif ∧ (hifPoll a0 s).stm = s.stm ∧ (hifPoll a0 s).map = s.map ∧ (hifPoll a0 s).flc = s.flc ∧ (hifPoll a0 s).bnd = s.bnd ∧ (hifPoll a0 s).mbr = s.mbr ∧ (hifPoll a0 s).flt = s.flt ∧ (hifPoll a0 s).sec = s.sec ∧ (hifPoll a0 s).cpx = s.cpx ∧ (hifPoll a0 s).memc = s.memc ∧ (hifPoll a0 s).mov = s.mov ∧ (hifPoll a0 s).cst = s.cst ∧ (hifPoll a0 s).freeCtr = s.freeCtr := by
  unfold hifPoll
  try dsimp only
  first
    | (simp; done)
    | ((repeat' split) <;> simp; done)
    | (and_intros <;> (repeat' (first | (simp; done) | split)))

@[simp] theorem pollRings_frame (s : State) :
    (pollRings s).pending = s.pending ∧ (pollRings s).latch = s.latch ∧ (pollRings s).clk = s.clk ∧ (pollRings s).thm = s.thm ∧ (pollRings s).tck = s.tck ∧ (pollRings s).hif = s.hif ∧ (pollRings s).stm = s.stm ∧ (pollRings s).map = s.map ∧ (pollRings s).flc = s.flc ∧ (pollRings s).bnd = s.bnd ∧ (pollRings s).mbr = s.mbr ∧ (pollRings s).flt = s.flt ∧ (pollRings s).sec = s.sec ∧ (pollRings s).cpx = s.cpx ∧ (pollRings s).memc = s.memc ∧ (pollRings s).mov = s.mov ∧ (pollRings s).cst = s.cst ∧ (pollRings s).freeCtr = s.freeCtr := by
  unfold pollRings
  try dsimp only
  first
    | (simp; done)
    | ((repeat' split) <;> simp; done)
    | (and_intros <;> (repeat' (first | (simp; done) | split)))

theorem reserveDone_pending (a0 : CtTable) (s : State) : (reserveDone a0 s).pending = s.pending := by
  unfold reserveDone
  try dsimp only
  repeat' (first | (simp; done) | (have h := appendRec_frame (by assumption); simp [h]; done) | (have h := takeSlot_frame (by assumption); simp [h]; done) | (have h := placePage_frame (by assumption); simp [h]; done) | (have h := placePart_frame (by assumption); simp [h]; done) | (have h := closeStream_frame (by assumption); simp [h]; done) | split | (refine (forAll_pending _ _ _ (fun x s => ?_)).trans ?_; try dsimp only) | (refine adminCmd_pending _ _ _ _ ?_; try dsimp only) | (refine provision_pending _ _ _ _  ?_; intros; try dsimp only) | (refine receive_pending _ _ _ _  ?_; intros; try dsimp only) | (refine fltReq_pending _ _ _ _  ?_; intros; try dsimp only) | simp)

theorem reserveDone_latch (a0 : CtTable) (s : State) : (reserveDone a0 s).latch = s.latch := by
  unfold reserveDone
  try dsimp only
  repeat' (first | (simp; done) | (have h := appendRec_frame (by assumption); simp [h]; done) | (have h := takeSlot_frame (by assumption); simp [h]; done) | (have h := placePage_frame (by assumption); simp [h]; done) | (have h := placePart_frame (by assumption); simp [h]; done) | (have h := closeStream_frame (by assumption); simp [h]; done) | split | (refine (forAll_latch _ _ _ (fun x s => ?_)).trans ?_; try dsimp only) | (refine adminCmd_latch _ _ _ _ ?_; try dsimp only) | (refine provision_latch _ _ _ _  ?_; intros; try dsimp only) | (refine receive_latch _ _ _ _  ?_; intros; try dsimp only) | (refine fltReq_latch _ _ _ _  ?_; intros; try dsimp only) | simp)

theorem reserveDone_mem (a0 : CtTable) (s : State) : (reserveDone a0 s).mem = s.mem := by
  unfold reserveDone
  try dsimp only
  repeat' (first | (simp; done) | (have h := appendRec_frame (by assumption); simp [h]; done) | (have h := takeSlot_frame (by assumption); simp [h]; done) | (have h := placePage_frame (by assumption); simp [h]; done) | (have h := placePart_frame (by assumption); simp [h]; done) | (have h := closeStream_frame (by assumption); simp [h]; done) | split | (refine (forAll_mem _ _ _ (fun x s => ?_)).trans ?_; try dsimp only) | (refine adminCmd_mem _ _ _ _ ?_; try dsimp only) | (refine provision_mem _ _ _ _  ?_; intros; try dsimp only) | (refine receive_mem _ _ _ _  ?_; intros; try dsimp only) | (refine fltReq_mem _ _ _ _  ?_; intros; try dsimp only) | simp)

theorem reserveDone_clk (a0 : CtTable) (s : State) : (reserveDone a0 s).clk = s.clk := by
  unfold reserveDone
  try dsimp only
  repeat' (first | (simp; done) | (have h := appendRec_frame (by assumption); simp [h]; done) | (have h := takeSlot_frame (by assumption); simp [h]; done) | (have h := placePage_frame (by assumption); simp [h]; done) | (have h := placePart_frame (by assumption); simp [h]; done) | (have h := closeStream_frame (by assumption); simp [h]; done) | split | (refine (forAll_clk _ _ _ (fun x s => ?_)).trans ?_; try dsimp only) | (refine adminCmd_clk _ _ _ _ ?_; try dsimp only) | (refine provision_clk _ _ _ _  ?_; intros; try dsimp only) | (refine receive_clk _ _ _ _  ?_; intros; try dsimp only) | (refine fltReq_clk _ _ _ _  ?_; intros; try dsimp only) | simp)

theorem reserveDone_thm (a0 : CtTable) (s : State) : (reserveDone a0 s).thm = s.thm := by
  unfold reserveDone
  try dsimp only
  repeat' (first | (simp; done) | (have h := appendRec_frame (by assumption); simp [h]; done) | (have h := takeSlot_frame (by assumption); simp [h]; done) | (have h := placePage_frame (by assumption); simp [h]; done) | (have h := placePart_frame (by assumption); simp [h]; done) | (have h := closeStream_frame (by assumption); simp [h]; done) | split | (refine (forAll_thm _ _ _ (fun x s => ?_)).trans ?_; try dsimp only) | (refine adminCmd_thm _ _ _ _ ?_; try dsimp only) | (refine provision_thm _ _ _ _  ?_; intros; try dsimp only) | (refine receive_thm _ _ _ _  ?_; intros; try dsimp only) | (refine fltReq_thm _ _ _ _  ?_; intros; try dsimp only) | simp)

theorem reserveDone_tck (a0 : CtTable) (s : State) : (reserveDone a0 s).tck = s.tck := by
  unfold reserveDone
  try dsimp only
  repeat' (first | (simp; done) | (have h := appendRec_frame (by assumption); simp [h]; done) | (have h := takeSlot_frame (by assumption); simp [h]; done) | (have h := placePage_frame (by assumption); simp [h]; done) | (have h := placePart_frame (by assumption); simp [h]; done) | (have h := closeStream_frame (by assumption); simp [h]; done) | split | (refine (forAll_tck _ _ _ (fun x s => ?_)).trans ?_; try dsimp only) | (refine adminCmd_tck _ _ _ _ ?_; try dsimp only) | (refine provision_tck _ _ _ _  ?_; intros; try dsimp only) | (refine receive_tck _ _ _ _  ?_; intros; try dsimp only) | (refine fltReq_tck _ _ _ _  ?_; intros; try dsimp only) | simp)

theorem reserveDone_hif (a0 : CtTable) (s : State) : (reserveDone a0 s).hif = s.hif := by
  unfold reserveDone
  try dsimp only
  repeat' (first | (simp; done) | (have h := appendRec_frame (by assumption); simp [h]; done) | (have h := takeSlot_frame (by assumption); simp [h]; done) | (have h := placePage_frame (by assumption); simp [h]; done) | (have h := placePart_frame (by assumption); simp [h]; done) | (have h := closeStream_frame (by assumption); simp [h]; done) | split | (refine (forAll_hif _ _ _ (fun x s => ?_)).trans ?_; try dsimp only) | (refine provision_hif _ _ _ _  ?_; intros; try dsimp only) | (refine receive_hif _ _ _ _  ?_; intros; try dsimp only) | (refine fltReq_hif _ _ _ _  ?_; intros; try dsimp only) | simp)

theorem reserveDone_map (a0 : CtTable) (s : State) : (reserveDone a0 s).map = s.map := by
  unfold reserveDone
  try dsimp only
  repeat' (first | (simp; done) | (have h := appendRec_frame (by assumption); simp [h]; done) | (have h := takeSlot_frame (by assumption); simp [h]; done) | (have h := placePage_frame (by assumption); simp [h]; done) | (have h := placePart_frame (by assumption); simp [h]; done) | (have h := closeStream_frame (by assumption); simp [h]; done) | split | (refine (forAll_map _ _ _ (fun x s => ?_)).trans ?_; try dsimp only) | (refine adminCmd_map _ _ _ _ ?_; try dsimp only) | (refine provision_map _ _ _ _  ?_; intros; try dsimp only) | (refine receive_map _ _ _ _  ?_; intros; try dsimp only) | (refine fltReq_map _ _ _ _  ?_; intros; try dsimp only) | simp)

theorem reserveDone_flc (a0 : CtTable) (s : State) : (reserveDone a0 s).flc = s.flc := by
  unfold reserveDone
  try dsimp only
  repeat' (first | (simp; done) | (have h := appendRec_frame (by assumption); simp [h]; done) | (have h := takeSlot_frame (by assumption); simp [h]; done) | (have h := placePage_frame (by assumption); simp [h]; done) | (have h := placePart_frame (by assumption); simp [h]; done) | (have h := closeStream_frame (by assumption); simp [h]; done) | split | (refine (forAll_flc _ _ _ (fun x s => ?_)).trans ?_; try dsimp only) | (refine adminCmd_flc _ _ _ _ ?_; try dsimp only) | (refine provision_flc _ _ _ _  ?_; intros; try dsimp only) | (refine receive_flc _ _ _ _  ?_; intros; try dsimp only) | (refine fltReq_flc _ _ _ _  ?_; intros; try dsimp only) | simp)

theorem reserveDone_bnd (a0 : CtTable) (s : State) : (reserveDone a0 s).bnd = s.bnd := by
  unfold reserveDone
  try dsimp only
  repeat' (first | (simp; done) | (have h := appendRec_frame (by assumption); simp [h]; done) | (have h := takeSlot_frame (by assumption); simp [h]; done) | (have h := placePage_frame (by assumption); simp [h]; done) | (have h := placePart_frame (by assumption); simp [h]; done) | (have h := closeStream_frame (by assumption); simp [h]; done) | split | (refine (forAll_bnd _ _ _ (fun x s => ?_)).trans ?_; try dsimp only) | (refine adminCmd_bnd _ _ _ _ ?_; try dsimp only) | (refine provision_bnd _ _ _ _  ?_; intros; try dsimp only) | (refine receive_bnd _ _ _ _  ?_; intros; try dsimp only) | (refine fltReq_bnd _ _ _ _  ?_; intros; try dsimp only) | simp)

theorem reserveDone_mbr (a0 : CtTable) (s : State) : (reserveDone a0 s).mbr = s.mbr := by
  unfold reserveDone
  try dsimp only
  repeat' (first | (simp; done) | (have h := appendRec_frame (by assumption); simp [h]; done) | (have h := takeSlot_frame (by assumption); simp [h]; done) | (have h := placePage_frame (by assumption); simp [h]; done) | (have h := placePart_frame (by assumption); simp [h]; done) | (have h := closeStream_frame (by assumption); simp [h]; done) | split | (refine (forAll_mbr _ _ _ (fun x s => ?_)).trans ?_; try dsimp only) | (refine adminCmd_mbr _ _ _ _ ?_; try dsimp only) | (refine provision_mbr _ _ _ _  ?_; intros; try dsimp only) | (refine receive_mbr _ _ _ _  ?_; intros; try dsimp only) | (refine fltReq_mbr _ _ _ _  ?_; intros; try dsimp only) | simp)

theorem reserveDone_flt (a0 : CtTable) (s : State) : (reserveDone a0 s).flt = s.flt := by
  unfold reserveDone
  try dsimp only
  repeat' (first | (simp; done) | (have h := appendRec_frame (by assumption); simp [h]; done) | (have h := takeSlot_frame (by assumption); simp [h]; done) | (have h := placePage_frame (by assumption); simp [h]; done) | (have h := placePart_frame (by assumption); simp [h]; done) | (have h := closeStream_frame (by assumption); simp [h]; done) | split | (refine (forAll_flt _ _ _ (fun x s => ?_)).trans ?_; try dsimp only) | (refine adminCmd_flt _ _ _ _ ?_; try dsimp only) | (refine provision_flt _ _ _ _  ?_; intros; try dsimp only) | (refine fltReq_flt _ _ _ _  ?_; intros; try dsimp only) | simp)

theorem reserveDone_sec (a0 : CtTable) (s : State) : (reserveDone a0 s).sec = s.sec := by
  unfold reserveDone
  try dsimp only
  repeat' (first | (simp; done) | (have h := appendRec_frame (by assumption); simp [h]; done) | (have h := takeSlot_frame (by assumption); simp [h]; done) | (have h := placePage_frame (by assumption); simp [h]; done) | (have h := placePart_frame (by assumption); simp [h]; done) | (have h := closeStream_frame (by assumption); simp [h]; done) | split | (refine (forAll_sec _ _ _ (fun x s => ?_)).trans ?_; try dsimp only) | (refine adminCmd_sec _ _ _ _ ?_; try dsimp only) | (refine receive_sec _ _ _ _  ?_; intros; try dsimp only) | (refine fltReq_sec _ _ _ _  ?_; intros; try dsimp only) | simp)

theorem reserveDone_cpx (a0 : CtTable) (s : State) : (reserveDone a0 s).cpx = s.cpx := by
  unfold reserveDone
  try dsimp only
  repeat' (first | (simp; done) | (have h := appendRec_frame (by assumption); simp [h]; done) | (have h := takeSlot_frame (by assumption); simp [h]; done) | (have h := placePage_frame (by assumption); simp [h]; done) | (have h := placePart_frame (by assumption); simp [h]; done) | (have h := closeStream_frame (by assumption); simp [h]; done) | split | (refine (forAll_cpx _ _ _ (fun x s => ?_)).trans ?_; try dsimp only) | (refine adminCmd_cpx _ _ _ _ ?_; try dsimp only) | (refine provision_cpx _ _ _ _  ?_; intros; try dsimp only) | (refine receive_cpx _ _ _ _  ?_; intros; try dsimp only) | (refine fltReq_cpx _ _ _ _  ?_; intros; try dsimp only) | simp)

theorem reserveDone_memc (a0 : CtTable) (s : State) : (reserveDone a0 s).memc = s.memc := by
  unfold reserveDone
  try dsimp only
  repeat' (first | (simp; done) | (have h := appendRec_frame (by assumption); simp [h]; done) | (have h := takeSlot_frame (by assumption); simp [h]; done) | (have h := placePage_frame (by assumption); simp [h]; done) | (have h := placePart_frame (by assumption); simp [h]; done) | (have h := closeStream_frame (by assumption); simp [h]; done) | split | (refine (forAll_memc _ _ _ (fun x s => ?_)).trans ?_; try dsimp only) | (refine adminCmd_memc _ _ _ _ ?_; try dsimp only) | (refine provision_memc _ _ _ _  ?_; intros; try dsimp only) | (refine receive_memc _ _ _ _  ?_; intros; try dsimp only) | (refine fltReq_memc _ _ _ _  ?_; intros; try dsimp only) | simp)

theorem reserveDone_mov (a0 : CtTable) (s : State) : (reserveDone a0 s).mov = s.mov := by
  unfold reserveDone
  try dsimp only
  repeat' (first | (simp; done) | (have h := appendRec_frame (by assumption); simp [h]; done) | (have h := takeSlot_frame (by assumption); simp [h]; done) | (have h := placePage_frame (by assumption); simp [h]; done) | (have h := placePart_frame (by assumption); simp [h]; done) | (have h := closeStream_frame (by assumption); simp [h]; done) | split | (refine (forAll_mov _ _ _ (fun x s => ?_)).trans ?_; try dsimp only) | (refine adminCmd_mov _ _ _ _ ?_; try dsimp only) | (refine provision_mov _ _ _ _  ?_; intros; try dsimp only) | (refine receive_mov _ _ _ _  ?_; intros; try dsimp only) | (refine fltReq_mov _ _ _ _  ?_; intros; try dsimp only) | simp)

theorem reserveDone_cst (a0 : CtTable) (s : State) : (reserveDone a0 s).cst = s.cst := by
  unfold reserveDone
  try dsimp only
  repeat' (first | (simp; done) | (have h := appendRec_frame (by assumption); simp [h]; done) | (have h := takeSlot_frame (by assumption); simp [h]; done) | (have h := placePage_frame (by assumption); simp [h]; done) | (have h := placePart_frame (by assumption); simp [h]; done) | (have h := closeStream_frame (by assumption); simp [h]; done) | split | (refine (forAll_cst _ _ _ (fun x s => ?_)).trans ?_; try dsimp only) | (refine adminCmd_cst _ _ _ _ ?_; try dsimp only) | (refine provision_cst _ _ _ _  ?_; intros; try dsimp only) | (refine receive_cst _ _ _ _  ?_; intros; try dsimp only) | (refine fltReq_cst _ _ _ _  ?_; intros; try dsimp only) | simp)

theorem reserveDone_freeCtr (a0 : CtTable) (s : State) : (reserveDone a0 s).freeCtr = s.freeCtr := by
  unfold reserveDone
  try dsimp only
  repeat' (first | (simp; done) | (have h := appendRec_frame (by assumption); simp [h]; done) | (have h := takeSlot_frame (by assumption); simp [h]; done) | (have h := placePage_frame (by assumption); simp [h]; done) | (have h := placePart_frame (by assumption); simp [h]; done) | (have h := closeStream_frame (by assumption); simp [h]; done) | split | (refine (forAll_freeCtr _ _ _ (fun x s => ?_)).trans ?_; try dsimp only) | (refine adminCmd_freeCtr _ _ _ _ ?_; try dsimp only) | (refine provision_freeCtr _ _ _ _  ?_; intros; try dsimp only) | (refine receive_freeCtr _ _ _ _  ?_; intros; try dsimp only) | (refine fltReq_freeCtr _ _ _ _  ?_; intros; try dsimp only) | simp)

@[simp] theorem reserveDone_frame (a0 : CtTable) (s : State) :
    (reserveDone a0 s).pending = s.pending ∧ (reserveDone a0 s).latch = s.latch ∧ (reserveDone a0 s).mem = s.mem ∧ (reserveDone a0 s).clk = s.clk ∧ (reserveDone a0 s).thm = s.thm ∧ (reserveDone a0 s).tck = s.tck ∧ (reserveDone a0 s).hif = s.hif ∧ (reserveDone a0 s).map = s.map ∧ (reserveDone a0 s).flc = s.flc ∧ (reserveDone a0 s).bnd = s.bnd ∧ (reserveDone a0 s).mbr = s.mbr ∧ (reserveDone a0 s).flt = s.flt ∧ (reserveDone a0 s).sec = s.sec ∧ (reserveDone a0 s).cpx = s.cpx ∧ (reserveDone a0 s).memc = s.memc ∧ (reserveDone a0 s).mov = s.mov ∧ (reserveDone a0 s).cst = s.cst ∧ (reserveDone a0 s).freeCtr = s.freeCtr :=
  ⟨reserveDone_pending a0 s, reserveDone_latch a0 s, reserveDone_mem a0 s, reserveDone_clk a0 s, reserveDone_thm a0 s, reserveDone_tck a0 s, reserveDone_hif a0 s, reserveDone_map a0 s, reserveDone_flc a0 s, reserveDone_bnd a0 s, reserveDone_mbr a0 s, reserveDone_flt a0 s, reserveDone_sec a0 s, reserveDone_cpx a0 s, reserveDone_memc a0 s, reserveDone_mov a0 s, reserveDone_cst a0 s, reserveDone_freeCtr a0 s⟩

@[simp] theorem newPeriod_frame (s : State) :
    (newPeriod s).pending = s.pending ∧ (newPeriod s).latch = s.latch ∧ (newPeriod s).mem = s.mem ∧ (newPeriod s).clk = s.clk ∧ (newPeriod s).thm = s.thm ∧ (newPeriod s).map = s.map ∧ (newPeriod s).flc = s.flc ∧ (newPeriod s).bnd = s.bnd ∧ (newPeriod s).mbr = s.mbr ∧ (newPeriod s).flt = s.flt ∧ (newPeriod s).sec = s.sec ∧ (newPeriod s).cpx = s.cpx ∧ (newPeriod s).memc = s.memc ∧ (newPeriod s).mov = s.mov ∧ (newPeriod s).cst = s.cst ∧ (newPeriod s).freeCtr = s.freeCtr := by
  unfold newPeriod
  try dsimp only
  first
    | (simp; done)
    | ((repeat' split) <;> simp; done)
    | (and_intros <;> (repeat' (first | (simp; done) | split)))

@[simp] theorem boundary_frame (s : State) :
    (boundary s).pending = s.pending ∧ (boundary s).latch = s.latch ∧ (boundary s).mem = s.mem ∧ (boundary s).clk = s.clk ∧ (boundary s).thm = s.thm ∧ (boundary s).map = s.map ∧ (boundary s).flc = s.flc ∧ (boundary s).bnd = s.bnd ∧ (boundary s).mbr = s.mbr ∧ (boundary s).flt = s.flt ∧ (boundary s).sec = s.sec ∧ (boundary s).cpx = s.cpx ∧ (boundary s).memc = s.memc ∧ (boundary s).mov = s.mov ∧ (boundary s).cst = s.cst ∧ (boundary s).freeCtr = s.freeCtr := by
  unfold boundary
  try dsimp only
  first
    | (simp; done)
    | ((repeat' split) <;> simp; done)
    | (and_intros <;> (repeat' (first | (simp; done) | split)))

@[simp] theorem victimStep_frame (s : State) :
    (victimStep s).pending = s.pending ∧ (victimStep s).regs = s.regs ∧ (victimStep s).latch = s.latch ∧ (victimStep s).mem = s.mem ∧ (victimStep s).sys = s.sys ∧ (victimStep s).clk = s.clk ∧ (victimStep s).thm = s.thm ∧ (victimStep s).tck = s.tck ∧ (victimStep s).hif = s.hif ∧ (victimStep s).stm = s.stm ∧ (victimStep s).map = s.map ∧ (victimStep s).flc = s.flc ∧ (victimStep s).mbr = s.mbr ∧ (victimStep s).flt = s.flt ∧ (victimStep s).sec = s.sec ∧ (victimStep s).cpx = s.cpx ∧ (victimStep s).memc = s.memc ∧ (victimStep s).mov = s.mov ∧ (victimStep s).cst = s.cst ∧ (victimStep s).lnt = s.lnt ∧ (victimStep s).out = s.out ∧ (victimStep s).freeCtr = s.freeCtr := by
  unfold victimStep
  try dsimp only
  first
    | (simp; done)
    | ((repeat' split) <;> simp; done)
    | (and_intros <;> (repeat' (first | (simp; done) | split)))

@[simp] theorem copySeg_frame (a0 : ℕ) (a1 : ℕ) (s : State) :
    (copySeg a0 a1 s).pending = s.pending ∧ (copySeg a0 a1 s).regs = s.regs ∧ (copySeg a0 a1 s).latch = s.latch ∧ (copySeg a0 a1 s).mem = s.mem ∧ (copySeg a0 a1 s).sys = s.sys ∧ (copySeg a0 a1 s).clk = s.clk ∧ (copySeg a0 a1 s).thm = s.thm ∧ (copySeg a0 a1 s).tck = s.tck ∧ (copySeg a0 a1 s).stm = s.stm ∧ (copySeg a0 a1 s).map = s.map ∧ (copySeg a0 a1 s).mbr = s.mbr ∧ (copySeg a0 a1 s).flt = s.flt ∧ (copySeg a0 a1 s).sec = s.sec ∧ (copySeg a0 a1 s).cpx = s.cpx ∧ (copySeg a0 a1 s).memc = s.memc ∧ (copySeg a0 a1 s).mov = s.mov ∧ (copySeg a0 a1 s).cst = s.cst ∧ (copySeg a0 a1 s).lnt = s.lnt ∧ (copySeg a0 a1 s).out = s.out ∧ (copySeg a0 a1 s).freeCtr = s.freeCtr := by
  unfold copySeg
  try dsimp only
  first
    | (simp; done)
    | ((repeat' split) <;> simp; done)
    | (and_intros <;> (repeat' (first | (simp; done) | split)))

@[simp] theorem copyStart_frame (a0 : ℕ) (s : State) :
    (copyStart a0 s).pending = s.pending ∧ (copyStart a0 s).regs = s.regs ∧ (copyStart a0 s).latch = s.latch ∧ (copyStart a0 s).mem = s.mem ∧ (copyStart a0 s).sys = s.sys ∧ (copyStart a0 s).clk = s.clk ∧ (copyStart a0 s).thm = s.thm ∧ (copyStart a0 s).tck = s.tck ∧ (copyStart a0 s).stm = s.stm ∧ (copyStart a0 s).map = s.map ∧ (copyStart a0 s).mbr = s.mbr ∧ (copyStart a0 s).flt = s.flt ∧ (copyStart a0 s).sec = s.sec ∧ (copyStart a0 s).cpx = s.cpx ∧ (copyStart a0 s).memc = s.memc ∧ (copyStart a0 s).mov = s.mov ∧ (copyStart a0 s).cst = s.cst ∧ (copyStart a0 s).lnt = s.lnt ∧ (copyStart a0 s).out = s.out ∧ (copyStart a0 s).freeCtr = s.freeCtr := by
  unfold copyStart
  try dsimp only
  first
    | (simp; done)
    | ((repeat' split) <;> simp; done)
    | (and_intros <;> (repeat' (first | (simp; done) | split)))

theorem copyPlace_pending (a0 : ℕ) (a1 : Copy) (s : State) : (copyPlace a0 a1 s).pending = s.pending := by
  unfold copyPlace
  try dsimp only
  repeat' (first | (simp; done) | (have h := appendRec_frame (by assumption); simp [h]; done) | (have h := takeSlot_frame (by assumption); simp [h]; done) | (have h := placePage_frame (by assumption); simp [h]; done) | (have h := placePart_frame (by assumption); simp [h]; done) | (have h := closeStream_frame (by assumption); simp [h]; done) | split | (refine (forAll_pending _ _ _ (fun x s => ?_)).trans ?_; try dsimp only) | (refine adminCmd_pending _ _ _ _ ?_; try dsimp only) | (refine provision_pending _ _ _ _  ?_; intros; try dsimp only) | (refine receive_pending _ _ _ _  ?_; intros; try dsimp only) | (refine fltReq_pending _ _ _ _  ?_; intros; try dsimp only) | simp)

theorem copyPlace_latch (a0 : ℕ) (a1 : Copy) (s : State) : (copyPlace a0 a1 s).latch = s.latch := by
  unfold copyPlace
  try dsimp only
  repeat' (first | (simp; done) | (have h := appendRec_frame (by assumption); simp [h]; done) | (have h := takeSlot_frame (by assumption); simp [h]; done) | (have h := placePage_frame (by assumption); simp [h]; done) | (have h := placePart_frame (by assumption); simp [h]; done) | (have h := closeStream_frame (by assumption); simp [h]; done) | split | (refine (forAll_latch _ _ _ (fun x s => ?_)).trans ?_; try dsimp only) | (refine adminCmd_latch _ _ _ _ ?_; try dsimp only) | (refine provision_latch _ _ _ _  ?_; intros; try dsimp only) | (refine receive_latch _ _ _ _  ?_; intros; try dsimp only) | (refine fltReq_latch _ _ _ _  ?_; intros; try dsimp only) | simp)

theorem copyPlace_mem (a0 : ℕ) (a1 : Copy) (s : State) : (copyPlace a0 a1 s).mem = s.mem := by
  unfold copyPlace
  try dsimp only
  repeat' (first | (simp; done) | (have h := appendRec_frame (by assumption); simp [h]; done) | (have h := takeSlot_frame (by assumption); simp [h]; done) | (have h := placePage_frame (by assumption); simp [h]; done) | (have h := placePart_frame (by assumption); simp [h]; done) | (have h := closeStream_frame (by assumption); simp [h]; done) | split | (refine (forAll_mem _ _ _ (fun x s => ?_)).trans ?_; try dsimp only) | (refine adminCmd_mem _ _ _ _ ?_; try dsimp only) | (refine provision_mem _ _ _ _  ?_; intros; try dsimp only) | (refine receive_mem _ _ _ _  ?_; intros; try dsimp only) | (refine fltReq_mem _ _ _ _  ?_; intros; try dsimp only) | simp)

theorem copyPlace_sys (a0 : ℕ) (a1 : Copy) (s : State) : (copyPlace a0 a1 s).sys = s.sys := by
  unfold copyPlace
  try dsimp only
  repeat' (first | (simp; done) | (have h := appendRec_frame (by assumption); simp [h]; done) | (have h := takeSlot_frame (by assumption); simp [h]; done) | (have h := placePage_frame (by assumption); simp [h]; done) | (have h := placePart_frame (by assumption); simp [h]; done) | (have h := closeStream_frame (by assumption); simp [h]; done) | split | (refine (forAll_sys _ _ _ (fun x s => ?_)).trans ?_; try dsimp only) | (refine adminCmd_sys _ _ _ _ ?_; try dsimp only) | simp)

theorem copyPlace_clk (a0 : ℕ) (a1 : Copy) (s : State) : (copyPlace a0 a1 s).clk = s.clk := by
  unfold copyPlace
  try dsimp only
  repeat' (first | (simp; done) | (have h := appendRec_frame (by assumption); simp [h]; done) | (have h := takeSlot_frame (by assumption); simp [h]; done) | (have h := placePage_frame (by assumption); simp [h]; done) | (have h := placePart_frame (by assumption); simp [h]; done) | (have h := closeStream_frame (by assumption); simp [h]; done) | split | (refine (forAll_clk _ _ _ (fun x s => ?_)).trans ?_; try dsimp only) | (refine adminCmd_clk _ _ _ _ ?_; try dsimp only) | (refine provision_clk _ _ _ _  ?_; intros; try dsimp only) | (refine receive_clk _ _ _ _  ?_; intros; try dsimp only) | (refine fltReq_clk _ _ _ _  ?_; intros; try dsimp only) | simp)

theorem copyPlace_thm (a0 : ℕ) (a1 : Copy) (s : State) : (copyPlace a0 a1 s).thm = s.thm := by
  unfold copyPlace
  try dsimp only
  repeat' (first | (simp; done) | (have h := appendRec_frame (by assumption); simp [h]; done) | (have h := takeSlot_frame (by assumption); simp [h]; done) | (have h := placePage_frame (by assumption); simp [h]; done) | (have h := placePart_frame (by assumption); simp [h]; done) | (have h := closeStream_frame (by assumption); simp [h]; done) | split | (refine (forAll_thm _ _ _ (fun x s => ?_)).trans ?_; try dsimp only) | (refine adminCmd_thm _ _ _ _ ?_; try dsimp only) | (refine provision_thm _ _ _ _  ?_; intros; try dsimp only) | (refine receive_thm _ _ _ _  ?_; intros; try dsimp only) | (refine fltReq_thm _ _ _ _  ?_; intros; try dsimp only) | simp)

theorem copyPlace_hif (a0 : ℕ) (a1 : Copy) (s : State) : (copyPlace a0 a1 s).hif = s.hif := by
  unfold copyPlace
  try dsimp only
  repeat' (first | (simp; done) | (have h := appendRec_frame (by assumption); simp [h]; done) | (have h := takeSlot_frame (by assumption); simp [h]; done) | (have h := placePage_frame (by assumption); simp [h]; done) | (have h := placePart_frame (by assumption); simp [h]; done) | (have h := closeStream_frame (by assumption); simp [h]; done) | split | (refine (forAll_hif _ _ _ (fun x s => ?_)).trans ?_; try dsimp only) | (refine provision_hif _ _ _ _  ?_; intros; try dsimp only) | (refine receive_hif _ _ _ _  ?_; intros; try dsimp only) | (refine fltReq_hif _ _ _ _  ?_; intros; try dsimp only) | simp)

theorem copyPlace_stm (a0 : ℕ) (a1 : Copy) (s : State) : (copyPlace a0 a1 s).stm = s.stm := by
  unfold copyPlace
  try dsimp only
  repeat' (first | (simp; done) | (have h := appendRec_frame (by assumption); simp [h]; done) | (have h := takeSlot_frame (by assumption); simp [h]; done) | (have h := placePage_frame (by assumption); simp [h]; done) | (have h := placePart_frame (by assumption); simp [h]; done) | (have h := closeStream_frame (by assumption); simp [h]; done) | split | (refine (forAll_stm _ _ _ (fun x s => ?_)).trans ?_; try dsimp only) | (refine adminCmd_stm _ _ _ _ ?_; try dsimp only) | (refine provision_stm _ _ _ _  ?_; intros; try dsimp only) | (refine receive_stm _ _ _ _  ?_; intros; try dsimp only) | (refine fltReq_stm _ _ _ _  ?_; intros; try dsimp only) | simp)

theorem copyPlace_map (a0 : ℕ) (a1 : Copy) (s : State) : (copyPlace a0 a1 s).map = s.map := by
  unfold copyPlace
  try dsimp only
  repeat' (first | (simp; done) | (have h := appendRec_frame (by assumption); simp [h]; done) | (have h := takeSlot_frame (by assumption); simp [h]; done) | (have h := placePage_frame (by assumption); simp [h]; done) | (have h := placePart_frame (by assumption); simp [h]; done) | (have h := closeStream_frame (by assumption); simp [h]; done) | split | (refine (forAll_map _ _ _ (fun x s => ?_)).trans ?_; try dsimp only) | (refine adminCmd_map _ _ _ _ ?_; try dsimp only) | (refine provision_map _ _ _ _  ?_; intros; try dsimp only) | (refine receive_map _ _ _ _  ?_; intros; try dsimp only) | (refine fltReq_map _ _ _ _  ?_; intros; try dsimp only) | simp)

theorem copyPlace_flc (a0 : ℕ) (a1 : Copy) (s : State) : (copyPlace a0 a1 s).flc = s.flc := by
  unfold copyPlace
  try dsimp only
  repeat' (first | (simp; done) | (have h := appendRec_frame (by assumption); simp [h]; done) | (have h := takeSlot_frame (by assumption); simp [h]; done) | (have h := placePage_frame (by assumption); simp [h]; done) | (have h := placePart_frame (by assumption); simp [h]; done) | (have h := closeStream_frame (by assumption); simp [h]; done) | split | (refine (forAll_flc _ _ _ (fun x s => ?_)).trans ?_; try dsimp only) | (refine adminCmd_flc _ _ _ _ ?_; try dsimp only) | (refine provision_flc _ _ _ _  ?_; intros; try dsimp only) | (refine receive_flc _ _ _ _  ?_; intros; try dsimp only) | (refine fltReq_flc _ _ _ _  ?_; intros; try dsimp only) | simp)

theorem copyPlace_mbr (a0 : ℕ) (a1 : Copy) (s : State) : (copyPlace a0 a1 s).mbr = s.mbr := by
  unfold copyPlace
  try dsimp only
  repeat' (first | (simp; done) | (have h := appendRec_frame (by assumption); simp [h]; done) | (have h := takeSlot_frame (by assumption); simp [h]; done) | (have h := placePage_frame (by assumption); simp [h]; done) | (have h := placePart_frame (by assumption); simp [h]; done) | (have h := closeStream_frame (by assumption); simp [h]; done) | split | (refine (forAll_mbr _ _ _ (fun x s => ?_)).trans ?_; try dsimp only) | (refine adminCmd_mbr _ _ _ _ ?_; try dsimp only) | (refine provision_mbr _ _ _ _  ?_; intros; try dsimp only) | (refine receive_mbr _ _ _ _  ?_; intros; try dsimp only) | (refine fltReq_mbr _ _ _ _  ?_; intros; try dsimp only) | simp)

theorem copyPlace_flt (a0 : ℕ) (a1 : Copy) (s : State) : (copyPlace a0 a1 s).flt = s.flt := by
  unfold copyPlace
  try dsimp only
  repeat' (first | (simp; done) | (have h := appendRec_frame (by assumption); simp [h]; done) | (have h := takeSlot_frame (by assumption); simp [h]; done) | (have h := placePage_frame (by assumption); simp [h]; done) | (have h := placePart_frame (by assumption); simp [h]; done) | (have h := closeStream_frame (by assumption); simp [h]; done) | split | (refine (forAll_flt _ _ _ (fun x s => ?_)).trans ?_; try dsimp only) | (refine adminCmd_flt _ _ _ _ ?_; try dsimp only) | (refine provision_flt _ _ _ _  ?_; intros; try dsimp only) | (refine fltReq_flt _ _ _ _  ?_; intros; try dsimp only) | simp)

theorem copyPlace_sec (a0 : ℕ) (a1 : Copy) (s : State) : (copyPlace a0 a1 s).sec = s.sec := by
  unfold copyPlace
  try dsimp only
  repeat' (first | (simp; done) | (have h := appendRec_frame (by assumption); simp [h]; done) | (have h := takeSlot_frame (by assumption); simp [h]; done) | (have h := placePage_frame (by assumption); simp [h]; done) | (have h := placePart_frame (by assumption); simp [h]; done) | (have h := closeStream_frame (by assumption); simp [h]; done) | split | (refine (forAll_sec _ _ _ (fun x s => ?_)).trans ?_; try dsimp only) | (refine adminCmd_sec _ _ _ _ ?_; try dsimp only) | (refine receive_sec _ _ _ _  ?_; intros; try dsimp only) | (refine fltReq_sec _ _ _ _  ?_; intros; try dsimp only) | simp)

theorem copyPlace_cpx (a0 : ℕ) (a1 : Copy) (s : State) : (copyPlace a0 a1 s).cpx = s.cpx := by
  unfold copyPlace
  try dsimp only
  repeat' (first | (simp; done) | (have h := appendRec_frame (by assumption); simp [h]; done) | (have h := takeSlot_frame (by assumption); simp [h]; done) | (have h := placePage_frame (by assumption); simp [h]; done) | (have h := placePart_frame (by assumption); simp [h]; done) | (have h := closeStream_frame (by assumption); simp [h]; done) | split | (refine (forAll_cpx _ _ _ (fun x s => ?_)).trans ?_; try dsimp only) | (refine adminCmd_cpx _ _ _ _ ?_; try dsimp only) | (refine provision_cpx _ _ _ _  ?_; intros; try dsimp only) | (refine receive_cpx _ _ _ _  ?_; intros; try dsimp only) | (refine fltReq_cpx _ _ _ _  ?_; intros; try dsimp only) | simp)

theorem copyPlace_memc (a0 : ℕ) (a1 : Copy) (s : State) : (copyPlace a0 a1 s).memc = s.memc := by
  unfold copyPlace
  try dsimp only
  repeat' (first | (simp; done) | (have h := appendRec_frame (by assumption); simp [h]; done) | (have h := takeSlot_frame (by assumption); simp [h]; done) | (have h := placePage_frame (by assumption); simp [h]; done) | (have h := placePart_frame (by assumption); simp [h]; done) | (have h := closeStream_frame (by assumption); simp [h]; done) | split | (refine (forAll_memc _ _ _ (fun x s => ?_)).trans ?_; try dsimp only) | (refine adminCmd_memc _ _ _ _ ?_; try dsimp only) | (refine provision_memc _ _ _ _  ?_; intros; try dsimp only) | (refine receive_memc _ _ _ _  ?_; intros; try dsimp only) | (refine fltReq_memc _ _ _ _  ?_; intros; try dsimp only) | simp)

theorem copyPlace_mov (a0 : ℕ) (a1 : Copy) (s : State) : (copyPlace a0 a1 s).mov = s.mov := by
  unfold copyPlace
  try dsimp only
  repeat' (first | (simp; done) | (have h := appendRec_frame (by assumption); simp [h]; done) | (have h := takeSlot_frame (by assumption); simp [h]; done) | (have h := placePage_frame (by assumption); simp [h]; done) | (have h := placePart_frame (by assumption); simp [h]; done) | (have h := closeStream_frame (by assumption); simp [h]; done) | split | (refine (forAll_mov _ _ _ (fun x s => ?_)).trans ?_; try dsimp only) | (refine adminCmd_mov _ _ _ _ ?_; try dsimp only) | (refine provision_mov _ _ _ _  ?_; intros; try dsimp only) | (refine receive_mov _ _ _ _  ?_; intros; try dsimp only) | (refine fltReq_mov _ _ _ _  ?_; intros; try dsimp only) | simp)

theorem copyPlace_cst (a0 : ℕ) (a1 : Copy) (s : State) : (copyPlace a0 a1 s).cst = s.cst := by
  unfold copyPlace
  try dsimp only
  repeat' (first | (simp; done) | (have h := appendRec_frame (by assumption); simp [h]; done) | (have h := takeSlot_frame (by assumption); simp [h]; done) | (have h := placePage_frame (by assumption); simp [h]; done) | (have h := placePart_frame (by assumption); simp [h]; done) | (have h := closeStream_frame (by assumption); simp [h]; done) | split | (refine (forAll_cst _ _ _ (fun x s => ?_)).trans ?_; try dsimp only) | (refine adminCmd_cst _ _ _ _ ?_; try dsimp only) | (refine provision_cst _ _ _ _  ?_; intros; try dsimp only) | (refine receive_cst _ _ _ _  ?_; intros; try dsimp only) | (refine fltReq_cst _ _ _ _  ?_; intros; try dsimp only) | simp)

theorem copyPlace_lnt (a0 : ℕ) (a1 : Copy) (s : State) : (copyPlace a0 a1 s).lnt = s.lnt := by
  unfold copyPlace
  try dsimp only
  repeat' (first | (simp; done) | (have h := appendRec_frame (by assumption); simp [h]; done) | (have h := takeSlot_frame (by assumption); simp [h]; done) | (have h := placePage_frame (by assumption); simp [h]; done) | (have h := placePart_frame (by assumption); simp [h]; done) | (have h := closeStream_frame (by assumption); simp [h]; done) | split | (refine (forAll_lnt _ _ _ (fun x s => ?_)).trans ?_; try dsimp only) | simp)

theorem copyPlace_out (a0 : ℕ) (a1 : Copy) (s : State) : (copyPlace a0 a1 s).out = s.out := by
  unfold copyPlace
  try dsimp only
  repeat' (first | (simp; done) | (have h := appendRec_frame (by assumption); simp [h]; done) | (have h := takeSlot_frame (by assumption); simp [h]; done) | (have h := placePage_frame (by assumption); simp [h]; done) | (have h := placePart_frame (by assumption); simp [h]; done) | (have h := closeStream_frame (by assumption); simp [h]; done) | split | (refine (forAll_out _ _ _ (fun x s => ?_)).trans ?_; try dsimp only) | (refine provision_out _ _ _ _  ?_; intros; try dsimp only) | simp)

theorem copyPlace_freeCtr (a0 : ℕ) (a1 : Copy) (s : State) : (copyPlace a0 a1 s).freeCtr = s.freeCtr := by
  unfold copyPlace
  try dsimp only
  repeat' (first | (simp; done) | (have h := appendRec_frame (by assumption); simp [h]; done) | (have h := takeSlot_frame (by assumption); simp [h]; done) | (have h := placePage_frame (by assumption); simp [h]; done) | (have h := placePart_frame (by assumption); simp [h]; done) | (have h := closeStream_frame (by assumption); simp [h]; done) | split | (refine (forAll_freeCtr _ _ _ (fun x s => ?_)).trans ?_; try dsimp only) | (refine adminCmd_freeCtr _ _ _ _ ?_; try dsimp only) | (refine provision_freeCtr _ _ _ _  ?_; intros; try dsimp only) | (refine receive_freeCtr _ _ _ _  ?_; intros; try dsimp only) | (refine fltReq_freeCtr _ _ _ _  ?_; intros; try dsimp only) | simp)

@[simp] theorem copyPlace_frame (a0 : ℕ) (a1 : Copy) (s : State) :
    (copyPlace a0 a1 s).pending = s.pending ∧ (copyPlace a0 a1 s).latch = s.latch ∧ (copyPlace a0 a1 s).mem = s.mem ∧ (copyPlace a0 a1 s).sys = s.sys ∧ (copyPlace a0 a1 s).clk = s.clk ∧ (copyPlace a0 a1 s).thm = s.thm ∧ (copyPlace a0 a1 s).hif = s.hif ∧ (copyPlace a0 a1 s).stm = s.stm ∧ (copyPlace a0 a1 s).map = s.map ∧ (copyPlace a0 a1 s).flc = s.flc ∧ (copyPlace a0 a1 s).mbr = s.mbr ∧ (copyPlace a0 a1 s).flt = s.flt ∧ (copyPlace a0 a1 s).sec = s.sec ∧ (copyPlace a0 a1 s).cpx = s.cpx ∧ (copyPlace a0 a1 s).memc = s.memc ∧ (copyPlace a0 a1 s).mov = s.mov ∧ (copyPlace a0 a1 s).cst = s.cst ∧ (copyPlace a0 a1 s).lnt = s.lnt ∧ (copyPlace a0 a1 s).out = s.out ∧ (copyPlace a0 a1 s).freeCtr = s.freeCtr :=
  ⟨copyPlace_pending a0 a1 s, copyPlace_latch a0 a1 s, copyPlace_mem a0 a1 s, copyPlace_sys a0 a1 s, copyPlace_clk a0 a1 s, copyPlace_thm a0 a1 s, copyPlace_hif a0 a1 s, copyPlace_stm a0 a1 s, copyPlace_map a0 a1 s, copyPlace_flc a0 a1 s, copyPlace_mbr a0 a1 s, copyPlace_flt a0 a1 s, copyPlace_sec a0 a1 s, copyPlace_cpx a0 a1 s, copyPlace_memc a0 a1 s, copyPlace_mov a0 a1 s, copyPlace_cst a0 a1 s, copyPlace_lnt a0 a1 s, copyPlace_out a0 a1 s, copyPlace_freeCtr a0 a1 s⟩

@[simp] theorem copyStep_frame (s : State) :
    (copyStep s).pending = s.pending ∧ (copyStep s).latch = s.latch ∧ (copyStep s).mem = s.mem ∧ (copyStep s).sys = s.sys ∧ (copyStep s).clk = s.clk ∧ (copyStep s).thm = s.thm ∧ (copyStep s).stm = s.stm ∧ (copyStep s).map = s.map ∧ (copyStep s).mbr = s.mbr ∧ (copyStep s).flt = s.flt ∧ (copyStep s).sec = s.sec ∧ (copyStep s).cpx = s.cpx ∧ (copyStep s).memc = s.memc ∧ (copyStep s).mov = s.mov ∧ (copyStep s).cst = s.cst ∧ (copyStep s).lnt = s.lnt ∧ (copyStep s).out = s.out ∧ (copyStep s).freeCtr = s.freeCtr := by
  unfold copyStep
  try dsimp only
  first
    | (simp; done)
    | ((repeat' split) <;> simp; done)
    | (and_intros <;> (repeat' (first | (simp; done) | split)))

theorem xferCount_pending (a0 : PlanItem) (s : State) : (xferCount a0 s).pending = s.pending := by
  unfold xferCount
  try dsimp only
  first
    | (simp; done)
    | ((repeat' split) <;> simp; done)
    | (repeat' (first | (simp; done) | split))

theorem xferCount_latch (a0 : PlanItem) (s : State) : (xferCount a0 s).latch = s.latch := by
  unfold xferCount
  try dsimp only
  first
    | (simp; done)
    | ((repeat' split) <;> simp; done)
    | (repeat' (first | (simp; done) | split))

theorem xferCount_mem (a0 : PlanItem) (s : State) : (xferCount a0 s).mem = s.mem := by
  unfold xferCount
  try dsimp only
  first
    | (simp; done)
    | ((repeat' split) <;> simp; done)
    | (repeat' (first | (simp; done) | split))

theorem xferCount_clk (a0 : PlanItem) (s : State) : (xferCount a0 s).clk = s.clk := by
  unfold xferCount
  try dsimp only
  first
    | (simp; done)
    | ((repeat' split) <;> simp; done)
    | (repeat' (first | (simp; done) | split))

theorem xferCount_thm (a0 : PlanItem) (s : State) : (xferCount a0 s).thm = s.thm := by
  unfold xferCount
  try dsimp only
  first
    | (simp; done)
    | ((repeat' split) <;> simp; done)
    | (repeat' (first | (simp; done) | split))

theorem xferCount_flt (a0 : PlanItem) (s : State) : (xferCount a0 s).flt = s.flt := by
  unfold xferCount
  try dsimp only
  first
    | (simp; done)
    | ((repeat' split) <;> simp; done)
    | (repeat' (first | (simp; done) | split))

theorem xferCount_memc (a0 : PlanItem) (s : State) : (xferCount a0 s).memc = s.memc := by
  unfold xferCount
  try dsimp only
  first
    | (simp; done)
    | ((repeat' split) <;> simp; done)
    | (repeat' (first | (simp; done) | split))

theorem xferCount_mov (a0 : PlanItem) (s : State) : (xferCount a0 s).mov = s.mov := by
  unfold xferCount
  try dsimp only
  first
    | (simp; done)
    | ((repeat' split) <;> simp; done)
    | (repeat' (first | (simp; done) | split))

theorem xferCount_out (a0 : PlanItem) (s : State) : (xferCount a0 s).out = s.out := by
  unfold xferCount
  try dsimp only
  first
    | (simp; done)
    | ((repeat' split) <;> simp; done)
    | (repeat' (first | (simp; done) | split))

@[simp] theorem xferCount_frame (a0 : PlanItem) (s : State) :
    (xferCount a0 s).pending = s.pending ∧ (xferCount a0 s).latch = s.latch ∧ (xferCount a0 s).mem = s.mem ∧ (xferCount a0 s).clk = s.clk ∧ (xferCount a0 s).thm = s.thm ∧ (xferCount a0 s).flt = s.flt ∧ (xferCount a0 s).memc = s.memc ∧ (xferCount a0 s).mov = s.mov ∧ (xferCount a0 s).out = s.out :=
  ⟨xferCount_pending a0 s, xferCount_latch a0 s, xferCount_mem a0 s, xferCount_clk a0 s, xferCount_thm a0 s, xferCount_flt a0 s, xferCount_memc a0 s, xferCount_mov a0 s, xferCount_out a0 s⟩

theorem issuePlan_pending (s : State) : (issuePlan s).pending = s.pending := by
  unfold issuePlan
  try dsimp only
  first
    | (simp; done)
    | ((repeat' split) <;> simp; done)
    | (repeat' (first | (simp; done) | split))

theorem issuePlan_latch (s : State) : (issuePlan s).latch = s.latch := by
  unfold issuePlan
  try dsimp only
  first
    | (simp; done)
    | ((repeat' split) <;> simp; done)
    | (repeat' (first | (simp; done) | split))

theorem issuePlan_mem (s : State) : (issuePlan s).mem = s.mem := by
  unfold issuePlan
  try dsimp only
  first
    | (simp; done)
    | ((repeat' split) <;> simp; done)
    | (repeat' (first | (simp; done) | split))

theorem issuePlan_clk (s : State) : (issuePlan s).clk = s.clk := by
  unfold issuePlan
  try dsimp only
  first
    | (simp; done)
    | ((repeat' split) <;> simp; done)
    | (repeat' (first | (simp; done) | split))

theorem issuePlan_thm (s : State) : (issuePlan s).thm = s.thm := by
  unfold issuePlan
  try dsimp only
  first
    | (simp; done)
    | ((repeat' split) <;> simp; done)
    | (repeat' (first | (simp; done) | split))

theorem issuePlan_flt (s : State) : (issuePlan s).flt = s.flt := by
  unfold issuePlan
  try dsimp only
  first
    | (simp; done)
    | ((repeat' split) <;> simp; done)
    | (repeat' (first | (simp; done) | split))

theorem issuePlan_memc (s : State) : (issuePlan s).memc = s.memc := by
  unfold issuePlan
  try dsimp only
  first
    | (simp; done)
    | ((repeat' split) <;> simp; done)
    | (repeat' (first | (simp; done) | split))

theorem issuePlan_mov (s : State) : (issuePlan s).mov = s.mov := by
  unfold issuePlan
  try dsimp only
  first
    | (simp; done)
    | ((repeat' split) <;> simp; done)
    | (repeat' (first | (simp; done) | split))

@[simp] theorem issuePlan_frame (s : State) :
    (issuePlan s).pending = s.pending ∧ (issuePlan s).latch = s.latch ∧ (issuePlan s).mem = s.mem ∧ (issuePlan s).clk = s.clk ∧ (issuePlan s).thm = s.thm ∧ (issuePlan s).flt = s.flt ∧ (issuePlan s).memc = s.memc ∧ (issuePlan s).mov = s.mov :=
  ⟨issuePlan_pending s, issuePlan_latch s, issuePlan_mem s, issuePlan_clk s, issuePlan_thm s, issuePlan_flt s, issuePlan_memc s, issuePlan_mov s⟩

@[simp] theorem coordinate_frame (s : State) :
    (coordinate s).pending = s.pending ∧ (coordinate s).latch = s.latch ∧ (coordinate s).mem = s.mem ∧ (coordinate s).clk = s.clk ∧ (coordinate s).thm = s.thm ∧ (coordinate s).stm = s.stm ∧ (coordinate s).map = s.map ∧ (coordinate s).mbr = s.mbr ∧ (coordinate s).flt = s.flt ∧ (coordinate s).sec = s.sec ∧ (coordinate s).cpx = s.cpx ∧ (coordinate s).memc = s.memc ∧ (coordinate s).mov = s.mov ∧ (coordinate s).cst = s.cst ∧ (coordinate s).out = s.out ∧ (coordinate s).freeCtr = s.freeCtr := by
  unfold coordinate
  try dsimp only
  first
    | (simp; done)
    | ((repeat' split) <;> simp; done)
    | (and_intros <;> (repeat' (first | (simp; done) | split)))

theorem blocksStep_pending (s : State) : (blocksStep s).pending = s.pending := by
  unfold blocksStep
  try dsimp only
  first
    | (simp; done)
    | ((repeat' split) <;> simp; done)
    | (repeat' (first | (simp; done) | split))

theorem blocksStep_latch (s : State) : (blocksStep s).latch = s.latch := by
  unfold blocksStep
  try dsimp only
  first
    | (simp; done)
    | ((repeat' split) <;> simp; done)
    | (repeat' (first | (simp; done) | split))

theorem blocksStep_thm (s : State) : (blocksStep s).thm = s.thm := by
  unfold blocksStep
  try dsimp only
  first
    | (simp; done)
    | ((repeat' split) <;> simp; done)
    | (repeat' (first | (simp; done) | split))

theorem blocksStep_memc (s : State) : (blocksStep s).memc = s.memc := by
  unfold blocksStep
  try dsimp only
  first
    | (simp; done)
    | ((repeat' split) <;> simp; done)
    | (repeat' (first | (simp; done) | split))

theorem blocksStep_mov (s : State) : (blocksStep s).mov = s.mov := by
  unfold blocksStep
  try dsimp only
  first
    | (simp; done)
    | ((repeat' split) <;> simp; done)
    | (repeat' (first | (simp; done) | split))

@[simp] theorem blocksStep_frame (s : State) :
    (blocksStep s).pending = s.pending ∧ (blocksStep s).latch = s.latch ∧ (blocksStep s).thm = s.thm ∧ (blocksStep s).memc = s.memc ∧ (blocksStep s).mov = s.mov :=
  ⟨blocksStep_pending s, blocksStep_latch s, blocksStep_thm s, blocksStep_memc s, blocksStep_mov s⟩

theorem runTick_pending (s : State) : (runTick s).pending = s.pending := by
  unfold runTick
  try dsimp only
  first
    | (simp; done)
    | ((repeat' split) <;> simp; done)
    | (repeat' (first | (simp; done) | split))

theorem runTick_latch (s : State) : (runTick s).latch = s.latch := by
  unfold runTick
  try dsimp only
  first
    | (simp; done)
    | ((repeat' split) <;> simp; done)
    | (repeat' (first | (simp; done) | split))

theorem runTick_thm (s : State) : (runTick s).thm = s.thm := by
  unfold runTick
  try dsimp only
  first
    | (simp; done)
    | ((repeat' split) <;> simp; done)
    | (repeat' (first | (simp; done) | split))

@[simp] theorem runTick_frame (s : State) :
    (runTick s).pending = s.pending ∧ (runTick s).latch = s.latch ∧ (runTick s).thm = s.thm :=
  ⟨runTick_pending s, runTick_latch s, runTick_thm s⟩

@[simp] theorem holdTick_frame (a0 : Bool) (a1 : Bool) (a2 : List ℕ) (s : State) :
    (holdTick a0 a1 a2 s).pending = s.pending ∧ (holdTick a0 a1 a2 s).latch = s.latch ∧ (holdTick a0 a1 a2 s).mem = s.mem ∧ (holdTick a0 a1 a2 s).clk = s.clk ∧ (holdTick a0 a1 a2 s).thm = s.thm ∧ (holdTick a0 a1 a2 s).hif = s.hif ∧ (holdTick a0 a1 a2 s).map = s.map ∧ (holdTick a0 a1 a2 s).flc = s.flc ∧ (holdTick a0 a1 a2 s).bnd = s.bnd ∧ (holdTick a0 a1 a2 s).mbr = s.mbr ∧ (holdTick a0 a1 a2 s).flt = s.flt ∧ (holdTick a0 a1 a2 s).sec = s.sec ∧ (holdTick a0 a1 a2 s).cpx = s.cpx ∧ (holdTick a0 a1 a2 s).memc = s.memc ∧ (holdTick a0 a1 a2 s).mov = s.mov ∧ (holdTick a0 a1 a2 s).cst = s.cst ∧ (holdTick a0 a1 a2 s).out = s.out ∧ (holdTick a0 a1 a2 s).freeCtr = s.freeCtr := by
  unfold holdTick
  try dsimp only
  first
    | (simp; done)
    | ((repeat' split) <;> simp; done)
    | (and_intros <;> (repeat' (first | (simp; done) | split)))

@[simp] theorem frameStep_frame (a0 : Bool) (s : State) :
    (frameStep a0 s).pending = s.pending ∧ (frameStep a0 s).latch = s.latch ∧ (frameStep a0 s).mem = s.mem ∧ (frameStep a0 s).sys = s.sys ∧ (frameStep a0 s).clk = s.clk ∧ (frameStep a0 s).thm = s.thm ∧ (frameStep a0 s).hif = s.hif ∧ (frameStep a0 s).stm = s.stm ∧ (frameStep a0 s).map = s.map ∧ (frameStep a0 s).flc = s.flc ∧ (frameStep a0 s).bnd = s.bnd ∧ (frameStep a0 s).mbr = s.mbr ∧ (frameStep a0 s).flt = s.flt ∧ (frameStep a0 s).sec = s.sec ∧ (frameStep a0 s).cpx = s.cpx ∧ (frameStep a0 s).memc = s.memc ∧ (frameStep a0 s).mov = s.mov ∧ (frameStep a0 s).cst = s.cst ∧ (frameStep a0 s).lnt = s.lnt ∧ (frameStep a0 s).out = s.out ∧ (frameStep a0 s).freeCtr = s.freeCtr := by
  unfold frameStep
  try dsimp only
  first
    | (simp; done)
    | ((repeat' split) <;> simp; done)
    | (and_intros <;> (repeat' (first | (simp; done) | split)))

end Sys2Proof.Machine
end

