-- ==== Sys2Proof/Laws/FramesStart.lean ====
section
/-! SUPPORT. Frames of the shared operations: which parts of the state each one leaves as they are (setup stores, starts and the Beacon protocol). -/

namespace Sys2Proof.Machine

set_option linter.unusedTactic false
set_option linter.unreachableTactic false
set_option linter.unusedSimpArgs false

/-! ### Setup -/

@[simp] theorem ringDrained_frame (a0 : ℕ) (s : State) :
    (ringDrained a0 s).pending = s.pending ∧ (ringDrained a0 s).regs = s.regs ∧ (ringDrained a0 s).latch = s.latch ∧ (ringDrained a0 s).mem = s.mem ∧ (ringDrained a0 s).clk = s.clk ∧ (ringDrained a0 s).thm = s.thm ∧ (ringDrained a0 s).tck = s.tck ∧ (ringDrained a0 s).hif = s.hif ∧ (ringDrained a0 s).stm = s.stm ∧ (ringDrained a0 s).map = s.map ∧ (ringDrained a0 s).flc = s.flc ∧ (ringDrained a0 s).bnd = s.bnd ∧ (ringDrained a0 s).mbr = s.mbr ∧ (ringDrained a0 s).flt = s.flt ∧ (ringDrained a0 s).sec = s.sec ∧ (ringDrained a0 s).cpx = s.cpx ∧ (ringDrained a0 s).memc = s.memc ∧ (ringDrained a0 s).mov = s.mov ∧ (ringDrained a0 s).cst = s.cst ∧ (ringDrained a0 s).lnt = s.lnt ∧ (ringDrained a0 s).out = s.out ∧ (ringDrained a0 s).freeCtr = s.freeCtr := by
  unfold ringDrained
  try dsimp only
  first
    | (simp; done)
    | ((repeat' split) <;> simp; done)
    | (and_intros <;> (repeat' (first | (simp; done) | split)))

@[simp] theorem storeRingCfg_frame (a0 : Word) (s : State) :
    (storeRingCfg a0 s).pending = s.pending ∧ (storeRingCfg a0 s).latch = s.latch ∧ (storeRingCfg a0 s).clk = s.clk ∧ (storeRingCfg a0 s).thm = s.thm ∧ (storeRingCfg a0 s).tck = s.tck ∧ (storeRingCfg a0 s).hif = s.hif ∧ (storeRingCfg a0 s).stm = s.stm ∧ (storeRingCfg a0 s).map = s.map ∧ (storeRingCfg a0 s).flc = s.flc ∧ (storeRingCfg a0 s).bnd = s.bnd ∧ (storeRingCfg a0 s).mbr = s.mbr ∧ (storeRingCfg a0 s).flt = s.flt ∧ (storeRingCfg a0 s).sec = s.sec ∧ (storeRingCfg a0 s).cpx = s.cpx ∧ (storeRingCfg a0 s).memc = s.memc ∧ (storeRingCfg a0 s).cst = s.cst ∧ (storeRingCfg a0 s).out = s.out ∧ (storeRingCfg a0 s).freeCtr = s.freeCtr := by
  unfold storeRingCfg
  try dsimp only
  first
    | (simp; done)
    | ((repeat' split) <;> simp; done)
    | (and_intros <;> (repeat' (first | (simp; done) | split)))

@[simp] theorem storeRingAddr_frame (a0 : ℕ) (a1 : Word) (s : State) :
    (storeRingAddr a0 a1 s).pending = s.pending ∧ (storeRingAddr a0 a1 s).latch = s.latch ∧ (storeRingAddr a0 a1 s).mem = s.mem ∧ (storeRingAddr a0 a1 s).clk = s.clk ∧ (storeRingAddr a0 a1 s).thm = s.thm ∧ (storeRingAddr a0 a1 s).tck = s.tck ∧ (storeRingAddr a0 a1 s).hif = s.hif ∧ (storeRingAddr a0 a1 s).stm = s.stm ∧ (storeRingAddr a0 a1 s).map = s.map ∧ (storeRingAddr a0 a1 s).flc = s.flc ∧ (storeRingAddr a0 a1 s).bnd = s.bnd ∧ (storeRingAddr a0 a1 s).mbr = s.mbr ∧ (storeRingAddr a0 a1 s).flt = s.flt ∧ (storeRingAddr a0 a1 s).sec = s.sec ∧ (storeRingAddr a0 a1 s).cpx = s.cpx ∧ (storeRingAddr a0 a1 s).memc = s.memc ∧ (storeRingAddr a0 a1 s).mov = s.mov ∧ (storeRingAddr a0 a1 s).cst = s.cst ∧ (storeRingAddr a0 a1 s).out = s.out ∧ (storeRingAddr a0 a1 s).freeCtr = s.freeCtr := by
  unfold storeRingAddr
  try dsimp only
  first
    | (simp; done)
    | ((repeat' split) <;> simp; done)
    | (and_intros <;> (repeat' (first | (simp; done) | split)))

@[simp] theorem storeProfile_frame (a0 : Word) (s : State) :
    (storeProfile a0 s).pending = s.pending ∧ (storeProfile a0 s).latch = s.latch ∧ (storeProfile a0 s).mem = s.mem ∧ (storeProfile a0 s).clk = s.clk ∧ (storeProfile a0 s).thm = s.thm ∧ (storeProfile a0 s).tck = s.tck ∧ (storeProfile a0 s).hif = s.hif ∧ (storeProfile a0 s).stm = s.stm ∧ (storeProfile a0 s).map = s.map ∧ (storeProfile a0 s).flc = s.flc ∧ (storeProfile a0 s).bnd = s.bnd ∧ (storeProfile a0 s).mbr = s.mbr ∧ (storeProfile a0 s).flt = s.flt ∧ (storeProfile a0 s).sec = s.sec ∧ (storeProfile a0 s).cpx = s.cpx ∧ (storeProfile a0 s).memc = s.memc ∧ (storeProfile a0 s).mov = s.mov ∧ (storeProfile a0 s).cst = s.cst ∧ (storeProfile a0 s).out = s.out ∧ (storeProfile a0 s).freeCtr = s.freeCtr := by
  unfold storeProfile
  try dsimp only
  first
    | (simp; done)
    | ((repeat' split) <;> simp; done)
    | (and_intros <;> (repeat' (first | (simp; done) | split)))

@[simp] theorem gpioLevel_frame (a0 : ℕ) (a1 : Bool) (s : State) :
    (gpioLevel a0 a1 s).pending = s.pending ∧ (gpioLevel a0 a1 s).latch = s.latch ∧ (gpioLevel a0 a1 s).mem = s.mem ∧ (gpioLevel a0 a1 s).clk = s.clk ∧ (gpioLevel a0 a1 s).thm = s.thm ∧ (gpioLevel a0 a1 s).tck = s.tck ∧ (gpioLevel a0 a1 s).hif = s.hif ∧ (gpioLevel a0 a1 s).stm = s.stm ∧ (gpioLevel a0 a1 s).map = s.map ∧ (gpioLevel a0 a1 s).flc = s.flc ∧ (gpioLevel a0 a1 s).bnd = s.bnd ∧ (gpioLevel a0 a1 s).mbr = s.mbr ∧ (gpioLevel a0 a1 s).flt = s.flt ∧ (gpioLevel a0 a1 s).sec = s.sec ∧ (gpioLevel a0 a1 s).cpx = s.cpx ∧ (gpioLevel a0 a1 s).memc = s.memc ∧ (gpioLevel a0 a1 s).mov = s.mov ∧ (gpioLevel a0 a1 s).cst = s.cst ∧ (gpioLevel a0 a1 s).lnt = s.lnt ∧ (gpioLevel a0 a1 s).out = s.out ∧ (gpioLevel a0 a1 s).freeCtr = s.freeCtr := by
  unfold gpioLevel
  try dsimp only
  first
    | (simp; done)
    | ((repeat' split) <;> simp; done)
    | (and_intros <;> (repeat' (first | (simp; done) | split)))

@[simp] theorem gpioDrive_frame (s : State) :
    (gpioDrive s).pending = s.pending ∧ (gpioDrive s).latch = s.latch ∧ (gpioDrive s).mem = s.mem ∧ (gpioDrive s).clk = s.clk ∧ (gpioDrive s).thm = s.thm ∧ (gpioDrive s).tck = s.tck ∧ (gpioDrive s).hif = s.hif ∧ (gpioDrive s).stm = s.stm ∧ (gpioDrive s).map = s.map ∧ (gpioDrive s).flc = s.flc ∧ (gpioDrive s).bnd = s.bnd ∧ (gpioDrive s).mbr = s.mbr ∧ (gpioDrive s).flt = s.flt ∧ (gpioDrive s).sec = s.sec ∧ (gpioDrive s).cpx = s.cpx ∧ (gpioDrive s).memc = s.memc ∧ (gpioDrive s).mov = s.mov ∧ (gpioDrive s).cst = s.cst ∧ (gpioDrive s).lnt = s.lnt ∧ (gpioDrive s).out = s.out ∧ (gpioDrive s).freeCtr = s.freeCtr := by
  unfold gpioDrive
  try dsimp only
  first
    | (simp; done)
    | ((repeat' split) <;> simp; done)
    | (and_intros <;> (repeat' (first | (simp; done) | split)))

@[simp] theorem storeStaged_frame (a0 : ℕ) (a1 : Word) (s : State) :
    (storeStaged a0 a1 s).pending = s.pending ∧ (storeStaged a0 a1 s).regs = s.regs ∧ (storeStaged a0 a1 s).latch = s.latch ∧ (storeStaged a0 a1 s).mem = s.mem ∧ (storeStaged a0 a1 s).sys = s.sys ∧ (storeStaged a0 a1 s).clk = s.clk ∧ (storeStaged a0 a1 s).thm = s.thm ∧ (storeStaged a0 a1 s).tck = s.tck ∧ (storeStaged a0 a1 s).stm = s.stm ∧ (storeStaged a0 a1 s).map = s.map ∧ (storeStaged a0 a1 s).flc = s.flc ∧ (storeStaged a0 a1 s).bnd = s.bnd ∧ (storeStaged a0 a1 s).mbr = s.mbr ∧ (storeStaged a0 a1 s).flt = s.flt ∧ (storeStaged a0 a1 s).sec = s.sec ∧ (storeStaged a0 a1 s).cpx = s.cpx ∧ (storeStaged a0 a1 s).memc = s.memc ∧ (storeStaged a0 a1 s).mov = s.mov ∧ (storeStaged a0 a1 s).cst = s.cst ∧ (storeStaged a0 a1 s).lnt = s.lnt ∧ (storeStaged a0 a1 s).out = s.out ∧ (storeStaged a0 a1 s).freeCtr = s.freeCtr := by
  unfold storeStaged
  try dsimp only
  first
    | (simp; done)
    | ((repeat' split) <;> simp; done)
    | (and_intros <;> (repeat' (first | (simp; done) | split)))

@[simp] theorem storeProvArg_frame (a0 : ℕ) (a1 : Word) (s : State) :
    (storeProvArg a0 a1 s).pending = s.pending ∧ (storeProvArg a0 a1 s).regs = s.regs ∧ (storeProvArg a0 a1 s).latch = s.latch ∧ (storeProvArg a0 a1 s).mem = s.mem ∧ (storeProvArg a0 a1 s).sys = s.sys ∧ (storeProvArg a0 a1 s).clk = s.clk ∧ (storeProvArg a0 a1 s).thm = s.thm ∧ (storeProvArg a0 a1 s).tck = s.tck ∧ (storeProvArg a0 a1 s).hif = s.hif ∧ (storeProvArg a0 a1 s).stm = s.stm ∧ (storeProvArg a0 a1 s).map = s.map ∧ (storeProvArg a0 a1 s).flc = s.flc ∧ (storeProvArg a0 a1 s).bnd = s.bnd ∧ (storeProvArg a0 a1 s).mbr = s.mbr ∧ (storeProvArg a0 a1 s).flt = s.flt ∧ (storeProvArg a0 a1 s).cpx = s.cpx ∧ (storeProvArg a0 a1 s).memc = s.memc ∧ (storeProvArg a0 a1 s).mov = s.mov ∧ (storeProvArg a0 a1 s).cst = s.cst ∧ (storeProvArg a0 a1 s).lnt = s.lnt ∧ (storeProvArg a0 a1 s).out = s.out ∧ (storeProvArg a0 a1 s).freeCtr = s.freeCtr := by
  unfold storeProvArg
  try dsimp only
  first
    | (simp; done)
    | ((repeat' split) <;> simp; done)
    | (and_intros <;> (repeat' (first | (simp; done) | split)))

@[simp] theorem storeFlcCfg_frame (a0 : ℕ) (a1 : Word) (s : State) :
    (storeFlcCfg a0 a1 s).pending = s.pending ∧ (storeFlcCfg a0 a1 s).latch = s.latch ∧ (storeFlcCfg a0 a1 s).mem = s.mem ∧ (storeFlcCfg a0 a1 s).clk = s.clk ∧ (storeFlcCfg a0 a1 s).thm = s.thm ∧ (storeFlcCfg a0 a1 s).tck = s.tck ∧ (storeFlcCfg a0 a1 s).hif = s.hif ∧ (storeFlcCfg a0 a1 s).stm = s.stm ∧ (storeFlcCfg a0 a1 s).map = s.map ∧ (storeFlcCfg a0 a1 s).bnd = s.bnd ∧ (storeFlcCfg a0 a1 s).mbr = s.mbr ∧ (storeFlcCfg a0 a1 s).flt = s.flt ∧ (storeFlcCfg a0 a1 s).sec = s.sec ∧ (storeFlcCfg a0 a1 s).cpx = s.cpx ∧ (storeFlcCfg a0 a1 s).memc = s.memc ∧ (storeFlcCfg a0 a1 s).mov = s.mov ∧ (storeFlcCfg a0 a1 s).cst = s.cst ∧ (storeFlcCfg a0 a1 s).out = s.out ∧ (storeFlcCfg a0 a1 s).freeCtr = s.freeCtr := by
  unfold storeFlcCfg
  try dsimp only
  first
    | (simp; done)
    | ((repeat' split) <;> simp; done)
    | (and_intros <;> (repeat' (first | (simp; done) | split)))



@[simp] theorem accessFault_frame (a0 : ℕ) (s : State) :
    (accessFault a0 s).pending = s.pending ∧ (accessFault a0 s).latch = s.latch ∧ (accessFault a0 s).mem = s.mem ∧ (accessFault a0 s).clk = s.clk ∧ (accessFault a0 s).thm = s.thm ∧ (accessFault a0 s).tck = s.tck ∧ (accessFault a0 s).hif = s.hif ∧ (accessFault a0 s).stm = s.stm ∧ (accessFault a0 s).map = s.map ∧ (accessFault a0 s).flc = s.flc ∧ (accessFault a0 s).bnd = s.bnd ∧ (accessFault a0 s).mbr = s.mbr ∧ (accessFault a0 s).flt = s.flt ∧ (accessFault a0 s).sec = s.sec ∧ (accessFault a0 s).cpx = s.cpx ∧ (accessFault a0 s).memc = s.memc ∧ (accessFault a0 s).mov = s.mov ∧ (accessFault a0 s).cst = s.cst ∧ (accessFault a0 s).freeCtr = s.freeCtr := by
  unfold accessFault
  try dsimp only
  first
    | (simp; done)
    | ((repeat' split) <;> simp; done)
    | (and_intros <;> (repeat' (first | (simp; done) | split)))

/-! ### Boot -/

@[simp] theorem tearProg_frame (a0 : ℕ) (a1 : ArrayOp) (s : State) :
    (tearProg a0 a1 s).pending = s.pending ∧ (tearProg a0 a1 s).regs = s.regs ∧ (tearProg a0 a1 s).latch = s.latch ∧ (tearProg a0 a1 s).mem = s.mem ∧ (tearProg a0 a1 s).sys = s.sys ∧ (tearProg a0 a1 s).clk = s.clk ∧ (tearProg a0 a1 s).thm = s.thm ∧ (tearProg a0 a1 s).tck = s.tck ∧ (tearProg a0 a1 s).hif = s.hif ∧ (tearProg a0 a1 s).stm = s.stm ∧ (tearProg a0 a1 s).map = s.map ∧ (tearProg a0 a1 s).mbr = s.mbr ∧ (tearProg a0 a1 s).flt = s.flt ∧ (tearProg a0 a1 s).sec = s.sec ∧ (tearProg a0 a1 s).cpx = s.cpx ∧ (tearProg a0 a1 s).memc = s.memc ∧ (tearProg a0 a1 s).mov = s.mov ∧ (tearProg a0 a1 s).cst = s.cst ∧ (tearProg a0 a1 s).lnt = s.lnt ∧ (tearProg a0 a1 s).out = s.out ∧ (tearProg a0 a1 s).freeCtr = s.freeCtr := by
  unfold tearProg
  try dsimp only
  first
    | (simp; done)
    | ((repeat' split) <;> simp; done)
    | (and_intros <;> (repeat' (first | (simp; done) | split)))

@[simp] theorem tearAll_frame (s : State) :
    (tearAll s).pending = s.pending ∧ (tearAll s).regs = s.regs ∧ (tearAll s).latch = s.latch ∧ (tearAll s).mem = s.mem ∧ (tearAll s).sys = s.sys ∧ (tearAll s).clk = s.clk ∧ (tearAll s).thm = s.thm ∧ (tearAll s).tck = s.tck ∧ (tearAll s).hif = s.hif ∧ (tearAll s).stm = s.stm ∧ (tearAll s).map = s.map ∧ (tearAll s).mbr = s.mbr ∧ (tearAll s).flt = s.flt ∧ (tearAll s).sec = s.sec ∧ (tearAll s).cpx = s.cpx ∧ (tearAll s).memc = s.memc ∧ (tearAll s).mov = s.mov ∧ (tearAll s).cst = s.cst ∧ (tearAll s).lnt = s.lnt ∧ (tearAll s).out = s.out ∧ (tearAll s).freeCtr = s.freeCtr := by
  unfold tearAll
  try dsimp only
  and_intros
  · repeat' (first | (simp; done) | (have h := appendRec_frame (by assumption); simp [h]; done) | (have h := takeSlot_frame (by assumption); simp [h]; done) | (have h := placePage_frame (by assumption); simp [h]; done) | (have h := placePart_frame (by assumption); simp [h]; done) | (have h := closeStream_frame (by assumption); simp [h]; done) | (have h := storeA_frame (by assumption); simp [h]; done) | (have h := storeB_frame (by assumption); simp [h]; done) | split | (refine (forAll_pending _ _ _ (fun x s => ?_)).trans ?_; try dsimp only) | (refine adminCmd_pending _ _ _ _ ?_; try dsimp only) | (refine provision_pending _ _ _ _  ?_; intros; try dsimp only) | (refine receive_pending _ _ _ _  ?_; intros; try dsimp only) | (refine fltReq_pending _ _ _ _  ?_; intros; try dsimp only) | simp)
  · repeat' (first | (simp; done) | (have h := appendRec_frame (by assumption); simp [h]; done) | (have h := takeSlot_frame (by assumption); simp [h]; done) | (have h := placePage_frame (by assumption); simp [h]; done) | (have h := placePart_frame (by assumption); simp [h]; done) | (have h := closeStream_frame (by assumption); simp [h]; done) | (have h := storeA_frame (by assumption); simp [h]; done) | (have h := storeB_frame (by assumption); simp [h]; done) | split | (refine (forAll_regs _ _ _ (fun x s => ?_)).trans ?_; try dsimp only) | (refine adminCmd_regs _ _ _ _ ?_; try dsimp only) | simp)
  · repeat' (first | (simp; done) | (have h := appendRec_frame (by assumption); simp [h]; done) | (have h := takeSlot_frame (by assumption); simp [h]; done) | (have h := placePage_frame (by assumption); simp [h]; done) | (have h := placePart_frame (by assumption); simp [h]; done) | (have h := closeStream_frame (by assumption); simp [h]; done) | (have h := storeA_frame (by assumption); simp [h]; done) | (have h := storeB_frame (by assumption); simp [h]; done) | split | (refine (forAll_latch _ _ _ (fun x s => ?_)).trans ?_; try dsimp only) | (refine adminCmd_latch _ _ _ _ ?_; try dsimp only) | (refine provision_latch _ _ _ _  ?_; intros; try dsimp only) | (refine receive_latch _ _ _ _  ?_; intros; try dsimp only) | (refine fltReq_latch _ _ _ _  ?_; intros; try dsimp only) | simp)
  · repeat' (first | (simp; done) | (have h := appendRec_frame (by assumption); simp [h]; done) | (have h := takeSlot_frame (by assumption); simp [h]; done) | (have h := placePage_frame (by assumption); simp [h]; done) | (have h := placePart_frame (by assumption); simp [h]; done) | (have h := closeStream_frame (by assumption); simp [h]; done) | (have h := storeA_frame (by assumption); simp [h]; done) | (have h := storeB_frame (by assumption); simp [h]; done) | split | (refine (forAll_mem _ _ _ (fun x s => ?_)).trans ?_; try dsimp only) | (refine adminCmd_mem _ _ _ _ ?_; try dsimp only) | (refine provision_mem _ _ _ _  ?_; intros; try dsimp only) | (refine receive_mem _ _ _ _  ?_; intros; try dsimp only) | (refine fltReq_mem _ _ _ _  ?_; intros; try dsimp only) | simp)
  · repeat' (first | (simp; done) | (have h := appendRec_frame (by assumption); simp [h]; done) | (have h := takeSlot_frame (by assumption); simp [h]; done) | (have h := placePage_frame (by assumption); simp [h]; done) | (have h := placePart_frame (by assumption); simp [h]; done) | (have h := closeStream_frame (by assumption); simp [h]; done) | (have h := storeA_frame (by assumption); simp [h]; done) | (have h := storeB_frame (by assumption); simp [h]; done) | split | (refine (forAll_sys _ _ _ (fun x s => ?_)).trans ?_; try dsimp only) | (refine adminCmd_sys _ _ _ _ ?_; try dsimp only) | simp)
  · repeat' (first | (simp; done) | (have h := appendRec_frame (by assumption); simp [h]; done) | (have h := takeSlot_frame (by assumption); simp [h]; done) | (have h := placePage_frame (by assumption); simp [h]; done) | (have h := placePart_frame (by assumption); simp [h]; done) | (have h := closeStream_frame (by assumption); simp [h]; done) | (have h := storeA_frame (by assumption); simp [h]; done) | (have h := storeB_frame (by assumption); simp [h]; done) | split | (refine (forAll_clk _ _ _ (fun x s => ?_)).trans ?_; try dsimp only) | (refine adminCmd_clk _ _ _ _ ?_; try dsimp only) | (refine provision_clk _ _ _ _  ?_; intros; try dsimp only) | (refine receive_clk _ _ _ _  ?_; intros; try dsimp only) | (refine fltReq_clk _ _ _ _  ?_; intros; try dsimp only) | simp)
  · repeat' (first | (simp; done) | (have h := appendRec_frame (by assumption); simp [h]; done) | (have h := takeSlot_frame (by assumption); simp [h]; done) | (have h := placePage_frame (by assumption); simp [h]; done) | (have h := placePart_frame (by assumption); simp [h]; done) | (have h := closeStream_frame (by assumption); simp [h]; done) | (have h := storeA_frame (by assumption); simp [h]; done) | (have h := storeB_frame (by assumption); simp [h]; done) | split | (refine (forAll_thm _ _ _ (fun x s => ?_)).trans ?_; try dsimp only) | (refine adminCmd_thm _ _ _ _ ?_; try dsimp only) | (refine provision_thm _ _ _ _  ?_; intros; try dsimp only) | (refine receive_thm _ _ _ _  ?_; intros; try dsimp only) | (refine fltReq_thm _ _ _ _  ?_; intros; try dsimp only) | simp)
  · repeat' (first | (simp; done) | (have h := appendRec_frame (by assumption); simp [h]; done) | (have h := takeSlot_frame (by assumption); simp [h]; done) | (have h := placePage_frame (by assumption); simp [h]; done) | (have h := placePart_frame (by assumption); simp [h]; done) | (have h := closeStream_frame (by assumption); simp [h]; done) | (have h := storeA_frame (by assumption); simp [h]; done) | (have h := storeB_frame (by assumption); simp [h]; done) | split | (refine (forAll_tck _ _ _ (fun x s => ?_)).trans ?_; try dsimp only) | (refine adminCmd_tck _ _ _ _ ?_; try dsimp only) | (refine provision_tck _ _ _ _  ?_; intros; try dsimp only) | (refine receive_tck _ _ _ _  ?_; intros; try dsimp only) | (refine fltReq_tck _ _ _ _  ?_; intros; try dsimp only) | simp)
  · repeat' (first | (simp; done) | (have h := appendRec_frame (by assumption); simp [h]; done) | (have h := takeSlot_frame (by assumption); simp [h]; done) | (have h := placePage_frame (by assumption); simp [h]; done) | (have h := placePart_frame (by assumption); simp [h]; done) | (have h := closeStream_frame (by assumption); simp [h]; done) | (have h := storeA_frame (by assumption); simp [h]; done) | (have h := storeB_frame (by assumption); simp [h]; done) | split | (refine (forAll_hif _ _ _ (fun x s => ?_)).trans ?_; try dsimp only) | (refine provision_hif _ _ _ _  ?_; intros; try dsimp only) | (refine receive_hif _ _ _ _  ?_; intros; try dsimp only) | (refine fltReq_hif _ _ _ _  ?_; intros; try dsimp only) | simp)
  · repeat' (first | (simp; done) | (have h := appendRec_frame (by assumption); simp [h]; done) | (have h := takeSlot_frame (by assumption); simp [h]; done) | (have h := placePage_frame (by assumption); simp [h]; done) | (have h := placePart_frame (by assumption); simp [h]; done) | (have h := closeStream_frame (by assumption); simp [h]; done) | (have h := storeA_frame (by assumption); simp [h]; done) | (have h := storeB_frame (by assumption); simp [h]; done) | split | (refine (forAll_stm _ _ _ (fun x s => ?_)).trans ?_; try dsimp only) | (refine adminCmd_stm _ _ _ _ ?_; try dsimp only) | (refine provision_stm _ _ _ _  ?_; intros; try dsimp only) | (refine receive_stm _ _ _ _  ?_; intros; try dsimp only) | (refine fltReq_stm _ _ _ _  ?_; intros; try dsimp only) | simp)
  · repeat' (first | (simp; done) | (have h := appendRec_frame (by assumption); simp [h]; done) | (have h := takeSlot_frame (by assumption); simp [h]; done) | (have h := placePage_frame (by assumption); simp [h]; done) | (have h := placePart_frame (by assumption); simp [h]; done) | (have h := closeStream_frame (by assumption); simp [h]; done) | (have h := storeA_frame (by assumption); simp [h]; done) | (have h := storeB_frame (by assumption); simp [h]; done) | split | (refine (forAll_map _ _ _ (fun x s => ?_)).trans ?_; try dsimp only) | (refine adminCmd_map _ _ _ _ ?_; try dsimp only) | (refine provision_map _ _ _ _  ?_; intros; try dsimp only) | (refine receive_map _ _ _ _  ?_; intros; try dsimp only) | (refine fltReq_map _ _ _ _  ?_; intros; try dsimp only) | simp)
  · repeat' (first | (simp; done) | (have h := appendRec_frame (by assumption); simp [h]; done) | (have h := takeSlot_frame (by assumption); simp [h]; done) | (have h := placePage_frame (by assumption); simp [h]; done) | (have h := placePart_frame (by assumption); simp [h]; done) | (have h := closeStream_frame (by assumption); simp [h]; done) | (have h := storeA_frame (by assumption); simp [h]; done) | (have h := storeB_frame (by assumption); simp [h]; done) | split | (refine (forAll_mbr _ _ _ (fun x s => ?_)).trans ?_; try dsimp only) | (refine adminCmd_mbr _ _ _ _ ?_; try dsimp only) | (refine provision_mbr _ _ _ _  ?_; intros; try dsimp only) | (refine receive_mbr _ _ _ _  ?_; intros; try dsimp only) | (refine fltReq_mbr _ _ _ _  ?_; intros; try dsimp only) | simp)
  · repeat' (first | (simp; done) | (have h := appendRec_frame (by assumption); simp [h]; done) | (have h := takeSlot_frame (by assumption); simp [h]; done) | (have h := placePage_frame (by assumption); simp [h]; done) | (have h := placePart_frame (by assumption); simp [h]; done) | (have h := closeStream_frame (by assumption); simp [h]; done) | (have h := storeA_frame (by assumption); simp [h]; done) | (have h := storeB_frame (by assumption); simp [h]; done) | split | (refine (forAll_flt _ _ _ (fun x s => ?_)).trans ?_; try dsimp only) | (refine adminCmd_flt _ _ _ _ ?_; try dsimp only) | (refine provision_flt _ _ _ _  ?_; intros; try dsimp only) | (refine fltReq_flt _ _ _ _  ?_; intros; try dsimp only) | simp)
  · repeat' (first | (simp; done) | (have h := appendRec_frame (by assumption); simp [h]; done) | (have h := takeSlot_frame (by assumption); simp [h]; done) | (have h := placePage_frame (by assumption); simp [h]; done) | (have h := placePart_frame (by assumption); simp [h]; done) | (have h := closeStream_frame (by assumption); simp [h]; done) | (have h := storeA_frame (by assumption); simp [h]; done) | (have h := storeB_frame (by assumption); simp [h]; done) | split | (refine (forAll_sec _ _ _ (fun x s => ?_)).trans ?_; try dsimp only) | (refine adminCmd_sec _ _ _ _ ?_; try dsimp only) | (refine receive_sec _ _ _ _  ?_; intros; try dsimp only) | (refine fltReq_sec _ _ _ _  ?_; intros; try dsimp only) | simp)
  · repeat' (first | (simp; done) | (have h := appendRec_frame (by assumption); simp [h]; done) | (have h := takeSlot_frame (by assumption); simp [h]; done) | (have h := placePage_frame (by assumption); simp [h]; done) | (have h := placePart_frame (by assumption); simp [h]; done) | (have h := closeStream_frame (by assumption); simp [h]; done) | (have h := storeA_frame (by assumption); simp [h]; done) | (have h := storeB_frame (by assumption); simp [h]; done) | split | (refine (forAll_cpx _ _ _ (fun x s => ?_)).trans ?_; try dsimp only) | (refine adminCmd_cpx _ _ _ _ ?_; try dsimp only) | (refine provision_cpx _ _ _ _  ?_; intros; try dsimp only) | (refine receive_cpx _ _ _ _  ?_; intros; try dsimp only) | (refine fltReq_cpx _ _ _ _  ?_; intros; try dsimp only) | simp)
  · repeat' (first | (simp; done) | (have h := appendRec_frame (by assumption); simp [h]; done) | (have h := takeSlot_frame (by assumption); simp [h]; done) | (have h := placePage_frame (by assumption); simp [h]; done) | (have h := placePart_frame (by assumption); simp [h]; done) | (have h := closeStream_frame (by assumption); simp [h]; done) | (have h := storeA_frame (by assumption); simp [h]; done) | (have h := storeB_frame (by assumption); simp [h]; done) | split | (refine (forAll_memc _ _ _ (fun x s => ?_)).trans ?_; try dsimp only) | (refine adminCmd_memc _ _ _ _ ?_; try dsimp only) | (refine provision_memc _ _ _ _  ?_; intros; try dsimp only) | (refine receive_memc _ _ _ _  ?_; intros; try dsimp only) | (refine fltReq_memc _ _ _ _  ?_; intros; try dsimp only) | simp)
  · repeat' (first | (simp; done) | (have h := appendRec_frame (by assumption); simp [h]; done) | (have h := takeSlot_frame (by assumption); simp [h]; done) | (have h := placePage_frame (by assumption); simp [h]; done) | (have h := placePart_frame (by assumption); simp [h]; done) | (have h := closeStream_frame (by assumption); simp [h]; done) | (have h := storeA_frame (by assumption); simp [h]; done) | (have h := storeB_frame (by assumption); simp [h]; done) | split | (refine (forAll_mov _ _ _ (fun x s => ?_)).trans ?_; try dsimp only) | (refine adminCmd_mov _ _ _ _ ?_; try dsimp only) | (refine provision_mov _ _ _ _  ?_; intros; try dsimp only) | (refine receive_mov _ _ _ _  ?_; intros; try dsimp only) | (refine fltReq_mov _ _ _ _  ?_; intros; try dsimp only) | simp)
  · repeat' (first | (simp; done) | (have h := appendRec_frame (by assumption); simp [h]; done) | (have h := takeSlot_frame (by assumption); simp [h]; done) | (have h := placePage_frame (by assumption); simp [h]; done) | (have h := placePart_frame (by assumption); simp [h]; done) | (have h := closeStream_frame (by assumption); simp [h]; done) | (have h := storeA_frame (by assumption); simp [h]; done) | (have h := storeB_frame (by assumption); simp [h]; done) | split | (refine (forAll_cst _ _ _ (fun x s => ?_)).trans ?_; try dsimp only) | (refine adminCmd_cst _ _ _ _ ?_; try dsimp only) | (refine provision_cst _ _ _ _  ?_; intros; try dsimp only) | (refine receive_cst _ _ _ _  ?_; intros; try dsimp only) | (refine fltReq_cst _ _ _ _  ?_; intros; try dsimp only) | simp)
  · repeat' (first | (simp; done) | (have h := appendRec_frame (by assumption); simp [h]; done) | (have h := takeSlot_frame (by assumption); simp [h]; done) | (have h := placePage_frame (by assumption); simp [h]; done) | (have h := placePart_frame (by assumption); simp [h]; done) | (have h := closeStream_frame (by assumption); simp [h]; done) | (have h := storeA_frame (by assumption); simp [h]; done) | (have h := storeB_frame (by assumption); simp [h]; done) | split | (refine (forAll_lnt _ _ _ (fun x s => ?_)).trans ?_; try dsimp only) | simp)
  · repeat' (first | (simp; done) | (have h := appendRec_frame (by assumption); simp [h]; done) | (have h := takeSlot_frame (by assumption); simp [h]; done) | (have h := placePage_frame (by assumption); simp [h]; done) | (have h := placePart_frame (by assumption); simp [h]; done) | (have h := closeStream_frame (by assumption); simp [h]; done) | (have h := storeA_frame (by assumption); simp [h]; done) | (have h := storeB_frame (by assumption); simp [h]; done) | split | (refine (forAll_out _ _ _ (fun x s => ?_)).trans ?_; try dsimp only) | (refine provision_out _ _ _ _  ?_; intros; try dsimp only) | simp)
  · repeat' (first | (simp; done) | (have h := appendRec_frame (by assumption); simp [h]; done) | (have h := takeSlot_frame (by assumption); simp [h]; done) | (have h := placePage_frame (by assumption); simp [h]; done) | (have h := placePart_frame (by assumption); simp [h]; done) | (have h := closeStream_frame (by assumption); simp [h]; done) | (have h := storeA_frame (by assumption); simp [h]; done) | (have h := storeB_frame (by assumption); simp [h]; done) | split | (refine (forAll_freeCtr _ _ _ (fun x s => ?_)).trans ?_; try dsimp only) | (refine adminCmd_freeCtr _ _ _ _ ?_; try dsimp only) | (refine provision_freeCtr _ _ _ _  ?_; intros; try dsimp only) | (refine receive_freeCtr _ _ _ _  ?_; intros; try dsimp only) | (refine fltReq_freeCtr _ _ _ _  ?_; intros; try dsimp only) | simp)

@[simp] theorem coldState_frame (a0 : ℕ) (a1 : ℕ) (s : State) :
    (coldState a0 a1 s).pending = s.pending ∧ (coldState a0 a1 s).out = s.out ∧ (coldState a0 a1 s).freeCtr = s.freeCtr := by
  unfold coldState
  try dsimp only
  first
    | (simp; done)
    | ((repeat' split) <;> simp; done)
    | (and_intros <;> (repeat' (first | (simp; done) | split)))

@[simp] theorem internalRestart_frame (a0 : ℕ) (s : State) :
    (internalRestart a0 s).pending = s.pending ∧ (internalRestart a0 s).out = s.out ∧ (internalRestart a0 s).freeCtr = s.freeCtr := by
  unfold internalRestart
  try dsimp only
  first
    | (simp; done)
    | ((repeat' split) <;> simp; done)
    | (and_intros <;> (repeat' (first | (simp; done) | split)))

@[simp] theorem rejectSlot_frame (a0 : ℕ) (s : State) :
    (rejectSlot a0 s).pending = s.pending ∧ (rejectSlot a0 s).regs = s.regs ∧ (rejectSlot a0 s).latch = s.latch ∧ (rejectSlot a0 s).mem = s.mem ∧ (rejectSlot a0 s).sys = s.sys ∧ (rejectSlot a0 s).clk = s.clk ∧ (rejectSlot a0 s).thm = s.thm ∧ (rejectSlot a0 s).tck = s.tck ∧ (rejectSlot a0 s).hif = s.hif ∧ (rejectSlot a0 s).stm = s.stm ∧ (rejectSlot a0 s).map = s.map ∧ (rejectSlot a0 s).flc = s.flc ∧ (rejectSlot a0 s).bnd = s.bnd ∧ (rejectSlot a0 s).mbr = s.mbr ∧ (rejectSlot a0 s).flt = s.flt ∧ (rejectSlot a0 s).sec = s.sec ∧ (rejectSlot a0 s).cpx = s.cpx ∧ (rejectSlot a0 s).memc = s.memc ∧ (rejectSlot a0 s).mov = s.mov ∧ (rejectSlot a0 s).lnt = s.lnt ∧ (rejectSlot a0 s).out = s.out ∧ (rejectSlot a0 s).freeCtr = s.freeCtr := by
  unfold rejectSlot
  try dsimp only
  first
    | (simp; done)
    | ((repeat' split) <;> simp; done)
    | (and_intros <;> (repeat' (first | (simp; done) | split)))

@[simp] theorem slotStarts_frame (a0 : ℕ) (s : State) :
    (slotStarts a0 s).pending = s.pending ∧ (slotStarts a0 s).regs = s.regs ∧ (slotStarts a0 s).latch = s.latch ∧ (slotStarts a0 s).mem = s.mem ∧ (slotStarts a0 s).sys = s.sys ∧ (slotStarts a0 s).clk = s.clk ∧ (slotStarts a0 s).thm = s.thm ∧ (slotStarts a0 s).tck = s.tck ∧ (slotStarts a0 s).hif = s.hif ∧ (slotStarts a0 s).stm = s.stm ∧ (slotStarts a0 s).map = s.map ∧ (slotStarts a0 s).flc = s.flc ∧ (slotStarts a0 s).bnd = s.bnd ∧ (slotStarts a0 s).mbr = s.mbr ∧ (slotStarts a0 s).flt = s.flt ∧ (slotStarts a0 s).sec = s.sec ∧ (slotStarts a0 s).cpx = s.cpx ∧ (slotStarts a0 s).memc = s.memc ∧ (slotStarts a0 s).mov = s.mov ∧ (slotStarts a0 s).lnt = s.lnt ∧ (slotStarts a0 s).out = s.out ∧ (slotStarts a0 s).freeCtr = s.freeCtr := by
  unfold slotStarts
  try dsimp only
  first
    | (simp; done)
    | ((repeat' split) <;> simp; done)
    | (and_intros <;> (repeat' (first | (simp; done) | split)))

@[simp] theorem lntRestart_frame (s : State) :
    (lntRestart s).pending = s.pending ∧ (lntRestart s).latch = s.latch ∧ (lntRestart s).mem = s.mem ∧ (lntRestart s).clk = s.clk ∧ (lntRestart s).thm = s.thm ∧ (lntRestart s).tck = s.tck ∧ (lntRestart s).hif = s.hif ∧ (lntRestart s).stm = s.stm ∧ (lntRestart s).map = s.map ∧ (lntRestart s).flc = s.flc ∧ (lntRestart s).bnd = s.bnd ∧ (lntRestart s).mbr = s.mbr ∧ (lntRestart s).flt = s.flt ∧ (lntRestart s).sec = s.sec ∧ (lntRestart s).cpx = s.cpx ∧ (lntRestart s).memc = s.memc ∧ (lntRestart s).mov = s.mov ∧ (lntRestart s).cst = s.cst ∧ (lntRestart s).out = s.out ∧ (lntRestart s).freeCtr = s.freeCtr := by
  unfold lntRestart
  try dsimp only
  first
    | (simp; done)
    | ((repeat' split) <;> simp; done)
    | (and_intros <;> (repeat' (first | (simp; done) | split)))



@[simp] theorem stepCal_frame (a0 : StartEnv) (s : State) :
    (stepCal a0 s).pending = s.pending ∧ (stepCal a0 s).latch = s.latch ∧ (stepCal a0 s).mem = s.mem ∧ (stepCal a0 s).clk = s.clk ∧ (stepCal a0 s).thm = s.thm ∧ (stepCal a0 s).tck = s.tck ∧ (stepCal a0 s).stm = s.stm ∧ (stepCal a0 s).map = s.map ∧ (stepCal a0 s).flc = s.flc ∧ (stepCal a0 s).bnd = s.bnd ∧ (stepCal a0 s).mbr = s.mbr ∧ (stepCal a0 s).flt = s.flt ∧ (stepCal a0 s).cpx = s.cpx ∧ (stepCal a0 s).memc = s.memc ∧ (stepCal a0 s).mov = s.mov ∧ (stepCal a0 s).out = s.out ∧ (stepCal a0 s).freeCtr = s.freeCtr := by
  unfold stepCal
  try dsimp only
  first
    | (simp; done)
    | ((repeat' split) <;> simp; done)
    | (and_intros <;> (repeat' (first | (simp; done) | split)))

@[simp] theorem stepOtp_frame (s : State) :
    (stepOtp s).pending = s.pending ∧ (stepOtp s).latch = s.latch ∧ (stepOtp s).mem = s.mem ∧ (stepOtp s).clk = s.clk ∧ (stepOtp s).thm = s.thm ∧ (stepOtp s).tck = s.tck ∧ (stepOtp s).stm = s.stm ∧ (stepOtp s).map = s.map ∧ (stepOtp s).flc = s.flc ∧ (stepOtp s).bnd = s.bnd ∧ (stepOtp s).mbr = s.mbr ∧ (stepOtp s).flt = s.flt ∧ (stepOtp s).cpx = s.cpx ∧ (stepOtp s).memc = s.memc ∧ (stepOtp s).mov = s.mov ∧ (stepOtp s).out = s.out ∧ (stepOtp s).freeCtr = s.freeCtr := by
  unfold stepOtp
  try dsimp only
  first
    | (simp; done)
    | ((repeat' split) <;> simp; done)
    | (and_intros <;> (repeat' (first | (simp; done) | split)))

@[simp] theorem stepTrng_frame (a0 : StartEnv) (s : State) :
    (stepTrng a0 s).pending = s.pending ∧ (stepTrng a0 s).latch = s.latch ∧ (stepTrng a0 s).mem = s.mem ∧ (stepTrng a0 s).clk = s.clk ∧ (stepTrng a0 s).thm = s.thm ∧ (stepTrng a0 s).tck = s.tck ∧ (stepTrng a0 s).hif = s.hif ∧ (stepTrng a0 s).stm = s.stm ∧ (stepTrng a0 s).map = s.map ∧ (stepTrng a0 s).flc = s.flc ∧ (stepTrng a0 s).bnd = s.bnd ∧ (stepTrng a0 s).mbr = s.mbr ∧ (stepTrng a0 s).flt = s.flt ∧ (stepTrng a0 s).cpx = s.cpx ∧ (stepTrng a0 s).memc = s.memc ∧ (stepTrng a0 s).mov = s.mov ∧ (stepTrng a0 s).cst = s.cst ∧ (stepTrng a0 s).out = s.out ∧ (stepTrng a0 s).freeCtr = s.freeCtr := by
  unfold stepTrng
  try dsimp only
  first
    | (simp; done)
    | ((repeat' split) <;> simp; done)
    | (and_intros <;> (repeat' (first | (simp; done) | split)))


@[simp] theorem enterBeacon_frame (a0 : ℕ) (s : State) :
    (enterBeacon a0 s).pending = s.pending ∧ (enterBeacon a0 s).latch = s.latch ∧ (enterBeacon a0 s).mem = s.mem ∧ (enterBeacon a0 s).clk = s.clk ∧ (enterBeacon a0 s).thm = s.thm ∧ (enterBeacon a0 s).tck = s.tck ∧ (enterBeacon a0 s).stm = s.stm ∧ (enterBeacon a0 s).map = s.map ∧ (enterBeacon a0 s).flc = s.flc ∧ (enterBeacon a0 s).bnd = s.bnd ∧ (enterBeacon a0 s).mbr = s.mbr ∧ (enterBeacon a0 s).flt = s.flt ∧ (enterBeacon a0 s).sec = s.sec ∧ (enterBeacon a0 s).cpx = s.cpx ∧ (enterBeacon a0 s).memc = s.memc ∧ (enterBeacon a0 s).mov = s.mov ∧ (enterBeacon a0 s).out = s.out ∧ (enterBeacon a0 s).freeCtr = s.freeCtr := by
  unfold enterBeacon
  try dsimp only
  first
    | (simp; done)
    | ((repeat' split) <;> simp; done)
    | (and_intros <;> (repeat' (first | (simp; done) | split)))

@[simp] theorem stepRom_frame (a0 : StartEnv) (s : State) :
    (stepRom a0 s).pending = s.pending ∧ (stepRom a0 s).latch = s.latch ∧ (stepRom a0 s).mem = s.mem ∧ (stepRom a0 s).clk = s.clk ∧ (stepRom a0 s).thm = s.thm ∧ (stepRom a0 s).tck = s.tck ∧ (stepRom a0 s).stm = s.stm ∧ (stepRom a0 s).map = s.map ∧ (stepRom a0 s).flc = s.flc ∧ (stepRom a0 s).bnd = s.bnd ∧ (stepRom a0 s).mbr = s.mbr ∧ (stepRom a0 s).flt = s.flt ∧ (stepRom a0 s).sec = s.sec ∧ (stepRom a0 s).cpx = s.cpx ∧ (stepRom a0 s).memc = s.memc ∧ (stepRom a0 s).mov = s.mov ∧ (stepRom a0 s).out = s.out ∧ (stepRom a0 s).freeCtr = s.freeCtr := by
  unfold stepRom
  try dsimp only
  first
    | (simp; done)
    | ((repeat' split) <;> simp; done)
    | (and_intros <;> (repeat' (first | (simp; done) | split)))

theorem useSettings_frame {a0 : ℕ} {s : State} {t : State} (h : useSettings a0 s = some t) :
    t.pending = s.pending ∧ t.latch = s.latch ∧ t.mem = s.mem ∧ t.clk = s.clk ∧ t.thm = s.thm ∧ t.tck = s.tck ∧ t.hif = s.hif ∧ t.stm = s.stm ∧ t.map = s.map ∧ t.flc = s.flc ∧ t.bnd = s.bnd ∧ t.mbr = s.mbr ∧ t.flt = s.flt ∧ t.sec = s.sec ∧ t.cpx = s.cpx ∧ t.memc = s.memc ∧ t.mov = s.mov ∧ t.out = s.out ∧ t.freeCtr = s.freeCtr := by
  unfold useSettings at h
  try dsimp only at h
  (repeat' split at h) <;> simp at h <;> (try (obtain ⟨h1, h2⟩ := h)) <;> (first | subst h | subst h2 | skip) <;>
    first | (simp_all; done) | (have h' := takeSlot_frame (by assumption); simp_all; done) | (obtain ⟨u, hu, h'⟩ := h; have h3 := placePage_frame hu; simp_all; done) | (obtain ⟨u, hu, h'⟩ := h1; have h3 := placePage_frame hu; simp_all; done)



@[simp] theorem stepKeys_frame (a0 : StartEnv) (s : State) :
    (stepKeys a0 s).pending = s.pending ∧ (stepKeys a0 s).latch = s.latch ∧ (stepKeys a0 s).mem = s.mem ∧ (stepKeys a0 s).clk = s.clk ∧ (stepKeys a0 s).thm = s.thm ∧ (stepKeys a0 s).tck = s.tck ∧ (stepKeys a0 s).stm = s.stm ∧ (stepKeys a0 s).map = s.map ∧ (stepKeys a0 s).flc = s.flc ∧ (stepKeys a0 s).bnd = s.bnd ∧ (stepKeys a0 s).mbr = s.mbr ∧ (stepKeys a0 s).flt = s.flt ∧ (stepKeys a0 s).cpx = s.cpx ∧ (stepKeys a0 s).memc = s.memc ∧ (stepKeys a0 s).mov = s.mov ∧ (stepKeys a0 s).out = s.out ∧ (stepKeys a0 s).freeCtr = s.freeCtr := by
  unfold stepKeys
  try dsimp only
  first
    | (simp; done)
    | ((repeat' split) <;> simp; done)
    | (and_intros <;> (repeat' (first | (simp; done) | split)))

@[simp] theorem stepPairs_frame (a0 : StartEnv) (s : State) :
    (stepPairs a0 s).pending = s.pending ∧ (stepPairs a0 s).latch = s.latch ∧ (stepPairs a0 s).mem = s.mem ∧ (stepPairs a0 s).clk = s.clk ∧ (stepPairs a0 s).thm = s.thm ∧ (stepPairs a0 s).tck = s.tck ∧ (stepPairs a0 s).stm = s.stm ∧ (stepPairs a0 s).map = s.map ∧ (stepPairs a0 s).bnd = s.bnd ∧ (stepPairs a0 s).mbr = s.mbr ∧ (stepPairs a0 s).flt = s.flt ∧ (stepPairs a0 s).memc = s.memc ∧ (stepPairs a0 s).mov = s.mov ∧ (stepPairs a0 s).out = s.out ∧ (stepPairs a0 s).freeCtr = s.freeCtr := by
  unfold stepPairs
  try dsimp only
  first
    | (simp; done)
    | ((repeat' split) <;> simp; done)
    | (and_intros <;> (repeat' (first | (simp; done) | split)))

theorem lostAtStart_pending (a0 : ℕ) (s : State) : (lostAtStart a0 s).pending = s.pending := by
  unfold lostAtStart
  try dsimp only
  first
    | (simp; done)
    | ((repeat' split) <;> simp; done)
    | (repeat' (first | (simp; done) | split))

theorem lostAtStart_latch (a0 : ℕ) (s : State) : (lostAtStart a0 s).latch = s.latch := by
  unfold lostAtStart
  try dsimp only
  first
    | (simp; done)
    | ((repeat' split) <;> simp; done)
    | (repeat' (first | (simp; done) | split))

theorem lostAtStart_mem (a0 : ℕ) (s : State) : (lostAtStart a0 s).mem = s.mem := by
  unfold lostAtStart
  try dsimp only
  first
    | (simp; done)
    | ((repeat' split) <;> simp; done)
    | (repeat' (first | (simp; done) | split))

theorem lostAtStart_clk (a0 : ℕ) (s : State) : (lostAtStart a0 s).clk = s.clk := by
  unfold lostAtStart
  try dsimp only
  first
    | (simp; done)
    | ((repeat' split) <;> simp; done)
    | (repeat' (first | (simp; done) | split))

theorem lostAtStart_thm (a0 : ℕ) (s : State) : (lostAtStart a0 s).thm = s.thm := by
  unfold lostAtStart
  try dsimp only
  first
    | (simp; done)
    | ((repeat' split) <;> simp; done)
    | (repeat' (first | (simp; done) | split))

theorem lostAtStart_flt (a0 : ℕ) (s : State) : (lostAtStart a0 s).flt = s.flt := by
  unfold lostAtStart
  try dsimp only
  first
    | (simp; done)
    | ((repeat' split) <;> simp; done)
    | (repeat' (first | (simp; done) | split))

theorem lostAtStart_sec (a0 : ℕ) (s : State) : (lostAtStart a0 s).sec = s.sec := by
  unfold lostAtStart
  try dsimp only
  first
    | (simp; done)
    | ((repeat' split) <;> simp; done)
    | (repeat' (first | (simp; done) | split))

theorem lostAtStart_cpx (a0 : ℕ) (s : State) : (lostAtStart a0 s).cpx = s.cpx := by
  unfold lostAtStart
  try dsimp only
  first
    | (simp; done)
    | ((repeat' split) <;> simp; done)
    | (repeat' (first | (simp; done) | split))

theorem lostAtStart_memc (a0 : ℕ) (s : State) : (lostAtStart a0 s).memc = s.memc := by
  unfold lostAtStart
  try dsimp only
  first
    | (simp; done)
    | ((repeat' split) <;> simp; done)
    | (repeat' (first | (simp; done) | split))

theorem lostAtStart_mov (a0 : ℕ) (s : State) : (lostAtStart a0 s).mov = s.mov := by
  unfold lostAtStart
  try dsimp only
  first
    | (simp; done)
    | ((repeat' split) <;> simp; done)
    | (repeat' (first | (simp; done) | split))

theorem lostAtStart_freeCtr (a0 : ℕ) (s : State) : (lostAtStart a0 s).freeCtr = s.freeCtr := by
  unfold lostAtStart
  try dsimp only
  first
    | (simp; done)
    | ((repeat' split) <;> simp; done)
    | (repeat' (first | (simp; done) | split))

@[simp] theorem lostAtStart_frame (a0 : ℕ) (s : State) :
    (lostAtStart a0 s).pending = s.pending ∧ (lostAtStart a0 s).latch = s.latch ∧ (lostAtStart a0 s).mem = s.mem ∧ (lostAtStart a0 s).clk = s.clk ∧ (lostAtStart a0 s).thm = s.thm ∧ (lostAtStart a0 s).flt = s.flt ∧ (lostAtStart a0 s).sec = s.sec ∧ (lostAtStart a0 s).cpx = s.cpx ∧ (lostAtStart a0 s).memc = s.memc ∧ (lostAtStart a0 s).mov = s.mov ∧ (lostAtStart a0 s).freeCtr = s.freeCtr :=
  ⟨lostAtStart_pending a0 s, lostAtStart_latch a0 s, lostAtStart_mem a0 s, lostAtStart_clk a0 s, lostAtStart_thm a0 s, lostAtStart_flt a0 s, lostAtStart_sec a0 s, lostAtStart_cpx a0 s, lostAtStart_memc a0 s, lostAtStart_mov a0 s, lostAtStart_freeCtr a0 s⟩

theorem stepPort_pending (a0 : ℕ) (a1 : PortSeen) (s : State) : (stepPort a0 a1 s).pending = s.pending := by
  unfold stepPort
  try dsimp only
  first
    | (simp; done)
    | ((repeat' split) <;> simp; done)
    | (repeat' (first | (simp; done) | split))

theorem stepPort_latch (a0 : ℕ) (a1 : PortSeen) (s : State) : (stepPort a0 a1 s).latch = s.latch := by
  unfold stepPort
  try dsimp only
  first
    | (simp; done)
    | ((repeat' split) <;> simp; done)
    | (repeat' (first | (simp; done) | split))

theorem stepPort_mem (a0 : ℕ) (a1 : PortSeen) (s : State) : (stepPort a0 a1 s).mem = s.mem := by
  unfold stepPort
  try dsimp only
  first
    | (simp; done)
    | ((repeat' split) <;> simp; done)
    | (repeat' (first | (simp; done) | split))

theorem stepPort_clk (a0 : ℕ) (a1 : PortSeen) (s : State) : (stepPort a0 a1 s).clk = s.clk := by
  unfold stepPort
  try dsimp only
  first
    | (simp; done)
    | ((repeat' split) <;> simp; done)
    | (repeat' (first | (simp; done) | split))

theorem stepPort_thm (a0 : ℕ) (a1 : PortSeen) (s : State) : (stepPort a0 a1 s).thm = s.thm := by
  unfold stepPort
  try dsimp only
  first
    | (simp; done)
    | ((repeat' split) <;> simp; done)
    | (repeat' (first | (simp; done) | split))

theorem stepPort_flt (a0 : ℕ) (a1 : PortSeen) (s : State) : (stepPort a0 a1 s).flt = s.flt := by
  unfold stepPort
  try dsimp only
  first
    | (simp; done)
    | ((repeat' split) <;> simp; done)
    | (repeat' (first | (simp; done) | split))

theorem stepPort_sec (a0 : ℕ) (a1 : PortSeen) (s : State) : (stepPort a0 a1 s).sec = s.sec := by
  unfold stepPort
  try dsimp only
  first
    | (simp; done)
    | ((repeat' split) <;> simp; done)
    | (repeat' (first | (simp; done) | split))

theorem stepPort_cpx (a0 : ℕ) (a1 : PortSeen) (s : State) : (stepPort a0 a1 s).cpx = s.cpx := by
  unfold stepPort
  try dsimp only
  first
    | (simp; done)
    | ((repeat' split) <;> simp; done)
    | (repeat' (first | (simp; done) | split))

theorem stepPort_memc (a0 : ℕ) (a1 : PortSeen) (s : State) : (stepPort a0 a1 s).memc = s.memc := by
  unfold stepPort
  try dsimp only
  first
    | (simp; done)
    | ((repeat' split) <;> simp; done)
    | (repeat' (first | (simp; done) | split))

theorem stepPort_mov (a0 : ℕ) (a1 : PortSeen) (s : State) : (stepPort a0 a1 s).mov = s.mov := by
  unfold stepPort
  try dsimp only
  first
    | (simp; done)
    | ((repeat' split) <;> simp; done)
    | (repeat' (first | (simp; done) | split))

theorem stepPort_freeCtr (a0 : ℕ) (a1 : PortSeen) (s : State) : (stepPort a0 a1 s).freeCtr = s.freeCtr := by
  unfold stepPort
  try dsimp only
  first
    | (simp; done)
    | ((repeat' split) <;> simp; done)
    | (repeat' (first | (simp; done) | split))

@[simp] theorem stepPort_frame (a0 : ℕ) (a1 : PortSeen) (s : State) :
    (stepPort a0 a1 s).pending = s.pending ∧ (stepPort a0 a1 s).latch = s.latch ∧ (stepPort a0 a1 s).mem = s.mem ∧ (stepPort a0 a1 s).clk = s.clk ∧ (stepPort a0 a1 s).thm = s.thm ∧ (stepPort a0 a1 s).flt = s.flt ∧ (stepPort a0 a1 s).sec = s.sec ∧ (stepPort a0 a1 s).cpx = s.cpx ∧ (stepPort a0 a1 s).memc = s.memc ∧ (stepPort a0 a1 s).mov = s.mov ∧ (stepPort a0 a1 s).freeCtr = s.freeCtr :=
  ⟨stepPort_pending a0 a1 s, stepPort_latch a0 a1 s, stepPort_mem a0 a1 s, stepPort_clk a0 a1 s, stepPort_thm a0 a1 s, stepPort_flt a0 a1 s, stepPort_sec a0 a1 s, stepPort_cpx a0 a1 s, stepPort_memc a0 a1 s, stepPort_mov a0 a1 s, stepPort_freeCtr a0 a1 s⟩

theorem stepBring_pending (a0 : StartEnv) (s : State) : (stepBring a0 s).pending = s.pending := by
  unfold stepBring
  try dsimp only
  first
    | (simp; done)
    | ((repeat' split) <;> simp; done)
    | (repeat' (first | (simp; done) | split))

theorem stepBring_latch (a0 : StartEnv) (s : State) : (stepBring a0 s).latch = s.latch := by
  unfold stepBring
  try dsimp only
  first
    | (simp; done)
    | ((repeat' split) <;> simp; done)
    | (repeat' (first | (simp; done) | split))

theorem stepBring_mem (a0 : StartEnv) (s : State) : (stepBring a0 s).mem = s.mem := by
  unfold stepBring
  try dsimp only
  first
    | (simp; done)
    | ((repeat' split) <;> simp; done)
    | (repeat' (first | (simp; done) | split))

theorem stepBring_clk (a0 : StartEnv) (s : State) : (stepBring a0 s).clk = s.clk := by
  unfold stepBring
  try dsimp only
  first
    | (simp; done)
    | ((repeat' split) <;> simp; done)
    | (repeat' (first | (simp; done) | split))

theorem stepBring_thm (a0 : StartEnv) (s : State) : (stepBring a0 s).thm = s.thm := by
  unfold stepBring
  try dsimp only
  first
    | (simp; done)
    | ((repeat' split) <;> simp; done)
    | (repeat' (first | (simp; done) | split))

theorem stepBring_flt (a0 : StartEnv) (s : State) : (stepBring a0 s).flt = s.flt := by
  unfold stepBring
  try dsimp only
  first
    | (simp; done)
    | ((repeat' split) <;> simp; done)
    | (repeat' (first | (simp; done) | split))

theorem stepBring_cpx (a0 : StartEnv) (s : State) : (stepBring a0 s).cpx = s.cpx := by
  unfold stepBring
  try dsimp only
  first
    | (simp; done)
    | ((repeat' split) <;> simp; done)
    | (repeat' (first | (simp; done) | split))

theorem stepBring_memc (a0 : StartEnv) (s : State) : (stepBring a0 s).memc = s.memc := by
  unfold stepBring
  try dsimp only
  first
    | (simp; done)
    | ((repeat' split) <;> simp; done)
    | (repeat' (first | (simp; done) | split))

theorem stepBring_mov (a0 : StartEnv) (s : State) : (stepBring a0 s).mov = s.mov := by
  unfold stepBring
  try dsimp only
  first
    | (simp; done)
    | ((repeat' split) <;> simp; done)
    | (repeat' (first | (simp; done) | split))

theorem stepBring_freeCtr (a0 : StartEnv) (s : State) : (stepBring a0 s).freeCtr = s.freeCtr := by
  unfold stepBring
  try dsimp only
  first
    | (simp; done)
    | ((repeat' split) <;> simp; done)
    | (repeat' (first | (simp; done) | split))

@[simp] theorem stepBring_frame (a0 : StartEnv) (s : State) :
    (stepBring a0 s).pending = s.pending ∧ (stepBring a0 s).latch = s.latch ∧ (stepBring a0 s).mem = s.mem ∧ (stepBring a0 s).clk = s.clk ∧ (stepBring a0 s).thm = s.thm ∧ (stepBring a0 s).flt = s.flt ∧ (stepBring a0 s).cpx = s.cpx ∧ (stepBring a0 s).memc = s.memc ∧ (stepBring a0 s).mov = s.mov ∧ (stepBring a0 s).freeCtr = s.freeCtr :=
  ⟨stepBring_pending a0 s, stepBring_latch a0 s, stepBring_mem a0 s, stepBring_clk a0 s, stepBring_thm a0 s, stepBring_flt a0 s, stepBring_cpx a0 s, stepBring_memc a0 s, stepBring_mov a0 s, stepBring_freeCtr a0 s⟩

@[simp] theorem stepCommission_frame (s : State) :
    (stepCommission s).pending = s.pending ∧ (stepCommission s).latch = s.latch ∧ (stepCommission s).mem = s.mem ∧ (stepCommission s).clk = s.clk ∧ (stepCommission s).thm = s.thm ∧ (stepCommission s).tck = s.tck ∧ (stepCommission s).hif = s.hif ∧ (stepCommission s).stm = s.stm ∧ (stepCommission s).map = s.map ∧ (stepCommission s).flc = s.flc ∧ (stepCommission s).bnd = s.bnd ∧ (stepCommission s).mbr = s.mbr ∧ (stepCommission s).flt = s.flt ∧ (stepCommission s).sec = s.sec ∧ (stepCommission s).cpx = s.cpx ∧ (stepCommission s).memc = s.memc ∧ (stepCommission s).mov = s.mov ∧ (stepCommission s).out = s.out ∧ (stepCommission s).freeCtr = s.freeCtr := by
  unfold stepCommission
  try dsimp only
  first
    | (simp; done)
    | ((repeat' split) <;> simp; done)
    | (and_intros <;> (repeat' (first | (simp; done) | split)))


@[simp] theorem probedPages_frame (a0 : ℕ) (a1 : ℕ) (a2 : ℕ × Bool) (s : State) :
    (probedPages a0 a1 a2 s).pending = s.pending ∧ (probedPages a0 a1 a2 s).regs = s.regs ∧ (probedPages a0 a1 a2 s).latch = s.latch ∧ (probedPages a0 a1 a2 s).mem = s.mem ∧ (probedPages a0 a1 a2 s).sys = s.sys ∧ (probedPages a0 a1 a2 s).clk = s.clk ∧ (probedPages a0 a1 a2 s).thm = s.thm ∧ (probedPages a0 a1 a2 s).tck = s.tck ∧ (probedPages a0 a1 a2 s).hif = s.hif ∧ (probedPages a0 a1 a2 s).stm = s.stm ∧ (probedPages a0 a1 a2 s).map = s.map ∧ (probedPages a0 a1 a2 s).flc = s.flc ∧ (probedPages a0 a1 a2 s).mbr = s.mbr ∧ (probedPages a0 a1 a2 s).flt = s.flt ∧ (probedPages a0 a1 a2 s).sec = s.sec ∧ (probedPages a0 a1 a2 s).cpx = s.cpx ∧ (probedPages a0 a1 a2 s).memc = s.memc ∧ (probedPages a0 a1 a2 s).mov = s.mov ∧ (probedPages a0 a1 a2 s).cst = s.cst ∧ (probedPages a0 a1 a2 s).lnt = s.lnt ∧ (probedPages a0 a1 a2 s).out = s.out ∧ (probedPages a0 a1 a2 s).freeCtr = s.freeCtr := by
  unfold probedPages
  try dsimp only
  first
    | (simp; done)
    | ((repeat' split) <;> simp; done)
    | (and_intros <;> (repeat' (first | (simp; done) | split)))

@[simp] theorem readBackBand_frame (a0 : ℕ) (s : State) :
    (readBackBand a0 s).pending = s.pending ∧ (readBackBand a0 s).regs = s.regs ∧ (readBackBand a0 s).latch = s.latch ∧ (readBackBand a0 s).mem = s.mem ∧ (readBackBand a0 s).sys = s.sys ∧ (readBackBand a0 s).clk = s.clk ∧ (readBackBand a0 s).thm = s.thm ∧ (readBackBand a0 s).tck = s.tck ∧ (readBackBand a0 s).hif = s.hif ∧ (readBackBand a0 s).stm = s.stm ∧ (readBackBand a0 s).map = s.map ∧ (readBackBand a0 s).bnd = s.bnd ∧ (readBackBand a0 s).mbr = s.mbr ∧ (readBackBand a0 s).flt = s.flt ∧ (readBackBand a0 s).sec = s.sec ∧ (readBackBand a0 s).cpx = s.cpx ∧ (readBackBand a0 s).memc = s.memc ∧ (readBackBand a0 s).mov = s.mov ∧ (readBackBand a0 s).cst = s.cst ∧ (readBackBand a0 s).lnt = s.lnt ∧ (readBackBand a0 s).out = s.out ∧ (readBackBand a0 s).freeCtr = s.freeCtr := by
  unfold readBackBand
  try dsimp only
  first
    | (simp; done)
    | ((repeat' split) <;> simp; done)
    | (and_intros <;> (repeat' (first | (simp; done) | split)))




/-! ### Beacon -/

@[simp] theorem beaconSay_frame (a0 : ℕ) (a1 : ℕ) (a2 : ℕ) (a3 : List Byte) (s : State) :
    (beaconSay a0 a1 a2 a3 s).pending = s.pending ∧ (beaconSay a0 a1 a2 a3 s).regs = s.regs ∧ (beaconSay a0 a1 a2 a3 s).latch = s.latch ∧ (beaconSay a0 a1 a2 a3 s).mem = s.mem ∧ (beaconSay a0 a1 a2 a3 s).sys = s.sys ∧ (beaconSay a0 a1 a2 a3 s).clk = s.clk ∧ (beaconSay a0 a1 a2 a3 s).thm = s.thm ∧ (beaconSay a0 a1 a2 a3 s).tck = s.tck ∧ (beaconSay a0 a1 a2 a3 s).hif = s.hif ∧ (beaconSay a0 a1 a2 a3 s).stm = s.stm ∧ (beaconSay a0 a1 a2 a3 s).map = s.map ∧ (beaconSay a0 a1 a2 a3 s).flc = s.flc ∧ (beaconSay a0 a1 a2 a3 s).bnd = s.bnd ∧ (beaconSay a0 a1 a2 a3 s).mbr = s.mbr ∧ (beaconSay a0 a1 a2 a3 s).flt = s.flt ∧ (beaconSay a0 a1 a2 a3 s).sec = s.sec ∧ (beaconSay a0 a1 a2 a3 s).cpx = s.cpx ∧ (beaconSay a0 a1 a2 a3 s).memc = s.memc ∧ (beaconSay a0 a1 a2 a3 s).mov = s.mov ∧ (beaconSay a0 a1 a2 a3 s).lnt = s.lnt ∧ (beaconSay a0 a1 a2 a3 s).freeCtr = s.freeCtr := by
  unfold beaconSay
  try dsimp only
  first
    | (simp; done)
    | ((repeat' split) <;> simp; done)
    | (and_intros <;> (repeat' (first | (simp; done) | split)))

@[simp] theorem beaconAck_frame (a0 : ℕ) (a1 : ℕ) (a2 : ℕ) (a3 : List Byte) (s : State) :
    (beaconAck a0 a1 a2 a3 s).pending = s.pending ∧ (beaconAck a0 a1 a2 a3 s).latch = s.latch ∧ (beaconAck a0 a1 a2 a3 s).mem = s.mem ∧ (beaconAck a0 a1 a2 a3 s).clk = s.clk ∧ (beaconAck a0 a1 a2 a3 s).thm = s.thm ∧ (beaconAck a0 a1 a2 a3 s).tck = s.tck ∧ (beaconAck a0 a1 a2 a3 s).hif = s.hif ∧ (beaconAck a0 a1 a2 a3 s).stm = s.stm ∧ (beaconAck a0 a1 a2 a3 s).map = s.map ∧ (beaconAck a0 a1 a2 a3 s).flc = s.flc ∧ (beaconAck a0 a1 a2 a3 s).bnd = s.bnd ∧ (beaconAck a0 a1 a2 a3 s).mbr = s.mbr ∧ (beaconAck a0 a1 a2 a3 s).flt = s.flt ∧ (beaconAck a0 a1 a2 a3 s).sec = s.sec ∧ (beaconAck a0 a1 a2 a3 s).cpx = s.cpx ∧ (beaconAck a0 a1 a2 a3 s).memc = s.memc ∧ (beaconAck a0 a1 a2 a3 s).mov = s.mov ∧ (beaconAck a0 a1 a2 a3 s).freeCtr = s.freeCtr := by
  unfold beaconAck
  try dsimp only
  first
    | (simp; done)
    | ((repeat' split) <;> simp; done)
    | (and_intros <;> (repeat' (first | (simp; done) | split)))

theorem beaconReq_pending (a : Bool) (p q : Nat) (f : State → State) (s : State) (h : ∀ s, (f s).pending = s.pending) :
    (beaconReq a p q f s).pending = s.pending := by
  unfold beaconReq
  (repeat' split) <;> simp [h]

theorem beaconReq_latch (a : Bool) (p q : Nat) (f : State → State) (s : State) (h : ∀ s, (f s).latch = s.latch) :
    (beaconReq a p q f s).latch = s.latch := by
  unfold beaconReq
  (repeat' split) <;> simp [h]

theorem beaconReq_mem (a : Bool) (p q : Nat) (f : State → State) (s : State) (h : ∀ s, (f s).mem = s.mem) :
    (beaconReq a p q f s).mem = s.mem := by
  unfold beaconReq
  (repeat' split) <;> simp [h]

theorem beaconReq_clk (a : Bool) (p q : Nat) (f : State → State) (s : State) (h : ∀ s, (f s).clk = s.clk) :
    (beaconReq a p q f s).clk = s.clk := by
  unfold beaconReq
  (repeat' split) <;> simp [h]

theorem beaconReq_thm (a : Bool) (p q : Nat) (f : State → State) (s : State) (h : ∀ s, (f s).thm = s.thm) :
    (beaconReq a p q f s).thm = s.thm := by
  unfold beaconReq
  (repeat' split) <;> simp [h]

theorem beaconReq_tck (a : Bool) (p q : Nat) (f : State → State) (s : State) (h : ∀ s, (f s).tck = s.tck) :
    (beaconReq a p q f s).tck = s.tck := by
  unfold beaconReq
  (repeat' split) <;> simp [h]

theorem beaconReq_hif (a : Bool) (p q : Nat) (f : State → State) (s : State) (h : ∀ s, (f s).hif = s.hif) :
    (beaconReq a p q f s).hif = s.hif := by
  unfold beaconReq
  (repeat' split) <;> simp [h]

theorem beaconReq_stm (a : Bool) (p q : Nat) (f : State → State) (s : State) (h : ∀ s, (f s).stm = s.stm) :
    (beaconReq a p q f s).stm = s.stm := by
  unfold beaconReq
  (repeat' split) <;> simp [h]

theorem beaconReq_map (a : Bool) (p q : Nat) (f : State → State) (s : State) (h : ∀ s, (f s).map = s.map) :
    (beaconReq a p q f s).map = s.map := by
  unfold beaconReq
  (repeat' split) <;> simp [h]

theorem beaconReq_flc (a : Bool) (p q : Nat) (f : State → State) (s : State) (h : ∀ s, (f s).flc = s.flc) :
    (beaconReq a p q f s).flc = s.flc := by
  unfold beaconReq
  (repeat' split) <;> simp [h]

theorem beaconReq_bnd (a : Bool) (p q : Nat) (f : State → State) (s : State) (h : ∀ s, (f s).bnd = s.bnd) :
    (beaconReq a p q f s).bnd = s.bnd := by
  unfold beaconReq
  (repeat' split) <;> simp [h]

theorem beaconReq_mbr (a : Bool) (p q : Nat) (f : State → State) (s : State) (h : ∀ s, (f s).mbr = s.mbr) :
    (beaconReq a p q f s).mbr = s.mbr := by
  unfold beaconReq
  (repeat' split) <;> simp [h]

theorem beaconReq_flt (a : Bool) (p q : Nat) (f : State → State) (s : State) (h : ∀ s, (f s).flt = s.flt) :
    (beaconReq a p q f s).flt = s.flt := by
  unfold beaconReq
  (repeat' split) <;> simp [h]

theorem beaconReq_sec (a : Bool) (p q : Nat) (f : State → State) (s : State) (h : ∀ s, (f s).sec = s.sec) :
    (beaconReq a p q f s).sec = s.sec := by
  unfold beaconReq
  (repeat' split) <;> simp [h]

theorem beaconReq_cpx (a : Bool) (p q : Nat) (f : State → State) (s : State) (h : ∀ s, (f s).cpx = s.cpx) :
    (beaconReq a p q f s).cpx = s.cpx := by
  unfold beaconReq
  (repeat' split) <;> simp [h]

theorem beaconReq_memc (a : Bool) (p q : Nat) (f : State → State) (s : State) (h : ∀ s, (f s).memc = s.memc) :
    (beaconReq a p q f s).memc = s.memc := by
  unfold beaconReq
  (repeat' split) <;> simp [h]

theorem beaconReq_mov (a : Bool) (p q : Nat) (f : State → State) (s : State) (h : ∀ s, (f s).mov = s.mov) :
    (beaconReq a p q f s).mov = s.mov := by
  unfold beaconReq
  (repeat' split) <;> simp [h]

theorem beaconReq_freeCtr (a : Bool) (p q : Nat) (f : State → State) (s : State) (h : ∀ s, (f s).freeCtr = s.freeCtr) :
    (beaconReq a p q f s).freeCtr = s.freeCtr := by
  unfold beaconReq
  (repeat' split) <;> simp [h]


end Sys2Proof.Machine
end

