-- ==== Sys2Proof/Laws/Maps.lean ====
section
/-! SUPPORT. Laws of finite maps, of the addressed memory and of the register file: read after write, every other place unchanged, and
the canonical forms kept. -/

namespace Sys2Proof.Machine

/-! ### Finite maps -/

@[simp] theorem mget_mput_same {α : Type} (m : AMap α) (n : Nat) (v : α) : mget (mput m n v) n = some v := by
  induction m with
  | nil => simp [mput, mget]
  | cons p m ih =>
    obtain ⟨k, w⟩ := p
    by_cases h : n < k
    · simp [mput, h, mget]
    · by_cases h' : n = k
      · simp [mput, h', mget]
      · simp [mput, h, h', mget, ih]

theorem mget_mput_other {α : Type} (m : AMap α) (n k : Nat) (v : α) (hk : k ≠ n) : mget (mput m n v) k = mget m k := by
  induction m with
  | nil => simp [mput, mget, hk]
  | cons p m ih =>
    obtain ⟨j, w⟩ := p
    by_cases h : n < j
    · simp [mput, h, mget, hk]
    · by_cases h' : n = j
      · subst h'; simp [mput, mget, hk]
      · by_cases hj : k = j <;> simp [mput, h, h', mget, ih, hj]

theorem mget_mput {α : Type} (m : AMap α) (n k : Nat) (v : α) : mget (mput m n v) k = if k = n then some v else mget m k := by
  by_cases h : k = n
  · subst h; simp
  · simp [h, mget_mput_other]

@[simp] theorem mget_mdel_same {α : Type} (m : AMap α) (n : Nat) : mget (mdel m n) n = none := by
  induction m with
  | nil => rfl
  | cons p m ih =>
    obtain ⟨k, w⟩ := p
    by_cases h : k = n
    · simpa [mdel, h] using ih
    · have h' : ¬n = k := fun e => h e.symm
      simpa [mdel, h, mget, h'] using ih

theorem mget_mdel_other {α : Type} (m : AMap α) (n k : Nat) (hk : k ≠ n) : mget (mdel m n) k = mget m k := by
  induction m with
  | nil => rfl
  | cons p m ih =>
    obtain ⟨j, w⟩ := p
    by_cases h : j = n
    · subst h; simpa [mdel, mget, hk] using ih
    · by_cases hj : k = j
      · subst hj; simp [mdel, h, mget]
      · simpa [mdel, h, mget, hj] using ih

theorem mget_mupd {α : Type} (m : AMap α) (n k : Nat) (f : α → α) :
    mget (mupd m n f) k = if k = n then (mget m k).map f else mget m k := by
  induction m with
  | nil => simp [mupd, mget]
  | cons p m ih =>
    obtain ⟨j, w⟩ := p
    have ih' : mget (List.map (fun p => if p.1 = n then (p.1, f p.2) else p) m) k = if k = n then (mget m k).map f else mget m k := ih
    by_cases hj : j = n <;> by_cases hk : k = j <;> simp_all [mupd, mget]

/-! ### The register file -/

theorem getReg_setReg (off o : Nat) (v : Word) (s : State) :
    getReg (setReg off v s) o = if o = off then v else getReg s o := by
  unfold getReg setReg
  by_cases h : v = resetOf off
  · by_cases ho : o = off
    · subst ho; simp [h]
    · simp [h, ho, mget_mdel_other]
  · by_cases ho : o = off
    · subst ho; simp [h]
    · simp [h, ho, mget_mput_other]

@[simp] theorem getReg_setReg_same (off : Nat) (v : Word) (s : State) : getReg (setReg off v s) off = v := by
  simp [getReg_setReg]

theorem getReg_setReg_other (off o : Nat) (v : Word) (s : State) (h : o ≠ off) : getReg (setReg off v s) o = getReg s o := by
  simp [getReg_setReg, h]

/-- A register reads by the register file alone. -/
theorem getReg_congr {s t : State} (h : t.regs = s.regs) (o : Nat) : getReg t o = getReg s o := by
  simp [getReg, h]

theorem regs_wf_all {k : Nat} {m : AMap Word} {n : Nat} {v : Word} (hk : k < n) (h : m.all (fun p => k < p.1) = true) :
    (mput m n v).all (fun p => k < p.1) = true := by
  induction m with
  | nil => simpa [mput] using hk
  | cons p m ih =>
    obtain ⟨j, w⟩ := p
    simp only [List.all_cons, Bool.and_eq_true, decide_eq_true_eq] at h
    have ih' := ih h.2
    unfold mput
    (repeat' split) <;> simp only [List.all_cons, Bool.and_eq_true, decide_eq_true_eq] <;> tauto

theorem regs_wf_mput {m : AMap Word} {n : Nat} {v : Word} (h : Regs.wf m = true) (hv : v ≠ resetOf n) :
    Regs.wf (mput m n v) = true := by
  induction m with
  | nil => simp [mput, Regs.wf, hv]
  | cons p m ih =>
    obtain ⟨j, w⟩ := p
    simp only [Regs.wf, Bool.and_eq_true, decide_eq_true_eq] at h
    obtain ⟨⟨h1, h2⟩, h3⟩ := h
    unfold mput
    by_cases hj : n < j
    · simp only [hj, if_true, Regs.wf, Bool.and_eq_true, decide_eq_true_eq, List.all_cons]
      refine ⟨⟨hv, ⟨trivial, ?_⟩⟩, ⟨h1, h2⟩, h3⟩
      simp only [List.all_eq_true, decide_eq_true_eq] at h2 ⊢
      intro x hx; exact hj.trans (h2 x hx)
    · by_cases hn : n = j
      · subst hn; simp [Regs.wf, hv, h3]; simpa using h2
      · simp only [hj, hn, if_false, Regs.wf, Bool.and_eq_true, decide_eq_true_eq]
        exact ⟨⟨h1, regs_wf_all (by omega) h2⟩, ih h3⟩

theorem regs_wf_mdel {m : AMap Word} {n : Nat} (h : Regs.wf m = true) : Regs.wf (mdel m n) = true := by
  induction m with
  | nil => rfl
  | cons p m ih =>
    obtain ⟨j, w⟩ := p
    simp only [Regs.wf, Bool.and_eq_true, decide_eq_true_eq] at h
    obtain ⟨⟨h1, h2⟩, h3⟩ := h
    by_cases hj : j = n
    · simpa [mdel, hj] using ih h3
    · have e : mdel ((j, w) :: m) n = (j, w) :: mdel m n := by simp [mdel, hj]
      rw [e]
      simp only [Regs.wf, Bool.and_eq_true, decide_eq_true_eq]
      refine ⟨⟨h1, ?_⟩, ih h3⟩
      simp only [List.all_eq_true, decide_eq_true_eq, mdel, List.mem_filter] at h2 ⊢
      intro x hx; exact h2 x hx.1

/-- Setting a register keeps the canonical form of the register file. -/
theorem regs_wf_setReg (off : Nat) (v : Word) (s : State) (h : Regs.wf s.regs = true) : Regs.wf (setReg off v s).regs = true := by
  unfold setReg
  by_cases hv : v = resetOf off
  · simp only [hv, if_true]; exact regs_wf_mdel h
  · simp only [hv, if_false]; exact regs_wf_mput h hv

/-! ### The addressed memory -/

theorem cellGet_cellPut_other (m : List Host.Cell) (a b : Nat) (v : Byte) (h : b ≠ a) : cellGet (cellPut m a v) b = cellGet m b := by
  induction m with
  | nil => unfold cellPut; split <;> simp [cellGet, h]
  | cons p m ih =>
    obtain ⟨k, w⟩ := p
    unfold cellPut
    (repeat' split) <;> simp_all [cellGet]

theorem cellGet_above {m : List Host.Cell} {a : Nat} (h : m.all (fun p => a < p.1) = true) : cellGet m a = memDefault := by
  induction m with
  | nil => rfl
  | cons p m ih =>
    obtain ⟨k, w⟩ := p
    simp only [List.all_cons, Bool.and_eq_true, decide_eq_true_eq] at h
    have : a ≠ k := by omega
    simp [cellGet, this, ih h.2]

theorem cellGet_cellPut_same {m : List Host.Cell} (a : Nat) (v : Byte) (h : Memory.wf m = true) : cellGet (cellPut m a v) a = v := by
  induction m with
  | nil => unfold cellPut; split <;> simp_all [cellGet]
  | cons p m ih =>
    obtain ⟨k, w⟩ := p
    simp only [Memory.wf, Bool.and_eq_true, decide_eq_true_eq] at h
    obtain ⟨⟨h1, h2⟩, h3⟩ := h
    unfold cellPut
    by_cases hk : a < k
    · have hm : m.all (fun p => a < p.1) = true := by
        simp only [List.all_eq_true, decide_eq_true_eq] at h2 ⊢
        intro x hx; exact hk.trans (h2 x hx)
      have : a ≠ k := by omega
      by_cases hv : v = memDefault <;> simp [hk, hv, cellGet, this, cellGet_above hm]
    · by_cases he : a = k
      · subst he
        by_cases hv : v = memDefault <;> simp [hv, cellGet, cellGet_above h2]
      · simp [hk, he, cellGet, ih h3]

theorem mem_wf_all {k : Nat} {m : List Host.Cell} {a : Nat} {v : Byte} (hk : k < a) (h : m.all (fun p => k < p.1) = true) :
    (cellPut m a v).all (fun p => k < p.1) = true := by
  induction m with
  | nil => unfold cellPut; split <;> simp_all
  | cons p m ih =>
    obtain ⟨j, w⟩ := p
    simp only [List.all_cons, Bool.and_eq_true, decide_eq_true_eq] at h
    have ih' := ih h.2
    unfold cellPut
    (repeat' split) <;> (try simp only [List.all_cons, Bool.and_eq_true, decide_eq_true_eq]) <;> tauto

/-- Writing a byte keeps the canonical form of the memory. -/
theorem mem_wf_cellPut {m : List Host.Cell} (a : Nat) (v : Byte) (h : Memory.wf m = true) : Memory.wf (cellPut m a v) = true := by
  induction m with
  | nil => unfold cellPut; split <;> simp_all [Memory.wf]
  | cons p m ih =>
    obtain ⟨j, w⟩ := p
    have hw := h
    simp only [Memory.wf, Bool.and_eq_true, decide_eq_true_eq] at h
    obtain ⟨⟨h1, h2⟩, h3⟩ := h
    unfold cellPut
    by_cases hj : a < j
    · by_cases hv : v = memDefault
      · simpa [hj, hv] using hw
      · simp only [hj, hv, if_true, if_false, Memory.wf, Bool.and_eq_true, decide_eq_true_eq, List.all_cons]
        refine ⟨⟨hv, ⟨trivial, ?_⟩⟩, ⟨h1, h2⟩, h3⟩
        simp only [List.all_eq_true, decide_eq_true_eq] at h2 ⊢
        intro x hx; exact hj.trans (h2 x hx)
    · by_cases hn : a = j
      · subst hn
        by_cases hv : v = memDefault
        · simp [hv, h3]
        · simp [hv, Memory.wf, h3]; simpa using h2
      · simp only [hj, hn, if_false, Memory.wf, Bool.and_eq_true, decide_eq_true_eq]
        exact ⟨⟨h1, mem_wf_all (by omega) h2⟩, ih h3⟩

theorem mem_wf_writeByte (a : Nat) (v : Byte) (s : State) (h : Memory.wf s.mem = true) : Memory.wf (writeByte a v s).mem = true :=
  mem_wf_cellPut a v h

theorem mem_wf_writeBytes (a : Nat) (bs : List Byte) (s : State) (h : Memory.wf s.mem = true) :
    Memory.wf (writeBytes a bs s).mem = true := by
  induction bs generalizing a s with
  | nil => exact h
  | cons b bs ih => exact ih _ _ (mem_wf_writeByte a b s h)

theorem readByte_writeByte_other (a b : Nat) (v : Byte) (s : State) (h : b ≠ a) : readByte (writeByte a v s) b = readByte s b :=
  cellGet_cellPut_other s.mem a b v h

theorem readByte_writeByte_same (a : Nat) (v : Byte) (s : State) (h : Memory.wf s.mem = true) : readByte (writeByte a v s) a = v :=
  cellGet_cellPut_same a v h

/-- A write changes no byte outside the bytes it writes. -/
theorem readByte_writeBytes_other (a b : Nat) (bs : List Byte) (s : State) (h : b < a ∨ a + bs.length ≤ b) :
    readByte (writeBytes a bs s) b = readByte s b := by
  induction bs generalizing a s with
  | nil => rfl
  | cons x xs ih =>
    simp only [List.length_cons] at h
    rw [writeBytes, ih (a + 1) (writeByte a x s) (by omega), readByte_writeByte_other a b x s (by omega)]

end Sys2Proof.Machine
end

