-- ==== Sys2Proof/Laws/Notes.lean ====
section
/-! SUPPORT. What raising a code, counting and discarding a store do to the setup registers: which registers change, and that the counters
saturate. -/

namespace Sys2Proof.Machine

open Sys2Proof.Safety

/-! ### Counters -/

theorem rg_setReg_same (off : Nat) (v : Word) (s : State) : rg (setReg off v s) off = v.toNat := by simp [rg]

theorem rg_setReg_other (off o : Nat) (v : Word) (s : State) (h : o ≠ off) : rg (setReg off v s) o = rg s o := by
  simp [rg, getReg_setReg_other _ _ _ _ h]

theorem rg_bumpBy_same (off n : Nat) (s : State) : rg (bumpBy off n s) off = Nat.min (rg s off + n) 0xFFFFFFFF := by
  unfold bumpBy
  rw [rg_setReg_same]
  simp only [toWord, sat32, BitVec.toNat_ofNat]
  apply Nat.mod_eq_of_lt
  exact Nat.lt_of_le_of_lt (Nat.min_le_right _ _) (by norm_num)

theorem rg_bump_same (off : Nat) (s : State) : rg (bump off s) off = Nat.min (rg s off + 1) 0xFFFFFFFF := rg_bumpBy_same off 1 s

theorem getReg_bump_other (off o : Nat) (s : State) (h : o ≠ off) : getReg (bump off s) o = getReg s o :=
  getReg_setReg_other _ _ _ _ h

theorem getReg_bumpBy_other (off n o : Nat) (s : State) (h : o ≠ off) : getReg (bumpBy off n s) o = getReg s o :=
  getReg_setReg_other _ _ _ _ h

/-! ### Codes -/

theorem getReg_lntStore (r : LntRec) (s : State) (o : Nat) (h : o ≠ LNT_RECORD_CNT) : getReg (lntStore r s) o = getReg s o := by
  unfold lntStore
  rw [getReg_bump_other _ _ _ h]
  rfl

theorem getReg_lntTake (r : LntRec) (s : State) (o : Nat) (h : o ≠ LNT_RECORD_CNT) : getReg (lntTake r s) o = getReg s o := by
  unfold lntTake
  dsimp only
  split
  · rfl
  · rw [getReg_lntStore _ _ _ h]; rfl

theorem getReg_lntOffer (r : LntRec) (s : State) (o : Nat) (h : o ≠ LNT_RECORD_CNT) (h' : o ≠ LNT_DROP_CNT) :
    getReg (lntOffer r s) o = getReg s o := by
  unfold lntOffer lntDrop
  (repeat' split)
  · rfl
  · rw [getReg_bump_other _ _ _ h']; rfl
  · rw [getReg_bump_other _ _ _ h']; rfl
  · rw [getReg_lntTake _ _ _ h]

theorem getReg_noteCode (code : Nat) (s : State) (o : Nat) (h : o ≠ LNT_LASTb (code / 256)) : getReg (noteCode code s) o = getReg s o := by
  unfold noteCode irqRaise
  exact getReg_setReg_other _ _ _ _ h

/-- Raising a code changes no register but the counts of records and drops and the block's last code. -/
theorem getReg_raise (code : Nat) (d : List Byte) (s : State) (o : Nat) (h : o ∉ noteRegs code) :
    getReg (raise code d s) o = getReg s o := by
  simp only [noteRegs, List.mem_cons, List.not_mem_nil, or_false, not_or] at h
  obtain ⟨h1, h2, h3⟩ := h
  unfold raise
  dsimp only
  split
  · exact getReg_noteCode _ _ _ h3
  · rw [getReg_lntOffer _ _ _ h1 h2, getReg_noteCode _ _ _ h3]

theorem rg_raise (code : Nat) (d : List Byte) (s : State) (o : Nat) (h : o ∉ noteRegs code) : rg (raise code d s) o = rg s o := by
  simp [rg, getReg_raise code d s o h]

/-- Raising a code raises the interrupt source of its block (R416). -/
theorem irq_raise (code : Nat) (d : List Byte) (s : State) : code / 256 + 1 ∈ (raise code d s).sys.irq := by
  have key : ∀ (r : LntRec) (u : State), (lntOffer r u).sys = u.sys := by
    intro r u
    unfold lntOffer lntDrop lntTake lntStore bump bumpBy setReg
    dsimp only
    (repeat' split) <;> rfl
  have base : code / 256 + 1 ∈ (noteCode code s).sys.irq := by
    unfold noteCode irqRaise addTo
    dsimp only
    split
    · rename_i h; simpa using h
    · simp
  unfold raise
  dsimp only
  split
  · exact base
  · rw [key]; exact base

/-! ### Discarded stores -/

/-- A store of a reserved encoding is discarded and counted (R12). -/
theorem discardStore_count (off : Nat) (v : Word) (s : State) :
    rg (discardStore off v s) SYS_DISCARD_CNT = Nat.min (rg s SYS_DISCARD_CNT + 1) 0xFFFFFFFF := by
  unfold discardStore
  rw [rg_bump_same, rg_raise]
  decide

theorem discardStore_reg (off : Nat) (v : Word) (s : State) (o : Nat) (h : o ≠ SYS_DISCARD_CNT) (h' : o ∉ noteRegs Ev.SYS_RESERVED_ENCODING) :
    getReg (discardStore off v s) o = getReg s o := by
  unfold discardStore
  rw [getReg_bump_other _ _ _ h, getReg_raise _ _ _ _ h']

end Sys2Proof.Machine
end

