-- ==== Sys2Proof/Laws/State.lean ====
section
/-! SUPPORT. Reading and changing one piece of the state: what each accessor reads after its own update and after that of another index, and
the parts of the state that the smallest updates leave as they are. -/

namespace Sys2Proof.Machine

open Sys2Proof.Safety

/-! ### Lists and maps -/

theorem getD_setAt {α : Type} (l : List α) (i k : Nat) (f : α → α) (d : α) :
    (setAt l i f).getD k d = if k = i ∧ i < l.length then f (l.getD i d) else l.getD k d := by
  unfold setAt
  split
  · rename_i x hx
    obtain ⟨hi, rfl⟩ := List.getElem?_eq_some_iff.1 hx
    by_cases hk : k = i
    · subst hk; simp [List.getD_eq_getElem?_getD, hi]
    · simp [List.getD_eq_getElem?_getD, hk, Ne.symm hk]
  · rename_i hx
    have hi : l.length ≤ i := List.getElem?_eq_none_iff.1 hx
    rw [if_neg (fun h => absurd h.2 (Nat.not_lt.2 hi))]

@[simp] theorem length_setAt {α : Type} (l : List α) (i : Nat) (f : α → α) : (setAt l i f).length = l.length := by
  unfold setAt; split <;> simp

theorem mgetD_mput_same {α : Type} (m : AMap α) (n : Nat) (v d : α) : mgetD (mput m n v) n d = v := by simp [mgetD]

theorem mgetD_mput_other {α : Type} (m : AMap α) (n k : Nat) (v d : α) (h : k ≠ n) : mgetD (mput m n v) k d = mgetD m k d := by
  simp [mgetD, mget_mput_other _ _ _ _ h]

/-! ### Indexed parts -/

@[simp] theorem peerAt_setPeer_same (p : Nat) (f : Peer → Peer) (s : State) : peerAt (setPeer p f s) p = f (peerAt s p) := by
  simp [peerAt, setPeer, mgetD]

theorem peerAt_setPeer_other (p k : Nat) (f : Peer → Peer) (s : State) (h : k ≠ p) : peerAt (setPeer p f s) k = peerAt s k := by
  simp [peerAt, setPeer, mgetD, mget_mput_other _ _ _ _ h]

@[simp] theorem movAt_setMov_same (ch : Nat) (f : MovCh → MovCh) (s : State) : movAt (setMov ch f s) ch = f (movAt s ch) := by
  simp [movAt, setMov, mgetD]

theorem movAt_setMov_other (ch k : Nat) (f : MovCh → MovCh) (s : State) (h : k ≠ ch) : movAt (setMov ch f s) k = movAt s k := by
  simp [movAt, setMov, mgetD, mget_mput_other _ _ _ _ h]

theorem portAt_setPort_same (m : Nat) (f : Port → Port) (s : State) (h : m < s.mbr.ports.length) :
    portAt (setPort m f s) m = f (portAt s m) := by
  unfold portAt setPort
  rw [getD_setAt]
  simp [h]

theorem portAt_setPort_other (m k : Nat) (f : Port → Port) (s : State) (h : k ≠ m) : portAt (setPort m f s) k = portAt s k := by
  unfold portAt setPort
  rw [getD_setAt]
  simp [h]

@[simp] theorem length_setPort (m : Nat) (f : Port → Port) (s : State) : (setPort m f s).mbr.ports.length = s.mbr.ports.length := by
  simp [setPort]

theorem pairAt_setPair_same (n : Nat) (f : Pair → Pair) (s : State) (h : n < s.cpx.pairs.length) :
    pairAt (setPair n f s) n = f (pairAt s n) := by
  unfold pairAt setPair
  rw [getD_setAt]
  simp [h]

theorem pairAt_setPair_other (n k : Nat) (f : Pair → Pair) (s : State) (h : k ≠ n) : pairAt (setPair n f s) k = pairAt s k := by
  unfold pairAt setPair
  rw [getD_setAt]
  simp [h]

@[simp] theorem length_setPair (n : Nat) (f : Pair → Pair) (s : State) : (setPair n f s).cpx.pairs.length = s.cpx.pairs.length := by
  simp [setPair]

theorem laneAt_setLane_same (l : Nat) (f : Lane → Lane) (s : State) (h : l < s.sec.lanes.length) :
    laneAt (setLane l f s) l = f (laneAt s l) := by
  unfold laneAt setLane
  rw [getD_setAt]
  simp [h]

theorem laneAt_setLane_other (l k : Nat) (f : Lane → Lane) (s : State) (h : k ≠ l) : laneAt (setLane l f s) k = laneAt s k := by
  unfold laneAt setLane
  rw [getD_setAt]
  simp [h]

@[simp] theorem length_setLane (l : Nat) (f : Lane → Lane) (s : State) : (setLane l f s).sec.lanes.length = s.sec.lanes.length := by
  simp [setLane]

@[simp] theorem streamAt_setStream_same (i : Nat) (f : Stream → Stream) (s : State) : streamAt (setStream i f s) i = f (streamAt s i) := by
  simp [streamAt, setStream, mgetD]

theorem streamAt_setStream_other (i k : Nat) (f : Stream → Stream) (s : State) (h : k ≠ i) : streamAt (setStream i f s) k = streamAt s k := by
  simp [streamAt, setStream, mgetD, mget_mput_other _ _ _ _ h]

theorem fport_setFport_same (p : Nat) (f : FPort → FPort) (s : State) : fport (setFport p f s) p = f (fport s p) := by
  unfold fport setFport
  by_cases h : p = 0 <;> simp [h]

theorem tgtAt_setTgt_same (ch t : Nat) (o : Option TOp) (s : State) : tgtAt (setTgt ch t o s) ch t = o := by
  cases o <;> simp [tgtAt, setTgt]

theorem tgtAt_setTgt_other (ch t ch' t' : Nat) (o : Option TOp) (s : State) (h : tgtKey ch' t' ≠ tgtKey ch t) :
    tgtAt (setTgt ch t o s) ch' t' = tgtAt s ch' t' := by
  cases o
  · simp [tgtAt, setTgt, mget_mdel_other _ _ _ h]
  · simp [tgtAt, setTgt, mget_mput_other _ _ _ _ h]

theorem bandAt_setBand_same (b : Nat) (f : Band → Band) (s : State) : bandAt (setBand b f s) b = f (bandAt s b) := by
  simp [bandAt, setBand, mgetD_mput_same]

@[simp] theorem instAt_setInst_same (i : Nat) (f : MemInst → MemInst) (s : State) : instAt (setInst i f s) i = f (instAt s i) := by
  simp [instAt, setInst, mgetD_mput_same]

theorem instAt_setInst_other (i k : Nat) (f : MemInst → MemInst) (s : State) (h : k ≠ i) : instAt (setInst i f s) k = instAt s k := by
  simp [instAt, setInst, mgetD_mput_other _ _ _ _ _ h]

@[simp] theorem bankAt_setBank_same (b : Nat) (f : Bank → Bank) (s : State) : bankAt (setBank b f s) b = f (bankAt s b) := by
  simp [bankAt, setBank, mgetD_mput_same]

theorem bankAt_setBank_other (b k : Nat) (f : Bank → Bank) (s : State) (h : k ≠ b) : bankAt (setBank b f s) k = bankAt s k := by
  simp [bankAt, setBank, mgetD_mput_other _ _ _ _ _ h]

@[simp] theorem ringAt_setRing_same (ix : Nat) (f : Ring → Ring) (s : State) : ringAt (setRing ix f s) ix = f (ringAt s ix) := by
  simp [ringAt, setRing, mgetD_mput_same]

theorem ringAt_setRing_other (ix k : Nat) (f : Ring → Ring) (s : State) (h : k ≠ ix) : ringAt (setRing ix f s) k = ringAt s k := by
  simp [ringAt, setRing, mgetD_mput_other _ _ _ _ _ h]

/-- A read changed is that read changed, and no other. -/
theorem reads_setRead (rid k : Nat) (f : Rd → Rd) (s : State) :
    mget (setRead rid f s).flc.reads k = if k = rid then (mget s.flc.reads k).map f else mget s.flc.reads k := by
  simp [setRead, mget_mupd]

/-- The same of a command slot. -/
theorem slots_setSlot (id k : Nat) (f : Slot → Slot) (s : State) :
    mget (setSlot id f s).hif.slots k = if k = id then (mget s.hif.slots k).map f else mget s.hif.slots k := by
  simp [setSlot, mget_mupd]

/-- The same of the cursor of an Open band. -/
theorem opens_setOpen (b k : Nat) (f : OpenBand → OpenBand) (s : State) :
    mget (setOpen b f s).bnd.opens k = if k = b then (mget s.bnd.opens k).map f else mget s.bnd.opens k := by
  simp [setOpen, mget_mupd]

/-! ### Parts that an update leaves -/

theorem sameBut_refl (ps : List Part) (s : State) : SameBut ps s s := ⟨rfl, fun p _ => by cases p <;> rfl⟩

theorem sameBut_mono {ps qs : List Part} {s t : State} (h : SameBut ps s t) (hs : ∀ p ∈ ps, p ∈ qs) : SameBut qs s t :=
  ⟨h.1, fun p hp => h.2 p (fun hm => hp (hs p hm))⟩

theorem sameBut_trans {ps : List Part} {s t u : State} (h : SameBut ps s t) (h' : SameBut ps t u) : SameBut ps s u := by
  refine ⟨h'.1.trans h.1, fun p hp => ?_⟩
  have a := h.2 p hp
  have b := h'.2 p hp
  cases p <;> exact Eq.trans b a

theorem answers_of_next {c : Instr} {s t : State} {P : State → Prop} (e : exec c s = .next t) (h : P t) : Answers c s P := ⟨t, e, h⟩

@[simp] theorem setReg_pending (off : Nat) (v : Word) (s : State) : (setReg off v s).pending = s.pending := rfl
@[simp] theorem setReg_latch (off : Nat) (v : Word) (s : State) : (setReg off v s).latch = s.latch := rfl
@[simp] theorem setReg_mem (off : Nat) (v : Word) (s : State) : (setReg off v s).mem = s.mem := rfl
@[simp] theorem setReg_sys (off : Nat) (v : Word) (s : State) : (setReg off v s).sys = s.sys := rfl
@[simp] theorem setReg_clk (off : Nat) (v : Word) (s : State) : (setReg off v s).clk = s.clk := rfl
@[simp] theorem setReg_thm (off : Nat) (v : Word) (s : State) : (setReg off v s).thm = s.thm := rfl
@[simp] theorem setReg_tck (off : Nat) (v : Word) (s : State) : (setReg off v s).tck = s.tck := rfl
@[simp] theorem setReg_hif (off : Nat) (v : Word) (s : State) : (setReg off v s).hif = s.hif := rfl
@[simp] theorem setReg_stm (off : Nat) (v : Word) (s : State) : (setReg off v s).stm = s.stm := rfl
@[simp] theorem setReg_map (off : Nat) (v : Word) (s : State) : (setReg off v s).map = s.map := rfl
@[simp] theorem setReg_flc (off : Nat) (v : Word) (s : State) : (setReg off v s).flc = s.flc := rfl
@[simp] theorem setReg_bnd (off : Nat) (v : Word) (s : State) : (setReg off v s).bnd = s.bnd := rfl
@[simp] theorem setReg_mbr (off : Nat) (v : Word) (s : State) : (setReg off v s).mbr = s.mbr := rfl
@[simp] theorem setReg_flt (off : Nat) (v : Word) (s : State) : (setReg off v s).flt = s.flt := rfl
@[simp] theorem setReg_sec (off : Nat) (v : Word) (s : State) : (setReg off v s).sec = s.sec := rfl
@[simp] theorem setReg_cpx (off : Nat) (v : Word) (s : State) : (setReg off v s).cpx = s.cpx := rfl
@[simp] theorem setReg_memc (off : Nat) (v : Word) (s : State) : (setReg off v s).memc = s.memc := rfl
@[simp] theorem setReg_mov (off : Nat) (v : Word) (s : State) : (setReg off v s).mov = s.mov := rfl
@[simp] theorem setReg_cst (off : Nat) (v : Word) (s : State) : (setReg off v s).cst = s.cst := rfl
@[simp] theorem setReg_lnt (off : Nat) (v : Word) (s : State) : (setReg off v s).lnt = s.lnt := rfl
@[simp] theorem setReg_out (off : Nat) (v : Word) (s : State) : (setReg off v s).out = s.out := rfl
@[simp] theorem setReg_freeCtr (off : Nat) (v : Word) (s : State) : (setReg off v s).freeCtr = s.freeCtr := rfl

@[simp] theorem writeByte_pending (a : Nat) (v : Byte) (s : State) : (writeByte a v s).pending = s.pending := rfl
@[simp] theorem writeByte_regs (a : Nat) (v : Byte) (s : State) : (writeByte a v s).regs = s.regs := rfl
@[simp] theorem writeByte_latch (a : Nat) (v : Byte) (s : State) : (writeByte a v s).latch = s.latch := rfl
@[simp] theorem writeByte_sys (a : Nat) (v : Byte) (s : State) : (writeByte a v s).sys = s.sys := rfl
@[simp] theorem writeByte_clk (a : Nat) (v : Byte) (s : State) : (writeByte a v s).clk = s.clk := rfl
@[simp] theorem writeByte_thm (a : Nat) (v : Byte) (s : State) : (writeByte a v s).thm = s.thm := rfl
@[simp] theorem writeByte_tck (a : Nat) (v : Byte) (s : State) : (writeByte a v s).tck = s.tck := rfl
@[simp] theorem writeByte_hif (a : Nat) (v : Byte) (s : State) : (writeByte a v s).hif = s.hif := rfl
@[simp] theorem writeByte_stm (a : Nat) (v : Byte) (s : State) : (writeByte a v s).stm = s.stm := rfl
@[simp] theorem writeByte_map (a : Nat) (v : Byte) (s : State) : (writeByte a v s).map = s.map := rfl
@[simp] theorem writeByte_flc (a : Nat) (v : Byte) (s : State) : (writeByte a v s).flc = s.flc := rfl
@[simp] theorem writeByte_bnd (a : Nat) (v : Byte) (s : State) : (writeByte a v s).bnd = s.bnd := rfl
@[simp] theorem writeByte_mbr (a : Nat) (v : Byte) (s : State) : (writeByte a v s).mbr = s.mbr := rfl
@[simp] theorem writeByte_flt (a : Nat) (v : Byte) (s : State) : (writeByte a v s).flt = s.flt := rfl
@[simp] theorem writeByte_sec (a : Nat) (v : Byte) (s : State) : (writeByte a v s).sec = s.sec := rfl
@[simp] theorem writeByte_cpx (a : Nat) (v : Byte) (s : State) : (writeByte a v s).cpx = s.cpx := rfl
@[simp] theorem writeByte_memc (a : Nat) (v : Byte) (s : State) : (writeByte a v s).memc = s.memc := rfl
@[simp] theorem writeByte_mov (a : Nat) (v : Byte) (s : State) : (writeByte a v s).mov = s.mov := rfl
@[simp] theorem writeByte_cst (a : Nat) (v : Byte) (s : State) : (writeByte a v s).cst = s.cst := rfl
@[simp] theorem writeByte_lnt (a : Nat) (v : Byte) (s : State) : (writeByte a v s).lnt = s.lnt := rfl
@[simp] theorem writeByte_out (a : Nat) (v : Byte) (s : State) : (writeByte a v s).out = s.out := rfl
@[simp] theorem writeByte_freeCtr (a : Nat) (v : Byte) (s : State) : (writeByte a v s).freeCtr = s.freeCtr := rfl

@[simp] theorem emit_pending (o : Out) (s : State) : (emit o s).pending = s.pending := rfl
@[simp] theorem emit_regs (o : Out) (s : State) : (emit o s).regs = s.regs := rfl
@[simp] theorem emit_latch (o : Out) (s : State) : (emit o s).latch = s.latch := rfl
@[simp] theorem emit_mem (o : Out) (s : State) : (emit o s).mem = s.mem := rfl
@[simp] theorem emit_sys (o : Out) (s : State) : (emit o s).sys = s.sys := rfl
@[simp] theorem emit_clk (o : Out) (s : State) : (emit o s).clk = s.clk := rfl
@[simp] theorem emit_thm (o : Out) (s : State) : (emit o s).thm = s.thm := rfl
@[simp] theorem emit_tck (o : Out) (s : State) : (emit o s).tck = s.tck := rfl
@[simp] theorem emit_hif (o : Out) (s : State) : (emit o s).hif = s.hif := rfl
@[simp] theorem emit_stm (o : Out) (s : State) : (emit o s).stm = s.stm := rfl
@[simp] theorem emit_map (o : Out) (s : State) : (emit o s).map = s.map := rfl
@[simp] theorem emit_flc (o : Out) (s : State) : (emit o s).flc = s.flc := rfl
@[simp] theorem emit_bnd (o : Out) (s : State) : (emit o s).bnd = s.bnd := rfl
@[simp] theorem emit_mbr (o : Out) (s : State) : (emit o s).mbr = s.mbr := rfl
@[simp] theorem emit_flt (o : Out) (s : State) : (emit o s).flt = s.flt := rfl
@[simp] theorem emit_sec (o : Out) (s : State) : (emit o s).sec = s.sec := rfl
@[simp] theorem emit_cpx (o : Out) (s : State) : (emit o s).cpx = s.cpx := rfl
@[simp] theorem emit_memc (o : Out) (s : State) : (emit o s).memc = s.memc := rfl
@[simp] theorem emit_mov (o : Out) (s : State) : (emit o s).mov = s.mov := rfl
@[simp] theorem emit_cst (o : Out) (s : State) : (emit o s).cst = s.cst := rfl
@[simp] theorem emit_lnt (o : Out) (s : State) : (emit o s).lnt = s.lnt := rfl
@[simp] theorem emit_freeCtr (o : Out) (s : State) : (emit o s).freeCtr = s.freeCtr := rfl

end Sys2Proof.Machine
end

