-- ==== Sys2Proof/Machine/Pins.lean ====
section
/-! DEFINITION. Pins: the levels that the NM-960 drives, as functions of its state (R459, R463, R464, Tables 16.2 and 16.7). Each change of
level lies inside the command that changes the state (log entry 80). -/

namespace Sys2Proof.Machine

/-- What the NM-960 does to a pin: drives it low or high, or leaves it in high impedance. -/
inductive Level where
  | low | high | highZ
  deriving DecidableEq, Repr

/-- A level from a Bool. -/
def Level.of (x : Bool) : Level := if x then .high else .low

/-- An open-drain output: driven low, or released. -/
def Level.drain (low : Bool) : Level := if low then .low else .highZ

/-- Mm_PWREN. -/
def pinPwren (s : State) (m : Nat) : Level := .of (portAt s m).powered

/-- Is an FLcc signal other than FLcc_WP_L driven: while Mm_PWREN of its port is high (R459)? -/
def flDriven (s : State) (ch : Nat) : Bool := (portAt s (ch / 4)).powered

/-- FLcc_WP_L (R459): high impedance without carrier power, low from power on until training begins, then high while the channel is
enabled. -/
def pinWp (s : State) (ch : Nat) : Level :=
  let p := portAt s (ch / 4)
  if !p.powered then .highZ else .of (p.training && bitAt (rg s (FLC_CFG ch)) 0)

/-- FLcc_WP_L in the window of 1 µs before Mm_PWREN rises or falls (R459). -/
def pinWpWindow : Level := .low

/-- Are Mm_SMB_CLK and Mm_SMB_DAT in use: not while Mm_PWREN is low (R459)? -/
def smbDriven (s : State) (m : Nat) : Bool := (portAt s m).powered

/-- FAULT_L (R463): low in Halt, under R386 and under R402. -/
def pinFault (s : State) : Level := .drain (s.cst.mode = .halt || s.clk.qualLate || s.thm.tripped)

/-- THERM_L (R400, R403). -/
def pinTherm (s : State) : Level := .drain (thermLow s)

/-- GPIOg (R471): driven where SYS_GPIO_OE has its bit, otherwise pulled down. -/
def pinGpio (s : State) (g : Nat) : Level :=
  if bitAt (rg s SYS_GPIO_OE) g then .of (bitAt (rg s SYS_GPIO_OUT) g) else .highZ

end Sys2Proof.Machine
end

