-- ==== Sys2Proof/WellFormed.lean ====
section
/-! DEFINITION. What the interfaces of the block can carry: the ranges of the commands' operands. `exec` is total and answers for
every term; a command outside these ranges cannot come from a chip that follows the manual. -/

namespace Sys2Proof

/-- Member ports 0-8 (R12, Table 1.1). -/
def portOk (p : Nat) : Bool := p < 9

/-- Flash channels 0-35, four of each member port (Table 1.1, 01_architecture.md). -/
def channelOk (c : Nat) : Bool := c < 36

/-- Alarms 0-3 (R56). -/
def alarmOk (n : Nat) : Bool := n < 4

/-- Cipher lanes 0-7 (R307). -/
def laneOk (l : Nat) : Bool := l < 8

/-- Fleet ports 0 and 1 (R266). -/
def fleetPortOk (p : Nat) : Bool := p < 2

/-- PLLs 0-13 (Table 13.1). -/
def pllOk (i : Nat) : Bool := i < 14

/-- Gates 0-30 (Table 13.2). -/
def gateOk (g : Nat) : Bool := g < 31

/-- Ledger pairs 0-9 and the two cores of a pair (R332). -/
def pairOk (p : Nat) : Bool := p < 10

/-- Code Store banks 0-15 (R368). -/
def bankOk (b : Nat) : Bool := b < 16

/-- A 32-bit word of a descriptor (RAW_READ DEST, Table 8.14). -/
def wordOk (w : Nat) : Bool := w < 2 ^ 32

/-- A descriptor: 64 bytes (Table 15.9). -/
def descOk (d : List Byte) : Bool := d.length = 64

/-- An aligned offset of setup space (R431). -/
def offsetOk (off : Nat) : Bool := off % 4 = 0

/-- The blocks that a Write carries are those its NLB field counts (R62). -/
def dataOk (nlb : Nat) (data : List Block) : Bool := data.length = nlb && 0 < nlb

/-- The verdict list of a start names every member port and every die profile, lane and port once (Table 12.3). -/
def startEnvOk (e : StartEnv) : Bool := e.ports.length = 9 && e.lanesOk.length = 8

/-- A commit that comes in has the host's Firmware Commit or the OS's store behind it (R377). -/
def commitSrcOk (src : CommitSrc) : Bool := src ≠ .dropped

/-- A channel position and a target of a port (Table 1.1, R167). -/
def targetOk (chpos target : Nat) : Bool := chpos < 4 && target < 32

/-- Qualification speaks of the port's channel positions and targets (Table 8.11). -/
def qualifyOk (q : QualifySeen) : Bool := q.targets.all (fun a => targetOk a.chpos a.target) && q.untrained.all (· < 4)

/-- A vendor command of Table 3.7 carries the body of one descriptor. -/
def vendOk (v : Vend) : Bool := v.body.length = 56 && v.opcode < 65536

/-- The command's operands lie in the ranges that the interfaces carry. -/
def Instr.wf : Instr → Bool
  | .alarmFired n | .alarmArm n _ => alarmOk n
  | .latchingLoRead off | .registerWrite _ off _ | .regRead _ _ off | .regWrite _ _ off _ => offsetOk off
  | .thmSample rs => rs.length = 16
  | .xtalQualified env => startEnvOk env
  | .pllUnlock i | .pllRelocked i => pllOk i
  | .gateDrainEnd g => gateOk g
  | .gpioEdge g _ => g < 16
  | .write _ _ nlb _ _ bs => dataOk nlb bs
  | .streamManage v | .memberManage v | .fleetManage v | .lanternControl v => vendOk v
  | .programStatus ch _ _ | .eraseStatus ch _ _ | .suspendStatus ch _ | .flcOpOvertime ch _ | .channelTrainingDone ch _ => channelOk ch
  | .memberTimeout p | .memberPresenceDebounced p | .memberFaultSample p _ | .memberIdentityRead p _ _
  | .memberRemoved p | .memberFault p | .powerSequenceEnd p => portOk p
  | .portEnable p | .portDisable p | .portDrainEnd p | .fltPortDown p | .fleetPortLinkUp p | .arpNdpFrame p _ => fleetPortOk p
  | .laneEnable l | .laneDisable l | .laneDrainEnd l | .laneTestEnd l _ => laneOk l
  | .ledgerFault p core _ => pairOk p && (core < 2)
  | .ledgerRestartEnd p | .ledgerRestartTimeout p => pairOk p
  | .transfer _ desc => descOk desc.bytes
  | .ring _ _ desc => descOk desc
  | .rawRead _ _ _ _ _ _ _ _ _ _ lo hi => wordOk lo && wordOk hi
  | .cstProgramDone b _ _ | .cstEraseDone b _ _ | .cstEraseResume b => bankOk b
  | .lanternMark _ _ detail => detail.length = 40
  | .memberQualifyDone p seen => portOk p && qualifyOk seen
  | .commitStore src _ | .commitStorePending src _ | .commitMarkPending src _ | .commitActivate src _ => commitSrcOk src
  | .readTransfer _ ones _ _ _ => ones ≤ 36864
  | .tickEdge | .planningCutOff .. | .tckHoldLimit | .fsyncEdge .. | .fsyncEdgeMissed | .ppsEdgeJudged .. | .ppsWindowMissed _
  | .timeSecArm _ | .frameWrite _ | .setupAccessFault .. | .seal _ | .startReady | .sysResetWarm _ | .sysResetColdRestart _
  | .profileWrite _ | .ringEnable _ | .ringDisable _ | .ringDrainEnd _ | .coldReset | .startUp .. | .warmReset
  | .xtalQualTimeout | .xtalLost | .aclkFreqWrite _ | .gateOn _ | .gateOff _ | .thermalShutdownPowerOff | .startTempHoldRelease
  | .pfailFall | .pfailMramCutoff | .pfailCleared | .pciePerst | .hotReset | .linkDown | .functionLevelReset | .controllerReset
  | .controllerResetDone | .ccEnSet | .ccShutdown _ | .shutdownDone | .ideIntegrityFail | .ideEnable _ | .ideDisable _
  | .ideKeyLoad _ | .sqTailDoorbell .. | .cqHeadDoorbell .. | .shadowDoorbellSweep .. | .hifCqStall _ | .lookaheadRelease _
  | .orderedCommandStart _ | .flush _ | .read .. | .writeZeroes .. | .datasetManagement .. | .createIoSq .. | .deleteIoSq ..
  | .createIoCq .. | .deleteIoCq .. | .getLogPage .. | .identify .. | .abort .. | .setFeatures .. | .getFeatures ..
  | .asynchronousEventRequest _ | .namespaceCreate .. | .namespaceDelete .. | .namespaceAttach .. | .namespaceDetach ..
  | .firmwareImageDownload ..
  | .commitEnd .. | .activationDone | .selfTestShort .. | .selfTestExtended .. | .selfTestAbort _ | .selfTestEnd _
  | .directiveSend .. | .directiveReceive .. | .doorbellBufferConfig _ | .formatNvm .. | .securitySend .. | .securityReceive ..
  | .spdmReceiveTimeout _ | .sanitizeCryptoErase _ | .sanitizeBlockErase _ | .sanitizeEnd | .getVersion | .getCapabilities
  | .negotiateAlgorithms | .getDigests | .getCertificate .. | .challenge _ | .getMeasurements .. | .spdmUnsupportedRequest _
  | .writeAccepted _ | .stagingComplete _ | .fleetWriteStart _ | .softDecodeDone .. | .readCompletion _
  | .readDeadline .. | .padWaitExpired .. | .extentRunGivenUp _ | .dieTempRead .. | .mapRecordForm _ | .mapRecordDurable
  | .writeCompletion _ | .checkpointStart | .checkpointEnd | .mapCkptLate | .memberQuery .. | .memberAdmit .. | .readmitBlank ..
  | .fail .. | .powerOn .. | .powerOff .. | .rebuild .. | .formatUnit .. | .open_ .. | .reserve .. | .release ..
  | .close .. | .setMarkers .. | .mark .. | .streamQuery .. | .queryCeiling .. | .releasingEnd _ | .hello .. | .helloReply ..
  | .confirm .. | .heartbeat .. | .suspect .. | .epochPropose .. | .epochAccept .. | .epochCommit .. | .epochQuery _
  | .intent .. | .intentAck .. | .busy .. | .mirror .. | .mirrorAck .. | .done .. | .retire .. | .resolve .. | .resolveReply ..
  | .readReq .. | .readData .. | .activate .. | .activateAck _ | .activateCommit _ | .activateCancel _ | .fnsKey .. | .fnsKeyAck _
  | .heartbeatSend | .retransmit _ | .windowExpired _ | .peerSuspect _ | .handshakeTimeout _ | .handshakeRetry _ | .sessionRekey _
  | .oldSessionExpiry _ | .epochProposeRetry | .intentResend _ | .activationDeadline | .resyncReadStart .. | .fleetQuery ..
  | .enroll .. | .form .. | .bind .. | .proxyCreate .. | .proxyDelete .. | .replace .. | .declare .. | .declareTimeout
  | .resync .. | .fleetActivate .. | .cancelActivate .. | .genSecret | .writeDaymark | .setOwner | .secverAdvance _ | .secTrngFail
  | .tapChallengeRead | .tapResponse .. | .challengeExpiry | .ledgerRepair _ | .osWatchdogWrite _ | .cpxOsWatchdog
  | .memSubwordStore .. | .moverDescriptorEnd _ | .bootConfirm _ | .cstBootFailed | .discover .. | .begin_ .. | Instr.data .. | .end_ ..
  | .lanternRead .. | .restart .. | .beaconTransferIdle | .lanternQuery .. | .freeze .. | .thaw .. | .lanternControlRead ..
  | .clear .. | .lntDropped | .earlyWarningHourly | .earlyWarningMinute | .tempHistorySecond | .linkUp .. | .senseComplete _
  | .spdmResponseReady => true

end Sys2Proof
end

