-- ==== Sys2Proof/Tests/Slice0.lean ====
section
/-! SUPPORT. Tests: for each statement a theorem that applies every clause of it to a concrete state and operands that meet the
clause's hypotheses (what a clause then gives is that the command answers a next state there), the tests of `WellFormed`, and those of the
state after reset. -/

namespace Sys2Proof.Tests

open Sys2Proof.Machine Sys2Proof.Safety

set_option Elab.async false

/-- A clause applied: the command answers a next state. -/
theorem met {c : Instr} {s : State} {P : State → Prop} (h : Answers c s P) : Answers c s (fun _ => True) := by
  obtain ⟨t, e, _⟩ := h
  exact ⟨t, e, trivial⟩

/-- As `met`, for a clause that gives the next state itself. -/
theorem metEq {c : Instr} {s t : State} (h : exec c s = .next t) : Answers c s (fun _ => True) := ⟨t, h, trivial⟩

theorem cqRoom_of {s : State} {cq : Nat} (h : cqesIssue s = true ∧ s.hif.idePhase ≠ 2
    ∧ (mget s.hif.cqs cq).any (fun q => q.held.isEmpty && decide (0 < q.free)) = true) : CqRoom cq s := by
  obtain ⟨a, b, d⟩ := h
  obtain ⟨q, e, hq⟩ := (Option.any_eq_true _ _).1 d
  simp only [Bool.and_eq_true, List.isEmpty_iff, decide_eq_true_eq] at hq
  exact ⟨a, b, q, e, hq.1, hq.2⟩

theorem adminServes_of {s : State} (h : adminOpen s = true ∧ adminFull s = true ∧ cqesIssue s = true ∧ s.hif.idePhase ≠ 2
    ∧ (mget s.hif.cqs 0).any (fun q => q.held.isEmpty && decide (0 < q.free)) = true) : AdminServes s :=
  ⟨h.1, h.2.1, cqRoom_of h.2.2⟩

theorem fetches_of {s : State} {c : IoCmd} (h : (mget s.hif.sqs c.sq).any (fun q => q.look.isNone) = true ∧ c.sq ≠ 0
    ∧ fetchable s c.sq = true ∧ turnOf s c.sq = true ∧ c.ord = false ∧ slotFree s c = true) : Fetches s c := by
  obtain ⟨a, b⟩ := h
  obtain ⟨q, e, hq⟩ := (Option.any_eq_true _ _).1 a
  exact ⟨⟨q, e, by simpa using hq⟩, b⟩

theorem begins_of {c : Instr} {s : State} (h : (descOf c).any (fun d => mayBegin s d.1 d.2.1 d.2.2.1 d.2.2.2) = true) : Begins c s := by
  obtain ⟨d, e, hd⟩ := (Option.any_eq_true _ _).1 h
  exact ⟨d.1, d.2.1, d.2.2.1, d.2.2.2, e, hd⟩

/-- Is a use neither a diagnostic nor a survivor's read? -/
def plainUse : RdFor → Bool
  | .raw _ _ _ _ _ => false
  | .survivor _ _ => false
  | _ => true

theorem plainRead_of {s : State} {rid : Nat} {r : Rd} (h : plainUse r.use = true ∧ ∀ q ∈ s.flc.reads, survives rid q.2 = false) :
    PlainRead s rid r :=
  ⟨fun _ _ _ _ _ e => by simp [e, plainUse] at h, fun _ _ e => by simp [e, plainUse] at h, h.2⟩

theorem carries_of {s : State} {rid : Nat} {r : Rd} {p : Page} (h : s.tck.holding = false ∧ s.cst.mode ≠ .halt ∧ mget s.flc.reads rid = some r
    ∧ r.phase = .ready ∧ mget s.bnd.pages r.page = some p ∧ chanStopped s p.ch = false ∧ mayTransfer s rid r p.ch = true
    ∧ (portAt s (p.ch / 4)).gen = r.gen) : Carries s rid r p [] :=
  ⟨h.1, h.2.1, h.2.2.1, h.2.2.2.1, h.2.2.2.2.1, h.2.2.2.2.2.1, h.2.2.2.2.2.2.1, h.2.2.2.2.2.2.2, fun _ hw => absurd hw List.not_mem_nil⟩

def wPort (m : Nat) : Port := { st := .active, gen := 1, position := some m, inserted := true, powered := true, answers := [] }
def base : State :=
    { regs := [(SYS_DISCARD_CNT, 7)]
      tck := { running := true, now := 5000, fleet := 7000, timeSet := true, tick := 3 }, cst := { mode := .service }
      lnt := { accepting := true, started := true, seq := 9, newest := 8 }
      cpx := { ledgersOn := true, appsOn := [0] }, sec := { keyStore := true, trngOk := true, draws := 5 }
      mbr := { formatted := true, ports := (List.range 9).map wPort, posOf := (List.range 9).map (fun m => (m, m)), order := List.range 9 }
      map := { dir := [(1, { groups := [0], segs := 64, attached := true, key := 1 })], segLimit := 64, replayed := true }
      hif := { ccEn := true, rdy := true, ready := true, linkUp := true, linkWidth := 4, linkSpeed := 5
               sqs := [(1, { depth := 64, cq := 1 })]
               cqs := [(0, { depth := 4096, vector := 0, free := 4095 }), (1, { depth := 64, vector := 1, free := 63 })] }
      bnd := { ready := true, nsets := 4, vb := 100 }, stm := { streams := [(0, { st := .open_ }), (1, { st := .open_, nsid := 1 })] } }
def wRunA : State := { tck := { running := true }, cst := { mode := .service } }
def wLedgA : State := { tck := { running := true }, cst := { mode := .service }, cpx := { ledgersOn := true } }
theorem wit_TickEdgeAndCutOff (h : Obligations.TickEdgeAndCutOff) :
    Answers .tickEdge wRunA (fun _ => True) ∧
    Answers (.planningCutOff [0] [] none) wLedgA (fun _ => True) := by
  refine ⟨met (h.1 wRunA ((nextEdge wRunA).getD 0) ?_ ?_),
    met (h.2 wLedgA [0] [] none ?_ ?_ ?_ ?_)⟩ <;>
    first
    | decide +kernel

def wHeldA : State := { tck := { holdRun := 100000, holding := true }, cst := { mode := .service } }
def wXtalA : State := { clk := { xtalOk := true }, cst := { mode := .service } }
theorem wit_HoldLimit (h : Obligations.HoldLimit) :
    Answers .tckHoldLimit wHeldA (fun _ => True) ∧
    Answers .tckHoldLimit {} (fun _ => True) ∧
    Answers .xtalLost wXtalA (fun _ => True) ∧
    Answers (.pllUnlock 3) wXtalA (fun _ => True) := by
  refine ⟨met (h.1 wHeldA ?_ ?_ ?_),
    met (h.2.1 {} ?_),
    met (h.2.2 wXtalA .xtalLost ?_ ?_ (.inl ⟨rfl, rfl⟩)),
    met (h.2.2 wXtalA (.pllUnlock 3) ?_ ?_ (.inr ⟨3, rfl, ?_ , ?_⟩))⟩ <;>
    first
    | decide +kernel

def wAlarmA : State := { tck := { alarms := [(1, (0, .os)), (3, (5, .flt))] } }
theorem wit_Alarms (h : Obligations.Alarms) :
    Answers (.alarmFired 1) wAlarmA (fun _ => True) ∧
    Answers (.alarmFired 3) wAlarmA (fun _ => True) ∧
    Answers (.alarmArm 2 7) wAlarmA (fun _ => True) := by
  refine ⟨met (h.1 wAlarmA 1 0 ?_ ?_ ?_ ?_),
    met (h.2.1 wAlarmA 3 5 .flt ?_ ?_),
    met (h.2.2 wAlarmA 2 7 ?_)⟩ <;>
    first
    | decide +kernel

def wPpsA : State := { tck := { running := true, pps := .acquiring, armed := some 10 }, cst := { mode := .service } }
def wPps2A : State := { tck := { running := true, pps := .acquiring, armed := some 10, now := 50000 }, cst := { mode := .service } }
def wPpsLockedA : State := { tck := { running := true, pps := .locked, now := 60000, fleet := 2000000000 }, cst := { mode := .service } }
theorem wit_PpsEdges (h : Obligations.PpsEdges) :
    Answers (.ppsEdgeJudged 0 49999) wPpsA (fun _ => True) ∧
    Answers (.ppsEdgeJudged 0 50000) wPps2A (fun _ => True) ∧
    Answers (.ppsWindowMissed 0) wPpsLockedA (fun _ => True) := by
  refine ⟨met (h.1 wPpsA 0 49999 ?_ ?_),
    met (h.2.1 wPps2A 0 50000 10 ?_ ?_ ?_ ?_ ?_),
    met (h.2.2 wPpsLockedA 0 ?_ ?_ ?_)⟩ <;>
    first
    | decide +kernel

def wFsOffA : State := { tck := { running := true }, cst := { mode := .service } }
def wFsHoldA : State := { tck := { running := true, fsync := .holdover }, cst := { mode := .service } }
def wFsLockA : State := { tck := { running := true, fsync := .locked, predict := 5, frameL := 160, frameT := 1000 }, cst := { mode := .service } }
theorem wit_FsyncEdges (h : Obligations.FsyncEdges) :
    Answers (.fsyncEdge ⟨1, true⟩) wFsOffA (fun _ => True) ∧
    Answers (.fsyncEdge ⟨1, true⟩) wFsHoldA (fun _ => True) ∧
    Answers (.fsyncEdge ⟨15, true⟩) wFsLockA (fun _ => True) ∧
    Answers .fsyncEdgeMissed wFsLockA (fun _ => True) := by
  refine ⟨met (h.1 wFsOffA 1 true ?_ ?_),
    met (h.2.1 wFsHoldA 1 true ?_ ?_ ?_),
    met (h.2.2.1 wFsLockA 15 true ?_ ?_ ?_ ?_ ?_),
    met (h.2.2.2 wFsLockA ?_ ?_ ?_)⟩ <;>
    first
    | decide +kernel

def wSrcA : State := { tck := { source := 1 } }
theorem wit_TimeRegisters (h : Obligations.TimeRegisters) :
    Answers (.timeSecArm 0xFFFFFFFF) {} (fun _ => True) ∧
    Answers (.timeSecArm 0xFFFFFFFF) { regs := [(TCK_TIME_SEC_HI, 7)] } (fun _ => True) ∧
    Answers (.frameWrite 1) wSrcA (fun _ => True) ∧
    Answers (.latchingLoRead TCK_TIME_LO) wRunA (fun _ => True) := by
  refine ⟨met (h.1 {} 0xFFFFFFFF ?_),
    met (h.2.1 { regs := [(TCK_TIME_SEC_HI, 7)] } 0xFFFFFFFF ?_),
    met (h.2.2.1 wSrcA 1 ?_ ?_),
    met (h.2.2.2 wRunA TCK_TIME_LO ((latchedView wRunA TCK_TIME_LO).getD 0) ?_)⟩ <;>
    first
    | decide +kernel

theorem wit_RegisterWrite (h : Obligations.RegisterWrite) :
    Answers (.registerWrite (.core 0) FLT_HB 0x00140001) base (fun _ => True) ∧
    Answers (.registerWrite (.core 0) FLT_HB 0x00140000) base (fun _ => True) ∧
    Answers (.registerWrite (.core 0) 0x90FF0 1) base (fun _ => True) ∧
    Answers (.registerWrite .jtag 0 0) base (fun _ => True) := by
  refine ⟨met (h.1 base (.core 0) FLT_HB 0x00140001 { off := FLT_HB, rw := 0x00FF00FF } ?_ ?_ ?_ ?_ ?_ ?_ ?_ ?_ ?_),
    met (h.2.1 base (.core 0) FLT_HB 0x00140000 { off := FLT_HB, rw := 0x00FF00FF } ?_ ?_ ?_ ?_ ?_ ?_ ?_ ?_ ?_),
    met (h.2.2.1 base (.core 0) 0x90FF0 1 ?_ ?_ ?_ ?_ ?_ ?_ ?_ ?_),
    met (h.2.2.2 base .jtag 0 0 ?_)⟩ <;>
    first
    | decide +kernel

theorem wit_AccessFaults (h : Obligations.AccessFaults) :
    Answers (.setupAccessFault setupBase 8 true) base (fun _ => True) ∧
    Answers (.registerWrite (.core 0) 2 0) base (fun _ => True) := by
  refine ⟨met (h.1 base setupBase 8 true ?_ ?_ ?_),
    met (h.2 base (.core 0) 2 0 ?_ ?_)⟩ <;>
    first
    | decide +kernel

def wRingsB : State := { base with sys := { rings := [(3, { st := .error })] } }
def wSealedB : State := { base with sys := { isSealed := true } }
theorem wit_Seal (h : Obligations.Seal) :
    Answers (.seal 0x5EA1) base (fun _ => True) ∧
    Answers (.seal 0x5EA1) { base with regs := [(MAP_CFG, 0xFF)] } (fun _ => True) ∧
    Answers (.seal 0x5EA2) base (fun _ => True) ∧
    Answers (.seal 0x5EA1) wSealedB (fun _ => True) := by
  refine ⟨met (h.1 base ?_ ?_),
    met (h.2.1 { base with regs := [(MAP_CFG, 0xFF)] } ?_ ?_),
    met (h.2.2.1 base 0x5EA2 ?_ ?_),
    met (h.2.2.2.1 wSealedB 0x5EA1 ?_)⟩ <;>
    first
    | decide +kernel

def wNoAppsB : State := { base with cpx := {} }
def wPfailB : State := { base with thm := { pfail := true } }
def wOsImageB : Image :=
    { formatOk := true, deviceType := 0x0960, minSilicon := 0, kind := 3, secver := 1, signer := 0, settingsFmt := 0, minSettings := 0, version := 1, len := 64
      entry := 0, digest := 5, full := 6, actTime := 0, moorCount := 0, mooring := [] }
def wAppsOnB : State := { base with sec := { base.sec with otpOwner := some 9 }, cst := { mode := .service, osSlot := 4, slots := [{}, {}, {}, { st := .confirmed, img := some wOsImageB }, {}] } }
theorem wit_ResetRequests (h : Obligations.ResetRequests) :
    Answers (.sysResetWarm 0x5AFE0001) wNoAppsB (fun _ => True) ∧
    Answers (.sysResetColdRestart 0x5AFE0002) wSealedB (fun _ => True) ∧
    Answers (.sysResetColdRestart 0x5AFF0002) base (fun _ => True) ∧
    Answers .warmReset base (fun _ => True) ∧
    Answers .warmReset wAppsOnB (fun _ => True) ∧
    Answers .warmReset wPfailB (fun _ => True) := by
  refine ⟨met (h.1 wNoAppsB 0x5AFE0001 ?_ ?_ ?_ ?_ ?_ ?_),
    met (h.2.1 wSealedB 0x5AFE0002 ?_),
    met (h.2.2.1 base 0x5AFF0002 ?_),
    met (h.2.2.2.1 base ?_ ?_ ?_ ?_),
    met (h.2.2.2.2.1 wAppsOnB ?_ ?_ ?_ ?_ ?_ ?_ ?_),
    met (h.2.2.2.2.2 wPfailB ?_)⟩ <;>
    first
    | decide +kernel

def wBegunB : State := { cst := { begun := true } }
def wCryptB : Crypt := { keyOk := true, sigOk := true, digestOk := true }
def wEnvB : StartEnv :=
    { qualTime := 1000000, calOk := true, trngOk := true, loader := wCryptB, unwrapOk := true, ledger2 := wCryptB, ledger3 := wCryptB, os4 := wCryptB, os5 := wCryptB, settingsOk := true, bandTableOk := true, profilesOk := [true]
      lanesOk := [true, true, true, true, true, true, true, true], ports := [] }
theorem wit_ColdStart (h : Obligations.ColdStart) :
    Answers .coldReset base (fun _ => True) ∧
    Answers (.startUp 3 1) {} (fun _ => True) ∧
    Answers .xtalQualTimeout wBegunB (fun _ => True) ∧
    Answers (.xtalQualified wEnvB) { cst := { begun := true }, thm := { hot := 800 } } (fun _ => True) ∧
    Answers .startTempHoldRelease { cst := { begun := true, held := some wEnvB }, thm := { hot := 799, holdStart := true } } (fun _ => True) := by
  refine ⟨met (h.1 base),
    met (h.2.1 {} 3 1 ?_ ?_),
    met (h.2.2.1 wBegunB ?_ ?_ ?_),
    met (h.2.2.2.1 { cst := { begun := true }, thm := { hot := 800 } } wEnvB ?_ ?_ ?_ ?_),
    met (h.2.2.2.2 { cst := { begun := true, held := some wEnvB }, thm := { hot := 799, holdStart := true } } wEnvB ?_ ?_ ?_)⟩ <;>
    first
    | decide +kernel

def wStrapB : State := { cst := { begun := true }, sys := { bootSel := 3 }, thm := { hot := 799 } }
def wLoadB : State := { base with cst := { mode := .loader }, sys := { isSealed := true } }
def wLoadSanB : State := { wLoadB with sec := { sanitize := 2 } }
theorem wit_StartOutcomes (h : Obligations.StartOutcomes) :
    Answers (.xtalQualified wEnvB) wStrapB (fun _ => True) ∧
    Answers (.xtalQualified { wEnvB with calOk := false }) wStrapB (fun _ => True) ∧
    Answers (.xtalQualified { wEnvB with injectFail := [0] }) wStrapB (fun _ => True) ∧
    Answers .startReady wLoadB (fun _ => True) ∧
    Answers .startReady wLoadSanB (fun _ => True) ∧
    Answers .startReady base (fun _ => True) := by
  refine ⟨met (h.1 wStrapB wEnvB ?_ ?_ ?_ ?_ ?_ ?_ ?_ ?_ ?_),
    met (h.2.1 wStrapB { wEnvB with calOk := false } ?_ ?_ ?_ ?_ ?_),
    met (h.2.2.1 wStrapB { wEnvB with injectFail := [0] } ?_ ?_ ?_ ?_ ?_ ?_ ?_ ?_),
    met (h.2.2.2.1 wLoadB ?_ ?_ ?_ ?_),
    met (h.2.2.2.2.1 wLoadSanB ?_ ?_ ?_ ?_),
    met (h.2.2.2.2.2 base ?_)⟩ <;>
    first
    | decide +kernel

def wRingB : Ring := { base := 0x1000, prod := 0x10, cons := 0x20, cpl := 0x4000, ccons := 0x30 }
def wRingOffB : State := { base with regs := [(SYS_RING_SEL, 7)], sys := { rings := [(7, wRingB)] }, mem := [(0x20, 5), (0x40, 1)] }
def wRingOnB : State := { wRingOffB with sys := { rings := [(7, { wRingB with st := .on })] } }
def wRingErrB : State := { wRingOffB with sys := { rings := [(7, { wRingB with st := .error })] } }
def wRingDrainB : State := { wRingOffB with sys := { rings := [(7, { wRingB with st := .draining })] } }
theorem wit_Rings (h : Obligations.Rings) :
    Answers (.ringEnable 0x00040400) wRingOffB (fun _ => True) ∧
    Answers (.ringEnable 1) wRingDrainB (fun _ => True) ∧
    Answers (.ringEnable 1) wRingOnB (fun _ => True) ∧
    Answers (.ringEnable 1) wRingErrB (fun _ => True) ∧
    Answers (.ringDisable 0) wRingOnB (fun _ => True) ∧
    Answers (.ringDisable 0) wRingErrB (fun _ => True) ∧
    Answers (.ringDrainEnd 7) wRingDrainB (fun _ => True) ∧
    Answers (.ringDrainEnd 7) wRingOnB (fun _ => True) := by
  refine ⟨met (h.1 wRingOffB 0x00040400 { wRingB with cplLog2 := 4, descLog2 := 4 } ?_ ?_ ?_ ?_ ?_),
    met (h.2.1 wRingDrainB 1 ?_ ?_),
    met (h.2.1 wRingOnB 1 ?_ ?_),
    met (h.2.1 wRingErrB 1 ?_ ?_),
    met (h.2.2.1 wRingOnB 0 ?_ ?_),
    met (h.2.2.1 wRingErrB 0 ?_ ?_),
    met (h.2.2.2.1 wRingDrainB 7 ?_ ?_ ?_ ?_),
    met (h.2.2.2.2 wRingOnB 7 ?_)⟩ <;>
    first
    | decide +kernel

def wGpioB : State := { base with regs := [(SYS_GPIO_EDGE, 3)] }
theorem wit_ProfileAndGpio (h : Obligations.ProfileAndGpio) :
    Answers (.profileWrite 1) {} (fun _ => True) ∧
    Answers (.profileWrite 1) base (fun _ => True) ∧
    Answers (.profileWrite 1) { sys := { isSealed := true } } (fun _ => True) ∧
    Answers (.gpioEdge 0 true) wGpioB (fun _ => True) ∧
    Answers (.gpioEdge 15 true) wGpioB (fun _ => True) := by
  refine ⟨met (h.1 {} 1 ?_ ?_),
    met (h.2.1 base 1 ?_),
    met (h.2.2.1 { sys := { isSealed := true } } 1 ?_ ?_),
    met (h.2.2.2.1 wGpioB 0 true ?_ ?_ ?_),
    met (h.2.2.2.2 wGpioB 15 true ?_ ?_ ?_)⟩ <;>
    first
    | decide +kernel

def wGateC : State := { base with clk := { gates := [(0, .off), (1, .off), (2, .off), (3, .off), (4, .off), (5, .off), (6, .off), (7, .draining), (8, .pending)] } }
def wGatePC : State := { base with clk := { gates := [(0, .draining), (1, .off)] } }
theorem wit_Gates (h : Obligations.Gates) :
    Answers (.gateOn 1) wGateC (fun _ => True) ∧
    Answers (.gateOn 1) wGatePC (fun _ => True) ∧
    Answers (.gateOff 30) base (fun _ => True) ∧
    Answers (.gateOff 0) base (fun _ => True) ∧
    Answers (.gateOff 10) base (fun _ => True) ∧
    Answers (.gateDrainEnd 7) wGateC (fun _ => True) ∧
    Answers (.gateDrainEnd 8) wGateC (fun _ => True) ∧
    Answers (.pllRelocked 8) wGateC (fun _ => True) ∧
    Answers (.aclkFreqWrite 6) wGateC (fun _ => True) := by
  refine ⟨met (h.1 wGateC 1 ?_ ?_ ?_),
    met (h.1 wGatePC 1 ?_ ?_ ?_),
    met (h.2.1 base 30 ?_ ?_ ?_ ?_),
    met (h.2.2.1 base 0 ?_),
    met (h.2.2.1 base 10 ?_),
    met (h.2.2.2.1 wGateC 7 ?_ ?_),
    met (h.2.2.2.2.1 wGateC 8 ?_ ?_),
    met (h.2.2.2.2.2.1 wGateC 8),
    met (h.2.2.2.2.2.2 wGateC 6)⟩ <;>
    first
    | decide +kernel

def wXtalC : State := { base with clk := { xtalOk := true, unlocked := [2, 5], coresStalled := true } }
theorem wit_CrystalAndPlls (h : Obligations.CrystalAndPlls) :
    Answers .xtalLost wXtalC (fun _ => True) ∧
    Answers .xtalLost base (fun _ => True) ∧
    Answers (.pllUnlock 0) wXtalC (fun _ => True) ∧
    Answers (.pllUnlock 13) wXtalC (fun _ => True) ∧
    Answers (.pllUnlock 2) { base with clk := { xtalOk := true } } (fun _ => True) ∧
    Answers (.pllUnlock 5) wXtalC (fun _ => True) ∧
    Answers (.pllRelocked 2) wXtalC (fun _ => True) ∧
    Answers (.pllRelocked 5) wXtalC (fun _ => True) ∧
    Answers (.pllRelocked 3) wXtalC (fun _ => True) ∧
    Answers (.aclkFreqWrite 6) base (fun _ => True) ∧
    Answers (.aclkFreqWrite 24) base (fun _ => True) ∧
    Answers (.aclkFreqWrite 5) base (fun _ => True) ∧
    Answers (.aclkFreqWrite 25) base (fun _ => True) := by
  refine ⟨met (h.1 wXtalC ?_ ?_),
    metEq (h.2.1 base ?_),
    met (h.2.2.1 wXtalC 0 ?_ ?_ ?_),
    met (h.2.2.1 wXtalC 13 ?_ ?_ ?_),
    met (h.2.2.1 { base with clk := { xtalOk := true } } 2 ?_ ?_ ?_),
    metEq (h.2.2.2.1 wXtalC 5 ?_),
    met (h.2.2.2.2.1 wXtalC 2 ?_),
    met (h.2.2.2.2.1 wXtalC 5 ?_),
    metEq (h.2.2.2.2.2.1 wXtalC 3 ?_),
    met (h.2.2.2.2.2.2.1 base 6 ?_ ?_),
    met (h.2.2.2.2.2.2.1 base 24 ?_ ?_),
    met (h.2.2.2.2.2.2.2 base 5 ?_),
    met (h.2.2.2.2.2.2.2 base 25 ?_)⟩ <;>
    first
    | decide +kernel

def wHotC : State := { base with cst := { base.cst with begun := true } }
theorem wit_ThermalSample (h : Obligations.ThermalSample) :
    Answers (.thmSample (List.replicate 16 0)) wHotC (fun _ => True) ∧
    Answers (.thmSample (List.replicate 16 1000)) wHotC (fun _ => True) ∧
    Answers (.thmSample ((List.range 16).map (fun i => (i : Int) * 40))) wHotC (fun _ => True) ∧
    Answers (.thmSample []) base (fun _ => True) := by
  refine ⟨met (h.1 wHotC (List.replicate 16 0) ?_ ?_),
    met (h.1 wHotC (List.replicate 16 1000) ?_ ?_),
    met (h.1 wHotC ((List.range 16).map (fun i => (i : Int) * 40)) ?_ ?_),
    met (h.2 base [] ?_)⟩ <;>
    first
    | decide +kernel

def wTripC : State := { base with thm := { tripped := true } }
theorem wit_ThermalShutdown (h : Obligations.ThermalShutdown) :
    Answers .thermalShutdownPowerOff wTripC (fun _ => True) ∧
    Answers .thermalShutdownPowerOff base (fun _ => True) := by
  refine ⟨met (h.1 wTripC ?_ ?_),
    met (h.2 base ?_)⟩ <;>
    first
    | decide +kernel

def wPfC : State := { base with thm := { pfail := true } }
theorem wit_PowerLoss (h : Obligations.PowerLoss) :
    Answers .pfailFall base (fun _ => True) ∧
    Answers .pfailMramCutoff wPfC (fun _ => True) ∧
    Answers .pfailCleared wPfC (fun _ => True) ∧
    Answers .pfailMramCutoff base (fun _ => True) ∧
    Answers .pfailCleared base (fun _ => True) := by
  refine ⟨met (h.1 base),
    met (h.2.1 wPfC ?_),
    met (h.2.2.1 wPfC ?_),
    met ((h.2.2.2 base ?_).1),
    met ((h.2.2.2 base ?_).2)⟩ <;>
    first
    | decide +kernel

def wFlushCmdD : IoCmd := { sq := 1, cid := 4, nsid := 1, ord := false, kind := .flush }
def wReadCmdD : IoCmd := { sq := 1, cid := 5, nsid := 1, ord := false, kind := .read, slba := 8, nlb := 2 }
def wWriteCmdD : IoCmd := { sq := 1, cid := 6, nsid := 1, ord := false, kind := .write, slba := 0, nlb := 2, data := [17, 18] }
def wBusyD : State := { base with hif := { base.hif with slots := [(1, { cmd := wFlushCmdD }), (2, { cmd := wReadCmdD, started := true }), (3, { cmd := wWriteCmdD, started := true })], aers := [9], events := [(1, 2)], nextCmd := 4 } }
def wResettingD : State := { base with hif := { base.hif with resetting := true, ccEn := false, features := [(0x0B, 1)], shadow := true } }
theorem wit_ControllerResets (h : Obligations.ControllerResets) :
    Answers .controllerReset wBusyD (fun _ => True) ∧
    Answers .functionLevelReset wBusyD (fun _ => True) ∧
    Answers .pciePerst wBusyD (fun _ => True) ∧
    Answers .hotReset wBusyD (fun _ => True) ∧
    Answers .linkDown wBusyD (fun _ => True) ∧
    Answers .controllerResetDone wResettingD (fun _ => True) ∧
    Answers .functionLevelReset {} (fun _ => True) ∧
    Answers .linkDown {} (fun _ => True) := by
  refine ⟨met ((h.1 wBusyD ?_ ?_).1 ?_),
    met ((h.1 wBusyD ?_ ?_).2.1),
    met ((h.1 wBusyD ?_ ?_).2.2.1),
    met ((h.1 wBusyD ?_ ?_).2.2.2),
    met (h.2.1 wBusyD ?_ ?_ ?_),
    met (h.2.2.1 wResettingD ?_ ?_),
    met (h.2.2.2.1 {} ?_ ?_ ?_ ?_),
    met (h.2.2.2.2 {} ?_)⟩ <;>
    first
    | decide +kernel

def wDisD : State := { base with hif := { base.hif with ccEn := false, rdy := false, retry := false } }
def wShnD : State := { base with hif := { base.hif with shn := 1, shst := 1, shutGen := 2 }, map := { base.map with ckpt := { base.map.ckpt with gen := 2 } } }
theorem wit_EnableAndShutdown (h : Obligations.EnableAndShutdown) :
    Answers .ccEnSet wDisD (fun _ => True) ∧
    Answers (.linkUp 16 6 false) base (fun _ => True) ∧
    Answers (.linkUp 1 3 true) base (fun _ => True) ∧
    Answers (.ccShutdown 1) base (fun _ => True) ∧
    Answers (.ccShutdown 2) base (fun _ => True) ∧
    Answers .shutdownDone wShnD (fun _ => True) ∧
    Answers .shutdownDone base (fun _ => True) := by
  refine ⟨met (h.1 wDisD ?_ ?_ ?_ ?_),
    met (h.2.1 base 16 6 false ?_ ?_ ?_),
    met (h.2.1 base 1 3 true ?_ ?_ ?_),
    met (h.2.2.1 base 1 ?_ ?_ ?_ ?_),
    met (h.2.2.1 base 2 ?_ ?_ ?_ ?_),
    met (h.2.2.2.1 wShnD ?_ ?_ ?_ ?_),
    met (h.2.2.2.2 base ?_)⟩ <;>
    first
    | decide +kernel

def wIdeD : State := { base with hif := { base.hif with ideRx := [0], ideTx := [0] } }
def wIdeOnD : State := { base with hif := { base.hif with ideRx := [0], ideTx := [0], idePhase := 1 }, regs := [(HIF_IDE_CFG, 1)] }
theorem wit_LinkEncryption (h : Obligations.LinkEncryption) :
    Answers (.ideEnable 0) wIdeD (fun _ => True) ∧
    Answers (.ideEnable 4) wIdeD (fun _ => True) ∧
    Answers (.ideDisable 0) wIdeOnD (fun _ => True) ∧
    Answers (.ideDisable 0) wIdeD (fun _ => True) ∧
    Answers .ideIntegrityFail wIdeOnD (fun _ => True) ∧
    Answers (.ideKeyLoad 8) { wIdeD with hif := { wIdeD.hif with ideStaged := [(HIF_IDE_KEYn 0, 5)] } } (fun _ => True) := by
  refine ⟨met (h.1 wIdeD 0 ?_ ?_ ?_),
    met (h.2.1 wIdeD 4 ?_ ?_),
    met (h.2.2.1 wIdeOnD 0 ?_),
    met (h.2.2.1 wIdeD 0 ?_),
    met (h.2.2.2.1 wIdeOnD ?_),
    met (h.2.2.2.2 { wIdeD with hif := { wIdeD.hif with ideStaged := [(HIF_IDE_KEYn 0, 5)] } } 8 ?_)⟩ <;>
    first
    | decide +kernel

def wCqeD : Cqe := { sq := 1, cid := 7, sct := 0, sc := 0, dw0 := 0 }
def wCqFullD : Cq := { depth := 64, vector := 1, free := 0, held := [wCqeD, wCqeD], head := 5 }
def wCqHeldD : State := { base with hif := { base.hif with cqs := [(0, { depth := 4096, vector := 0, free := 4095 }), (1, wCqFullD)] } }
def wShadowD : State := { base with hif := { base.hif with shadow := true } }
theorem wit_Doorbells (h : Obligations.Doorbells) :
    Answers (.sqTailDoorbell 1 ⟨63, 99⟩) base (fun _ => True) ∧
    Answers (.cqHeadDoorbell 1 ⟨7, 99⟩) wCqHeldD (fun _ => True) ∧
    Answers (.sqTailDoorbell 1 ⟨99, 63⟩) wShadowD (fun _ => True) ∧
    Answers (.shadowDoorbellSweep [(1, 63)] []) wShadowD (fun _ => True) ∧
    Answers (.hifCqStall 1) wCqHeldD (fun _ => True) ∧
    Answers (.hifCqStall 1) base (fun _ => True) := by
  refine ⟨met (h.1 base 1 63 99 { depth := 64, cq := 1 } ?_ ?_ ?_ ?_),
    met (h.2.1 wCqHeldD 1 7 7 99 wCqFullD ?_ ?_ ?_ rfl ?_ ?_ ?_ ?_ ?_),
    met (h.1 wShadowD 1 99 63 { depth := 64, cq := 1 } ?_ ?_ ?_ ?_),
    met (h.2.2.1 wShadowD 1 63 { depth := 64, cq := 1 } ?_ ?_ ?_ ?_ ?_ ?_ ?_),
    met (h.2.2.2.1 wCqHeldD 1 wCqFullD ?_ ?_ ?_),
    met (h.2.2.2.2 base 1 { depth := 64, vector := 1, free := 63 } ?_ ?_)⟩ <;>
    first
    | decide +kernel

def wHdrD : IoHdr := { sq := 1, cid := 4, nsid := 1, ord := false }
def wFetchD : State := { base with hif := { base.hif with sqs := [(1, { depth := 64, cq := 1, tail := 2 })] } }
def wLookD : State := { base with hif := { base.hif with sqs := [(1, { depth := 64, cq := 1, tail := 2, look := some { wFlushCmdD with ord := true } })], slots := [(1, { cmd := wReadCmdD, started := true })], nextCmd := 2 } }
def wOrdD : State := { base with hif := { base.hif with slots := [(1, { cmd := { wFlushCmdD with ord := true, active := true } })], nextCmd := 2 } }
theorem wit_FetchAndFlush (h : Obligations.FetchAndFlush) :
    Answers (.flush wHdrD) wFetchD (fun _ => True) ∧
    Answers (.flush wHdrD) wLookD (fun _ => True) ∧
    Answers (.lookaheadRelease 1) wLookD (fun _ => True) ∧
    Answers (.orderedCommandStart 1) wOrdD (fun _ => True) := by
  refine ⟨met (h.1 wFetchD wHdrD { depth := 64, cq := 1, tail := 2 } ?_ ?_ ?_ ?_ ?_ ?_),
    met (h.2.1 wLookD wHdrD { depth := 64, cq := 1, tail := 2, look := some { wFlushCmdD with ord := true } } _ ?_ rfl),
    met (h.2.2.1 wLookD 1 { depth := 64, cq := 1, tail := 2, look := some { wFlushCmdD with ord := true } } { wFlushCmdD with ord := true } ?_ ?_ ?_ ?_ ?_),
    met (h.2.2.2 wOrdD 1 { cmd := { wFlushCmdD with ord := true, active := true } } { depth := 64, cq := 1 } ?_ ?_ ?_ ?_ ?_ ?_ ?_ ?_ ?_ ?_ ?_ ?_ ?_ ?_)⟩ <;>
    first
    | decide +kernel
    | exact cqRoom_of (by decide +kernel)
    | exact fetches_of (by decide +kernel)

theorem wit_WritesAndUnmaps (h : Obligations.WritesAndUnmaps) :
    Answers (.write wHdrD 0 2 0 0 [1, 2]) wFetchD (fun _ => True) ∧
    Answers (.writeZeroes wHdrD 0 65536) wFetchD (fun _ => True) ∧
    Answers (.datasetManagement wHdrD true [(0, 4096), (8192, 1)]) wFetchD (fun _ => True) ∧
    Answers (.writeZeroes wHdrD 262144 1) wFetchD (fun _ => True) := by
  refine ⟨met (h.1 wFetchD wHdrD 0 2 [1, 2] _ rfl ?_ ?_ ?_ ?_ ?_ ?_ ?_),
    met (h.2.1 wFetchD wHdrD 0 65536 _ rfl ?_ ?_ ?_ ?_ ?_ ?_ ?_ ?_ ?_),
    met (h.2.2.1 wFetchD wHdrD [(0, 4096), (8192, 1)] _ rfl ?_ ?_ ?_ ?_ ?_ ?_ ?_ ?_ ?_),
    met (h.2.2.2 wFetchD wHdrD 262144 1 { depth := 64, cq := 1, tail := 2 } _ rfl ?_ ?_ ?_ ?_ ?_ ?_ ?_ ?_)⟩ <;>
    first
    | decide +kernel
    | (unfold IndexUnclaimed; decide +kernel)
    | exact cqRoom_of (by decide +kernel)
    | exact fetches_of (by decide +kernel)

def wReadDoneD : State := { base with hif := { base.hif with slots := [(1, { cmd := wReadCmdD, started := true, got := [(0, 3), (1, 4)] }), (2, { cmd := { wReadCmdD with cid := 8 }, started := true, status := Ev.FLC_UNCORRECTABLE, nvme := (2, 0x81) }), (3, { cmd := { wReadCmdD with cid := 9 }, started := true })], nextCmd := 4 }, flc := { reads := [(1, { use := .host 3 0, cls := .d, page := 0, cw := 0 })] } }
theorem wit_Reads (h : Obligations.Reads) :
    Answers (.read wHdrD 0 256) wFetchD (fun _ => True) ∧
    Answers (.readCompletion 1) wReadDoneD (fun _ => True) ∧
    Answers (.readCompletion 2) wReadDoneD (fun _ => True) ∧
    Answers (.readCompletion 3) wReadDoneD (fun _ => True) := by
  refine ⟨met (h.1 wFetchD wHdrD 0 256 _ ?_ rfl ?_ ?_ ?_ ?_ ?_ ?_ ?_ ?_),
    met (h.2.1 wReadDoneD 1 { cmd := wReadCmdD, started := true, got := [(0, 3), (1, 4)] } { depth := 64, cq := 1 } ?_ ?_ ?_ ?_ ?_ ?_ ?_ ?_ ?_ ?_),
    met (h.2.2.1 wReadDoneD 2 { cmd := { wReadCmdD with cid := 8 }, started := true, status := Ev.FLC_UNCORRECTABLE, nvme := (2, 0x81) } ?_ ?_ ?_ ?_ ?_ ?_ ?_),
    met (h.2.2.2 wReadDoneD 3 ?_)⟩ <;>
    first
    | decide +kernel
    | (unfold NotFleet; decide +kernel)
    | exact cqRoom_of (by decide +kernel)
    | exact fetches_of (by decide +kernel)

def wWriteSlotD : Slot := { cmd := wWriteCmdD, started := true, stream := 1 }
def wAcceptD : State := { base with hif := { base.hif with slots := [(1, wWriteSlotD)], nextCmd := 2 } }
def wStageD : Slot := { wWriteSlotD with accept := 5 }
def wIdxD : IdxEntry := { accept := 5, nsid := 1, slba := 0, nlb := 2, zero := false, data := [17, 18] }
def wStagingD : State := { base with hif := { base.hif with slots := [(1, wStageD)], nextCmd := 2, nextAccept := 6, index := [(1024, wIdxD)] } }
theorem wit_WriteAcceptance (h : Obligations.WriteAcceptance) :
    Answers (.writeAccepted 1) wAcceptD (fun _ => True) ∧
    Answers (.stagingComplete 1) wStagingD (fun _ => True) ∧
    Answers (.writeAccepted 7) base (fun _ => True) ∧
    Answers (.stagingComplete 7) base (fun _ => True) := by
  refine ⟨met (h.1 wAcceptD 1 wWriteSlotD ?_ ?_ ?_ ?_ ?_),
    met (h.2.1 wStagingD 1 wStageD wIdxD ?_ ?_ ?_ ?_ ?_ ?_ ?_),
    met ((h.2.2 base 7 ?_).1),
    met ((h.2.2 base 7 ?_).2)⟩ <;>
    first
    | decide +kernel
    | (unfold NotFleet; decide +kernel)

def wCq2D : State := { base with hif := { base.hif with cqs := base.hif.cqs ++ [(2, { depth := 2, vector := 0, free := 1 })] } }
theorem wit_IoQueues (h : Obligations.IoQueues) :
    Answers (.createIoSq 3 2 2 1 true) base (fun _ => True) ∧
    Answers (.createIoSq 3 32768 65536 1 true) base (fun _ => True) ∧
    Answers (.createIoSq 3 1 64 1 true) base (fun _ => True) ∧
    Answers (.createIoCq 3 2 2 2047 true) base (fun _ => True) ∧
    Answers (.deleteIoSq 3 1) wBusyD (fun _ => True) ∧
    Answers (.deleteIoCq 3 2) wCq2D (fun _ => True) := by
  refine ⟨met (h.1 base 3 2 2 1 ?_ ?_ ?_ ?_ ?_ ?_ ?_ ?_),
    met (h.1 base 3 32768 65536 1 ?_ ?_ ?_ ?_ ?_ ?_ ?_ ?_),
    met (h.2.1 base 3 1 64 1 ?_ ?_),
    met (h.2.2.1 base 3 2 2 2047 ?_ ?_ ?_ ?_ ?_ ?_ ?_),
    met (h.2.2.2.1 wBusyD 3 1 ?_ ?_ ?_),
    met (h.2.2.2.2 wCq2D 3 2 ?_ ?_ ?_ ?_)⟩ <;>
    first
    | decide +kernel
    | exact adminServes_of (by decide +kernel)

def wMaskedE : State := { base with hif := { base.hif with masked := [(0, 2), (7, 0xC4)] } }
def wComE : State := { base with cst := { mode := .commissioning } }
theorem wit_AdminReads (h : Obligations.AdminReads) :
    Answers (.identify 3 1 0) base (fun _ => True) ∧
    Answers (.getLogPage 3 2 4 8 false) base (fun _ => True) ∧
    Answers (.getLogPage 3 2 0 8 false) wMaskedE (fun _ => True) ∧
    Answers (.getLogPage 3 2 512 8 true) wMaskedE (fun _ => True) ∧
    Answers (.getFeatures 3 ⟨0x0E, 7⟩) base (fun _ => True) ∧
    Answers (.getFeatures 3 ⟨0x0B, 0⟩) base (fun _ => True) ∧
    Answers (.getFeatures 3 ⟨4, 0x100000⟩) base (fun _ => True) ∧
    Answers (.getFeatures 3 ⟨4, 0x80000⟩) base (fun _ => True) ∧
    Answers (.directiveReceive 3 1 1 2) base (fun _ => True) ∧
    Answers (.directiveReceive 3 1 1 3) base (fun _ => True) ∧
    Answers (.directiveSend 3 1 1 2 0) base (fun _ => True) ∧
    Answers (.getFeatures 3 ⟨1, 0⟩) wComE (fun _ => True) ∧
    Answers (.setFeatures 3 1 0) wComE (fun _ => True) ∧
    Answers (.namespaceCreate 3 4096 4096) wComE (fun _ => True) := by
  refine ⟨met (h.1 base 3 1 0 _ ?_ ?_ rfl),
    met (h.2.1 base 3 2 4 8 512 false ?_ ?_ ?_ ?_),
    met (h.2.1 wMaskedE 3 2 0 8 512 false ?_ ?_ ?_ ?_),
    met (h.2.1 wMaskedE 3 2 512 8 512 true ?_ ?_ ?_ ?_),
    met (h.2.2.1 base 3 7 ?_),
    met (h.2.2.2.1 base 3 0x0B 0 ?_ ?_),
    met (h.2.2.2.2.1 base 3 0x100000 ?_),
    met (h.2.2.2.2.1 base 3 0x80000 ?_),
    met ((h.2.2.2.2.2.1 base 3 1 ?_ ?_).1),
    met ((h.2.2.2.2.2.1 base 3 1 ?_ ?_).2.1),
    met ((h.2.2.2.2.2.1 base 3 1 ?_ ?_).2.2),
    met ((h.2.2.2.2.2.2 wComE 3 1 0 0 4096 ?_ ?_ ?_).1),
    met ((h.2.2.2.2.2.2 wComE 3 1 0 0 4096 ?_ ?_ ?_).2.1),
    met ((h.2.2.2.2.2.2 wComE 3 1 0 0 4096 ?_ ?_ ?_).2.2)⟩ <;>
    first
    | decide +kernel
    | exact cqRoom_of (by decide +kernel)
    | exact adminServes_of (by decide +kernel)

def wEventE : State := { base with hif := { base.hif with events := [(7 * 256 + 1, 0xC4), (0, 1)] } }
def wAerE : State := { base with hif := { base.hif with aers := [9, 10] } }
def wDbOnE : State := { base with regs := [(HIF_CFG, 4)] }
def wDbOffE : State := { base with regs := [(HIF_CFG, 0)] }
def wSelfE : State := { base with hif := { base.hif with selfTest := some { extended := true, nsid := 1 }, selfResults := List.replicate 20 (0, 1, 0) } }
def wSelfReadE : State := { wSelfE with flc := { wSelfE.flc with reads := [(4, { use := .selfTest 7, cls := .d, page := 0, cw := 0 })] } }
theorem wit_AdminSettings (h : Obligations.AdminSettings) :
    Answers (.setFeatures 3 0x0B 7) base (fun _ => True) ∧
    Answers (.setFeatures 3 7 65534) base (fun _ => True) ∧
    Answers (.asynchronousEventRequest 3) base (fun _ => True) ∧
    Answers (.asynchronousEventRequest 3) wEventE (fun _ => True) ∧
    Answers (.abort 3 0 9) wAerE (fun _ => True) ∧
    Answers (.abort 3 1 9) base (fun _ => True) ∧
    Answers (.doorbellBufferConfig 3) wDbOnE (fun _ => True) ∧
    Answers (.doorbellBufferConfig 3) wDbOffE (fun _ => True) ∧
    Answers (.selfTestShort 3 0xFFFFFFFF) base (fun _ => True) ∧
    Answers (.selfTestExtended 3 1) base (fun _ => True) ∧
    Answers (.selfTestShort 3 0) wSelfE (fun _ => True) ∧
    Answers (.selfTestAbort 3) wSelfE (fun _ => True) ∧
    Answers (.selfTestEnd { failSeg := some 6, corrected := 15 }) wSelfE (fun _ => True) ∧
    Answers (.selfTestEnd { failSeg := some 6, corrected := 15 }) wSelfReadE (fun _ => True) ∧
    Answers (.selfTestEnd { failSeg := none, corrected := 0 }) wSelfE (fun _ => True) ∧
    Answers (.selfTestEnd { failSeg := none, corrected := 0 }) wSelfReadE (fun _ => True) ∧
    Answers (.selfTestEnd { failSeg := none, corrected := 0 }) base (fun _ => True) := by
  refine ⟨met (h.1 base 3 0x0B 7 ?_ ?_),
    met (h.2.1 base 3 65534 0 ?_ ?_ ?_),
    met (h.2.2.1 base 3 ?_ ?_ ?_),
    met (h.2.2.2.1 wEventE 3 (7 * 256 + 1, 0xC4) [(0, 1)] ?_ ?_ ?_ ?_ ?_ ?_),
    met (h.2.2.2.2.1 wAerE 3 9 { depth := 4096, vector := 0, free := 4095 } ?_ ?_ ?_ ?_),
    met (h.2.2.2.2.2.1 base 3 1 9 ?_ ?_ ?_ (fun _ hq => by cases hq; rfl)),
    met (h.2.2.2.2.2.2.1 wDbOnE 3 ?_ ?_),
    met (h.2.2.2.2.2.2.2.1 wDbOffE 3 ?_ ?_),
    met ((h.2.2.2.2.2.2.2.2.1 base 3 0xFFFFFFFF ?_ ?_ ?_).1),
    met ((h.2.2.2.2.2.2.2.2.1 base 3 1 ?_ ?_ ?_).2),
    met (h.2.2.2.2.2.2.2.2.2.1 wSelfE 3 0 ?_ ?_),
    met (h.2.2.2.2.2.2.2.2.2.2.1 wSelfE 3 { extended := true, nsid := 1 } ?_ ?_),
    met (h.2.2.2.2.2.2.2.2.2.2.2.1 wSelfE { extended := true, nsid := 1 } { failSeg := some 6, corrected := 15 } ?_ ?_ ?_ (fun e => absurd e ?_)),
    met (h.2.2.2.2.2.2.2.2.2.2.2.1 wSelfReadE { extended := true, nsid := 1 } { failSeg := some 6, corrected := 15 } ?_ ?_ ?_ (fun e => absurd e ?_)),
    met (h.2.2.2.2.2.2.2.2.2.2.2.1 wSelfE { extended := true, nsid := 1 } { failSeg := none, corrected := 0 } ?_ ?_ ?_ (fun _ _ hp => absurd hp List.not_mem_nil)),
    met (h.2.2.2.2.2.2.2.2.2.2.2.2.1 wSelfReadE { extended := true, nsid := 1 } { failSeg := none, corrected := 0 } ?_ ?_ (⟨_, List.mem_singleton.2 rfl, 7, rfl⟩)),
    met (h.2.2.2.2.2.2.2.2.2.2.2.2.2 base { failSeg := none, corrected := 0 } ?_)⟩ <;>
    first
    | decide +kernel
    | exact adminServes_of (by decide +kernel)

def wNsE : State := { base with map := { base.map with segLimit := 4096, segs := [(0, { kind := .extent 4096 9 0 0, nsid := 1, nsseg := 0 }), (64, { kind := .unmapped, nsid := 2, nsseg := 0 })] } }
def wBigRecE : MapRec := { lsn := 0, ty := .write, place := 0, len := ringBytes - 64, accept := 0, cmd := 0, ops := [] }
def wFullE : State := { wNsE with map := { wNsE.map with log := [wBigRecE] } }
def wFlushCmdE : IoCmd := { sq := 1, cid := 4, nsid := 1, ord := false, kind := .flush }
def wReadCmdE : IoCmd := { sq := 1, cid := 5, nsid := 1, ord := false, kind := .read, slba := 8, nlb := 2 }
def wWriteCmdE : IoCmd := { sq := 1, cid := 6, nsid := 1, ord := false, kind := .write, slba := 0, nlb := 2, data := [17, 18] }
def wBusyNE : State := { wNsE with hif := { base.hif with slots := [(1, { cmd := wFlushCmdE }), (2, { cmd := wReadCmdE, started := true }), (3, { cmd := wWriteCmdE, started := true })], nextCmd := 4 } }
def wDetE : State := { base with map := { base.map with dir := [(1, { groups := [0], segs := 64, attached := false, key := 1 })] } }
def wQuietE : State := { base with cst := { mode := .quiesce } }
theorem wit_Namespaces (h : Obligations.Namespaces) :
    Answers (.namespaceCreate 3 4096 4096) wNsE (fun _ => True) ∧
    Answers (.namespaceCreate 3 (4096 * 65) (4096 * 65)) wNsE (fun _ => True) ∧
    Answers (.namespaceCreate 3 4097 4097) wNsE (fun _ => True) ∧
    Answers (.namespaceCreate 3 4096 4096) wFullE (fun _ => True) ∧
    Answers (.namespaceDelete 3 1) wNsE (fun _ => True) ∧
    Answers (.namespaceDelete 3 1) wBusyNE (fun _ => True) ∧
    Answers (.namespaceAttach 3 1 [1]) wDetE (fun _ => True) ∧
    Answers (.namespaceDetach 3 1 [1]) base (fun _ => True) ∧
    Answers (.formatNvm 3 1 2 0) wBusyNE (fun _ => True) ∧
    Answers (.formatNvm 3 1 1 0) base (fun _ => True) ∧
    Answers (.formatNvm 3 1 2 0) wQuietE (fun _ => True) := by
  refine ⟨met (h.1 wNsE 3 4096 2 ?_ ?_ ?_ ?_ ?_ ?_ ?_ ?_ ?_ ?_ ?_),
    met (h.1 wNsE 3 (4096 * 65) 2 ?_ ?_ ?_ ?_ ?_ ?_ ?_ ?_ ?_ ?_ ?_),
    met (h.2.1 wNsE 3 4097 ?_ ?_),
    met (h.2.2.1 wFullE 3 4096 2 ?_ ?_ ?_ ?_ ?_ ?_ ?_),
    met (h.2.2.2.1 wNsE 3 1 { groups := [0], segs := 64, attached := true, key := 1 } ?_ ?_ ?_ ?_ ?_ ?_ ?_ ?_ ?_ ?_ ?_),
    met (h.2.2.2.1 wBusyNE 3 1 { groups := [0], segs := 64, attached := true, key := 1 } ?_ ?_ ?_ ?_ ?_ ?_ ?_ ?_ ?_ ?_ ?_),
    met ((h.2.2.2.2.1 wDetE 3 1 { groups := [0], segs := 64, attached := false, key := 1 } ?_ ?_).1 ?_),
    met ((h.2.2.2.2.1 base 3 1 { groups := [0], segs := 64, attached := true, key := 1 } ?_ ?_).2 ?_),
    met (h.2.2.2.2.2.1 wBusyNE 3 1 2 ?_ ?_ ?_ ?_ ?_ ?_ ?_),
    met (h.2.2.2.2.2.2.1 base 3 1 { groups := [0], segs := 64, attached := true, key := 1 } ?_ ?_ ?_ ?_ ?_ ?_ ?_ ?_ ?_ ?_),
    met (h.2.2.2.2.2.2.2 wQuietE 3 1 2 ?_ ?_ ?_ ?_ ?_)⟩ <;>
    first
    | decide +kernel
    | exact adminServes_of (by decide +kernel)

def wMgmtE : State := { base with regs := [(HIF_CFG, 2)] }
def wVendE : Vend := { cid := 9, nsid := 0, prp2 := 0, opcode := 0x0305, flags := 0, rspec := 0, rsv := false, body := [1, 2] }
theorem wit_VendorCommands (h : Obligations.VendorCommands) :
    Answers (.open_ (.admin 3) 9 1 1) base (fun _ => True) ∧
    Answers (.streamManage wVendE) wMgmtE (fun _ => True) ∧
    Answers (.memberManage { wVendE with opcode := 0x0703 }) wMgmtE (fun _ => True) ∧
    Answers (.fleetManage { wVendE with opcode := 0x0801 }) wMgmtE (fun _ => True) ∧
    Answers (.lanternControl { wVendE with opcode := 0x1001 }) wMgmtE (fun _ => True) ∧
    Answers (.streamManage wVendE) wDbOffE (fun _ => True) := by
  refine ⟨met (h.1 base (.open_ (.admin 3) 9 1 1) (.admin 3) 9 0x0301 _ rfl ?_),
    met ((h.2 wMgmtE wVendE ?_).1 ?_ ?_ ?_ ?_ ?_ ?_ (.streamManage wVendE, 0x03) ?_ ?_),
    met ((h.2 wMgmtE { wVendE with opcode := 0x0703 } ?_).1 ?_ ?_ ?_ ?_ ?_ ?_ (.memberManage { wVendE with opcode := 0x0703 }, 0x07) ?_ ?_),
    met ((h.2 wMgmtE { wVendE with opcode := 0x0801 } ?_).1 ?_ ?_ ?_ ?_ ?_ ?_ (.fleetManage { wVendE with opcode := 0x0801 }, 0x08) ?_ ?_),
    met ((h.2 wMgmtE { wVendE with opcode := 0x1001 } ?_).1 ?_ ?_ ?_ ?_ ?_ ?_ (.lanternControl { wVendE with opcode := 0x1001 }, 0x10) ?_ ?_),
    met ((h.2 wDbOffE wVendE ?_).2 ?_ (.streamManage wVendE) ?_)⟩ <;>
    first
    | decide +kernel
    | exact adminServes_of (by decide +kernel)

def wCryptE : Crypt := { keyOk := true, sigOk := true, digestOk := true }
def wManifestE (kind : Nat) : List Byte := le 4 0x4E4D494D ++ le 2 1 ++ le 2 0x0960 ++ [0, toByte kind, 0, 0] ++ (if kind = 2 then le 2 1 ++ le 2 1 else [0, 0, 0, 0]) ++ le 8 77 ++ le 4 0
def wCommitE : Commit := { src := .host 7, action := 0, slot := 2, img := some (parseImage (padTo 1024 (wManifestE 2))) }
def wCommittingE : State := { base with cst := { mode := .service, commit := some wCommitE } }
def wBufferE : State := { base with cst := { mode := .service, buffer := [(0, wManifestE 2)] } }
def wStoredE : ImgSlot := { st := .committed, img := some (parseImage (padTo 1024 (wManifestE 2))) }
def wSlotsE : State := { base with cst := { mode := .service, slots := [{}, wStoredE, {}, {}, {}] } }
def wImageLeftE : SysCw := { item := .image 12 0, data := some (blockOf [7]) }
def wWritingE : State := { wCommittingE with cst := { wCommittingE.cst with commit := some { wCommitE with slot := 4, img := some (parseImage (padTo 1024 (wManifestE 3))) } }, bnd := { base.bnd with sysTodo := [wImageLeftE] }, sec := { base.sec with otpOwner := some 1 } }
def wActingE : State := { wSlotsE with cst := { wSlotsE.cst with mode := .quiesce, actRunning := true, actStage := 3, actSlots := [2] }, hif := { base.hif with pp := true } }
theorem wit_FirmwareUpdate (h : Obligations.FirmwareUpdate) :
    Answers (.firmwareImageDownload 3 4096 [1, 2]) base (fun _ => True) ∧
    Answers (.firmwareImageDownload 3 4096 [1, 2]) wCommittingE (fun _ => True) ∧
    Answers (.commitStore (.host 7) 2) wBufferE (fun _ => True) ∧
    Answers (.commitMarkPending (.host 7) 2) wSlotsE (fun _ => True) ∧
    Answers (.commitEnd wCryptE true) wCommittingE (fun _ => True) ∧
    Answers (.commitEnd wCryptE true) wWritingE (fun _ => True) ∧
    Answers (.commitEnd { wCryptE with sigOk := false } true) wCommittingE (fun _ => True) ∧
    Answers .activationDone wActingE (fun _ => True) ∧
    Answers .activationDone base (fun _ => True) := by
  refine ⟨met (h.1 base 3 4096 [1, 2] ?_ ?_ ?_ ?_ |>.1 ?_),
    met (h.1 wCommittingE 3 4096 [1, 2] ?_ ?_ ?_ ?_ |>.2 wCommitE 7 rfl ?_),
    met (h.2.1 wBufferE 7 2 _ ?_ ?_ ?_ rfl ?_ ?_ ?_ ?_ (.commitStore (.host 7) 2, 0) ?_),
    met (h.2.2.1 wSlotsE 7 2 ?_ ?_ ?_ ?_ ?_ ?_ ?_ ?_ ?_ ?_),
    met (h.2.2.2.1 wCommittingE 7 wCommitE (parseImage (padTo 1024 (wManifestE 2))) wCryptE ?_ rfl ?_ ?_ rfl ?_ ?_ ?_ ?_ ?_ ?_ ?_ ?_ ?_ ?_),
    met (h.2.2.2.2.1 wWritingE wCryptE true ?_ ?_),
    met (h.2.2.2.2.2.1 wCommittingE 7 wCommitE (parseImage (padTo 1024 (wManifestE 2))) { wCryptE with sigOk := false } true ?_ rfl ?_ rfl ?_ ?_ ?_ ?_),
    met (h.2.2.2.2.2.2.1 wActingE 2 ?_ ?_ ?_ ?_ ?_ ?_ ?_ ?_),
    met (h.2.2.2.2.2.2.2 base ?_)⟩ <;>
    first
    | decide +kernel
    | exact cqRoom_of (by decide +kernel)

def wOsE : State := { base with cst := { mode := .service, osSlot := 4, bootCount := 2, slots := [{}, {}, {}, { st := .active }, {}] } }
def wProgE : State := { base with cst := { mode := .service, programmed := [12 * 32768 + 32767, 12 * 32768 + 5], banks := [(12, { erase := none }), (3, { erase := some 15 }), (4, { erase := some 0, suspended := true })] } }
def wDogRaiseE : State := { base with cpx := { base.cpx with wdogArmed := true }, regs := [(CPX_CFG, 0x00101010)] }
def wDogResetE : State := { base with cpx := { base.cpx with wdogArmed := true }, regs := [(CPX_CFG, 0x00101011)] }
def wBootE : State := { base with regs := [(CST_CFG, 0x000A0000)] }
def wBootLateE : State := { wBootE with tck := { base.tck with now := 10000000000 } }
theorem wit_CodeStore (h : Obligations.CodeStore) :
    Answers (.bootConfirm 1) wOsE (fun _ => True) ∧
    Answers (.osWatchdogWrite 5) base (fun _ => True) ∧
    Answers (.cstProgramDone 12 32767 true) base (fun _ => True) ∧
    Answers (.cstProgramDone 12 32767 true) wProgE (fun _ => True) ∧
    Answers (.cstEraseDone 3 15 true) wProgE (fun _ => True) ∧
    Answers (.cstEraseResume 4) wProgE (fun _ => True) ∧
    Answers (.cstEraseResume 3) wProgE (fun _ => True) ∧
    Answers .cpxOsWatchdog base (fun _ => True) ∧
    Answers .cpxOsWatchdog wDogRaiseE (fun _ => True) ∧
    Answers .cpxOsWatchdog wDogResetE (fun _ => True) ∧
    Answers .cstBootFailed wBootLateE (fun _ => True) ∧
    Answers .cstBootFailed wBootE (fun _ => True) := by
  refine ⟨met (h.1 wOsE 1 ?_),
    met (h.2.1 base 5),
    met (h.2.2.1 base 12 32767 ?_ ?_ ?_ ?_ ?_),
    met (h.2.2.2.1 wProgE 12 32767 true ?_ ?_ ?_ ?_ ?_),
    met (h.2.2.2.2.1 wProgE 3 15 ?_ ?_ ?_ ?_ ?_ ?_),
    met (h.2.2.2.2.2.1 wProgE 4 ?_ ?_ ?_),
    met (h.2.2.2.2.2.2.1 wProgE 3 ?_),
    met (h.2.2.2.2.2.2.2.1 base ?_),
    met ((h.2.2.2.2.2.2.2.2.1 wDogRaiseE ?_).1 ?_),
    met ((h.2.2.2.2.2.2.2.2.1 wDogResetE ?_).2 ?_ ?_ ?_ ?_ ?_),
    met ((h.2.2.2.2.2.2.2.2.2 wBootLateE ?_ ?_ ?_ ?_).1 ?_),
    met ((h.2.2.2.2.2.2.2.2.2 wBootE ?_ ?_ ?_ ?_).2 ?_)⟩ <;>
    first
    | decide +kernel

def wBlankT : State := { base with sec := { trngOk := true, draws := 5, provArg := 0x1000 }, mem := [(0xFFF, 1), (0x1005, 7), (0x1060, 9)] }
def wKeyedT : State := { base with sec := { trngOk := true, otpSecret := some 4, provArg := 0x1000 }, mem := [(0x1000, 2), (0x1005, 7), (0x1060, 9)] }
def wProvdT : State := { wKeyedT with sec := { otpSecret := some 4, otpDaymark := true, provArg := 0x1000 } }
def wStepsT : State := { base with sec := { steps := [true, true, false, true], mramSecver := 1 } }
theorem wit_Provisioning (h : Obligations.Provisioning) :
    Answers .genSecret wBlankT (fun _ => True) ∧
    Answers .writeDaymark wKeyedT (fun _ => True) ∧
    Answers .setOwner wProvdT (fun _ => True) ∧
    Answers .genSecret wKeyedT (fun _ => True) ∧
    Answers .writeDaymark wBlankT (fun _ => True) ∧
    Answers .setOwner { wProvdT with sys := { isSealed := true } } (fun _ => True) ∧
    Answers (.secverAdvance 64) wStepsT (fun _ => True) ∧
    Answers (.secverAdvance 3) wStepsT (fun _ => True) ∧
    Answers (.secverAdvance 2) wStepsT (fun _ => True) := by
  refine ⟨met ((h.1 wBlankT ?_ ?_ ?_ ?_).1 ?_ ?_ ?_),
    met ((h.1 wKeyedT ?_ ?_ ?_ ?_).2.1 ?_ ?_ ?_ ?_),
    met ((h.1 wProvdT ?_ ?_ ?_ ?_).2.2 ?_ ?_),
    met (h.2.1 wKeyedT (.genSecret, .blank) ?_ ?_ ?_ ?_),
    met (h.2.1 wBlankT (.writeDaymark, .keyed) ?_ ?_ ?_ ?_),
    met (h.2.1 { wProvdT with sys := { isSealed := true } } (.setOwner, .provisioned) ?_ ?_ ?_ ?_),
    met (h.2.2.1 wStepsT 64 ?_ ?_ ?_ ?_),
    met (h.2.2.1 wStepsT 3 ?_ ?_ ?_ ?_),
    met (h.2.2.2 wStepsT 2 ?_)⟩ <;>
    first
    | decide +kernel

def wLaneT : State := { base with sec := { lanes := [{}, { st := .on }, { st := .draining }, { st := .draining, pending := some true }, { st := .testing }, {}, {}, { st := .on }] }, regs := [(SEC_LANE_CTL, 0x82)] }
theorem wit_CipherLanes (h : Obligations.CipherLanes) :
    Answers (.laneEnable 0) wLaneT (fun _ => True) ∧
    Answers (.laneDisable 7) wLaneT (fun _ => True) ∧
    Answers (.laneDrainEnd 2) wLaneT (fun _ => True) ∧
    Answers (.laneDrainEnd 3) wLaneT (fun _ => True) ∧
    Answers (.laneTestEnd 4 true) wLaneT (fun _ => True) ∧
    Answers (.laneTestEnd 4 false) wLaneT (fun _ => True) ∧
    Answers .secTrngFail base (fun _ => True) ∧
    Answers .secTrngFail wLaneT (fun _ => True) := by
  refine ⟨met (h.1 wLaneT 0 ?_ ?_ ?_ ?_ ?_ ?_),
    met (h.2.1 wLaneT 7 ?_ ?_ ?_ ?_ ?_ ?_),
    met ((h.2.2.1 wLaneT 2 1 ?_ ?_ ?_ ?_ ?_ ?_).1 ?_),
    met ((h.2.2.1 wLaneT 3 1 ?_ ?_ ?_ ?_ ?_ ?_).2 ?_),
    met (h.2.2.2.1 wLaneT 4 ?_ ?_ ?_ ?_ ?_),
    met (h.2.2.2.2.1 wLaneT 4 1 ?_ ?_ ?_ ?_ ?_ ?_ ?_ ?_),
    met (h.2.2.2.2.2.1 base ?_),
    met (h.2.2.2.2.2.2 wLaneT ?_)⟩ <;>
    first
    | decide +kernel

def wLockT : State := { base with sec := { base.sec with lockout := true, challenge := some 3 } }
def wChalT : State := { base with sec := { base.sec with challenge := some 5000 } }
def wChalQT : State := { wChalT with cst := { mode := .quiesce }, map := { base.map with segs := [(0, { kind := .lost, nsid := 1, nsseg := 0 })] }, flt := { fnk := 3 } }
def wChal7T : State := { wChalT with regs := [(SEC_UNLOCK_FAIL_CNT, 7)] }
theorem wit_DebugUnlock (h : Obligations.DebugUnlock) :
    Answers .tapChallengeRead base (fun _ => True) ∧
    Answers .tapChallengeRead wLockT (fun _ => True) ∧
    Answers (.tapResponse 1 true true) wChalT (fun _ => True) ∧
    Answers (.tapResponse 2 true true) wChalQT (fun _ => True) ∧
    Answers (.tapResponse 2 true false) wChal7T (fun _ => True) ∧
    Answers (.tapResponse 0 true true) base (fun _ => True) ∧
    Answers .challengeExpiry wChalT (fun _ => True) := by
  refine ⟨met (h.1 base ?_ ?_),
    met (h.2.1 wLockT ?_),
    met (h.2.2.1 wChalT 5000 ?_ ?_ ?_),
    met (h.2.2.2.1 wChalQT 5000 ?_ ?_ ?_ ?_),
    met (h.2.2.2.2.1 wChal7T 2 true false ?_ ?_),
    met (h.2.2.2.2.1 base 0 true true ?_ ?_),
    met (h.2.2.2.2.2 wChalT)⟩ <;>
    first
    | decide +kernel

def wFlushCmdT : IoCmd := { sq := 1, cid := 4, nsid := 1, ord := false, kind := .flush }
def wStartedT : State := { base with hif := { base.hif with slots := [(1, { cmd := wFlushCmdT, started := true })] } }
def wMapT : State := { base with map := { base.map with segs := [(0, { kind := .lost, nsid := 1, nsseg := 0 })] }, flt := { fnk := 3 } }
def wCoveredT : State := { base with flt := { slice := some 1, fstate := .member } }
def wSanT : State := { base with cst := { mode := .quiesce }, sec := { base.sec with sanitize := 1, sanitizeStep := 4 } }
def wSan2T : State := { wSanT with sec := { base.sec with sanitize := 2, sanitizeStep := 4 }, bnd := { base.bnd with bands := [(3, { st := .closed }), (40, { st := .closed }), (41, { st := .retired })] } }
def wSan3T : State := { wSan2T with map := { base.map with running := some { stage := 1 } } }
theorem wit_Sanitize (h : Obligations.Sanitize) :
    Answers (.sanitizeCryptoErase 3) wStartedT (fun _ => True) ∧
    Answers (.sanitizeBlockErase 3) wStartedT (fun _ => True) ∧
    Answers (.sanitizeCryptoErase 3) wMapT (fun _ => True) ∧
    Answers (.sanitizeBlockErase 3) wMapT (fun _ => True) ∧
    Answers (.sanitizeCryptoErase 3) wCoveredT (fun _ => True) ∧
    Answers .sanitizeEnd wSanT (fun _ => True) ∧
    Answers .sanitizeEnd wSan2T (fun _ => True) ∧
    Answers .sanitizeEnd wSan3T (fun _ => True) ∧
    Answers .sanitizeEnd base (fun _ => True) := by
  refine ⟨met (h.1 wStartedT 3 (.sanitizeCryptoErase 3, 1) ?_ ?_ ?_ ?_ ?_ ?_ ?_),
    met (h.1 wStartedT 3 (.sanitizeBlockErase 3, 2) ?_ ?_ ?_ ?_ ?_ ?_ ?_),
    met (h.2.1 wMapT 3 (.sanitizeCryptoErase 3, 1) ?_ ?_ ?_ ?_ ?_ ?_ ?_ ?_),
    met (h.2.1 wMapT 3 (.sanitizeBlockErase 3, 2) ?_ ?_ ?_ ?_ ?_ ?_ ?_ ?_),
    met (h.2.2.1 wCoveredT 3 ?_ ?_ (.sanitizeCryptoErase 3) ?_ ?_),
    met ((h.2.2.2.1 wSanT ?_ ?_ ?_).1 ?_),
    met ((h.2.2.2.1 wSan2T ?_ ?_ ?_).2 ?_),
    met (h.2.2.2.2.1 wSan3T ?_ ?_),
    met (h.2.2.2.2.2 base ?_)⟩ <;>
    first
    | decide +kernel
    | exact adminServes_of (by decide +kernel)

def wSpdmReadyT : State := { base with sec := { base.sec with spdm := .ready [1, 2] } }
def wSpdmFormT : State := { base with sec := { base.sec with spdm := .forming .getVersion } }
def wSpdmWaitT : State := { base with sec := { base.sec with spdm := .forming (.challenge 0), spdmWait := some 3 } }
def wSpdmBankT : State := { wSpdmFormT with sec := { base.sec with spdm := .forming (.getCertificate 0 0 16) }, cst := { mode := .service, banks := [(12, { prog := some 7 })] } }
theorem wit_Spdm (h : Obligations.Spdm) :
    Answers (.securitySend 3 0xE8 .getVersion) wSpdmReadyT (fun _ => True) ∧
    Answers (.securityReceive 3 0xE8) wSpdmReadyT (fun _ => True) ∧
    Answers (.securityReceive 3 0xE8) wSpdmFormT (fun _ => True) ∧
    Answers (.securityReceive 3 0) base (fun _ => True) ∧
    Answers (.spdmReceiveTimeout 3) wSpdmWaitT (fun _ => True) ∧
    Answers .spdmResponseReady wSpdmBankT (fun _ => True) ∧
    Answers .spdmResponseReady wSpdmFormT (fun _ => True) ∧
    Answers .spdmResponseReady wSpdmWaitT (fun _ => True) ∧
    Answers .getVersion base (fun _ => True) ∧
    Answers (.getMeasurements 1 true) base (fun _ => True) ∧
    Answers (.getCertificate 0 0 16) base (fun _ => True) := by
  refine ⟨met (h.1 wSpdmReadyT 3 .getVersion ?_ ?_ ?_ ?_),
    met ((h.2.1 wSpdmReadyT 3 ?_ ?_ ?_).1 [1, 2] ?_),
    met ((h.2.1 wSpdmFormT 3 ?_ ?_ ?_).2.1 .getVersion ?_ ?_),
    met ((h.2.1 base 3 ?_ ?_ ?_).2.2),
    met (h.2.2.1 wSpdmWaitT 3 ?_ ?_),
    met (h.2.2.2.1 wSpdmBankT (.getCertificate 0 0 16) ?_ ?_),
    met ((h.2.2.2.2.1 wSpdmFormT .getVersion ?_ ?_).1 ?_),
    met ((h.2.2.2.2.1 wSpdmWaitT (.challenge 0) ?_ ?_).2 3 ?_ ?_),
    met ((h.2.2.2.2.2.2 base 0 0 16 1 0x42 true ?_ ?_ ?_).1 (.getVersion, .getVersion) ?_),
    met ((h.2.2.2.2.2.2 base 0 0 16 1 0x42 true ?_ ?_ ?_).1 (.getMeasurements 1 true, .getMeasurements 1 true) ?_),
    met ((h.2.2.2.2.2.2 base 0 0 16 1 0x42 true ?_ ?_ ?_).2)⟩ <;>
    first
    | decide +kernel
    | exact cqRoom_of (by decide +kernel)

def wPageF : Page := { band := 40, row := 0, slot := 0, pos := 0, ch := 0, src := .write, cls := .w, stream := 1, nsid := 1, lbas := [(5, 100)], cws := [.data 1 1 100 3 0 77, .pad, .pad, .pad], st := .transferred }
def wBandF : State := { base with bnd := { base.bnd with bands := [(40, { st := .open_, active := List.range 9 })], opens := [(40, {})], pages := [(pageKey 40 0 0 0, wPageF)] } }
def wProgF : State := { wBandF with flc := { targets := [(0, { op := .prog 40 0 })] } }
def wEraseF : State :=
    { base with
      bnd := { base.bnd with bands := [(44, { active := List.range 9 })], erasing := [(44, [0, 1])] }
      flc := { targets := [(0, { op := .erase 44 })], blocks := [(blkKey 0 0 11, { st := .erasing })] } }
theorem wEraseF_others (i : Nat) (x : TOp) (hi : i < wEraseF.flc.profile.tpb)
    (hn : setOf wEraseF 44 * wEraseF.flc.profile.tpb + i ≠ 0)
    (hx : tgtAt wEraseF 0 (setOf wEraseF 44 * wEraseF.flc.profile.tpb + i) = some x) : x.op ≠ .erase 44 := by
  have h2 : i < 2 := hi
  match i, h2 with
  | 0, _ => exact absurd (by decide +kernel) hn
  | 1, _ => cases hx

def wSuspF : State := { wBandF with flc := { targets := [(0, { op := .prog 40 0, ordered := true })] } }
def wRdF : Rd := { use := .host 5 0, cls := .d, page := pageKey 40 0 0 0, cw := 0, nsid := 1, lba := 100, phase := .ready, gen := 1 }
def wSenseF : State := { wBandF with flc := { targets := [(0, { op := .sense 1 })], reads := [(1, { wRdF with phase := .sensing, sense := 1 })] } }
def wProgGoneF : State := { wProgF with mbr := { base.mbr with ports := { wPort 0 with st := .failed } :: ((List.range 9).drop 1).map wPort } }
def wOverF : State := { wProgF with tck := { base.tck with now := 2400001 } }
def wSaidF : State := { wOverF with flc := { targets := [(0, { op := .prog 40 0, overtime := true })] } }
def wJustF : State := { wProgF with tck := { base.tck with now := 2400000 } }
def wHoldF : State := { wProgF with tck := { base.tck with holding := true } }
theorem wit_TargetStatuses (h : Obligations.TargetStatuses) :
    Answers (.programStatus 0 0 true) wProgF (fun _ => True) ∧
    Answers (.eraseStatus 0 0 true) wEraseF (fun _ => True) ∧
    Answers (.suspendStatus 0 0) wSuspF (fun _ => True) ∧
    Answers (.senseComplete 1) wSenseF (fun _ => True) ∧
    Answers (.programStatus 0 0 true) wProgGoneF (fun _ => True) ∧
    Answers (.flcOpOvertime 0 0) wOverF (fun _ => True) ∧
    Answers (.flcOpOvertime 0 0) wJustF (fun _ => True) ∧
    Answers (.flcOpOvertime 0 0) wSaidF (fun _ => True) ∧
    Answers (.programStatus 0 0 true) wHoldF (fun _ => True) ∧
    Answers (.suspendStatus 0 0) base (fun _ => True) := by
  refine ⟨met (h.1 wProgF 0 0 40 0 { op := .prog 40 0 } ?_ ?_ ?_ ?_ ?_ ?_ ?_),
    met (h.2.1 wEraseF 0 0 44 [0, 1] { op := .erase 44 } ?_ ?_ ?_ ?_ ?_ ?_ ?_ ?_ ?_ wEraseF_others),
    met (h.2.2.1 wSuspF 0 0 { op := .prog 40 0, ordered := true } ?_ ?_ ?_ ?_),
    met (h.2.2.2.1 wSenseF 1 0 { op := .sense 1 } { wRdF with phase := .sensing, sense := 1 } ?_ ?_ ?_ ?_ ?_ ?_ ?_ ?_),
    met (h.2.2.2.2.1 wProgGoneF 0 0 40 0 { op := .prog 40 0 } true ?_ ?_ ?_ ?_ ?_ ?_),
    met ((h.2.2.2.2.2.1 wOverF 0 0 2400001 { op := .prog 40 0 } (.prog 40 0) false ?_ ?_).1 ?_ ?_),
    met ((h.2.2.2.2.2.1 wJustF 0 0 2400000 { op := .prog 40 0 } (.prog 40 0) false ?_ ?_).2 (.inr ?_)),
    met ((h.2.2.2.2.2.1 wSaidF 0 0 2400001 { op := .prog 40 0, overtime := true } (.prog 40 0) true ?_ ?_).2 (.inl ?_)),
    met (h.2.2.2.2.2.2.1 wHoldF 0 0 true ?_ (.programStatus 0 0 true) ?_),
    met (h.2.2.2.2.2.2.2 base 0 0 ?_ (.suspendStatus 0 0) ?_)⟩ <;>
    first
    | decide +kernel

def wLaneF : LaneSeen := { tampered := false, mismatch := [], katFail := [] }
def wReadCmdF : IoCmd := { sq := 1, cid := 9, nsid := 1, ord := false, kind := .read, slba := 100, nlb := 2 }
def wDoneF : Page := { wPageF with st := .passed }
def wGoodF : Raw := { ones := 18000, pass := true }
def wBadF : Raw := { ones := 18000, pass := false }
def wReadF : State :=
    { wBandF with
      flc := { reads := [(1, wRdF)] }
      tck := { base.tck with readSlots := [(Cls.d.code, 1)] }
      bnd := { wBandF.bnd with pages := [(pageKey 40 0 0 0, wDoneF)] }
      hif := { base.hif with slots := [(5, { cmd := wReadCmdF, started := true })] } }
def wAskedF : Slot := { cmd := wReadCmdF, started := true }
def wRdLastF : Rd := { wRdF with attempt := 2, shift := -3 }
def wReadLastF : State := { wReadF with flc := { reads := [(1, wRdLastF)] } }
def wReadFullF : State := { wReadLastF with stm := { base.stm with softq := List.replicate 4096 2 } }
def wStrobeF (n : Nat) : Rd := { wRdLastF with strobe := n }
def wStrobe1F : State := { wReadLastF with flc := { reads := [(1, wStrobeF 1)] }, stm := { base.stm with softq := [1] } }
def wStrobe2F : State := { wReadLastF with flc := { reads := [(1, wStrobeF 2)] }, stm := { base.stm with softq := [1] } }
def wRdSoftF : Rd := { wRdF with phase := .softq, attempt := 2, strobe := 2 }
def wSoftF : State := { wReadF with flc := { reads := [(1, wRdSoftF)], decoders := [(3, 1)] }, stm := { base.stm with softq := [1] } }
def wPagesF (ps : List (Nat × Nat)) : AMap Page := ps.foldl (fun m x => mput m (pageKey 40 0 x.1 0) { wDoneF with pos := x.1, ch := 4 * x.1, slot := x.2, lbas := [] }) []
def wRdSlowF : Rd := { wRdF with phase := .sensing, issued := 1000 }
def wDeadF : State :=
    { wReadF with
      tck := { base.tck with now := 1000000000 }
      bnd := { wReadF.bnd with pages := wPagesF ((List.range 9).map (fun p => (p, 4 * p))) }
      flc := { reads := [(1, wRdSlowF)] } }
def wDeadLessF : State := { wDeadF with bnd := { wDeadF.bnd with pages := [(pageKey 40 0 0 0, wDoneF)] } }
def wReadHoldF : State := { wReadF with tck := { wReadF.tck with holding := true } }
theorem wit_CodewordReads (h : Obligations.CodewordReads) :
    Answers (.readTransfer 1 wGoodF.ones wGoodF.pass { tampered := false, mismatch := [], katFail := [] } []) wReadF (fun _ => True) ∧
    Answers (.readTransfer 1 wBadF.ones wBadF.pass wLaneF []) wReadF (fun _ => True) ∧
    Answers (.readTransfer 1 wBadF.ones wBadF.pass wLaneF []) wReadLastF (fun _ => True) ∧
    Answers (.readTransfer 1 wBadF.ones wBadF.pass wLaneF []) wReadFullF (fun _ => True) ∧
    Answers (.readTransfer 1 36864 false wLaneF []) wReadF (fun _ => True) ∧
    Answers (.readTransfer 1 wBadF.ones wBadF.pass wLaneF []) wStrobe1F (fun _ => True) ∧
    Answers (.readTransfer 1 wBadF.ones wBadF.pass wLaneF []) wStrobe2F (fun _ => True) ∧
    Answers (.readTransfer 1 wGoodF.ones wGoodF.pass { tampered := true, mismatch := [], katFail := [] } []) wReadF (fun _ => True) ∧
    Answers (.softDecodeDone 1 true { tampered := false, mismatch := [], katFail := [] }) wSoftF (fun _ => True) ∧
    Answers (.softDecodeDone 1 false wLaneF) wSoftF (fun _ => True) ∧
    Answers (.readDeadline 1 wLaneF.tampered (wLaneF.mismatch, wLaneF.katFail)) wDeadF (fun _ => True) ∧
    Answers (.readDeadline 1 wLaneF.tampered (wLaneF.mismatch, wLaneF.katFail)) wDeadLessF (fun _ => True) ∧
    Answers (.softDecodeDone 1 true wLaneF) base (fun _ => True) ∧
    Answers (.readTransfer 1 wGoodF.ones wGoodF.pass wLaneF []) wReadHoldF (fun _ => True) := by
  refine ⟨met (h.1 wReadF 1 5 0 wRdF wDoneF 77 wAskedF wGoodF [] ?_ ?_ ?_ ?_ ?_ ?_ ?_ ?_ ?_ ?_ ?_ ?_),
    met (((h.2.1 wReadF 1 wRdF wDoneF wLaneF wBadF [] {} ?_ ?_ ?_ ?_ ?_).1 ?_ ?_).1 ?_),
    met (((h.2.1 wReadLastF 1 wRdLastF wDoneF wLaneF wBadF [] {} ?_ ?_ ?_ ?_ ?_).1 ?_ ?_).2.1 ?_ ?_),
    met (((h.2.1 wReadFullF 1 wRdLastF wDoneF wLaneF wBadF [] {} ?_ ?_ ?_ ?_ ?_).1 ?_ ?_).2.2 ?_ ?_),
    met ((h.2.1 wReadF 1 wRdF wDoneF wLaneF { ones := 36864, pass := false } [] {} ?_ ?_ ?_ ?_ ?_).2 ?_),
    met ((h.2.2.1 wStrobe1F 1 (wStrobeF 1) wDoneF wLaneF wBadF [] ?_ ?_).1 ?_ (fun _ _ _ _ _ => nofun)),
    met ((h.2.2.1 wStrobe2F 1 (wStrobeF 2) wDoneF wLaneF wBadF [] ?_ ?_).2 ?_ (fun _ _ _ _ _ => nofun)),
    met (h.2.2.2.1 wReadF 1 wRdF wDoneF wGoodF [] ?_ ?_ ?_ ?_ ?_ ?_),
    met ((h.2.2.2.2.1 wSoftF 1 5 0 wRdSoftF wDoneF wAskedF ?_ ?_ ?_ ?_ ?_ ?_ ?_ ?_ ?_).1 77 ?_),
    met ((h.2.2.2.2.1 wSoftF 1 5 0 wRdSoftF wDoneF wAskedF ?_ ?_ ?_ ?_ ?_ ?_ ?_ ?_ ?_).2 wLaneF),
    met ((h.2.2.2.2.2.1 wDeadF 1 wRdSlowF { wDoneF with lbas := [] } wLaneF ?_ ?_ ?_ ?_ ?_ ?_ ?_ ?_ ?_).1 ?_),
    met ((h.2.2.2.2.2.1 wDeadLessF 1 wRdSlowF wDoneF wLaneF ?_ ?_ ?_ ?_ ?_ ?_ ?_ ?_ ?_).2 ?_),
    met (h.2.2.2.2.2.2.1 base 1 wGoodF wLaneF [] true ?_ ?_ (.softDecodeDone 1 true wLaneF) ?_),
    met (h.2.2.2.2.2.2.2 wReadHoldF 1 wGoodF wLaneF [] ?_ ?_)⟩ <;>
    first
    | decide +kernel
    | (unfold NotFleet; decide +kernel)
    | exact plainRead_of (by decide +kernel)
    | exact carries_of (by decide +kernel)

def wRawF : State := { base with flc := { fitted := [(0, 3)] } }
def wAtF : RawPlace := { ch := 0, target := 0, set := 0, block := 1, row := 0, plane := 0, page := 0 }
def wRdRawF (mode : Nat) : Rd := { use := .raw .beldy 7 mode 64 wAtF, cls := .m, page := 0, cw := 0, phase := .ready, gen := 1 }
def wRawGoF (mode : Nat) : State := { wRawF with flc := { wRawF.flc with reads := [(1, wRdRawF mode)] }, tck := { base.tck with readSlots := [(Cls.m.code, 1)] } }
def wTrainF : State := { base with thm := { band := 2 }, regs := [(SYS_DISCARD_CNT, 7), (FLC_CFG 3, 1)] }
def wTrainedF : State := { wTrainF with flc := { trained := [(3, [2])] } }
theorem wit_RawReadAndTraining (h : Obligations.RawReadAndTraining) :
    Answers (.rawRead .beldy 7 0 0 0 0 1 0 0 0 64 0) wRawF (fun _ => True) ∧
    Answers (.readTransfer 1 wBadF.ones wBadF.pass wLaneF []) (wRawGoF 0) (fun _ => True) ∧
    Answers (.readTransfer 1 wGoodF.ones wGoodF.pass wLaneF []) (wRawGoF 1) (fun _ => True) ∧
    Answers (.readTransfer 1 wBadF.ones wBadF.pass wLaneF []) (wRawGoF 1) (fun _ => True) ∧
    Answers (.dieTempRead ⟨[(1, 45)], []⟩) wRawF (fun _ => True) ∧
    Answers (.dieTempRead ⟨[], [(8, -3)]⟩) wRawF (fun _ => True) ∧
    Answers (.channelTrainingDone 3 true) wTrainF (fun _ => True) ∧
    Answers (.channelTrainingDone 3 false) wTrainF (fun _ => True) ∧
    Answers (.channelTrainingDone 3 true) wTrainedF (fun _ => True) := by
  refine ⟨met (h.1 wRawF .beldy 7 0 0 0 0 1 0 0 0 64 64 0 ?_ ?_ ?_ ?_ ?_ ?_ ?_ ?_ ?_ ?_ ?_ ?_ ?_ ?_ ?_ ?_ ?_ ?_),
    met ((h.2.1 (wRawGoF 0) 1 7 0 64 0 0 .beldy wAtF (wRdRawF 0) wBadF wLaneF ?_ ?_ ?_ ?_ ?_ ?_ ?_ ?_ ?_ ?_ ?_ ?_ nofun).1 ?_),
    met ((h.2.1 (wRawGoF 1) 1 7 1 64 0 0 .beldy wAtF (wRdRawF 1) wGoodF wLaneF ?_ ?_ ?_ ?_ ?_ ?_ ?_ ?_ ?_ ?_ ?_ ?_ nofun).2.1 ?_ ?_ ?_),
    met ((h.2.1 (wRawGoF 1) 1 7 1 64 0 0 .beldy wAtF (wRdRawF 1) wBadF wLaneF ?_ ?_ ?_ ?_ ?_ ?_ ?_ ?_ ?_ ?_ ?_ ?_ nofun).2.2 ?_ ?_ ?_),
    met (h.2.2.1 wRawF 1 45 ?_ ?_ ?_),
    met (h.2.2.2.1 wRawF 8 (-3) ?_ ?_),
    met ((h.2.2.2.2.1 wTrainF 3 ?_ ?_ ?_ ?_).1),
    met ((h.2.2.2.2.1 wTrainF 3 ?_ ?_ ?_ ?_).2),
    met (h.2.2.2.2.2 wTrainedF 3 true ?_)⟩ <;>
    first
    | decide +kernel
    | (unfold NotFleet; decide +kernel)
    | exact begins_of (by decide +kernel)

def wWrF : IoCmd := { sq := 1, cid := 9, nsid := 1, ord := false, kind := .write, slba := 100, nlb := 1, data := [77] }
def wSlF : Slot := { cmd := wWrF, started := true, stream := 1, accept := 3, acct := 1, staged := true, placed := true }
def wMapFF : State :=
    { wBandF with
      bnd := { wBandF.bnd with pages := [(pageKey 40 0 0 0, { wPageF with st := .passed })] }
      stm := { base.stm with staged := [(1, 8192)] }
      hif := { base.hif with slots := [(5, wSlF)], index := [(5 * 1024, { accept := 3, nsid := 1, slba := 100, nlb := 1, zero := false, entered := true, data := [77] })] } }
def wRecF : MapRec := { lsn := 1, ty := .write, place := 32, len := 48, accept := 3, cmd := 5, ops := [.granularSet 0 100 1 { band := 40, row := 0, slot := 0, cw := 0 }] }
def wDurF : State := { wMapFF with map := { base.map with log := [wRecF], lsn := 2, durable := 1 }, hif := { wMapFF.hif with slots := [(5, { wSlF with formed := true, lsn := 2 })] } }
def wFinF : State := { wDurF with map := { wDurF.map with durable := 2 } }
def wCkF : State := { wFinF with map := { wFinF.map with running := some { segs := [(0, { kind := .granular 0, nsid := 1, nsseg := 0, gen := 1 })], replayLsn := 2, gen := 4, stage := 5 } } }
def wCkEarlyF : State := { wFinF with map := { wFinF.map with running := some { replayLsn := 3, stage := 4 } } }
def wRunF : State :=
    { wBandF with
      bnd := { wBandF.bnd with opens := [(40, { next := 1024 })], pages := [] }
      tck := { base.tck with tick := 3000 }
      map := { base.map with runs := [(0, { stream := 1, band := 40, start := 0, next := 8, since := 2 })] } }
def wPadF : State := { wBandF with bnd := { wBandF.bnd with opens := [(40, { next := 3, waitFrom := [(0, 1)] })] }, tck := { base.tck with tick := 3000 } }
def wPadEarlyF : State := { wPadF with tck := { base.tck with tick := 1 + fld base FLC_G_CFG 23 16 - 1 } }
def wFwF : State :=
    { wMapFF with
      flt := { slice := some 1, fstate := .member, n := 3, m := 1, position := 0 }
      map := { base.map with segs := [(0, { kind := .granular 0, nsid := 1, nsseg := 0 })], pool := [(0, [(100, { band := 40, row := 0, slot := 0, cw := 0 })])] }
      hif := { wMapFF.hif with slots := [(5, { wSlF with placed := false, fleetReady := false })] } }
theorem wit_MapRecords (h : Obligations.MapRecords) :
    Answers (.mapRecordForm 5) wMapFF (fun _ => True) ∧
    Answers .mapRecordDurable wDurF (fun _ => True) ∧
    Answers (.writeCompletion 5) { wFinF with bnd := base.bnd } (fun _ => True) ∧
    Answers (.writeCompletion 5) wDurF (fun _ => True) ∧
    Answers .checkpointStart wFinF (fun _ => True) ∧
    Answers .checkpointEnd wCkF (fun _ => True) ∧
    Answers .checkpointEnd wCkEarlyF (fun _ => True) ∧
    Answers .mapCkptLate wCkF (fun _ => True) ∧
    Answers .checkpointEnd base (fun _ => True) ∧
    Answers (.extentRunGivenUp 0) wRunF (fun _ => True) ∧
    Answers (.extentRunGivenUp 0) { wRunF with tck := base.tck } (fun _ => True) ∧
    Answers (.padWaitExpired 40 ⟨0, 0⟩) wPadF (fun _ => True) ∧
    Answers (.padWaitExpired 40 ⟨0, 0⟩) wPadEarlyF (fun _ => True) ∧
    Answers (.fleetWriteStart 5) wFwF (fun _ => True) := by
  refine ⟨met (h.1 wMapFF 5 wSlF ?_ ?_ ?_ ?_ ?_ ?_ ?_ ?_ ?_ (fun g hg => by revert hg; rw [show gsnOf wMapFF.map.dir wSlF.cmd.nsid (wSlF.cmd.slba / 4096) = some 0 from rfl]; intro hg; cases hg; decide) ?_ ?_),
    met (h.2.1 wDurF wRecF ?_ ?_),
    met (h.2.2.1 { wFinF with bnd := base.bnd } 5 { wSlF with formed := true, lsn := 2 } { depth := 64, cq := 1 } ?_ ?_ ?_ ?_ ?_ ?_ ?_ ?_ ?_ ?_ ?_ ?_ ?_ ?_),
    met (h.2.2.2.1 wDurF 5 { wSlF with formed := true, lsn := 2 } ?_ ?_),
    met (h.2.2.2.2.1 wFinF ?_ ?_ ?_ ?_),
    met ((h.2.2.2.2.2.1 wCkF { segs := [(0, { kind := .granular 0, nsid := 1, nsseg := 0, gen := 1 })], replayLsn := 2, gen := 4, stage := 5 } ?_ ?_ ?_).1 ?_ ?_ ?_),
    met ((h.2.2.2.2.2.1 wCkEarlyF { replayLsn := 3, stage := 4 } ?_ ?_ ?_).2 (.inr (.inl ?_))),
    met (h.2.2.2.2.2.2.1 wCkF ?_ ?_),
    met (h.2.2.2.2.2.2.2.1 base ?_ .checkpointEnd ?_),
    met ((h.2.2.2.2.2.2.2.2.1 wRunF 0 { stream := 1, band := 40, start := 0, next := 8, since := 2 } ?_).1 ?_),
    met ((h.2.2.2.2.2.2.2.2.1 { wRunF with tck := base.tck } 0 { stream := 1, band := 40, start := 0, next := 8, since := 2 } ?_).2 ?_),
    met ((h.2.2.2.2.2.2.2.2.2.1 wPadF 40 0 0 1 ?_ ?_ ?_ ?_ ?_).1 ?_ ?_),
    met ((h.2.2.2.2.2.2.2.2.2.1 wPadEarlyF 40 0 0 1 ?_ ?_ ?_ ?_ ?_).2 (.inl ?_)),
    met (h.2.2.2.2.2.2.2.2.2.2 wFwF 5 { wSlF with placed := false, fleetReady := false } { band := 40, row := 0, slot := 0, cw := 0 } ?_ ?_ ?_ ?_ ?_ ?_ ?_ ?_ (⟨_, List.mem_singleton.2 rfl, rfl, rfl⟩) ?_ ?_ ?_ ?_ (fun r hr => absurd hr List.not_mem_nil) ?_ ?_ ?_ ?_)⟩ <;>
    first
    | decide +kernel
    | (unfold NotFleet; decide +kernel)
    | exact cqRoom_of (by decide +kernel)

def wWithPortM (m : Nat) (p : Port) : State := setPort m (fun _ => p) base
def wAbsM : State := wWithPortM 8 {}
def wUpM : State := wWithPortM 8 { st := .present, inserted := true, powered := true, seq := .up, admission := .auto }
def wTargetM (k t : Nat) : TargetSeen := { chpos := k, target := t, id := List.replicate 8 0 }
def wSeenM : QualifySeen := { targets := [wTargetM 0 0, wTargetM 3 1], factory := [], erasesOk := true }
def wQualM : State := { wUpM with mbr := { wUpM.mbr with formatted := false }, flc := { valid := [0] }, regs := [(SYS_DISCARD_CNT, 7), (FLC_CFG 32, 1), (FLC_CFG 35, 1)] }
def wSparePM : State := wWithPortM 8 { st := .spare, inserted := true, powered := true, gen := 1 }
def wLateTM : State := { base with flc := { targets := [(8 * 128, { op := .erase 44, overtime := true })] }, tck := { base.tck with now := 1000000000 } }
def wLatchedM : State := wWithPortM 8 { st := .present, inserted := true, powered := true, seq := .up, pending := some false }
theorem wit_MemberArrival (h : Obligations.MemberArrival) :
    Answers (.memberPresenceDebounced 8) wAbsM (fun _ => True) ∧
    Answers (.memberFaultSample 8 false) wUpM (fun _ => True) ∧
    Answers (.memberFaultSample 8 true) wUpM (fun _ => True) ∧
    Answers (.memberIdentityRead 8 0x1234 none) wUpM (fun _ => True) ∧
    Answers (.memberIdentityRead 8 0x1234 (some { ours := true, gen := 0, port := 8, position := 2 })) wUpM (fun _ => True) ∧
    Answers (.memberQualifyDone 8 wSeenM) wQualM (fun _ => True) ∧
    Answers (.memberQualifyDone 8 { wSeenM with untrained := [2] }) wQualM (fun _ => True) ∧
    Answers (.memberRemoved 8) wSparePM (fun _ => True) ∧
    Answers (.memberRemoved 8) base (fun _ => True) ∧
    Answers (.memberFault 8) base (fun _ => True) ∧
    Answers (.memberFault 8) wSparePM (fun _ => True) ∧
    Answers (.memberTimeout 8) wLateTM (fun _ => True) ∧
    Answers (.powerSequenceEnd 8) wUpM (fun _ => True) ∧
    Answers (.powerSequenceEnd 8) wLatchedM (fun _ => True) ∧
    Answers (.memberRemoved 8) wAbsM (fun _ => True) := by
  refine ⟨met (h.1 wAbsM 8 ?_ ?_ ?_ ?_),
    met ((h.2.1 wUpM 8 ?_ ?_ ?_ ?_).1),
    met ((h.2.1 wUpM 8 ?_ ?_ ?_ ?_).2),
    met ((h.2.2.1 wUpM 8 0x1234 ?_ ?_ ?_ ?_).1),
    met ((h.2.2.1 wUpM 8 0x1234 ?_ ?_ ?_ ?_).2 { ours := true, gen := 0, port := 8, position := 2 } ?_ ?_ ?_ ?_),
    met ((h.2.2.2.1 wQualM 8 wSeenM ?_ ?_ ?_ ?_ ?_ ?_).1 ?_ ?_ (⟨wTargetM 0 0, by simp [wSeenM], by unfold Identified; decide +kernel⟩) ?_),
    met ((h.2.2.2.1 wQualM 8 { wSeenM with untrained := [2] } ?_ ?_ ?_ ?_ ?_ ?_).2 ?_),
    met ((h.2.2.2.2.1 wSparePM 8 ?_ ?_ ?_ ?_).1 ?_),
    met ((h.2.2.2.2.1 base 8 ?_ ?_ ?_ ?_).2 ?_),
    met (h.2.2.2.2.2.1 base 8 ?_ ?_ ?_ ?_ ?_),
    met (h.2.2.2.2.2.1 wSparePM 8 ?_ ?_ ?_ ?_ ?_),
    met (h.2.2.2.2.2.2.1 wLateTM 8 ?_ ?_ ?_ (⟨_, List.mem_singleton.2 rfl, rfl, .erase 44, 1000000000, true, by decide +kernel⟩)),
    met ((h.2.2.2.2.2.2.2.1 wUpM 8 ?_ ?_ ?_).1 ?_ ?_),
    met ((h.2.2.2.2.2.2.2.1 wLatchedM 8 ?_ ?_ ?_).2 ?_ ?_ ?_),
    met (h.2.2.2.2.2.2.2.2 wAbsM 8 ?_ ?_ ?_ ?_ (.memberRemoved 8) ?_)⟩ <;>
    first
    | decide +kernel

def wTakenM : State := { base with sys := { taken := [{ src := .admin 5, opcode := 0x0701, tag := 7, body := [0] }, { src := .admin 6, opcode := 0x0704, tag := 8, body := [1] }] } }
def wPresM : State := wWithPortM 8 { st := .present, inserted := true, powered := true, gen := 2 }
def wFenM : State := wWithPortM 8 { st := .fenced, inserted := true, powered := true, gen := 2 }
def wOffM : State := wWithPortM 8 { st := .spare, inserted := true, gen := 1 }
def wSpareUpM : State := wWithPortM 8 { st := .spare, inserted := true, powered := true, gen := 1, seq := .up }
def wVacantM : State := { wSparePM with mbr := { wSparePM.mbr with posOf := (List.range 8).map (fun m => (m, m)) } }
def wFreshM : State := { base with cst := { mode := .commissioning }, map := {}, mbr := { ports := (List.range 9).map (fun _ => { st := .present, inserted := true, powered := true, answers := (List.range 4).map (fun k => wTargetM k 0) }) }, flc := { valid := [0] } }
theorem wit_MemberManage (h : Obligations.MemberManage) :
    Answers (.memberQuery (.admin 5) 7 0) wTakenM (fun _ => True) ∧
    Answers (.memberQuery .beldy 7 8) base (fun _ => True) ∧
    Answers (.memberAdmit .beldy 7 8) wPresM (fun _ => True) ∧
    Answers (.readmitBlank .beldy 7 8) wFenM (fun _ => True) ∧
    Answers (.fail .beldy 7 0) base (fun _ => True) ∧
    Answers (.powerOn .beldy 7 8) wOffM (fun _ => True) ∧
    Answers (.powerOff .beldy 7 8) wSparePM (fun _ => True) ∧
    Answers (.powerOff .beldy 7 8) wSpareUpM (fun _ => True) ∧
    Answers (.rebuild .beldy 7 8 8) wVacantM (fun _ => True) ∧
    Answers (.formatUnit .beldy 7 1 15 []) wFreshM (fun _ => True) ∧
    Answers (.memberAdmit .beldy 7 9) base (fun _ => True) ∧
    Answers (.formatUnit .beldy 7 0 8 []) base (fun _ => True) := by
  refine ⟨met ((h.1 wTakenM (.admin 5) 7 0 ?_ ?_).1 ?_),
    met ((h.1 base .beldy 7 8 ?_ ?_).1 ?_),
    met (((h.1 wPresM .beldy 7 8 ?_ ?_).2.1 ?_ ?_).1 ?_ ?_),
    met (((h.1 wFenM .beldy 7 8 ?_ ?_).2.1 ?_ ?_).2 ?_ ?_),
    met ((h.1 base .beldy 7 0 ?_ ?_).2.2.1 ?_ ?_),
    met ((h.1 wOffM .beldy 7 8 ?_ ?_).2.2.2.1 ?_ ?_ ?_ ?_ ?_),
    met ((h.1 wSparePM .beldy 7 8 ?_ ?_).2.2.2.2.1 ?_ ?_ ?_ ?_ ?_),
    met ((h.1 wSpareUpM .beldy 7 8 ?_ ?_).2.2.2.2.2.1 ?_ ?_ ?_ ?_),
    met ((h.1 wVacantM .beldy 7 8 ?_ ?_).2.2.2.2.2.2 8 ?_ ?_ ?_ ?_ ?_ ?_ ?_),
    met (h.2.1 wFreshM .beldy 7 1 [] ?_ ?_ ?_ ?_ ?_ ?_ ?_),
    met (h.2.2.1 base .beldy 7 9 ?_ (.memberAdmit .beldy 7 9) ?_ ?_),
    met (h.2.2.2 base .beldy 7 0 8 [] ?_ ?_ ?_ ?_)⟩ <;>
    first
    | decide +kernel
    | exact begins_of (by decide +kernel)

def wFitM : State := { base with mbr := { base.mbr with ports := (List.range 9).map (fun m => { wPort m with answers := [] }) }, flc := { fitted := (List.range 36).map (fun c => (c, 255)) }, thm := { step := 0 }, clk := base.clk }
def wAdmM : State := { base with stm := { streams := [(0, { st := .open_ }), (1, { st := .admitted, nsid := 1, rate := 800, burst := 64 })] } }
def wRelM : State := { base with stm := { streams := [(0, { st := .open_ }), (1, { st := .releasing, toClosed := true, nsid := 1, rate := 800 })] } }
def wRelBusyM : State := { wRelM with hif := { base.hif with slots := [(5, { cmd := { sq := 1, cid := 9, nsid := 1, ord := false, kind := .write, nlb := 1 }, started := true, stream := 1 })] } }
def wMkM : State := { base with stm := { streams := [(1, { st := .open_, nsid := 1, mkMode := 2, mkEntries := 64 })] } }
def wAdmTakenM : State := { wAdmM with sys := { taken := [{ src := .admin 4, opcode := 0x0307, tag := 7, body := [1, 0] }] } }
theorem wit_StreamManage (h : Obligations.StreamManage) :
    Answers (.open_ .beldy 7 4 1) base (fun _ => True) ∧
    Answers (.reserve .beldy 7 1 800 400 64) wFitM (fun _ => True) ∧
    Answers (.reserve .beldy 7 1 80000 400 64) base (fun _ => True) ∧
    Answers (.release .beldy 7 1) wAdmM (fun _ => True) ∧
    Answers (.close .beldy 7 1) base (fun _ => True) ∧
    Answers (.close .beldy 7 4) base (fun _ => True) ∧
    Answers (.releasingEnd 1) wRelM (fun _ => True) ∧
    Answers (.releasingEnd 1) wRelBusyM (fun _ => True) ∧
    Answers (.setMarkers .beldy 7 1 0 0x10000 64 0x20000 0x20008) base (fun _ => True) ∧
    Answers (.setMarkers .beldy 7 1 3 0x10000 64 0x20000 0x20008) base (fun _ => True) ∧
    Answers (.mark .beldy 7 1 77) wMkM (fun _ => True) ∧
    Answers (.streamQuery (.admin 4) 7 1) wAdmTakenM (fun _ => True) ∧
    Answers (.queryCeiling .beldy 7) wAdmM (fun _ => True) ∧
    Answers (.close .beldy 7 0) base (fun _ => True) ∧
    Answers (.close .beldy 7 4096) base (fun _ => True) := by
  refine ⟨met ((h.1 base .beldy 7 4 ?_ ?_).1 1 ?_ ?_ ?_),
    met ((h.1 wFitM .beldy 7 1 ?_ ?_).2.1 800 400 64 ?_ ?_ ?_ ?_ ?_ ?_ ?_),
    met ((h.1 base .beldy 7 1 ?_ ?_).2.2.1 80000 400 64 ?_ ?_ ?_ ?_),
    met ((h.1 wAdmM .beldy 7 1 ?_ ?_).2.2.2.1 ?_ ?_),
    met ((h.1 base .beldy 7 1 ?_ ?_).2.2.2.2.1 ?_ ?_),
    met ((h.1 base .beldy 7 4 ?_ ?_).2.2.2.2.2.1 ?_ ?_),
    met ((h.1 wRelM .beldy 7 1 ?_ ?_).2.2.2.2.2.2.1 ?_ ?_ ?_ ?_ ?_ ?_),
    met ((h.1 wRelBusyM .beldy 7 1 ?_ ?_).2.2.2.2.2.2.2.1 ?_ ?_),
    met (((h.1 base .beldy 7 1 ?_ ?_).2.2.2.2.2.2.2.2.1 3 0x10000 64 0x20000 0x20008 ?_).1 ?_),
    met (((h.1 base .beldy 7 1 ?_ ?_).2.2.2.2.2.2.2.2.1 3 0x10000 64 0x20000 0x20008 ?_).2 ?_ ?_ ?_ ?_ ?_ ?_ ?_ ?_ ?_ ?_),
    met ((h.1 wMkM .beldy 7 1 ?_ ?_).2.2.2.2.2.2.2.2.2.1 77 ?_ ?_ ?_ ?_ ?_),
    met ((h.1 wAdmTakenM (.admin 4) 7 1 ?_ ?_).2.2.2.2.2.2.2.2.2.2 ?_),
    met (h.2.1 wAdmM .beldy 7 ?_),
    met (h.2.2 base .beldy 7 0 1 1 ?_ (.close .beldy 7 0) ?_ ?_),
    met (h.2.2 base .beldy 7 4096 1 1 ?_ (.close .beldy 7 4096) ?_ ?_)⟩ <;>
    first
    | decide +kernel
    | exact begins_of (by decide +kernel)

def wPairsM (n : Nat) (st : PairSt) : State := { base with cpx := { base.cpx with pairs := setAt (List.replicate 10 {}) n (fun _ => { st := st, primary := 1 }) } }
theorem wit_LedgerPairs (h : Obligations.LedgerPairs) :
    Answers (.ledgerFault 2 1 .word) base (fun _ => True) ∧
    Answers (.ledgerFault 9 0 (.traps 300)) base (fun _ => True) ∧
    Answers (.ledgerRestartEnd 2) (wPairsM 2 .restarting) (fun _ => True) ∧
    Answers (.ledgerRestartTimeout 9) (wPairsM 9 .restarting) (fun _ => True) ∧
    Answers (.ledgerRestartTimeout 2) (wPairsM 2 .restarting) (fun _ => True) ∧
    Answers (.ledgerRepair 2) (wPairsM 2 .single) (fun _ => True) ∧
    Answers (.ledgerFault 2 0 (.traps (fld base CPX_CFG 15 8))) base (fun _ => True) ∧
    Answers (.ledgerFault 10 0 .word) base (fun _ => True) := by
  refine ⟨met ((h.1 base 2 .word (.inl rfl) ?_ ?_ ?_ ?_ ?_).1),
    met ((h.1 base 9 (.traps 300) (.inr ⟨300, rfl, by decide +kernel⟩) ?_ ?_ ?_ ?_ ?_).2),
    met (h.2.1 (wPairsM 2 .restarting) 2 ?_ ?_ ?_ ?_),
    met (h.2.2.1 (wPairsM 9 .restarting) ?_ ?_),
    met (h.2.2.2.1 (wPairsM 2 .restarting) 2 ?_ ?_ ?_ ?_ ?_),
    met (h.2.2.2.2.1 (wPairsM 2 .single) 2 ?_ ?_ ?_ ?_),
    met (h.2.2.2.2.2.1 base 2 0 (fld base CPX_CFG 15 8) ?_),
    met ((h.2.2.2.2.2.2 base 10 0 .word ?_).1)⟩ <;>
    first
    | decide +kernel

def wDescM : List Byte := le 2 0x0C01 ++ [0, 0] ++ le 4 9 ++ le 8 0x10000 ++ le 8 0x20000 ++ le 4 128 ++ [0, 0]
def wMovOffM : State := { base with regs := [(SYS_DISCARD_CNT, 7), (MOV_CHn_CFG 40, 0)] }
def wMovM : State := { base with regs := [(SYS_DISCARD_CNT, 7), (MOV_CHn_CFG 40, 1)], mem := [(0xFFFF, 1), (0x10000, 5), (0x1007F, 6), (0x20001, 9), (0x20080, 4)] }
def wMovBusyM : State := { base with mov := { base.mov with chans := [(40, { busy := true, count := 1 })] } }
theorem wit_Mover (h : Obligations.Mover) :
    Answers (.transfer 40 ⟨wDescM, []⟩) wMovOffM (fun _ => True) ∧
    Answers (.transfer 40 ⟨wDescM, []⟩) wMovM (fun _ => True) ∧
    Answers (.moverDescriptorEnd 40) wMovBusyM (fun _ => True) ∧
    Answers (.moverDescriptorEnd 40) base (fun _ => True) ∧
    Answers (.memSubwordStore 0x40 4) base (fun _ => True) ∧
    Answers (.memSubwordStore 0x40 8) base (fun _ => True) := by
  refine ⟨met (h.1 wMovOffM 40 wDescM [] ?_ ?_),
    met (h.2.1 wMovM 40 0x10000 0x20000 128 wDescM [] (fun w hw => absurd hw List.not_mem_nil) ?_ ?_ ?_ ?_ ?_ ?_ ?_ ?_ ?_ ?_ ?_ ?_ ?_ ?_ ?_ ?_ ?_),
    met (h.2.2.1 wMovBusyM 40 ?_ ?_ ?_ ?_ ?_ ?_),
    met (h.2.2.2.1 base 40 ?_),
    met (h.2.2.2.2.1 base 0x40 4 ?_ ?_),
    met (h.2.2.2.2.2 base 0x40 8 ?_)⟩ <;>
    first
    | decide +kernel

def wRosterL : List RosterEntry := [{ unitId := 10, position := 0, addrA := 1, addrB := 0 }, { unitId := 11, position := 1, addrA := 2, addrB := 0 }, { unitId := 12, position := 2, addrA := 3, addrB := 0 }, { unitId := 13, position := 3, addrA := 4, addrB := 0 }]
def wRoster5L : List RosterEntry := wRosterL ++ [{ unitId := 14, position := 4, addrA := 5, addrB := 0 }]
def wFltL (unit pos : Nat) : Flt :=
    { fstate := .member, unitId := unit, group := 7, n := 4, m := 1, position := pos, epoch := 5, roster := wRosterL, nextMsg := 40, nextSession := 200
      peers := [(0, { session := 100 }), (1, { session := 101 }), (2, { session := 102 }), (3, { session := 103 })], ports := ({ st := .up }, {}) }
def wFlStateL (unit pos : Nat) : State := { base with flt := wFltL unit pos, tck := { base.tck with now := 60000000 } }
def wFL (src dst sess : Nat) : Tfp := { addrOk := true, version := 1, src := src, dst := dst, group := 7, session := sess, epoch := 5, seq := 9, msgId := 77, ref := 0, whole := true, tagOk := true }
def wFlL : State := wFlStateL 10 0
def wFl3L : State := wFlStateL 13 3
def wSeen9L : State := { wFlL with flt := { wFlL.flt with peers := [(1, { session := 101, seqHigh := 12, seqSeen := [9, 12] })] } }
def wChkL : HsChecks := { certOk := true, sigOk := true, idOk := true, secvers := [4, 5] }
def wOpenHsL : State := { wFlL with flt := { wFlL.flt with peers := [(1, { session := 101, hsOpen := true })] }, regs := [(SYS_DISCARD_CNT, 7), (FLT_MIN_SECVER, 4)] }
def wConfL : ConfirmBody := { secvers := [4, 5], rosterHash := 3, sliceSegs := 64 }
def wNoSessL : State := { wFlL with flt := { wFlL.flt with peers := [] } }
def wOldL : State := { wFlL with flt := { wFlL.flt with peers := [(1, { session := 101, oldSession := 91, oldHigh := 4, oldSeen := [3] })] } }
theorem wit_FleetFilterAndSessions (h : Obligations.FleetFilterAndSessions) :
    Answers (.heartbeat (wFL 99 10 101) 0 false 0) wFlL (fun _ => True) ∧
    Answers (.fnsKeyAck { wFL 11 10 101 with tagOk := false }) wFlL (fun _ => True) ∧
    Answers (.done (wFL 11 10 101) 1) wSeen9L (fun _ => True) ∧
    Answers (.done { wFL 11 10 101 with epoch := 4 } 1) wFlL (fun _ => True) ∧
    Answers (.arpNdpFrame 0 true) wFlL (fun _ => True) ∧
    Answers (.arpNdpFrame 0 false) wFlL (fun _ => True) ∧
    Answers (.hello (wFL 11 10 101) wChkL) wFlL (fun _ => True) ∧
    Answers (.hello (wFL 10 13 0) wChkL) wFl3L (fun _ => True) ∧
    Answers (.hello (wFL 10 13 0) { wChkL with certOk := false }) wFl3L (fun _ => True) ∧
    Answers (.helloReply (wFL 11 10 0) wChkL) wOpenHsL (fun _ => True) ∧
    Answers (.helloReply (wFL 11 10 0) { wChkL with secvers := [4, 3] }) wOpenHsL (fun _ => True) ∧
    Answers (.confirm (wFL 11 10 555) wConfL) wOpenHsL (fun _ => True) ∧
    Answers (.sessionRekey 1) wFlL (fun _ => True) ∧
    Answers (.handshakeRetry 1) wNoSessL (fun _ => True) ∧
    Answers (.handshakeTimeout 1) wOpenHsL (fun _ => True) ∧
    Answers (.handshakeTimeout 1) wFlL (fun _ => True) ∧
    Answers (.oldSessionExpiry 1) wOldL (fun _ => True) := by
  refine ⟨met (h.1 wFlL (wFL 99 10 101) ?_ (.inl rfl) (.heartbeat (wFL 99 10 101) 0 false 0) ?_),
    met (h.1 wFlL { wFL 11 10 101 with tagOk := false } ?_ (.inr rfl) (.fnsKeyAck { wFL 11 10 101 with tagOk := false }) ?_),
    met (h.2.1 wSeen9L (wFL 11 10 101) 1 ?_ ?_ (.done (wFL 11 10 101) 1) ?_),
    met (h.2.2.1 wFlL { wFL 11 10 101 with epoch := 4 } 1 ?_ ?_ (.done { wFL 11 10 101 with epoch := 4 } 1) ?_),
    met ((h.2.2.2.1 wFlL 0 ?_).1 ?_ ?_),
    met ((h.2.2.2.1 wFlL 0 ?_).2),
    met (h.2.2.2.2.1 wFlL (wFL 11 10 101) wChkL ?_ ?_ (.hello (wFL 11 10 101) wChkL) ?_),
    met ((h.2.2.2.2.2.1 wFl3L (wFL 10 13 0) wChkL 0 ?_ ?_ ?_ ?_ ?_ ?_ ?_ ?_).1 ?_ ?_ ?_ ?_),
    met ((h.2.2.2.2.2.1 wFl3L (wFL 10 13 0) { wChkL with certOk := false } 0 ?_ ?_ ?_ ?_ ?_ ?_ ?_ ?_).2.1 ?_),
    met ((h.2.2.2.2.2.1 wOpenHsL (wFL 11 10 0) wChkL 1 ?_ ?_ ?_ ?_ ?_ ?_ ?_ ?_).2.2.1 ?_ ?_ ?_ ?_ ?_ ?_),
    met ((h.2.2.2.2.2.1 wOpenHsL (wFL 11 10 0) { wChkL with secvers := [4, 3] } 1 ?_ ?_ ?_ ?_ ?_ ?_ ?_ ?_).2.2.2 ?_ ?_ ?_ ?_ (⟨3, by simp, by decide⟩)),
    met (h.2.2.2.2.2.2.1 wOpenHsL (wFL 11 10 555) wConfL 1 ?_ ?_ ?_ ?_ ?_ ?_ ?_ ?_ ?_ ?_ ?_ ?_ ?_),
    met (h.2.2.2.2.2.2.2.1 wFlL 1 ?_ ?_ ?_ ?_ ?_ ?_ ?_ ?_ ?_ (.sessionRekey 1) ?_),
    met (h.2.2.2.2.2.2.2.1 wNoSessL 1 ?_ ?_ ?_ ?_ ?_ ?_ ?_ ?_ ?_ (.handshakeRetry 1) ?_),
    met ((h.2.2.2.2.2.2.2.2 wOpenHsL 1).1 ?_),
    met ((h.2.2.2.2.2.2.2.2 wFlL 1).2.1 ?_),
    met ((h.2.2.2.2.2.2.2.2 wOldL 1).2.2 ?_)⟩ <;>
    first
    | decide +kernel
    | (unfold PassesFilter InSession; decide +kernel)
    | (unfold InSession; decide +kernel)

def wRecdL : State := { wFl3L with flt := { wFl3L.flt with recorded := some (6, { removed := [2], added := none }) } }
def wPropL : Proposal := { epoch := 6, change := { removed := [2], added := none }, accepts := [0], own := true }
def wProposingL : State := { wFlL with flt := { wFlL.flt with proposal := some wPropL } }
theorem wFlL_calm (q : Nat) : (peerAt wFlL q).suspected = false := by
  simp only [peerAt, wFlL, wFlStateL, wFltL, mgetD, mget]
  repeat' split
  all_goals rfl

def wSusp2L : State := { wFlL with flt := { wFlL.flt with peers := [(2, { session := 102, suspected := true })] } }
def wMsgL : State := { wFlL with flt := { wFlL.flt with msgs := [{ id := 30, peer := 2, kind := 0x03, seqNo := 4 }] } }
def wMsgOffL : State := { wMsgL with flt := { wMsgL.flt with ports := ({}, {}) } }
theorem wit_FleetEpochs (h : Obligations.FleetEpochs) :
    Answers (.heartbeat (wFL 11 13 101) 4096 true 64) wFl3L (fun _ => True) ∧
    Answers (.suspect (wFL 11 10 101) [2]) wFlL (fun _ => True) ∧
    Answers (.suspect (wFL 11 13 101) [2]) wFl3L (fun _ => True) ∧
    Answers (.epochPropose (wFL 10 13 100) 6 { removed := [1], added := none }) wFl3L (fun _ => True) ∧
    Answers (.epochPropose (wFL 10 13 100) 6 { removed := [1], added := none }) wRecdL (fun _ => True) ∧
    Answers (.epochAccept (wFL 11 10 101) 6) wProposingL (fun _ => True) ∧
    Answers (.epochQuery (wFL 11 10 101)) wFlL (fun _ => True) ∧
    Answers (.epochCommit (wFL 11 10 101) 6 (wRosterL.drop 1)) wFlL (fun _ => True) ∧
    Answers (.epochCommit (wFL 11 10 101) 6 wRoster5L) wFlL (fun _ => True) ∧
    Answers (.epochCommit (wFL 11 10 101) 5 []) wFlL (fun _ => True) ∧
    Answers .heartbeatSend wFlL (fun _ => True) ∧
    Answers (.peerSuspect 2) wFl3L (fun _ => True) ∧
    Answers (.peerSuspect 2) wSusp2L (fun _ => True) ∧
    Answers .epochProposeRetry wProposingL (fun _ => True) ∧
    Answers (.retransmit 30) wMsgOffL (fun _ => True) ∧
    Answers (.retransmit 30) wMsgL (fun _ => True) ∧
    Answers (.windowExpired 30) wMsgL (fun _ => True) ∧
    Answers (.retransmit 30) wFlL (fun _ => True) := by
  refine ⟨met ((h.1 wFl3L (wFL 11 13 101) 1 ?_).1 4096 true 64 ?_ ?_),
    met ((h.1 wFlL (wFL 11 10 101) 1 ?_).2.1 2 ?_ ?_ ?_ ?_ ?_ ?_ ?_ ?_),
    met ((h.1 wFl3L (wFL 11 13 101) 1 ?_).2.2.1 ?_ ?_ ?_ [2]),
    met (((h.1 wFl3L (wFL 10 13 100) 0 ?_).2.2.2.1 6 { removed := [1], added := none } ?_ ?_ ?_ ?_ ?_ ?_).1 (.inl rfl)),
    met (((h.1 wRecdL (wFL 10 13 100) 0 ?_).2.2.2.1 6 { removed := [1], added := none } ?_ ?_ ?_ ?_ ?_ ?_).2 { removed := [2], added := none } ?_ ?_),
    met ((h.1 wProposingL (wFL 11 10 101) 1 ?_).2.2.2.2.1 wPropL ?_ ?_ ?_),
    met ((h.1 wFlL (wFL 11 10 101) 1 ?_).2.2.2.2.2),
    met ((h.2.1 wFlL (wFL 11 10 101) 1 6 (wRosterL.drop 1) ?_ ?_).1 ?_ ?_ ?_),
    met ((h.2.1 wFlL (wFL 11 10 101) 1 6 wRoster5L ?_ ?_).2.1 ?_ ?_ ?_ ?_ ?_ ?_ ?_ ?_ wFlL_calm),
    met ((h.2.1 wFlL (wFL 11 10 101) 1 5 [] ?_ ?_).2.2 ?_),
    met (h.2.2.1 wFlL ?_ ?_ ?_),
    met (h.2.2.2.1 wFl3L 2 ?_ ?_ ?_ ?_ ?_ ?_ ?_ ?_ ?_ ?_ ?_ ?_ ?_ ?_),
    met (h.2.2.2.2.1 wSusp2L 2 ?_),
    met (h.2.2.2.2.2.1 wProposingL wPropL ?_ ?_ ?_ ?_),
    met ((h.2.2.2.2.2.2.1 wMsgOffL { id := 30, peer := 2, kind := 0x03, seqNo := 4 } ?_ ?_).1 ?_),
    met ((h.2.2.2.2.2.2.1 wMsgL { id := 30, peer := 2, kind := 0x03, seqNo := 4 } ?_ ?_).2.1 ?_),
    met ((h.2.2.2.2.2.2.1 wMsgL { id := 30, peer := 2, kind := 0x03, seqNo := 4 } ?_ ?_).2.2),
    met ((h.2.2.2.2.2.2.2 wFlL 30 ?_).1)⟩ <;>
    first
    | decide +kernel
    | (unfold NotFleet; decide +kernel)
    | (unfold Passes PassesFilter InSession; decide +kernel)
    | (unfold PassesFilter InSession; decide +kernel)

def wKeepL : State := { wFlL with flt := { wFlL.flt with slice := some 1, sliceSegs := 64 } }
def wIntL : IntentBody := { seqNo := 8, stripe := 4, offset := 16, count := 2, index := 1, delta := [5, 6] }
def wKeepLL : State := { wKeepL with flt := { wKeepL.flt with locks := [4] } }
def wOwnL : Journal := { role := .own, st := .intended, writer := 10, seqNo := 8, stripe := 2, offset := 16, count := 1, index := 1, keeperJ := 0, epoch := 5, cmd := 5 }
def wKeeperL : Journal := { role := .keeper, st := .intended, writer := 12, seqNo := 8, stripe := 4, offset := 16, count := 1, index := 1, keeperJ := 0, epoch := 5 }
def wOwnJL : State :=
    { wFlL with
      flt := { wFlL.flt with journal := [wOwnL] }
      hif := { base.hif with slots := [(5, { cmd := { sq := 1, cid := 9, nsid := 1, ord := false, kind := .write, slba := 16, nlb := 1 }, started := true, accept := 3, fleetReady := false, staged := true, waited := true })] } }
def wMsg20L : State := { wFlL with flt := { wFlL.flt with msgs := [{ id := 30, peer := 2, kind := 0x20, seqNo := 4 }] } }
def wKeepJL : State := { wKeepL with flt := { wKeepL.flt with journal := [{ wKeeperL with delta := some [5] }] } }
def wKeepDL : State := { wKeepL with flt := { wKeepL.flt with journal := [wKeeperL], resolving := [8] } }
def wGatherL : Gather := { use := .element 1, stripe := 4, offset := 0, count := 2, want := 3, asked := [0, 1, 2] }
def wGathL : State := { wFlL with flt := { wFlL.flt with msgs := [{ id := 30, peer := 2, kind := 0x40, seqNo := 6, part := 1 }], gathers := [(6, wGatherL)] } }
def wKeepCutL : State := { wKeepL with thm := { mramCut := true } }
def wResendL : State := { wFlL with flt := { wFlL.flt with resends := [8] } }
def wStaleL : State := { wKeepL with flt := { wKeepL.flt with stale := [(4, 0, false)], locks := [4] } }
theorem wit_KeeperProtocol (h : Obligations.KeeperProtocol) :
    Answers (.intent (wFL 12 10 102) wIntL) wKeepL (fun _ => True) ∧
    Answers (.intent (wFL 12 10 102) wIntL) wKeepLL (fun _ => True) ∧
    Answers (.intentAck (wFL 12 10 102) 8 4096) wOwnJL (fun _ => True) ∧
    Answers (.busy (wFL 12 10 102) 4) wMsg20L (fun _ => True) ∧
    Answers (.mirror (wFL 12 10 102) 0 13 wIntL) wFlL (fun _ => True) ∧
    Answers (.mirrorAck (wFL 11 10 101) 12 8) wKeepJL (fun _ => True) ∧
    Answers (.done (wFL 12 10 102) 8) wKeepDL (fun _ => True) ∧
    Answers (.retire (wFL 12 10 102) 10 8) wOwnJL (fun _ => True) ∧
    Answers (.retire (wFL 12 10 102) 12 8) wKeepDL (fun _ => True) ∧
    Answers (.resolve (wFL 12 10 102) 8) wOwnJL (fun _ => True) ∧
    Answers (.resolveReply (wFL 12 10 102) 12 8 false) wKeepDL (fun _ => True) ∧
    Answers (.resolveReply (wFL 12 10 102) 12 8 true) wKeepDL (fun _ => True) ∧
    Answers (.readReq (wFL 12 10 102) 4 0 1 3) wFlL (fun _ => True) ∧
    Answers (.readReq (wFL 12 10 102) 4 16 2 3) wKeepL (fun _ => True) ∧
    Answers (.readData { wFL 12 10 102 with ref := 30 } 4 0 1 (some [5, 6])) wGathL (fun _ => True) ∧
    Answers (.intent (wFL 12 10 102) wIntL) wKeepCutL (fun _ => True) ∧
    Answers (.intentResend 8) wResendL (fun _ => True) ∧
    Answers (.resyncReadStart 4 3) wStaleL (fun _ => True) ∧
    Answers (.resyncReadStart 4 3) wFlL (fun _ => True) := by
  refine ⟨met (((h.1 wKeepL (wFL 12 10 102) 2 ?_).1 wIntL ?_ ?_ ?_ ?_ ?_ ?_ ?_ ?_).1 ?_ ?_ ?_ ?_ ?_ ?_ ?_ ?_),
    met (((h.1 wKeepLL (wFL 12 10 102) 2 ?_).1 wIntL ?_ ?_ ?_ ?_ ?_ ?_ ?_ ?_).2 ?_),
    met ((h.1 wOwnJL (wFL 12 10 102) 2 ?_).2.1 wOwnL _ 4096 ?_ ?_ ?_ ?_ rfl),
    met ((h.1 wMsg20L (wFL 12 10 102) 2 ?_).2.2.1 4 (⟨_, List.mem_singleton.2 rfl, rfl, rfl, rfl⟩)),
    met ((h.1 wFlL (wFL 12 10 102) 2 ?_).2.2.2.1 0 13 wIntL ?_ ?_ ?_ ?_ ?_),
    met ((h.1 wKeepJL (wFL 11 10 101) 1 ?_).2.2.2.2.1 { wKeeperL with delta := some [5] } 2 ?_ ?_ ?_ ?_ ?_ ?_ ?_ ?_),
    met ((h.1 wKeepDL (wFL 12 10 102) 2 ?_).2.2.2.2.2.1 wKeeperL ?_ ?_ ?_ ?_ ?_ ?_ ?_ ?_),
    met (((h.1 wOwnJL (wFL 12 10 102) 2 ?_).2.2.2.2.2.2.1 wOwnL ?_).1 ?_ ?_),
    met (((h.1 wKeepDL (wFL 12 10 102) 2 ?_).2.2.2.2.2.2.1 wKeeperL ?_).2.1 ?_ 12 8),
    met (((h.1 wOwnJL (wFL 12 10 102) 2 ?_).2.2.2.2.2.2.1 wOwnL ?_).2.2.1 ?_),
    met (((h.1 wKeepDL (wFL 12 10 102) 2 ?_).2.2.2.2.2.2.1 wKeeperL ?_).2.2.2.1 ?_ ?_ ?_),
    met (((h.1 wKeepDL (wFL 12 10 102) 2 ?_).2.2.2.2.2.2.1 wKeeperL ?_).2.2.2.2 ?_ ?_ ?_ ?_ ?_ ?_),
    met ((h.1 wFlL (wFL 12 10 102) 2 ?_).2.2.2.2.2.2.2.1 4 0 1 3 (.inl rfl)),
    met ((h.1 wKeepL (wFL 12 10 102) 2 ?_).2.2.2.2.2.2.2.2.1 1 4 16 2 3 ?_ ?_ ?_ ?_ ?_ ?_ ?_ ?_ ?_ (fun i hi => by interval_cases i <;> decide) ?_ ?_ ?_),
    met ((h.1 wGathL { wFL 12 10 102 with ref := 30 } 2 ?_).2.2.2.2.2.2.2.2.2 { id := 30, peer := 2, kind := 0x40, seqNo := 6, part := 1 } wGatherL [5, 6] ?_ ?_ ?_ ?_ ?_ ?_ ?_ ?_ ?_ ?_ ?_ ?_),
    met (h.2.1 wKeepCutL (wFL 12 10 102) 2 0 13 8 wIntL { removed := [1], added := none } true ?_ ?_ (.intent (wFL 12 10 102) wIntL) ?_),
    met (h.2.2.1 wResendL 8 ?_),
    met (h.2.2.2.1 wStaleL 4 3 ?_ ?_ ?_ ?_ ?_ ?_ ?_ ?_ ?_ ?_ ?_ ?_ ?_ ?_ ?_ ?_),
    met (h.2.2.2.2 wFlL 4 3 ?_)⟩ <;>
    first
    | decide +kernel
    | (unfold Passes PassesFilter InSession; decide +kernel)

def wCertL : State :=
    { base with
      sec := { base.sec with otpOwner := some 3, serial := 0x0102 }
      mem := [(0x10000, 1), (0x10002, 10), (0x10004, 7), (0x10008, 2), (0x10009, 1), (0x10050, 0xFF), (0x10051, 0xFF)] }
def wRosterMemL : List (Nat × Byte) := [(0x10000, 10), (0x10008, 1), (0x10030, 11), (0x10032, 1), (0x10038, 2), (0x10060, 12), (0x10062, 2), (0x10068, 3), (0x10090, 13), (0x10092, 3), (0x10098, 4)]
def wEnrolledL : State := { base with flt := { fstate := .enrolled, unitId := 10, group := 7, ports := ({ st := .up }, {}) }, mem := wRosterMemL }
def wBindL : State :=
    { wFlL with
      map := { base.map with dir := [(1, { groups := [0], segs := 64, attached := true, key := 1 })] }
      stm := { streams := [(2, { st := .admitted, nsid := 1, rate := 400 })] } }
def wProxyL : State := { wKeepL with flt := { wKeepL.flt with roster := wRosterL.take 3 } }
def wProxyDL : State := { wKeepL with map := { base.map with dir := [(1, { groups := [0], segs := 64 }), (2, { groups := [], segs := 64, proxyOf := some 3, fleet := some (4, 1, 3) })] } }
def wReplL : State := { wEnrolledL with flt := { wEnrolledL.flt with unitId := 20 } }
def wLedgerImgL : Image := { parseImage [] with formatOk := true, kind := 2, full := 4321 }
def wSlotsL : List ImgSlot := [{}, { st := .active }, { st := .committed, img := some wLedgerImgL }, {}, {}]
def wHoldsL : State := { wFlL with cst := { mode := .service, slots := wSlotsL } }
def wArmedL : State := { wHoldsL with flt := { wHoldsL.flt with act := some { time := 2000000000, digest := 4321, leader := true } }, tck := { wFlL.tck with alarms := [(1, (2000000000, .os)), (3, (2000000000, .flt))] } }
def wDeclL : State := { wProposingL with flt := { wProposingL.flt with pendingDeclare := some (.beldy, 7, 2) } }
def wFollowL : State := { wArmedL with flt := { wHoldsL.flt with act := some { time := 2000000000, digest := 4321, leader := false } } }
def wFollowLL : State := { wFollowL with tck := { wFollowL.tck with fleet := 1950000000 } }
def wFollowCL : State := { wFollowL with flt := { wHoldsL.flt with act := some { time := 2000000000, digest := 4321, leader := false, commit := true } } }
theorem wit_FleetManage (h : Obligations.FleetManage) :
    Answers (.fleetQuery .beldy 7) wFlL (fun _ => True) ∧
    Answers (.resync .beldy 7) base (fun _ => True) ∧
    Answers (.enroll .beldy 7 0x10000 false true) base (fun _ => True) ∧
    Answers (.enroll .beldy 7 0x10000 true true) wCertL (fun _ => True) ∧
    Answers (.form .beldy 7 7 4 1 0x10000) wEnrolledL (fun _ => True) ∧
    Answers (.form .beldy 7 7 33 1 0x10000) wEnrolledL (fun _ => True) ∧
    Answers (.bind .beldy 7 1 2) wBindL (fun _ => True) ∧
    Answers (.bind .beldy 7 9 2) wBindL (fun _ => True) ∧
    Answers (.proxyCreate .beldy 7 3) wProxyL (fun _ => True) ∧
    Answers (.proxyDelete .beldy 7 2) wProxyDL (fun _ => True) ∧
    Answers (.proxyDelete .beldy 7 1) wProxyDL (fun _ => True) ∧
    Answers (.replace .beldy 7 5 0x10000) wReplL (fun _ => True) ∧
    Answers (.declare .beldy 7 2) wFlL (fun _ => True) ∧
    Answers (.resync .beldy 7) wStaleL (fun _ => True) ∧
    Answers (.fleetActivate .beldy 7 2000000000 4321) wHoldsL (fun _ => True) ∧
    Answers (.cancelActivate .beldy 7) wArmedL (fun _ => True) ∧
    Answers .declareTimeout wDeclL (fun _ => True) ∧
    Answers (.activate (wFL 11 10 101) 2000000000 4321) wHoldsL (fun _ => True) ∧
    Answers (.activateAck (wFL 11 10 101)) wArmedL (fun _ => True) ∧
    Answers (.activateCommit (wFL 11 10 101)) wFollowL (fun _ => True) ∧
    Answers (.activateCancel (wFL 11 10 101)) wFollowL (fun _ => True) ∧
    Answers (.fnsKey (wFL 11 10 101) 77) wFlL (fun _ => True) ∧
    Answers (.fnsKeyAck (wFL 11 10 101)) wFlL (fun _ => True) ∧
    Answers .activationDeadline wFollowLL (fun _ => True) ∧
    Answers .activationDeadline wFollowCL (fun _ => True) := by
  refine ⟨met ((h.1 wFlL .beldy 7).1 ?_),
    met ((h.1 base .beldy 7).2.1 ?_ (.resync .beldy 7) ?_ ?_),
    met (((h.1 base .beldy 7).2.2.1 0x10000 false true ?_ ?_ (.inl rfl) ?_).1 ?_),
    met (((h.1 wCertL .beldy 7).2.2.1 0x10000 true true ?_ ?_ (.inl rfl) ?_).2 _ rfl ?_ ?_ ?_ ?_ ?_ ?_ ?_ ?_ ?_ ?_ ?_),
    met ((h.1 wEnrolledL .beldy 7).2.2.2.1 4 1 0x10000 { unitId := 10, position := 0, addrA := 1, addrB := 0 } ?_ ?_ ?_ ?_ ?_ ?_ ?_ ?_ ?_ ?_),
    met ((h.1 wEnrolledL .beldy 7).2.2.2.2.1 7 33 1 0x10000 ?_ (.inr ?_) ?_),
    met (((h.1 wBindL .beldy 7).2.2.2.2.2.1 1 2 ?_ ?_ ?_ ?_ ?_ ?_ ?_).1 { groups := [0], segs := 64, attached := true, key := 1 } ?_ ?_ ?_ ?_ ?_ ?_ ?_ ?_),
    met (((h.1 wBindL .beldy 7).2.2.2.2.2.1 9 2 ?_ ?_ ?_ ?_ ?_ ?_ ?_).2 ?_),
    met ((h.1 wProxyL .beldy 7).2.2.2.2.2.2.1 3 2 ?_ ?_ ?_ ?_ ?_ ?_),
    met ((h.1 wProxyDL .beldy 7).2.2.2.2.2.2.2.1 2 { groups := [], segs := 64, proxyOf := some 3, fleet := some (4, 1, 3) } ?_ ?_ ?_ ?_ ?_),
    met ((h.1 wProxyDL .beldy 7).2.2.2.2.2.2.2.2.1 1 { groups := [0], segs := 64 } ?_ ?_ ?_ ?_),
    met ((h.1 wReplL .beldy 7).2.2.2.2.2.2.2.2.2.1 5 0x10000 _ (.inl rfl) ?_ ?_ ?_ rfl ?_ ?_ ?_ ?_),
    met ((h.1 wFlL .beldy 7).2.2.2.2.2.2.2.2.2.2.1 2 ?_ ?_ ?_ ?_ ?_ ?_ ?_ ?_ ?_),
    met ((h.1 wStaleL .beldy 7).2.2.2.2.2.2.2.2.2.2.2.1 ?_ ?_),
    met ((h.1 wHoldsL .beldy 7).2.2.2.2.2.2.2.2.2.2.2.2.1 2000000000 4321 ?_ ?_ ?_ ?_ ?_ ?_ ?_ ?_),
    met ((h.1 wArmedL .beldy 7).2.2.2.2.2.2.2.2.2.2.2.2.2 { time := 2000000000, digest := 4321, leader := true } ?_ ?_ ?_ ?_),
    met (h.2.1 wDeclL .beldy 7 2 ?_ (fun _ => nofun)),
    met ((h.2.2.1 wHoldsL (wFL 11 10 101) 1 ?_).1 2000000000 4321 ?_ ?_ ?_ ?_),
    met ((h.2.2.1 wArmedL (wFL 11 10 101) 1 ?_).2.1 { time := 2000000000, digest := 4321, leader := true } ?_ ?_ ?_),
    met (((h.2.2.1 wFollowL (wFL 11 10 101) 1 ?_).2.2.1 { time := 2000000000, digest := 4321, leader := false } ?_ ?_).1),
    met (((h.2.2.1 wFollowL (wFL 11 10 101) 1 ?_).2.2.1 { time := 2000000000, digest := 4321, leader := false } ?_ ?_).2),
    met ((h.2.2.1 wFlL (wFL 11 10 101) 1 ?_).2.2.2.1 77),
    met ((h.2.2.1 wFlL (wFL 11 10 101) 1 ?_).2.2.2.2),
    met ((h.2.2.2 wFollowLL { time := 2000000000, digest := 4321, leader := false } ?_ ?_).1 ?_ ?_ ?_),
    met ((h.2.2.2 wFollowCL { time := 2000000000, digest := 4321, leader := false, commit := true } ?_ ?_).2 ?_)⟩ <;>
    first
    | decide +kernel
    | exact begins_of (by decide +kernel)
    | (unfold Passes PassesFilter InSession; decide +kernel)

def wPortSL (cfg : Nat) (p : FPort) : State := { base with flt := { ports := (p, { st := .up }) }, regs := [(SYS_DISCARD_CNT, 7), (FLT_CFG, BitVec.ofNat 32 cfg)] }
theorem wit_FleetPorts (h : Obligations.FleetPorts) :
    Answers (.portEnable 0) (wPortSL 0x1BE42800 {}) (fun _ => True) ∧
    Answers (.portEnable 0) (wPortSL 0x1BE42800 { st := .draining }) (fun _ => True) ∧
    Answers (.portDisable 0) (wPortSL 0x1BE42801 { st := .up }) (fun _ => True) ∧
    Answers (.portDrainEnd 0) (wPortSL 0x1BE42800 { st := .draining }) (fun _ => True) ∧
    Answers (.portDrainEnd 0) (wPortSL 0x1BE42801 { st := .draining, pending := some true }) (fun _ => True) ∧
    Answers (.fltPortDown 0) (wPortSL 0x1BE42801 { st := .up }) (fun _ => True) ∧
    Answers (.fleetPortLinkUp 0) (wPortSL 0x1BE42801 { starting := true }) (fun _ => True) ∧
    Answers (.portEnable 2) base (fun _ => True) := by
  refine ⟨met ((h.1 (wPortSL 0x1BE42800 {}) 0 ?_ ?_ ?_ ?_ ?_ ?_ ?_).1 ?_ ?_),
    met ((h.1 (wPortSL 0x1BE42800 { st := .draining }) 0 ?_ ?_ ?_ ?_ ?_ ?_ ?_).2.1 ?_ ?_),
    met ((h.1 (wPortSL 0x1BE42801 { st := .up }) 0 ?_ ?_ ?_ ?_ ?_ ?_ ?_).2.2 ?_ ?_),
    met ((h.2.1 (wPortSL 0x1BE42800 { st := .draining }) 0 ?_).1 ?_ ?_),
    met ((h.2.1 (wPortSL 0x1BE42801 { st := .draining, pending := some true }) 0 ?_).2.1 ?_ ?_ ?_),
    met ((h.2.1 (wPortSL 0x1BE42801 { st := .up }) 0 ?_).2.2.1 ?_),
    met ((h.2.1 (wPortSL 0x1BE42801 { starting := true }) 0 ?_).2.2.2 ?_ ?_),
    met (h.2.2 base 2 ?_ (.portEnable 2) ?_)⟩ <;>
    first
    | decide +kernel

def wBeaconL : State := { base with cst := { mode := .beacon, bootCount := 2 } }
def wCommL : State := { base with cst := { mode := .commissioning } }
def wLoaderL : List Byte := le 4 0x4E4D494D ++ le 2 1 ++ le 2 0x0960 ++ [0, 1, 0, 0, 0, 0, 0, 0] ++ le 8 77 ++ le 4 0
def wXferL (ps : List (Nat × List Byte)) : Transfer := { peer := 4, slot := 1, img := parseImage wLoaderL, pieces := ps }
def wXferSL (ps : List (Nat × List Byte)) : State := { wBeaconL with cst := { wBeaconL.cst with transfer := some (wXferL ps), slots := [{ st := .active }, { st := .active }, {}, {}, {}] } }
def wOsManL : List Byte := le 4 0x4E4D494D ++ le 2 1 ++ le 2 0x0960 ++ [0, 3, 0, 0, 0, 0, 0, 0] ++ le 8 77 ++ le 4 0
def wXferOsL (queued : Bool) : Transfer := { peer := 4, slot := 4, img := parseImage wOsManL, pieces := [(0, wOsManL)], queued := queued }
def wOsLeftL : SysCw := { item := .image 12 0, data := some (blockOf [7]) }
def wXferOsSL (queued : Bool) (todo : List SysCw) : State := { wBeaconL with cst := { wBeaconL.cst with transfer := some (wXferOsL queued), slots := List.replicate 5 {} }, sec := { base.sec with otpOwner := some 1 }, bnd := { base.bnd with sysTodo := todo } }
def wAskedL : State := { base with cst := { mode := .beacon, lastSeq := some (4, 9), lastAnswer := (0x0105, [1, 2]) } }
def wIdleL : State := { (wXferSL []) with tck := { base.tck with now := 10000000000 } }
theorem wit_BeaconProtocol (h : Obligations.BeaconProtocol) :
    Answers (.discover 4 9) wBeaconL (fun _ => True) ∧
    Answers (.begin_ 4 9 1 wLoaderL) wBeaconL (fun _ => True) ∧
    Answers (.begin_ 4 9 1 [1, 2]) wBeaconL (fun _ => True) ∧
    Answers (.begin_ 5 9 1 wLoaderL) (wXferSL []) (fun _ => True) ∧
    Answers (.data 4 9 0x100 [1, 2, 3]) (wXferSL [(0, wLoaderL)]) (fun _ => True) ∧
    Answers (.data 4 9 0 wLoaderL) (wXferSL []) (fun _ => True) ∧
    Answers (.data 4 9 1 [1, 2, 3]) (wXferSL [(0, wLoaderL)]) (fun _ => True) ∧
    Answers (.end_ 4 9 { keyOk := true, sigOk := true, digestOk := true }) (wXferSL [(0, wLoaderL)]) (fun _ => True) ∧
    Answers (.end_ 4 9 { keyOk := true, sigOk := false, digestOk := true }) (wXferSL [(0, wLoaderL)]) (fun _ => True) ∧
    Answers (.end_ 4 9 { keyOk := true, sigOk := true, digestOk := true }) (wXferOsSL false []) (fun _ => True) ∧
    Answers (.end_ 4 9 { keyOk := true, sigOk := true, digestOk := true }) (wXferOsSL true [wOsLeftL]) (fun _ => True) ∧
    Answers (.end_ 4 9 { keyOk := true, sigOk := true, digestOk := true }) (wXferOsSL true []) (fun _ => True) ∧
    Answers (.lanternRead 4 9 64 128) wBeaconL (fun _ => True) ∧
    Answers (.restart 4 9) wBeaconL (fun _ => True) ∧
    Answers (.regRead 4 9 FLT_CFG) wCommL (fun _ => True) ∧
    Answers (.regWrite 4 9 FLT_MIN_SECVER 5) wCommL (fun _ => True) ∧
    Answers (.ring 4 9 []) wBeaconL (fun _ => True) ∧
    Answers (.ring 4 9 (le 2 0x0804 ++ [0, 0] ++ le 4 9)) wCommL (fun _ => True) ∧
    Answers (.ring 4 9 (le 2 0x0500)) wCommL (fun _ => True) ∧
    Answers (.discover 4 9) wAskedL (fun _ => True) ∧
    Answers (.ring 4 9 []) base (fun _ => True) ∧
    Answers .beaconTransferIdle wIdleL (fun _ => True) ∧
    Answers .beaconTransferIdle (wXferSL []) (fun _ => True) ∧
    Answers .beaconTransferIdle wBeaconL (fun _ => True) := by
  refine ⟨met ((h.1 wBeaconL 4 9 ?_ ?_).1),
    met (((h.1 wBeaconL 4 9 ?_ ?_).2.1 1 wLoaderL ?_).1 ?_ ?_),
    met (((h.1 wBeaconL 4 9 ?_ ?_).2.1 1 [1, 2] ?_).2 ?_),
    met ((h.1 (wXferSL []) 5 9 ?_ ?_).2.2.1 (wXferL []) 1 wLoaderL rfl ?_),
    met (((h.1 (wXferSL [(0, wLoaderL)]) 4 9 ?_ ?_).2.2.2.1 (wXferL [(0, wLoaderL)]) 0x100 [1, 2, 3] rfl ?_ ?_).1 ?_ ?_),
    met (((h.1 (wXferSL []) 4 9 ?_ ?_).2.2.2.1 (wXferL []) 0 wLoaderL rfl ?_ ?_).2.1 ?_ ?_ ?_ ?_ ?_),
    met (((h.1 (wXferSL [(0, wLoaderL)]) 4 9 ?_ ?_).2.2.2.1 (wXferL [(0, wLoaderL)]) 1 [1, 2, 3] rfl ?_ ?_).2.2 ?_),
    met (((h.1 (wXferSL [(0, wLoaderL)]) 4 9 ?_ ?_).2.2.2.2.1 (wXferL [(0, wLoaderL)]) { keyOk := true, sigOk := true, digestOk := true } _ rfl ?_ ?_ ?_ ?_ rfl).2.2.1 ?_ (.inl ?_) ?_),
    met (((h.1 (wXferSL [(0, wLoaderL)]) 4 9 ?_ ?_).2.2.2.2.1 (wXferL [(0, wLoaderL)]) { keyOk := true, sigOk := false, digestOk := true } _ rfl ?_ ?_ ?_ ?_ rfl).2.2.2 ?_),
    met (((h.1 (wXferOsSL false []) 4 9 ?_ ?_).2.2.2.2.1 (wXferOsL false) { keyOk := true, sigOk := true, digestOk := true } _ rfl ?_ ?_ ?_ ?_ rfl).1 ?_ ?_ ?_),
    met (((h.1 (wXferOsSL true [wOsLeftL]) 4 9 ?_ ?_).2.2.2.2.1 (wXferOsL true) { keyOk := true, sigOk := true, digestOk := true } _ rfl ?_ ?_ ?_ ?_ rfl).2.1 ?_ (.inr ?_) ?_),
    met (((h.1 (wXferOsSL true []) 4 9 ?_ ?_).2.2.2.2.1 (wXferOsL true) { keyOk := true, sigOk := true, digestOk := true } _ rfl ?_ ?_ ?_ ?_ rfl).2.2.1 ?_ (.inr ?_) ?_),
    met ((h.1 wBeaconL 4 9 ?_ ?_).2.2.2.2.2.1 64 128 ?_),
    met ((h.1 wBeaconL 4 9 ?_ ?_).2.2.2.2.2.2.1),
    met (((h.1 wCommL 4 9 ?_ ?_).2.2.2.2.2.2.2.1 FLT_CFG 5 ?_ ?_ ?_).1),
    met (((h.1 wCommL 4 9 ?_ ?_).2.2.2.2.2.2.2.1 FLT_MIN_SECVER 5 ?_ ?_ ?_).2),
    met ((h.1 wBeaconL 4 9 ?_ ?_).2.2.2.2.2.2.2.2.1 0x100 5 ?_ (.ring 4 9 []) ?_),
    met (((h.1 wCommL 4 9 ?_ ?_).2.2.2.2.2.2.2.2.2 (le 2 0x0804 ++ [0, 0] ++ le 4 9) ?_).1 ?_ ?_),
    met (((h.1 wCommL 4 9 ?_ ?_).2.2.2.2.2.2.2.2.2 (le 2 0x0500) ?_).2 ?_),
    met ((h.2.1 wAskedL 4 9 0 16 { keyOk := true, sigOk := true, digestOk := true } []).1 ?_ ?_ (.discover 4 9) ?_),
    met ((h.2.1 base 4 9 0 16 { keyOk := true, sigOk := true, digestOk := true } []).2 ?_ (.ring 4 9 []) ?_),
    met ((h.2.2.1 wIdleL (wXferL []) rfl).1 ?_),
    met ((h.2.2.1 (wXferSL []) (wXferL []) rfl).2 ?_),
    met (h.2.2.2 wBeaconL ?_)⟩ <;>
    first
    | decide +kernel

def wFrozenL : State := { base with lnt := { base.lnt with frozen := true, frozenSeq := 8 } }
def wFrozenHL : State := { wFrozenL with cst := { mode := .halt } }
def wRecs0L : State := { base with lnt := { base.lnt with recs := [(8, { time := 5, tick := 1, status := 0x0105, seq := 8, mode := 4, detail := [1, 2] })] } }
def wRecsL : State := { wRecs0L with sys := { taken := [{ src := .admin 5, opcode := 0x1005, tag := 7, body := le 4 8 ++ le 2 2 ++ [0, 0] ++ le 8 0 }] } }
def wDroppedL : State := { base with lnt := { base.lnt with dropped := 3 } }
def wHourL : State := setPort 0 (fun p => { p with deadlines := 130 }) base
def wRebL (done : Nat) : Rebuild := { position := 2, port := 2, marked := [40, 44, 48], done := done, startNow := 0 }
def wRebSlowL : State := { base with mbr := { base.mbr with rebuild := some (wRebL 1) }, tck := { base.tck with now := 90000000000000 } }
def wRebFastL : State := { base with mbr := { base.mbr with rebuild := some (wRebL 1) } }
theorem wit_LanternAndHealth (h : Obligations.LanternAndHealth) :
    Answers (.lanternQuery .beldy 7) base (fun _ => True) ∧
    Answers (.freeze .beldy 7) wFrozenL (fun _ => True) ∧
    Answers (.thaw .beldy 7) base (fun _ => True) ∧
    Answers (.freeze .beldy 7) base (fun _ => True) ∧
    Answers (.lanternMark .beldy 7 [1, 2]) base (fun _ => True) ∧
    Answers (.clear .beldy 7) base (fun _ => True) ∧
    Answers (.thaw .beldy 7) wFrozenL (fun _ => True) ∧
    Answers (.thaw .beldy 7) wFrozenHL (fun _ => True) ∧
    Answers (.lanternControlRead (.admin 5) 7 8 2 0) wRecsL (fun _ => True) ∧
    Answers (.lanternControlRead (.ring 3) 7 8 2 0x10000) wRecs0L (fun _ => True) ∧
    Answers .lntDropped wDroppedL (fun _ => True) ∧
    Answers .lntDropped base (fun _ => True) ∧
    Answers .earlyWarningHourly { base with lnt := { base.lnt with raised := [5, 6] } } (fun _ => True) ∧
    Answers .earlyWarningHourly wHourL (fun _ => True) ∧
    Answers .earlyWarningMinute wRebSlowL (fun _ => True) ∧
    Answers .earlyWarningMinute wRebFastL (fun _ => True) ∧
    Answers .earlyWarningMinute base (fun _ => True) ∧
    Answers .tempHistorySecond base (fun _ => True) ∧
    Answers .tempHistorySecond State.reset (fun _ => True) := by
  refine ⟨met ((h.1 base .beldy 7).1 ?_),
    met ((h.1 wFrozenL .beldy 7).2.1 ?_ [1] (.freeze .beldy 7) ?_ ?_),
    met ((h.1 base .beldy 7).2.2.1 ?_ ?_),
    met (((h.1 base .beldy 7).2.2.2.1 ?_ ?_ ?_ ?_).1 ?_),
    met (((h.1 base .beldy 7).2.2.2.1 ?_ ?_ ?_ ?_).2.1 [1, 2] ?_),
    met (((h.1 base .beldy 7).2.2.2.1 ?_ ?_ ?_ ?_).2.2 ?_ ?_),
    met ((h.1 wFrozenL .beldy 7).2.2.2.2.1 ?_ ?_ ?_ ?_ ?_ ?_),
    met ((h.1 wFrozenHL .beldy 7).2.2.2.2.2 ?_ ?_ ?_),
    met ((h.2.1 wRecsL 7 8 2 0 ?_).1 5 ?_ ?_),
    met ((h.2.1 wRecs0L 7 8 2 0x10000 ?_).2 3 ?_ ?_ ?_ ?_ ?_),
    met (h.2.2.1 wDroppedL ?_ ?_ ?_ ?_ ?_),
    met (h.2.2.2.1 base ?_),
    met (h.2.2.2.2.1 { base with lnt := { base.lnt with raised := [5, 6] } } ?_ ?_),
    met (h.2.2.2.2.2.1 wHourL { wPort 0 with deadlines := 130 } ?_ ?_ ?_),
    met ((h.2.2.2.2.2.2.1 wRebSlowL (wRebL 1) ?_ ?_ ?_).1 ?_),
    met ((h.2.2.2.2.2.2.1 wRebFastL (wRebL 1) ?_ ?_ ?_).2 ?_),
    met (h.2.2.2.2.2.2.2.1 base ?_),
    met (h.2.2.2.2.2.2.2.2.1 base ?_),
    met (h.2.2.2.2.2.2.2.2.2 State.reset ?_)⟩ <;>
    first
    | decide +kernel
    | exact begins_of (by decide +kernel)

/-! The statements about every step: a state that meets their hypotheses and takes a step. -/

theorem wit_StepRunsFront (h : Obligations.StepRunsFront) :
    Machine.step { base with pending := [.tickEdge, .sanitizeEnd] } = exec .tickEdge { base with pending := [.sanitizeEnd] }
      ∧ Machine.step State.reset = .next State.reset :=
  ⟨h.1 _ _ _ rfl, h.2 _ rfl⟩

def wQueued : State :=
    { base with
      sec := { base.sec with otpSecret := some 4, otpOwner := some 9, otpDaymark := true, otpLifecycle := true, steps := [true, false] }
      mem := [(5, 7)], pending := [.secverAdvance 1] }

theorem wit_StepKeepsCanonical (h : Obligations.StepKeepsCanonical) : ∃ t, Machine.step wQueued = .next t ∧ Canonical t :=
  ⟨_, rfl, h wQueued _ ⟨by decide +kernel, by decide +kernel⟩ rfl⟩

theorem wit_OtpFusesStay (h : Obligations.OtpFusesStay) : ∃ t, Machine.step wQueued = .next t ∧ t.sec.otpSecret = some 4 ∧ t.sec.otpOwner = some 9 :=
  ⟨_, rfl, (h wQueued _ rfl).1 4 rfl, (h wQueued _ rfl).2.1 9 rfl⟩

theorem wit_CommandsLeaveQueue (h : Obligations.CommandsLeaveQueue) : Answers .secTrngFail wQueued (fun _ => True) := met (h _ _)

/-! The state after reset. -/

theorem reset_canonical : Canonical State.reset := ⟨by decide +kernel, by decide +kernel⟩

theorem test_reset_idles : Machine.step State.reset = .next State.reset := rfl

/-! `WellFormed` refuses an operand outside each range. -/

def wVend (n op : Nat) : Vend := { cid := 0, nsid := 0, prp2 := 0, opcode := op, flags := 0, rspec := 0, rsv := false, body := List.replicate n 0 }

theorem test_wf_alarm : (Instr.alarmFired 3).wf = true ∧ (Instr.alarmFired 4).wf = false ∧ (Instr.alarmArm 4 0).wf = false := by decide
theorem test_wf_offset : (Instr.latchingLoRead 8).wf = true ∧ (Instr.regRead 0 0 6).wf = false ∧ (Instr.regWrite 0 0 2 0).wf = false := by decide
theorem test_wf_clock : (Instr.pllUnlock 13).wf = true ∧ (Instr.pllRelocked 14).wf = false ∧ (Instr.gateDrainEnd 31).wf = false := by decide
theorem test_wf_gpio : (Instr.gpioEdge 15 true).wf = true ∧ (Instr.gpioEdge 16 true).wf = false := by decide
theorem test_wf_samples : (Instr.thmSample []).wf = false := by decide
def wNoCarrier : PortSeen := { present := false, faultLow := false, serial := 0, memb := none, targets := [] }
theorem test_wf_start : (Instr.xtalQualified { wEnvB with ports := List.replicate 9 wNoCarrier, lanesOk := List.replicate 8 true }).wf = true
    ∧ (Instr.xtalQualified { wEnvB with ports := [] }).wf = false
    ∧ (Instr.xtalQualified { wEnvB with lanesOk := [] }).wf = false := by decide +kernel
theorem test_wf_write : (Instr.write { sq := 1, cid := 0, nsid := 1, ord := false } 0 0 0 0 []).wf = false
    ∧ (Instr.write { sq := 1, cid := 0, nsid := 1, ord := false } 0 2 0 0 [5]).wf = false
    ∧ (Instr.write { sq := 1, cid := 0, nsid := 1, ord := false } 0 1 0 0 [5]).wf = true := by decide +kernel
theorem test_wf_vendor : (Instr.streamManage (wVend 56 0x0301)).wf = true ∧ (Instr.streamManage (wVend 55 0x0301)).wf = false
    ∧ (Instr.fleetManage (wVend 56 65536)).wf = false := by decide +kernel
theorem test_wf_flash : (Instr.programStatus 35 0 true).wf = true ∧ (Instr.eraseStatus 36 0 true).wf = false
    ∧ (Instr.channelTrainingDone 36 true).wf = false := by decide
theorem test_wf_member : (Instr.memberRemoved 8).wf = true ∧ (Instr.memberFault 9).wf = false ∧ (Instr.powerSequenceEnd 9).wf = false := by decide
theorem test_wf_fleet_port : (Instr.portEnable 1).wf = true ∧ (Instr.portDisable 2).wf = false ∧ (Instr.arpNdpFrame 2 true).wf = false := by decide
theorem test_wf_lane : (Instr.laneEnable 7).wf = true ∧ (Instr.laneTestEnd 8 true).wf = false := by decide
theorem test_wf_pair : (Instr.ledgerFault 9 1 .word).wf = true ∧ (Instr.ledgerFault 9 2 .word).wf = false ∧ (Instr.ledgerRestartEnd 10).wf = false := by decide
theorem test_wf_descriptor : (Instr.transfer 0 ⟨List.replicate 64 0, []⟩).wf = true ∧ (Instr.ring 0 0 []).wf = false := by decide +kernel
theorem test_wf_bank : (Instr.cstProgramDone 15 0 true).wf = true ∧ (Instr.cstEraseResume 16).wf = false := by decide
theorem test_wf_read : (Instr.readTransfer 1 36864 false {} []).wf = true
    ∧ (Instr.readTransfer 1 36865 false {} []).wf = false := by decide
theorem test_wf_commit : (Instr.commitStore .os 2).wf = true ∧ (Instr.commitStore .dropped 2).wf = false ∧ (Instr.commitActivate .dropped 2).wf = false := by decide
theorem test_wf_qualify : (Instr.memberQualifyDone 8 { targets := [{ chpos := 3, target := 31, id := [] }], factory := [], erasesOk := true }).wf = true
    ∧ (Instr.memberQualifyDone 8 { targets := [{ chpos := 4, target := 0, id := [] }], factory := [], erasesOk := true }).wf = false := by decide
theorem test_wf_mark : (Instr.lanternMark .beldy 0 (List.replicate 40 1)).wf = true ∧ (Instr.lanternMark .beldy 0 [1]).wf = false := by decide +kernel

/-! Worked examples of the manual; each expected value stands in the example named. -/

/-- 05_segment_map.md, the example of R139: LBA 2,001 of a run that starts at row 109, slot 20 with D = 28, mapped from offset 0 on. -/
theorem test_extent_location : extentLoc 28 5 109 20 2001 = { band := 5, row := 127, slot := 16, cw := 1 } := by decide +kernel

/-- 06_flash_channels.md, the example of R165: row 5,000 lies on target 2s, wordline 208, plane 2, level 2, page 626. -/
theorem test_row_place : rowPlace {} 3 5000 = (6, 208, 2, 2, 626) := by decide +kernel

/-- 06_flash_channels.md, the example of R190: age bucket 4 at 10,800 s, and a step of −5 for 17,971 ones. -/
theorem test_retry_step : ageBucket 10800 = 4 ∧ shiftStep 400 17971 = -5 := by decide +kernel

/-- 08_member_parity.md, the example of R240: D_0 = 0x35 and D_1 = 0x9C from Pxy = 0xA9 and Qxy = 0x10. -/
theorem test_recover_two : recoverData 2 [] (some { wseq := 0xA9 }) (some { wseq := 0x10 })
    = some [(0, { wseq := 0x35 }), (1, { wseq := 0x9C })] := by decide +kernel

/-- 09_fleet.md, the example of R281: a(1,0) = 0xF5 and a(1,1) = 0x8F with m = 2. -/
theorem test_fleet_coefficients : fleetCoef 2 1 0 = 0xF5 ∧ fleetCoef 2 1 1 = 0x8F := by decide +kernel

/-- 09_fleet.md, the example of R280: host segment 3,906 of position 2 with n = 5 and m = 1 is stored segment 4,883; its keeper is
position 3 and its relief keeper position 4. -/
theorem test_fleet_segment : Ns.stored { groups := [], segs := 8000, fleet := some (5, 1, 2) } 3906 = 4883 ∧ 4883 % 5 = 3 := by decide +kernel

/-- 11_cores_memories_mover.md, the example of R349: partition bases in MiB with POOL_SIZE = 512, SIZE = 24, FLT_KEEP_BUF = 512. -/
theorem test_hbm_bases : hbmBases { base with regs := [(FLT_KEEP_BUF, 512), (MAP_POOL_CFG, 512), (STM_STAGING_CFG, 0x118)] }
    = (0x2800, 0x2A00, 0x8A00, 0xCA00, 0xCB00) := by decide +kernel

/-- 02_tick_and_time.md, the example of R39: L = 8,564 ns lies in the limits 8,560-10,000 ns at P = 8 µs. -/
theorem test_frame_lock : periodNs 1 = 8000 ∧ 8333333 / 973 = 8564 ∧ frameLenOk base 8564 = true ∧ frameLenOk base 8560 = true
    ∧ frameLenOk base 10000 = true ∧ frameLenOk base 10001 = false ∧ frameLenOk base 8559 = false := by decide +kernel

/-- 02_tick_and_time.md, the example of R44: 20,000 MB/s in 8+1 takes 43.9453125 W slots a tick, 5,625 over 128 rows. -/
theorem test_w_slots : slotShare base 20000 9 8 = (5625, 128) := by decide +kernel

def wFull : State :=
    { base with
      mbr := { base.mbr with ports := (List.range 9).map (fun m => wPort m) }
      flc := { fitted := (List.range 36).map (fun c => (c, 0xFFFFFFFF)) }
      regs := [(SYS_DISCARD_CNT, 7), (THM_CFG, 0x00145F5F)] }

/-- 04_capture_streams.md, the admission example: C_adm = 80,000 MB/s for 8+1 at full population. -/
theorem test_ceiling : cAdm wFull = 80000 := by decide +kernel

end Sys2Proof.Tests
end

section
/-! SUPPORT. The seal (R438, R439, R349): what step 9 of a start leaves as it is, the outcomes of a store to SYS_SEAL, and the checks of
Table 15.3. -/

namespace Sys2Proof.Machine

open Sys2Proof.Safety

/-! ### Codes and lists -/

/-- Raising a code changes nothing of SYS but the interrupt sources (R416). -/
theorem raise_sys (code : Nat) (d : List Byte) (s : State) :
    (raise code d s).sys = { s.sys with irq := addTo s.sys.irq (code / 256 + 1) } := by
  unfold raise
  split <;> simp [noteCode, irqRaise]

theorem mem_addTo_self (l : List Nat) (n : Nat) : n ∈ addTo l n := by
  unfold addTo
  split <;> simp_all

/-! ### What the seal fixes stays

`f_sealFrame`: f leaves the seal, the saved size of the pool and the host's command slots as they are, as far as the frames of the parts
SYS, CST and HIF do not say so already. -/

@[simp] theorem ite_isSealed (c : Prop) [Decidable c] (a b : Sys) :
    (if c then a else b).isSealed = if c then a.isSealed else b.isSealed := apply_ite Sys.isSealed c a b

@[simp] theorem ite_slots (c : Prop) [Decidable c] (a b : Hif) :
    (if c then a else b).slots = if c then a.slots else b.slots := apply_ite Hif.slots c a b

@[simp] theorem ite_savedPool (c : Prop) [Decidable c] (a b : Cst) :
    (if c then a else b).savedPool = if c then a.savedPool else b.savedPool := apply_ite Cst.savedPool c a b

/-- What every step of a loop leaves as it is, the loop leaves as it is. -/
theorem forAll_keeps {α β : Type} (P : State → β) (l : List α) (f : α → State → State) (s : State)
    (h : ∀ x s, P (f x s) = P s) : P (forAll l f s) = P s := by
  unfold forAll
  induction l generalizing s with
  | nil => rfl
  | cons x xs ih => rw [List.foldl_cons, ih, h]

@[simp] theorem forAll_isSealed {α : Type} (l : List α) (f : α → State → State) (s : State)
    (h : ∀ x s, (f x s).sys.isSealed = s.sys.isSealed) : (forAll l f s).sys.isSealed = s.sys.isSealed :=
  forAll_keeps (fun s => s.sys.isSealed) l f s h

@[simp] theorem forAll_slots {α : Type} (l : List α) (f : α → State → State) (s : State)
    (h : ∀ x s, (f x s).hif.slots = s.hif.slots) : (forAll l f s).hif.slots = s.hif.slots :=
  forAll_keeps (fun s => s.hif.slots) l f s h

@[simp] theorem raise_isSealed (code : Nat) (d : List Byte) (s : State) : (raise code d s).sys.isSealed = s.sys.isSealed := by
  rw [raise_sys]

@[simp] theorem lntStart_isSealed (m : Mode) (s : State) : (lntStart m s).sys.isSealed = s.sys.isSealed := by
  unfold lntStart
  split <;> simp

@[simp] theorem lntFreeze_isSealed (n : Nat) (s : State) : (lntFreeze n s).sys.isSealed = s.sys.isSealed := by
  unfold lntFreeze
  split <;> simp [noteCode, irqRaise]

@[simp] theorem enterHalt_sealFrame (s : State) :
    (enterHalt s).sys.isSealed = s.sys.isSealed ∧ (enterHalt s).cst.savedPool = s.cst.savedPool
      ∧ (enterHalt s).hif.slots = s.hif.slots := by
  unfold enterHalt raiseFreeze
  split <;> simp

@[simp] theorem haltWith_sealFrame (c : Nat) (d : List Byte) (s : State) :
    (haltWith c d s).sys.isSealed = s.sys.isSealed ∧ (haltWith c d s).cst.savedPool = s.cst.savedPool
      ∧ (haltWith c d s).hif.slots = s.hif.slots := by
  simp [haltWith]

@[simp] theorem mapReplay_sealFrame (s : State) :
    (mapReplay s).sys.isSealed = s.sys.isSealed ∧ (mapReplay s).cst.savedPool = s.cst.savedPool
      ∧ (mapReplay s).hif.slots = s.hif.slots := by
  unfold mapReplay
  split <;> simp

@[simp] theorem complete_isSealed (src : Src) (tag st : Nat) (b r : List Byte) (s : State) :
    (complete src tag st b r s).sys.isSealed = s.sys.isSealed := by
  unfold complete
  cases src <;> simp

@[simp] theorem dropStream_isSealed (i : Nat) (s : State) : (dropStream i s).sys.isSealed = s.sys.isSealed := by
  unfold dropStream
  simp

@[simp] theorem hostEmit_slots (o : Out) (s : State) : (hostEmit o s).hif.slots = s.hif.slots := by
  simp [hostEmit]

@[simp] theorem interrupt_slots (v : Nat) (s : State) : (interrupt v s).hif.slots = s.hif.slots := by
  unfold interrupt
  split <;> simp

@[simp] theorem writeCqe_slots (cq : Nat) (c : Cqe) (s : State) : (writeCqe cq c s).hif.slots = s.hif.slots := by
  simp [writeCqe]

@[simp] theorem postCqe_slots (cq : Nat) (c : Cqe) (s : State) : (postCqe cq c s).hif.slots = s.hif.slots := by
  unfold postCqe
  split <;> simp

@[simp] theorem asyncEvent_slots (ty info page : Nat) (s : State) : (asyncEvent ty info page s).hif.slots = s.hif.slots := by
  unfold asyncEvent adminDone
  dsimp only
  (repeat' split) <;> simp

@[simp] theorem rescale_sealFrame (s : State) :
    (rescale s).sys.isSealed = s.sys.isSealed ∧ (rescale s).hif.slots = s.hif.slots := by
  simp [rescale]

@[simp] theorem settingsEntry_savedPool (s : State) : (settingsEntry s).cst.savedPool = s.cst.savedPool := by
  unfold settingsEntry
  simp

@[simp] theorem wearCheck_isSealed (s : State) : (wearCheck s).sys.isSealed = s.sys.isSealed := by
  simp [wearCheck, doIf]

@[simp] theorem freeCheck_isSealed (s : State) : (freeCheck s).sys.isSealed = s.sys.isSealed := by
  unfold freeCheck
  simp

@[simp] theorem reissue_isSealed (pad : Bool) (key : Nat) (s : State) : (reissue pad key s).sys.isSealed = s.sys.isSealed := by
  unfold reissue
  dsimp only
  (repeat' split) <;> simp

@[simp] theorem closeEarly_isSealed (b : Nat) (s : State) : (closeEarly b s).sys.isSealed = s.sys.isSealed := by
  simp [closeEarly]

@[simp] theorem holdParity_isSealed (b ch lo hi : Nat) (s : State) : (holdParity b ch lo hi s).sys.isSealed = s.sys.isSealed := by
  simp [holdParity]

@[simp] theorem startRebuild_sealFrame (pos m : Nat) (s : State) :
    (startRebuild pos m s).sys.isSealed = s.sys.isSealed ∧ (startRebuild pos m s).cst.savedPool = s.cst.savedPool
      ∧ (startRebuild pos m s).hif.slots = s.hif.slots := by
  simp [startRebuild, memberChanged, memberRecord]

@[simp] theorem autoRebuild_sealFrame (s : State) :
    (autoRebuild s).sys.isSealed = s.sys.isSealed ∧ (autoRebuild s).cst.savedPool = s.cst.savedPool
      ∧ (autoRebuild s).hif.slots = s.hif.slots := by
  unfold autoRebuild
  (repeat' split) <;> simp

/-! ### Step 9 of a start (Table 12.3) -/

/-- The probe of cut units uses free values up, and nothing else (R178). -/
theorem probeUnits_state (ks : List Nat) (s : State) : ∃ n, (probeUnits ks s).2 = { s with freeCtr := n } := by
  induction ks generalizing s with
  | nil => exact ⟨s.freeCtr, rfl⟩
  | cons k ks ih =>
    unfold probeUnits
    dsimp only
    split
    · exact ⟨_, rfl⟩
    · exact ih _

@[simp] theorem probeUnits_frame (ks : List Nat) (s : State) :
    (probeUnits ks s).2.pending = s.pending ∧ (probeUnits ks s).2.latch = s.latch ∧ (probeUnits ks s).2.mem = s.mem
      ∧ (probeUnits ks s).2.sys = s.sys
      ∧ (probeUnits ks s).2.clk = s.clk ∧ (probeUnits ks s).2.thm = s.thm ∧ (probeUnits ks s).2.hif = s.hif
      ∧ (probeUnits ks s).2.flt = s.flt ∧ (probeUnits ks s).2.cpx = s.cpx ∧ (probeUnits ks s).2.memc = s.memc
      ∧ (probeUnits ks s).2.mov = s.mov ∧ (probeUnits ks s).2.cst = s.cst := by
  obtain ⟨n, h⟩ := probeUnits_state ks s
  simp [h]

@[simp] theorem probeBlk_frame (b ch : Nat) (s : State) :
    (probeBlk b ch s).pending = s.pending ∧ (probeBlk b ch s).latch = s.latch ∧ (probeBlk b ch s).mem = s.mem
      ∧ (probeBlk b ch s).clk = s.clk ∧ (probeBlk b ch s).thm = s.thm ∧ (probeBlk b ch s).hif = s.hif
      ∧ (probeBlk b ch s).flt = s.flt ∧ (probeBlk b ch s).cpx = s.cpx ∧ (probeBlk b ch s).memc = s.memc
      ∧ (probeBlk b ch s).mov = s.mov ∧ (probeBlk b ch s).cst = s.cst
      ∧ (probeBlk b ch s).sys.isSealed = s.sys.isSealed := by
  unfold probeBlk
  dsimp only
  split
  · simp
  · and_intros <;> simp

@[simp] theorem closeFound_frame (b : Nat) (s : State) :
    (closeFound b s).pending = s.pending ∧ (closeFound b s).latch = s.latch ∧ (closeFound b s).mem = s.mem
      ∧ (closeFound b s).clk = s.clk ∧ (closeFound b s).thm = s.thm ∧ (closeFound b s).hif = s.hif
      ∧ (closeFound b s).flt = s.flt ∧ (closeFound b s).cpx = s.cpx ∧ (closeFound b s).memc = s.memc
      ∧ (closeFound b s).mov = s.mov ∧ (closeFound b s).cst = s.cst
      ∧ (closeFound b s).sys.isSealed = s.sys.isSealed := by
  simp [closeFound]

/-- Step 9 leaves memory, clocks, fleet, cores, MEM and Movers as they are, and what the seal has fixed. -/
@[simp] theorem stepNine_frame (s : State) :
    (stepNine s).pending = s.pending ∧ (stepNine s).latch = s.latch ∧ (stepNine s).mem = s.mem
      ∧ (stepNine s).clk = s.clk ∧ (stepNine s).thm = s.thm
      ∧ (stepNine s).flt = s.flt ∧ (stepNine s).cpx = s.cpx ∧ (stepNine s).memc = s.memc
      ∧ (stepNine s).mov = s.mov ∧ (stepNine s).cst.savedPool = s.cst.savedPool
      ∧ (stepNine s).sys.isSealed = s.sys.isSealed ∧ (stepNine s).hif.slots = s.hif.slots := by
  unfold stepNine
  dsimp only
  split <;> simp

/-! ### Frames of codes and counters -/

theorem sameBut_raise (code : Nat) (d : List Byte) (s : State) : SameBut notes s (raise code d s) := by
  refine ⟨by simp, fun p hp => ?_⟩
  cases p <;> simp [notes, Part.same] at hp ⊢

theorem sameBut_bump (off : Nat) (s : State) : SameBut [.regs] s (bump off s) := by
  refine ⟨by simp, fun p hp => ?_⟩
  cases p <;> simp [Part.same] at hp ⊢

theorem sameBut_notes_bump (off : Nat) (s : State) : SameBut notes s (bump off s) :=
  sameBut_mono (sameBut_bump off s) (by decide)

/-! ### The seal -/

/-- The parts that the seal may change, those of step 9 among them. -/
def sealParts : List Part :=
  [.regs, .sys, .tck, .hif, .stm, .map, .flc, .bnd, .mbr, .sec, .memc, .cst, .lnt, .out, .freeCtr]

theorem sameBut_stepNine (s : State) : SameBut sealParts s (stepNine s) := by
  refine ⟨by simp, fun p hp => ?_⟩
  cases p <;> simp [sealParts, Part.same] at hp ⊢

/-- The unit as the seal takes effect, before step 9 (R438, R439). -/
def sealedState (s : State) : State :=
  settingsEntry (raise Ev.SYS_SEALED [] { s with
    sys := { s.sys with isSealed := true }
    memc := { s.memc with fixedKeep := some (hbmBases s).1 }
    cst := { s.cst with savedPool := fld s MAP_POOL_CFG 9 0 } })

theorem sealedState_effect (s : State) :
    (sealedState s).sys.isSealed = true ∧ (sealedState s).memc.fixedKeep = some (hbmBases s).1
      ∧ (sealedState s).cst.savedPool = fld s MAP_POOL_CFG 9 0 ∧ (sealedState s).hif.slots = s.hif.slots := by
  simp [sealedState]

theorem sameBut_sealedState (s : State) : SameBut sealParts s (sealedState s) := by
  refine ⟨by simp [sealedState], fun p hp => ?_⟩
  cases p <;> simp [sealParts, sealedState, Part.same] at hp ⊢

/-- A store of the key whose checks pass seals the unit; in Loader with the application cores running step 9 follows (R438). -/
theorem storeSeal_pass (s : State) (hs : s.sys.isSealed = false) (h : sealCheck s = 0) :
    storeSeal 0x5EA1 s = sealedState s ∨ storeSeal 0x5EA1 s = stepNine (sealedState s) := by
  have e : storeSeal 0x5EA1 s = if (sealedState s).cst.mode = .loader ∧ !(sealedState s).cpx.appsOn.isEmpty
      then stepNine (sealedState s) else sealedState s := by
    simp [storeSeal, hs, h, sealedState]
  rw [e]
  split
  · exact .inr rfl
  · exact .inl rfl

theorem storeSeal_refused (s : State) (hs : s.sys.isSealed = false) (h : sealCheck s ≠ 0) :
    storeSeal 0x5EA1 s
      = raise Ev.SYS_SEAL_REFUSED [toByte (sealCheck s)] { s with sys := { s.sys with sealFail := sealCheck s } } := by
  simp [storeSeal, hs, h]

theorem storeSeal_discarded (s : State) (v : Word) (hs : s.sys.isSealed = false) (hv : v ≠ 0x5EA1) :
    storeSeal v s = discardStore SYS_SEAL v s := by
  rw [storeSeal, if_neg (by simp [hs]), if_pos hv]

theorem storeSeal_sealed (s : State) (v : Word) (hs : s.sys.isSealed = true) : storeSeal v s = s := by
  simp [storeSeal, hs]

/-- SYS after a discarded store: only interrupt sources are new (R12). -/
theorem discardStore_sys (off : Nat) (v : Word) (s : State) :
    (discardStore off v s).sys = { s.sys with irq := addTo s.sys.irq (Ev.SYS_RESERVED_ENCODING / 256 + 1) } := by
  simp [discardStore, raise_sys]

theorem sameBut_discardStore (off : Nat) (v : Word) (s : State) : SameBut notes s (discardStore off v s) :=
  sameBut_trans (sameBut_raise ..) (sameBut_notes_bump ..)

/-! ### The checks of Table 15.3 -/

/-- The address ranges of a registered ring (Table 15.3 check 2): the device OS rings, with an index below 32, have a completion
ring too. -/
def ringSpans (p : Nat × Ring) : List (Nat × Nat) :=
  [(p.2.base, 64 * 2 ^ p.2.descLog2), (p.2.prod, 8), (p.2.cons, 8)]
    ++ (if p.1 < 32 then [(p.2.cpl, 32 * 2 ^ p.2.cplLog2), (p.2.ccons, 8)] else [])

theorem sealSpan_iff (s : State) (a n : Nat) :
    sealSpan s a n = true ↔ a + n ≤ (hbmBases s).1 * 0x100000 ∨ (0x2000000000 ≤ a ∧ a + n ≤ 0x2000400000) := by
  simp [sealSpan]

theorem sealRing_iff (s : State) (p : Nat × Ring) :
    sealRing s p.1 p.2 = true ↔ (p.2.st ≠ .off → ∀ r ∈ ringSpans p, sealSpan s r.1 r.2 = true) := by
  unfold sealRing ringSpans
  by_cases hst : p.2.st = .off
  · simp [hst]
  · by_cases hix : p.1 < 32
    · simp [hst, hix, Nat.not_le.2 hix, and_assoc]
    · simp [hst, hix, Nat.not_lt.1 hix, and_assoc]

/-- Check 1 of Table 15.3. -/
def padWaitCheck (s : State) : Prop := fld s MAP_CFG 7 0 ≤ fld s FLC_G_CFG 23 16

/-- Check 2 of Table 15.3. -/
def ringCheck (s : State) : Prop :=
  ∀ p ∈ s.sys.rings, p.2.st ≠ .off → ∀ r ∈ ringSpans p,
    r.1 + r.2 ≤ (hbmBases s).1 * 0x100000 ∨ (0x2000000000 ≤ r.1 ∧ r.1 + r.2 ≤ 0x2000400000)

theorem ringCheck_iff (s : State) : ringCheck s ↔ ∀ p ∈ s.sys.rings, sealRing s p.1 p.2 = true := by
  simp only [ringCheck, sealRing_iff, sealSpan_iff]

theorem sealCheck_eq_one (s : State) (h : ¬padWaitCheck s) : sealCheck s = 1 := by
  simp [sealCheck, Nat.not_le.1 h]

theorem sealCheck_eq_two (s : State) (h1 : padWaitCheck s) (h2 : ¬ringCheck s) : sealCheck s = 2 := by
  simpa [sealCheck, Nat.not_lt.2 h1, ringCheck_iff] using h2

theorem sealCheck_eq_zero (s : State) (h1 : padWaitCheck s) (h2 : ringCheck s) : sealCheck s = 0 := by
  simpa [sealCheck, Nat.not_lt.2 h1] using (ringCheck_iff s).1 h2

/-- The seal's answer names the first check that fails (Table 15.3). -/
theorem sealCheck_iff (s : State) :
    (sealCheck s = 1 ↔ ¬padWaitCheck s) ∧ (sealCheck s = 2 ↔ padWaitCheck s ∧ ¬ringCheck s)
      ∧ (sealCheck s = 0 ↔ padWaitCheck s ∧ ringCheck s) := by
  by_cases h1 : padWaitCheck s
  · by_cases h2 : ringCheck s
    · simp [h1, h2, sealCheck_eq_zero]
    · simp [h1, h2, sealCheck_eq_two]
  · simp [h1, sealCheck_eq_one]

/-! ### The outcomes of a store to SYS_SEAL -/

theorem answers_seal_pass (s : State) (hs : s.sys.isSealed = false) (h : sealCheck s = 0) :
    Answers (.seal 0x5EA1) s (fun t => t.sys.isSealed = true ∧ t.memc.fixedKeep = some (hbmBases s).1
      ∧ t.cst.savedPool = fld s MAP_POOL_CFG 9 0 ∧ t.hif.slots = s.hif.slots ∧ SameBut sealParts s t) := by
  refine ⟨_, rfl, ?_⟩
  obtain ⟨hsealed, hkeep, hpool, hslots⟩ := sealedState_effect s
  obtain e | e := storeSeal_pass s hs h
  · rw [e]
    exact ⟨hsealed, hkeep, hpool, hslots, sameBut_sealedState s⟩
  · rw [e]
    simp only [stepNine_frame]
    exact ⟨hsealed, hkeep, hpool, hslots, sameBut_trans (sameBut_sealedState s) (sameBut_stepNine _)⟩

theorem answers_seal_refused (s : State) (hs : s.sys.isSealed = false) (h : sealCheck s ≠ 0) :
    Answers (.seal 0x5EA1) s (fun t => t.sys = { s.sys with sealFail := sealCheck s, irq := t.sys.irq }
      ∧ SameRegsBut (noteRegs Ev.SYS_SEAL_REFUSED) s t ∧ SameBut notes s t) := by
  refine ⟨_, congrArg Host.Outcome.next (storeSeal_refused s hs h), by rw [raise_sys], fun o ho => ?_, ?_⟩
  · exact getReg_raise _ _ _ o ho
  · refine sameBut_trans ?_ (sameBut_raise ..)
    exact ⟨rfl, fun p hp => by cases p <;> simp [notes, Part.same] at hp ⊢⟩

theorem answers_seal_discarded (s : State) (v : Word) (hs : s.sys.isSealed = false) (hv : v ≠ 0x5EA1) :
    Answers (.seal v) s (fun t => t.sys = { s.sys with irq := t.sys.irq }
      ∧ rg t SYS_DISCARD_CNT = Nat.min (rg s SYS_DISCARD_CNT + 1) 0xFFFFFFFF ∧ SameBut notes s t) :=
  ⟨_, congrArg Host.Outcome.next (storeSeal_discarded s v hs hv), by rw [discardStore_sys],
    discardStore_count .., sameBut_discardStore ..⟩

theorem answers_seal_sealed (s : State) (v : Word) (hs : s.sys.isSealed = true) : Answers (.seal v) s (fun t => t = s) :=
  ⟨s, congrArg Host.Outcome.next (storeSeal_sealed s v hs), rfl⟩

/-- Settles O9: the four outcomes of a store to SYS_SEAL, and the first failing check of Table 15.3. -/
theorem sealHolds : Obligations.Seal :=
  ⟨answers_seal_pass, answers_seal_refused, answers_seal_discarded, answers_seal_sealed, sealCheck_iff⟩

end Sys2Proof.Machine
end

section
/-! SUPPORT. The host profile (R444) and the GPIO pins (R471): what Identify, the log pages and HIF_CFG show of the profile, and what an
edge at a pin does. -/

namespace Sys2Proof.Machine

open Sys2Proof.Safety

/-! ### SYS_PROFILE -/

/-- Identify data shows the profile, the map's directory, the identity, the mode and the Code Store, and no setup register. -/
theorem identifyBytes_congr {s t : State} (hmap : t.map = s.map) (hsec : t.sec = s.sec) (hcst : t.cst = s.cst)
    (hfree : t.freeCtr = s.freeCtr) (hleg : t.sys.legacy = s.sys.legacy) (cns nsid : Nat) :
    identifyBytes t cns nsid = identifyBytes s cns nsid := by
  have hact : nsActive t = nsActive s := by unfold nsActive; rw [hmap]
  have hraw : freeBytes t = freeBytes s := by unfold freeBytes; rw [hfree]
  have hns : identifyNs t nsid = identifyNs s nsid := by unfold identifyNs nsLbas; rw [hraw, hmap]
  have hctrl : identifyCtrl t = identifyCtrl s := by
    unfold identifyCtrl legacy slotVersion
    rw [hraw, hsec, hcst, hleg]
  unfold identifyBytes
  rw [hact, hraw, hns, hctrl, hmap]

/-- The sizes of the log pages follow from the profile, the map and FLT's stale list alone. -/
theorem pageSize_congr {s t : State} (hmap : t.map = s.map) (hflt : t.flt = s.flt) (hleg : t.sys.legacy = s.sys.legacy)
    (lid : Nat) : pageSize t lid = pageSize s lid := by
  unfold pageSize legacy lostList lostSegs
  rw [hmap, hflt, hleg]

/-- HIF_CFG reads its own bits [2:0] and LEGACY, the mirror of the profile, in bit 3 (R444). -/
theorem loadReg_hifCfg (s : State) :
    (loadReg HIF_CFG s).1 = toWord (fields [(0, 3, rg s HIF_CFG), (3, 1, b2n s.sys.legacy)]) :=
  rfl

theorem loadReg_hifCfg_congr {s t : State} (hrg : rg t HIF_CFG = rg s HIF_CFG) (hleg : t.sys.legacy = s.sys.legacy) :
    (loadReg HIF_CFG t).1 = (loadReg HIF_CFG s).1 := by
  rw [loadReg_hifCfg, loadReg_hifCfg, hrg, hleg]

theorem hifCfg_legacy_bit (s : State) : bits (loadReg HIF_CFG s).1.toNat 3 3 = b2n s.sys.legacy := by
  rw [loadReg_hifCfg]
  cases s.sys.legacy <;> simp [fields, bits, b2n, toWord] <;> omega

theorem sealedWrite_legacy (off : Nat) (v : Word) (s : State) : (sealedWrite off v s).sys.legacy = s.sys.legacy := by
  unfold sealedWrite
  dsimp only
  split
  · rfl
  · rw [raise_sys]

theorem countStore_legacy (d : RegDef) (off old : Nat) (v : Word) (s : State) :
    (countStore d off old v s).sys.legacy = s.sys.legacy := by
  unfold countStore raiseQuiet noteCode irqRaise
  dsimp only
  (repeat' split) <;> simp [sealedWrite_legacy]

theorem countStore_isSealed (d : RegDef) (off old : Nat) (v : Word) (s : State) :
    (countStore d off old v s).sys.isSealed = s.sys.isSealed := by
  unfold countStore sealedWrite raiseQuiet noteCode irqRaise
  dsimp only
  (repeat' split) <;> simp

theorem sameBut_storeProfile (v : Word) (s : State) : SameBut notes s (storeProfile v s) := by
  refine ⟨by simp, fun p hp => ?_⟩
  cases p <;> simp [notes, Part.same] at hp ⊢

/-- With CC.EN = 1 the store is discarded (R444). -/
theorem storeProfile_locked (v : Word) (s : State) (h : s.hif.ccEn = true) :
    storeProfile v s = raise Ev.SYS_PROFILE_LOCKED (le 4 v.toNat) s := by
  simp [storeProfile, h]

/-- With CC.EN = 0 the profile follows bit 0 before the seal and stays after it (R434, R444). -/
theorem storeProfile_legacy (v : Word) (s : State) (h : s.hif.ccEn = false) :
    (storeProfile v s).sys.legacy = if s.sys.isSealed then s.sys.legacy else bitAt v.toNat 0 := by
  have hd : regDef SYS_PROFILE = some { off := SYS_PROFILE, seald := 1 } := by decide
  simp only [storeProfile, h, hd, countStore_isSealed]
  cases s.sys.isSealed <;> simp [countStore_legacy]

theorem answers_profileWrite_taken (s : State) (v : Word) (hen : s.hif.ccEn = false) (hs : s.sys.isSealed = false) :
    Answers (.profileWrite v) s (fun t => t.sys.legacy = bitAt v.toNat 0
      ∧ bits (loadReg HIF_CFG t).1.toNat 3 3 = b2n (bitAt v.toNat 0)
      ∧ (∀ cns nsid, identifyBytes t cns nsid = identifyBytes { s with sys := { s.sys with legacy := bitAt v.toNat 0 } } cns nsid)
      ∧ (∀ lid, pageSize t lid = pageSize { s with sys := { s.sys with legacy := bitAt v.toNat 0 } } lid) ∧ SameBut notes s t) := by
  have hleg : (storeProfile v s).sys.legacy = bitAt v.toNat 0 := by simp [storeProfile_legacy v s hen, hs]
  refine ⟨storeProfile v s, rfl, hleg, ?_, fun cns nsid => ?_, fun lid => ?_, sameBut_storeProfile v s⟩
  · rw [hifCfg_legacy_bit, hleg]
  · exact identifyBytes_congr (by simp) (by simp) (by simp) (by simp) hleg cns nsid
  · exact pageSize_congr (by simp) (by simp) hleg lid

theorem answers_profileWrite_locked (s : State) (v : Word) (hen : s.hif.ccEn = true) :
    Answers (.profileWrite v) s (fun t => t = raise Ev.SYS_PROFILE_LOCKED (le 4 v.toNat) s ∧ t.sys.legacy = s.sys.legacy
      ∧ (loadReg HIF_CFG t).1 = (loadReg HIF_CFG s).1 ∧ SameBut notes s t) := by
  have hleg : (raise Ev.SYS_PROFILE_LOCKED (le 4 v.toNat) s).sys.legacy = s.sys.legacy := by rw [raise_sys]
  refine ⟨_, congrArg Host.Outcome.next (storeProfile_locked v s hen), rfl, hleg, ?_, sameBut_raise ..⟩
  exact loadReg_hifCfg_congr (rg_raise _ _ _ _ (by decide)) hleg

theorem answers_profileWrite_sealed (s : State) (v : Word) (hen : s.hif.ccEn = false) (hs : s.sys.isSealed = true) :
    Answers (.profileWrite v) s (fun t => t.sys.legacy = s.sys.legacy ∧ SameBut notes s t) :=
  ⟨storeProfile v s, rfl, by simp [storeProfile_legacy v s hen, hs], sameBut_storeProfile v s⟩

/-! ### GPIO -/

theorem bitAt_eq_testBit (w i : Nat) : bitAt w i = w.testBit i := by
  rw [bitAt, Nat.testBit_eq_decide_div_mod_eq]

/-- A bit reads back as it was set. -/
theorem bitAt_putBits_same (w i : Nat) (b : Bool) : bitAt (putBits w i i (b2n b)) i = b := by
  have hpos : 0 < 2 ^ i := Nat.two_pow_pos i
  have hclear : (w - w / 2 ^ i % 2 * 2 ^ i) / 2 ^ i = w / 2 ^ i - w / 2 ^ i % 2 := by
    rw [Nat.mul_comm, Nat.sub_mul_div]
  have hbit : (putBits w i i (b2n b)) / 2 ^ i = w / 2 ^ i - w / 2 ^ i % 2 + b2n b % 2 := by
    simp [putBits, bits, Nat.add_mul_div_right _ _ hpos, hclear]
  rw [bitAt, hbit]
  cases b <;> simp [b2n] <;> omega

/-- A bit below 32 survives the passage to a word. -/
theorem bitAt_toWord (n i : Nat) (h : i < 32) : bitAt (toWord n).toNat i = bitAt n i := by
  rw [bitAt_eq_testBit, bitAt_eq_testBit, toWord, BitVec.toNat_ofNat, Nat.testBit_mod_two_pow]
  simp [h]

theorem sameBut_gpioLevel (g : Nat) (hi : Bool) (s : State) : SameBut [.regs, .sys] s (gpioLevel g hi s) := by
  refine ⟨by simp, fun p hp => ?_⟩
  cases p <;> simp [Part.same] at hp ⊢

/-- The state after the level at a pin has moved, before an edge is looked for. -/
def pinMoved (g : Nat) (hi : Bool) (s : State) : State :=
  { s with sys := { s.sys with gpioIn := putBits s.sys.gpioIn g g (b2n hi) } }

/-- A selected edge sets its event bit and raises its source (R471). -/
theorem gpioLevel_selected (g : Nat) (hi : Bool) (s : State) (hlevel : bitAt s.sys.gpioIn g ≠ hi)
    (hsel : bitAt (rg s SYS_GPIO_EDGE) (2 * g + (1 - b2n hi)) = true) :
    gpioLevel g hi s
      = irqRaise (71 + g) (setReg SYS_GPIO_EVENT (toWord (putBits (rg s SYS_GPIO_EVENT) g g 1)) (pinMoved g hi s)) := by
  rw [gpioLevel, if_neg hlevel]
  exact if_pos hsel

/-- An edge that is not selected only moves the pin (R471). -/
theorem gpioLevel_unselected (g : Nat) (hi : Bool) (s : State) (hlevel : bitAt s.sys.gpioIn g ≠ hi)
    (hsel : bitAt (rg s SYS_GPIO_EDGE) (2 * g + (1 - b2n hi)) = false) : gpioLevel g hi s = pinMoved g hi s := by
  rw [gpioLevel, if_neg hlevel]
  exact if_neg (Bool.eq_false_iff.1 hsel)

theorem exec_gpioEdge (g : Nat) (hi : Bool) (s : State) (hg : g < 16) : exec (.gpioEdge g hi) s = .next (gpioLevel g hi s) :=
  congrArg Host.Outcome.next (if_pos hg)

theorem answers_gpioEdge_selected (s : State) (g : Nat) (hi : Bool) (hg : g < 16) (hlevel : bitAt s.sys.gpioIn g ≠ hi)
    (hsel : bitAt (rg s SYS_GPIO_EDGE) (2 * g + (1 - b2n hi)) = true) :
    Answers (.gpioEdge g hi) s (fun t => bitAt t.sys.gpioIn g = hi ∧ bitAt (rg t SYS_GPIO_EVENT) g = true ∧ 71 + g ∈ t.sys.irq
      ∧ SameRegsBut [SYS_GPIO_EVENT] s t ∧ SameBut [.regs, .sys] s t) := by
  have hframe := sameBut_gpioLevel g hi s
  refine answers_of_next (exec_gpioEdge g hi s hg) ?_
  rw [gpioLevel_selected g hi s hlevel hsel] at hframe ⊢
  refine ⟨bitAt_putBits_same _ g hi, ?_, mem_addTo_self _ _, fun o ho => ?_, hframe⟩
  · calc bitAt (rg (setReg SYS_GPIO_EVENT (toWord (putBits (rg s SYS_GPIO_EVENT) g g 1)) (pinMoved g hi s)) SYS_GPIO_EVENT) g
        = bitAt (putBits (rg s SYS_GPIO_EVENT) g g 1) g := by rw [rg_setReg_same, bitAt_toWord _ _ (by omega)]
      _ = true := bitAt_putBits_same _ g true
  · exact getReg_setReg_other _ o _ (pinMoved g hi s) (by simpa using ho)

theorem answers_gpioEdge_unselected (s : State) (g : Nat) (hi : Bool) (hg : g < 16) (hlevel : bitAt s.sys.gpioIn g ≠ hi)
    (hsel : bitAt (rg s SYS_GPIO_EDGE) (2 * g + (1 - b2n hi)) = false) :
    Answers (.gpioEdge g hi) s (fun t => bitAt t.sys.gpioIn g = hi ∧ t.sys.irq = s.sys.irq ∧ SameBut [.sys] s t) := by
  refine answers_of_next (exec_gpioEdge g hi s hg) ?_
  rw [gpioLevel_unselected g hi s hlevel hsel]
  refine ⟨bitAt_putBits_same _ g hi, rfl, rfl, fun p hp => ?_⟩
  cases p <;> simp [Part.same, pinMoved] at hp ⊢

/-- Settles O14: SYS_PROFILE with the host off, on, and after the seal, and an edge that is selected or not. -/
theorem profileAndGpio : Obligations.ProfileAndGpio :=
  ⟨answers_profileWrite_taken, answers_profileWrite_locked, answers_profileWrite_sealed, answers_gpioEdge_selected,
    answers_gpioEdge_unselected⟩

end Sys2Proof.Machine
end
